-- ==== Sys2Proof/Word.lean ====
section
/-! DEFINITION. The word types of the ZH1024 (R69, R72) and nothing else. -/

namespace Sys2Proof

/-- A 32-bit word: general register, data-memory word, instruction word, BAR0 register. -/
abbrev Word := BitVec 32

/-- One byte of package memory or of a record. -/
abbrev Byte := BitVec 8

/-- A 48-bit accumulator, Q18.30 (R72). -/
abbrev AccWord := BitVec 48

/-- A 12-bit word address into a burin's data memory (R69). -/
abbrev Ptr := BitVec 12

/-- A 16-bit post-modify offset register (R69). -/
abbrev Off := BitVec 16

/-- A sparse table: key and value pairs in one canonical form, keys strictly rising and no
entry equal to what an unlisted key reads as. -/
abbrev Tab (α : Type) := List (Nat × α)

end Sys2Proof
end

