-- ==== Sys2Proof/Syntax.lean ====
section
/-! DEFINITION. The commands of the block: one constructor of `Instr` per row of the spec's table of
operations and events, with the row's operands. Hardware indices are `Fin`; a field of a parameter
structure is a `Nat` (or an `Int` where the spec calls it signed), because the spec says what
happens for every value of it. -/

namespace Sys2Proof

/-! ### Operands shared by many rows -/

abbrev BurinId := Fin 1024
abbrev GReg := Fin 16
abbrev PReg := Fin 8
abbrev MReg := Fin 8
abbrev AReg := Fin 4

/-- The three forms of an ME memory operand (R77). -/
inductive MemForm where
  | plain
  | post (ma : MReg)
  | index (gx : GReg)
  deriving DecidableEq, Repr

/-- A memory operand: a pointer and a form (R77). -/
structure Mem where
  pa : PReg
  form : MemForm
  deriving DecidableEq, Repr

/-- The form of the memory operand of CSUBM and WSQ, whose `gx` field names the register operand
and, in the indexed form, the index as well. -/
inductive MemKind where
  | plain
  | post (ma : MReg)
  | index
  deriving DecidableEq, Repr

/-- The header of a submission entry as the Atelier reads it (R406, R407): the queue it came from,
its tag, its flags byte, plen, the address that an indirect entry holds, and the byte offset of the
first nonzero reserved field of header or structure, if any (R9). -/
structure Hdr where
  sq : Fin 64
  cmdId : Nat
  flags : Nat
  plen : Nat
  addr : Nat
  resv : Option Nat
  deriving DecidableEq, Repr

/-- A timestamp or 16-byte time field (R11, R407). -/
structure Stamp where
  sec : Nat
  ns : Nat
  frac : Nat
  deriving DecidableEq, Repr

/-- A tone: a drive tone pp × 8 + t, or a read-out tone nn × 16 + k (R42). -/
inductive ToneId where
  | drive (i : Fin 256)
  | ro (i : Fin 256)
  deriving DecidableEq, Repr

/-- A play-out queue (R42). -/
inductive QueueId where
  | drive (i : Fin 256)
  | ro (i : Fin 256)
  | z (i : Fin 256)
  deriving DecidableEq, Repr

/-- A root of this device by its LOCAL field: a burin or a plate descriptor (R129). -/
inductive CellRef where
  | burin (b : BurinId)
  | plate (n : Fin 4096)
  deriving DecidableEq, Repr

/-- The source of a read-out stream: a read-out tone or a stipple tone (R232). -/
inductive SrcId where
  | tone (i : Fin 256)
  | stip (port : Fin 16) (t : Fin 128)
  deriving DecidableEq, Repr

/-- One 16-byte item of CELL_CONFIGURE (R417). -/
structure CfgItem where
  code : Nat
  target : Nat
  aux : Nat
  value : Nat
  deriving DecidableEq, Repr

/-- The fields of EVENT_ROUTE BIND (R270, R423). -/
structure BindArgs where
  kind : Nat
  channel : Nat
  width : Nat
  flags : Nat
  rs : Nat
  stmax : Nat
  stwin : Nat
  gsrc : Nat
  gidx : Nat
  ring : Nat
  producers : List Nat
  consumers : List Nat
  deriving DecidableEq, Repr

/-- The settings of an acquisition engine (R292), as ACQ_SET carries them (R423). -/
structure AcqSettings where
  src : Nat
  tsel : Nat
  ttone : Nat
  tsrc : Nat
  pin : Nat
  ttype : Nat
  pol : Nat
  tmask : Nat
  lo : Int
  hi : Int
  hys : Nat
  nseg : Nat
  wcond : Nat
  armsrc : Nat
  ring : Nat
  w1 : Nat
  w2 : Nat
  tw : Nat
  rlen : Nat
  rbase : Nat
  pre : Nat
  post : Nat
  deriving DecidableEq, Repr

/-- The settings of a time domain (R334, R424). -/
structure DomSettings where
  source : Nat
  port : Nat
  profile : Nat
  ptpdom : Nat
  transport : Nat
  delay : Int
  bw : Nat
  deriving DecidableEq, Repr

/-- The settings of TIME_SET SERVO (R341, R424). -/
structure ServoArgs where
  selmode : Nat
  revert : Nat
  slew : Nat
  slewacc : Nat
  hlimit : Nat
  hwander : Nat
  deriving DecidableEq, Repr

/-- The settings of a host-measurement engine (R357, R424). -/
structure TiuArgs where
  mode : Nat
  srca : Nat
  srcb : Nat
  edge : Nat
  ring : Nat
  div : Nat
  count : Nat
  gate : Nat
  start : Stamp
  deriving DecidableEq, Repr

/-- The fields of RING_SET (R437). -/
structure RingArgs where
  ring : Nat
  flags : Nat
  vec : Nat
  dbase : Nat
  dlen : Nat
  cnt : Nat
  hbase : Nat
  hlen : Nat
  itime : Nat
  ctrl : Nat
  deriving DecidableEq, Repr

/-- The fields of TIME_TIMER ARM (R347, R424). -/
structure TimerArgs where
  element : Nat
  index : Nat
  pol : Nat
  root : Nat
  period : Nat
  len : Nat
  count : Nat
  start : Stamp
  deriving DecidableEq, Repr

/-- The fields of SEGMENT_LOAD (R422). -/
structure SegLoadArgs where
  port : Nat
  swap : Bool
  root : Nat
  src : Nat
  sFirst : Nat
  sCount : Nat
  gFirst : Nat
  gCount : Nat
  pFirst : Nat
  pCount : Nat
  deriving DecidableEq, Repr

/-- The fields of POWER_SET GOVERNOR (R425). -/
structure GovArgs where
  mode : Nat
  vmin : Nat
  vmax : Nat
  vfixed : Nat
  nearlate : Nat
  lower : Nat
  deriving DecidableEq, Repr

/-- A container in the flash, from its first header byte (R116): a firmware slot, or an entry of the patch directory. -/
structure Container where
  bytes : List Byte
  deriving DecidableEq, Repr

/-- The patch directory: its head with its entries, and what the flash holds at each entry (R540). -/
structure PatchDir where
  head : List Byte
  conts : List Container
  deriving DecidableEq, Repr

/-- The 64 bytes of the boot configuration (R541). -/
structure BootCfg where
  bytes : List Byte
  deriving DecidableEq, Repr

/-- The 64 bytes of the boot header, and how many bytes the flash has (R537, R538). -/
structure BootHdr where
  bytes : List Byte
  flashSize : Nat
  deriving DecidableEq, Repr

/-- Which header fields a DECISION frame carries (R373, R376, R381). -/
structure HatchFrame where
  dest : Nat
  channel : Nat
  w64 : Bool
  payload : BitVec 64
  deriving DecidableEq, Repr

/-- A 66-bit block as received (R366): its sync header, its body as it came, and the 58 bits of bodies that came before it
on its lane, newest lowest, from which the self-synchronous descrambler reads it. -/
structure Wire where
  head : BitVec 2
  prev : BitVec 58
  body : BitVec 64
  deriving DecidableEq, Repr

/-- A frame as received: its own blocks, in stream order, those of an interrupting frame left out (R375). -/
structure FrameTag where
  blocks : List Wire
  deriving DecidableEq, Repr

/-- A training set of a TRAIN block (R369). -/
inductive TrainSet where
  | tsId (lane port device gens feat state : Nat) (ack dnv : Bool)
  | tsCfg (crDec crTime crCtrl crBulk : Nat)
  deriving DecidableEq, Repr

/-- The fields of a LINK block (R378). -/
structure LinkBlock where
  ackp : Nat
  nakp : Bool
  ackq : Nat
  nakq : Bool
  rdec : Nat
  rtime : Nat
  rctrl : Nat
  rbulk : Nat
  deriving DecidableEq, Repr

/-- A command that concerns several devices (R137, R138, R266, R515), as one device passes it to another. -/
inductive Task where
  | configure (cell : Nat) (items : List CfgItem)
  | load (cell flags preset image length dwords dmem : Nat) (presets : List Word)
  | start (cell period : Nat)
  | schedule (cell count period : Nat) (origin : Stamp)
  /-- A series as the home device numbers it (R22, R140): root, first number, count (0 endless), period and origin. -/
  | series (root first count period : Nat) (origin : Stamp)
  | stop (cell : Nat)
  /-- The stop of a root at the shot of that number, after its last shot if none (R142). -/
  | halt (root : Nat) (first : Option Nat)
  | abort (cell : Nat)
  | add (plate : Nat) (members : List Nat)
  | remove (plate : Nat) (members : List Nat)
  | seal (plate : Nat)
  | dissolve (plate : Nat)
  | bind (args : BindArgs)
  | unbind (channel : Nat)
  | proof (cell tests : Nat)
  /-- FAULT_CLEAR and the roots it concerns; `up` while every device that has answered finds its links on their
  device trees up (R148, R515). -/
  | clear (scope target : Nat) (roots : List Nat) (up : Bool)
  deriving DecidableEq, Repr

/-- What the tree below a plate holds (R132): burins, levels of plates (0 without a burin) and devices. -/
structure TreeInfo where
  burins : Nat := 0
  depth : Nat := 0
  devs : List Nat := []
  deriving DecidableEq, Repr

/-- What stands above a plate (R132, R140, R252): its ancestors up to the root, the root's start lead and record ring,
the devices of the root, and the tree below the plate itself. -/
structure RootInfo where
  up : List Nat := []
  lead : Nat := 2000
  ring : Nat := 0
  devs : List Nat := []
  tree : TreeInfo := {}
  deriving DecidableEq, Repr

/-- What a CONTROL frame between devices says (R137, R138, R142, R148, R149, R266, R383, R514). The frame's own coding is
device-private (R374); these are the things the rules say it carries. `id` is the asking device's number for a
command. -/
inductive ControlMsg where
  /-- A command on a cell of the device addressed, for that device to carry out, and how it ended. -/
  | request (id : Nat) (t : Task)
  | answered (id status result : Nat)
  /-- Phase one of a command: the device is asked whether it accepts its part, and answers with a status and
  whether its links on the trees of the roots concerned are up (R138, R515). -/
  | ask (id : Nat) (t : Task)
  | vote (id status : Nat) (up : Bool)
  /-- Phase two, its confirmation, and the end of a command that is not applied. -/
  | apply (id : Nat) (t : Task)
  | confirm (id : Nat)
  | drop (id : Nat)
  /-- A device that leaves RUN stops a root (R143); the root has stopped on the sender (R142). -/
  | halt (root : Nat) (first : Option Nat)
  | stopped (root : Nat)
  /-- What stands above a plate of which a direct member lies on the device addressed. -/
  | rootIs (plate : Nat) (r : RootInfo)
  /-- What stands below a member plate whose parent lies on the device addressed. -/
  | treeIs (plate : Nat) (t : TreeInfo)
  /-- The signature of a device's part of a cell run and the one expected (R149); none where the run was abandoned. -/
  | proofResult (id : Nat) (r : Option (BitVec 64 × BitVec 64))
  /-- A doubt report to the home device (R514): root, code, tick, detail bytes. -/
  | doubtReport (root code tick : Nat) (detail : List Byte)
  /-- The port's peer no longer reaches these devices, or reaches them again (R148, R383). -/
  | lost (devs : List Nat)
  | back (devs : List Nat)
  deriving DecidableEq, Repr

/-- A CONTROL frame's destination and what it says. -/
structure ControlBody where
  dest : Nat
  msg : ControlMsg
  deriving DecidableEq, Repr

/-- What a frame that this device sends carries, with its DEST (R373, R381, R384). -/
inductive FrameBody where
  | hatchData (f : HatchFrame)
  | hatchCredit (dest channel : Nat)
  | doubt (dest root : Nat)
  | tReq (exch : Nat)
  | tResp (exch : Nat) (t2Ps : Int)
  | tFollow (exch dev : Nat) (parent : Option Nat) (hops tstate : Nat) (t3Ps : Int)
  | control (src : Nat) (b : ControlBody)
  | bulk (src dest type : Nat) (data : List (BitVec 8))
  deriving DecidableEq, Repr

/-- The signatures of a proof run (R149, R530): of the tested domain, or of each burin below the cell. -/
structure ProofSigs where
  dom : BitVec 64
  burins : List (Nat × BitVec 64)
  deriving DecidableEq, Repr

/-- A reading of one Z channel's read-back tap, in microvolts. -/
structure ZReading where
  chan : Fin 256
  uv : Int
  deriving DecidableEq, Repr

/-- The three conversions of a regular slot (R468). -/
structure Slot where
  a : Int := 0
  b : Int := 0
  c : Int := 0
  deriving DecidableEq, Repr

/-- The reading of a slot: their mean, rounded half up. -/
def Slot.mean (x : Slot) : Int := (2 * (x.a + x.b + x.c) + 3) / 6

/-- What one round reads for one domain: voltage in millivolts, current in milliamperes, nominal
voltage, maximum current (the channel ranges of R467). -/
structure DomReading where
  mv : Int
  ma : Int
  nomMv : Nat
  maxMa : Nat
  deriving DecidableEq, Repr

/-- What the regular slots of one housekeeping round convert (R468, R469): the voltage and current of domains 0–23 with the
ranges of their channels, diodes 0–7, AUX codes and the check DAC, and the round's length in microseconds. -/
structure RoundSlots where
  doms : List (Slot × Slot × Nat × Nat)
  diodes : List Slot
  aux : List Slot
  chkA : Slot
  chkB : Slot
  lengthUs : Nat
  deriving DecidableEq, Repr

/-- The readings of one housekeeping round (R469, R474): domains 0–23, diodes 0–7 in 1/16 °C,
AUX codes, the two check-DAC readings, and the round's length in microseconds. -/
structure RoundReadings where
  doms : List DomReading
  diodes : List Int
  aux : List Nat
  chkA : Nat
  chkB : Nat
  lengthUs : Nat
  deriving DecidableEq, Repr

/-- The readings that the slots of a round give. -/
def RoundSlots.readings (r : RoundSlots) : RoundReadings :=
  { doms := r.doms.map fun e => { mv := e.1.mean, ma := e.2.1.mean, nomMv := e.2.2.1, maxMa := e.2.2.2 }
    diodes := r.diodes.map Slot.mean, aux := r.aux.map fun x => x.mean.toNat
    chkA := r.chkA.mean.toNat, chkB := r.chkB.mean.toNat, lengthUs := r.lengthUs }

/-- One housekeeping result of an injected slot pair for a domain (R472). -/
structure InjReading where
  z : List ZReading
  deriving DecidableEq, Repr

/-- What every PTP message as received says of itself (R336): the domain A or B of this device that it is held against, its
domainNumber, its versions, its transport, the port identity of its sender, and whether it is well formed and within the
subset that the device supports. -/
structure PtpHdr where
  dom : Nat
  number : Nat
  version : Nat
  minor : Nat
  udp : Bool
  source : Nat
  wellFormed : Bool
  deriving DecidableEq, Repr

/-- A Sync, with the instant the time-interval unit stamped, in picoseconds of device time; `l1` where L1Sync with its
sender is complete (R336, R337). -/
structure PtpSync where
  hdr : PtpHdr
  seq : Nat
  twoStep : Bool
  l1 : Bool
  rxPs : Int
  originPs : Int
  deriving DecidableEq, Repr

/-- The data set of a grandmaster as an Announce gives it, and the steps to it. -/
structure PtpRank where
  priority1 : Nat
  clockClass : Nat
  accuracy : Nat
  variance : Nat
  priority2 : Nat
  steps : Nat
  deriving DecidableEq, Repr

/-- The kinds of end a wake step can have that the environment decides (R432, R454). -/
structure RestoreInfo where
  /-- Retained bank k, in order: the exclusive-or of what it holds and what it held at entry, from its first byte on
  (R454); empty where nothing differs. -/
  banks : List (List Byte)
  /-- Per die: result, read margin, write margin (PD04 MEM from Off). -/
  dies : List (Nat × Nat × Nat)
  /-- Tiles whose reload read-back differs (R124). -/
  badTiles : Nat
  /-- Bytes of copy A and of copy B that read otherwise than written: instance, offset in the slot, byte (R506). -/
  upA : List (Nat × Nat × Byte)
  upB : List (Nat × Nat × Byte)
  /-- Instances whose manufacturing record is invalid (R506). -/
  badF : List Nat
  deriving DecidableEq, Repr

/-- A lane of the serial group on which a frame arrives. -/
abbrev JvlPort := Fin 8

/-! ### The commands -/

/-- One constructor per row of the table of operations and events. -/
inductive Instr where
  -- reset and boot
  | powerUp
  | resetN
  | supplyLoss
  | refclkValid
  | refclkLoss
  | bootHost (mgmtOk hostOk : Bool)
  | bootFlash (answers noSfdp : Bool) (flashId : Nat) (hdr : BootHdr) (cfg : BootCfg)
  | bootFirmware (a b : Container)
  | bootDomains (failed : Nat) (dies : List (Nat × Nat × Nat)) (info : RestoreInfo)
  | bootPatch (dir : PatchDir) (badTiles : Nat)
  | bootFinal
  -- host interface
  | pcieLinkDown
  | sqdb (q : Fin 64) (value : Word) (opens : Bool)
  | cqdb (q : Fin 64) (value : Word)
  | sqctl (q : Fin 64) (value : Word)
  | faultsum (value : Word)
  | hbHost (value : Word)
  | hbCtl (value : Word)
  | registerWrite (offset bytes : Nat) (value : Word)
  | hbDevAdvance
  | heartbeatTimeout
  | completionRelease (cq : Fin 64)
  | cqInterruptTimer (cq : Fin 64)
  | bar2Read (addr len : Nat)
  | bar2Write (addr : Nat) (data : List Byte)
  -- mailbox commands
  | unknownCommand (h : Hdr) (opcode : Nat)
  | open_ (h : Hdr) (vmin vmax : Nat)
  | close (h : Hdr)
  | queueResume (h : Hdr)
  | fence (h : Hdr) (mask : BitVec 64)
  | cellConfigure (h : Hdr) (cell : Nat) (items : List CfgItem)
  | cellLoad (h : Hdr) (cell flags preset image length dwords dmem : Nat) (presets : List Word)
  | cellStart (h : Hdr) (cell period : Nat)
  | cellStop (h : Hdr) (cell : Nat)
  | cellAbort (h : Hdr) (cell : Nat)
  | cellAbortCommandForm (h : Hdr) (cell sq cmdId : Nat)
  | plateComposeCreate (h : Hdr) (plate : Nat)
  | plateComposeAdd (h : Hdr) (plate : Nat) (members : List Nat)
  | plateComposeRemove (h : Hdr) (plate : Nat) (members : List Nat)
  | plateComposeSeal (h : Hdr) (plate : Nat)
  | plateComposeDissolve (h : Hdr) (plate : Nat)
  | shotSchedule (h : Hdr) (cell count period : Nat) (origin : Stamp)
  | segmentLoad (h : Hdr) (a : SegLoadArgs)
  | filterLoad (h : Hdr) (target what bank : Nat) (swap : Bool) (src : Nat)
  | markLoadLoad (h : Hdr) (first count tsmask segFirst segCount src : Nat)
  | markLoadConfig (h : Hdr) (outputs : Word) (mode idle : Nat) (offs : Int) (fw sosel : Nat) (setSo : Bool)
  | markLoadStart (h : Hdr) (root seg source delay : Nat) (time : Stamp)
  | markLoadStop (h : Hdr)
  | streamOpen (h : Hdr) (source ring : Nat)
  | streamClose (h : Hdr) (source : Nat)
  | align (h : Hdr) (source syncDelay : Nat) (time : Stamp)
  | alignCancel (h : Hdr)
  | eventRouteBind (h : Hdr) (a : BindArgs)
  | eventRouteUnbind (h : Hdr) (channel : Nat)
  | eventGate (h : Hdr) (mask value : BitVec 64) (time : Stamp)
  | gateChange
  | acqSet (h : Hdr) (engine : Nat) (a : AcqSettings)
  | acqArm (h : Hdr) (engine : Nat)
  | acqDisarm (h : Hdr) (engine : Nat)
  | timeSetStepAbs (h : Hdr) (time : Stamp)
  | timeSetStepRel (h : Hdr) (ticks : Int)
  | timeSetDomain (h : Hdr) (dom : Nat) (a : DomSettings)
  | timeSetServo (h : Hdr) (a : ServoArgs)
  | timeSetUtc (h : Hdr) (offset : Int)
  | timeSelect (h : Hdr) (sel : Nat)
  | timeTimerArm (h : Hdr) (a : TimerArgs)
  | timeTimerStop (h : Hdr) (element index : Nat)
  | timeQuery (h : Hdr) (len : Nat)
  | tiuMeasureStart (h : Hdr) (engine : Nat) (a : TiuArgs)
  | tiuMeasureStop (h : Hdr) (engine : Nat)
  | tiuMeasureQuery (h : Hdr) (engine len : Nat)
  | calRun (h : Hdr) (scope target ramp : Nat)
  | calCommit (h : Hdr) (scope target ramp : Nat)
  | calSet (h : Hdr) (scope : Nat) (auto : Bool) (dtemp cwin cdead ramp : Nat)
  | powerSetDomain (h : Hdr) (domain state wake : Nat)
  | powerSetGovernor (h : Hdr) (a : GovArgs)
  | proofRun (h : Hdr) (kind domain tests cell : Nat)
  | modeSet (h : Hdr) (mode : Nat)
  | statusQuery (h : Hdr) (kind target len : Nat)
  | ledgerQuery (h : Hdr) (cls index len : Nat)
  | faultClear (h : Hdr) (scope target : Nat)
  | patchStatus (h : Hdr) (len : Nat)
  | linkStatus (h : Hdr) (port len : Nat)
  | linkSet (h : Hdr) (port flags genmax loopback address pfx : Nat)
  | ringSet (h : Hdr) (a : RingArgs)
  | hkSet (h : Hdr) (dislim : Nat) (slots : List (Nat × Nat))
  | netSetDevnum (h : Hdr) (devnum : Nat)
  | netSetRoutes (h : Hdr) (src first count : Nat)
  -- sideband
  | pwrReq (value : Word)
  | proofReq (value : Word) (cell : Word)
  | reset (value : Word)
  | pwrStat
  | proofStat
  | entdaa (addr : Nat)
  | setdasa (addr : Nat)
  | rstdaa
  | getpid
  | getbcr
  | getdcr
  | getstatus
  -- shots, play-out, governor
  | startEvent (root : CellRef)
  | heldStart (b : BurinId)
  | shotBoundary (root : CellRef)
  | entryArrival (q : QueueId)
  | creditReturn (q : QueueId)
  | putHoldRelease (b : BurinId)
  | governorInterval
  | lineFetchComplete (b : BurinId) (uncorrectable : Bool)
  | waitWake (b : BurinId)
  -- burin instructions
  | nop (b : BurinId)
  | end_ (b : BurinId)
  | jmp (b : BurinId) (off : BitVec 16)
  | jt (b : BurinId) (gs : GReg) (n : Fin 16)
  | rep (b : BurinId) (gs : GReg) (len : Fin 256)
  | repi (b : BurinId) (count : BitVec 16) (len : Fin 256)
  | beq (b : BurinId) (ga gb : GReg) (off : BitVec 16)
  | bne (b : BurinId) (ga gb : GReg) (off : BitVec 16)
  | blt (b : BurinId) (ga gb : GReg) (off : BitVec 16)
  | bge (b : BurinId) (ga gb : GReg) (off : BitVec 16)
  | bltu (b : BurinId) (ga gb : GReg) (off : BitVec 16)
  | bgeu (b : BurinId) (ga gb : GReg) (off : BitVec 16)
  | beqz (b : BurinId) (ga : GReg) (off : BitVec 16)
  | bnez (b : BurinId) (ga : GReg) (off : BitVec 16)
  | add (b : BurinId) (gd ga gb : GReg)
  | sub (b : BurinId) (gd ga gb : GReg)
  | and_ (b : BurinId) (gd ga gb : GReg)
  | or_ (b : BurinId) (gd ga gb : GReg)
  | xor_ (b : BurinId) (gd ga gb : GReg)
  | shl (b : BurinId) (gd ga gb : GReg)
  | shr (b : BurinId) (gd ga gb : GReg)
  | sar (b : BurinId) (gd ga gb : GReg)
  | mul (b : BurinId) (gd ga gb : GReg)
  | mulh (b : BurinId) (gd ga gb : GReg)
  | min (b : BurinId) (gd ga gb : GReg)
  | max (b : BurinId) (gd ga gb : GReg)
  | minu (b : BurinId) (gd ga gb : GReg)
  | maxu (b : BurinId) (gd ga gb : GReg)
  | adds (b : BurinId) (gd ga gb : GReg)
  | subs (b : BurinId) (gd ga gb : GReg)
  | addi (b : BurinId) (gd ga : GReg) (imm : BitVec 16)
  | andi (b : BurinId) (gd ga : GReg) (imm : BitVec 16)
  | ori (b : BurinId) (gd ga : GReg) (imm : BitVec 16)
  | xori (b : BurinId) (gd ga : GReg) (imm : BitVec 16)
  | shli (b : BurinId) (gd ga : GReg) (imm : Fin 32)
  | shri (b : BurinId) (gd ga : GReg) (imm : Fin 32)
  | sari (b : BurinId) (gd ga : GReg) (imm : Fin 32)
  | movi (b : BurinId) (gd : GReg) (imm : BitVec 16)
  | movhi (b : BurinId) (gd : GReg) (imm : BitVec 16)
  | addpi (b : BurinId) (gd : GReg) (imm : BitVec 16)
  | addp (b : BurinId) (gd gb : GReg)
  | mov (b : BurinId) (gd ga : GReg)
  | extu (b : BurinId) (gd ga : GReg) (pos w : Fin 32)
  | exts (b : BurinId) (gd ga : GReg) (pos w : Fin 32)
  | shin (b : BurinId) (gd ga : GReg) (w : Fin 32)
  | dep (b : BurinId) (gd ga : GReg) (pos w : Fin 32)
  | movpi (b : BurinId) (pd : PReg) (imm : BitVec 12)
  | movmi (b : BurinId) (md : MReg) (imm : BitVec 12)
  | movpg (b : BurinId) (pd : PReg) (g : GReg)
  | movgp (b : BurinId) (g : GReg) (ps : PReg)
  | movmg (b : BurinId) (md : MReg) (g : GReg)
  | modp (b : BurinId) (pd : PReg) (ms : MReg)
  | leap (b : BurinId) (pd ps : PReg) (g : GReg) (sh : Fin 4)
  | ld (b : BurinId) (g : GReg) (m : Mem)
  | st (b : BurinId) (g : GReg) (m : Mem)
  | ldd (b : BurinId) (g : GReg) (m : Mem)
  | std (b : BurinId) (g : GReg) (m : Mem)
  | ldx (b : BurinId) (g : GReg) (pa : PReg) (gx : GReg)
  | stx (b : BurinId) (g : GReg) (pa : PReg) (gx : GReg)
  | cadd (b : BurinId) (gd ga gb : GReg)
  | csub (b : BurinId) (gd ga gb : GReg)
  | csubm (b : BurinId) (g gx : GReg) (pa : PReg) (k : MemKind)
  | cmulr (b : BurinId) (gd ga gb : GReg)
  | cconj (b : BurinId) (gd ga : GReg)
  | cscl (b : BurinId) (gd ga gb : GReg)
  | cmag2 (b : BurinId) (gd ga : GReg)
  | wsq (b : BurinId) (g gx : GReg) (pa : PReg) (k : MemKind)
  | dsq (b : BurinId) (gs : GReg) (pd : PReg) (md : Option MReg) (pa : PReg) (ma : Option MReg)
  | cpk (b : BurinId) (gd ga gb : GReg)
  | clra (b : BurinId) (acc : AReg)
  | mova (b : BurinId) (acc : AReg) (g : GReg)
  | mac (b : BurinId) (acc : AReg) (g gb : GReg)
  | msu (b : BurinId) (acc : AReg) (g gb : GReg)
  | cmul (b : BurinId) (pair : Fin 2) (g gb : GReg)
  | cmac (b : BurinId) (pair : Fin 2) (g gb : GReg)
  | cmacj (b : BurinId) (pair : Fin 2) (g gb : GReg)
  | cmacm (b : BurinId) (pair : Fin 2) (g : GReg) (m : Mem)
  | rnd (b : BurinId) (g : GReg) (acc : AReg) (n : Fin 64)
  | rndc (b : BurinId) (g : GReg) (pair : Fin 2) (n : Fin 64)
  | sha (b : BurinId) (acc : AReg) (n : Fin 64)
  | argmin (b : BurinId) (gd : GReg) (pa : PReg) (n : Fin 16)
  | argmax (b : BurinId) (gd : GReg) (pa : PReg) (n : Fin 16)
  | argmins (b : BurinId) (gd : GReg) (pa : PReg) (n : Fin 16)
  | argmaxs (b : BurinId) (gd : GReg) (pa : PReg) (n : Fin 16)
  | put (b : BurinId) (slot : Fin 16) (g : GReg) (pa : PReg) (ma : Option MReg)
  | qfree (b : BurinId) (g : GReg) (slot : Fin 16)
  | evs (b : BurinId) (slot : Fin 8)
  | evw (b : BurinId) (slot : Fin 8)
  | evt (b : BurinId) (g : GReg) (slot : Fin 8)
  | dsend (b : BurinId) (slot : Fin 4) (g : GReg)
  | drecv (b : BurinId) (g : GReg) (slot : Fin 4)
  | dpoll (b : BurinId) (g : GReg) (slot : Fin 4)
  | waitt (b : BurinId) (g : GReg)
  | waitq (b : BurinId) (slot : Fin 16) (g : GReg)
  | waitc (b : BurinId) (slot : Fin 4)
  | now (b : BurinId) (g : GReg)
  | iqrd (b : BurinId) (g : GReg)
  | iqpoll (b : BurinId) (g : GReg)
  | rec_ (b : BurinId) (m : Mem)
  | mfs (b : BurinId) (g : GReg) (sr : Fin 6)
  | mts (b : BurinId) (sr : Fin 6) (g : GReg)
  | patchOpcode (b : BurinId) (op : Fin 32) (fields : BitVec 24)
  -- tones and playlists
  | segPlay (t : ToneId)
  | toneSet (t : ToneId)
  | stop (t : ToneId)
  | jump (t : ToneId)
  | nullPutDiscard (b : BurinId)
  | segmentStart (t : ToneId)
  | decisionPoint (t : ToneId)
  | playEnd (t : ToneId)
  -- Z channels
  | bias (z : Fin 256)
  | zplay (z : Fin 256)
  | zstop (z : Fin 256)
  | fastPlayEnd (z : Fin 256)
  | parkSwitchOpen (z : Fin 256)
  | biasSettled (z : Fin 256)
  | overCurrent (z : Fin 256)
  -- read-out
  | alignmentEvent
  | pointFormed (tone : Fin 256) (xs : List Int)
  | streamBlock (src : SrcId) (xs : List Int)
  | chainOverrun (src : SrcId) (lost : Nat)
  | centroidUpdate (b : BurinId)
  | dropStateExit (root : CellRef)
  -- Hatch
  | spacingEnd (ch : Fin 4096) (producer : Fin 8)
  | gatePointArrival (ch : Fin 4096)
  | gateOpenRelease (ch : Fin 4096)
  | triggerLatch (ch : Fin 4096) (consumer : Fin 256) (merged : Bool)
  | payloadArrival (ch : Fin 4096)
  | hatchCreditArrival (ch : Fin 4096)
  | softConsumerTake (ch : Fin 4096)
  -- acquisition engines
  | armEvent (e : Fin 16)
  | writingBegins (e : Fin 16)
  | preTriggerFull (e : Fin 16)
  | triggerAccept (e : Fin 16) (xs : List Int)
  | forceTrigger (e : Fin 16) (xs : List Int)
  | captureComplete (e : Fin 16) (xs : List Int)
  | rearmEnd (e : Fin 16)
  -- markers
  | playbackStart
  | markerSegmentStart
  | playbackEnd
  | followPulseEnd (k : Fin 32)
  -- timing inputs and the time-interval unit
  | trigInEdge (pin : Fin 8) (rising : Bool)
  | syncInEdge
  | ppsEdge (dom : Fin 2) (ps : Int)
  | stamp (source : Fin 11) (falling : Bool) (c2 n : Nat)
  | coreCalibration (chan : Fin 3) (core : Fin 5) (hits : List Nat)
  | loopLock (chan : Fin 3)
  | gateEnd (e : Fin 4)
  -- time domains
  | sync (m : PtpSync)
  | followUp (hdr : PtpHdr) (seq : Nat) (originPs : Int)
  | delayResp (hdr : PtpHdr) (seq : Nat) (t4Ps : Int)
  | announce (hdr : PtpHdr) (grandmaster : Nat) (rank : PtpRank) (utc : Int) (utcValid : Bool) (delayInt : Int) (syncInt : Int)
  | delayReq (dom : Fin 2)
  | domainLoss (dom : Fin 2)
  | revert
  | holdoverEvaluation
  | timerEvent (n : Fin 64)
  | windowEdge (n : Fin 16)
  | timeOutPulse (n : Fin 4)
  -- links
  | signalDetect (p : JvlPort) (lane : Fin 4)
  | blockLock (p : JvlPort) (lane : Fin 4)
  | train (p : JvlPort) (lane : Fin 4) (inverted : Bool) (ts : TrainSet)
  | trainingTimeout (p : JvlPort)
  | linkLoss (p : JvlPort) (cause : Fin 6)
  | hatchData (p : JvlPort) (tag : FrameTag) (f : HatchFrame)
  | hatchCredit (p : JvlPort) (tag : FrameTag) (f : HatchFrame)
  | doubt (p : JvlPort) (tag : FrameTag) (dest root : Nat)
  | tReqSend (dom : Fin 2)
  | tReq (p : JvlPort) (tag : FrameTag) (exch : Nat)
  | tResp (p : JvlPort) (tag : FrameTag) (exch : Nat) (t2Ps : Int)
  | tFollow (p : JvlPort) (tag : FrameTag) (exch dev : Nat) (parent : Option Nat) (hops tstate : Nat) (t3Ps t4Ps : Int)
  | controlFrame (p : JvlPort) (tag : FrameTag) (src len : Nat) (m : ControlBody)
  | bulkFrame (p : JvlPort) (tag : FrameTag) (dest len : Nat)
  | linkBlock (p : JvlPort) (lb : LinkBlock)
  | linkBlockSend (p : JvlPort)
  | alignRowSend (p : JvlPort)
  | timePortBringup (tenG up : Bool)
  | arpRequest (ip : Nat)
  | ringTransfer (r : Fin 64) (consumed : Nat) (uncorrectable : Bool)
  | ringInterruptTimer (r : Fin 64)
  | patrolScrub (corrected : List Nat) (bad : List Nat)
  -- power
  | regulatorReady (d : Fin 24)
  | oscillatorReady (d : Fin 24)
  | isolationRelease (d : Fin 24)
  | restore (d : Fin 24) (info : RestoreInfo)
  | wakeTimeout (d : Fin 24)
  | entryComplete (d : Fin 24)
  -- housekeeping
  | slowRound (z : List Slot)
  | roundEnd (r : RoundSlots)
  | injectedSequence (z : List ZReading)
  | shutdownAction
  -- calibration and proof
  | adcBlindRunEnd (port : Fin 16) (rmsLow : Bool) (extremes : Nat) (stats : List (Int × Int × Int))
  | zstatRunEnd (q : Fin 4) (est : List (Nat × Nat × Int))
  | trimEnd (scope target : Nat) (est : List (Int × Int × Int)) (zest : List (Nat × Nat × Int))
  | storeWrite (inst : Fin 68) (upFirst upSecond : List (Nat × Byte))
  | proofRunEnd (run : Fin 4) (signature expected : ProofSigs) (badTiles : Nat)
  -- rows added later to the table
  | resetNRelease
  | idleRowSend (p : JvlPort)
  | timePortDown
  | pcieLinkUp (gen width : Nat)
  | otherFrame
  deriving DecidableEq, Repr

end Sys2Proof
end

