-- ==== Sys2Proof/Config.lean ====
section
/-! DEFINITION. What an implementation fixes and the free values: constants with no body, so that
nothing can be proved about the value the spec leaves open. Each is named in the assumption log. -/

namespace Sys2Proof.Config

/-- Silicon revision, IDENT [23:16]: "varies with the silicon revision and is not stated" (R391). -/
opaque siliconRev : BitVec 8

/-- Atelier firmware version, PROTO [31:16]: not stated (R392). -/
opaque fwVersion : BitVec 16

/-- Base microcode version (R105): not stated. -/
opaque baseMicrocodeVersion : BitVec 32

/-- State of the four key slots: 0 unfused, 1 valid, 2 revoked (R116, R428): fused, not stated. -/
opaque keySlot : Nat → Fin 3

/-- SHA-384, ECDSA over P-384 (public key, digest, r, s) and AES-256-GCM under the device-class key: its plaintext from
nonce and ciphertext, and its tag from nonce, additional data and ciphertext (R116 names the standards and the fused key,
and gives neither). -/
opaque sha384 : List (BitVec 8) → List (BitVec 8)
opaque ecdsaP384 : List (BitVec 8) → List (BitVec 8) → Nat → Nat → Bool
opaque gcmPlain : List (BitVec 8) → List (BitVec 8) → List (BitVec 8)
opaque gcmTag : List (BitVec 8) → List (BitVec 8) → List (BitVec 8) → List (BitVec 8)

/-- The digest fused in a key slot (R116): not stated. -/
opaque keyDigest : Nat → List (BitVec 8)

/-- Fused minimum security versions before any boot has raised them (R121, R539), of 64
fuses each: not stated. -/
opaque fusedPatchMin : Fin 65
opaque fusedFwMin : Fin 65

/-- The 64-bit MISR of R149: the signature so far and the one folded in; its polynomial is not stated. -/
opaque misr : BitVec 64 → BitVec 64 → BitVec 64

/-- The depth field of a plate with no burin below it (R132): not stated. -/
opaque emptyDepth : Nat

/-- Diode offsets as fused at manufacture (R477), in 1/16 °C: not stated. -/
opaque diodeOffset : Nat → Int

/-- The polyphase interpolator of the resampler (R230): its coefficients are not stated. Maps the
last eight inputs, the phase and the weight to the exact value before narrowing. -/
opaque interp : List Int → Nat → Nat → Int

/-- The fractional placement of an envelope (R150, R165), by ticks of delay and the newest samples of one component:
stated in accuracy only. -/
opaque place : Nat → List Int → Int

/-- The interpolation by 8 of a port's sum (R150), by the newest samples of one component and the tick's place between two
of them: its coefficients are not stated. -/
opaque interp8 : List Int → Nat → Int

/-- The inverse sinc filter (R150, R158) over the newest samples: its coefficients are not stated. -/
opaque inverseSinc : List Int → Int

/-- Stage A1's correction of a sub-converter, by its offset, gain and skew and the port's newest codes (R209, R490): how the
corrections act is not stated. -/
opaque stageA1 : Int → Int → Int → List Int → Int

/-- The low-pass filter of stage A2 with its factor 2 (R211), over the newest mixed samples of one component: its
coefficients are not stated. In units of 2^-31. -/
opaque a2Filter : List Int → Int

/-- A channel of the polyphase filter bank of stage C (R238) over the newest samples of stage A2: its prototype is not stated.
In units of 2^-31. -/
opaque channelBank : Int → List (Int × Int) → Int × Int

/-- The settling-time-free values: what an implementation gives for a read-out the rules leave
open, applied to a counter of the state. -/
opaque freeByte : Nat → BitVec 8
opaque freeNat : Nat → Nat
opaque freeInt : Nat → Int

/-- The device-private coding of a CONTROL frame: its TYPE, its LEN less 1 and its bytes (R374). -/
opaque controlType : ControlBody → BitVec 4
opaque controlLen : ControlBody → Fin 8
opaque controlByte : ControlBody → Nat → BitVec 8

/-- The steering by which the servo removes an offset, unit 10^-15 (R330, R342): from its bandwidth in mHz, the offset in ps,
the rate and a count of the measurements; the spec names the bandwidth and the bounds, and no law (log 83). -/
opaque servoTrim : Nat → Int → Int → Nat → Int

/-- The operation of an ALU microword (R108 names the field OP and gives no codes): from OP, PAIR and
the two operands to the result and the flags Z, LT, LTU, SAT (bits 0 to 3). -/
opaque aluOp : BitVec 6 → Bool → BitVec 64 → BitVec 64 → BitVec 64 × BitVec 4

/-- The operation of an ACC microword (R108 gives no OP codes): from OP, the accumulator pair, the two
operands and the shift to the new pair, a register result if it gives one, and the flags Z, LT, LTU,
SAT, overflowed (bits 0 to 4). -/
opaque accOp : BitVec 4 → BitVec 96 → BitVec 32 → BitVec 32 → Nat → BitVec 96 × Option (BitVec 32) × BitVec 5

/-- The shipped base microcode ROM (R105): its words are not stated. -/
opaque baseMicroword : Nat → BitVec 24

/-- Corrections as written at manufacture (R501, R506), by instance and index: not stated. -/
opaque factoryCal : Nat → Nat → Int

/-- The provisioned ID, bus and device characteristics of the sideband target (R547): named by
MIPI I3C Basic, values not stated. -/
opaque i3cPid : BitVec 48
opaque i3cBcr : BitVec 8
opaque i3cDcr : BitVec 8

/-- Fused MAC address of the time port (R387). -/
opaque macAddress : BitVec 48

/-- Eye height and width a lane reports (R361, R389): measured, not stated. -/
opaque eye : Nat → Nat × Nat

end Sys2Proof.Config
end

