-- ==== Sys2Proof/Machine/State.lean ====
section
/-! DEFINITION. The state of the device as plain data, and `State.reset`. Every table is sparse: a
key it does not list reads as the default of its element, so that the reset state is short. -/

namespace Sys2Proof.Machine

/-- The eight operating modes (R26); `Mode.code` follows DEVSTAT.MODE (R393). -/
inductive Mode where
  | boot | configure | ready | run | calibrate | proof | safe | service
  deriving DecidableEq, Repr

/-- The states of a power domain, with the two that report a change in progress (R446). -/
inductive DomSt where
  | on | retention | off | entering | waking
  deriving DecidableEq, Repr

/-- A 32-bit event counter with its overflow bit (R58, R523). -/
structure Ctr where
  n : Nat := 0
  ovf : Bool := false
  deriving DecidableEq, Repr

/-! ### Burins -/

/-- An active repeat level: index of the body's first and last instruction, passes left including
the present one (R82, R83). -/
structure Loop where
  first : Nat
  last : Nat
  left : Nat
  deriving DecidableEq, Repr

/-- The instruction a burin waits in (R89, R112). -/
inductive Wait where
  | evw (slot : Nat)
  | dsend (slot g : Nat)
  | drecv (g slot : Nat)
  | waitt (g : Nat)
  | waitq (slot g : Nat)
  | waitc (slot : Nat)
  | iqrd (g : Nat)
  /-- A patch's WAIT microword: condition code, slot, register selector and consume bit. -/
  | micro (cond slot reg : Nat) (consume : Bool)
  deriving DecidableEq, Repr

/-- One play-out entry (R43, R47, R160): absolute release tick, shot-time release, the shot in which
it was placed, its four descriptor words, its burin; slack once accepted. -/
structure Entry where
  release : Int
  rel48 : Nat
  shot : Nat
  burin : Nat
  words : List Word
  slack : Int := 0
  /-- Margin over the floor at acceptance (R50, R57). -/
  margin : Int := 0
  deriving DecidableEq, Repr

/-- An entry on a slot with no owned queue (R90). -/
structure NullEntry where
  slot : Nat
  release : Int
  deriving DecidableEq, Repr

/-- A PUT held by the crossbar at a full queue (R46): its slot and entry, the pointer and offset it
post-modifies, and whether a patch's microword made it. -/
structure Hold where
  slot : Nat
  entry : Entry
  post : Option (Nat × Nat)
  micro : Bool
  deriving DecidableEq, Repr

/-- An IQ point in the input FIFO (R91, R245, R247). -/
structure IqPoint where
  pt : Word
  tick : Nat
  slot : Nat
  window : Nat
  flags : Nat
  shot : Nat
  deriving DecidableEq, Repr

/-- What a slot of a burin holds (R90, the case following R21). -/
inductive SlotHold where
  | empty
  | owned (res : Nat)
  | claim (res : Nat)
  deriving DecidableEq, Repr

/-- A start event held until END (R88): shot number and origin. -/
structure HeldStart where
  shot : Nat
  origin : Nat
  deriving DecidableEq, Repr

/-- The programmer-visible registers of a burin (R69). -/
structure Regs where
  g : Tab Word := []
  p : Tab Ptr := []
  m : Tab Off := []
  acc : Tab AccWord := []
  /-- The overflowed mark of each accumulator (R75). -/
  ovd : Tab Bool := []
  flags : Word := 0
  ovgctl : Word := 0
  dmem : Tab Word := []
  pc : Nat := 0
  loops : List Loop := []
  deriving DecidableEq, Repr

/-- The microsequencer state of a burin (R102). -/
structure Micro where
  upc : Nat := 0
  stack : List Nat := []
  uc : Nat := 0
  t : Tab Word := []
  /-- Flags of the latest ALU, ACC or SEL microword: Z, LT, LTU, SAT, overflowed (R108). -/
  fl : BitVec 5 := 0
  /-- A PCSET of the run has set pc. -/
  pcset : Bool := false
  deriving DecidableEq, Repr

/-- A burin (R69–R95): registers, program, instruction buffer, waits, slots, points and counters. -/
structure Burin where
  regs : Regs := {}
  micro : Micro := {}
  loaded : Bool := false
  streamed : Bool := false
  imgBase : Nat := 0
  imgLen : Nat := 0
  /-- The instruction buffer: words by their index in the image (R79). -/
  buf : Tab Word := []
  /-- Resident lines of a STREAMED image, by line index. -/
  lines : List Nat := []
  fetching : Option Nat := none
  underrun : Bool := false
  running : Bool := false
  waiting : Option Wait := none
  hold : Option Hold := none
  held : List HeldStart := []
  shot : Nat := 0
  origin : Nat := 0
  slots : Tab SlotHold := []
  nulls : List NullEntry := []
  iq : List IqPoint := []
  lastPoint : Option (Nat × Nat) := none
  iqLost : Bool := false
  ctab : Option (Nat × Nat × Nat) := none
  underruns : Ctr := {}
  iqOverruns : Ctr := {}
  nullPuts : Ctr := {}
  shotOverruns : Ctr := {}
  deriving DecidableEq, Repr

/-! ### Cells, plates and shots -/

inductive PlateSt where
  | free | open_ | sealed | shadow
  deriving DecidableEq, Repr

/-- A plate descriptor (R131, R132). For a SHADOW, `cell` is the plate's address on its home, `members` its direct
members on this device, and `above` what its home device says of it (R132, R137). -/
structure Plate where
  st : PlateSt := .free
  members : List Nat := []
  cell : Nat := 0
  above : RootInfo := {}
  /-- What the home devices of member plates on other devices say of the trees below them (R132), by address. -/
  far : List (Nat × TreeInfo) := []
  /-- What the devices of direct members and the device of the parent were last told. -/
  toldDown : Option (RootInfo × List Nat) := none
  toldUp : Option TreeInfo := none
  deriving DecidableEq, Repr

/-- What every cell address keeps (R22, R23, R252): parent, settings, last shot number. -/
structure CellSt where
  parent : Option Nat := none
  startLead : Nat := 2000
  recring : Nat := 0
  lastShot : Nat := 0xFFFFFFFFFFFFFFFF
  deriving DecidableEq, Repr

/-- A series of shots (R420, R421): next shot number for a counted series, shots left (none for
endless), next origin and period in ticks, and the command that created it. -/
structure Series where
  next : Nat
  left : Option Nat
  /-- The shots have their numbers: an endless series numbers each as it starts, but for its first. -/
  numbered : Bool
  /-- An endless series whose first shot, with its number, has not started. -/
  fresh : Bool := false
  origin : Nat
  period : Nat
  deriving DecidableEq, Repr

/-- A shot whose start event has been raised and whose boundary is due: ordinal of the start event,
shot number, origin. -/
structure Due where
  ord : Nat
  shot : Nat
  origin : Nat
  deriving DecidableEq, Repr

/-- The running state of a root (R142, R420). -/
structure RootRun where
  running : Bool := false
  stopAt : Option Nat := none
  series : List Series := []
  /-- Earliest first origin of a further series (R420): none before the root's first, `some none` after an endless one. -/
  freeFrom : Option (Option Nat) := none
  /-- Start events raised so far, and the last shot raised. -/
  starts : Nat := 0
  cur : Option Due := none
  due : List Due := []
  /-- The record stream on this device (R252–R256). -/
  seq : Nat := 0
  drop : Bool := false
  dropped : Nat := 0
  dropShot : Nat := 0
  /-- Gap records due while no slot was free (R256). -/
  gaps : List (List Byte) := []
  dropLast : Nat := 0
  /-- Shot of the record last posted, and of the record last moved to the host part (R444). -/
  lastRec : Option Nat := none
  lastSent : Option Nat := none
  /-- Records and gap records that wait for an earlier shot to end (R255): shot and bytes. -/
  heldRecs : List (Nat × List Byte) := []
  /-- Other devices on which the root has still to stop (R142), and those that await its stop on this one. -/
  remoteWait : List Nat := []
  askers : List Nat := []
  deriving DecidableEq, Repr

/-- A fault record (R512) with every code it has latched. -/
structure FaultRec where
  codes : List Nat := []
  code : Nat := 0
  remoteFirst : Bool := false
  origin : Nat := 0
  later : Ctr := {}
  remote : Ctr := {}
  tick : Nat := 0
  detail : List Byte := []
  /-- The first doubt arose elsewhere and its report has come (R514). -/
  reported : Bool := false
  deriving DecidableEq, Repr

/-! ### Play-out queues, tones, ports -/

/-- A slack meter (R57). -/
structure Meter where
  minSlack : Option Int := none
  released : Ctr := {}
  nearLate : Ctr := {}
  late : Bool := false
  deriving DecidableEq, Repr

/-- A play-out queue (R42–R50): owner slot, floor, entries on their way and queued, the release of
the entry last placed, credits returning. -/
structure PlayQ where
  owner : Option Nat := none
  claims : List Nat := []
  floor : Nat := 20
  xbar : List Entry := []
  entries : List Entry := []
  returning : Nat := 0
  lastPlaced : Option Int := none
  /-- The release of the entry placed before the one whose arrival is next judged (R45). -/
  lastArrived : Option Int := none
  meter : Meter := {}
  deriving DecidableEq, Repr

/-- A play in progress on a tone (R164, R172): release tick, segment start, bank, segment, playlist
step and repetition, and the fields of its SEG_PLAY. -/
structure Play where
  rel : Nat
  start : Nat
  bank : Nat
  seg : Nat
  len : Nat
  step : Option Nat
  rep : Nat
  evs : Bool
  mke : Bool
  mrk : Nat
  amp : Nat
  phase : Nat
  foff : Int
  /-- Set once this segment's decision point has passed (R175). -/
  decided : Bool
  /-- The step a taken request goes to at the end of the segment. -/
  take : Option Nat
  deriving DecidableEq, Repr

/-- The settings that a read-out tone's demodulation used up to a tick (R216). -/
structure TonePast where
  till : Nat
  ftw : Int
  phase : Nat
  cont : Bool
  track : Int
  trackAt : Nat
  deriving DecidableEq, Repr

/-- A tone (R153, R154, R159, R175): settings, the track of continuous mode (value in 2^-51 turn at
tick `trackAt`), the play, the pending jump. -/
structure Tone where
  ftw : Int := 0
  phase : Nat := 0
  amp : Nat := 0x7FFF
  cont : Bool := false
  track : Int := 0
  trackAt : Nat := 0
  /-- Settings of before, newest first, while samples of their ticks are still in stage A (R212, R216). -/
  past : List TonePast := []
  play : Option Play := none
  /-- The envelope samples of the play so far, newest first (R150 stage 2). -/
  env : List (Int × Int) := []
  /-- Pending request: `some none` defers to the step's JUMP field (R174). -/
  pend : Option (Option Nat) := none
  /-- Shot in which the window index was last reset, and the next index (R247). -/
  winShot : Nat := 0
  winIdx : Nat := 0
  deriving DecidableEq, Repr

/-- A segment table entry (R167). -/
structure SegE where
  start : Nat := 0
  len : Nat := 0
  deriving DecidableEq, Repr

/-- A step table entry (R171). -/
structure StepE where
  seg : Nat
  rep : Nat
  next : Nat
  last : Bool
  jump : Nat
  jsrc : Nat
  evs : Bool
  mke : Bool
  mrk : Nat
  deriving DecidableEq, Repr

/-- One envelope or fast-pulse bank (R166, R196). -/
structure Bank where
  samples : Tab Word := []
  segs : Tab SegE := []
  steps : Tab (Option StepE) := []
  deriving DecidableEq, Repr

/-- The armed swap of a bank pair (R169, R225): the root's LOCAL, the start-event ordinal it must
pass, whether one is armed. -/
structure Swap where
  root : Nat
  after : Nat
  /-- The tick of the swap once a stop boundary has fixed it (R169). -/
  at_ : Option Nat := none
  deriving DecidableEq, Repr

/-- A pair of banks with its swap (R166, R169). -/
structure Banks where
  b0 : Bank := {}
  b1 : Bank := {}
  inPlay : Nat := 0
  swap : Option Swap := none
  draining : Bool := false
  deriving DecidableEq, Repr

/-- A drive or probe port (R156, R180, R182). -/
structure Port where
  center : Nat := 0x400000000000
  isinc : Nat := 0
  fsl : Nat := 7
  hostmute : Bool := false
  /-- HOSTMUTE 1 awaits a boundary of each of these roots (R37), with the start events it had raised. -/
  hostmutePend : List (Nat × Nat) := []
  /-- A start event of an owning cell has occurred since the mute conditions cleared (R180). -/
  unmuted : Bool := false
  mutedByOther : Bool := false
  /-- A DAC_TRIM of the port is in progress (R180). -/
  trim : Bool := false
  banks : Banks := {}
  /-- The newest sums of the tones (R150 stage 4), samples of the coarse mix (stage 6) and codes on their way to the ball,
  newest first. -/
  sums : List (Int × Int) := []
  rf : List Int := []
  line : List Int := []
  clips : Ctr := {}
  cuts : Ctr := {}
  bad : Ctr := {}
  missing : Ctr := {}
  taken : Ctr := {}
  unused : Ctr := {}
  clamps : Ctr := {}
  deriving DecidableEq, Repr

/-! ### Z channels -/

inductive ZState where
  | float | parked | driven | safePark
  deriving DecidableEq, Repr

/-- A fast play (R195): release tick, segment, bank, amplitude, length, hold; `held` once its last
sample is kept. -/
structure Fast where
  rel : Nat
  seg : Nat
  bank : Nat
  amp : Nat
  len : Nat
  hold : Bool
  held : Bool
  /-- Its latest code (R195). -/
  code : Int := 0
  deriving DecidableEq, Repr

/-- A Z channel (R183–R207). -/
structure ZChan where
  span : Nat := 2
  fps : Nat := 1
  park : Nat := 131072
  ztol : Nat := 10
  dg : Nat := 1
  st : ZState := .float
  code : Nat := 131072
  openAt : Option Nat := none
  openTo : ZState := .driven
  settleAt : Option Nat := none
  settled : Bool := true
  fast : Option Fast := none
  fastEnd : Option Nat := none
  /-- What the deglitcher puts out, in 2^-18 µV, the tick up to which it holds, and what it put out before, as (tick of the
  change, value up to then), newest first; likewise the fast DAC's code (R183, R194, R195). -/
  out : Int := 0
  holdTo : Nat := 0
  outPast : List (Nat × Int) := []
  dac : Int := 0
  dacPast : List (Nat × Int) := []
  lastBias : Option Nat := none
  preTrim : Option ZState := none
  /-- Consecutive comparisons beyond ZTOL (R204) and consecutive skipped rounds (R203). -/
  fails : Nat := 0
  skips : Nat := 0
  ovc : Bool := false
  ovcPend : Bool := false
  mismatch : Bool := false
  unchecked : Bool := false
  /-- FAULT_N latch of a channel that had no owner (R206). -/
  unownedLatch : Bool := false
  readback : Int := 0
  expected : Int := 0
  deriving DecidableEq, Repr

/-- The counters of a Z channel (R207). -/
structure ZCtrs where
  mismatches : Ctr := {}
  overcurrents : Ctr := {}
  skipped : Ctr := {}
  bad : Ctr := {}
  clips : Ctr := {}
  parkedPlays : Ctr := {}
  missing : Ctr := {}
  deriving DecidableEq, Repr

/-! ### Read-out -/

/-- One open measurement window (R242–R246). -/
structure Window where
  p0 : Nat
  nw : Nat
  endTick : Nat
  idx : Nat
  shot : Nat
  skipped : Bool
  bank : Nat
  align : Bool
  /-- A position is empty because chain samples were lost (R228). -/
  lost : Bool := false
  /-- Its last position is filled, or a later label has come. -/
  done : Bool := false
  /-- Filled positions: position, components, flags. -/
  fill : Tab (Option (Int × Int × Nat))
  deriving DecidableEq, Repr

/-- The chain state of a tone (R217, R220, R230). -/
structure Chain where
  /-- Ordinal of the next input since the last alignment event (R217). -/
  n : Nat := 0
  /-- Integrator values kept for the comb, newest first, with a mark for a saturated input (R217, R245). -/
  hist : List (Word × Word × Bool) := []
  /-- The 64 latest B2 outputs, newest first (R220). -/
  dly : List (Int × Int × Bool) := []
  /-- The 8 latest FIR outputs, newest first, with their marks (R230). -/
  outs : List (Int × Int × Nat) := []
  swapMark : Bool := false
  overrun : Bool := false
  deriving DecidableEq, Repr

/-- The acquisition settings of a read-out tone or stipple port (R214, R241). -/
structure RoSet where
  tmode : Nat := 0
  aph : Nat := 0
  mal : Nat := 16
  mad : Nat := 16
  mash : Nat := 4
  firsel : Nat := 0
  step : Nat := 0
  wen : Nat := 1
  woff : Nat := 0
  nw : Nat := 16
  ksh : Nat := 4
  ksel : Nat := 0
  kmark : Nat := 0
  deriving DecidableEq, Repr

/-- One FIR bank: coefficient words and GD16 (R221); an unlisted word of bank reads as BYPASS. -/
structure Fir where
  c : Tab Int := [(0, 0x10000)]
  gd16 : Nat := 0
  deriving DecidableEq, Repr

/-- The acquisition half of a read-out tone, or what the tones of a stipple port share. -/
structure RoTone where
  set : RoSet := {}
  fir0 : Fir := {}
  fir1 : Fir := {}
  firUse : Nat := 0
  firSwap : Option Swap := none
  /-- Kernel banks: words other than 0x0000_7FFF (R248). -/
  ker0 : Tab Word := []
  ker1 : Tab Word := []
  kerUse : Nat := 0
  kerSwap : Option Swap := none
  /-- The tick of the last FIR swap. -/
  firAt : Nat := 0
  chain : Chain := {}
  wins : List Window := []
  deriving DecidableEq, Repr

/-- A stipple tone table entry (R239). -/
structure StipTone where
  en : Bool := false
  ftw : Int := 0
  phase : Nat := 0
  deriving DecidableEq, Repr

/-- An open stream with its block in progress (R232, R233). -/
structure Stream where
  open_ : Bool := false
  ring : Nat := 0
  seq : Nat := 0
  samples : List (Int × Int) := []
  t0 : Option (Int × Nat) := none
  flags : Nat := 0
  loss : Bool := false
  /-- A FIR swap whose first sample has not come. -/
  swapDue : Bool := false
  deriving DecidableEq, Repr

/-- An acquisition port (R237–R240). -/
structure AcqPort where
  stipOwner : Option Nat := none
  stipClaims : List Nat := []
  stip : Tab StipTone := []
  overranges : Ctr := {}
  coarseSats : Ctr := {}
  toneSats : Ctr := {}
  swaps : Ctr := {}
  alignments : Ctr := {}
  chainOverruns : Ctr := {}
  /-- The last alignment event: its instant of TAI in ticks (R240). -/
  alignAt : Option Nat := none
  /-- The tick of the next sample that the converter takes; its latest codes (stage A1), mixed samples with their saturation
  marks (stage A2) and outputs of stage A2 (stage C), each newest first. -/
  conv : Nat := 0
  codes : List Int := []
  mixed : List (Int × Int × Bool) := []
  a2 : List (Int × Int × Bool) := []
  /-- Ranges of ticks whose inputs are marked (R236, R499). -/
  fills : List (Nat × Nat) := []
  deriving DecidableEq, Repr

/-- An armed alignment event (R234): with source SYNC it waits for an edge. -/
inductive AlignArm where
  | at (tick : Nat) (named : Bool)
  | sync (delay : Nat)
  deriving DecidableEq, Repr

/-! ### Hatch -/

/-- One producer's injection point (R283): last forward tick, a held trigger event, held payloads. -/
structure Inject where
  last : Option Nat := none
  heldEv : Bool := false
  heldPay : List (BitVec 64) := []
  deriving DecidableEq, Repr

/-- One consumer (R271, R274, R276): latched flag, queued arrivals with the ticks at which they came. -/
structure Consumer where
  flag : Bool := false
  /-- The ticks at which the flag was latched and at which the latest wavefront's latest arrival came (R272, R273). -/
  latched : Nat := 0
  lastWave : Option Nat := none
  arrivals : List (BitVec 64) := []
  times : List Nat := []
  deriving DecidableEq, Repr

/-- A bound channel (R264–R287). -/
structure Channel where
  bound : Bool := false
  kind : Nat := 0
  wide : Bool := false
  rs : Nat := 10
  stmax : Nat := 256
  stwin : Nat := 10
  gsrc : Nat := 0
  gidx : Nat := 0
  ginv : Bool := false
  watch : Bool := false
  flush : Bool := true
  ring : Nat := 0
  prods : List Nat := []
  cons : List Nat := []
  inj : Tab Inject := []
  con : Tab Consumer := []
  credits : Nat := 4
  /-- Events between injection and gate point; payloads likewise (R573). -/
  toGate : List (BitVec 64) := []
  atGate : List (BitVec 64) := []
  /-- Events past the gate: per consumer index still to be latched. -/
  toLatch : List Nat := []
  inFlight : List (BitVec 64) := []
  credFlight : Nat := 0
  /-- Ticks of the events counted by the storm detector, newest first (R284). -/
  storm : List Nat := []
  stormFlag : Bool := false
  ovfFlag : Bool := false
  /-- The channel was disabled because a port that it crosses went down (R383). -/
  cut : Bool := false
  watched : Bool := false
  seq : Nat := 0
  deriving DecidableEq, Repr

/-- The counters of a channel (R287). -/
structure ChCtrs where
  forwarded : Ctr := {}
  gated : Ctr := {}
  spaced : Ctr := {}
  coalesced : Ctr := {}
  overlaid : Ctr := {}
  flushed : Ctr := {}
  discarded : Ctr := {}
  peak : Nat := 0
  deriving DecidableEq, Repr

/-! ### Acquisition engines, markers, time-interval unit -/

inductive AcqSt where
  | idle | primed | filling | waiting | capturing | rearming | done
  deriving DecidableEq, Repr

/-- The reset settings of an acquisition engine (R292). -/
def acqDefault : AcqSettings :=
  { src := 0, tsel := 0, ttone := 0, tsrc := 0, pin := 0, ttype := 0, pol := 0, tmask := 1
    lo := 0, hi := 16384, hys := 64, nseg := 1, wcond := 0, armsrc := 0, ring := 0
    w1 := 20, w2 := 200, tw := 20000, rlen := 16777216, rbase := 0, pre := 1024, post := 4096 }

/-- What a trigger condition keeps from sample to sample (R301): label and scalar of the latest sample; whether the scalar has
been below and above LO and HI by more than HYS since their last crossings; the instant of the crossing that began a pulse
or slew, and the one from which a timeout runs, in 2^-16 ps. -/
structure Detect where
  prev : Option (Int × Int) := none
  loLow : Bool := false
  loHigh : Bool := false
  hiLow : Bool := false
  hiHigh : Bool := false
  first : Option Int := none
  ref : Option Int := none
  deriving DecidableEq, Repr

/-- An accepted trigger (R305): its instant in 2^-16 ps and as a timestamp, the index and label of the trigger sample, the
word of the completing sample. -/
structure Trig where
  instant : Int
  stamp : List Byte
  idx : Nat
  label : Int
  word : Int
  forced : Bool
  deriving DecidableEq, Repr

/-- An acquisition engine (R288–R309). -/
structure Engine where
  set : AcqSettings := acqDefault
  lat : AcqSettings := acqDefault
  st : AcqSt := .idle
  seg : Nat := 0
  /-- The tick from which samples are written into the present segment, and whether writing has begun. -/
  writeAt : Option Nat := none
  writing : Bool := false
  seq : Nat := 0
  /-- Samples written into the present segment; those at an extreme or saturated, by index; E and the index of the first
  sample after the last alignment event. -/
  count : Nat := 0
  overs : List Nat := []
  aligned : Option (Nat × Nat) := none
  det : Detect := {}
  /-- Stamped edges of the pin, and forces, that no sample has reached: instant in 2^-16 ps, and for an edge its direction. -/
  edges : List (Int × Option Bool) := []
  trig : Option Trig := none
  /-- The tick at which the capture-trigger event is due (R306). -/
  evAt : Option Nat := none
  rearmAt : Nat := 0
  /-- Records that wait for a slot of the ring, oldest first (R298), and the tick at which one last had to. -/
  owed : List (List Byte) := []
  freed : Nat := 0
  captures : Ctr := {}
  early : Ctr := {}
  busyIgn : Ctr := {}
  rearmIgn : Ctr := {}
  forced : Ctr := {}
  tdcMerged : Ctr := {}
  deriving DecidableEq, Repr

/-- A marker output (R311, R317). -/
structure MrkOut where
  mode : Nat := 0
  idle : Nat := 0
  offs : Int := 0
  fw : Nat := 10
  level : Bool := false
  lastEdge : Option Int := none
  pulseEnd : Option Nat := none
  pulseRoot : Option Nat := none
  /-- Settings MODE, IDLE, OFFS, FW that await a boundary of each of these roots (R37). -/
  pend : Option (Nat × Nat × Int × Nat) := none
  pendRoots : List (Nat × Nat) := []
  deriving DecidableEq, Repr

/-- A marker segment (R315). -/
structure MrkSeg where
  start : Nat := 0
  len : Nat := 0
  rep : Nat := 0
  next : Nat := 0
  trig : Nat := 0
  last : Bool := false
  deriving DecidableEq, Repr

inductive MrkGen where
  | idle
  | armed (at_ : Nat)
  | sync (delay : Nat)
  | playing
  | shot
  deriving DecidableEq, Repr

/-- The marker generator (R313–R327). -/
structure Markers where
  vectors : Tab (Nat × Nat) := []
  tsets : Tab (Nat × Nat) := []
  segs : Tab MrkSeg := []
  outs : Tab MrkOut := []
  sosel : Nat := 0xFF
  gen : MrkGen := .idle
  shotSrc : Bool := false
  /-- The pending start names a time (source AT, R332). -/
  named : Bool := false
  first : Nat := 0
  root : Option Nat := none
  seg : Nat := 0
  rep : Nat := 0
  segStart : Nat := 0
  /-- Vectors of the repetition in play whose edges have all been emitted, and the instant, in 12.5 ps, up to which
  edges have been. -/
  done : Nat := 0
  upTo : Int := 0
  /-- The TRIG events of a repetition that starts at this tick, raised as the tick ends unless a doubt prevails (R325). -/
  trigDue : List Nat := []
  /-- The armed start has its SYNC_IN edge (R325). -/
  synced : Bool := false
  /-- Source SHOT: an origin of the root at which playback is to start afresh. -/
  shotAt : Option Nat := none
  stopping : Option Nat := none
  stopped : Bool := false
  segments : Ctr := {}
  drops : Ctr := {}
  merged : Ctr := {}
  ignored : Ctr := {}
  cuts : Ctr := {}
  missing : Ctr := {}
  deriving DecidableEq, Repr

/-- A stamp channel (R351–R354): locked loop, calibrated cores (a bit each), hits of each core's last pass by code
from 50 on, the core in calibration, the tick until which each core is busy. -/
structure StampChan where
  locked : Bool := false
  cald : Nat := 0
  w : Tab (List Nat) := []
  calCore : Nat := 0
  busy : Tab Nat := []
  deriving DecidableEq, Repr

/-- A host-measurement engine (R357–R359). -/
structure TiuEng where
  running : Bool := false
  set : TiuArgs := { mode := 0, srca := 0, srcb := 0, edge := 0, ring := 0, div := 1, count := 1,
                     gate := 20000000, start := ⟨0, 0, 0⟩ }
  gateOpen : Nat := 0
  gatesLeft : Option Nat := none
  /-- FREQ: edges still to pass before the next stamp. -/
  skip : Nat := 0
  /-- Stamps or intervals of the open gate in ps, newest first, and edges of SRCA that wait for one of SRCB. -/
  vals : List Int := []
  openA : List Int := []
  /-- Tick of the stamp record last written. -/
  lastRec : Option Nat := none
  seq : Nat := 0
  loss : Bool := false
  /-- Ticks of the steps of device time, of the losses of lock and of the edges not stamped that no record has shown yet
  (R358, R359), and whether the open gate began without lock. -/
  stepAt : List Nat := []
  unlockAt : List Nat := []
  mergedAt : List Nat := []
  unlock : Bool := false
  deriving DecidableEq, Repr

/-! ### Time -/

inductive TimeSt where
  | unset | free | tracking | holdover
  deriving DecidableEq, Repr

inductive DomTrack where
  | disabled | acquiring | tracking | lost
  deriving DecidableEq, Repr

/-- A PTP master heard (R336): its port identity, its data set in the order of the best master clock algorithm, the UTC
offset that it gives, and the interval of Delay_Req that it announces, 2^delayInt s. -/
structure PtpMaster where
  source : Nat
  rank : List Nat
  utc : Option Int
  delayInt : Int
  deriving DecidableEq, Repr

/-- A time domain (R334–R340): settings, state, flags, offset in ps and rate in 10^-15 from the regression of
its latest measurements (tick and offset, newest first), and what each kind of source keeps. -/
structure TimeDom where
  set : DomSettings := { source := 0, port := 0, profile := 0, ptpdom := 0, transport := 0,
                         delay := 0, bw := 0 }
  st : DomTrack := .disabled
  far : Bool := false
  range_ : Bool := false
  loop : Bool := false
  noL1 : Bool := false
  /-- REF: tick of the last PPS edge seen. -/
  lastPps : Option Nat := none
  missing : Bool := false
  off : Int := 0
  y : Int := 0
  meas : List (Int × Int) := []
  /-- Tick at which TRACKING was entered, and whether it has been entered since power-up. -/
  trackSince : Nat := 0
  tracked : Bool := false
  /-- REF: consecutive PPS edges missing or rejected. -/
  badPps : Nat := 0
  /-- LINK: the peer's hop count plus 1 and its device number. -/
  hops : Nat := 0xFF
  parent : Option Nat := none
  /-- LINK: the exchange in progress, its t1 and t2 in ps. -/
  exch : Nat := 0
  /-- LINK: ticks of the last T_REQ, and of the last whole exchange or else of the settings (R335, R384). -/
  reqAt : Option Nat := none
  exchAt : Nat := 0
  t1 : Option Int := none
  t2 : Option Int := none
  /-- PTP: a two-step Sync that waits for its Follow_Up (sequence, reception in ps), the last whole Sync
  (origin, reception), a Delay_Req that waits for its Delay_Resp, the tick of the last Delay_Req, the mean path delay and
  the masters heard, the one that is followed first. -/
  syncWait : Option (Nat × Int) := none
  lastSync : Option (Int × Int) := none
  delaySeq : Nat := 0
  delayTx : Option Int := none
  delayAt : Option Nat := none
  path : Int := 0
  masters : List PtpMaster := []
  deriving DecidableEq, Repr

/-- A timer, window or TIME_OUT element (R347). -/
structure Elem where
  active : Bool := false
  root : Option Nat := none
  next : Nat := 0
  period : Nat := 0
  len : Nat := 0
  left : Option Nat := none
  pol : Nat := 0
  high : Bool := false
  highEnd : Nat := 0
  deriving DecidableEq, Repr

/-- The settings of TIME_SET SERVO (R341): units as R424. -/
structure Servo where
  selmode : Nat := 1
  revert : Nat := 0
  slew : Nat := 100
  slewacc : Nat := 100
  hlimit : Nat := 100
  hwander : Nat := 1000
  deriving DecidableEq, Repr

/-- The time keeper (R328–R350). -/
structure TimeKeeper where
  sec : Nat := 0
  tick : Nat := 0
  st : TimeSt := .unset
  utc : Int := 0
  utcValid : Bool := false
  /-- The steering at a tick and its target, unit 10^-15: between them it moves within the limit of R330. -/
  steer : Int := 0
  steerAt : Nat := 0
  steerTo : Int := 0
  sel : Nat := 0xFF
  domA : TimeDom := {}
  domB : TimeDom := {}
  servo : Servo := {}
  slewing : Bool := false
  e0 : Int := 0
  sigmaY : Int := 0
  holdMs : Nat := 0
  /-- Tick of the last evaluation in HOLDOVER, or of its entry (R343). -/
  holdAt : Nat := 0
  herr : Nat := 0
  holdLatch : Bool := false
  steppedFlag : Bool := false
  switchedFlag : Bool := false
  switches : Ctr := {}
  steps : Ctr := {}
  rejects : Ctr := {}
  /-- Steps since power-up, as TIU_MEASURE QUERY reports them. -/
  stepCount : Nat := 0
  /-- The steps, newest first: the tick from which each holds, and by how many ticks it moved the label (R359). -/
  stepLog : List (Nat × Int) := []
  /-- An absolute step that takes effect at a later word boundary (R332): tick and new label. -/
  stepPend : Option (Nat × Nat × Nat) := none
  timers : Tab Elem := []
  windows : Tab Elem := []
  touts : Tab Elem := []
  deriving DecidableEq, Repr

/-! ### Links -/

inductive JvlSt where
  | disabled | detect | lock | config | speed | active
  deriving DecidableEq, Repr

/-- A frame that this device sends: its virtual lane and what it carries. Every frame takes one credit (R374). -/
structure TxFrame where
  vl : Nat
  body : FrameBody
  deriving DecidableEq, Repr

/-- One retry class of a port (R377): next SEQ to send, unacknowledged frames oldest first, last accepted SEQ, whether a
NAK is outstanding. -/
structure Retry where
  txSeq : Nat := 0
  unacked : List TxFrame := []
  /-- How often each of them has been sent again (R372). -/
  tried : List Nat := []
  rxNext : Nat := 0
  nak : Bool := false
  /-- The NAK has gone out. -/
  nakSent : Bool := false
  deriving DecidableEq, Repr

/-- A block before it is scrambled (R366): eight bytes of data, or a type and 56 bits of fields. -/
inductive Block where
  | data (body : BitVec 64)
  | ctl (type : BitVec 8) (fields : BitVec 56)
  deriving DecidableEq, Repr

/-- The transmitter of a JVL port. -/
structure Line where
  /-- When its next row begins, in quarters of a tick. -/
  nextQ : Nat := 0
  /-- What is left to send of a frame of class P, which nothing interrupts, and of one of class Q (R375). -/
  cut : List Block := []
  cur : List Block := []
  /-- Rows of its stream since the last one of ALIGN blocks (R367). -/
  sinceAlign : Nat := 0
  /-- Frames to be sent again, each with its SEQ (R377). -/
  redo : List (Nat × TxFrame) := []
  /-- LINK blocks that wait (R378), and whole rows that wait: of ALIGN blocks where true, of IDLE blocks where not (R367). -/
  links : List Block := []
  whole : List Bool := []
  /-- The next training set to send in CONFIG or SPEED is TS_CFG. -/
  cfgNext : Bool := false
  /-- The scrambler of each lane, and the row last sent. -/
  scr : Tab (BitVec 58) := []
  row : List Wire := []
  /-- The frames whose FRAME_START was first sent in that row. -/
  began : List FrameBody := []
  deriving DecidableEq, Repr

/-- A JVL port (R360–R389). -/
structure Jvl where
  enabled : Bool := true
  genMax : Nat := 2
  loopback : Nat := 0
  st : JvlSt := .detect
  /-- Tick at which it entered that state (R370). -/
  since : Nat := 0
  gen : Nat := 1
  lanes : Nat := 0
  lockedLanes : List Nat := []
  reversed : Bool := false
  polarity : Nat := 0
  feat : Nat := 0
  peerDev : Nat := 0
  peerDnv : Bool := false
  peerGens : Nat := 0
  peerFeat : Nat := 0
  laneIds : List (Nat × Nat) := []
  /-- Lanes on which a TS_ID with ACK has come, and identical TS_CFG sets in a row by lane. -/
  acks : List Nat := []
  cfgs : Tab Nat := []
  cause : Nat := 0
  p : Retry := {}
  q : Retry := {}
  /-- Per VL: credits held, what the peer advertised, credit to be returned to it (R379, R380). -/
  credits : Tab Nat := []
  advert : Tab Nat := []
  freed : Tab Nat := []
  /-- Frames that wait for credit, oldest first. -/
  txq : List TxFrame := []
  line : Line := {}
  /-- Per lane as received: the last TS_ID and how many identical ones have come in a row (R369). -/
  idRun : Tab (Option TrainSet × Nat) := []
  alignRows : Nat := 0
  idleRows : Nat := 0
  linkBlocks : Nat := 0
  deriving DecidableEq, Repr

/-- The counters of a port (R389). -/
structure JvlCtrs where
  crc : Ctr := {}
  misrouted : Ctr := {}
  replays : Ctr := {}
  credViol : Ctr := {}
  retrains : Ctr := {}
  code : Ctr := {}
  deriving DecidableEq, Repr

/-- The time port (R387). -/
structure TimePort where
  enabled : Bool := true
  loopback : Nat := 0
  up : Bool := false
  tenG : Bool := true
  trying10 : Bool := true
  /-- Tick at which the present attempt began (R387). -/
  tryAt : Nat := 0
  ip : Nat := 0
  pfx : Nat := 0
  misrouted : Ctr := {}
  crc : Ctr := {}
  retrains : Ctr := {}
  arpReplies : Nat := 0
  deriving DecidableEq, Repr

/-! ### Host interface -/

/-- What a committed command still waits for (R518). -/
inductive WaitFor where
  | nothing
  /-- Every cell stopped, then READY (R29). -/
  | cellsStopped
  /-- Every trim finished (R26). -/
  | trims
  /-- A root has stopped (R142). -/
  | rootStop (root : Nat)
  /-- A domain change (R450): domain and requested state code. -/
  | domain (d state : Nat)
  /-- A proof run, by its number among the runs asked for. -/
  | proof (id : Nat)
  | cal (scope target : Nat)
  /-- The prior set of a FENCE: per queue, the count that must have completed (R411). -/
  | prior (upTo : List (Nat × Nat))
  /-- Earlier commands of the own queue (CLOSE, R405). -/
  | earlier
  /-- Phase one of a command across devices (R138): its number, the devices asked, those whose votes are owed, and the
  worst status so far with its device. -/
  | votes (id : Nat) (asked owed : List Nat) (worst : Option (Nat × Nat)) (t : Task)
  /-- Confirmations still owed, and the root whose stop is then awaited, if any. -/
  | confirms (id : Nat) (owed : List Nat) (root : Option Nat)
  /-- The answer of the device that carries the command out. -/
  | answer (id dev : Nat)
  deriving DecidableEq, Repr

/-- A command read from a submission queue and not yet completed. -/
structure InFlight where
  cmdId : Nat
  opcode : Nat
  wait : WaitFor
  status : Nat
  result : Nat
  /-- The cell of a SHOT_SCHEDULE or CELL_START, for the command form of CELL_ABORT (R522). -/
  cell : Option Nat
  /-- How the refusal log names it (R466): what and target. -/
  what : Nat
  target : Nat
  /-- The root whose shots it numbers, and the last number assigned before it (R22). -/
  prior : Option (Nat × Nat) := none
  deriving DecidableEq, Repr

/-- A completion entry (R408). -/
structure Completion where
  cmdId : Nat
  sq : Nat
  phase : Bool
  status : Nat
  sqHead : Nat
  result : Nat
  deriving DecidableEq, Repr

/-- A submission queue (R398, R400, R401). -/
structure SQ where
  baseLo : Nat := 0
  baseHi : Nat := 0
  en : Bool := false
  disableReq : Bool := false
  cq : Nat := 0
  halted : Bool := false
  baddb : Bool := false
  submitted : Nat := 0
  read : Nat := 0
  completed : Nat := 0
  flight : List InFlight := []
  /-- Doorbell writes whose entries are not all read: count after the write, and every queue's
  submitted count just before it (R411). -/
  bells : List (Nat × List (Nat × Nat)) := []
  /-- cmd_id and cell of the last 256 commands completed, newest first (R522). -/
  history : List (Nat × Nat × Option Nat) := []
  /-- Entries submitted and not yet read that a CELL_ABORT withdrew, by their counts (R522). -/
  withdrawn : List Nat := []
  deriving DecidableEq, Repr

/-- A completion queue (R399, R402). -/
structure CQ where
  baseLo : Nat := 0
  baseHi : Nat := 0
  en : Bool := false
  vec : Nat := 0
  ien : Bool := false
  cnt : Nat := 0
  itime : Nat := 0
  written : Nat := 0
  consumed : Nat := 0
  /-- Completions in host memory not yet consumed, oldest first. -/
  slots : List Completion := []
  held : List Completion := []
  /-- The completion entry last written (the model's own output register). -/
  last : Option Completion := none
  /-- What was last written into host memory: a bus address and the 16 bytes of R408. -/
  image : Option (Nat × List Byte) := none
  unsig : Nat := 0
  /-- Tick of the first of these. -/
  unsigAt : Option Nat := none
  deriving DecidableEq, Repr

/-- BAR0 and the queues (R390–R405). -/
structure HostIf where
  version : Nat := 0
  protoValid : Bool := false
  openPending : Bool := false
  faultsum : Word := 0
  hbDev : Nat := 0
  /-- Tick at which HB_DEV last advanced. -/
  hbDevAt : Nat := 0
  hbHost : Word := 0
  hbTimeout : Nat := 0
  /-- Tick at which the heartbeat timer last started, none while it does not run. -/
  hbStart : Option Nat := none
  irqctl : Word := 0
  msixTable : Tab Word := []
  msixPba : Tab Bool := []
  /-- Vectors raised so far, per vector (the model's own count of raises). -/
  raises : Tab Nat := []
  linkUp : Bool := false
  linkGen : Nat := 0
  linkWidth : Nat := 0
  sqs : Tab SQ := []
  cqs : Tab CQ := []
  deriving DecidableEq, Repr

/-! ### Package memory and rings -/

/-- One record of a ring's device part (R439): its bytes and the PAD slots written before it. -/
structure RingRec where
  bytes : List Byte
  pads : Nat
  /-- Root and shot of a result or gap record, for a memory error (R444). -/
  tag : Option (Nat × Nat)
  deriving DecidableEq, Repr

/-- A record ring (R437–R443). -/
structure Ring where
  dev : Bool := false
  host : Bool := false
  ien : Bool := false
  vec : Nat := 0
  dbase : Nat := 0
  dlen : Nat := 0
  cnt : Nat := 0
  hbase : Nat := 0
  hlen : Nat := 0
  itime : Nat := 0
  ctrl : Nat := 0
  recs : List RingRec := []
  used : Nat := 0
  /-- Write offset of the device part, in slots. -/
  woff : Nat := 0
  written : Nat := 0
  consumed : Nat := 0
  lastBad : Option Nat := none
  /-- Tick of the device's last read of consumed. -/
  readAt : Option Nat := none
  bad : Ctr := {}
  unsig : Nat := 0
  /-- Tick of the first of these. -/
  unsigAt : Option Nat := none
  deriving DecidableEq, Repr

/-- The package memory (R429–R445). -/
structure PkgMem where
  bytes : List Host.Cell := []
  /-- Granules that read as uncorrectable (R430). -/
  poison : List Nat := []
  /-- Ranges that acquisition engines have written (R299): from, up to, and the seed of their bytes, which are free
  values. -/
  captured : List (Nat × Nat × Nat) := []
  trained : Nat := 0
  ueSince : Bool := false
  uncorrectable : Ctr := {}
  lastUe : Nat := 0
  heldWrites : Ctr := {}
  dies : Tab (Nat × Nat × Nat) := []
  corrected : Tab Ctr := []
  deriving DecidableEq, Repr

/-! ### Power, housekeeping, calibration, faults, boot -/

/-- A wake step (R456), also the code of failed_step (R463). -/
inductive WakeStep where
  | regulator | oscillator | isolation | restore
  deriving DecidableEq, Repr

/-- A power domain (R446–R463). -/
structure Domain where
  st : DomSt := .off
  target : Nat := 2
  /-- The entry began in Retention, where isolation is applied already (R460). -/
  isolated : Bool := false
  step : WakeStep := .regulator
  fromOff : Bool := true
  retLost : Bool := false
  wakeFailed : Bool := false
  wakeCh : Option Nat := none
  thermRefused : Bool := false
  lastSource : Nat := 0
  sourceRef : Nat := 0
  failedStep : Nat := 0
  lostBanks : Nat := 0
  wakeUs : Nat := 0
  wakeStart : Nat := 0
  /-- Tick at which the wake step began (R457). -/
  stepStart : Nat := 0
  wakes : Ctr := {}
  failed : Ctr := {}
  lostCtr : Ctr := {}
  deriving DecidableEq, Repr

/-- A refusal log entry (R466). -/
structure Refused where
  tick : Nat
  what : Nat
  status : Nat
  target : Nat
  kind : Nat
  refuser : Nat
  deriving DecidableEq, Repr

/-- The refusal log (R464–R466). -/
structure RefLog where
  entries : List Refused := []
  lost : Bool := false
  total : Ctr := {}
  byDomain : Ctr := {}
  byCommand : Ctr := {}
  byRule : Ctr := {}
  periodMode : Nat := 0
  active : Bool := false
  start : Nat := 0
  deriving DecidableEq, Repr

/-- A thermal node (R476–R480): temperatures in 2^-16 °C, plausibility, level. -/
structure Node where
  t : Int := 0
  suspect : Bool := false
  failed : Bool := false
  good : Nat := 0
  level : Nat := 0
  deriving DecidableEq, Repr

/-- A read-back sample of a regular sequence (R203): channel, reading in µV, expected voltage in 2^-18 µV, and
whether the comparison is skipped. -/
structure ZSample where
  chan : Nat
  uv : Int
  expected : Int
  skip : Bool
  deriving DecidableEq, Repr

/-- Housekeeping (R467–R487). -/
structure House where
  dislim : Nat := 32
  slots : List (Nat × Nat) := []
  slotsPend : Option (Nat × List (Nat × Nat)) := none
  rounds : Nat := 0
  inRound : Bool := false
  roundDue : Nat := 0
  /-- The last round ended after the next one's start was due (R470). -/
  lateEnd : Bool := false
  /-- Read-back samples of the round in progress. -/
  zread : List ZSample := []
  failA : Bool := false
  failB : Bool := false
  passA : Nat := 0
  passB : Nat := 0
  /-- FAULT_CLEAR has asked for the converter's latch to clear (R475). -/
  clearA : Bool := false
  clearB : Bool := false
  nodes : Tab Node := []
  lastDiodes : Tab (Option Int) := []
  cap : Nat := 100
  lastStep : Option Nat := none
  devLevel : Nat := 0
  /-- Power of the last round, in µW. -/
  pfab : Nat := 0
  ptotal : Nat := 0
  vcap : Nat := 850
  roundUs : Nat := 0
  shutLatch : Bool := false
  shutAt : Option Nat := none
  shutDoms : List Nat := []
  aux : Tab Nat := []
  /-- What the next injected sequence reads (R472): domains that left or reached On, and the tick from which the
  supplies of the output and Z domains are read. -/
  injDue : List Nat := []
  injSafe : Option Nat := none
  disagree : Ctr := {}
  plaus : Ctr := {}
  injected : Ctr := {}
  overruns : Ctr := {}
  deriving DecidableEq, Repr

/-- A ramp of one corrected value (R497). -/
structure Ramp where
  r : Nat
  k : Nat
  vals : List (Nat × Int × Int)
  deriving DecidableEq, Repr

/-- The corrections of an instance: whether they start from the manufacturing area or from neutral, and
the difference from that start by index: ADC 3 × sub + kind, Z 64 × channel + segment (R490, R491). -/
structure CalVals where
  fact : Bool := false
  dev : Tab Int := []
  deriving DecidableEq, Repr

/-- A calibration instance (R488–R507). -/
structure CalInst where
  /-- 0 idle, 1 measuring, 2 ramping, 3 trimming, 4 write deferred. -/
  st : Nat := 0
  /-- Tick at which the run in progress began, and how often it saw each segment of each channel crossed (R490, R491). -/
  runAt : Nat := 0
  crossed : Tab Nat := []
  trimDue : Bool := false
  factory : Bool := false
  none_ : Bool := false
  badA : Bool := false
  badB : Bool := false
  /-- Node temperatures of the last run and trim, in 1/16 °C. -/
  tjRun : Int := 0
  tjTrim : Int := 0
  /-- The node's Tj at the last run or trim that measured the values (R503), and whether a trim has completed since power-up. -/
  tjMeas : Int := 0
  trimmed : Bool := false
  rampLen : Nat := 256
  ramp : Option Ramp := none
  /-- Corrections in force. -/
  vals : CalVals := {}
  /-- Values of before a trim, restored if the trim is abandoned (R500). -/
  saved : CalVals := {}
  /-- Generations of the two copies; generation 0: no valid record (R503, R504). -/
  genA : Nat := 0
  genB : Nat := 0
  /-- The bytes of the instance's slot in copy A and in copy B (R501, R503). -/
  imgA : List Byte := []
  imgB : List Byte := []
  writeDue : Bool := false
  /-- A CAL_COMMIT waits for the write. -/
  commit : Bool := false
  lastWrite : Option Nat := none
  runs : Ctr := {}
  starved : Ctr := {}
  abandoned : Ctr := {}
  storeErrs : Ctr := {}
  deriving DecidableEq, Repr

/-- The settings of one calibration scope (R495). -/
structure CalScope where
  auto : Bool := false
  dtemp : Nat := 48
  cwin : Nat := 1024
  cdead : Nat := 16
  ramp : Nat := 256
  deriving DecidableEq, Repr

/-- Centroid tracking of one burin (R492): count and sums per state, the states done in this run, the
ramp, and whether the present idle interval still has its step (R496). -/
structure CentTrack where
  on : Bool := false
  sums : Tab (Nat × Int × Int) := []
  got : List Nat := []
  rampLen : Nat := 256
  ramp : Option Ramp := none
  due : Bool := false
  runs : Ctr := {}
  deriving DecidableEq, Repr

/-- Calibration (R488–R507): 68 instances (R501), the settings of each scope by its code, the trims of each
analogue scope still to end, the first in progress (R499). -/
structure Calib where
  inst : Tab CalInst := []
  scopes : Tab CalScope := []
  trimQ : Tab (List Nat) := []
  track : Tab CentTrack := []
  deriving DecidableEq, Repr

/-- A proof run in progress (R527–R530). -/
structure ProofRun where
  active : Bool := false
  kind : Nat := 0
  domain : Nat := 0
  cell : Nat := 0
  tests : Nat := 0
  abandoned : Bool := false
  /-- The number of its request; for a part of another device's run, that device, and the number there. -/
  id : Nat := 0
  home : Option Nat := none
  deriving DecidableEq, Repr

/-- A request for a proof run (R149): its number, the cell of a cell run, the devices whose results are owed, and the
results that have come: device, signature, expected signature. -/
structure ProofJoin where
  id : Nat
  cell : Option Nat
  owed : List Nat
  results : List (Nat × BitVec 64 × BitVec 64)
  deriving DecidableEq, Repr

/-- A part of another device's command that this device has accepted and not yet applied (R138): that device, its number
for the command, the cells and the channel concerned, and the plate that will need a SHADOW. -/
structure Promise where
  src : Nat
  id : Nat
  cells : List Nat
  chan : Option Nat
  shadow : Option Nat
  deriving DecidableEq, Repr

/-- The boot record (R543) and boot's own state (R534–R542). -/
structure BootRec where
  step : Nat := 0
  cfgInvalid : Bool := false
  noSfdp : Bool := false
  fallback : Bool := false
  fwRaised : Bool := false
  dupSeen : Bool := false
  fwSlot : Nat := 0xFF
  resultA : Nat := 0xFF
  resultB : Nat := 0xFF
  fwVer : Nat := 0
  fwSv : Nat := 0
  fwRaise : Bool := false
  /-- Highest sec_ver among the containers with RAISE_SV, once every container has loaded (R121). -/
  patchRaise : Nat := 0
  /-- Raised above the fused value by this or an earlier boot: the highest sec_ver (R539). -/
  fwMin : Nat := 0
  failedDoms : Nat := 0
  bootUs : Nat := 0
  flashId : Nat := 0
  dupPorts : Nat := 0
  offmask : Nat := 0
  autosel : Bool := false
  jvlOff : Nat := 0
  gen1 : Bool := false
  start : Nat := 0
  devnum : Nat := 0
  assigned : Bool := false
  deriving DecidableEq, Repr

/-- A loaded container (R428). -/
structure LoadedCont where
  patchId : Nat
  patchVer : Nat
  secVer : Nat
  result : Nat
  first : Nat
  words : Nat
  deriving DecidableEq, Repr

/-- Microcode (R102–R124): the patch area, the dispatch entries with P set, and the boot results. -/
structure Patches where
  conts : List LoadedCont := []
  words : Tab (BitVec 24) := []
  dispatch : Tab (Option Nat) := []
  unavailable : List Nat := []
  minSv : Nat := 0
  deriving DecidableEq, Repr

/-- The sideband target (R547–R549). -/
structure Sideband where
  static_ : Nat := 0x4C
  dyn : Option Nat := none
  pwrReq : Word := 0xFFFF00
  pwrStatus : Nat := 0
  pwrBusy : Bool := false
  pwrDone : Bool := false
  proofReq : Word := 0
  proofCell : Word := 0
  proofStatus : Nat := 0
  proofBusy : Bool := false
  proofDone : Bool := false
  proofSig : BitVec 64 := 0
  deriving DecidableEq, Repr

/-- The VFAB governor (R59–R62). -/
structure Governor where
  on : Bool := false
  /-- Tick at which the present interval began (R59, R61). -/
  since : Nat := 0
  fixed : Bool := false
  vfab : Nat := 750
  vmin : Nat := 650
  vmax : Nat := 850
  vfixed : Nat := 750
  nearLate : Nat := 10
  lower : Nat := 50
  /-- Least margin of any entry released in this interval, and whether one was late. -/
  margin : Option Int := none
  late : Bool := false
  quiet : Nat := 0
  saturated : Bool := false
  capped : Bool := false
  conflict : Bool := false
  deriving DecidableEq, Repr

/-- Mode, pins and device identity (R26, R393, R510, R532–R534). -/
structure Sys where
  mode : Mode := .boot
  refclk : Bool := false
  railsOk : Bool := true
  resetLow : Bool := false
  /-- Tick at which a device reset takes the domains Off (R533). -/
  resetAt : Option Nat := none
  /-- BOOT has ended in CONFIGURE at least once since PD00 AON powered up (R510). -/
  bootedOk : Bool := false
  devnum : Nat := 0
  dnv : Bool := false
  routes : Tab Nat := []
  /-- Devices that a neighbour on the way to them no longer reaches (R148, R383). -/
  cutDevs : List Nat := []
  valFailed : Bool := false
  failKind : Nat := 0
  failRef : Nat := 0
  trigPins : Tab Bool := []
  /-- TRIG events still to be raised (R351): tick, pin, rising. -/
  trigDue : List (Nat × Nat × Bool) := []
  /-- The tick of the latest REFCLK edge that sampled SYNC_IN high (R325). -/
  syncHigh : Option Nat := none
  deriving DecidableEq, Repr

/-- What the device last put out to a reader: the bytes of the last query record, BAR2 read data,
sideband read data (the model's own output registers). -/
structure Out where
  query : List Byte := []
  bar2 : List Byte := []
  bar2Poison : Bool := false
  /-- What the last transfer of each ring wrote into host memory, in order: bus addresses and bytes, PADs first, `written` of
  the control block last (R440). -/
  ring : Tab (List (Nat × List Byte)) := []
  sb : List Byte := []
  deriving DecidableEq, Repr

/-- The whole device. -/
structure State where
  pending : List Instr := []
  /-- Ticks since PD00 AON powered up; the coarse count is this modulo 2^48 (R356). -/
  now : Nat := 0
  sys : Sys := {}
  time : TimeKeeper := {}
  gov : Governor := {}
  host : HostIf := {}
  out : Out := {}
  burins : Tab Burin := []
  cells : Tab CellSt := []
  plates : Tab Plate := []
  roots : Tab RootRun := []
  faults : Tab FaultRec := []
  devFault : FaultRec := {}
  queues : Tab PlayQ := []
  tones : Tab Tone := []
  ports : Tab Port := []
  zch : Tab ZChan := []
  zctr : Tab ZCtrs := []
  zbanks : Tab Banks := []
  ro : Tab RoTone := []
  /-- Chain state of the 16 × 128 stipple tones. -/
  stipChains : Tab Chain := []
  acqPorts : Tab AcqPort := []
  streams : Tab Stream := []
  epoch : Nat := 0
  /-- E before the last alignment event: stage A2 still gives out samples of its grid (R211). -/
  epochPrev : Nat := 0
  alignArm : Option AlignArm := none
  chans : Tab Channel := []
  chCtrs : Tab ChCtrs := []
  gates : BitVec 64 := 0
  gatePend : List (Nat × BitVec 64 × BitVec 64) := []
  engines : Tab Engine := []
  mark : Markers := {}
  stampCh : Tab StampChan := []
  tiu : Tab TiuEng := []
  jvl : Tab Jvl := []
  jvlCtr : Tab JvlCtrs := []
  timePort : TimePort := {}
  mem : PkgMem := {}
  rings : Tab Ring := []
  domains : Tab Domain := []
  refLog : RefLog := {}
  house : House := {}
  calib : Calib := {}
  proofs : Tab ProofRun := []
  joins : List ProofJoin := []
  promises : List Promise := []
  /-- The number of the next command that this device passes to others (the model's own field). -/
  nextId : Nat := 0
  boot : BootRec := {}
  patches : Patches := {}
  side : Sideband := {}
  /-- Index of the next free value (the model's own field). -/
  free : Nat := 0
  deriving DecidableEq, Repr

/-- Why a step stops with a fault. -/
inductive Fault where
  /-- Raised where a burin reaches a microword of a reserved class or condition: R125 makes no promise
  about what it does. Safe: nothing can be proved of what follows. -/
  | reservedMicroword
  deriving DecidableEq, Repr

/-- Why a step has no meaning. -/
inductive Refusal where
  /-- Raised by an arm of `exec` whose command has no meaning yet; safe: nothing can be proved of
  the command's effect. -/
  | notModelled (mnemonic : String)
  deriving DecidableEq, Repr

/-- The device as PD00 AON powers up (R532): every domain but PD00 AON Off (R451), mode BOOT, boot
step 0, a counting period begun (R464), every field at the value its structure gives it. -/
def State.reset : State :=
  { domains := [(0, { st := .on, target := 0, lastSource := 1 })]
    refLog := { active := true } }

end Sys2Proof.Machine
end

