-- ==== Sys2Proof/Machine/Tab.lean ====
section
/-! DEFINITION. Sparse tables: reading a key, writing a key in the canonical form (keys rising, no
entry equal to the default), and the canonical form itself. -/

namespace Sys2Proof.Machine

/-- The value a table holds at a key; `d` where it lists none. -/
def tget {α : Type} (d : α) : Tab α → Nat → α
  | [], _ => d
  | (j, v) :: m, k => if j = k then v else tget d m k

/-- Insert in rising order, in place of an entry with the same key. -/
def tins {α : Type} (k : Nat) (v : α) : Tab α → Tab α
  | [] => [(k, v)]
  | (j, w) :: m =>
    if k < j then (k, v) :: (j, w) :: m
    else if j = k then (k, v) :: m
    else (j, w) :: tins k v m

/-- Remove a key. -/
def tdel {α : Type} (k : Nat) : Tab α → Tab α
  | [] => []
  | (j, w) :: m => if j = k then tdel k m else (j, w) :: tdel k m

/-- Write a key: writing the default removes the entry. -/
def tset {α : Type} [DecidableEq α] (d : α) (m : Tab α) (k : Nat) (v : α) : Tab α :=
  if v = d then tdel k m else tins k v m

/-- Apply a function to every listed entry, keeping the canonical form. -/
def tmap {α : Type} [DecidableEq α] (d : α) (f : Nat → α → α) : Tab α → Tab α
  | [] => []
  | (j, w) :: m => if f j w = d then tmap d f m else (j, f j w) :: tmap d f m

/-- The keys of a table. -/
def tkeys {α : Type} (m : Tab α) : List Nat := m.map Prod.fst

/-- Every key of the table is above `lo` and the keys rise strictly. -/
def tsorted {α : Type} : Nat → Tab α → Bool
  | _, [] => true
  | lo, (j, _) :: m => decide (lo ≤ j) && tsorted (j + 1) m

/-- The canonical form: keys strictly rising, no entry equal to the default. -/
def twf {α : Type} [DecidableEq α] (d : α) (m : Tab α) : Bool :=
  tsorted 0 m && m.all (fun e => decide (e.2 ≠ d))

/-- `k` entries from a list, in steps: write a run of values from a key on. -/
def tsetRun {α : Type} [DecidableEq α] (d : α) : Tab α → Nat → List α → Tab α
  | m, _, [] => m
  | m, k, v :: vs => tsetRun d (tset d m k v) (k + 1) vs

/-- Read a run of `n` values from a key on. -/
def tgetRun {α : Type} (d : α) (m : Tab α) (k : Nat) : Nat → List α
  | 0 => []
  | n + 1 => tget d m k :: tgetRun d m (k + 1) n

end Sys2Proof.Machine
end

