-- ==== Sys2Proof/Machine/Ops.lean ====
section
/-! DEFINITION. The named operations over the state that every family shares: reading and writing
one element of a table, event counters, bytes of records, interrupts and the fault summary. -/

namespace Sys2Proof.Machine

/-! ### One element of each table -/

def State.burin (s : State) (k : Nat) : Burin := tget {} s.burins k
def State.setBurin (s : State) (k : Nat) (v : Burin) : State := { s with burins := tset {} s.burins k v }
def State.modBurin (s : State) (k : Nat) (f : Burin → Burin) : State := s.setBurin k (f (s.burin k))
def State.cell (s : State) (k : Nat) : CellSt := tget {} s.cells k
def State.setCell (s : State) (k : Nat) (v : CellSt) : State := { s with cells := tset {} s.cells k v }
def State.modCell (s : State) (k : Nat) (f : CellSt → CellSt) : State := s.setCell k (f (s.cell k))
def State.plate (s : State) (k : Nat) : Plate := tget {} s.plates k
def State.setPlate (s : State) (k : Nat) (v : Plate) : State := { s with plates := tset {} s.plates k v }
def State.modPlate (s : State) (k : Nat) (f : Plate → Plate) : State := s.setPlate k (f (s.plate k))
def State.root (s : State) (k : Nat) : RootRun := tget {} s.roots k
def State.setRoot (s : State) (k : Nat) (v : RootRun) : State := { s with roots := tset {} s.roots k v }
def State.modRoot (s : State) (k : Nat) (f : RootRun → RootRun) : State := s.setRoot k (f (s.root k))
def State.fault (s : State) (k : Nat) : FaultRec := tget {} s.faults k
def State.setFault (s : State) (k : Nat) (v : FaultRec) : State := { s with faults := tset {} s.faults k v }
def State.modFault (s : State) (k : Nat) (f : FaultRec → FaultRec) : State := s.setFault k (f (s.fault k))
def State.queue (s : State) (k : Nat) : PlayQ := tget {} s.queues k
def State.setQueue (s : State) (k : Nat) (v : PlayQ) : State := { s with queues := tset {} s.queues k v }
def State.modQueue (s : State) (k : Nat) (f : PlayQ → PlayQ) : State := s.setQueue k (f (s.queue k))
def State.tone (s : State) (k : Nat) : Tone := tget {} s.tones k
def State.setTone (s : State) (k : Nat) (v : Tone) : State := { s with tones := tset {} s.tones k v }
def State.modTone (s : State) (k : Nat) (f : Tone → Tone) : State := s.setTone k (f (s.tone k))
def State.port (s : State) (k : Nat) : Port := tget {} s.ports k
def State.setPort (s : State) (k : Nat) (v : Port) : State := { s with ports := tset {} s.ports k v }
def State.modPort (s : State) (k : Nat) (f : Port → Port) : State := s.setPort k (f (s.port k))
def State.z (s : State) (k : Nat) : ZChan := tget {} s.zch k
def State.setZ (s : State) (k : Nat) (v : ZChan) : State := { s with zch := tset {} s.zch k v }
def State.modZ (s : State) (k : Nat) (f : ZChan → ZChan) : State := s.setZ k (f (s.z k))
def State.zc (s : State) (k : Nat) : ZCtrs := tget {} s.zctr k
def State.setZc (s : State) (k : Nat) (v : ZCtrs) : State := { s with zctr := tset {} s.zctr k v }
def State.modZc (s : State) (k : Nat) (f : ZCtrs → ZCtrs) : State := s.setZc k (f (s.zc k))
def State.zbank (s : State) (k : Nat) : Banks := tget {} s.zbanks k
def State.setZbank (s : State) (k : Nat) (v : Banks) : State := { s with zbanks := tset {} s.zbanks k v }
def State.modZbank (s : State) (k : Nat) (f : Banks → Banks) : State := s.setZbank k (f (s.zbank k))
def State.rot (s : State) (k : Nat) : RoTone := tget {} s.ro k
def State.setRot (s : State) (k : Nat) (v : RoTone) : State := { s with ro := tset {} s.ro k v }
def State.modRot (s : State) (k : Nat) (f : RoTone → RoTone) : State := s.setRot k (f (s.rot k))
def State.stipChain (s : State) (k : Nat) : Chain := tget {} s.stipChains k
def State.setStipChain (s : State) (k : Nat) (v : Chain) : State := { s with stipChains := tset {} s.stipChains k v }
def State.modStipChain (s : State) (k : Nat) (f : Chain → Chain) : State := s.setStipChain k (f (s.stipChain k))
def State.acqPort (s : State) (k : Nat) : AcqPort := tget {} s.acqPorts k
def State.setAcqPort (s : State) (k : Nat) (v : AcqPort) : State := { s with acqPorts := tset {} s.acqPorts k v }
def State.modAcqPort (s : State) (k : Nat) (f : AcqPort → AcqPort) : State := s.setAcqPort k (f (s.acqPort k))
def State.stream (s : State) (k : Nat) : Stream := tget {} s.streams k
def State.setStream (s : State) (k : Nat) (v : Stream) : State := { s with streams := tset {} s.streams k v }
def State.modStream (s : State) (k : Nat) (f : Stream → Stream) : State := s.setStream k (f (s.stream k))
def State.chan (s : State) (k : Nat) : Channel := tget {} s.chans k
def State.setChan (s : State) (k : Nat) (v : Channel) : State := { s with chans := tset {} s.chans k v }
def State.modChan (s : State) (k : Nat) (f : Channel → Channel) : State := s.setChan k (f (s.chan k))
def State.chCtr (s : State) (k : Nat) : ChCtrs := tget {} s.chCtrs k
def State.setChCtr (s : State) (k : Nat) (v : ChCtrs) : State := { s with chCtrs := tset {} s.chCtrs k v }
def State.modChCtr (s : State) (k : Nat) (f : ChCtrs → ChCtrs) : State := s.setChCtr k (f (s.chCtr k))
def State.engine (s : State) (k : Nat) : Engine := tget {} s.engines k
def State.setEngine (s : State) (k : Nat) (v : Engine) : State := { s with engines := tset {} s.engines k v }
def State.modEngine (s : State) (k : Nat) (f : Engine → Engine) : State := s.setEngine k (f (s.engine k))
def State.stampChan (s : State) (k : Nat) : StampChan := tget {} s.stampCh k
def State.setStampChan (s : State) (k : Nat) (v : StampChan) : State := { s with stampCh := tset {} s.stampCh k v }
def State.modStampChan (s : State) (k : Nat) (f : StampChan → StampChan) : State := s.setStampChan k (f (s.stampChan k))
def State.tiuEng (s : State) (k : Nat) : TiuEng := tget {} s.tiu k
def State.setTiuEng (s : State) (k : Nat) (v : TiuEng) : State := { s with tiu := tset {} s.tiu k v }
def State.modTiuEng (s : State) (k : Nat) (f : TiuEng → TiuEng) : State := s.setTiuEng k (f (s.tiuEng k))
def State.jport (s : State) (k : Nat) : Jvl := tget {} s.jvl k
def State.setJport (s : State) (k : Nat) (v : Jvl) : State := { s with jvl := tset {} s.jvl k v }
def State.modJport (s : State) (k : Nat) (f : Jvl → Jvl) : State := s.setJport k (f (s.jport k))
def State.jctr (s : State) (k : Nat) : JvlCtrs := tget {} s.jvlCtr k
def State.setJctr (s : State) (k : Nat) (v : JvlCtrs) : State := { s with jvlCtr := tset {} s.jvlCtr k v }
def State.modJctr (s : State) (k : Nat) (f : JvlCtrs → JvlCtrs) : State := s.setJctr k (f (s.jctr k))
def State.ring (s : State) (k : Nat) : Ring := tget {} s.rings k
def State.setRing (s : State) (k : Nat) (v : Ring) : State := { s with rings := tset {} s.rings k v }
def State.modRing (s : State) (k : Nat) (f : Ring → Ring) : State := s.setRing k (f (s.ring k))
def State.dom (s : State) (k : Nat) : Domain := tget {} s.domains k
def State.setDom (s : State) (k : Nat) (v : Domain) : State := { s with domains := tset {} s.domains k v }
def State.modDom (s : State) (k : Nat) (f : Domain → Domain) : State := s.setDom k (f (s.dom k))
def State.proof (s : State) (k : Nat) : ProofRun := tget {} s.proofs k
def State.setProof (s : State) (k : Nat) (v : ProofRun) : State := { s with proofs := tset {} s.proofs k v }
def State.modProof (s : State) (k : Nat) (f : ProofRun → ProofRun) : State := s.setProof k (f (s.proof k))
def State.sq (s : State) (k : Nat) : SQ := tget {} s.host.sqs k
def State.setSq (s : State) (k : Nat) (v : SQ) : State :=
  { s with host := { s.host with sqs := tset {} s.host.sqs k v } }
def State.modSq (s : State) (k : Nat) (f : SQ → SQ) : State := s.setSq k (f (s.sq k))
def State.cq (s : State) (k : Nat) : CQ := tget {} s.host.cqs k
def State.setCq (s : State) (k : Nat) (v : CQ) : State :=
  { s with host := { s.host with cqs := tset {} s.host.cqs k v } }
def State.modCq (s : State) (k : Nat) (f : CQ → CQ) : State := s.setCq k (f (s.cq k))

/-! ### Numbers -/

/-- One event of a 32-bit event counter (R58, R523). -/
def Ctr.bump (c : Ctr) : Ctr :=
  if c.n = 0xFFFFFFFF then { c with ovf := true } else { c with n := c.n + 1 }

/-- `k` events. -/
def Ctr.add (c : Ctr) (k : Nat) : Ctr :=
  if c.n + k ≤ 0xFFFFFFFF then { c with n := c.n + k } else { n := 0xFFFFFFFF, ovf := true }

/-- One bit as a number. -/
def bit (b : Bool) (k : Nat) : Nat := if b then 2 ^ k else 0

/-- Field [hi:lo] of a number. -/
def bits (v lo width : Nat) : Nat := v / 2 ^ lo % 2 ^ width

/-- The two's-complement value of the low `w` bits of a number. -/
def sgn (w v : Nat) : Int :=
  if v % 2 ^ w < 2 ^ (w - 1) then (v % 2 ^ w : Nat) else ((v % 2 ^ w : Nat) : Int) - (2 ^ w : Nat)

/-- The low `w` bits of a two's-complement value. -/
def low (w : Nat) (v : Int) : Nat := (v % ((2 ^ w : Nat) : Int)).toNat

/-- Round half up of v / 2^s (R73, before the limits). -/
def roundShift (x : Int) (s : Nat) : Int :=
  if s = 0 then x else (x + ((2 ^ (s - 1) : Nat) : Int)) / ((2 ^ s : Nat) : Int)

/-- The narrowing of R73: the value, and whether it saturated. -/
def narrow (x : Int) (s : Nat) (lo hi : Int) : Int × Bool :=
  let y := roundShift x s
  if y > hi then (hi, true) else if y < lo then (lo, true) else (y, false)

/-- Is `a` at or after `b` as `w`-bit sequence numbers (R524)? -/
def seqGe (w a b : Nat) : Bool := decide ((a + 2 ^ w - b % 2 ^ w) % 2 ^ w < 2 ^ (w - 1))

/-! ### Bytes of records (R7: little-endian) -/

def le : Nat → Nat → List Byte
  | 0, _ => []
  | n + 1, v => BitVec.ofNat 8 v :: le n (v / 256)

def leI (n : Nat) (v : Int) : List Byte := le n (low (8 * n) v)

/-- `n` bytes of zero. -/
def pad (n : Nat) : List Byte := List.replicate n 0

/-- The number that little-endian bytes spell. -/
def unle : List Byte → Nat
  | [] => 0
  | b :: bs => b.toNat + 256 * unle bs

/-! ### Time -/

/-- The 48-bit coarse count (R356). -/
def State.coarse (s : State) : Nat := s.now % 2 ^ 48

/-- Ticks in a second, a microsecond, a word. -/
def ticksPerSec : Nat := 20000000000
def us (n : Nat) : Nat := n * 20000
def word : Nat := 16

/-- Round up to a word boundary. -/
def wordUp (t : Nat) : Nat := (t + 15) / 16 * 16

/-- Present device time in ticks of TAI. -/
def State.devTicks (s : State) : Nat := s.time.sec * ticksPerSec + s.time.tick

/-- A timestamp in units of 2^-16 ns. -/
def stampUnits (t : Stamp) : Nat := (t.sec * 1000000000 + t.ns) * 65536 + t.frac

/-- The tick nearest a timestamp, exact halves rounded up (R321, R333): one tick is 50 ns / 1000, so
`ticks = units × 20 / 65536`. -/
def stampTicks (t : Stamp) : Nat := (stampUnits t * 40 + 65536) / 131072

def stampNow (t : Stamp) : Bool := t.sec == 0 && t.ns == 0 && t.frac == 0

/-- R13: a nanosecond field of 10^9 or more is refused. -/
def stampOk (t : Stamp) : Bool := decide (t.ns < 1000000000)

/-- The coarse tick at which device time, as it now counts, reaches a TAI tick; may be past. -/
def State.coarseOf (s : State) (tai : Nat) : Int := (tai : Int) - (s.devTicks : Int) + (s.now : Int)

/-- The TAI tick of a coarse tick, on the present labelling. -/
def State.taiOf (s : State) (tick : Int) : Int := tick + (s.devTicks : Int) - (s.now : Int)

/-- The same under the label that was in force at that tick: the steps after it are taken back (R359). -/
def State.taiAt (s : State) (tick : Int) : Int :=
  s.taiOf tick - ((s.time.stepLog.filter fun e => decide (tick < (e.1 : Int))).map Prod.snd).sum

/-- The timestamp of a TAI tick count in units of 2^-16 tick, halves rounded up (R13). -/
def toStamp (u : Nat) : Stamp :=
  let q := (u + 10) / 20
  { sec := q / (65536 * 1000000000), ns := q / 65536 % 1000000000, frac := q % 65536 }

/-- A timestamp's 16-byte field (R11, R13) from a TAI tick count in units of 2^-16 tick. -/
def stampBytes (u : Nat) : List Byte := le 8 (toStamp u).sec ++ le 4 (toStamp u).ns ++ le 2 (toStamp u).frac ++ pad 2

/-- An integer square root from its bits, rounded down. -/
def isqrt : Nat → Nat → Nat → Nat
  | 0, _, r => r
  | k + 1, x, r => isqrt k x (if (r + 2 ^ k) * (r + 2 ^ k) ≤ x then r + 2 ^ k else r)

/-! ### Modes and interrupts -/

def Mode.code : Mode → Nat
  | .boot => 0 | .configure => 1 | .ready => 2 | .run => 3
  | .calibrate => 4 | .proof => 5 | .safe => 6 | .service => 7

def Mode.ofCode : Nat → Option Mode
  | 0 => some .boot | 1 => some .configure | 2 => some .ready | 3 => some .run
  | 4 => some .calibrate | 5 => some .proof | 6 => some .safe | 7 => some .service
  | _ => none

/-- The modes in which refusals are counted (R36, R464). -/
def Mode.counting : Mode → Bool
  | .boot | .proof | .safe | .service => true
  | _ => false

/-- What a word of the MSI-X table reads as before anything is written: PCIe leaves each vector
masked (PRESUMED, log 9). -/
def msixDefault (k : Nat) : Word := if k % 4 = 3 then 1 else 0

def State.msixWord (s : State) (k : Nat) : Word := tget (msixDefault k) s.host.msixTable k

/-- Raise an MSI-X vector (R396): a masked one pends. -/
def raiseVec (v : Nat) (s : State) : State :=
  if (s.msixWord (4 * v + 3)).getLsbD 0 then
    { s with host := { s.host with msixPba := tset false s.host.msixPba v true } }
  else
    { s with host := { s.host with raises := tset 0 s.host.raises v (tget 0 s.host.raises v + 1) } }

/-- Raise FVEC if it is enabled (R396). -/
def raiseFault (s : State) : State :=
  if s.host.irqctl.getLsbD 6 then raiseVec (bits s.host.irqctl.toNat 0 6) s else s

/-- Raise WVEC if it is enabled (R396, R282). -/
def raiseWatch (s : State) : State :=
  if s.host.irqctl.getLsbD 14 then raiseVec (bits s.host.irqctl.toNat 8 6) s else s

/-- Set a bit of FAULTSUM; a 0-to-1 change raises FVEC (R394, R396). -/
def setSum (k : Nat) (s : State) : State :=
  if s.host.faultsum.getLsbD k then s
  else raiseFault { s with host := { s.host with faultsum := s.host.faultsum ||| BitVec.ofNat 32 (2 ^ k) } }

/-- The summary bits whose latch is set now (R394): SAFE, PLATE, HATCH, HOLD, ZOUT, HBLOST. -/
def State.latchBits (s : State) : Nat :=
  bit (decide (s.devFault.codes ≠ [])) 0
    + bit (s.faults.any fun e => decide (e.2.codes ≠ [])) 1
    + bit (s.chans.any fun e => e.2.stormFlag || e.2.ovfFlag) 6
    + bit s.time.holdLatch 8
    + bit (s.zch.any fun e => e.2.unownedLatch) 10
    + bit (s.devFault.codes.contains 11) 12

/-- Enter a mode: FVEC (R396) and the counting period (R464). -/
def setMode (m : Mode) (s : State) : State :=
  if s.sys.mode = m then s
  else
    let log :=
      if m.counting then
        if s.sys.mode.counting && s.refLog.active then s.refLog
        else { active := true, start := s.coarse, periodMode := m.code }
      else { s.refLog with active := false }
    raiseFault { s with sys := { s.sys with mode := m }, refLog := log }

/-- FAULT_N is low (R510). -/
def State.faultN (s : State) : Bool :=
  !s.sys.bootedOk || decide (s.devFault.codes ≠ []) || s.faults.any (fun e => decide (e.2.codes ≠ []))
    || s.zch.any (fun e => e.2.unownedLatch) || s.house.failA || s.house.failB || s.house.shutLatch

/-! ### Refusals (R464–R466) -/

/-- Why something was refused (R465). -/
inductive Why where
  | mode | inUse | configured (cell : Nat) | alwaysOn (d : Nat) | transition (d : Nat)
  | thermal (node : Nat) | wakeTimeout (step : Nat) | field (off : Nat) | wakeEvent (ch : Nat)
  | auth (id : Nat) | doubt | domain (d : Nat) | command (w : Nat)
  deriving DecidableEq, Repr

/-- Refuser kind and word of R465; the MODE detail is the mode in force. -/
def Why.refuser (m : Mode) : Why → Nat × Nat
  | .domain d => (1, d)
  | .command w => (2, w)
  | .mode => (3, 1 + m.code * 65536)
  | .inUse => (3, 2)
  | .configured c => (3, 3 + c % 65536 * 65536)
  | .alwaysOn d => (3, 4 + d * 65536)
  | .transition d => (3, 5 + d * 65536)
  | .thermal n => (3, 6 + n * 65536)
  | .wakeTimeout t => (3, 7 + t * 65536)
  | .field o => (3, 8 + o % 65536 * 65536)
  | .wakeEvent c => (3, 9 + c % 65536 * 65536)
  | .auth i => (3, 10 + i % 65536 * 65536)
  | .doubt => (3, 11)

/-- Log one refusal while a counting period runs (R464, R466). -/
def logRefusal (what status target : Nat) (why : Why) (s : State) : State :=
  if s.refLog.active then
    let (kind, refuser) := why.refuser s.sys.mode
    let l := s.refLog
    let e : Refused := { tick := s.coarse, what, status, target, kind, refuser }
    { s with refLog := { l with
        entries := (e :: l.entries).take 32
        lost := l.lost || decide (32 ≤ l.entries.length)
        total := l.total.bump
        byDomain := if kind = 1 then l.byDomain.bump else l.byDomain
        byCommand := if kind = 2 then l.byCommand.bump else l.byCommand
        byRule := if kind = 3 then l.byRule.bump else l.byRule } }
  else s

/-! ### Loops -/

/-- Apply an operation for each element of a list, in order. -/
def each {α : Type} (f : α → State → State) : List α → State → State
  | [], s => s
  | a :: as, s => each f as (f a s)

/-- The roots of a list that run and have a further shot, with the start events each has raised: those for whose next
shot boundary an effect waits (R37). -/
def State.shotWaits (s : State) (roots : List Nat) : List (Nat × Nat) :=
  (roots.filter fun k => (s.root k).running && decide ((s.root k).series ≠ [])).map fun k => (k, (s.root k).starts)

/-- What is still waited for once a root has passed the boundary of a shot (its ordinal), or has stopped. -/
def passWaits (key : Nat) (ord : Option Nat) (l : List (Nat × Nat)) : List (Nat × Nat) :=
  l.filter fun e => !(e.1 == key && match ord with | some n => decide (e.2 < n) | none => true)

/-- Apply an operation `n` times. -/
def times (f : State → State) : Nat → State → State
  | 0, s => s
  | n + 1, s => times f n (f s)

/-- The first of a list for which a function answers. -/
def firstSome {α β : Type} (f : α → Option β) : List α → Option β
  | [] => none
  | a :: as => match f a with
    | some b => some b
    | none => firstSome f as

/-! ### Domains -/

/-- A domain is On; ENTERING and WAKING count as not On (R446). -/
def State.isOn (s : State) (d : Nat) : Bool := decide ((s.dom d).st = .on)

/-- The state whose levels the outputs of a domain have (R452 step 2, R461): the target of an entry, and while it wakes
the state that it comes from. -/
def State.edgeSt (s : State) (d : Nat) : DomSt :=
  let k := s.dom d
  match k.st with
  | .entering => if k.target = 2 then .off else .retention
  | .waking => if k.fromOff then .off else .retention
  | st => st

/-- The folio domain of a burin (R104, R446). -/
def folioDom (b : Nat) : Nat := 6 + b / 128

/-- The tile of a burin is marked unavailable (R103, R120). -/
def State.tileBad (s : State) (b : Nat) : Bool := s.patches.unavailable.contains (b / 16)

/-- The output domain of a port number 0x0000 + pp or 0x0100 + nn (R15). -/
def outDom (p : Nat) : Nat := if p < 0x100 then 14 + p / 8 else 14 + (p - 0x100) / 4

/-- The input domain of an acquisition port (R15). -/
def inDom (nn : Nat) : Nat := 18 + nn / 8

/-- The Z domain of a channel (R15). -/
def zDom (z : Nat) : Nat := 20 + z / 64

/-- The domains of a resource number (R42, R417): a read-out tone lies in its probe port's output
domain and in its acquisition port's input domain. -/
def resDoms (res : Nat) : List Nat :=
  if res < 0x1000 then [outDom (res / 8)]
  else if res < 0x2000 then [outDom (0x100 + (res - 0x1000) / 16), inDom ((res - 0x1000) / 16)]
  else if res < 0x3000 then [zDom (res - 0x2000)]
  else [inDom (res - 0x3000), outDom (0x100 + (res - 0x3000))]

/-- A resource number names something (R18, R42, R417). -/
def resOk (res : Nat) : Bool :=
  decide (res < 0x100) || (decide (0x1000 ≤ res) && decide (res < 0x1100))
    || (decide (0x2000 ≤ res) && decide (res < 0x2100)) || (decide (0x3000 ≤ res) && decide (res < 0x3010))

/-- The play-out queue number of a queue (R42). -/
def qnum : QueueId → Nat
  | .drive i => i.val
  | .ro i => 0x1000 + i.val
  | .z i => 0x2000 + i.val

def tnum : ToneId → Nat
  | .drive i => i.val
  | .ro i => 0x1000 + i.val

/-- The port of a tone number. -/
def tonePort (t : Nat) : Nat := if t < 0x1000 then t / 8 else 0x100 + (t - 0x1000) / 16

/-- The tones of a port. -/
def portTones (p : Nat) : List Nat :=
  if p < 0x100 then (List.range 8).map (p * 8 + ·)
  else (List.range 16).map (0x1000 + (p - 0x100) * 16 + ·)

end Sys2Proof.Machine
end

