-- ==== Sys2Proof/Machine/MarkOps.lean ====
section
/-! DEFINITION. The edges of the marker outputs (R310–R318). A repetition's edges are emitted when something asks for
them: a gate, the next repetition, the end of the playback, a query. Instants count 12.5 ps. -/

namespace Sys2Proof.Machine

/-- One edge of an output (R312): one that changes nothing emits nothing, one within 300 ps of the edge before it
is dropped. Answers the output and how many edges were dropped. -/
def mrkEdge (t : Int) (lvl : Bool) (o : MrkOut) : MrkOut × Nat :=
  if o.level = lvl then (o, 0)
  else match o.lastEdge with
    | some p => if t - p < 24 then (o, 1) else ({ o with level := lvl, lastEdge := some t }, 0)
    | none => ({ o with level := lvl, lastEdge := some t }, 0)

/-- An edge named at an instant, if it lies in the window that is to be emitted; OFFS moves it inside the latency
(R311). -/
def winEdge (lo hi t : Int) (lvl : Bool) (o : MrkOut) : MrkOut × Nat :=
  if lo ≤ t && decide (t < hi) then mrkEdge (t + o.offs) lvl o else (o, 0)

/-- Two edges of an output in time order. -/
def edgePair (a b : MrkOut → MrkOut × Nat) (o : MrkOut) : MrkOut × Nat :=
  let (o, n) := a o
  let (o, m) := b o
  (o, n + m)

/-- The code of one vector at an output, in the cycle that starts at a tick (R313, R314): its edges named in a window. -/
def mrkCode (lo hi : Int) (code t1 t2 cycle : Nat) (o : MrkOut) : MrkOut × Nat :=
  let t (x : Nat) : Int := 4 * (cycle : Int) + (x : Int)
  let rise := winEdge lo hi (t t1) true
  let fall := winEdge lo hi (t t2) false
  match code with
  | 1 => rise o
  | 2 => fall o
  | 3 =>
    if t1 = t2 then (o, if lo ≤ t t1 && decide (t t1 < hi) then 2 else 0)
    else if t1 < t2 then edgePair rise fall o
    else edgePair fall rise o
  | _ => (o, 0)

/-- One vector at every PATTERN output. -/
def playVector (lo hi : Int) (v cycle : Nat) (m : Markers) : Markers :=
  let (codes, ts) := tget (0, 0) m.vectors v
  (tkeys (m.outs.filter fun e => e.2.mode == 1)).foldl (fun m k =>
    let (t1, t2) := tget (0, 0) m.tsets (ts * 32 + k)
    let (o, n) := mrkCode lo hi (bits codes (2 * k) 2) t1 t2 cycle (tget {} m.outs k)
    { m with outs := tset {} m.outs k o, drops := m.drops.add n }) m

/-- Up to `n` vectors of the repetition in play, as far as their edges lie before an instant; a vector is done once its
cycle has ended by then. -/
def playVectors (hi : Int) : Nat → Markers → Markers
  | 0, m => m
  | n + 1, m =>
    let cycle := m.segStart + 16 * m.done
    if hi ≤ 4 * (cycle : Int) then m
    else
      let m := playVector m.upTo hi ((tget {} m.segs m.seg).start + m.done) cycle m
      if 4 * (cycle : Int) + 64 ≤ hi then playVectors hi n { m with done := m.done + 1 } else m

/-- The tick at which the repetition in play ends. -/
def Markers.repEnd (m : Markers) : Nat := m.segStart + 16 * (tget {} m.segs m.seg).len

/-- Every edge of the repetition in play that is named before a tick. -/
def advanceMarks (tick : Nat) (m : Markers) : Markers :=
  let hi : Int := 4 * (Nat.min tick m.repEnd : Nat)
  if m.gen = .playing && decide (m.upTo < hi) then
    { playVectors hi ((tget {} m.segs m.seg).len - m.done) m with upTo := hi }
  else m

/-- Emit the edges named before a tick. -/
def markUpTo (tick : Nat) (s : State) : State := { s with mark := advanceMarks tick s.mark }

def mrkIdle (o : MrkOut) : MrkOut :=
  { o with level := decide (o.idle = 1), pulseEnd := none, pulseRoot := none }

/-- The end of the FOLLOW pulse of an output: its falling edge, named at a tick. -/
def followFall (t : Nat) (o : MrkOut) : MrkOut × Nat :=
  let (o, n) := mrkEdge (4 * (t : Int) + o.offs) false o
  ({ o with pulseEnd := none, pulseRoot := none }, n)

/-- An output takes new settings, and rests at its IDLE level until something drives it. -/
def takeSettings (mode idle : Nat) (offs : Int) (fw : Nat) (o : MrkOut) : MrkOut :=
  mrkIdle { o with mode, idle, offs, fw, pend := none, pendRoots := [] }

/-- A root has passed a shot boundary or stopped: settings that waited for it, and for no other, come into force (R37). -/
def mrkPass (key : Nat) (ord : Option Nat) (s : State) : State :=
  { s with mark := { s.mark with outs := tmap {} (fun _ o =>
      match o.pend with
      | none => o
      | some (mode, idle, offs, fw) =>
        let l := passWaits key ord o.pendRoots
        if l = [] then takeSettings mode idle offs fw o else { o with pendRoots := l }) s.mark.outs } }

/-- The level of a marker output: of the edges named up to now, its IDLE level in Retention, none in Off, when it floats
(R324, R461). -/
def State.mrkLevel (s : State) (k : Nat) : Option Bool :=
  match s.edgeSt 5 with
  | .off => none
  | .on => some (tget {} (advanceMarks s.now s.mark).outs k).level
  | _ => some (decide ((tget {} s.mark.outs k).idle = 1))

/-- The level of SYNC_OUT: a copy of the output that SOSEL selects, low with 0xFF (R317) and in Retention (R461). -/
def State.syncOut (s : State) : Option Bool :=
  match s.edgeSt 5 with
  | .off => none
  | .on => if s.mark.sosel = 0xFF then some false else s.mrkLevel s.mark.sosel
  | _ => some false

/-- A FOLLOW request (R178, R318) of a segment for a root: its edge counts from a tick, 18 ns before the
ball. The pulse is high at that instant or not, whatever the present tick is. -/
def followRequest (k : Nat) (key : Option Nat) (tick : Nat) (s : State) : State :=
  if !s.isOn 5 || 32 ≤ k then s
  else
    let m := s.mark
    let o := tget {} m.outs k
    let fin := some (tick + o.fw * 16)
    if o.mode ≠ 2 then { s with mark := { m with ignored := m.ignored.bump } }
    else
      let high := match o.pulseEnd with | some t => decide (tick < t) | none => false
      if high then
        let fin := o.pulseEnd.map fun t => max t (tick + o.fw * 16)
        { s with mark := { m with outs := tset {} m.outs k { o with pulseEnd := fin }, merged := m.merged.bump } }
      else
        let (o, d) := match o.pulseEnd with | some t => followFall t o | none => (o, 0)
        let (o', n) := mrkEdge (4 * (tick : Int) + o.offs) true o
        let o' := if n = 0 then { o' with pulseEnd := fin, pulseRoot := key } else o'
        { s with mark := { m with outs := tset {} m.outs k o', drops := m.drops.add (d + n) } }

end Sys2Proof.Machine
end

