-- ==== Sys2Proof/Machine/Memory.lean ====
section
/-! DEFINITION. The package memory (R397, R429–R436): bytes, granules, regions. A byte that nothing
has written reads 0: the controllers write every granule with zero after training (R432). -/

namespace Sys2Proof.Machine

/-- One byte of the data space: where an engine has written, a free value. -/
def State.byteAt (s : State) (a : Nat) : Byte :=
  match s.mem.captured.find? fun e => decide (e.1 ≤ a) && decide (a < e.2.1) with
  | some (_, _, seed) => Config.freeByte (seed * 2 ^ 30 + a)
  | none => tget 0 s.mem.bytes a

/-- `n` bytes from an address on. -/
def State.bytesAt (s : State) : Nat → Nat → List Byte
  | _, 0 => []
  | a, n + 1 => s.byteAt a :: s.bytesAt (a + 1) n

/-- A little-endian number of `n` bytes. -/
def State.numAt (s : State) (a n : Nat) : Nat := unle (s.bytesAt a n)

/-- Take [a, b) out of the captured ranges. -/
def cutRange (a b : Nat) (l : List (Nat × Nat × Nat)) : List (Nat × Nat × Nat) :=
  l.flatMap fun e =>
    if e.2.1 ≤ a || b ≤ e.1 then [e]
    else (if e.1 < a then [(e.1, a, e.2.2)] else []) ++ (if b < e.2.1 then [(b, e.2.1, e.2.2)] else [])

/-- Write a run of bytes. -/
def putBytes (a : Nat) (bs : List Byte) (s : State) : State :=
  { s with mem := { s.mem with
      bytes := tsetRun 0 s.mem.bytes a bs, captured := cutRange a (a + bs.length) s.mem.captured } }

/-- Write whole granules: they read as correct again (R430). -/
def putWhole (a : Nat) (bs : List Byte) (s : State) : State :=
  let s := putBytes a bs s
  { s with mem := { s.mem with poison := s.mem.poison.filter fun g => !(decide (a ≤ 32 * g) && decide (32 * g + 32 ≤ a + bs.length)) } }

/-- An engine writes samples into [a, a + n): what stands there from now on is a free value. -/
def markCaptured (a n : Nat) (s : State) : State :=
  { s with
    free := s.free + 1
    mem := { s.mem with
      captured := (a, a + n, s.free) :: cutRange a (a + n) s.mem.captured
      poison := s.mem.poison.filter fun g => !(decide (a ≤ 32 * g) && decide (32 * g + 32 ≤ a + n)) } }

/-- The canonical form of the memory list, inside the data space. -/
def Memory.wf (m : List Host.Cell) : Bool := twf 0 m

/-- The bytes [a, a + n) lie in [lo, hi). -/
def inRegion (lo hi a n : Nat) : Bool := decide (lo ≤ a) && decide (a + n ≤ hi)

/-- The regions of R434. -/
def inProgram : Nat → Nat → Bool := inRegion 0 0x08000000
def inStaging : Nat → Nat → Bool := inRegion 0x08000000 0x10000000
def inProgStag : Nat → Nat → Bool := inRegion 0 0x10000000
def inRing : Nat → Nat → Bool := inRegion 0x10000000 0x18000000
def inCapture : Nat → Nat → Bool := inRegion 0x18000000 0x40000000

/-- A granule reads as uncorrectable (R430). -/
def State.bad (s : State) (g : Nat) : Bool := s.mem.poison.contains g

/-- The bad granules of a run of bytes. -/
def State.badIn (s : State) (a n : Nat) : List Nat :=
  s.mem.poison.filter fun g => decide (a < (g + 1) * 32) && decide (g * 32 < a + n)

def State.poisoned (s : State) (a n : Nat) : Bool := decide (s.badIn a n ≠ [])

/-- The address of the first bad granule of a run. -/
def State.firstBad (s : State) (a n : Nat) : Nat :=
  match s.badIn a n with
  | g :: _ => g * 32
  | [] => a

/-- An uncorrectable error is reported (R444). -/
def noteUe (addr : Nat) (s : State) : State :=
  setSum 9 { s with mem := { s.mem with
    uncorrectable := s.mem.uncorrectable.bump, lastUe := addr, ueSince := true } }

/-- The device holds the byte: the RING region always, a STREAMED image while it is loaded (R436). -/
def State.inStreamed (s : State) (a : Nat) : Bool :=
  s.burins.any fun e => e.2.loaded && e.2.streamed && decide (e.2.imgBase ≤ a)
    && decide (a < e.2.imgBase + 4 * e.2.imgLen)

/-- Write into one granule the bytes of a host write that fall into it: a partial write of a bad
granule leaves it bad; a whole write clears it (R430). -/
def writeGranule (g a : Nat) (bs : List Byte) (s : State) : State :=
  let lo := max a (g * 32)
  let hi := min (a + bs.length) ((g + 1) * 32)
  let part := (bs.drop (lo - a)).take (hi - lo)
  if s.bad g && decide (part.length < 32) then noteUe (g * 32) s
  else putBytes lo part { s with mem := { s.mem with poison := s.mem.poison.filter (· != g) } }

/-- The granules of a run of bytes. -/
def granules (a n : Nat) : List Nat :=
  if n = 0 then [] else (List.range ((a + n - 1) / 32 - a / 32 + 1)).map (a / 32 + ·)

end Sys2Proof.Machine
end

