-- ==== Sys2Proof/Machine/Tree.lean ====
section
/-! DEFINITION. Cell addresses, plates and roots (R22, R129–R149), and who owns what (R19). A root
of this device is named by its LOCAL field; the root of a SHADOW by 2^32 plus its cell address. -/

namespace Sys2Proof.Machine

/-! ### Cell addresses (R129) -/

def localOf (a : Nat) : Nat := a % 2 ^ 14
def deviceOf (a : Nat) : Nat := a / 2 ^ 14 % 2 ^ 14

/-- The address of a cell of this device. -/
def State.addr (s : State) (loc : Nat) : Nat := s.sys.devnum * 2 ^ 14 + loc

def State.isLocal (s : State) (a : Nat) : Bool := decide (deviceOf a = s.sys.devnum)

/-- R130: the LOCAL value is not reserved, [31:28] are 0 and some route reaches DEVICE. -/
def State.addrOk (s : State) (a : Nat) : Bool :=
  decide (a < 2 ^ 28)
    && (decide (localOf a < 0x400) || (decide (0x1000 ≤ localOf a) && decide (localOf a < 0x2000)))
    && (s.isLocal a || decide (tget 0xFF s.sys.routes (deviceOf a) ≠ 0xFF))

/-- A LOCAL field names a plate descriptor. -/
def isPlate (loc : Nat) : Bool := decide (0x1000 ≤ loc)

def State.plateOf (s : State) (loc : Nat) : Plate := s.plate (loc - 0x1000)

/-- R130: the address names a cell (a plate that is FREE, or a SHADOW, names none; R137). The state
of a plate of another device is for that device to check (R138). -/
def State.cellExists (s : State) (a : Nat) : Bool :=
  s.addrOk a &&
    (!s.isLocal a || !isPlate (localOf a)
      || decide ((s.plateOf (localOf a)).st = .open_) || decide ((s.plateOf (localOf a)).st = .sealed))

/-! ### Roots -/

/-- The key of a root of another device. -/
def remoteKey (a : Nat) : Nat := 2 ^ 32 + a

/-- The SHADOW descriptor held for a plate of another device. -/
def State.shadowOf (s : State) (a : Nat) : Option (Nat × Plate) :=
  s.plates.find? (fun e => decide (e.2.st = .shadow) && decide (e.2.cell = a))

/-- The ancestors of a cell of this device up to its root, its parent first. -/
def State.upFrom (s : State) : Nat → Nat → List Nat
  | 0, _ => []
  | n + 1, loc =>
    match (s.cell loc).parent with
    | none => []
    | some p =>
      p :: (if s.isLocal p then s.upFrom n (localOf p)
        else match s.shadowOf p with
          | some (_, sh) => sh.above.up
          | none => [])

def State.upChain (s : State) (loc : Nat) : List Nat := s.upFrom 4098 loc

/-- The key of a root address. -/
def State.keyOf (s : State) (a : Nat) : Nat := if s.isLocal a then localOf a else remoteKey a

/-- The key of the root of a cell of this device. -/
def State.rootOf (s : State) (loc : Nat) : Nat :=
  match (s.upChain loc).getLast? with
  | some r => s.keyOf r
  | none => loc

/-- The root above a SHADOW's plate, or that plate. -/
def Plate.rootAddr (sh : Plate) : Nat := sh.above.up.getLast?.getD sh.cell

/-- A SHADOW of a plate, or of one below it. -/
def State.shadowUnder (s : State) (a : Nat) : Option Plate :=
  (s.plates.find? fun e => decide (e.2.st = .shadow) && (e.2.cell == a || e.2.above.up.contains a)).map Prod.snd

/-- The key of the root of a cell address: for a plate of another device, the root that its SHADOW names. -/
def State.rootKey (s : State) (a : Nat) : Nat :=
  if s.isLocal a then s.rootOf (localOf a)
  else match s.shadowUnder a with
    | some sh => s.keyOf sh.rootAddr
    | none => remoteKey a

/-- The key of the root that a cell reference names: for a SHADOW, the root above it. -/
def State.refKey (s : State) : CellRef → Nat
  | .burin b => b.val
  | .plate n =>
    if (s.plate n.val).st = .shadow then s.keyOf (s.plate n.val).rootAddr else 0x1000 + n.val

/-- The cell address of a root. -/
def State.rootAddr (s : State) (key : Nat) : Nat :=
  if 2 ^ 32 ≤ key then key - 2 ^ 32 else s.addr key

/-- Burins of this device in the tree below a cell of this device, through plates of this device, member order. -/
def State.treeBurins (s : State) : Nat → Nat → List Nat
  | 0, _ => []
  | n + 1, a =>
    if s.isLocal a then
      if isPlate (localOf a) then (s.plateOf (localOf a)).members.flatMap (s.treeBurins n)
      else [localOf a]
    else []

/-- Burins of this device below a cell, those below its member plates of other devices too. -/
def State.burinsOf (s : State) (a : Nat) : List Nat :=
  s.treeBurins 4098 a ++ s.plates.flatMap fun e =>
    if e.2.st = .shadow && (e.2.cell == a || e.2.above.up.contains a) then
      e.2.members.flatMap (s.treeBurins 4098) else []

/-- Burins of this device below a root. -/
def State.rootBurins (s : State) (key : Nat) : List Nat := s.burinsOf (s.rootAddr key)

/-- What the tree below a cell holds (R132), its own device included: of a member plate of another device, what that
device says. -/
def State.treeInfo (s : State) : Nat → Nat → TreeInfo
  | 0, _ => {}
  | n + 1, a =>
    if s.isLocal a && isPlate (localOf a) then
      let p := s.plateOf (localOf a)
      let l := p.members.map fun m =>
        if s.isLocal m || !isPlate (localOf m) then s.treeInfo n m
        else match p.far.find? fun e => e.1 == m with
          | some (_, t) => t
          | none => { devs := [deviceOf m] }
      { burins := (l.map TreeInfo.burins).sum
        depth := (l.map fun t => if t.burins = 0 then 0 else t.depth + 1).foldl Nat.max 0
        devs := (s.sys.devnum :: l.flatMap TreeInfo.devs).dedup }
    else { burins := 1, devs := [deviceOf a] }

/-- The tree below a cell of this device. -/
def State.tree (s : State) (a : Nat) : TreeInfo := s.treeInfo 4098 a

/-- The devices of a root as this one knows them: of its own tree, or as its home device says (R132, R145). -/
def State.rootDevs (s : State) (key : Nat) : List Nat :=
  if 2 ^ 32 ≤ key then
    match s.shadowUnder (key - 2 ^ 32) with
    | some sh => (deviceOf (key - 2 ^ 32) :: sh.above.devs).dedup
    | none => [deviceOf (key - 2 ^ 32)]
  else (s.tree (s.addr key)).devs

/-- The other devices of a root (R145). -/
def State.remoteDevs (s : State) (key : Nat) : List Nat := (s.rootDevs key).filter (· != s.sys.devnum)

/-- The other devices that a command on a cell of this device concerns (R138). -/
def State.cellDevs (s : State) (a : Nat) : List Nat := (s.tree a).devs.filter (· != s.sys.devnum)

/-- The root spans devices. -/
def State.spans (s : State) (key : Nat) : Bool := decide (s.remoteDevs key ≠ [])

/-- A root is running. -/
def State.running (s : State) (key : Nat) : Bool := (s.root key).running

/-- A root is stopping (R142). -/
def State.stopping (s : State) (key : Nat) : Bool :=
  (s.root key).running && (s.root key).stopAt.isSome

/-- A cell is in a running root, or under a proof run that covers one of its burins (R32, R528). -/
def State.proofCovers (s : State) (b : Nat) : Bool :=
  s.proofs.any (fun e => e.2.active &&
    (if e.2.kind = 0 then decide (e.2.domain = folioDom b) else (s.burinsOf e.2.cell).contains b))

/-- A proof run covers a domain (R527): a domain run its own; a cell run the folios of its burins. -/
def State.proofCoversDom (s : State) (d : Nat) : Bool :=
  s.proofs.any (fun e => e.2.active &&
    (if e.2.kind = 0 then decide (e.2.domain = d)
     else (s.burinsOf e.2.cell).any (fun b => decide (folioDom b = d))))

/-- A domain run is in progress on a domain (R528). -/
def State.testing (s : State) (d : Nat) : Bool :=
  s.proofs.any fun e => e.2.active && e.2.kind == 0 && e.2.domain == d

/-- The root that a command names has its fault latch set (R516). -/
def State.faulted (s : State) (key : Nat) : Bool := decide ((s.fault key).codes ≠ [])

/-- A root runs with the start lead of its own cell address (R23, R141), in ticks. -/
def State.lead (s : State) (key : Nat) : Nat := (s.cell key).startLead * 20

/-! ### Owners -/

/-- Who owns a resource number: the burin. -/
def State.owner (s : State) (res : Nat) : Option Nat :=
  if res < 0x3000 then (s.queue res).owner else (s.acqPort (res - 0x3000)).stipOwner

/-- Resources a burin owns, by slot order. -/
def State.owned (s : State) (b : Nat) : List Nat :=
  (s.burin b).slots.filterMap (fun e => match e.2 with | .owned r => some r | _ => none)

/-- Resources owned below a root. -/
def State.rootRes (s : State) (key : Nat) : List Nat := (s.rootBurins key).flatMap s.owned

/-- Resources owned below a cell. -/
def State.cellRes (s : State) (a : Nat) : List Nat := (s.burinsOf a).flatMap s.owned

/-- The root of the owner of a resource. -/
def State.resRoot (s : State) (res : Nat) : Option Nat := (s.owner res).map s.rootOf

/-- Roots that own tones of a port. -/
def State.portRoots (s : State) (p : Nat) : List Nat := (portTones p).filterMap s.resRoot

/-- The slot in which a burin holds a resource. -/
def State.slotOf (s : State) (b res : Nat) : Option Nat :=
  ((s.burin b).slots.find? (fun e => decide (e.2 = .owned res))).map Prod.fst

/-- Domains that a burin and what it owns need On. -/
def State.burinDoms (s : State) (b : Nat) : List Nat := folioDom b :: (s.owned b).flatMap resDoms

/-- A proof run covers a burin or a domain that it needs (R528). -/
def State.proofHolds (s : State) (b : Nat) : Bool := s.proofCovers b || (s.burinDoms b).any s.testing

/-- A cell lies in a part of another device's command that is accepted and not yet applied (R138). -/
def State.promised (s : State) (a : Nat) : Bool := s.promises.any fun p => p.cells.contains a

/-- A cell is in use for R32. -/
def State.cellInUse (s : State) (a : Nat) : Bool :=
  s.running (s.rootKey a) || (s.burinsOf a).any s.proofHolds || s.promised a || (s.burinsOf a).any fun b => s.promised (s.addr b)

/-- A burin belongs to a configured cell: it is loaded or holds a resource (R28, R438). -/
def State.configured (s : State) (b : Nat) : Bool :=
  (s.burin b).loaded || decide ((s.burin b).slots ≠ [])

/-- Local roots and remote roots that are running. -/
def State.runningRoots (s : State) : List Nat :=
  (s.roots.filter (fun e => e.2.running)).map Prod.fst

/-! ### Sending frames (R373–R379) -/

/-- The active port toward a device (R545). -/
def State.route (s : State) (dev : Nat) : Option Nat :=
  let p := tget 0xFF s.sys.routes dev
  if p < 8 && decide ((s.jport p).st = .active) then some p else none

/-- A device is reached: its port is up, and no link further on is known to be down (R148). -/
def State.reaches (s : State) (dev : Nat) : Bool := (s.route dev).isSome && !s.sys.cutDevs.contains dev

/-- Retry class of a virtual lane: VL 0 and 1 are class P, 2 and 3 class Q (R377). -/
def Jvl.retry (j : Jvl) (vl : Nat) : Retry := if vl < 2 then j.p else j.q
def Jvl.setRetry (j : Jvl) (vl : Nat) (r : Retry) : Jvl := if vl < 2 then { j with p := r } else { j with q := r }

/-- A frame goes out: it takes a credit, a sequence number of its class and a place in the replay buffer. -/
def Jvl.launch (j : Jvl) (f : TxFrame) : Jvl :=
  let r := j.retry f.vl
  let j := { j with credits := tset 0 j.credits f.vl (tget 0 j.credits f.vl - 1) }
  j.setRetry f.vl { r with txSeq := (r.txSeq + 1) % 4096, unacked := r.unacked ++ [f], tried := r.tried ++ [0] }

/-- A frame joins those that a port which is up has to send; the transmitter takes it once it holds a credit (R374). -/
def sendFrame (p vl : Nat) (body : FrameBody) (s : State) : State :=
  if (s.jport p).st = .active then s.modJport p fun j => { j with txq := j.txq ++ [TxFrame.mk vl body] } else s

/-- Send a frame toward a device; with no route it is discarded (R545). -/
def sendTo (dev vl : Nat) (body : FrameBody) (s : State) : State :=
  match s.route dev with
  | some p => sendFrame p vl body s
  | none => s

/-- Send a CONTROL frame to a device (R137, R138). -/
def tell (dev : Nat) (m : ControlMsg) (s : State) : State := sendTo dev 2 (.control s.sys.devnum { dest := dev, msg := m }) s

/-! ### What devices tell each other of trees (R132, R137, R140, R145) -/

/-- What stands above the direct members of a plate of this device. -/
def State.aboveOf (s : State) (loc : Nat) : RootInfo :=
  let key := s.rootOf loc
  { up := s.upChain loc, lead := (s.cell key).startLead, ring := (s.cell key).recring, devs := s.rootDevs key
    tree := s.tree (s.addr loc) }

/-- The other devices of the direct members of a plate. -/
def State.memberDevs (s : State) (members : List Nat) : List Nat :=
  ((members.map deviceOf).filter (· != s.sys.devnum)).dedup

/-- A plate of this device tells the device of its parent what stands below it, and the devices of its members what
stands above them, where that has changed. -/
def announcePlate (n : Nat) (s : State) : State :=
  let p := s.plate n
  if p.st = .free || p.st = .shadow then s
  else
    let a := s.addr (0x1000 + n)
    let t := s.tree a
    let s := match (s.cell (0x1000 + n)).parent with
      | some q =>
        if s.isLocal q || p.toldUp = some t then s
        else tell (deviceOf q) (.treeIs a t) (s.modPlate n fun p => { p with toldUp := some t })
      | none => if p.toldUp.isSome then s.modPlate n fun p => { p with toldUp := none } else s
    let devs := s.memberDevs p.members
    let r := s.aboveOf (0x1000 + n)
    if devs = [] then (if p.toldDown.isSome then s.modPlate n fun p => { p with toldDown := none } else s)
    else if p.toldDown = some (r, devs) then s
    else each (fun d s => tell d (.rootIs a r) s) devs (s.modPlate n fun p => { p with toldDown := some (r, devs) })

/-- Every plate of this device does so. -/
def announce (s : State) : State := each announcePlate (tkeys s.plates) s

end Sys2Proof.Machine
end

