-- ==== Sys2Proof/Machine/Streams.lean ====
section
/-! DEFINITION. Record rings (R437–R443) and the record streams of roots (R252–R256). -/

namespace Sys2Proof.Machine

/-! ### Rings -/

/-- PAD slots that a record of `n` slots needs before it at a slot offset (R439). -/
def padSlots (off n : Nat) : Nat := if n = 8 then (8 - off % 8) % 8 else 0

/-- The device part of a ring takes a record now. -/
def State.ringFits (s : State) (k : Nat) (bytes : List Byte) : Bool :=
  let r := s.ring k
  let n := bytes.length / 32
  s.isOn 4 && r.dev && decide (r.used + padSlots r.woff n + n ≤ r.dlen / 32)

/-- A PAD record. -/
def padRec : List Byte := le 2 0x0070 ++ pad 30

/-- Write a record into the device part of a ring, PADs first (R439); none where no slot is free or
the device part is not enabled. -/
def ringPut (k : Nat) (bytes : List Byte) (tag : Option (Nat × Nat)) (s : State) : Option State :=
  if s.ringFits k bytes then
    let r := s.ring k
    let n := bytes.length / 32
    let pads := padSlots r.woff n
    let s := putWhole (r.dbase + 32 * r.woff) ((List.replicate pads padRec).flatten ++ bytes) s
    some (s.setRing k { r with
      recs := r.recs ++ [{ bytes, pads, tag }]
      used := r.used + pads + n
      woff := (r.woff + pads + n) % (r.dlen / 32) })
  else none

/-! ### Record streams -/

/-- The ring of a root's stream (R252). -/
def State.streamRing (s : State) (key : Nat) : Nat := (s.cell key).recring

/-- Put a sequence number into bytes 4 and 5 of a record. -/
def withSeq (bytes : List Byte) (seq : Nat) : List Byte := bytes.take 4 ++ le 2 seq ++ bytes.drop 6

/-- A gap record (R254), its seq still 0. -/
def gapRec (reason : Nat) (part : Bool) (first count root dropped : Nat) : List Byte :=
  le 2 0x0032 ++ le 1 reason ++ le 1 (bit part 0) ++ le 2 0 ++ le 2 0 ++ le 8 first ++ le 8 count
    ++ le 4 root ++ le 4 dropped

/-- Is a record a gap record? -/
def isGap (bytes : List Byte) : Bool := unle (bytes.take 2) == 0x0032

/-- One more record of a shot is dropped: the first and the last shot so far are kept (R254, R256). -/
def RootRun.dropRec (r : RootRun) (shot : Nat) : RootRun :=
  { r with
    dropShot := if r.dropped = 0 then shot else Nat.min r.dropShot shot
    dropLast := if r.dropped = 0 then shot else Nat.max r.dropLast shot
    dropped := r.dropped + 1 }

/-- Write a record of a stream into its ring, or enter drop state (R256). -/
def streamWrite (key shot : Nat) (bytes : List Byte) (s : State) : State :=
  let r := s.root key
  if r.drop then
    if isGap bytes then s.setRoot key { r with gaps := r.gaps ++ [bytes] }
    else s.setRoot key (r.dropRec shot)
  else match ringPut (s.streamRing key) (withSeq bytes r.seq) (some (key, shot)) s with
    | some s' => s'.modRoot key fun r => { r with seq := (r.seq + 1) % 65536, lastRec := some shot }
    | none =>
      if isGap bytes then s.setRoot key { r with drop := true, gaps := [bytes] }
      else s.setRoot key ({ r with drop := true, dropped := 0 }.dropRec shot)

/-- Some shot before `shot` has still to end on this device: a burin of the root runs it, holds its
start event, or the shot is still to start (R255). -/
def State.shotOpen (s : State) (key shot : Nat) : Bool :=
  (s.rootBurins key).any (fun b =>
    ((s.burin b).running && decide ((s.burin b).shot < shot))
      || (s.burin b).held.any (fun h => decide (h.shot < shot)))
  || (s.root key).series.any (fun r => (r.numbered || r.fresh) && decide (r.next < shot))

/-- Write the records that wait for no earlier shot any more, in order. -/
def flushHeld (key : Nat) : Nat → State → State
  | 0, s => s
  | n + 1, s =>
    match (s.root key).heldRecs with
    | [] => s
    | (shot, bytes) :: rest =>
      if s.shotOpen key shot then s
      else flushHeld key n (streamWrite key shot bytes (s.modRoot key fun r => { r with heldRecs := rest }))

/-- Flush whatever may be flushed of a stream. -/
def flush (key : Nat) (s : State) : State := flushHeld key (s.root key).heldRecs.length s

/-- Insert in shot order, after what is there of the same shot. -/
def insertRec (shot : Nat) (bytes : List Byte) : List (Nat × List Byte) → List (Nat × List Byte)
  | [] => [(shot, bytes)]
  | (k, b) :: l => if shot < k then (shot, bytes) :: (k, b) :: l else (k, b) :: insertRec shot bytes l

/-- Post a record of a shot (R255); in drop state a REC is dropped at once, and counted (R256). -/
def post (key shot : Nat) (bytes : List Byte) (s : State) : State :=
  if (s.root key).drop && !isGap bytes then s.modRoot key fun r => r.dropRec shot
  else flush key (s.modRoot key fun r => { r with heldRecs := insertRec shot bytes r.heldRecs })

/-- Records of a shot stand in the stream or wait for it. -/
def State.hasRecs (s : State) (key shot : Nat) : Bool :=
  decide ((s.root key).lastRec = some shot) || (s.root key).heldRecs.any (fun e => e.1 == shot)

/-- Post a gap record for `count` shots from `first` on (R254); a root with no burin here has no stream here (R252). -/
def postGap (key reason first count : Nat) (s : State) : State :=
  if count = 0 || decide (s.rootBurins key = []) then s
  else post key first (gapRec reason (s.hasRecs key first) first count (s.rootAddr key) 0) s

/-- Numbered shots of a root that have not started: the first and how many (R22, R24). -/
def State.unstarted (s : State) (key : Nat) : Nat × Nat :=
  let l := (s.root key).series.filterMap (fun r => if r.fresh then some (r.next, 1) else if r.numbered then r.left.map (fun n => (r.next, n)) else none)
  match l with
  | [] => (0xFFFFFFFFFFFFFFFF, 0)
  | (f, n) :: rest => (f, rest.foldl (fun a e => a + e.2) n)

/-- Cancel every shot of a root that has not started, with a CANCELLED gap (R24). -/
def cancelUnstarted (key : Nat) (s : State) : State :=
  let u := s.unstarted key
  postGap key 1 u.1 u.2 (s.modRoot key fun r => { r with series := [] })

/-- Shots of a root that have started and that some burin of this device has not ended. -/
def State.unfinished (s : State) (key : Nat) : List Nat :=
  (s.rootBurins key).flatMap (fun b =>
    (if (s.burin b).running then [(s.burin b).shot] else []) ++ (s.burin b).held.map HeldStart.shot)

/-! ### Read-out streams (R232, R233) -/

/-- A timestamp field from an instant of TAI in units of 2^-32 tick (R13). -/
def stampFine (x : Int) : List Byte :=
  let q := ((x + 655360) / 1310720).toNat
  le 8 (q / (65536 * 1000000000)) ++ le 4 (q / 65536 % 1000000000) ++ le 2 (q % 65536) ++ pad 2

/-- The settings key of a stream's source: its read-out tone, or its stipple port at 0x100 + nn. -/
def srcKey (src : Nat) : Nat := if src / 128 % 2 = 1 then 0x100 + src / 256 else src / 256 * 16 + src % 128

/-- One complex sample as a word (R72). -/
def cword (i q : Int) : Nat := low 16 i + low 16 q * 65536

/-- The block in progress of a source (R232). -/
def State.blockBytes (s : State) (src : Nat) : List Byte :=
  let t := s.stream src
  let set := (s.rot (srcKey src)).set
  let time := match t.t0 with
    | some (tick, frac) => stampFine (s.taiOf tick * 4294967296 + frac)
    | none => pad 16
  le 2 0x0021 ++ le 2 src ++ le 2 t.seq ++ le 1 t.samples.length
    ++ le 1 (t.flags ||| bit t.loss 5) ++ time ++ le 4 set.step ++ le 2 set.mad ++ pad 2
    ++ t.samples.flatMap (fun x => le 4 (cword x.1 x.2)) ++ pad (4 * (56 - t.samples.length))

/-- Close the block in progress: write it, or drop it where no slot is free (R233, R442). -/
def closeBlock (src : Nat) (s : State) : State :=
  let t := s.stream src
  if t.samples = [] then s
  else
    let next (loss : Bool) (t : Stream) : Stream :=
      { t with samples := [], t0 := none, flags := 0, seq := (t.seq + 1) % 65536, loss }
    match ringPut t.ring (s.blockBytes src) none s with
    | some s' => s'.modStream src (next false)
    | none => s.modStream src (next true)

/-- STREAM_CLOSE of a source (R233). -/
def closeStream (src : Nat) (s : State) : State :=
  (closeBlock src s).modStream src fun t => { t with open_ := false, samples := [], t0 := none, flags := 0 }

end Sys2Proof.Machine
end

