-- ==== Sys2Proof/Machine/Hatch.lean ====
section
/-! DEFINITION. The Hatch network's shared operations (R264–R287): endpoints, injection points, gates,
flags, arrivals and credits. The flag of a trigger consumer lives in its channel and nowhere else. -/

namespace Sys2Proof.Machine

/-! ### Endpoints (R268, R269) -/

def epSub (e : Nat) : Nat := e % 16
def epUnit (e : Nat) : Nat := bits e 4 10
def epDev (e : Nat) : Nat := bits e 14 14
def epClass (e : Nat) : Nat := bits e 28 4

/-- An endpoint of this device. -/
def State.ep (s : State) (cls unit sub : Nat) : Nat :=
  sub + unit * 2 ^ 4 + s.sys.devnum * 2 ^ 14 + cls * 2 ^ 28

/-- Number of units and of subs of a class (R269). -/
def epUnits : Nat → Nat
  | 0 | 1 | 2 | 3 => 1024
  | 4 => 768
  | 5 => 512
  | 6 => 32
  | 7 => 8
  | 8 => 16
  | 9 => 64
  | 10 | 12 => 1
  | 11 => 8
  | _ => 0

def epSubs : Nat → Nat
  | 0 | 1 => 8
  | 2 | 3 => 4
  | 5 | 7 => 2
  | 8 => 3
  | _ => 1

/-- May the endpoint be a producer? -/
def epProduces (e : Nat) : Bool :=
  let c := epClass e
  c == 0 || c == 2 || c == 4 || c == 6 || c == 7 || c == 9 || c == 10 || c == 11 || (c == 8 && epSub e == 0)

/-- May the endpoint be a consumer? -/
def epConsumes (e : Nat) : Bool :=
  let c := epClass e
  c == 1 || c == 3 || c == 5 || c == 11 || c == 12 || (c == 8 && epSub e != 0)

/-- Does the endpoint suit a kind: 1 trigger, 2 data? -/
def epSuits (e kind : Nat) : Bool :=
  let c := epClass e
  if c = 12 then true
  else if c = 2 || c = 3 || c = 11 then kind == 2 else kind == 1

/-- The endpoint address names something. -/
def epExists (e : Nat) : Bool :=
  decide (e < 2 ^ 32) && decide (epUnit e < epUnits (epClass e)) && decide (epSub e < epSubs (epClass e))

/-! ### Channels -/

/-- The bound channel that has a producer. -/
def State.chanOfProd (s : State) (e : Nat) : Option Nat :=
  (s.chans.find? fun c => c.2.bound && c.2.prods.contains e).map Prod.fst

/-- The bound channel that has a consumer. -/
def State.chanOfCons (s : State) (e : Nat) : Option Nat :=
  (s.chans.find? fun c => c.2.bound && c.2.cons.contains e).map Prod.fst

/-- A channel disabled by a storm or an overflow (R285). -/
def Channel.disabled (c : Channel) : Bool := c.stormFlag || c.ovfFlag

/-- A SOFT consumer hangs on the channel. -/
def Channel.soft (c : Channel) : Bool := c.cons.any fun e => epClass e == 12

/-- The consumer of a data channel lies on another device, or is a link. -/
def State.consFar (s : State) (c : Channel) : Bool :=
  c.cons.any fun e => decide (epDev e ≠ s.sys.devnum) || epClass e == 11

/-- The producer of a data channel lies on another device, or is a link. -/
def State.prodFar (s : State) (c : Channel) : Bool :=
  c.prods.any fun e => decide (epDev e ≠ s.sys.devnum) || epClass e == 11

/-- The channel spans devices (R266). -/
def State.chanSpans (s : State) (c : Channel) : Bool :=
  (c.prods ++ c.cons).any fun e => decide (epDev e ≠ s.sys.devnum)

/-- Is the gate of a channel open (R280)? -/
def State.gateOpen (s : State) (c : Channel) : Bool :=
  let level :=
    if c.gsrc = 0 then true
    else if c.gsrc = 1 then s.gates.getLsbD c.gidx
    else if c.gsrc = 2 then tget false s.sys.trigPins c.gidx
    else if c.gsrc = 3 then (tget {} (advanceMarks s.now s.mark).outs c.gidx).level
    else (tget {} s.time.windows c.gidx).high
  level != c.ginv

/-! ### Producers -/

/-- An event or payload enters an injection point (R283). -/
def inject (ch i : Nat) (pay : BitVec 64) (s : State) : State :=
  let c := s.chan ch
  let j := tget {} c.inj i
  let spaced := match j.last with | none => true | some t => decide (t + c.rs * word ≤ s.now)
  if spaced && !j.heldEv && decide (j.heldPay = []) then
    s.setChan ch { c with inj := tset {} c.inj i { j with last := some s.now }, toGate := c.toGate ++ [pay] }
  else
    let j := if c.kind = 1 then { j with heldEv := true } else { j with heldPay := j.heldPay ++ [pay] }
    (s.setChan ch { c with inj := tset {} c.inj i j }).modChCtr ch fun k => { k with spaced := k.spaced.bump }

/-- Raise an event on a trigger producer; an endpoint with no channel discards it (R90, R177). -/
def raiseEp (e : Nat) (s : State) : State :=
  match s.chanOfProd e with
  | some ch => inject ch ((s.chan ch).prods.findIdx (· == e)) 0 s
  | none => s

/-- One credit of a data channel is spent, or `n` come back: a producer never holds more than four (R276). -/
def Channel.spend (c : Channel) : Channel := { c with credits := c.credits - 1 }
def Channel.regain (c : Channel) (n : Nat) : Channel := { c with credits := Nat.min 4 (c.credits + n) }

/-- Send a payload from a data producer (R276): on a disabled channel it is discarded and its credit
returns at once (R285). -/
def sendEp (e : Nat) (pay : BitVec 64) (s : State) : State :=
  match s.chanOfProd e with
  | some ch =>
    if (s.chan ch).disabled then s.modChCtr ch fun k => { k with discarded := k.discarded.bump }
    else inject ch 0 pay (s.modChan ch Channel.spend)
  | none => s

/-! ### Consumers -/

/-- The index of a consumer in its channel. -/
def Channel.consIdx (c : Channel) (e : Nat) : Nat := c.cons.findIdx (· == e)

/-- The latched flag of a trigger consumer; an unrouted input is never latched (R90). -/
def State.flagged (s : State) (e : Nat) : Bool :=
  match s.chanOfCons e with
  | some ch => (tget {} (s.chan ch).con ((s.chan ch).consIdx e)).flag
  | none => false

/-- The tick at which the flag of a trigger consumer was latched. -/
def State.latchTick (s : State) (e : Nat) : Option Nat :=
  match s.chanOfCons e with
  | some ch =>
    let k := tget {} (s.chan ch).con ((s.chan ch).consIdx e)
    if k.flag then some k.latched else none
  | none => none

/-- Consume the flag of a trigger consumer. -/
def consume (e : Nat) (s : State) : State :=
  match s.chanOfCons e with
  | some ch => s.modChan ch fun c =>
      let i := c.consIdx e
      { c with con := tset {} c.con i { tget {} c.con i with flag := false } }
  | none => s

/-- A DECISION frame toward an endpoint (R381, R382): to the device where it lies, or over the link that it is. -/
def sendHatch (e : Nat) (body : Nat → FrameBody) (s : State) : State :=
  if epDev e = s.sys.devnum then sendFrame (epUnit e) 0 (body (s.jport (epUnit e)).peerDev) s
  else sendTo (epDev e) 0 (body (epDev e)) s

/-- `n` HATCH_CREDIT frames toward a channel's producer on another device or beyond a link (R381). -/
def creditFrames (ch n : Nat) (s : State) : State :=
  match (s.chan ch).prods with
  | e :: _ => times (sendHatch e fun d => .hatchCredit d ch) n s
  | [] => s

/-- `n` credits of a data channel go back to its producer: on this device within the credit window
(R279), to another device or a link as HATCH_CREDIT frames (R381), whose credits this device counts back as it sends them. -/
def returnCredits (ch n : Nat) (s : State) : State :=
  let c := s.chan ch
  if s.prodFar c then creditFrames ch n (s.setChan ch (c.regain n))
  else s.setChan ch { c with credFlight := c.credFlight + n }

/-- The arrivals queued at a data consumer. -/
def State.arrivals (s : State) (e : Nat) : List (BitVec 64) :=
  match s.chanOfCons e with
  | some ch => (tget {} (s.chan ch).con 0).arrivals
  | none => []

/-- Take the oldest arrival of a data consumer: its credit returns (R276). -/
def takeArrival (e : Nat) (s : State) : State :=
  match s.chanOfCons e with
  | some ch =>
    returnCredits ch 1 (s.modChan ch fun c =>
      let k := tget {} c.con 0
      { c with con := tset {} c.con 0 { k with arrivals := k.arrivals.tail, times := k.times.tail } })
  | none => s

/-- Clear every consumer that satisfies a test, on channels with FLUSH 1 or on every channel: flags,
and arrivals, whose credits return; flushed counts them (R275, R286). -/
def flushEnds (ends : Nat → Bool) (force : Bool) (s : State) : State :=
  each (fun ch s =>
    let c := s.chan ch
    if c.bound && (force || c.flush) then
      let idx := (List.range c.cons.length).filter fun i => ends (c.cons.getD i 0)
      let flags := (idx.filter fun i => (tget {} c.con i).flag).length
      let back := (idx.map fun i => (tget {} c.con i).arrivals.length).sum
      let con := idx.foldl (fun m i => tset {} m i {}) c.con
      returnCredits ch back ((s.setChan ch { c with con }).modChCtr ch fun k =>
        { k with flushed := k.flushed.add (flags + back) })
    else s) (tkeys s.chans) s

/-- A consumer that is a slot of a burin of this device. -/
def State.burinEnd (s : State) (b e : Nat) : Bool :=
  (epClass e == 1 || epClass e == 3) && epUnit e == b && epDev e == s.sys.devnum

/-- The RSEG or RJMP unit of a resource number (R269). -/
def resUnit (res : Nat) : Nat :=
  if res < 0x1000 then res else if res < 0x2000 then 256 + (res - 0x1000) else 512 + (res - 0x2000)

/-- The resource number of an RSEG or RJMP unit. -/
def unitRes (u : Nat) : Nat := if u < 256 then u else if u < 512 then 0x1000 + (u - 256) else 0x2000 + (u - 512)

/-- A consumer that is a slot of a burin or a jump trigger of one of its tones (R275). -/
def State.ownEnd (s : State) (b e : Nat) : Bool :=
  s.burinEnd b e || (epClass e == 5 && s.owner (unitRes (epUnit e)) == some b)

/-- A channel watched or with a SOFT consumer latches its watch flag, and tells the host (R282, R396). -/
def watch (ch : Nat) (s : State) : State :=
  let c := s.chan ch
  if c.watch || (c.kind == 1 && c.soft) then raiseWatch (s.setChan ch { c with watched := true }) else s

end Sys2Proof.Machine
end

