-- ==== Sys2Proof/Machine/Output.lean ====
section
/-! DEFINITION. Outputs: ending plays, discarding entries, swapping banks, loading a ladder, muting,
and the safe levels of a root and of the device (R37, R55, R169, R180, R181, R201, R323, R349). -/

namespace Sys2Proof.Machine

/-! ### Plays and banks -/

/-- A port's old bank has drained once no play of its tones uses it (R169). -/
def drainPort (p : Nat) (s : State) : State :=
  let busy := (portTones p).any fun t => match (s.tone t).play with
    | some pl => decide (pl.bank ≠ (s.port p).banks.inPlay)
    | none => false
  if (s.port p).banks.draining && !busy then
    s.modPort p fun q => { q with banks := { q.banks with draining := false } }
  else s

/-- End any play of a tone; a pending request is discarded and counted (R176). -/
def endPlay (t : Nat) (s : State) : State :=
  let tn := s.tone t
  let s := if tn.pend.isSome then s.modPort (tonePort t) fun q => { q with unused := q.unused.bump } else s
  drainPort (tonePort t) (s.setTone t { tn with play := none, pend := none, env := [] })

/-- The idle bank of a port comes into play, and the old one drains while a play uses it (R169). -/
def swapPort (p : Nat) (s : State) : State :=
  let s := s.modPort p fun q =>
    { q with banks := { q.banks with inPlay := 1 - q.banks.inPlay, swap := none, draining := true } }
  drainPort p s

/-- Channels of a Z quadrant. -/
def quadChans (q : Nat) : List Nat := (List.range 64).map (q * 64 + ·)

/-- As `drainPort`, for a quadrant's fast pulse banks (R196). -/
def drainZ (q : Nat) (s : State) : State :=
  let busy := s.zch.any fun e => decide (e.1 / 64 = q) && match e.2.fast with
    | some f => !f.held && decide (f.bank ≠ (s.zbank q).inPlay)
    | none => false
  if (s.zbank q).draining && !busy then s.modZbank q fun b => { b with draining := false } else s

def swapZ (q : Nat) (s : State) : State :=
  drainZ q (s.modZbank q fun b => { b with inPlay := 1 - b.inPlay, swap := none, draining := true })

/-- Sample n of a fast pulse bank: two per word, the earlier in [15:0] (R196). -/
def Bank.pulse (b : Bank) (n : Nat) : Int := sgn 16 (bits (tget 0 b.samples (n / 2)).toNat (n % 2 * 16) 16)

/-- The code of a fast sample, and whether it saturates in one of its two narrowings (R195). -/
def pulseCode (x amp : Int) : Int × Bool :=
  let (z, a) := narrow (x * amp) 15 (-32768) 32767
  let (c, b) := narrow z 2 (-8192) 8191
  (c, a || b)

/-- Sample n of a fast play. -/
def State.fastSample (s : State) (z : Nat) (f : Fast) (n : Nat) : Int × Bool :=
  let b := if f.bank = 0 then (s.zbank (z / 64)).b0 else (s.zbank (z / 64)).b1
  pulseCode (b.pulse ((tget {} b.segs f.seg).start + n)) (sgn 16 f.amp)

/-- The last tick at which a fast play or its held sample can be in force, if it ends of itself (R195). -/
def Fast.fin (f : Fast) : Option Nat := if f.hold then none else some (f.rel + 16 * f.len)

/-- End a fast play or a held sample at a tick (R192, R195). -/
def endFastAt (z tick : Nat) (s : State) : State :=
  drainZ (z / 64) (s.modZ z fun c =>
    { c with
      fast := none
      fastEnd := match c.fast with
        | some f => some (match f.fin with | some t => Nat.min t tick | none => tick)
        | none => c.fastEnd })

/-- End it now. -/
def endFast (z : Nat) (s : State) : State := endFastAt z s.now s

/-- The FIR bank of a read-out tone or stipple port swaps: the first output after it carries the swap
(R225). Read-out tone i has key i, stipple port nn has key 0x100 + nn. -/
def swapFir (i : Nat) (s : State) : State :=
  let s := s.modRot i fun r =>
    { r with firUse := 1 - r.firUse, firSwap := none, firAt := s.now, chain := { r.chain with swapMark := true } }
  let nn := if i < 0x100 then i / 16 else i - 0x100
  let s := if i < 0x100 then s else
    { s with stipChains := tmap {} (fun j c => if j / 128 = nn then { c with swapMark := true } else c) s.stipChains }
  s.modAcqPort nn fun a => { a with swaps := a.swaps.bump }

/-- The kernel bank of a read-out tone swaps: every window whose P0 lies at or after the swap tick
uses the new bank (R249). -/
def swapKernel (i : Nat) (s : State) : State :=
  let s := s.modRot i fun r =>
    { r with
      kerUse := 1 - r.kerUse, kerSwap := none
      wins := r.wins.map fun w => if s.now ≤ w.p0 then { w with bank := 1 - r.kerUse } else w }
  s.modAcqPort (i / 16) fun a => { a with swaps := a.swaps.bump }

/-- Swaps that satisfy a test: perform each (R169, R196, R225, R249). -/
def swapWhere (p : Swap → Bool) (s : State) : State :=
  let hit (o : Option Swap) : Bool := match o with | some w => p w | none => false
  let s := each swapPort (tkeys (s.ports.filter fun e => hit e.2.banks.swap)) s
  let s := each swapZ (tkeys (s.zbanks.filter fun e => hit e.2.swap)) s
  let s := each swapFir (tkeys (s.ro.filter fun e => hit e.2.firSwap)) s
  each swapKernel (tkeys (s.ro.filter fun e => hit e.2.kerSwap)) s

/-- The root stops at this moment: its armed swaps take place (R169). -/
def swapsNow (key : Nat) (s : State) : State := swapWhere (fun w => w.root == key) s

/-- A stop fixes its boundary as the tick of every armed swap of the root that waits for a shot after the last one to run,
whose ordinal is given (R169). -/
def fixSwaps (key last tick : Nat) (s : State) : State :=
  let fix (o : Option Swap) : Option Swap :=
    o.map fun w => if w.root = key && last < w.after then { w with at_ := some tick } else w
  { s with
    ports := tmap {} (fun _ q => { q with banks := { q.banks with swap := fix q.banks.swap } }) s.ports
    zbanks := tmap {} (fun _ b => { b with swap := fix b.swap }) s.zbanks
    ro := tmap {} (fun _ r => { r with firSwap := fix r.firSwap, kerSwap := fix r.kerSwap }) s.ro }

/-- Swaps whose tick has come. -/
def swapsDue (s : State) : State :=
  swapWhere (fun w => match w.at_ with | some t => decide (t ≤ s.now) | none => false) s

/-! ### Entries -/

/-- Discard every entry of a queue, in the queue and in the crossbar; their credits return (R47, R55). -/
def discardQueue (res : Nat) (s : State) : State :=
  s.modQueue res fun q =>
    { q with
      returning := q.returning + q.entries.length + q.xbar.length
      entries := [], xbar := [], lastPlaced := none
      lastArrived := match q.xbar.getLast? with | some e => some e.release | none => q.lastArrived }

/-! ### Thermal nodes that hold outputs (R479) -/

/-- The nodes that stand over a domain: its own and its package nodes (R476). -/
def nodesOf (d : Nat) : List Nat :=
  d :: (if 14 ≤ d && d ≤ 17 then [24 + (d - 14)] else if 20 ≤ d && d ≤ 23 then [24 + (d - 20)]
    else if d = 18 then [24, 25] else if d = 19 then [26, 27]
    else if 6 ≤ d && d ≤ 9 then [28] else if 10 ≤ d && d ≤ 13 then [29] else if d = 4 then [30] else [31])

/-- A node over a domain has failed plausibility: the domain's outputs are held in the safe state (R479). -/
def State.plausHeld (s : State) (d : Nat) : Bool := (nodesOf d).any fun n => (tget {} s.house.nodes n).failed

/-! ### Muting -/

/-- Some condition of R180 other than a start event still owed holds the port muted. -/
def State.portHeld (s : State) (p : Nat) : Bool :=
  (s.port p).hostmute || (s.portRoots p).any s.faulted || decide (s.sys.mode = .safe)
    || decide (s.devFault.codes ≠ []) || (s.port p).trim || s.testing (outDom p)
    || (portTones p).any (fun t => match s.owner t with | some b => s.proofCovers b | none => false)
    || s.plausHeld (outDom p)

/-- The port is muted (R180). -/
def State.muted (s : State) (p : Nat) : Bool := !(s.port p).unmuted || s.portHeld p

/-- One of R180's conditions has begun: the port stays muted until a start event after it clears. -/
def mute (p : Nat) (s : State) : State := s.modPort p fun q => { q with unmuted := false }

/-! ### Z channels -/

/-- The code for 0 V of a span (R185). -/
def zeroCode (span : Nat) : Nat := if span < 2 then 0 else 131072

/-- Maximum settling of a ladder step in ticks (R193): at most 1 % of span, 0.8 µs; else 1.9 µs. -/
def settleTicks (old new : Nat) : Nat :=
  if (if old ≤ new then new - old else old - new) * 100 ≤ 2 ^ 18 then 16000 else 38000

/-- The bias voltage of a code in a span, in 2^-18 µV (R185). -/
def biasVolt (span code : Nat) : Int :=
  if span = 0 then code * 2500000
  else if span = 1 then code * 5000000
  else if span = 2 then ((code : Int) - 131072) * 5000000
  else ((code : Int) - 131072) * 10000000

/-- The voltage of a fast DAC code in a fast span, in 2^-18 µV: an LSB is 2A / 16384 (R186). -/
def fastVolt (fps : Nat) (code : Int) : Int := code * (250000 * 2 ^ fps : Nat) * 32

/-- The ladder's voltage. -/
def ZChan.ladder (c : ZChan) : Int := biasVolt c.span c.code

/-- A value that changes at a tick: what it was before is kept while `lat` ticks of it are still on their way. -/
def keepPast (lat tick : Nat) (old new : Int) (past : List (Nat × Int)) : List (Nat × Int) :=
  (if old = new then past else (tick, old) :: past).filter fun e => tick < e.1 + lat

/-- What a value was at a tick. -/
def pastAt (past : List (Nat × Int)) (present : Int) (tick : Nat) : Int :=
  match past.reverse.find? fun e => tick < e.1 with | some e => e.2 | none => present

/-- Ticks from the deglitcher and from the fast DAC to the ball (R193, R195). -/
def biasDelay : Nat := 400
def fastDelay : Nat := 240

/-- The deglitcher puts out a voltage from a tick on. -/
def ZChan.setOut (c : ZChan) (tick : Nat) (v : Int) : ZChan :=
  { c with out := v, outPast := keepPast biasDelay tick c.out v c.outPast }

/-- Load the ladder; the change begins at a tick (R193). -/
def zLoadAt (z code tick : Nat) (s : State) : State :=
  s.modZ z fun c => { c with code, settled := false, settleAt := some (tick + settleTicks c.code code) }

/-- Load the ladder; the change begins now. -/
def zLoad (z code : Nat) (s : State) : State := zLoadAt z code s.now s

/-- Close the park switch: PARKED, no opening pending, no fast voltage (R198, R204). -/
def zPark (z : Nat) (s : State) : State :=
  let s := endFast z s
  s.modZ z fun c => if c.st = .float then c else { c with st := .parked, openAt := none }

/-- The safe state of one channel (R201). -/
def zSafe (z : Nat) (s : State) : State :=
  let c := s.z z
  if c.st = .driven then
    let s := endFast z s
    (zLoad z c.park s).modZ z fun c => { (c.setOut s.now c.ladder) with st := .safePark, openAt := none, holdTo := 0 }
  else if c.st = .parked then
    (endFast z s).modZ z fun c => { c with openAt := none, preTrim := none }
  else s

/-! ### Markers and time elements -/

/-- Drive every PATTERN output to its IDLE level (R323). -/
def patternIdle (s : State) : State :=
  { s with mark := { s.mark with outs := tmap {} (fun _ o => if o.mode = 1 then mrkIdle o else o) s.mark.outs } }

/-- End every FOLLOW pulse that a root began (R323). -/
def followEnd (key : Nat) (s : State) : State :=
  { s with mark := { s.mark with outs := tmap {} (fun _ o =>
      if o.mode = 2 && o.pulseRoot == some key then mrkIdle o else o) s.mark.outs } }

/-- The generator goes idle, once the edges named before now have been emitted; the ROOT of its playback is kept while
its outputs may hold levels of it (R323). -/
def genIdle (s : State) : State :=
  let s := markUpTo s.now s
  { s with mark := { s.mark with
      gen := .idle, shotSrc := false, named := false, synced := false, stopping := none, shotAt := none, trigDue := [] } }

/-- A doubt or abort of a root ends the playback it is the ROOT of, and drives to IDLE what a playback of it has left
(R323); `flag` for a doubt. -/
def markRoot (key : Nat) (flag : Bool) (s : State) : State :=
  let s := followEnd key s
  if s.mark.root == some key then
    let active := decide (s.mark.gen ≠ .idle)
    let s := patternIdle (genIdle s)
    { s with mark := { s.mark with root := none, stopped := s.mark.stopped || (flag && active) } }
  else s

/-- SAFE drives every output to IDLE and disarms the generator (R323). -/
def markSafe (s : State) : State :=
  let active := decide (s.mark.gen ≠ .idle)
  let s := genIdle s
  { s with mark := { s.mark with
      outs := tmap {} (fun _ o => mrkIdle o) s.mark.outs
      stopped := s.mark.stopped || active } }

def elemStop (e : Elem) : Elem := { e with active := false, high := false }

/-- A root stops: timers, windows and TIME_OUTs that name it stop (R347, R349). -/
def elemsRoot (key : Nat) (s : State) : State :=
  let f (_ : Nat) (e : Elem) : Elem := if e.active && e.root == some key then elemStop e else e
  { s with time := { s.time with
      timers := tmap {} f s.time.timers
      windows := tmap {} f s.time.windows
      touts := tmap {} f s.time.touts } }

/-- SAFE stops every TIME_OUT, and the timers and windows whose root stops (R349). -/
def elemsSafe (s : State) : State :=
  { s with time := { s.time with touts := tmap {} (fun _ e => elemStop e) s.time.touts } }

/-! ### The safe levels of a root and of the device (R509) -/

/-- A tone in the safe state: its port muted, its play ended, its entries discarded (R181). -/
def safeTone (t : Nat) (s : State) : State := discardQueue t (endPlay t (mute (tonePort t) s))

/-- One resource in the safe state. -/
def safeRes (res : Nat) (s : State) : State :=
  if res < 0x1000 then safeTone res s
  else if res < 0x2000 then
    (safeTone res s).modRot (res - 0x1000) fun r => { r with wins := [] }
  else if res < 0x3000 then discardQueue res (zSafe (res - 0x2000) s)
  else s

/-- Ports that another root shares report that they were muted by its safe state (R182). -/
def flagShared (key res : Nat) (s : State) : State :=
  if res < 0x2000 && (s.portRoots (tonePort res)).any (fun k => k != key) then
    s.modPort (tonePort res) fun q => { q with mutedByOther := true }
  else s

/-- Entry of a plate or of the device to the safe state triggers an injected sequence, from 2 µs on (R472). -/
def injectSafe (s : State) : State :=
  { s with house := { s.house with injSafe := match s.house.injSafe with | some t => some t | none => some (s.now + 40000) } }

/-- A domain leaves or reaches On: an injected sequence reads it (R472). -/
def injectDom (d : Nat) (s : State) : State :=
  if s.house.injDue.contains d then s else { s with house := { s.house with injDue := s.house.injDue ++ [d] } }

/-- Drive a root's outputs on this device to their safe levels (R509); `flag` for a doubt. -/
def safeRoot (key : Nat) (flag : Bool) (s : State) : State :=
  let res := s.rootRes key
  let s := each (flagShared key) res s
  let s := each safeRes res s
  injectSafe (elemsRoot key (markRoot key flag s))

/-- Drive every output of the device to its safe level (R31, R181, R201, R323, R349). -/
def safeDevice (s : State) : State :=
  let s := each mute (tkeys s.ports) s
  let s := each safeTone (tkeys s.tones) s
  let s := each discardQueue (tkeys s.queues) s
  let s := each zSafe (tkeys s.zch) s
  let s := { s with ro := tmap {} (fun _ r => { r with wins := [] }) s.ro }
  injectSafe (elemsSafe (markSafe s))

end Sys2Proof.Machine
end

