-- ==== Sys2Proof/Machine/Queues.lean ====
section
/-! DEFINITION. Submission and completion queues (R398–R414) and the one path by which the Atelier
reads a submission entry, judges it and completes it. -/

namespace Sys2Proof.Machine

/-! ### Status codes (R409) -/

abbrev stOk : Nat := 0
abbrev stBusy : Nat := 1
abbrev stInvalid : Nat := 2
abbrev stNotSupported : Nat := 3
abbrev stThermal : Nat := 4
abbrev stMode : Nat := 5
abbrev stLate : Nat := 6
abbrev stFault : Nat := 7
abbrev stAuth : Nat := 8
abbrev stAborted : Nat := 9
abbrev stAlready : Nat := 10

/-- A status with which a command fails (R412). -/
def failing (st : Nat) : Bool := st != stOk && st != stAlready

/-! ### Shapes (R403) -/

def queueDepth (version : Nat) : Nat := if version ≤ 1 then 64 else if version = 2 then 128 else 256
def queueCount (version : Nat) : Nat := if version ≤ 1 then 16 else if version = 2 then 32 else 64
def inlineBytes (version : Nat) : Nat := if version ≤ 1 then 16 else 48
def entryBytes (version : Nat) : Nat := if version ≤ 1 then 32 else 64

def State.depthNow (s : State) : Nat := queueDepth s.host.version

/-- The completion queue of a submission queue (R398, R403). -/
def State.cqOf (s : State) (q : Nat) : Nat := if s.host.version ≤ 1 then q else (s.sq q).cq

/-- A queue is one of the session's shape; only queue 0 while no session is open (R404). -/
def State.queueExists (s : State) (q : Nat) : Bool :=
  if s.host.protoValid then decide (q < queueCount s.host.version) else decide (q = 0)

/-! ### Completions -/

/-- The slot of a completion queue that the next entry takes is free (R402). -/
def State.cqFree (s : State) (c : Nat) : Bool :=
  let k := s.cq c
  k.en && decide ((k.written + 65536 - k.consumed) % 65536 < s.depthNow)

/-- An interrupt timer has run out: itime µs after the first unsignalled entry; 0 turns it off (R399, R440). -/
def timerDue (ien : Bool) (itime : Nat) (first : Option Nat) (now : Nat) : Bool :=
  ien && decide (itime ≠ 0) && match first with
    | some t => decide (t + us itime ≤ now)
    | none => false

/-- The 16 bytes of a completion entry (R408). -/
def Completion.bytes (e : Completion) : List Byte :=
  le 2 e.cmdId ++ le 1 e.sq ++ le 1 (bit e.phase 0) ++ le 1 e.status ++ pad 1 ++ le 2 e.sqHead ++ le 8 e.result

/-- Write one completion entry into a free slot, then signal (R402, R399, R414). -/
def writeCompletion (c : Nat) (e : Completion) (s : State) : State :=
  let k := s.cq c
  let e := { e with phase := decide (k.written / s.depthNow % 2 = 0) }
  let fire := k.ien && decide (k.cnt < k.unsig + 1)
  let k := { k with
    written := (k.written + 1) % 65536
    slots := k.slots ++ [e]
    last := some e
    image := some (k.baseLo + k.baseHi * 2 ^ 32 + 16 * (k.written % s.depthNow), e.bytes)
    unsig := if fire then 0 else k.unsig + 1
    unsigAt := if fire then none else some (k.unsigAt.getD s.now) }
  let s := s.setCq c k
  if fire then raiseVec k.vec s else s

/-- Write a completion, or hold it while the queue is full (R402). -/
def complete (c : Nat) (e : Completion) (s : State) : State :=
  if (s.cq c).held = [] && s.cqFree c then writeCompletion c e s
  else s.modCq c fun k => { k with held := k.held ++ [e] }

/-- Every queue to its state after OPEN or CLOSE (R404): counts 0, phase 1, EN 0 but for queue 0. -/
def resetQueues (version : Nat) (opened : Bool) (s : State) : State :=
  let sq0 := s.sq 0
  let cq0 := s.cq 0
  { s with host := { s.host with
      version, protoValid := opened, openPending := false
      sqs := tset {} (s.host.sqs.filter fun e => decide (64 ≤ e.1)) 0 { baseLo := sq0.baseLo, baseHi := sq0.baseHi, en := sq0.en, cq := sq0.cq }
      cqs := tset {} [] 0 { baseLo := cq0.baseLo, baseHi := cq0.baseHi, en := cq0.en, vec := cq0.vec
                            ien := cq0.ien, cnt := cq0.cnt, itime := cq0.itime, last := cq0.last, image := cq0.image } } }

/-- Close every stream (R405), as STREAM_CLOSE does. -/
def closeStreams (s : State) : State := each closeStream (tkeys s.streams) s

/-- Stop every transfer into host memory (R405, R441): HOST cleared on every ring. -/
def stopTransfers (s : State) : State :=
  { s with rings := tmap {} (fun _ r => { r with host := false, unsig := 0, unsigAt := none }) s.rings }

/-- The devices asked in phase one hear that a command is not applied. -/
def dropAsked (f : InFlight) (s : State) : State :=
  match f.wait with
  | .votes id devs _ _ _ => each (fun d s => tell d (.drop id) s) devs s
  | _ => s

/-- The queue number under which this device keeps the commands that another device has passed to it, the one for the
sideband's proof requests, and the one for what a closed session had committed (the model's own queues, beyond the 64 of
R398). -/
abbrev guestQ (dev : Nat) : Nat := 64 + dev
abbrev sbQueue : Nat := 64 + 2 ^ 14
abbrev lateQueue : Nat := sbQueue + 1

/-- A command in flight past its commit point, whose effect is not complete. -/
def InFlight.goesOn (f : InFlight) : Bool :=
  match f.wait with
  | .nothing | .prior _ | .earlier | .votes _ _ _ _ _ => false
  | _ => true

/-- Close the session (R405): what is past its commit point goes on with no completion, and no other device applies what is
not (R138). -/
def closeSession (s : State) : State :=
  let l := (s.host.sqs.filter fun e => decide (e.1 < 64)).flatMap fun e => e.2.flight
  let s := resetQueues 0 false (stopTransfers (closeStreams (each dropAsked l s)))
  if l.any InFlight.goesOn then s.modSq lateQueue fun k => { k with flight := k.flight ++ l.filter InFlight.goesOn } else s

/-! ### Waiting commands -/

/-- No cell runs. -/
def State.allStopped (s : State) : Bool := s.roots.all fun e => !e.2.running

/-- No analogue trim is in progress (R26). -/
def State.noTrim (s : State) : Bool := s.calib.inst.all fun e => decide (e.2.st ≠ 3)

/-- What a command waits for has come about. -/
def State.waitDone (s : State) : WaitFor → Bool
  | .nothing => true
  | .cellsStopped => s.allStopped
  | .trims => s.noTrim
  | .rootStop k => !s.running k
  | .prior l => l.all fun e => seqGe 16 (s.sq e.1).completed e.2
  | .earlier => true
  | .confirms _ [] none => true
  | .confirms _ [] (some k) => !s.running k
  | _ => false

/-- A command of another device, or of the sideband, ends: the other device is told, or the proof registers take the
outcome (R548); what a closed session had committed ends with no completion (R405). -/
def finishGuest (q : Nat) (f : InFlight) (s : State) : State :=
  if q = lateQueue then s
  else if q = sbQueue then
    { s with side := { s.side with
        proofBusy := false, proofDone := true, proofStatus := f.status
        proofSig := if f.status = stOk || f.status = stFault then BitVec.ofNat 64 f.result else s.side.proofSig } }
  else tell (q - 64) (.answered f.cmdId f.status f.result) s

/-- Complete the oldest command in flight of a queue (R401, R408, R410). -/
def finishHead (q : Nat) (s : State) : State :=
  match (s.sq q).flight with
  | [] => s
  | f :: rest =>
    if 64 ≤ q then finishGuest q f (s.modSq q fun k => { k with flight := rest }) else
    let n := ((s.sq q).completed + 1) % 65536
    let s := s.modSq q fun k => { k with
      flight := rest, completed := n, history := ((f.cmdId, f.opcode, f.cell) :: k.history).take 256 }
    let e : Completion := { cmdId := f.cmdId, sq := q, phase := true, status := f.status, sqHead := n, result := f.result }
    let s := complete (s.cqOf q) e s
    let s := if f.opcode = 0x01 then { s with host := { s.host with openPending := false } } else s
    if f.opcode = 0x01 && f.status = stOk then resetQueues (f.result % 256) true s
    else if f.opcode = 0x02 && f.status = stOk then closeSession s
    else s

def pumpQueue (q : Nat) : Nat → State → State
  | 0, s => s
  | n + 1, s =>
    match (s.sq q).flight with
    | [] => s
    | f :: _ => if s.waitDone f.wait then pumpQueue q n (finishHead q s) else s

/-- Some command in flight waits for something. -/
def State.awaits (s : State) (w : WaitFor) : Bool := s.host.sqs.any fun e => e.2.flight.any fun f => decide (f.wait = w)

/-- Those commands wait no more. -/
def endWaits (w : WaitFor) (s : State) : State :=
  { s with host := { s.host with
    sqs := tmap {} (fun _ k => { k with flight := k.flight.map fun f => if f.wait = w then { f with wait := .nothing } else f }) s.host.sqs } }

/-- Modes that wait for cells or trims change once the last has ended (R26, R29). -/
def settleModes (s : State) : State :=
  let settle (m : Mode) (w : WaitFor) (over_ : State → Bool) (s : State) : State :=
    if s.sys.mode = m && s.awaits w && over_ s then setMode .ready (endWaits w s) else s
  settle .calibrate .trims State.noTrim (settle .run .cellsStopped State.allStopped s)

def pumpRound (s : State) : State :=
  each (fun q s => pumpQueue q (s.sq q).flight.length s) (tkeys s.host.sqs) s

/-- Complete every command whose wait has ended, in submission order of its queue. -/
def pump (s : State) : State :=
  let s := settleModes s
  times pumpRound (s.host.sqs.length + 1) s

/-- A command's failure is decided: its queue is halted, and the refusal is logged (R412, R518, R464).
Before OPEN a failure halts nothing (R404). -/
def noteFailure (q status what target : Nat) (why : Why) (s : State) : State :=
  if failing status && (q < 64 || q == sbQueue) then
    let s := logRefusal what status target why s
    if s.host.protoValid && q < 64 then setSum 13 (s.modSq q fun k => { k with halted := true }) else s
  else s

/-- Decide the commands in flight that satisfy a test: status, result, and whether they wait on. -/
def decideFlights (p : InFlight → Bool) (status : Nat) (result : InFlight → Nat) (why : Why) (s : State) : State :=
  let upd (f : InFlight) : InFlight :=
    if p f then { f with wait := .nothing, status := status, result := result f } else f
  let one (q : Nat) (s : State) : State :=
    each (fun f s => noteFailure q status f.what f.target why s) ((s.sq q).flight.filter p)
      (s.modSq q fun k => { k with flight := k.flight.map upd })
  each one (tkeys s.host.sqs) s

/-! ### Reading a submission entry -/

/-- What the Atelier makes of a command: the state after it, and how it completes. -/
structure Reply where
  s : State
  status : Nat := 0
  result : Nat := 0
  wait : WaitFor := .nothing
  why : Why := .doubt

/-- A refusal without effect. -/
def Reply.no (s : State) (status : Nat) (why : Why) : Reply := { s, status, why }

/-- INVALID_ARG for a field at a byte offset. -/
def Reply.bad (s : State) (off : Nat) : Reply := .no s stInvalid (.field off)

def Reply.busy (s : State) : Reply := .no s stBusy .inUse

/-- A command that no later command of its queue passes: FENCE, OPEN, CLOSE (R404, R405, R411). -/
def InFlight.fences (f : InFlight) : Bool := f.opcode == 0x01 || f.opcode == 0x02 || f.opcode == 0x04

/-- The Atelier can read the next entry of a queue: served, enabled, an entry there, no FENCE, OPEN or
CLOSE in flight before it, and no completion held for a full queue (R25, R402, R404, R405, R411). -/
def State.canRead (s : State) (q : Nat) : Bool :=
  decide (s.sys.mode ≠ .boot) && s.queueExists q && (s.sq q).en
    && decide ((s.sq q).read ≠ (s.sq q).submitted)
    && decide ((s.cq (s.cqOf q)).held = [])
    && (s.sq q).flight.all fun f => match f.wait with
        | .prior _ => false
        | _ => f.opcode != 0x01 && f.opcode != 0x02

/-- Take the entry: it is read, and its doorbell records go once all their entries are (R411). -/
def takeEntry (q : Nat) (s : State) : State :=
  s.modSq q fun k =>
    let n := (k.read + 1) % 65536
    { k with
      read := n, bells := k.bells.filter (fun b => b.1 != n), withdrawn := k.withdrawn.filter (· != k.read) }

/-- The next entry of a queue is a SHOT_SCHEDULE or CELL_START that a CELL_ABORT withdrew before its commit
point (R522). -/
def State.withdrawn (s : State) (q opcode : Nat) : Bool :=
  (opcode == 0x12 || opcode == 0x16) && (s.sq q).withdrawn.contains (s.sq q).read

/-- Put a judged command in flight and complete what can complete. -/
def conclude (q cmdId opcode what target : Nat) (cell : Option Nat) (r : Reply) : State :=
  let f : InFlight :=
    { cmdId, opcode, wait := r.wait, status := r.status, result := r.result, cell, what, target }
  let s := r.s.modSq q fun k => { k with flight := k.flight ++ [f] }
  pump (noteFailure q r.status what target r.why s)

/-- The checks of header and structure (R406, R407, R9): the first that fails, as the offset of its
field. -/
def hdrError (h : Hdr) (len version : Nat) : Option Nat :=
  if 4 ≤ h.flags then some 1
  else if h.plen ≠ len then some 4
  else if inlineBytes version < len && h.flags % 2 = 0 then some 1
  else if h.flags % 2 = 1 && h.addr % 8 ≠ 0 then some 16
  else match h.resv with
    | some o => some o
    | none => none

/-- The path of every mailbox command (R404, R407, R412, R413, R32): an entry is there; OPEN and
STATUS_QUERY alone are served with no session; a halted queue carries out QUEUE_RESUME alone; a withdrawn entry completes with FAULT (R522);
then the mode, the header, an indirect structure in package memory, and the command's own meaning. -/
def mailbox (h : Hdr) (opcode len what target : Nat) (modes : List Mode) (body : State → Reply) (s : State)
    (cell : Option Nat := none) : State :=
  let q := h.sq.val
  if !s.canRead q then s
  else
    let t := takeEntry q s
    let r : Reply :=
      if (s.sq q).halted && opcode != 0x03 then .no t stAborted (.command (opcode + q * 256 + h.cmdId % 65536 * 65536))
      else if s.withdrawn q opcode then .no t stFault .doubt
      else if !s.host.protoValid && opcode != 0x01 && opcode != 0x58 then .no t stNotSupported .mode
      else if !modes.contains s.sys.mode then .no t stMode .mode
      else match hdrError h len s.host.version with
        | some o => .bad t o
        | none =>
          if h.flags = 3 && !inStaging h.addr len then .bad t 16
          else if h.flags = 3 && s.poisoned h.addr len then
            .no (noteUe (s.firstBad h.addr len) t) stFault (.field 16)
          else body t
    conclude q h.cmdId opcode what target cell r

/-- Mode lists of R32 and of the chapters. -/
def anyMode : List Mode := [.configure, .ready, .run, .calibrate, .proof, .safe, .service]
def cfgModes : List Mode := [.configure, .ready, .run]
def loadModes : List Mode := [.configure, .ready, .run, .calibrate]
def openModes : List Mode := [.configure, .ready, .run, .calibrate, .service]

/-- A mailbox command logged as a command (R466). -/
def command (h : Hdr) (opcode len : Nat) (modes : List Mode) (body : State → Reply) (s : State)
    (cell : Option Nat := none) : State :=
  mailbox h opcode len 0 (opcode + h.sq.val * 256) modes body s cell

/-- A query (R426, R407): the record goes to the buffer and what it reports is reset; INVALID_ARG where the
buffer is too short. -/
def queryReply (len : Nat) (rec_ : List Byte) (reset : State → State) (s : State) : Reply :=
  if len < rec_.length then .bad s 16
  else { s := reset { s with out := { s.out with query := rec_ } }, result := rec_.length }

end Sys2Proof.Machine
end

