-- ==== Sys2Proof/Machine/Acq.lean ====
section
/-! DEFINITION. The acquisition engines (R288–R309): what an engine does with each sample of its source, and its commands.
Instants are in 2^-16 ps of the coarse count, 3,276,800 to a tick. -/

namespace Sys2Proof.Machine

/-! ### Sources and rings -/

/-- Tones of a MAG source. -/
def magTones (m : Nat) : List Nat := (List.range 16).filter m.testBit

/-- The common MAD of a MAG source's tones. -/
def State.magMad (s : State) (e : Nat) (a : AcqSettings) : Nat :=
  match magTones a.tmask with
  | k :: _ => (s.rot (e * 16 + k)).set.mad
  | [] => 1

/-- Bytes per sample (R289). -/
def sampleBytes (a : AcqSettings) : Nat :=
  if a.src = 0 then 2 else if a.src = 1 then 4 else 4 * (((magTones a.tmask).length + 1) / 2)

/-- Ticks from one sample to the next. -/
def State.sampleTicks (s : State) (e : Nat) (a : AcqSettings) : Nat :=
  if a.src = 0 then 1 else if a.src = 1 then 8 else 8 * s.magMad e a

/-- Samples that a segment holds (R293). -/
def capacity (a : AcqSettings) : Nat :=
  a.rlen / a.nseg / sampleBytes a - (if a.src = 0 then 16 else if a.src = 1 then 2 else 0)

/-- Write bandwidth in MB/s (R289, R291), as a numerator and a denominator. -/
def State.bandwidth (s : State) (e : Nat) (a : AcqSettings) : Nat × Nat :=
  if a.src = 0 then (40000, 1) else if a.src = 1 then (10000, 1) else (2500 * sampleBytes a, s.magMad e a)

/-- The sum of two ratios. -/
def addRatio (x y : Nat × Nat) : Nat × Nat := (x.1 * y.2 + y.1 * x.2, x.2 * y.2)

/-- An engine is armed: neither IDLE nor DONE. -/
def Engine.armed (e : Engine) : Bool := decide (e.st ≠ .idle) && decide (e.st ≠ .done)

/-- R292's ranges, as the offset of the first field that breaks them. -/
def acqRange (a : AcqSettings) : Option Nat :=
  let no (b : Bool) (o : Nat) : Option Nat := if b then none else some o
  firstSome id [
    no (decide (a.src ≤ 2)) 1, no (decide (a.tsel ≤ 3) && !(a.src == 1 && a.tsel == 3)) 2, no (decide (a.ttone < 16)) 3
    , no (decide (a.tsrc ≤ 2)) 4, no (decide (a.pin < 8)) 5, no (decide (a.ttype ≤ 4)) 6, no (decide (a.pol ≤ 1)) 7
    , no (decide (a.tmask < 65536)) 8
    , no (decide (-32768 ≤ a.lo) && decide (a.lo ≤ 32767)) 10, no (decide (a.lo < a.hi) && decide (a.hi ≤ 32767)) 12
    , no (decide (a.hys ≤ 8192)) 14, no (1 ≤ a.nseg && decide (a.nseg ≤ 256)) 16, no (decide (a.wcond ≤ 1)) 18
    , no (decide (a.armsrc ≤ 1)) 19, no (decide (a.ring < 64)) 20
    , no (1 ≤ a.w1 && decide (a.w1 < 2 ^ 32)) 24, no (decide (a.w1 ≤ a.w2) && decide (a.w2 < 2 ^ 32)) 28
    , no (1 ≤ a.tw && decide (a.tw < 2 ^ 32)) 32
    , no (65536 ≤ a.rlen && decide (a.rlen ≤ 536870912) && a.rlen % (a.nseg * 4096) == 0) 36
    , no (a.rbase % 4096 == 0 && inCapture a.rbase a.rlen) 40
    , no (!(a.src == 2) || a.tmask.testBit a.ttone) 3
    , no (!(a.tsrc == 1 && (a.ttype == 2 || a.ttype == 4))) 6
    , no (decide (a.pre ≤ capacity a)) 48
    , no (1 ≤ a.post && decide (a.post ≤ capacity a) && decide (a.pre + a.post ≤ capacity a)) 52 ]

/-- R290's requirements of a MAG source. -/
def State.magOk (s : State) (e : Nat) (a : AcqSettings) : Bool :=
  a.src != 2
    || ((s.acqPort e).stipOwner.isNone && (magTones a.tmask).all fun k =>
        (s.owner (0x1000 + e * 16 + k)).isSome && decide ((s.rot (e * 16 + k)).set.tmode ≤ 1)
          && (s.rot (e * 16 + k)).set.mad == s.magMad e a)

/-! ### Records (R307) -/

/-- Write the records that an engine owes while its ring has slots. -/
def flushOwed (e : Nat) : Nat → State → State
  | 0, s => s
  | n + 1, s =>
    match (s.engine e).owed with
    | [] => s
    | rec_ :: rest =>
      match ringPut (s.engine e).lat.ring rec_ none s with
      | some s' => flushOwed e n (s'.modEngine e fun k => { k with owed := rest, freed := s.now })
      | none => s

def flushEngine (e : Nat) (s : State) : State := flushOwed e (s.engine e).owed.length s

/-- Owe a capture record: it takes the engine's next sequence number. One that finds a slot at once does not delay the
engine. -/
def capRecord (e reason flags start count : Nat) (s : State) : State :=
  let k := s.engine e
  let time := match k.trig with
    | some t => t.stamp
    | none => pad 14
  let rec_ := le 2 0x0051 ++ le 1 e ++ le 1 k.seg ++ le 2 k.seq ++ le 1 reason ++ le 1 flags ++ time
    ++ le 1 (k.lat.ttype + k.lat.tsrc * 8) ++ le 1 0 ++ le 4 start ++ le 4 count
  (flushEngine e (s.setEngine e { k with seq := (k.seq + 1) % 65536, owed := k.owed ++ [rec_] })).modEngine e fun r =>
    { r with freed := if r.owed = [] then k.freed else r.freed }

/-- The first sample of a capture (R305), and the index after its last. -/
def Engine.from_ (k : Engine) (t : Trig) : Int := (t.idx : Int) - (k.lat.pre : Int)
def Engine.stop (k : Engine) (t : Trig) : Nat := t.idx + k.lat.post

/-- Its position in the segment. -/
def Engine.startPos (k : Engine) (t : Trig) : Nat := (k.from_ t % (capacity k.lat : Int)).toNat

/-- The label of sample `i` of a capture, on the side of the alignment event on which the trigger sample lies. -/
def Trig.labelOf (t : Trig) (p : Nat) (i : Int) : Int := t.label + (i - (t.idx : Int)) * (p : Int)

/-- An alignment event fell inside the capture (R307): on a sample of it, or between two. -/
def State.capAligned (s : State) (e : Nat) (t : Trig) : Bool :=
  let k := s.engine e
  let p := s.sampleTicks e k.lat
  match k.aligned with
  | none => false
  | some (at_, i) =>
    decide (k.from_ t ≤ (i : Int)) && decide (i < k.stop t)
      && !(decide (k.from_ t = (i : Int)) && decide ((at_ : Int) < t.labelOf p i))

/-- The flags of a capture whose samples end before an index (R307). -/
def State.capFlags (s : State) (e last : Nat) : Nat :=
  let k := s.engine e
  match k.trig with
  | none => 0
  | some t =>
    bit t.forced 0 + bit (s.capAligned e t) 1 + bit (k.overs.any fun i => decide (k.from_ t ≤ (i : Int)) && decide (i < last)) 2

/-! ### Arming and disarming -/

/-- An engine ends its arming. -/
def Engine.drop (k : Engine) : Engine :=
  { k with st := .idle, writing := false, writeAt := none, trig := none, edges := [], overs := [], aligned := none, det := {} }

/-- Disarm an engine with a record of its reason: no samples are kept (R300). A capture in progress had its
trigger, which the record still tells. -/
def disarm (reason e : Nat) (s : State) : State :=
  let k := s.engine e
  if !k.armed then s
  else
    let s := match k.st, k.trig with
      | .capturing, some t => capRecord e reason (bit t.forced 0) (k.startPos t) 0 s
      | _, _ => capRecord e reason 0 0 0 (s.setEngine e { k with trig := none })
    s.modEngine e Engine.drop

/-- A segment begins: samples are written from a tick on. -/
def Engine.begin_ (k : Engine) (seg tick : Nat) : Engine :=
  { k with
    st := .filling, seg, writing := false, writeAt := some tick, count := 0, overs := [], aligned := none, trig := none }

/-- The engine begins to arm: writing starts at the first word boundary at least 1 µs ahead (R296). -/
def Engine.fill (now : Nat) (k : Engine) : Engine := { k.begin_ 0 (wordUp (now + us 1)) with det := {}, edges := [] }

def beginFill (e : Nat) (s : State) : State := s.modEngine e (Engine.fill s.now)

/-- A domain leaves On: the engines that need it disarm (R300, R452). -/
def disarmDomain (d : Nat) (s : State) : State :=
  each (fun e s => if d = 4 || d = 5 || d = inDom e then disarm 2 e s else s) (List.range 16) s

/-- A proof run covers an engine's port or PD05 MARK (R300). -/
def disarmProof (d : Nat) (s : State) : State :=
  each (fun e s => if d = 5 || d = inDom e then disarm 3 e s else s) (List.range 16) s

/-! ### Crossings (R301, R302) -/

/-- An instant in 2^-16 ps of a tick. -/
def fineTick (t : Int) : Int := t * 3276800

/-- A crossing of a level between two samples: μ to the nearest 2^-16, halves up (R302). -/
def crossing (level t0 s0 t1 s1 : Int) : Int :=
  let d := s1 - s0
  let mu := if d = 0 then 0 else if 0 < d then ((level - s0) * 131072 + d) / (2 * d) else ((s0 - level) * 131072 - d) / (-2 * d)
  fineTick t0 + mu * (t1 - t0) * 50

/-- A crossing: of HI or of LO, rising or falling, at an instant. -/
structure Cross where
  hi : Bool
  up : Bool
  t : Int

/-- The crossings that a sample completes, in order, and what is kept (R301). -/
def Detect.crossings (a : AcqSettings) (label v : Int) (d : Detect) : Detect × List Cross :=
  let t0 := match d.prev with | some p => p.1 | none => label
  let s0 := match d.prev with | some p => p.2 | none => v
  let hys : Int := (a.hys : Int)
  let loUp := d.loLow && decide (a.lo ≤ v)
  let loDn := d.loHigh && decide (v ≤ a.lo)
  let hiUp := d.hiLow && decide (a.hi ≤ v)
  let hiDn := d.hiHigh && decide (v ≤ a.hi)
  let lo : Int := crossing a.lo t0 s0 label v
  let hi : Int := crossing a.hi t0 s0 label v
  ({ d with
      prev := some (label, v)
      loLow := !loUp && (d.loLow || decide (v < a.lo - hys)), loHigh := !loDn && (d.loHigh || decide (a.lo + hys < v))
      hiLow := !hiUp && (d.hiLow || decide (v < a.hi - hys)), hiHigh := !hiDn && (d.hiHigh || decide (a.hi + hys < v)) },
   (if loUp then [⟨false, true, lo⟩] else []) ++ (if hiUp then [⟨true, true, hi⟩] else [])
     ++ (if hiDn then [⟨true, false, hi⟩] else []) ++ (if loDn then [⟨false, false, lo⟩] else []))

/-- A width or slew time meets WCOND (R301). -/
def windowMet (a : AcqSettings) (w : Int) : Bool :=
  (decide (fineTick a.w1 ≤ w) && decide (w ≤ fineTick a.w2)) == (a.wcond == 0)

/-- The timeout that is over by an instant triggers (R301, R302). -/
def Detect.timeOut (a : AcqSettings) (t : Int) (d : Detect) : Detect × List Int :=
  match d.ref with
  | some r => if a.ttype = 3 && decide (r + fineTick a.tw ≤ t) then ({ d with ref := none }, [r + fineTick a.tw]) else (d, [])
  | none => (d, [])

/-- What a crossing does to the condition (R301). Answers the triggers. -/
def Detect.cross (a : AcqSettings) (c : Cross) (d : Detect) : Detect × List Int :=
  let fwd := c.up == (a.pol == 0)
  let near := c.hi == (a.pol == 1)
  match a.ttype with
  | 0 => (d, if !c.hi && fwd then [c.t] else [])
  | 1 =>
    if c.hi then (d, [])
    else if fwd then ({ d with first := some c.t }, [])
    else ({ d with first := none }, match d.first with | some f => if windowMet a (c.t - f) then [c.t] else [] | none => [])
  | 2 =>
    if near then
      if fwd then ({ d with first := some c.t }, []) else ({ d with first := none }, if d.first.isSome then [c.t] else [])
    else if fwd then ({ d with first := none }, []) else (d, [])
  | 3 =>
    if c.hi then (d, [])
    else
      let (d, l) := d.timeOut a c.t
      ({ d with ref := some c.t }, l)
  | _ =>
    if near then ({ d with first := if fwd then some c.t else none }, [])
    else if fwd then ({ d with first := none }, match d.first with | some f => if windowMet a (c.t - f) then [c.t] else [] | none => [])
    else (d, [])

/-- Crossings in order. -/
def Detect.all (a : AcqSettings) : List Cross → Detect → Detect × List Int
  | [], d => (d, [])
  | c :: rest, d =>
    let (d, l) := d.cross a c
    let (d, m) := d.all a rest
    (d, l ++ m)

/-! ### Triggers (R297, R303–R306) -/

/-- The timestamp of an instant, exact to half a fraction unit (R13, R307). -/
def State.fineStamp (s : State) (x : Int) : List Byte :=
  let q := ((s.taiOf (x / 3276800) * 3276800 + x % 3276800 + 500) / 1000).toNat
  le 8 (q / (65536 * 1000000000)) ++ le 4 (q / 65536 % 1000000000) ++ le 2 (q % 65536)

/-- The tick of the event of a trigger: 40 ns after the completing sample's label, or after the pin's edge; a MAG engine that
detects in the fabric raises it at once (R306). -/
def Engine.eventTick (k : Engine) (now : Nat) (instant label : Int) : Nat :=
  if k.lat.tsrc = 1 then (instant / 3276800).toNat + 800 else if k.lat.src = 2 then now else label.toNat + 800

/-- The capture-trigger event whose tick has come (R306). -/
def raiseCapture (e : Nat) (s : State) : State :=
  match (s.engine e).evAt with
  | some t => if t ≤ s.now then raiseEp (s.ep 8 e 0) (s.modEngine e fun k => { k with evAt := none }) else s
  | none => s

/-- A trigger comes, completed by the sample of index `idx` and label `label` or before it (R297, R304, R305): accepted in
WAITING, otherwise counted. Of two that complete in one word the earlier one is accepted. -/
def trigger (e : Nat) (instant : Int) (forced : Bool) (idx : Nat) (label : Int) (s : State) : State :=
  let k := s.engine e
  let p := (s.sampleTicks e k.lat : Int)
  let back := (fineTick label - instant + fineTick p - 1) / fineTick p
  let ts := (idx : Int) - back
  let comp := if ts < 0 then 0 else ts.toNat + (if fineTick (label - back * p) = instant then 0 else 1)
  let word := (label - (idx - comp : Nat) * p) / 16
  let new : Trig := { instant, stamp := s.fineStamp instant, idx := ts.toNat, label := label - back * p, word, forced }
  let take (k : Engine) : Engine := { k with st := .capturing, trig := some new, evAt := some (k.eventTick s.now instant (label - (idx - comp : Nat) * p)) }
  match k.st with
  | .filling => s.setEngine e { k with early := k.early.bump }
  | .waiting =>
    if ts < 0 || comp < k.lat.pre then s.setEngine e { k with early := k.early.bump }
    else raiseCapture e (s.setEngine e { take k with forced := if forced then k.forced.bump else k.forced })
  | .capturing =>
    match k.trig with
    | some t =>
      if instant < t.instant && t.word = word && !(ts < 0) then
        raiseCapture e (s.setEngine e { take k with
          busyIgn := k.busyIgn.bump, evAt := if k.evAt.isSome then (take k).evAt else none
          forced := if forced && !t.forced then k.forced.bump else k.forced })
      else s.setEngine e { k with busyIgn := k.busyIgn.bump }
    | none => s
  | .rearming => s.setEngine e { k with rearmIgn := k.rearmIgn.bump }
  | _ => s

/-- Stamped edges and forces that a sample reaches act, oldest first (R303, R304). -/
def takeEdges (e idx : Nat) (label : Int) : Nat → State → State
  | 0, s => s
  | n + 1, s =>
    let k := s.engine e
    match k.edges with
    | [] => s
    | (t, dir) :: rest =>
      if fineTick label < t then s
      else
        let s := s.setEngine e { k with edges := rest }
        let s := match dir with
          | none => trigger e t true idx label s
          | some up =>
            let (d, l) := k.det.cross k.lat { hi := false, up, t }
            each (fun x s => trigger e x false idx label s) l (s.modEngine e fun k => { k with det := d })
        takeEdges e idx label n s

/-! ### From state to state (R296, R298) -/

/-- A segment's circle begins to be written: its guard holds partial words (R293, R299), which are free values. -/
def writeSegment (e : Nat) (s : State) : State :=
  let k := s.engine e
  let base := k.lat.rbase + k.seg * (k.lat.rlen / k.lat.nseg)
  let used := capacity k.lat * sampleBytes k.lat
  let s := s.modEngine e fun k => { k with writing := true }
  if k.lat.rlen / k.lat.nseg = used then s else markCaptured (base + used) (k.lat.rlen / k.lat.nseg - used) s

/-- The transition of an engine that is due at a tick, if any. -/
def engineDue (e : Nat) (tick : Int) (s : State) : State :=
  let k := s.engine e
  match k.st with
  | .filling =>
    match k.writeAt with
    | none => s
    | some t =>
      if tick < (t : Int) then s
      else if !k.writing then writeSegment e s
      else if k.count < k.lat.pre then s
      else
        let entry := if k.lat.pre = 0 then (t : Int) else match k.det.prev with | some p => p.1 | none => (t : Int)
        s.setEngine e { k with st := .waiting, det := { k.det with ref := match k.det.ref with | some r => some r | none => some (fineTick entry) } }
  | .capturing =>
    match k.trig with
    | none => s
    | some t =>
      let last := t.labelOf (s.sampleTicks e k.lat) ((k.stop t : Int) - 1)
      let edge := (last / 16 + 1) * 16
      if k.count < k.stop t || tick < edge then s
      else
        let s := s.setEngine e { k with st := .rearming, captures := k.captures.bump, rearmAt := edge.toNat + 64 * word }
        capRecord e 0 (s.capFlags e (k.stop t)) (k.startPos t) (k.lat.pre + k.lat.post) s
  | .rearming =>
    let s := flushEngine e s
    let k := s.engine e
    let from_ := if k.freed ≤ k.rearmAt then k.rearmAt else wordUp k.freed
    if k.owed ≠ [] || tick < (from_ : Int) then s
    else if k.seg + 1 < k.lat.nseg then s.setEngine e (k.begin_ (k.seg + 1) from_)
    else s.setEngine e { k.drop with st := .done, seg := k.seg + 1 }
  | _ => s

/-- Every transition that is due at a tick. -/
def engineTo (e : Nat) (tick : Int) (s : State) : State := times (engineDue e tick) 5 s

/-- One sample of an engine's source, with its label, the trigger scalar, its bytes, and whether it lies at an extreme or
saturated (R289, R294, R296, R299, R301). -/
def engineSample (e : Nat) (label v : Int) (bytes : List Byte) (over_ : Bool) (s : State) : State :=
  let s := engineTo e label s
  let k := s.engine e
  let on : Bool := match k.st with
    | .filling => k.writing
    | .waiting | .capturing | .rearming => true
    | _ => false
  if !on then s
  else
    let idx := k.count
    let room : Bool := match k.st, k.trig with
      | .filling, _ | .waiting, _ => true
      | .capturing, some t => decide (idx < k.stop t)
      | _, _ => false
    let pos := k.lat.rbase + k.seg * (k.lat.rlen / k.lat.nseg) + idx % capacity k.lat * sampleBytes k.lat
    let s := if room then
        (putBytes pos bytes s).modEngine e fun k => { k with
          count := idx + 1
          overs := (if over_ then [idx] else []) ++ k.overs.filter fun i => decide (idx < i + capacity k.lat) }
      else s
    let idx := if room then idx else k.count - 1
    let s := takeEdges e idx label (s.engine e).edges.length s
    let k := s.engine e
    let (d, l) := if k.lat.tsrc = 0 then
        let (d, cs) := k.det.crossings k.lat label v
        d.all k.lat cs
      else ({ k.det with prev := some (label, v) }, [])
    let (d, m) := d.timeOut k.lat (fineTick label)
    each (fun x s => trigger e x false idx label s) (l ++ m) (s.setEngine e { k with det := d })

/-- An edge that the time-interval unit has stamped, in ps, comes to the engines that trigger on its pin (R303); an engine that
writes nothing yet counts it with its first sample. -/
def pinEdge (pin : Nat) (rising : Bool) (ps : Int) (s : State) : State :=
  { s with engines := tmap {} (fun _ k =>
      if k.lat.tsrc == 1 && k.lat.pin == pin && k.armed && decide (k.st ≠ .primed) then
        { k with edges := k.edges ++ [(ps * 65536, some rising)] } else k) s.engines }

/-! ### The commands -/

/-- ACQ_SET (R292–R295). -/
def acqSetReply (e : Nat) (a : AcqSettings) (s : State) : Reply :=
  if 16 ≤ e then .bad s 0
  else match acqRange a with
    | some o => .bad s o
    | none =>
      if !s.magOk e a then .bad s 8
      else if !(s.ring a.ring).dev then .bad s 20
      else
        let k := s.engine e
        let ringed := decide (a.rbase ≠ k.set.rbase) || decide (a.rlen ≠ k.set.rlen) || decide (a.nseg ≠ k.set.nseg)
          || decide (a.src ≠ k.set.src)
        if k.armed && ringed then .busy s else { s := s.setEngine e { k with set := a } }

def execAcqSet (h : Hdr) (engine : Nat) (a : AcqSettings) (s : State) : Host.Outcome State Fault Refusal :=
  .next (command h 0x38 56 [.configure, .ready, .run, .service] (acqSetReply engine a) s)

/-- Two capture rings overlap. -/
def ringsMeet (a b : AcqSettings) : Bool :=
  decide (a.rbase < b.rbase + b.rlen) && decide (b.rbase < a.rbase + a.rlen)

/-- ACQ_ARM (R288, R290, R291, R295, R296). -/
def acqArmReply (e : Nat) (s : State) : Reply :=
  if 16 ≤ e then .bad s 0
  else
    let k := s.engine e
    if k.armed then .busy s
    else match [5, 4, inDom e].find? (fun d => !s.isOn d) with
      | some d => .no s stInvalid (.domain d)
      | none =>
        let others := s.engines.filter fun x => x.1 != e && x.2.armed
        if s.testing 5 || s.testing (inDom e) then .busy s
        else if (acqRange k.set).isSome || !s.magOk e k.set || !(s.ring k.set.ring).dev then .bad s 0
        else if others.any fun x => ringsMeet k.set x.2.lat then .bad s 0
        else if (let t := (others.map fun x => s.bandwidth x.1 x.2.lat).foldl addRatio (s.bandwidth e k.set); decide (40000 * t.2 < t.1)) then .busy s
        else
          let k := { k with lat := k.set, seg := 0 }
          { s := s.setEngine e (if k.set.armsrc = 1 then { k with st := .primed, writing := false, writeAt := none } else k.fill s.now) }

def execAcqArm (h : Hdr) (engine : Nat) (s : State) : Host.Outcome State Fault Refusal :=
  .next (command h 0x39 4 [.ready, .run, .service] (acqArmReply engine) s)

/-- ACQ_DISARM (R300): a capture in progress keeps the samples that have been written. -/
def acqDisarmReply (e : Nat) (s : State) : Reply :=
  if 16 ≤ e then .bad s 0
  else
    let k := s.engine e
    if !k.armed then { s }
    else
      let s := match k.st, k.trig with
        | .capturing, some t =>
          let n := Nat.min k.lat.post (k.count - t.idx)
          capRecord e 1 (s.capFlags e (t.idx + n) + 8) (k.startPos t) (k.lat.pre + n) s
        | _, _ => s
      { s := s.modEngine e Engine.drop }

def execAcqDisarm (h : Hdr) (engine : Nat) (s : State) : Host.Outcome State Fault Refusal :=
  .next (command h 0x3A 4 anyMode (acqDisarmReply engine) s)

/-! ### The events -/

/-- A clocked consumer's flag is present: it was latched before the start of a word that has begun (R272). Answers the first
tick of that word. -/
def State.present (s : State) (x : Nat) : Option Nat :=
  match s.latchTick x with
  | some t => if (t / 16 + 1) * 16 ≤ s.now then some ((t / 16 + 1) * 16) else none
  | none => none

/-- ARM_EVENT (R272, R296): a PRIMED engine finds its arm flag. -/
def execArmEvent (e : Fin 16) (s : State) : Host.Outcome State Fault Refusal :=
  .next (let x := s.ep 8 e.val 1
    if (s.engine e.val).st = .primed && (s.present x).isSome then beginFill e.val (consume x s) else s)

/-- WRITING_BEGINS (R296). -/
def execWritingBegins (e : Fin 16) (s : State) : Host.Outcome State Fault Refusal :=
  .next (let k := s.engine e.val
    if k.st = .filling && !k.writing then engineDue e.val s.now s else s)

/-- PRE_TRIGGER_FULL (R296): PRE samples of the present segment are written. -/
def execPreTriggerFull (e : Fin 16) (s : State) : Host.Outcome State Fault Refusal :=
  .next (let k := s.engine e.val
    if k.st = .filling && k.writing then engineDue e.val s.now s else s)

/-- REARM_END (R298): 64 words have passed and the record has its slot. -/
def execRearmEnd (e : Fin 16) (s : State) : Host.Outcome State Fault Refusal :=
  .next (if (s.engine e.val).st = .rearming then engineDue e.val s.now s else s)

end Sys2Proof.Machine
end

