-- ==== Sys2Proof/Machine/Chains.lean ====
section
/-! DEFINITION. NCO phases (R152–R155, R216) and the read-out chain of one tone (R209–R230): fine DDC, decimator, FIR
filter, resampler, as functions of one input at a time. -/

namespace Sys2Proof.Machine

/-- Keep the newest `n` of a history; one of zeros alone is kept as nothing. -/
def push {α : Type} [DecidableEq α] (n : Nat) (zero x : α) (l : List α) : List α :=
  if x = zero && l.all (· == zero) then [] else (x :: l).take n

/-! ### Tracks -/

/-- Ticks since the alignment epoch. -/
def sinceE (s : State) (t : Nat) : Int := (t : Int) - (s.epoch : Int)

/-- The limit of the effective fine word: 1 GHz (R153). -/
def ftwLimit : Nat := 112589990684262

def clampF (f : Int) : Int := max (-(ftwLimit : Int)) (min (ftwLimit : Int) f)

/-- The track of a tone at a tick, in 2^-51 turn (R154): coherent mode keeps it a function of E. -/
def trackAt (s : State) (t : Tone) (tick : Int) : Int :=
  if t.cont then (t.track + clampF t.ftw * (tick - (t.trackAt : Int))) % 2251799813685248
  else (clampF t.ftw * (tick - (s.epoch : Int))) % 2251799813685248

/-- Set FTWf or the phase mode at a tick; in continuous mode the track carries on (R154). -/
def setTrack (tick : Nat) (ftw : Int) (cont : Bool) (t : Nat) (s : State) : State :=
  s.modTone t fun n => { n with track := trackAt s n (tick : Int), trackAt := tick, ftw, cont }

/-- Ticks from the ball sample at the centre of stage A2's filter to the sample's leaving stage A (R212). -/
def stageA : Nat := 480

/-- The settings of a read-out tone change at a tick: samples of earlier ticks still need those of before (R216). -/
def keepTone (tick t : Nat) (s : State) : State :=
  if t < 0x1000 then s
  else s.modTone t fun n =>
    { n with past := ({ till := tick, ftw := n.ftw, phase := n.phase, cont := n.cont, track := n.track, trackAt := n.trackAt } : TonePast)
        :: n.past.filter fun e => decide ((s.acqPort ((t - 0x1000) / 16)).conv < e.till + stageA) }

/-- A tone with the settings it had at a tick. -/
def Tone.atTick (n : Tone) (tick : Int) : Tone :=
  match n.past.reverse.find? fun e => decide (tick < (e.till : Int)) with
  | some e => { n with ftw := e.ftw, phase := e.phase, cont := e.cont, track := e.track, trackAt := e.trackAt }
  | none => n

/-- θc of a port at a tick (R154), in 2^-48 turn. -/
def State.thetaC (s : State) (center : Nat) (tick : Nat) : Int := ((center : Int) * sinceE s tick) % 281474976710656

/-! ### The phasor (R216)

Both components come from the cosine of a multiple of 2π / 2^20, summed as a power series in units of 2^-96. The
error of the sum is below 2^-80, and no such cosine lies within 2^-40 of a half of 2^-17, so every rounding is exact. -/

/-- π in units of 2^-96. -/
def pi96 : Nat := 248902613312231085230521944622

/-- `n` more terms of the cosine series: x² and the present term in units of 2^-96, the term's index. -/
def cosTerms (x2 : Int) : Nat → Nat → Int → Int → Int
  | 0, _, _, acc => acc
  | n + 1, j, t, acc =>
    let t := -(t * x2 / 79228162514264337593543950336 / (((2 * j + 1) * (2 * j + 2) : Nat) : Int))
    cosTerms x2 n (j + 1) t (acc + t)

/-- cos(2π r / 2^20) in Q1.17, r from 0 to 2^18, rounded half up. -/
def cosQuarter (r : Nat) : Int :=
  let x := pi96 * 2 * r / 2 ^ 20
  let c := cosTerms ((x * x / 2 ^ 96 : Nat) : Int) 16 0 (2 ^ 96) (2 ^ 96)
  (c + 2 ^ 78) / 2 ^ 79

/-- cos(2π k / 2^20) in Q1.17, a component that would be 2^17 held at 131,071. -/
def cosQ (k : Nat) : Int :=
  let r := k % 2 ^ 18
  match k / 2 ^ 18 % 4 with
  | 0 => min 131071 (cosQuarter r)
  | 1 => -(cosQuarter (2 ^ 18 - r))
  | 2 => -(cosQuarter r)
  | _ => min 131071 (cosQuarter (2 ^ 18 - r))

/-- exp(−j·2πφ) for a phase in 2^-51 turn: the 20 most significant bits, rounded half up. -/
def phasor (phi : Int) : Int × Int :=
  let k := low 20 ((phi + 1073741824) / 2147483648)
  (cosQ k, cosQ (k + 2 ^ 18))

/-! ### Stages -/

/-- Narrow to Q1.15 (R73). -/
def q15 (x : Int) (s : Nat) : Int × Bool := narrow x s (-32768) 32767

/-- How many of two components saturated. -/
def satCount (a b : Bool) : Nat := a.toNat + b.toNat

/-- Stage B1: the components, and how many saturated. -/
def mixTone (p : Int × Int) (i q : Int) : Int × Int × Nat :=
  let (a, x) := q15 (i * p.1 - q * p.2) 17
  let (b, y) := q15 (i * p.2 + q * p.1) 17
  (a, b, satCount x y)

/-- Stage B2, the integrators (R217): marks tell a saturated input. -/
def Chain.integrate (c : Chain) (i q : Int) (mark : Bool) : Chain :=
  let h : Word × Word × Bool := match c.hist with | e :: _ => e | [] => (0, 0, false)
  { c with hist := ((h.1 + BitVec.ofInt 32 i, h.2.1 + BitVec.ofInt 32 q, mark) :: c.hist).take 4097 }

/-- Stage B2, the comb: one output from the newest input. -/
def Chain.comb (c : Chain) (set : RoSet) : Int × Int × Nat × Bool :=
  let new : Word × Word × Bool := c.hist.getD 0 (0, 0, false)
  let old : Word × Word × Bool := c.hist.getD set.mal (0, 0, false)
  let (i, x) := q15 (new.1 - old.1).toInt set.mash
  let (q, y) := q15 (new.2.1 - old.2.1).toInt set.mash
  (i, q, satCount x y, x || y || (c.hist.take set.mal).any fun e => e.2.2)

/-- Stage B3: the filter over the delay line. -/
def firSum (f : Fir) : Nat → List (Int × Int × Bool) → Int × Int
  | _, [] => (0, 0)
  | k, (i, q, _) :: rest =>
    let r := firSum f (k + 1) rest
    (tget 0 f.c k * i + r.1, tget 0 f.c k * q + r.2)

/-- One FIR output: ordinal and label of its newest input, its own label, components, marks. -/
structure FirOut where
  n : Nat
  label : Int
  i : Int
  q : Int
  fill : Bool
  sat : Bool
  swap : Bool

/-- What fixes a chain beside its settings: the epoch, ticks from input to input, how many inputs the stage before
reaches back, the delay of that stage. -/
structure Grid where
  epoch : Nat
  period : Nat
  back : Nat
  delay : Nat

def toneGrid (e : Nat) : Grid := { epoch := e, period := 8, back := 0, delay := 0 }
def stipGrid (e : Nat) : Grid := { epoch := e, period := 4096, back := 16, delay := 32764 }

/-- The tick of input n, as the stage before delivers it. -/
def Grid.tick (g : Grid) (n : Int) : Int := (g.epoch : Int) + (g.period : Int) * n

/-- G (R226). -/
def Grid.group (g : Grid) (set : RoSet) (f : Fir) : Nat :=
  if g.period = 8 then 4 * (set.mal - 1) + (f.gd16 * set.mad + 1) / 2
  else g.delay + 2048 * (set.mal - 1) + 256 * f.gd16 * set.mad

/-- The FIR bank with which the output of input n is computed (R225). -/
def RoTone.firOf (r : RoTone) (g : Grid) (n : Nat) : Fir :=
  let use := if g.tick n < (r.firAt : Int) then 1 - r.firUse else r.firUse
  if use = 0 then r.fir0 else r.fir1

/-- An output of input n depends on an input in a marked range (R236). -/
def Grid.filled (g : Grid) (fills : List (Nat × Nat)) (set : RoSet) (n : Nat) : Bool :=
  let lo := g.tick ((n : Int) - ((63 * set.mad + (set.mal - 1) + g.back : Nat) : Int))
  fills.any fun e => decide (lo < (e.2 : Int)) && decide ((e.1 : Int) ≤ g.tick n)

/-- One input of a chain with its saturation mark, mixed by a phasor. Answers the chain, the FIR output it forms, and
saturations. -/
def chainIn (r : RoTone) (g : Grid) (fills : List (Nat × Nat)) (p : Int × Int) (i q : Int) (mark : Bool) (c : Chain) :
    Chain × Option FirOut × Nat :=
  let (a, b, k1) := mixTone p i q
  let n := c.n
  let c := { c.integrate a b (decide (0 < k1) || mark) with n := n + 1 }
  if n % r.set.mad ≠ 0 then (c, none, k1)
  else
    let (u, v, k2, mark) := c.comb r.set
    let dly := ((u, v, mark) :: c.dly).take 64
    let f := r.firOf g n
    let (x, y) := firSum f 0 dly
    let (x, sx) := q15 x 16
    let (y, sy) := q15 y 16
    let swap := c.swapMark && decide ((r.firAt : Int) ≤ g.tick n)
    let o : FirOut :=
      { n, label := g.tick n - (g.group r.set f : Int), i := x, q := y, fill := g.filled fills r.set n
        sat := sx || sy || dly.any fun e => e.2.2, swap }
    ({ c with dly, swapMark := c.swapMark && !swap, outs := ((x, y, bit o.fill 0 + bit o.sat 2) :: c.outs).take 8 },
     some o, k1 + k2 + satCount sx sy)

/-! ### The resampler (R229, R230) -/

/-- One output of stage B4: its label in ticks and in 2^-32 tick, components, marks (bits 0 and 2), saturations. -/
structure StreamOut where
  tick : Int
  frac : Nat
  i : Int
  q : Int
  marks : Nat
  sats : Nat

/-- What stage B4 makes of FIR output k; with STEP 0 the output itself. -/
def resample (r : RoTone) (g : Grid) (c : Chain) (o : FirOut) : Option StreamOut :=
  let marks := bit o.fill 0 + bit o.sat 2
  let step := r.set.step
  let k := o.n / r.set.mad
  if step = 0 then some { tick := o.label, frac := 0, i := o.i, q := o.q, marks, sats := 0 }
  else
    let j := k * step / 2 ^ 32
    let x := g.period * r.set.mad * j * 2 ^ 64 / step
    let t := g.tick 0 - (g.group r.set (r.firOf g o.n) : Int) + ((x / 2 ^ 32 : Nat) : Int)
    if k = 0 then some { tick := t, frac := x % 2 ^ 32, i := o.i, q := o.q, marks, sats := 0 }
    else if j = (k - 1) * step / 2 ^ 32 then none
    else
      let a := (k - 1) * step % 2 ^ 32
      let mu := ((2 ^ 32 - a) * 131072 + step) / (2 * step)
      let (i, x1) := q15 (Config.interp (c.outs.map fun e => e.1) (mu / 1024) (mu % 1024)) 0
      let (q, x2) := q15 (Config.interp (c.outs.map fun e => e.2.1) (mu / 1024) (mu % 1024)) 0
      let any (b : Nat) : Bool := c.outs.any fun e => e.2.2.testBit b
      some { tick := t, frac := x % 2 ^ 32, i, q, sats := satCount x1 x2
             marks := bit (any 0) 0 + bit (any 2 || x1 || x2) 2 }

/-! ### Clearing chains (R236) -/

/-- A chain with no history, at the sample count it would hold had it run since E. -/
def Chain.start (now epoch period : Nat) (c : Chain) : Chain :=
  { overrun := c.overrun, n := (now + period - 1 - epoch) / period }

/-- The chain of input k: one that did not run up to it starts with it, and one that has lost it waits. -/
def Chain.due (c : Chain) (k : Nat) : Option Chain :=
  if c.n < k then some { overrun := c.overrun, n := k } else if c.n = k then some c else none

/-- The chains of a port's tones start afresh; the stipple tones listed too. -/
def eachChain (f : Nat → Chain → Chain) (nn : Nat) (s : State) : State :=
  let s := each (fun k s => s.modRot (nn * 16 + k) fun r => { r with chain := f 8 r.chain }) (List.range 16) s
  { s with stipChains := tmap {} (fun j c => if j / 128 = nn then f 4096 c else c) s.stipChains }

/-- The chain state of a port is cleared as its domain wakes: outputs whose inputs reach back before now are marked. -/
def clearChains (nn : Nat) (s : State) : State :=
  (eachChain (fun p c => c.start s.now s.epoch p) nn s).modAcqPort nn fun a =>
    { a with conv := s.now, codes := [], mixed := [], a2 := [], fills := [(0, s.now)] }

/-- The inputs of an acquisition port are marked from now on, or no longer (R236, R499). Ranges that no output reaches any
more go. -/
def markFill (nn : Nat) (start : Bool) (s : State) : State :=
  s.modAcqPort nn fun a => { a with
    fills :=
      if start then (s.now, 2 ^ 64) :: a.fills.filter (fun e => decide (s.now < e.2 + 2 ^ 31))
      else a.fills.map (fun e => if e.2 = 2 ^ 64 then (e.1, s.now) else e) }

def startTone (i : Nat) (s : State) : State :=
  s.modRot i fun r => { r with chain := r.chain.start s.now s.epoch 8 }

def startStip (nn t : Nat) (s : State) : State :=
  s.modStipChain (nn * 128 + t) fun c => c.start s.now s.epoch 4096

end Sys2Proof.Machine
end

