-- ==== Sys2Proof/Machine/Crc.lean ====
section
/-! DEFINITION. The check word of R502, and little-endian fields of a run of bytes. -/

namespace Sys2Proof.Machine

/-- One bit of the reflected division by 0x1EDC_6F41 (R502). -/
def crcBit (c : Nat) : Nat := if c % 2 = 1 then (c / 2) ^^^ 0x82F63B78 else c / 2

/-- One byte, its low bit first. -/
def crcByte (c : Nat) (b : Byte) : Nat := (List.range 8).foldl (fun c _ => crcBit c) (c ^^^ b.toNat)

/-- The CRC-32C of bytes in order (R502): initial value and final exclusive-or all ones. -/
def crc32c (l : List Byte) : Nat := (l.foldl crcByte 0xFFFFFFFF) ^^^ 0xFFFFFFFF

/-- The bytes from an offset. -/
def slice (l : List Byte) (off n : Nat) : List Byte := (l.drop off).take n

/-- The little-endian field at an offset. -/
def field (l : List Byte) (off n : Nat) : Nat := unle (slice l off n)

/-- Every byte of a run is 0. -/
def zeros (l : List Byte) : Bool := l.all (· == 0)

/-- The last four bytes of `n + 4` are the check word of those before (R503, R538, R541). -/
def checked (l : List Byte) (n : Nat) : Bool := l.length == n + 4 && field l n 4 == crc32c (l.take n)

end Sys2Proof.Machine
end

