-- ==== Sys2Proof/Machine/Doubt.lean ====
section
/-! DEFINITION. Stopping roots, doubts of plate and device scope, and entry to SAFE (R30, R31, R52,
R142, R144–R147, R508–R514, R520). -/

namespace Sys2Proof.Machine

/-! ### Stopping a root -/

/-- A burin stops where it stands (R114, R520): its waits end, nothing is written, its null entries
and held start events go. -/
def haltBurin (b : Nat) (s : State) : State :=
  s.modBurin b fun r =>
    { r with running := false, waiting := none, hold := none, held := [], nulls := [], micro := {} }

/-- HOSTMUTE settings and marker settings that wait for a shot of a root, which has passed its boundary or stopped, and
for no other root, take effect (R37). -/
def boundaryPass (key : Nat) (ord : Option Nat) (s : State) : State :=
  mrkPass key ord { s with ports := tmap {} (fun _ p =>
    let l := passWaits key ord p.hostmutePend
    if p.hostmutePend = [] then p
    else if l = [] then { p with hostmute := true, hostmutePend := [], unmuted := false } else { p with hostmutePend := l }) s.ports }

/-- Effects that wait for a shot boundary of a root act at once when it stops (R37). -/
def pendingNow (key : Nat) (s : State) : State := boundaryPass key none s

/-- The shots of a root that are in progress end with a gap record, and the unstarted ones are
cancelled (R254, R520). -/
def gapShots (key reason : Nat) (unf : List Nat) (s : State) : State :=
  let s := match unf with
    | [] => s
    | n :: l => postGap key reason (l.foldl Nat.min n) (l.foldl Nat.max n - l.foldl Nat.min n + 1) s
  cancelUnstarted key s

/-- The devices that await the stop of a root on this one hear of it (R142). -/
def tellStopped (key : Nat) (s : State) : State :=
  each (fun d s => tell d (.stopped (s.rootAddr key)) s) (s.root key).askers (s.modRoot key fun r => { r with askers := [] })

/-- A root stops at this moment, for a doubt (reason 2) or an abort (reason 3). -/
def stopRoot (key reason : Nat) (flag : Bool) (s : State) : State :=
  let unf := s.unfinished key
  let s := each haltBurin (s.rootBurins key) s
  let s := gapShots key reason unf s
  let s := pendingNow key (swapsNow key s)
  let s := safeRoot key flag s
  tellStopped key (s.modRoot key fun r => { r with running := false, stopAt := none, cur := none, due := [], remoteWait := [] })

/-- A root whose stop boundary is fixed has stopped once every burin has ended (R142): its shots
before the boundary have all started and reached END. -/
def checkStopped (key : Nat) (s : State) : State :=
  if s.stopping key && decide ((s.root key).series = []) && decide (s.unfinished key = [])
      && decide ((s.root key).remoteWait = []) then
    let s := flush key s
    let s := elemsRoot key (pendingNow key s)
    tellStopped key (s.modRoot key fun r => { r with running := false, stopAt := none })
  else s

/-! ### Fault records (R512) -/

/-- A doubt is entered in a fault record: the first in full, later ones counted. -/
def FaultRec.note (r : FaultRec) (code tick origin : Nat) (detail : List Byte) (remote : Bool) : FaultRec :=
  if r.codes = [] then
    { codes := [code], code, tick, origin, detail, remoteFirst := remote }
  else
    { r with
      codes := if r.codes.contains code then r.codes else r.codes ++ [code]
      later := if remote then r.later else r.later.bump
      remote := if remote then r.remote.bump else r.remote }

/-- A doubt message to every other device of a root (R145); relays forward it by its destination (R381). -/
def sendDoubt (key : Nat) (s : State) : State :=
  each (fun d s => sendTo d 0 (.doubt d (s.rootAddr key)) s) (s.remoteDevs key) s

/-- The doubt report to the home device of a root of another device (R514). -/
def reportDoubt (key code : Nat) (detail : List Byte) (s : State) : State :=
  if key < 2 ^ 32 then s
  else tell (deviceOf (key - 2 ^ 32)) (.doubtReport (key - 2 ^ 32) code s.coarse detail) s

/-- A doubt of plate scope of a root, detected on this device (R30, R144). -/
def doubtPlate (key code : Nat) (detail : List Byte) (s : State) : State :=
  let s := s.modFault key fun r => r.note code s.coarse s.sys.devnum detail false
  let s := reportDoubt key code detail (sendDoubt key (setSum 1 s))
  pump (stopRoot key 2 true s)

/-- A calibration run of an instance is abandoned (R498): measuring ends with nothing applied, a trim with the
values of before it. -/
def CalInst.abandon (c : CalInst) : CalInst :=
  if c.st = 3 then { c with st := 0, vals := c.saved, abandoned := c.abandoned.bump }
  else if c.st = 1 then { c with st := if c.ramp.isSome then 2 else 0, abandoned := c.abandoned.bump }
  else c

/-- On entry to SAFE every run and trim is abandoned (R35, R498, R500), and their CAL_RUNs end with FAULT. -/
def abandonTrims (s : State) : State :=
  let s := each (fun i s => markFill i false s) ((List.range 16).filter fun i => decide ((tget {} s.calib.inst i).st = 3)) s
  let s := { s with
    calib := { s.calib with inst := tmap {} (fun _ c => c.abandon) s.calib.inst, trimQ := [] }
    ports := tmap {} (fun _ p => { p with trim := false }) s.ports
    zch := tmap {} (fun _ z => { z with preTrim := none }) s.zch }
  decideFlights (fun f => match f.wait with | .cal sc _ => decide (f.opcode = 0x48) && decide (sc ≠ 2) | _ => false)
    stFault (fun _ => 0) .doubt s

/-- Proof runs in progress are abandoned by a device-scope doubt (R518). -/
def abandonProofs (s : State) : State :=
  let parts := s.proofs.filterMap fun e => if e.2.active then e.2.home.map fun d => (d, e.2.id) else none
  let s := { s with
    proofs := tmap {} (fun _ p => if p.active then { p with abandoned := true } else p) s.proofs, joins := [] }
  let s := each (fun e s => tell e.1 (.proofResult e.2 none) s) parts s
  decideFlights (fun f => match f.wait with | .proof _ => true | _ => false) stFault (fun _ => 0) .doubt s

/-- The roots that span devices and have a part on this one: those of its plates, and those above its SHADOWs. -/
def State.spanRoots (s : State) : List Nat :=
  (s.plates.filterMap fun e =>
    let key := if e.2.st = .shadow then s.keyOf e.2.rootAddr else 0x1000 + e.1
    if e.2.st = .shadow || (e.2.st != .free && (s.cell (0x1000 + e.1)).parent.isNone && s.spans key) then some key else none).dedup

/-- A device in SAFE, or entering it, sends a doubt message for every spanning root with a burin on it (R145). -/
def doubtsInSafe (s : State) : State :=
  each sendDoubt (s.spanRoots.filter fun k => decide (s.rootBurins k ≠ [])) s

/-- Enter SAFE (R31): every cell stops, unstarted shots are cancelled, outputs go to their safe
levels, a MODE_SET in progress ends with FAULT (R518). -/
def enterSafe (s : State) : State :=
  let roots := s.runningRoots
  let s := each (fun k s => stopRoot k 2 true s) roots (doubtsInSafe s)
  let s := abandonProofs (abandonTrims (safeDevice s))
  let s := decideFlights (fun f => decide (f.opcode = 0x52) && decide (f.wait ≠ .nothing)) stFault (fun _ => 0) .doubt s
  pump (setMode .safe s)

/-- A doubt of device scope (R30): in BOOT it latches and drives the safe state; else SAFE. -/
def doubtDevice (code : Nat) (detail : List Byte) (s : State) : State :=
  let s := { s with devFault := s.devFault.note code s.coarse s.sys.devnum detail false }
  let s := setSum 0 s
  if s.sys.mode = .boot then safeDevice s
  else if s.sys.mode = .safe then safeDevice (doubtsInSafe s)
  else enterSafe s

/-- A doubt that concerns a burin acts on its root (R144); a burin of no plate is its own (R30). -/
def doubtBurin (b code : Nat) (detail : List Byte) (s : State) : State :=
  doubtPlate (s.rootOf b) code detail s

end Sys2Proof.Machine
end

