-- ==== Sys2Proof/Machine/CalOps.lean ====
section
/-! DEFINITION. Calibration's shared operations (R486, R488–R507): instances, measuring, ramps, trims, the
store, centroid tracking. -/

namespace Sys2Proof.Machine

def State.calI (s : State) (i : Nat) : CalInst := tget {} s.calib.inst i
def State.modCal (s : State) (i : Nat) (f : CalInst → CalInst) : State :=
  { s with calib := { s.calib with inst := tset {} s.calib.inst i (f (s.calI i)) } }
def State.cent (s : State) (b : Nat) : CentTrack := tget {} s.calib.track b
def State.setCent (s : State) (b : Nat) (t : CentTrack) : State :=
  { s with calib := { s.calib with track := tset {} s.calib.track b t } }

/-! ### Scopes and instances (R488, R501) -/

/-- Default settings of a scope (R495). -/
def scopeDefault (code : Nat) : CalScope := { auto := code == 1 || code == 3 }

def State.scope (s : State) (code : Nat) : CalScope := tget (scopeDefault code) s.calib.scopes code

def scopeOk (code : Nat) : Bool := [1, 2, 3, 0x11, 0x12, 0x13].contains code

def analogue (code : Nat) : Bool := decide (0x11 ≤ code)

/-- The instance of a target, where the target is listed for the scope. -/
def instOf (scope target : Nat) : Option Nat :=
  if scope = 1 || scope = 0x11 then
    if 0x300 ≤ target && decide (target < 0x310) then some (target - 0x300) else none
  else if scope = 0x12 then
    if target < 0x20 then some (16 + target)
    else if 0x100 ≤ target && decide (target < 0x110) then some (48 + (target - 0x100)) else none
  else if scope = 3 || scope = 0x13 then
    if 0x200 ≤ target && decide (target < 0x204) then some (64 + (target - 0x200)) else none
  else none

/-- Every instance of a scope. -/
def scopeInsts (scope : Nat) : List Nat :=
  if scope = 1 || scope = 0x11 then List.range 16
  else if scope = 0x12 then (List.range 48).map (16 + ·)
  else if scope = 3 || scope = 0x13 then (List.range 4).map (64 + ·) else []

/-- The instances that a command names. -/
def namedInsts (scope target : Nat) : List Nat :=
  if target = 0xFFFFFFFF then scopeInsts scope else (instOf scope target).toList

/-- The domain whose node an instance follows (R488). -/
def instDom (i : Nat) : Nat :=
  if i < 16 then inDom i else if i < 48 then outDom (i - 16) else if i < 64 then outDom (0x100 + (i - 48)) else 20 + (i - 64)

/-- The port number of a DAC instance. -/
def instPort (i : Nat) : Nat := if i < 48 then i - 16 else 0x100 + (i - 48)

/-- A resource belongs to an instance. -/
def instRes (i res : Nat) : Bool :=
  if i < 16 then (decide (0x1000 ≤ res) && decide (res < 0x2000) && (res - 0x1000) / 16 == i) || res == 0x3000 + i
  else if i < 64 then decide (res < 0x2000) && tonePort res == instPort i
  else decide (0x2000 ≤ res) && decide (res < 0x3000) && (res - 0x2000) / 64 == i - 64

/-- A running cell owns a resource of the instance (R35, R489). -/
def State.instUsed (s : State) (i : Nat) : Bool :=
  s.runningRoots.any fun k => (s.rootRes k).any (instRes i)

/-- Model Tj of a node in 1/16 °C, halves up (log 61). -/
def State.tj16 (s : State) (n : Nat) : Int := ((tget {} s.house.nodes n).t + 2048) / 4096

/-- A node lies in the write window (R486). -/
def State.nodeOpen (s : State) (n : Nat) : Bool :=
  let x := tget {} s.house.nodes n
  !x.failed && decide (0 ≤ x.t) && decide (x.t ≤ 85 * 65536)

/-- The write window of an instance (R486). -/
def State.windowOpen (s : State) (i : Nat) : Bool := s.nodeOpen 1 && s.nodeOpen (instDom i)

/-- A value in force: the start of the corrections and the difference. -/
def calValue (i : Nat) (v : CalVals) (k : Nat) : Int :=
  (if v.fact then Config.factoryCal i k else 0) + tget 0 v.dev k

/-- The code that the ladder receives for a requested code (R491). -/
def State.ladderCode (s : State) (z code : Nat) : Nat :=
  let c := calValue (64 + z / 64) (s.calI (64 + z / 64)).vals (64 * (z % 64) + code / 4096)
  (max 0 (min 262143 ((code : Int) + (c + 8) / 16))).toNat

/-! ### Completion of CAL_RUN and CAL_COMMIT -/

/-- Burins that a CENTROID target names. -/
def State.centBurins (s : State) (target : Nat) : List Nat :=
  (if target = 0xFFFFFFFF then tkeys s.burins else s.burinsOf target).filter fun b => (s.burin b).ctab.isSome

/-- What a calibration command waits for has ended (R493, R499). -/
def State.calDone (s : State) (opcode scope target : Nat) : Bool :=
  if opcode = 0x49 then (namedInsts scope target).all fun i => !(s.calI i).commit
  else if scope = 2 then (s.centBurins target).all fun b => !(s.cent b).on || (s.scope 2).auto
  else if analogue scope then (namedInsts scope target).all fun i => !(tget [] s.calib.trimQ scope).contains i
  else (namedInsts scope target).all fun i => decide ((s.calI i).st ≠ 1)

/-- Complete every calibration command whose work has ended. -/
def settleCal (s : State) : State :=
  pump (decideFlights (fun f => match f.wait with | .cal sc t => s.calDone f.opcode sc t | _ => false)
    stOk (fun _ => 0) .doubt s)

/-- Abandon the measuring run of an instance (R498): its CAL_RUN ends with FAULT (R518). -/
def abandonRun (i : Nat) (s : State) : State :=
  if (s.calI i).st = 1 then
    pump (decideFlights (fun f => match f.wait with
        | .cal sc t => decide (f.opcode = 0x48) && !analogue sc && (namedInsts sc t).contains i
        | _ => false) stFault (fun _ => 0) .doubt (s.modCal i CalInst.abandon))
  else s

/-! ### Ramps (R496–R498) -/

/-- Step k of a ramp. -/
def rampValue (v0 vt : Int) (k r : Nat) : Int :=
  v0 + (2 * (vt - v0) * (k : Int) + (r : Int)) / (2 * (r : Int))

/-- Take one step: the values by index, and what is left of the ramp. -/
def Ramp.step (p : Ramp) : List (Nat × Int) × Option Ramp :=
  let k := p.k + 1
  (p.vals.map fun (i, v0, vt) => (i, if k = p.r then vt else rampValue v0 vt k p.r),
   if k < p.r then some { p with k } else none)

def setVals (l : List (Nat × Int)) (v : CalVals) : CalVals :=
  { v with dev := l.foldl (fun m e => tset 0 m e.1 e.2) v.dev }

/-- A new result becomes the target of a ramp from the values in force: targets by index, as differences
from the instance's start. -/
def CalInst.aim (c : CalInst) (targets : List (Nat × Int)) : CalInst :=
  { c with ramp := some { r := c.rampLen, k := 0, vals := targets.map fun (i, vt) => (i, tget 0 c.vals.dev i, vt) } }

/-- The values at the end of a ramp still running, or those in force. -/
def CalInst.target (c : CalInst) : CalVals :=
  match c.ramp with
  | some p => setVals (p.vals.map fun (i, _, vt) => (i, vt)) c.vals
  | none => c.vals

/-- A store write falls due; it is deferred while the window is closed or for 10 s after the last (R505). -/
def dueWrite (i : Nat) (s : State) : State :=
  let c := s.calI i
  let late := match c.lastWrite with | some t => decide (s.now < t + 10 * ticksPerSec) | none => false
  s.modCal i fun c => { c with writeDue := true, st := if !s.windowOpen i || late then 4 else 0 }

/-- One burnish step of an instance; the last makes its store write due. -/
def burnish (i : Nat) (s : State) : State :=
  let c := s.calI i
  match c.ramp with
  | none => s
  | some p =>
    let (l, rest) := p.step
    let s := s.modCal i fun c => { c with vals := setVals l c.vals, ramp := rest }
    if rest.isNone then (if c.st = 1 then s.modCal i fun c => { c with writeDue := true } else dueWrite i s) else s

/-- The step root of an instance (R496): of the running roots that own a resource of it, the one that owns
most, ties to the lowest cell address. -/
def State.stepRoot (s : State) (i : Nat) : Option Nat :=
  (s.runningRoots.foldl (fun best k =>
    let n := ((s.rootRes k).filter (instRes i)).length
    if n = 0 then best
    else match best with
      | some (k', n') => if n' < n || (n' == n && decide (s.rootAddr k < s.rootAddr k')) then some (k, n) else best
      | none => some (k, n)) (none : Option (Nat × Nat))).map Prod.fst

/-- Instances with a ramp. -/
def State.ramping (s : State) : List Nat := (s.calib.inst.filter fun e => e.2.ramp.isSome).map Prod.fst

/-- The steps that a shot origin of a root clocks, or with `none` the end of a slow round. -/
def burnishAll (clock : Option Nat) (s : State) : State :=
  each (fun i s => if s.stepRoot i = clock then burnish i s else s) s.ramping s

/-! ### Trims (R499, R500) -/

/-- The first trim of a scope's queue begins: its target goes out of service. -/
def beginTrim (scope : Nat) (s : State) : State :=
  match tget [] s.calib.trimQ scope with
  | [] => s
  | i :: _ =>
    let s := abandonRun i s
    let s := s.modCal i fun c => { c with st := 3, saved := c.vals, ramp := none }
    if i < 16 then disarm 3 i (markFill i true s)
    else if i < 64 then mute (instPort i) (s.modPort (instPort i) fun p => { p with trim := true })
    else each (fun z s =>
      let c := s.z z
      if c.st = .float then s else (zPark z s).modZ z fun x => { x with preTrim := some c.st }) (quadChans (i - 64)) s

/-- A trim's target returns to service. -/
def endService (i : Nat) (s : State) : State :=
  if i < 16 then markFill i false s
  else if i < 64 then s.modPort (instPort i) fun p => { p with trim := false }
  else each (fun z s =>
    let c := s.z z
    match c.preTrim with
    | none => s
    | some st =>
      let s := s.modZ z fun x => { x with preTrim := none }
      if st = .driven || st = .safePark then
        (zLoad z (if st = .safePark then c.park else c.code) s).modZ z fun x => { x with openAt := some (s.now + 40000), openTo := st }
      else s) (quadChans (i - 64)) s

/-- A trim that has begun is abandoned where it stands (R500): nothing resumes. -/
def dropService (i : Nat) (s : State) : State :=
  if i < 16 then markFill i false s
  else if i < 64 then s.modPort (instPort i) fun p => { p with trim := false }
  else each (fun z s => s.modZ z fun x => { x with preTrim := none }) (quadChans (i - 64)) s

/-- The trim of an instance, in progress or waiting, is abandoned (R498): its CAL_RUN ends with FAULT (R518). -/
def abandonTrim (i : Nat) (s : State) : State :=
  if s.calib.trimQ.any fun e => e.2.contains i then
    let s := if (s.calI i).st = 3 then dropService i (s.modCal i CalInst.abandon) else s
    let s := { s with calib := { s.calib with trimQ := tmap [] (fun _ l => l.filter (· != i)) s.calib.trimQ } }
    pump (decideFlights (fun f => match f.wait with
        | .cal sc t => decide (f.opcode = 0x48) && analogue sc && (namedInsts sc t).contains i
        | _ => false) stFault (fun _ => 0) .doubt s)
  else s

/-- The next trim of a scope begins where none is in progress. -/
def nextTrim (scope : Nat) (s : State) : State :=
  match tget [] s.calib.trimQ scope with
  | [] => s
  | i :: _ => if (s.calI i).st = 3 then s else beginTrim scope s

/-! ### The store (R501–R506) -/

/-- How many values a payload holds, and in how many bytes each: the ADC values of R490 or the ladder corrections of
R491 by index; the rules give the payload no layout (log 151). -/
def payloadForm (i : Nat) : Nat × Nat := if i < 16 then (96, 4) else if i < 64 then (0, 4) else (4096, 2)

/-- The payload of a record: the values of an instance. -/
def payload (i : Nat) (v : CalVals) : List Byte :=
  (List.range (payloadForm i).1).flatMap fun k => leI (payloadForm i).2 (calValue i v k)

/-- The record of an instance (R503). -/
def State.storeRecord (s : State) (i gen : Nat) (tj : Int) (v : CalVals) : List Byte :=
  let p := payload i v
  let body := le 2 0x0081 ++ le 2 i ++ le 4 p.length ++ le 8 gen
    ++ le 8 (if s.time.st = .unset then 0 else s.time.sec) ++ leI 2 tj ++ le 2 1 ++ pad 4 ++ p
  body ++ le 4 (crc32c body)

/-- A record is valid: type, instance and length are in rule and the check word matches (R504). -/
def recordOk (i : Nat) (img : List Byte) : Bool :=
  let len := field img 4 4
  field img 0 2 == 0x0081 && field img 2 2 == i && len % 4 == 0 && decide (len ≤ 16336) && checked (img.take (36 + len)) (32 + len)

/-- Bytes of a slot that come to hold something else. -/
def upset (l : List (Nat × Byte)) (img : List Byte) : List Byte := l.foldl (fun m e => m.set e.1 e.2) img

/-- Successive fields of one width. -/
def fields (w : Nat) : Nat → List Byte → List Nat
  | 0, _ => []
  | n + 1, l => unle (l.take w) :: fields w n (l.drop w)

/-- The values that a payload holds. -/
def payloadVals (i : Nat) (l : List Byte) : CalVals :=
  let (n, w) := payloadForm i
  { dev := ((List.range n).zip (fields w n l)).filterMap fun e =>
      let v := sgn (8 * w) e.2
      if v = 0 then none else some (e.1, v) }

/-- Load an instance from a copy (R506). -/
def CalInst.take (c : CalInst) (i : Nat) (img : List Byte) : CalInst :=
  let tj := sgn 16 (field img 24 2)
  { c with
    vals := payloadVals i (img.drop 32), tjMeas := tj, tjRun := tj, tjTrim := if c.trimmed then c.tjTrim else tj
    factory := false, none_ := false }

/-- Load an instance: the valid copy with the higher generation, else the manufacturing area, else neutral. -/
def loadInst (i : Nat) (upA upB : List (Nat × Byte)) (badF : Bool) (c : CalInst) : CalInst :=
  let imgA := upset upA c.imgA
  let imgB := upset upB c.imgB
  let genA := if recordOk i imgA then field imgA 8 8 else 0
  let genB := if recordOk i imgB then field imgB 8 8 else 0
  let c := { c with badA := !recordOk i imgA, badB := !recordOk i imgB, ramp := none, st := if c.writeDue then 4 else 0
                    genA, genB, imgA, imgB }
  if recordOk i imgA && (c.badB || decide (genB ≤ genA)) then c.take i imgA
  else if recordOk i imgB then c.take i imgB
  else if !badF then { c with vals := { fact := true }, factory := true, none_ := false }
  else { c with vals := {}, factory := false, none_ := true }

/-- What the environment says of one instance's slot. -/
def upsets (l : List (Nat × Nat × Byte)) (i : Nat) : List (Nat × Byte) := (l.filter fun e => e.1 == i).map Prod.snd

/-- The instances of a domain. -/
def domInsts (d : Nat) : List Nat := (List.range 68).filter fun i => instDom i == d

/-- A domain wakes: its instances load, except where Retention kept their values (R453, R498). -/
def calWake (d : Nat) (kept : Bool) (i : RestoreInfo) (s : State) : State :=
  if kept && (d = 18 || d = 19) then s
  else each (fun k s => s.modCal k (loadInst k (upsets i.upA k) (upsets i.upB k) (i.badF.contains k))) (domInsts d) s

/-- A domain leaves On: the runs and trims of its instances are abandoned and their ramps end (R498), and the trims
of other domains go on. An ADC instance also needs its probe port's output domain. -/
def calLeave (d : Nat) (s : State) : State :=
  let gone := (List.range 68).filter fun i => instDom i == d || (decide (i < 16) && outDom (0x100 + i) == d)
  let s := each abandonTrim gone (each abandonRun gone s)
  let s := each nextTrim [0x11, 0x12, 0x13] s
  each (fun i s => s.modCal i fun c => { c with ramp := none, st := if c.st = 2 then 0 else c.st }) (domInsts d) s

/-! ### Centroid tracking (R251, R492, R496) -/

/-- A mean rounded half up. -/
def meanHalfUp (sum : Int) (n : Nat) : Int := (2 * sum + (n : Int)) / (2 * (n : Int))

/-- The centroid word of a state. -/
def centWord (r : Burin) (a form k : Nat) : Word := tget 0 r.regs.dmem ((a + k * (1 + form)) % 4096)

/-- A result record is read for tracking. -/
def trackRecord (b : Nat) (rec_ : List Byte) (s : State) : State :=
  let t := s.cent b
  match (s.burin b).ctab with
  | none => s
  | some (a, cn, form) =>
    let pf := unle ((rec_.drop 6).take 1)
    let cls := unle ((rec_.drop 16).take 1)
    let pt := unle ((rec_.drop 24).take 4)
    if !(t.on || (s.scope 2).auto) || decide (pf / 128 % 2 = 1) || decide (pf % 64 ≠ 0) || cn ≤ cls then s
    else
      let (n, si, sq) := tget (0, 0, 0) t.sums cls
      let (n, si, sq) := (n + 1, si + sgn 16 pt, sq + sgn 16 (pt / 65536))
      if n < (s.scope 2).cwin then s.setCent b { t with sums := tset (0, 0, 0) t.sums cls (n, si, sq) }
      else
        let w := (centWord (s.burin b) a form cls).toNat
        let (mi, mq) := (meanHalfUp si n, meanHalfUp sq n)
        let far := ((s.scope 2).cdead : Int)
        let moved := decide (far < (mi - sgn 16 w).natAbs) || decide (far < (mq - sgn 16 (w / 65536)).natAbs)
        let now (k : Nat) : Int := sgn 16 ((centWord (s.burin b) a form (k / 2)).toNat / (if k % 2 = 1 then 65536 else 1))
        let old : List (Nat × Int × Int) := (match t.ramp with | some p => p.vals | none => []).filter fun e => e.1 / 2 != cls
        let vals := old.map (fun e => (e.1, now e.1, e.2.2)) ++ [(2 * cls, now (2 * cls), mi), (2 * cls + 1, now (2 * cls + 1), mq)]
        let got := if t.got.contains cls then t.got else t.got ++ [cls]
        let whole := decide (cn ≤ got.length)
        let r := if t.on then t.rampLen else (s.scope 2).ramp
        let t := { t with
          sums := tset (0, 0, 0) t.sums cls (0, 0, 0)
          ramp := if moved then some { r, k := 0, vals } else t.ramp
          got := if whole then [] else got, on := t.on && !whole, runs := if whole then t.runs.bump else t.runs }
        settleCal (s.setCent b t)

end Sys2Proof.Machine
end

