-- ==== Sys2Proof/Machine/Flags.lean ====
section
/-! DEFINITION. A burin's registers and flags (R69–R76, R94): reading and writing registers, narrowing
stores, SAT, and the accumulators with OVG and the overflowed mark. -/

namespace Sys2Proof.Machine

/-! ### Registers -/

def gr (r : Regs) (k : Nat) : Word := tget 0 r.g k
def setG (k : Nat) (v : Word) (r : Regs) : Regs := { r with g := tset 0 r.g k v }
def pr (r : Regs) (k : Nat) : Ptr := tget 0 r.p k
def setP (k : Nat) (v : Ptr) (r : Regs) : Regs := { r with p := tset 0 r.p k v }
def mr (r : Regs) (k : Nat) : Off := tget 0 r.m k
def setM (k : Nat) (v : Off) (r : Regs) : Regs := { r with m := tset 0 r.m k v }
def acc (r : Regs) (k : Nat) : Int := (tget 0 r.acc k).toInt
def dm (r : Regs) (a : Nat) : Word := tget 0 r.dmem (a % 4096)
def setDm (a : Nat) (v : Word) (r : Regs) : Regs := { r with dmem := tset 0 r.dmem (a % 4096) v }

/-- The pair gn:gn+1, gn the low half (R71). -/
def pair (r : Regs) (k : Nat) : BitVec 64 := gr r (k + 1) ++ gr r k

def setPair (k : Nat) (v : BitVec 64) (r : Regs) : Regs :=
  setG (k + 1) (v.extractLsb' 32 32) (setG k (v.extractLsb' 0 32) r)

/-! ### Flags (R94) -/

/-- Set the sticky SAT flag where something saturated. -/
def satIf (b : Bool) (r : Regs) : Regs := if b then { r with flags := r.flags ||| 16#32 } else r

/-- Set the sticky OVG flag of an accumulator. -/
def ovgSet (k : Nat) (r : Regs) : Regs := { r with flags := r.flags ||| BitVec.ofNat 32 (2 ^ k) }

/-- OVG bits that a change of FLAGS has set (R76). -/
def ovgNew (old new : Word) : Nat := ((List.range 4).filter fun k => new.getLsbD k && !old.getLsbD k).length

/-! ### Complex samples (R72) -/

def cI (w : Word) : Int := (w.extractLsb' 0 16).toInt
def cQ (w : Word) : Int := (w.extractLsb' 16 16).toInt
def cpx (i q : Int) : Word := BitVec.ofInt 16 q ++ BitVec.ofInt 16 i

/-- Narrow both components to 16 bits into a register, setting SAT (R73). -/
def setCpx (k : Nat) (i q : Int) (s : Nat) (r : Regs) : Regs :=
  let a := narrow i s (-32768) 32767
  let b := narrow q s (-32768) 32767
  satIf (a.2 || b.2) (setG k (cpx a.1 b.1) r)

/-- Narrow an exact value to an unsigned 32-bit word, setting SAT. -/
def narrowU (x : Int) (s : Nat) : Word × Bool :=
  let a := narrow x s 0 4294967295
  (BitVec.ofInt 32 a.1, a.2)

/-- Narrow an exact value to a signed 32-bit word. -/
def narrowS (x : Int) (s : Nat) : Word × Bool :=
  let a := narrow x s (-2147483648) 2147483647
  (BitVec.ofInt 32 a.1, a.2)

/-! ### Accumulators (R74, R75) -/

def accMax : Int := 2 ^ 47 - 1
def accMin : Int := -(2 ^ 47)

def overd (r : Regs) (k : Nat) : Bool := tget false r.ovd k

/-- Put the exact result of an accumulator operation: outside 48 bits it clamps, sets OVG and marks. -/
def accPut (k : Nat) (x : Int) (r : Regs) : Regs :=
  if x > accMax then
    ovgSet k { r with acc := tset 0 r.acc k (BitVec.ofInt 48 accMax), ovd := tset false r.ovd k true }
  else if x < accMin then
    ovgSet k { r with acc := tset 0 r.acc k (BitVec.ofInt 48 accMin), ovd := tset false r.ovd k true }
  else { r with acc := tset 0 r.acc k (BitVec.ofInt 48 x) }

/-- Overwrite an accumulator, ending its overflowed mark. -/
def accLoad (k : Nat) (x : Int) (r : Regs) : Regs := accPut k x { r with ovd := tset false r.ovd k false }

/-- A narrowing store from an accumulator: the extreme while it is marked overflowed. -/
def accNarrow (r : Regs) (k s : Nat) (lo hi : Int) : Int × Bool :=
  if overd r k then (if acc r k < 0 then lo else hi, true) else narrow (acc r k) s lo hi

/-- A product into an accumulator pair: the even one takes the real part. -/
def pairAdd (p : Nat) (re im : Int) (r : Regs) : Regs :=
  let a := acc r (2 * p)
  let b := acc r (2 * p + 1)
  accPut (2 * p + 1) (b + im) (accPut (2 * p) (a + re) r)

/-- The complex product of two samples, exact, unit 2^-30. -/
def cmulRe (a b : Word) : Int := cI a * cI b - cQ a * cQ b
def cmulIm (a b : Word) : Int := cI a * cQ b + cQ a * cI b

/-- The product with an exact conjugate. -/
def cmuljRe (a b : Word) : Int := cI a * cI b + cQ a * cQ b
def cmuljIm (a b : Word) : Int := cQ a * cI b - cI a * cQ b

end Sys2Proof.Machine
end

