-- ==== Sys2Proof/Machine/Operands.lean ====
section
/-! DEFINITION. The operand forms of a burin's memory instructions (R77, R78): the address of an
operand and what it does to its pointer after the access. -/

namespace Sys2Proof.Machine

/-- A pointer moved by an offset register, modulo 4,096. -/
def bumpP (pa ma : Nat) (r : Regs) : Regs := setP pa (pr r pa + (mr r ma).setWidth 12) r

/-- The address of a memory operand. -/
def memAddr (r : Regs) (m : Mem) : Nat :=
  match m.form with
  | .plain | .post _ => (pr r m.pa.val).toNat
  | .index gx => ((pr r m.pa.val).toNat + (gr r gx.val).toNat) % 4096

/-- The pointer after the access. -/
def memPost (m : Mem) (r : Regs) : Regs :=
  match m.form with
  | .post ma => bumpP m.pa.val ma.val r
  | _ => r

/-- The address of the memory operand of CSUBM and WSQ, whose gx is an operand in every form. -/
def memXAddr (r : Regs) (gx pa : Nat) (k : MemKind) : Nat :=
  match k with
  | .index => ((pr r pa).toNat + (gr r gx).toNat) % 4096
  | _ => (pr r pa).toNat

def memXPost (pa : Nat) (k : MemKind) (r : Regs) : Regs :=
  match k with
  | .post ma => bumpP pa ma.val r
  | _ => r

/-- An optional post-modify. -/
def optPost (pa : Nat) (ma : Option MReg) (r : Regs) : Regs :=
  match ma with
  | some m => bumpP pa m.val r
  | none => r

/-- The least or greatest of n words from an address on, with its index; the lowest index wins a tie
(R86). -/
def selBest (better : Word → Word → Bool) (r : Regs) (a : Nat) : Nat → Nat → Nat × Word → Nat × Word
  | 0, _, best => best
  | n + 1, k, best =>
    let w := dm r (a + k)
    selBest better r a n (k + 1) (if better w best.2 then (k, w) else best)

def selRun (better : Word → Word → Bool) (r : Regs) (a n : Nat) : Nat × Word :=
  selBest better r a (n - 1) 1 (0, dm r a)

end Sys2Proof.Machine
end

