-- ==== Sys2Proof/Machine/Burin.lean ====
section
/-! DEFINITION. A burin's control (R79–R95, R100): instruction buffer and fetch, hardware repeats, the
issue of one instruction, placing entries, waits, records and special registers. -/

namespace Sys2Proof.Machine

/-! ### Hardware repeats (R82–R84) -/

/-- After the instruction at p has completed without a branch: the innermost level that ends there counts
first; a level that is done passes the count to the level around it. -/
def stepLoops : List Loop → Nat → List Loop × Nat
  | [], p => ([], p + 1)
  | l :: ls, p =>
    if l.last = p then
      if 1 < l.left then ({ l with left := l.left - 1 } :: ls, l.first) else stepLoops ls p
    else (l :: ls, p + 1)

/-- Go on after the instruction at p. -/
def passAt (p : Nat) (r : Regs) : Regs :=
  let n := stepLoops r.loops p
  { r with loops := n.1, pc := n.2 }

def pass (r : Regs) : Regs := passAt r.pc r

/-- A taken branch: levels whose body does not hold the target end (R84). -/
def goTo (t : Nat) (r : Regs) : Regs :=
  { r with loops := r.loops.dropWhile fun l => !(decide (l.first ≤ t) && decide (t ≤ l.last)), pc := t }

/-- Branch by a signed offset from the next instruction. -/
def branch (off : BitVec 16) (r : Regs) : Regs := goTo (low 16 (r.pc + 1 + off.toInt)) r

/-- Open a repeat level, or skip the body where the count is 0 (R82). -/
def repeatBody (count len : Nat) (r : Regs) : Regs :=
  if count = 0 then passAt (r.pc + len) r
  else { r with loops := ⟨r.pc + 1, r.pc + len, count⟩ :: r.loops, pc := r.pc + 1 }

/-! ### Instruction buffer (R79–R81, R85) -/

/-- The lines that must be resident before the instruction at pc issues: its own, and every line of an
active repeat body. -/
def Burin.needs (r : Burin) : List Nat :=
  if r.streamed then
    (r.regs.pc / 8) :: r.regs.loops.flatMap fun l =>
      (List.range (l.last / 8 - l.first / 8 + 1)).map (l.first / 8 + ·)
  else []

def Burin.ready (r : Burin) : Bool := r.needs.all r.lines.contains

/-- The next line to fetch: a missing line that is needed, else one of the 4 lines ahead of pc. -/
def Burin.nextFetch (r : Burin) : Option Nat :=
  (r.needs ++ (List.range 4).map (r.regs.pc / 8 + 1 + ·)).find? fun l =>
    !r.lines.contains l && decide (l * 8 < r.imgLen)

/-- Ask for the next line, and count an underrun once the burin waits for one (R80). -/
def fetchOn (b : Nat) (s : State) : State :=
  s.modBurin b fun r =>
    if r.streamed && r.running then
      let r := if !r.ready && !r.underrun then { r with underrun := true, underruns := r.underruns.bump }
        else { r with underrun := !r.ready }
      if r.fetching = none then { r with fetching := r.nextFetch } else r
    else r

/-- Make room for a line: of the 64 lines some line that is not needed goes, which one the spec does not
say (a free value). -/
def Burin.evict (choice : Nat) (r : Burin) : Burin :=
  let cand := r.lines.filter fun l => !r.needs.contains l
  if r.lines.length < 64 then r
  else
    let v := cand.getD (choice % cand.length) 0
    { r with lines := r.lines.filter (· != v), buf := r.buf.filter fun e => e.1 / 8 != v }

/-! ### Issue (R100) -/

/-- A burin issues the instruction at pc: it runs, waits for nothing, and the word is there. -/
def State.fetched (s : State) (b w : Nat) : Bool :=
  let r := s.burin b
  s.isOn (folioDom b) && !s.tileBad b && r.running && r.waiting.isNone && r.hold.isNone && r.ready
    && decide ((tget 0 r.buf r.regs.pc).toNat = w)

/-- Raise the OVG events of a change of FLAGS (R76). -/
def ovgEvents (b : Nat) (old : Regs) (s : State) : State :=
  let r := (s.burin b).regs
  if r.ovgctl.getLsbD 0 then
    times (raiseEp (s.ep 0 b (bits r.ovgctl.toNat 1 3))) (ovgNew old.flags r.flags) s
  else s

/-- Write registers, with the OVG events that follow. -/
def modRegs (b : Nat) (f : Regs → Regs) (s : State) : State :=
  ovgEvents b (s.burin b).regs (s.modBurin b fun r => { r with regs := f r.regs })

/-- Complete an instruction: go on to the next. -/
def finish (b : Nat) (s : State) : State := fetchOn b (modRegs b pass s)

/-! ### Entries (R43, R46, R47, R90) -/

/-- Entry credits of a queue at its burin. -/
def State.credits (s : State) (res : Nat) : Nat :=
  256 - ((s.queue res).xbar.length + (s.queue res).entries.length + (s.queue res).returning)

/-- The play-out queue of a slot, if it holds one. -/
def State.slotQueue (s : State) (b slot : Nat) : Option Nat :=
  match tget .empty (s.burin b).slots slot with
  | .owned r => if r < 0x3000 then some r else none
  | _ => none

/-- Entry credits of a slot; a slot with no owned queue has its own 256 (R90). -/
def State.slotCredits (s : State) (b slot : Nat) : Nat :=
  match s.slotQueue b slot with
  | some r => s.credits r
  | none => 256 - ((s.burin b).nulls.filter fun e => e.slot == slot).length

/-- The entry that a burin makes: its release becomes absolute by the shot's origin (R43). -/
def State.makeEntry (s : State) (b : Nat) (rel : BitVec 64) (words : List Word) : Entry :=
  let rel48 := rel.toNat % 2 ^ 48
  { release := ((s.burin b).origin + rel48 : Nat), rel48, shot := (s.burin b).shot, burin := b, words }

/-- An entry leaves the burin with a credit: into the crossbar, or to its discard (R90). -/
def launch (b slot : Nat) (e : Entry) (s : State) : State :=
  match s.slotQueue b slot with
  | some r => s.modQueue r fun q => { q with xbar := q.xbar ++ [e], lastPlaced := some e.release }
  | none => s.modBurin b fun k => { k with nulls := k.nulls ++ [{ slot, release := e.release }] }

/-! ### Waits (R89, R91, R112) -/

/-- A selector of a microword as a register: general, or a microtemp (R108). -/
def selGet (r : Burin) (w sel : Nat) : Word :=
  if sel = 0 then gr r.regs (bits w 20 4) else if sel = 1 then gr r.regs (bits w 16 4)
  else if sel = 2 then gr r.regs (bits w 12 4) else if sel = 3 then gr r.regs (bits w 9 4)
  else tget 0 r.micro.t (sel - 4)

/-- The pair at a selector. -/
def selPair (r : Burin) (w sel : Nat) : BitVec 64 :=
  if sel = 0 then pair r.regs (bits w 20 4) else if sel = 1 then pair r.regs (bits w 16 4)
  else if sel = 2 then pair r.regs (bits w 12 4) else if sel = 3 then pair r.regs (bits w 9 4)
  else tget 0 r.micro.t (sel - 3) ++ tget 0 r.micro.t (sel - 4)

def selSet (w sel : Nat) (v : Word) (r : Burin) : Burin :=
  if sel = 0 then { r with regs := setG (bits w 20 4) v r.regs }
  else if sel = 1 then { r with regs := setG (bits w 16 4) v r.regs }
  else if sel = 2 then { r with regs := setG (bits w 12 4) v r.regs }
  else if sel = 3 then { r with regs := setG (bits w 9 4) v r.regs }
  else { r with micro := { r.micro with t := tset 0 r.micro.t (sel - 4) v } }

def selSetPair (w sel : Nat) (v : BitVec 64) (r : Burin) : Burin :=
  let lo := v.extractLsb' 0 32
  let hi := v.extractLsb' 32 32
  if sel < 4 then
    let k := if sel = 0 then bits w 20 4 else if sel = 1 then bits w 16 4 else if sel = 2 then bits w 12 4 else bits w 9 4
    { r with regs := setG (k + 1) hi (setG k lo r.regs) }
  else { r with micro := { r.micro with t := tset 0 (tset 0 r.micro.t (sel - 4) lo) (sel - 3) hi } }

/-- The word at pc. -/
def Burin.word (r : Burin) : Nat := (tget 0 r.buf r.regs.pc).toNat

/-- The present tick has reached a shot time, at a word boundary (R89, R113). -/
def State.reached (s : State) (b : Nat) (rel : BitVec 64) : Bool :=
  decide (wordUp ((s.burin b).origin + rel.toNat % 2 ^ 48) ≤ s.now)

/-- The lead of a slot's queue is at most a value in ticks (R89). -/
def State.leadIs (s : State) (b slot : Nat) (g : Word) : Bool :=
  match s.slotQueue b slot with
  | some r => match (s.queue r).lastPlaced with
    | some t => decide (t - s.now ≤ g.toNat)
    | none => true
  | none => true

/-- A data output slot holds a credit; an unrouted one always does (R90). -/
def State.hasCredit (s : State) (b slot : Nat) : Bool :=
  match s.chanOfProd (s.ep 2 b slot) with
  | some ch => decide ((s.chan ch).credits ≠ 0)
  | none => true

def State.hasArrival (s : State) (b slot : Nat) : Bool := decide (s.arrivals (s.ep 3 b slot) ≠ [])

/-- What a burin waits for has come to hold. -/
def State.waitHolds (s : State) (b : Nat) (w : Wait) : Bool :=
  let r := s.burin b
  match w with
  | .evw slot => s.flagged (s.ep 1 b slot)
  | .dsend slot _ => s.hasCredit b slot
  | .drecv _ slot => s.hasArrival b slot
  | .waitt g => s.reached b (pair r.regs g)
  | .waitq slot g => s.leadIs b slot (gr r.regs g)
  | .waitc slot => s.hasCredit b slot
  | .iqrd _ => decide (r.iq ≠ [])
  | .micro cond slot reg _ =>
    if cond = 0 then s.reached b (selPair r r.word reg)
    else if cond = 1 then s.flagged (s.ep 1 b slot)
    else if cond = 2 then s.leadIs b slot (selGet r r.word reg)
    else if cond = 3 then s.hasCredit b slot
    else if cond = 4 then s.hasArrival b slot
    else if cond = 5 then decide (r.iq ≠ [])
    else decide (s.slotCredits b slot ≠ 0)

/-- The channel of a data slot is 64 bits wide. -/
def State.wideOut (s : State) (e : Nat) : Bool :=
  match s.chanOfProd e with | some ch => (s.chan ch).wide | none => false
def State.wideIn (s : State) (e : Nat) : Bool :=
  match s.chanOfCons e with | some ch => (s.chan ch).wide | none => false

/-- DSEND from a register (R71, R97): g15 on a wide route sends zeros above. -/
def sendReg (b slot g : Nat) (s : State) : State :=
  let e := s.ep 2 b slot
  let r := (s.burin b).regs
  let v : BitVec 64 := if s.wideOut e && decide (g ≠ 15) then pair r g else (gr r g).setWidth 64
  sendEp e v s

/-- The payload that DRECV takes, into a register or pair. -/
def recvReg (b slot g : Nat) (s : State) : State :=
  let e := s.ep 3 b slot
  match s.arrivals e with
  | [] => s
  | v :: _ =>
    let wide := s.wideIn e && decide (g ≠ 15)
    (takeArrival e s).modBurin b fun r =>
      { r with regs := if wide then setPair g v r.regs else setG g (v.extractLsb' 0 32) r.regs }

/-- The words of an IQ point, its window-end tick as a shot time from an origin (R91, R257). -/
def iqWords (origin : Nat) (p : IqPoint) : Word × Word × Word :=
  let t := low 48 ((p.tick : Int) - (origin : Int))
  (p.pt, BitVec.ofNat 32 t, BitVec.ofNat 32 (t / 2 ^ 32 + p.slot * 2 ^ 16 + p.window % 256 * 2 ^ 24))

/-- Take the oldest IQ point (R91). -/
def takePoint (b g : Nat) (s : State) : State :=
  s.modBurin b fun r =>
    match r.iq with
    | [] => r
    | p :: rest =>
      let (x, y, z) := iqWords r.origin p
      { r with iq := rest, lastPoint := some (p.flags, p.window % 256), regs := setG (g + 2) z (setG (g + 1) y (setG g x r.regs)) }

/-- What a wait does once its condition holds. -/
def waitEffect (b : Nat) (w : Wait) (s : State) : State :=
  match w with
  | .evw slot => consume (s.ep 1 b slot) s
  | .dsend slot g => sendReg b slot g s
  | .drecv g slot => recvReg b slot g s
  | .iqrd g => takePoint b g s
  | .micro cond slot _ c => if cond = 1 && c then consume (s.ep 1 b slot) s else s
  | _ => s

/-- A waiting instruction: it completes at once where its condition holds. -/
def await (b : Nat) (w : Wait) (s : State) : State :=
  if s.waitHolds b w then finish b (waitEffect b w s)
  else s.modBurin b fun r => { r with waiting := some w }

/-! ### Records and the end of a shot (R87, R253) -/

/-- Bytes 0–15 and the payload of a result record, its seq still 0 (R253). -/
def State.resultRec (s : State) (b a : Nat) : List Byte :=
  let r := s.burin b
  let (pf, win) := match r.lastPoint with
    | some (f, w) => (f % 64, w)
    | none => (128, 0)
  le 2 0x0031 ++ le 2 b ++ le 2 0 ++ le 1 (pf + bit r.iqLost 6) ++ le 1 win ++ le 8 r.shot
    ++ (List.range 4).flatMap fun k => le 4 (dm r.regs (a + 4 + k)).toNat

/-- REC: post a record to the root's stream; centroid tracking reads it there (R492). -/
def postResult (b a : Nat) (s : State) : State :=
  let rec_ := s.resultRec b a
  let s := s.modBurin b fun r => { r with iqLost := false }
  trackRecord b rec_ (post (s.rootOf b) (s.burin b).shot rec_ s)

/-- END: the burin is idle, every level has ended, and the records that waited for it may go (R84, R87,
R142, R255). -/
def endShot (b : Nat) (s : State) : State :=
  let s := s.modBurin b fun r => { r with running := false, regs := { r.regs with loops := [] } }
  let s := if (s.cent b).ramp.isSome then s.setCent b { s.cent b with due := true } else s
  let key := s.rootOf b
  pump (checkStopped key (flush key s))

/-! ### Special registers (R93–R95) -/

def State.special (s : State) (b sr : Nat) : Word :=
  let r := s.burin b
  if sr = 0 then BitVec.ofNat 32 r.shot
  else if sr = 1 then BitVec.ofNat 32 (r.shot / 2 ^ 32)
  else if sr = 2 then BitVec.ofNat 32 (b + s.sys.devnum * 2 ^ 14)
  else if sr = 3 then r.regs.flags
  else if sr = 4 then r.regs.ovgctl
  else BitVec.ofNat 32 r.regs.loops.length

/-- MTS: FLAGS clears its ones, OVGCTL takes [3:0], the rest ignore it. -/
def setSpecial (sr : Nat) (v : Word) (r : Regs) : Regs :=
  if sr = 3 then { r with flags := r.flags &&& ~~~(v &&& 31#32) }
  else if sr = 4 then { r with ovgctl := v &&& 15#32 }
  else r

/-- The present shot time (R12, R97). -/
def State.shotTime (s : State) (b : Nat) : Nat := low 48 ((s.now : Int) - (s.burin b).origin)

end Sys2Proof.Machine
end

