-- ==== Sys2Proof/Machine/Code.lean ====
section
/-! DEFINITION. Burin instruction words: the formats of R96 with the opcodes of R97, and the checks
that CELL_LOAD makes of an image (R71, R77, R83, R85, R99). -/

namespace Sys2Proof.Machine

/-! ### Formats (R96) -/

def encOp (op rest : Nat) : Nat := op * 2 ^ 24 + rest
def encNO (op : Nat) : Nat := encOp op 0
def encJU (op off : Nat) : Nat := encOp op off
def encBR (op ga gb off : Nat) : Nat := encOp op (ga * 2 ^ 20 + gb * 2 ^ 16 + off)
def encJT (op gs n1 : Nat) : Nat := encOp op (gs * 2 ^ 20 + n1 * 2 ^ 16)
def encRP (op len1 gs : Nat) : Nat := encOp op (len1 * 2 ^ 16 + gs * 2 ^ 12)
def encRQ (op len1 count : Nat) : Nat := encOp op (len1 * 2 ^ 16 + count)
def encRG (op gd ga gb : Nat) : Nat := encOp op (gd * 2 ^ 20 + ga * 2 ^ 16 + gb * 2 ^ 12)
def encIM (op gd ga imm : Nat) : Nat := encOp op (gd * 2 ^ 20 + ga * 2 ^ 16 + imm)
def encFX (op gd ga pos w1 : Nat) : Nat :=
  encOp op (gd * 2 ^ 20 + ga * 2 ^ 16 + pos * 2 ^ 11 + w1 * 2 ^ 6)
def encPT (op pd ps g sh imm : Nat) : Nat :=
  encOp op (pd * 2 ^ 21 + ps * 2 ^ 18 + g * 2 ^ 14 + sh * 2 ^ 12 + imm)
def encME (op g pa ma u gx pair x : Nat) : Nat :=
  encOp op (g * 2 ^ 20 + pa * 2 ^ 17 + ma * 2 ^ 14 + u * 2 ^ 13 + gx * 2 ^ 9 + pair * 2 ^ 8 + x * 2 ^ 7)
def encMM (op gs pd md ud pa ma ua : Nat) : Nat :=
  encOp op (gs * 2 ^ 20 + pd * 2 ^ 17 + md * 2 ^ 14 + ud * 2 ^ 13 + pa * 2 ^ 10 + ma * 2 ^ 7 + ua * 2 ^ 6)
def encAC (op g gb acc sh : Nat) : Nat := encOp op (g * 2 ^ 20 + gb * 2 ^ 16 + acc * 2 ^ 14 + sh * 2 ^ 8)
def encSL (op g slot pa ma u : Nat) : Nat :=
  encOp op (g * 2 ^ 20 + slot * 2 ^ 16 + pa * 2 ^ 13 + ma * 2 ^ 10 + u * 2 ^ 9)
def encSE (op gd pa n1 : Nat) : Nat := encOp op (gd * 2 ^ 20 + pa * 2 ^ 17 + n1 * 2 ^ 13)
def encSP (op g sr : Nat) : Nat := encOp op (g * 2 ^ 20 + sr * 2 ^ 16)

/-- An ME word from a memory operand (R77). -/
def encMem (op g pair : Nat) (m : Mem) : Nat :=
  match m.form with
  | .plain => encME op g m.pa.val 0 0 0 pair 0
  | .post ma => encME op g m.pa.val ma.val 1 0 pair 0
  | .index gx => encME op g m.pa.val 0 0 gx.val pair 1

/-- An ME word of CSUBM or WSQ, whose gx field is always an operand. -/
def encMemX (op g gx pa : Nat) (k : MemKind) : Nat :=
  match k with
  | .plain => encME op g pa 0 0 gx 0 0
  | .post ma => encME op g pa ma.val 1 gx 0 0
  | .index => encME op g pa 0 0 gx 0 1

/-! ### Load-time checks (R99) -/

def opOf (w : Nat) : Nat := w / 2 ^ 24
def gdOf (w : Nat) : Nat := bits w 20 4

/-- The bits of a memory operand that its form uses. -/
def memMask (w : Nat) : Nat :=
  if bits w 13 1 = 1 then 0xE0000 + 0x1C000 + 0x2000
  else if bits w 7 1 = 1 then 0xE0000 + 0x1E00 + 0x80
  else 0xE0000

/-- The bits of [23:0] that an instruction uses; none where the opcode is undefined (R97). -/
def usedMask (w : Nat) : Option Nat :=
  let op := opOf w
  if op = 0x00 || op = 0x01 then some 0
  else if op = 0x02 then some 0xFFFF
  else if op = 0x03 then some 0xFF0000
  else if op = 0x04 then some 0xFFF000
  else if op = 0x05 then some 0xFFFFFF
  else if 0x08 ≤ op && decide (op ≤ 0x0D) then some 0xFFFFFF
  else if op = 0x0E || op = 0x0F then some 0xF0FFFF
  else if 0x10 ≤ op && decide (op ≤ 0x1F) then some 0xFFF000
  else if 0x20 ≤ op && decide (op ≤ 0x23) then some 0xFFFFFF
  else if 0x24 ≤ op && decide (op ≤ 0x26) then some 0xFF001F
  else if 0x27 ≤ op && decide (op ≤ 0x29) then some 0xF0FFFF
  else if op = 0x2A then some 0xF0F000
  else if op = 0x2B then some 0xFF0000
  else if op = 0x2C || op = 0x2D || op = 0x2F then some 0xFFFFC0
  else if op = 0x2E then some 0xFF07C0
  else if op = 0x30 || op = 0x31 then some 0xE00FFF
  else if op = 0x32 || op = 0x34 then some 0xE3C000
  else if op = 0x33 then some 0x1FC000
  else if op = 0x35 then some 0xFC0000
  else if op = 0x36 then some 0xFFF000
  else if 0x40 ≤ op && decide (op ≤ 0x43) then some (0xF00000 + memMask w)
  else if op = 0x44 || op = 0x45 then some (0xF00000 + 0xE0000 + 0x1E00 + 0x80)
  else if op = 0x50 || op = 0x51 || op = 0x53 || op = 0x55 || op = 0x59 then some 0xFFF000
  else if op = 0x54 || op = 0x56 then some 0xFF0000
  else if op = 0x52 || op = 0x57 then some (0xF00000 + (memMask w ||| 0x1E00))
  else if op = 0x58 then some (0xF00000 + 0xE0000 + 0x2000 + 0x1C00 + 0x40
    + (if bits w 13 1 = 1 then 0x1C000 else 0) + (if bits w 6 1 = 1 then 0x380 else 0))
  else if op = 0x60 then some 0xC000
  else if op = 0x61 then some 0xF0C000
  else if 0x62 ≤ op && decide (op ≤ 0x66) then some 0xFFC000
  else if op = 0x67 then some (0xF00000 + 0x100 + memMask w)
  else if op = 0x68 || op = 0x69 then some 0xF0FF00
  else if op = 0x6A then some 0xFF00
  else if 0x70 ≤ op && decide (op ≤ 0x73) then some 0xFFE000
  else if op = 0x80 then some (0xF00000 + 0xF0000 + 0xE000 + 0x200 + (if bits w 9 1 = 1 then 0x1C00 else 0))
  else if op = 0x81 || op = 0x92 || op = 0x93 || op = 0x94 || op = 0x95 || op = 0xA1 then some 0xFF0000
  else if op = 0x90 || op = 0x91 || op = 0xA2 then some 0x0F0000
  else if op = 0xA0 || op = 0xA3 || op = 0xB0 || op = 0xB1 then some 0xF00000
  else if op = 0xC0 then some (memMask w)
  else if op = 0xC1 || op = 0xC2 then some 0xFF0000
  else none

/-- Opcodes in the ME format. -/
def isME (op : Nat) : Bool :=
  (decide (0x40 ≤ op) && decide (op ≤ 0x45)) || op == 0x52 || op == 0x57 || op == 0x67 || op == 0xC0

/-- The number of registers past g that an instruction needs (R71): 1 for a pair, 2 for a triple. -/
def pairNeed (op : Nat) : Nat :=
  if op = 0xB0 then 2
  else if op = 0x29 || op = 0x2A || op = 0x42 || op = 0x43 || (decide (0x70 ≤ op) && decide (op ≤ 0x73))
      || op = 0x80 || op = 0xA0 || op = 0xA3 then 1
  else 0

/-- Slots of an SL instruction (R90). -/
def slotCount (op : Nat) : Nat :=
  if op = 0x90 || op = 0x91 || op = 0x92 then 8
  else if op = 0x93 || op = 0x94 || op = 0x95 || op = 0xA2 then 4
  else 16

/-- One instruction word is in rule (R96–R99), but for branches and repeats. `patched` tells whether a
loaded patch defines the opcode. -/
def wordOk (patched : Nat → Bool) (w : Nat) : Bool :=
  let op := opOf w
  if 0xE0 ≤ op then patched op
  else match usedMask w with
    | none => false
    | some m =>
      decide (w % 2 ^ 24 &&& (0xFFFFFF - m) = 0)
        && !(isME op && decide (bits w 13 1 = 1) && decide (bits w 7 1 = 1))
        && !((op == 0x44 || op == 0x45) && decide (bits w 7 1 = 0))
        && !((op == 0x2C || op == 0x2D || op == 0x2F) && decide (32 < bits w 11 5 + bits w 6 5 + 1))
        && decide (gdOf w + pairNeed op ≤ 15)
        && !((op == 0x64 || op == 0x65 || op == 0x66 || op == 0x69) && decide (bits w 14 1 = 1))
        && !((op == 0x81 || (decide (0x90 ≤ op) && decide (op ≤ 0x95)) || op == 0xA1 || op == 0xA2)
              && decide (slotCount op ≤ bits w 16 4))
        && !((op == 0xC1 || op == 0xC2) && decide (6 ≤ bits w 16 4))

/-- The body [first, last] of a repeat at index `k` (R82). -/
def repBody (k w : Nat) : Option (Nat × Nat) :=
  if opOf w = 0x04 || opOf w = 0x05 then some (k + 1, k + 1 + bits w 16 8) else none

/-- The targets of a branch or JT at index `k` (R84, R97). -/
def targets (k w : Nat) : List Int :=
  let op := opOf w
  if op = 0x02 || (0x08 ≤ op && decide (op ≤ 0x0F)) then [(k : Int) + 1 + sgn 16 w]
  else if op = 0x03 then (List.range (bits w 16 4 + 1)).map fun j => ((k + 1 + j : Nat) : Int)
  else []

/-- An image by index. -/
def indexed (img : List Nat) : List (Nat × Nat) := (List.range img.length).zip img

/-- The repeat bodies of an image. -/
def bodies (img : List Nat) : List (Nat × Nat) := (indexed img).filterMap fun e => repBody e.1 e.2

/-- The repeat rules of R83 and R85. -/
def repeatsOk (img : List Nat) (streamed : Bool) : Bool :=
  let bs := bodies img
  bs.all fun b =>
    decide (b.2 < img.length)
      && (match img[b.2]? with | some w => decide (opOf w ≠ 0x04) && decide (opOf w ≠ 0x05) | none => false)
      && bs.all (fun c => !(decide (b.1 ≤ c.1 - 1) && decide (c.1 - 1 ≤ b.2) && decide (b.2 < c.2)))
      && decide ((bs.filter fun c => decide (c.1 - 1 ≤ b.2) && decide (c.1 < b.1) && decide (b.1 - 1 ≤ c.2)).length < 4)
      && !(streamed && decide (48 < b.2 / 8 - b.1 / 8 + 1))

/-- Every branch and JT target lies inside the image, and none enters a body from outside it. -/
def branchesOk (img : List Nat) : Bool :=
  let bs := bodies img
  (indexed img).all fun e => (targets e.1 e.2).all fun t =>
    decide (0 ≤ t) && decide (t < img.length)
      && bs.all fun b => !(decide (b.1 ≤ t) && decide (t ≤ b.2)) || (decide (b.1 ≤ e.1) && decide (e.1 ≤ b.2))

/-- CELL_LOAD accepts the image (R79, R99). -/
def imageOk (patched : Nat → Bool) (img : List Nat) (streamed : Bool) : Bool :=
  decide (1 ≤ img.length) && decide (img.length ≤ 65536) && (streamed || decide (img.length ≤ 512))
    && img.all (wordOk patched)
    && (match img.getLast? with | some w => opOf w == 0x01 || opOf w == 0x02 | none => false)
    && repeatsOk img streamed && branchesOk img

end Sys2Proof.Machine
end

