-- ==== Sys2Proof/Machine/Micro.lean ====
section
/-! DEFINITION. Microcode (R102–R114): the run of a patched opcode, microword by microword. The codes of
the ALU and ACC operations are not stated, and what they compute is a free value; the base microcode of an
instruction that no patch redirects is the meaning of that instruction (R97, R110). -/

namespace Sys2Proof.Machine

/-- The END routine that the base microcode holds at address 0 (R111): END takes one stage (R97), so it is one SPR
microword with E and OP 3 (R107–R109, log 149). -/
def endRoutine : Nat := 0xAE0000

/-- A word of the control store (R105, R111). -/
def State.microword (s : State) (a : Nat) : Nat :=
  if a = 0 then endRoutine
  else if a < 0xC00 then (Config.baseMicroword a).toNat else (tget 0 s.patches.words a).toNat

/-- COND of a sequencer microword; none for a reserved code (R108). -/
def microCond (m : Micro) (c : Nat) : Option Bool :=
  let z := m.fl.getLsbD 0
  let lt := m.fl.getLsbD 1
  let ltu := m.fl.getLsbD 2
  if c = 0 then some true
  else if c = 1 then some z else if c = 2 then some (!z)
  else if c = 3 then some lt else if c = 4 then some (!lt)
  else if c = 5 then some ltu else if c = 6 then some (!ltu)
  else if c = 7 then some (decide (m.uc = 0)) else if c = 8 then some (decide (m.uc ≠ 0))
  else if c = 9 then some (m.fl.getLsbD 3) else if c = 10 then some (m.fl.getLsbD 4)
  else none

def modMicro (b : Nat) (f : Micro → Micro) (s : State) : State :=
  s.modBurin b fun r => { r with micro := f r.micro }

/-- What one microword comes to: the state and the next address, a wait or end of the burin's program, or
a microword of which R125 promises nothing. -/
inductive MicroOut where
  | go (s : State) (upc : Nat)
  | rest (s : State)
  | bad

/-- Set pc from the instruction's branch offset, or for JT from its bounded register (R108). -/
def pcSet (w : Nat) (r : Regs) : Regs :=
  if w / 2 ^ 24 = 0x03 then
    goTo (low 16 (r.pc + 1 + (min (gr r (bits w 20 4)).toNat (bits w 16 4) : Nat))) r
  else branch (BitVec.ofNat 16 w) r

/-- SEQ (R108, R111). -/
def microSeq (b w m upc : Nat) (s : State) : MicroOut :=
  let k := (s.burin b).micro
  let op := bits m 16 3
  let addr := bits m 0 12
  if op = 0 then .go s addr
  else if op = 2 then .go (modMicro b (fun k => { k with stack := (upc + 1) :: k.stack.take 1 }) s) addr
  else if op = 3 then
    match k.stack with
    | [] => .go s 0
    | a :: rest => .go (modMicro b (fun k => { k with stack := rest }) s) a
  else if op = 5 then .go (modMicro b (fun k => { k with uc := bits m 0 8 }) s) (upc + 1)
  else match microCond k (bits m 12 4) with
    | none => .bad
    | some c =>
      if op = 1 then .go s (if c then addr else upc + 1)
      else if op = 4 then
        if c then
          let uc := (k.uc + 255) % 256
          .go (modMicro b (fun k => { k with uc }) s) (if uc = 0 then upc + 1 else addr)
        else .go s (upc + 1)
      else if op = 6 then
        .go (if c then modMicro b (fun k => { k with pcset := true }) (modRegs b (pcSet w) s) else s) (upc + 1)
      else .bad

/-- The instruction word has the MM format (R96, R97): its source operand has pa, ma and ua, its destination pd, md
and ud. -/
def isMM (w : Nat) : Bool := w / 2 ^ 24 == 0x58

/-- Where the fields of a memory operand stand in the instruction word (R96): pointer, offset register and
post-modify bit. A microword that writes memory takes the destination of an MM word, one that reads its source; every
other word has one operand, of the ME format (log 149). -/
def memFields (w : Nat) (wr : Bool) : Nat × Nat × Bool :=
  if isMM w && !wr then (bits w 10 3, bits w 7 3, bits w 6 1 == 1) else (bits w 17 3, bits w 14 3, bits w 13 1 == 1)

/-- The instruction asks for an indexed operand: x of the ME format (R77, R96). -/
def memIndexed (w : Nat) : Bool := !isMM w && bits w 7 1 == 1

/-- The address of the memory operand that a microword takes from the instruction's fields (R108). -/
def microMem (w : Nat) (wr idx : Bool) (r : Regs) : Nat :=
  let p := (pr r (memFields w wr).1).toNat
  if idx then (p + (gr r (bits w 9 4)).toNat) % 4096 else p

/-- The post-modify of that operand (R77). -/
def microPost (w : Nat) (wr : Bool) (r : Regs) : Regs :=
  let (p, m, u) := memFields w wr
  if u then bumpP p m r else r

/-- ALU (R108): what OP computes is a free value. -/
def microAlu (b w m : Nat) (s : State) : State :=
  let r := s.burin b
  let two := bits m 3 1 = 1
  let x : BitVec 64 := if two then selPair r w (bits m 7 3) else (selGet r w (bits m 7 3)).setWidth 64
  let src := bits m 0 2
  let y : BitVec 64 :=
    if src = 0 then (if two then selPair r w (bits m 4 3) else (selGet r w (bits m 4 3)).setWidth 64)
    else if src = 1 then (BitVec.ofNat 16 w).signExtend 64
    else if src = 2 then (BitVec.ofNat 16 w).setWidth 64
    else (dm r.regs (microMem w false (memIndexed w) r.regs)).setWidth 64
  let (v, fl) := Config.aluOp (BitVec.ofNat 6 (bits m 13 6)) two x y
  let s := s.modBurin b fun r =>
    let r := if two then selSetPair w (bits m 10 3) v r else selSet w (bits m 10 3) (v.extractLsb' 0 32) r
    { r with micro := { r.micro with fl := fl.setWidth 5 } }
  modRegs b (fun r => satIf (bits m 2 1 = 1 && fl.getLsbD 3) (if src = 3 then microPost w false r else r)) s

/-- ACC (R108): what OP computes is a free value. -/
def microAcc (b w m : Nat) (s : State) : State :=
  let r := s.burin b
  let sel := bits m 13 2
  let pr2 := if sel = 2 then bits w 8 1 else bits w 14 2 / 2
  let k := if sel = 0 then bits w 14 2 else 2 * pr2
  let pairv : BitVec 96 := tget 0 r.regs.acc (if sel = 0 then k else 2 * pr2 + 1) ++ tget 0 r.regs.acc k
  let memB := bits m 5 1 == 1
  let y := if memB then dm r.regs (microMem w false (memIndexed w) r.regs) else selGet r w (bits m 7 3)
  let (v, out, fl) := Config.accOp (BitVec.ofNat 4 (bits m 15 4)) pairv (selGet r w (bits m 10 3)) y
    (if bits m 6 1 = 1 then 15 else bits w 8 6)
  let lo : AccWord := v.extractLsb' 0 48
  let hi : AccWord := v.extractLsb' 48 48
  let s := s.modBurin b fun r =>
    let r := match out with | some x => selSet w (bits m 10 3) x r | none => r
    { r with micro := { r.micro with fl } }
  modRegs b (fun r =>
    let put (i : Nat) (x : AccWord) (r : Regs) : Regs := { r with acc := tset 0 r.acc i x }
    let r := if sel = 0 then put k lo r else put (2 * pr2 + 1) hi (put (2 * pr2) lo r)
    let r := if fl.getLsbD 4 then ovgSet k { r with ovd := tset false r.ovd k true } else r
    if memB then microPost w false r else r) s

/-- MEM (R108). -/
def microMemOp (b w m : Nat) (s : State) : State :=
  let r := s.burin b
  let wr := bits m 18 1 == 1
  let a := microMem w wr (bits m 13 1 == 1) r.regs
  let reg := bits m 14 3
  let s :=
    if wr then
      if bits m 17 1 = 1 then
        let v := selPair r w reg
        modRegs b (fun q => setDm (a + 1) (v.extractLsb' 32 32) (setDm a (v.extractLsb' 0 32) q)) s
      else modRegs b (setDm a (selGet r w reg)) s
    else if bits m 17 1 = 1 then s.modBurin b (selSetPair w reg (dm r.regs (a + 1) ++ dm r.regs a))
    else s.modBurin b (selSet w reg (dm r.regs a))
  modRegs b (microPost w wr) s

/-- PTR (R108): the operands come from the PT fields; MOVMG's routine writes an offset register. -/
def microPtr (b w m : Nat) (s : State) : MicroOut :=
  let op := bits m 16 3
  let d := bits w 21 3
  let g := bits w 14 4
  let on (f : Regs → Regs) : MicroOut := .go (modRegs b f s) 0
  if op = 0 then on (setP d (BitVec.ofNat 12 w))
  else if op = 1 then on (setM d ((BitVec.ofNat 12 w).signExtend 16))
  else if op = 2 then
    on fun r => if w / 2 ^ 24 = 0x34 then setM d ((gr r g).setWidth 16) r else setP d ((gr r g).setWidth 12) r
  else if op = 3 then on fun r => setG g ((pr r (bits w 18 3)).setWidth 32) r
  else if op = 4 then on (bumpP d (bits w 18 3))
  else if op = 5 then on fun r => setP d (pr r (bits w 18 3) + ((gr r g) <<< bits w 12 2).setWidth 12) r
  else .bad

/-- SEL (R86, R108). Which flags it sets is not stated: a free value. -/
def microSel (b w m : Nat) (s : State) : State :=
  let better (x y : Word) : Bool :=
    if bits m 18 1 = 1 then (if bits m 17 1 = 1 then y.slt x else y.ult x)
    else (if bits m 17 1 = 1 then x.slt y else x.ult y)
  let fl := BitVec.ofNat 5 (Config.freeNat s.free)
  { s with free := s.free + 1 }.modBurin b fun r =>
    let best := selRun better r.regs (pr r.regs (bits w 17 3)).toNat (bits w 13 4 + 1)
    let r := selSetPair w (bits m 14 3) (best.2 ++ BitVec.ofNat 32 best.1) r
    { r with micro := { r.micro with fl } }

/-- Wait at this microword. -/
def microWait (b upc : Nat) (wt : Wait) (s : State) : MicroOut :=
  .rest (modMicro b (fun k => { k with upc }) (s.modBurin b fun r => { r with waiting := some wt }))

/-- The entry that a PUT of the instruction's SL fields makes. -/
def slEntry (s : State) (b w : Nat) (rel : BitVec 64) : Entry :=
  let r := (s.burin b).regs
  s.makeEntry b rel ((List.range 4).map fun k => dm r ((pr r (bits w 13 3)).toNat + k))

/-- XBR (R46, R108). -/
def microXbr (b w m upc : Nat) (s : State) : MicroOut :=
  let slot := bits w 16 4
  if bits m 17 1 = 0 then
    let e := slEntry s b w (selPair (s.burin b) w (bits m 14 3))
    let post := if bits w 9 1 = 1 then some (bits w 13 3, bits w 10 3) else none
    if s.slotCredits b slot = 0 then
      .rest (modMicro b (fun k => { k with upc }) (s.modBurin b fun r =>
        { r with hold := some { slot, entry := e, post, micro := true } }))
    else
      let s := launch b slot e s
      .go (match post with | some (p, m) => modRegs b (bumpP p m) s | none => s) (upc + 1)
  else .go (s.modBurin b (selSet w (bits m 14 3) (BitVec.ofNat 32 (s.slotCredits b slot)))) (upc + 1)

/-- HAT (R108). -/
def microHat (b w m upc : Nat) (s : State) : MicroOut :=
  let slot := bits w 16 4
  let op := bits m 15 3
  let reg := bits m 12 3
  let wait := bits m 18 1 = 1
  let two := bits m 11 1 = 1
  let r := s.burin b
  let next (s : State) : MicroOut := .go s (upc + 1)
  if op = 0 then next (raiseEp (s.ep 0 b (slot % 8)) s)
  else if op = 1 then
    let e := s.ep 1 b (slot % 8)
    let f := s.flagged e
    next ((consume e s).modBurin b (selSet w reg (if f then 1 else 0)))
  else if op = 2 then
    if wait && !s.hasCredit b (slot % 4) then microWait b upc (.micro 3 (slot % 4) reg false) s
    else if !s.hasCredit b (slot % 4) then next s
    else
      let v : BitVec 64 := if two && s.wideOut (s.ep 2 b (slot % 4)) then selPair r w reg else (selGet r w reg).setWidth 64
      next (sendEp (s.ep 2 b (slot % 4)) v s)
  else if op = 3 then
    let e := s.ep 3 b (slot % 4)
    if wait && !s.hasArrival b (slot % 4) then microWait b upc (.micro 4 (slot % 4) reg false) s
    else match s.arrivals e with
      | [] => next s
      | v :: _ =>
        next ((takeArrival e s).modBurin b fun r =>
          if two && s.wideIn e then selSetPair w reg v r else selSet w reg (v.extractLsb' 0 32) r)
  else if op = 4 then
    next (s.modBurin b (selSet w reg (BitVec.ofNat 32 (s.arrivals (s.ep 3 b (slot % 4))).length)))
  else .bad

/-- The oldest point goes to the register that a selector names and the two after it; past T3 as a pair past T3
(R71, R91, R108, log 147). -/
def microTake (b w reg : Nat) (s : State) : State :=
  if reg < 4 then takePoint b (bits w ([20, 16, 12, 9].getD reg 0) 4) s
  else s.modBurin b fun r =>
    match r.iq with
    | [] => r
    | p :: rest =>
      let (x, y, z) := iqWords r.origin p
      { r with iq := rest, lastPoint := some (p.flags, p.window % 256)
               micro := { r.micro with t := tset 0 (tset 0 (tset 0 r.micro.t (reg - 4) x) (reg - 3) y) (reg - 2) z } }

/-- IQ (R91, R108): a take writes the register that REG selects and the two after it. -/
def microIq (b w m upc : Nat) (s : State) : MicroOut :=
  let r := s.burin b
  if bits m 17 1 = 1 then
    .go (s.modBurin b (selSet w (bits m 14 3) (BitVec.ofNat 32 r.iq.length))) (upc + 1)
  else if r.iq = [] then
    if bits m 18 1 = 1 then microWait b upc (.micro 5 0 0 false) s else .go s (upc + 1)
  else .go (microTake b w (bits m 14 3) s) (upc + 1)

/-- SPR (R108): END stops the burin. -/
def microSpr (b w m upc : Nat) (s : State) : MicroOut :=
  let op := bits m 17 2
  let reg := bits m 14 3
  if op = 0 then .go (s.modBurin b (selSet w reg (s.special b (bits w 16 4)))) (upc + 1)
  else if op = 1 then .go (modRegs b (setSpecial (bits w 16 4) (selGet (s.burin b) w reg)) s) (upc + 1)
  else if op = 2 then
    let a := microMem w false (memIndexed w) (s.burin b).regs
    .go (modRegs b (microPost w false) (postResult b a s)) (upc + 1)
  else .rest (endShot b s)

/-- One microword. -/
def microDo (b w m upc : Nat) (s : State) : MicroOut :=
  let cls := bits m 20 4
  if cls = 0 then microSeq b w m upc s
  else if cls = 1 then .go (microAlu b w m s) (upc + 1)
  else if cls = 2 then .go (microAcc b w m s) (upc + 1)
  else if cls = 3 then .go (microMemOp b w m s) (upc + 1)
  else if cls = 4 then
    match microPtr b w m s with
    | .go t _ => .go t (upc + 1)
    | o => o
  else if cls = 5 then .go (microSel b w m s) (upc + 1)
  else if cls = 6 then microXbr b w m upc s
  else if cls = 7 then
    let cond := bits m 16 3
    let slot := if cond = 1 then bits w 16 4 % 8 else if cond = 3 || cond = 4 then bits w 16 4 % 4 else bits w 16 4
    let wt : Wait := .micro cond slot (bits m 12 3) (bits m 11 1 == 1)
    if cond = 7 then .bad
    else if s.waitHolds b wt then .go (waitEffect b wt s) (upc + 1) else microWait b upc wt s
  else if cls = 8 then microHat b w m upc s
  else if cls = 9 then microIq b w m upc s
  else if cls = 10 then microSpr b w m upc s
  else .bad

/-- The run of an instruction ends: pc goes on unless a PCSET has set it (R107). -/
def endRun (b : Nat) (s : State) : State :=
  let k := (s.burin b).micro
  let s := modMicro b (fun _ => {}) s
  if k.pcset then fetchOn b s else finish b s

/-- A run of at most `n` microwords from an address; a run that is longer has no end here. -/
def microRun (b w : Nat) : Nat → Nat → State → Option State
  | 0, _, s => some s
  | n + 1, upc, s =>
    let m := s.microword (upc % 4096)
    match microDo b w m (upc % 4096) s with
    | .bad => none
    | .rest t => some t
    | .go t next => if bits m 19 1 = 1 then some (endRun b t) else microRun b w n next t

/-- How many microwords of one run the model follows. -/
def microFuel : Nat := 65536

def runFrom (b upc : Nat) (s : State) : Host.Outcome State Fault Refusal :=
  match microRun b (s.burin b).word microFuel upc s with
  | some t => .next t
  | none => .fault .reservedMicroword

/-- The microsequencer at the start of a run: what UC, the flags and the microtemps hold there is not stated (R102),
a free value each. -/
def beginRun (b : Nat) (s : State) : State :=
  let k := s.free
  let t : Tab Word := (List.range 4).foldl (fun t i => tset 0 t i (BitVec.ofNat 32 (Config.freeNat (k + i)))) []
  modMicro b (fun _ => { uc := Config.freeNat (k + 4) % 256, fl := BitVec.ofNat 5 (Config.freeNat (k + 5)), t })
    { s with free := k + 6 }

/-- Issue the instruction word `w` of a burin: where a patch redirects its opcode the patch's routine runs,
else the instruction's own meaning (R98, R106, R107). -/
def issue (b : BurinId) (w : Nat) (body : State → State) (s : State) : Host.Outcome State Fault Refusal :=
  if s.fetched b.val w then
    match tget none s.patches.dispatch (w / 2 ^ 24) with
    | some a => runFrom b.val a (beginRun b.val s)
    | none => .next (body s)
  else .next s

/-- An instruction that writes registers and goes on. -/
def plain (b : BurinId) (w : Nat) (f : Regs → Regs) (s : State) : Host.Outcome State Fault Refusal :=
  issue b w (fun s => finish b.val (modRegs b.val f s)) s

/-- An instruction that sets pc itself. -/
def jumps (b : BurinId) (w : Nat) (f : Regs → Regs) (s : State) : Host.Outcome State Fault Refusal :=
  issue b w (fun s => fetchOn b.val (modRegs b.val f s)) s

/-- PATCH_OPCODE (R98): an opcode that only a loaded patch defines. -/
def execPatchOpcode (b : BurinId) (op : Fin 32) (fields : BitVec 24) (s : State) : Host.Outcome State Fault Refusal :=
  issue b ((0xE0 + op.val) * 2 ^ 24 + fields.toNat) id s

end Sys2Proof.Machine
end

