-- ==== Sys2Proof/Machine/Alu.lean ====
section
/-! DEFINITION. Integer and pointer instructions of a burin (R78, R97). -/

namespace Sys2Proof.Machine

/-- gd ← ga op gb (RG format). -/
def alu (b : BurinId) (op : Nat) (gd ga gb : GReg) (f : Word → Word → Word) (s : State) : Host.Outcome State Fault Refusal :=
  plain b (encRG op gd.val ga.val gb.val) (fun r => setG gd.val (f (gr r ga.val) (gr r gb.val)) r) s

/-- gd ← ga op gb, saturating signed and setting SAT. -/
def aluSat (b : BurinId) (op : Nat) (gd ga gb : GReg) (f : Word → Word → Int) (s : State) : Host.Outcome State Fault Refusal :=
  plain b (encRG op gd.val ga.val gb.val) (fun r =>
    let v := narrowS (f (gr r ga.val) (gr r gb.val)) 0
    satIf v.2 (setG gd.val v.1 r)) s

/-- gd ← ga op imm (IM format). -/
def aluI (b : BurinId) (op : Nat) (gd ga : GReg) (imm : Nat) (f : Word → Word) (s : State) : Host.Outcome State Fault Refusal :=
  plain b (encIM op gd.val ga.val imm) (fun r => setG gd.val (f (gr r ga.val)) r) s

def execAdd (b : BurinId) (gd ga gb : GReg) (s : State) : Host.Outcome State Fault Refusal :=
  alu b 0x10 gd ga gb (fun x y => x + y) s

def execSub (b : BurinId) (gd ga gb : GReg) (s : State) : Host.Outcome State Fault Refusal :=
  alu b 0x11 gd ga gb (fun x y => x - y) s

def execAnd (b : BurinId) (gd ga gb : GReg) (s : State) : Host.Outcome State Fault Refusal :=
  alu b 0x12 gd ga gb (fun x y => x &&& y) s

def execOr (b : BurinId) (gd ga gb : GReg) (s : State) : Host.Outcome State Fault Refusal :=
  alu b 0x13 gd ga gb (fun x y => x ||| y) s

def execXor (b : BurinId) (gd ga gb : GReg) (s : State) : Host.Outcome State Fault Refusal :=
  alu b 0x14 gd ga gb (fun x y => x ^^^ y) s

def execShl (b : BurinId) (gd ga gb : GReg) (s : State) : Host.Outcome State Fault Refusal :=
  alu b 0x15 gd ga gb (fun x y => x <<< (y.toNat % 32)) s

def execShr (b : BurinId) (gd ga gb : GReg) (s : State) : Host.Outcome State Fault Refusal :=
  alu b 0x16 gd ga gb (fun x y => x >>> (y.toNat % 32)) s

def execSar (b : BurinId) (gd ga gb : GReg) (s : State) : Host.Outcome State Fault Refusal :=
  alu b 0x17 gd ga gb (fun x y => x.sshiftRight (y.toNat % 32)) s

def execMul (b : BurinId) (gd ga gb : GReg) (s : State) : Host.Outcome State Fault Refusal :=
  alu b 0x18 gd ga gb (fun x y => x * y) s

def execMulh (b : BurinId) (gd ga gb : GReg) (s : State) : Host.Outcome State Fault Refusal :=
  alu b 0x19 gd ga gb (fun x y => BitVec.ofInt 32 (x.toInt * y.toInt / 4294967296)) s

def execMin (b : BurinId) (gd ga gb : GReg) (s : State) : Host.Outcome State Fault Refusal :=
  alu b 0x1A gd ga gb (fun x y => if x.slt y then x else y) s

def execMax (b : BurinId) (gd ga gb : GReg) (s : State) : Host.Outcome State Fault Refusal :=
  alu b 0x1B gd ga gb (fun x y => if x.slt y then y else x) s

def execMinu (b : BurinId) (gd ga gb : GReg) (s : State) : Host.Outcome State Fault Refusal :=
  alu b 0x1C gd ga gb (fun x y => if x.ult y then x else y) s

def execMaxu (b : BurinId) (gd ga gb : GReg) (s : State) : Host.Outcome State Fault Refusal :=
  alu b 0x1D gd ga gb (fun x y => if x.ult y then y else x) s

def execAdds (b : BurinId) (gd ga gb : GReg) (s : State) : Host.Outcome State Fault Refusal :=
  aluSat b 0x1E gd ga gb (fun x y => x.toInt + y.toInt) s

def execSubs (b : BurinId) (gd ga gb : GReg) (s : State) : Host.Outcome State Fault Refusal :=
  aluSat b 0x1F gd ga gb (fun x y => x.toInt - y.toInt) s

def execAddi (b : BurinId) (gd ga : GReg) (imm : BitVec 16) (s : State) : Host.Outcome State Fault Refusal :=
  aluI b 0x20 gd ga imm.toNat (fun x => x + imm.signExtend 32) s

def execAndi (b : BurinId) (gd ga : GReg) (imm : BitVec 16) (s : State) : Host.Outcome State Fault Refusal :=
  aluI b 0x21 gd ga imm.toNat (fun x => x &&& imm.setWidth 32) s

def execOri (b : BurinId) (gd ga : GReg) (imm : BitVec 16) (s : State) : Host.Outcome State Fault Refusal :=
  aluI b 0x22 gd ga imm.toNat (fun x => x ||| imm.setWidth 32) s

def execXori (b : BurinId) (gd ga : GReg) (imm : BitVec 16) (s : State) : Host.Outcome State Fault Refusal :=
  aluI b 0x23 gd ga imm.toNat (fun x => x ^^^ imm.setWidth 32) s

def execShli (b : BurinId) (gd ga : GReg) (imm : Fin 32) (s : State) : Host.Outcome State Fault Refusal :=
  aluI b 0x24 gd ga imm.val (fun x => x <<< imm.val) s

def execShri (b : BurinId) (gd ga : GReg) (imm : Fin 32) (s : State) : Host.Outcome State Fault Refusal :=
  aluI b 0x25 gd ga imm.val (fun x => x >>> imm.val) s

def execSari (b : BurinId) (gd ga : GReg) (imm : Fin 32) (s : State) : Host.Outcome State Fault Refusal :=
  aluI b 0x26 gd ga imm.val (fun x => x.sshiftRight imm.val) s

def execMovi (b : BurinId) (gd : GReg) (imm : BitVec 16) (s : State) : Host.Outcome State Fault Refusal :=
  plain b (encIM 0x27 gd.val 0 imm.toNat) (setG gd.val (imm.signExtend 32)) s

def execMovhi (b : BurinId) (gd : GReg) (imm : BitVec 16) (s : State) : Host.Outcome State Fault Refusal :=
  plain b (encIM 0x28 gd.val 0 imm.toNat) (fun r => setG gd.val (imm ++ (gr r gd.val).extractLsb' 0 16) r) s

def execAddpi (b : BurinId) (gd : GReg) (imm : BitVec 16) (s : State) : Host.Outcome State Fault Refusal :=
  plain b (encIM 0x29 gd.val 0 imm.toNat) (fun r => setPair gd.val (pair r gd.val + imm.signExtend 64) r) s

def execAddp (b : BurinId) (gd gb : GReg) (s : State) : Host.Outcome State Fault Refusal :=
  plain b (encRG 0x2A gd.val 0 gb.val) (fun r => setPair gd.val (pair r gd.val + (gr r gb.val).setWidth 64) r) s

def execMov (b : BurinId) (gd ga : GReg) (s : State) : Host.Outcome State Fault Refusal :=
  plain b (encRG 0x2B gd.val ga.val 0) (fun r => setG gd.val (gr r ga.val) r) s

/-- EXTU: w is the field width − 1, here and below. -/
def execExtu (b : BurinId) (gd ga : GReg) (pos w : Fin 32) (s : State) : Host.Outcome State Fault Refusal :=
  plain b (encFX 0x2C gd.val ga.val pos.val w.val) (fun r => setG gd.val (BitVec.ofNat 32 (bits (gr r ga.val).toNat pos.val (w.val + 1))) r) s

def execExts (b : BurinId) (gd ga : GReg) (pos w : Fin 32) (s : State) : Host.Outcome State Fault Refusal :=
  plain b (encFX 0x2D gd.val ga.val pos.val w.val) (fun r =>
    setG gd.val (BitVec.ofInt 32 (sgn (w.val + 1) (bits (gr r ga.val).toNat pos.val (w.val + 1)))) r) s

def execShin (b : BurinId) (gd ga : GReg) (w : Fin 32) (s : State) : Host.Outcome State Fault Refusal :=
  plain b (encFX 0x2E gd.val ga.val 0 w.val) (fun r =>
    setG gd.val ((gr r gd.val <<< (w.val + 1)) ||| BitVec.ofNat 32 (bits (gr r ga.val).toNat 0 (w.val + 1))) r) s

def execDep (b : BurinId) (gd ga : GReg) (pos w : Fin 32) (s : State) : Host.Outcome State Fault Refusal :=
  plain b (encFX 0x2F gd.val ga.val pos.val w.val) (fun r =>
    let m : Word := BitVec.ofNat 32 ((2 ^ (w.val + 1) - 1) * 2 ^ pos.val)
    setG gd.val ((gr r gd.val &&& ~~~m) ||| ((gr r ga.val <<< pos.val) &&& m)) r) s

def execMovpi (b : BurinId) (pd : PReg) (imm : BitVec 12) (s : State) : Host.Outcome State Fault Refusal :=
  plain b (encPT 0x30 pd.val 0 0 0 imm.toNat) (setP pd.val imm) s

def execMovmi (b : BurinId) (md : MReg) (imm : BitVec 12) (s : State) : Host.Outcome State Fault Refusal :=
  plain b (encPT 0x31 md.val 0 0 0 imm.toNat) (setM md.val (imm.signExtend 16)) s

def execMovpg (b : BurinId) (pd : PReg) (g : GReg) (s : State) : Host.Outcome State Fault Refusal :=
  plain b (encPT 0x32 pd.val 0 g.val 0 0) (fun r => setP pd.val ((gr r g.val).setWidth 12) r) s

def execMovgp (b : BurinId) (g : GReg) (ps : PReg) (s : State) : Host.Outcome State Fault Refusal :=
  plain b (encPT 0x33 0 ps.val g.val 0 0) (fun r => setG g.val ((pr r ps.val).setWidth 32) r) s

def execMovmg (b : BurinId) (md : MReg) (g : GReg) (s : State) : Host.Outcome State Fault Refusal :=
  plain b (encPT 0x34 md.val 0 g.val 0 0) (fun r => setM md.val ((gr r g.val).setWidth 16) r) s

def execModp (b : BurinId) (pd : PReg) (ms : MReg) (s : State) : Host.Outcome State Fault Refusal :=
  plain b (encPT 0x35 pd.val ms.val 0 0 0) (bumpP pd.val ms.val) s

def execLeap (b : BurinId) (pd ps : PReg) (g : GReg) (sh : Fin 4) (s : State) : Host.Outcome State Fault Refusal :=
  plain b (encPT 0x36 pd.val ps.val g.val sh.val 0) (fun r =>
    setP pd.val (pr r ps.val + ((gr r g.val) <<< sh.val).setWidth 12) r) s

end Sys2Proof.Machine
end

