-- ==== Sys2Proof/Machine/Session.lean ====
section
/-! DEFINITION. Sessions, queues and modes: OPEN, CLOSE, QUEUE_RESUME, FENCE, unknown opcodes and
MODE_SET (R26–R31, R403–R415), validation (R28, R33) and the stopping of a root (R142). -/

namespace Sys2Proof.Machine

/-! ### Validation (R28) -/

/-- The first resource that some burin claims while another owns it. -/
def State.claimItem (s : State) : Option Nat :=
  firstSome (fun e => firstSome (fun h => match h.2 with | .claim r => some r | _ => none) e.2.slots) s.burins

/-- A stipple port with an owner while an owned read-out tone of it has TMODE other than 2 (R237). -/
def State.stippleItem (s : State) : Option Nat :=
  firstSome (fun nn =>
    if (s.acqPort nn).stipOwner.isSome then
      firstSome (fun k =>
        if (s.owner (0x1000 + nn * 16 + k)).isSome && decide ((s.rot (nn * 16 + k)).set.tmode ≠ 2)
        then some (0x1000 + nn * 16 + k) else none) (List.range 16)
    else none) (tkeys s.acqPorts)

/-- The first failing item of the configuration: fail_kind and fail_ref (R28, R427). -/
def State.validation (s : State) : Option (Nat × Nat) :=
  match s.claimItem with
  | some r => some (1, r)
  | none =>
    match s.plates.find? (fun e => decide (e.2.st = .open_)) with
    | some e => some (2, s.addr (0x1000 + e.1))
    | none =>
      match s.chans.find? (fun e => e.2.bound && (decide (e.2.prods = []) || decide (e.2.cons = []))) with
      | some e => some (3, e.1)
      | none =>
        match firstSome (fun e => if s.configured e.1 then (s.burinDoms e.1).find? (fun d => !s.isOn d) else none) s.burins with
        | some d => some (4, d)
        | none => s.stippleItem.map (fun r => (1, r))

/-- R33: in READY and RUN a command that leaves the configuration invalid is refused. -/
def State.keepsValid (s : State) : Bool :=
  !(decide (s.sys.mode = .ready) || decide (s.sys.mode = .run)) || s.validation.isNone

/-! ### Stopping a root (R142) -/

/-- Shots of a series whose start event falls before a tick. -/
def Series.before (r : Series) (lead limit : Nat) : Nat :=
  let n := if limit + lead ≤ r.origin then 0
    else if r.period = 0 then 1 else (limit + lead - r.origin + r.period - 1) / r.period
  match r.left with
  | some k => min n k
  | none => n

/-- Shots of a series with a number before that of a stop; none where every shot is cancelled. -/
def Series.upTo (r : Series) (first : Option Nat) : Nat :=
  let n := match first with
    | none => 2 ^ 64
    | some f => let d := (f + 2 ^ 64 - r.next) % 2 ^ 64; if d < 2 ^ 63 then d else 0
  match r.left with
  | some k => min n k
  | none => n

/-- Keep so many shots of a series, drop the rest. -/
def Series.keep (r : Series) (n : Nat) : Option Series := if n = 0 then none else some { r with left := some n }

/-- The number of the first shot whose start event lies at or after a tick (R142); none where every shot starts before. -/
def firstFrom (l : List Series) (lead limit : Nat) : Option Nat :=
  firstSome (fun r => if r.left = some (r.before lead limit) then none else some ((r.next + r.before lead limit) % 2 ^ 64)) l

/-- The origin of the shot of a number. -/
def originOf (l : List Series) (first : Option Nat) : Option Nat :=
  first.bind fun f => firstSome (fun r =>
    if r.left = some (r.upTo (some f)) then none else some (r.origin + r.upTo (some f) * r.period)) l

/-- The numbered shots that a stop cancels: the first of each series, and how many (R22, R142). -/
def cancelled (l : List Series) (first : Option Nat) : List (Nat × Nat) :=
  l.filterMap fun r =>
    match r.left with
    | some k => if r.numbered && decide (r.upTo first < k) then some (r.next + r.upTo first, k - r.upTo first) else none
    | none => if r.fresh && decide (r.upTo first = 0) then some (r.next, 1) else none

/-- A running root stops at the shot of a number, its later shots cancelled (R142); `wait` are the other devices on
which it has still to stop. Answers the first cancelled number, all ones if none. -/
def haltAt (key : Nat) (first : Option Nat) (wait : List Nat) (s : State) : State × Nat :=
  let r := s.root key
  let gaps := cancelled r.series first
  let from_ := match gaps with | (f, _) :: _ => f | [] => 0xFFFFFFFFFFFFFFFF
  let count := gaps.foldl (fun a e => a + e.2) 0
  let boundary := (originOf r.series first).getD s.now
  let last := r.starts + (r.series.map fun e => e.upTo first).sum
  let s := s.setRoot key { r with
    series := r.series.filterMap (fun e => e.keep (e.upTo first)), stopAt := some boundary, remoteWait := wait }
  let s := if count = 0 then s else postGap key 1 from_ count s
  (checkStopped key (swapsDue (fixSwaps key last boundary s)), from_)

/-- The number at which a stop processed now ends a root: of its next shot, or on a root that spans devices of the first
whose start event lies at least 200 µs away (R142). -/
def State.stopNumber (s : State) (key : Nat) : Option Nat :=
  if s.spans key then firstFrom (s.root key).series (s.lead key) (s.now + us 200) else firstFrom (s.root key).series 0 0

/-- Fix the stop boundary of a running root (R142), as its home device does, and await its stop on the others. -/
def beginStop (key : Nat) (s : State) : State × Nat := haltAt key (s.stopNumber key) (s.remoteDevs key) s

/-- A root is to stop here at the shot of a number (R142, R143); the device that asks hears when it has. -/
def haltPart (root : Nat) (first : Option Nat) (src : Nat) (s : State) : State :=
  let key := s.keyOf root
  if !s.running key then tell src (.stopped root) s
  else
    let s := s.modRoot key fun r => { r with askers := r.askers ++ [src] }
    if s.stopping key then s else (haltAt key first [] s).1

/-! ### The rows -/

/-- The opcodes of the commands (R415 and the chapters that add commands). -/
def knownOpcodes : List Nat :=
  [0x01, 0x02, 0x03, 0x04, 0x10, 0x11, 0x12, 0x13, 0x14, 0x15, 0x16, 0x20, 0x21, 0x22, 0x23, 0x24, 0x25,
   0x26, 0x30, 0x31, 0x38, 0x39, 0x3A, 0x40, 0x41, 0x42, 0x43, 0x44, 0x48, 0x49, 0x4A, 0x50, 0x51, 0x52,
   0x53, 0x58, 0x59, 0x5A, 0x5B, 0x5C, 0x5D, 0x5E]

/-- UNKNOWN_COMMAND (R406): NOT_SUPPORTED. -/
def execUnknownCommand (h : Hdr) (opcode : Nat) (s : State) : Host.Outcome State Fault Refusal :=
  .next (if knownOpcodes.contains opcode then s
    else command { h with flags := 0, plen := 0, resv := none } opcode 0 anyMode
      (fun t => .no t stNotSupported (.field 0)) s)

/-- The result of OPEN (R415). -/
def openResult (v : Nat) : Nat :=
  v + queueCount v * 2 ^ 8 + queueCount v * 2 ^ 16 + entryBytes v * 2 ^ 24 + queueDepth v * 2 ^ 32

/-- OPEN (R404): the highest version served in the range. -/
def execOpen (h : Hdr) (vmin vmax : Nat) (s : State) : Host.Outcome State Fault Refusal :=
  .next (command h 0x01 4 anyMode (fun t =>
    if vmin = 0 || decide (vmax < vmin) then .bad t 0
    else if 3 < vmin then .no t stNotSupported (.field 0)
    else if t.host.protoValid then .busy t
    else { s := t, result := openResult (min vmax 3) }) s)

/-- CLOSE (R405): completes after every earlier command of its queue. -/
def execClose (h : Hdr) (s : State) : Host.Outcome State Fault Refusal :=
  .next (command h 0x02 0 anyMode (fun t => { s := t, wait := .earlier }) s)

/-- QUEUE_RESUME (R413). -/
def execQueueResume (h : Hdr) (s : State) : Host.Outcome State Fault Refusal :=
  .next (command h 0x03 0 anyMode (fun t =>
    { s := t.modSq h.sq.val fun k => { k with halted := false } }) s)

/-- The prior set of a FENCE that is the next entry of queue `q` (R411): for each masked queue, other
than its own, that is enabled, the count submitted before the doorbell that made it visible. -/
def State.priorSet (s : State) (q : Nat) (mask : BitVec 64) : List (Nat × Nat) :=
  match (s.sq q).bells with
  | [] => []
  | (_, snap) :: _ =>
    snap.filter fun e => mask.getLsbD e.1 && decide (e.1 ≠ q) && (s.sq e.1).en

/-- FENCE (R411). -/
def execFence (h : Hdr) (mask : BitVec 64) (s : State) : Host.Outcome State Fault Refusal :=
  .next (command h 0x04 8 anyMode (fun t => { s := t, wait := .prior (s.priorSet h.sq.val mask) }) s)

/-- MODE_SET READY from RUN: every running cell stops at its next boundary (R29), one that spans devices on all of them
(R143). -/
def stopAll (s : State) : State :=
  each (fun k s =>
    if s.stopping k then s
    else
      let n := s.stopNumber k
      each (fun d s => tell d (.halt (s.rootAddr k) n) s) (s.remoteDevs k) (beginStop k s).1) s.runningRoots s

/-- MODE_SET (R26, R27). -/
def modeReply (h : Hdr) (mode : Nat) (s : State) : Reply :=
  let noFault := decide (s.devFault.codes = [])
  match Mode.ofCode mode with
  | none => .bad s 0
  | some m =>
    if m = s.sys.mode then { s }
    else match s.sys.mode, m with
      | _, .safe =>
        { s := doubtDevice 12 (le 1 h.sq.val ++ pad 1 ++ le 2 h.cmdId ++ pad 28) s }
      | .configure, .ready =>
        match s.validation with
        | some (kind, ref) =>
          .bad { s with sys := { s.sys with valFailed := true, failKind := kind, failRef := ref } } 0
        | none => { s := setMode .ready { s with sys := { s.sys with valFailed := false, failKind := 0, failRef := 0 } } }
      | .ready, .configure | .ready, .run | .ready, .calibrate => { s := setMode m s }
      | .run, .ready => { s := stopAll s, wait := .cellsStopped }
      | .calibrate, .ready => { s, wait := .trims }
      | .configure, .proof | .ready, .proof | .safe, .proof | .service, .proof => { s := setMode .proof s }
      | .configure, .service | .ready, .service | .safe, .service => { s := setMode .service s }
      | .proof, .configure =>
        if !noFault then .no s stFault .doubt
        else if s.proofs.any (fun e => e.2.active) then .busy s
        else { s := setMode .configure s }
      | .service, .configure | .safe, .configure =>
        if !noFault then .no s stFault .doubt else { s := setMode .configure s }
      | _, _ => .no s stMode .mode

/-- MODE_SET; a refusal of it is logged as a mode entry (R464). -/
def execModeSet (h : Hdr) (mode : Nat) (s : State) : Host.Outcome State Fault Refusal :=
  .next (mailbox h 0x52 4 1 mode anyMode (modeReply h mode) s)

end Sys2Proof.Machine
end

