-- ==== Sys2Proof/Machine/Cells.lean ====
section
/-! DEFINITION. Configuring and loading cells (R17–R21, R49, R70, R79, R99, R120, R152–R159, R186–R188,
R200, R214, R215, R237–R241, R251, R417–R419) and the two phases of a command across devices (R138). -/

namespace Sys2Proof.Machine

/-! ### Commands across devices (R138) -/

/-- The modes that admit a command (R32), which every device of it checks (R137). -/
def taskModes : Task → List Mode
  | .start _ _ | .schedule _ _ _ _ | .series _ _ _ _ _ => [.run]
  | .stop _ | .halt _ _ | .abort _ | .clear _ _ _ _ => anyMode
  | .proof _ _ => [.configure, .ready, .run, .proof, .safe, .service]
  | _ => cfgModes

/-- Put a command into its first phase where it concerns other devices: every one of them is asked, and nothing is
applied yet (R138). This device's own refusal counts as its vote; with no link toward a device the command fails. -/
def span (t : Task) (devs : List Nat) (r : Reply) (s : State) : Reply :=
  if devs = [] then r
  else if devs.any fun d => !s.reaches d then (if failing r.status then r else .no s stFault .doubt)
  else
    let base := if failing r.status then r.s else s
    let own := if failing r.status then some (s.sys.devnum, r.status) else none
    { s := each (fun d s => tell d (.ask base.nextId t) s) devs { base with nextId := base.nextId + 1 }
      wait := .votes base.nextId devs devs own t }

/-- A command on a cell: of this device, with the others of its tree; of another device, by that device (R130, R138,
R140). -/
def onCell (a : Nat) (t : Task) (devs : List Nat) (r : Reply) (s : State) : Reply :=
  if s.isLocal a || !s.addrOk a then span t devs r s
  else if !s.reaches (deviceOf a) then .no s stFault .doubt
  else
    { s := tell (deviceOf a) (.request s.nextId t) { s with nextId := s.nextId + 1 }
      wait := .answer s.nextId (deviceOf a) }

/-! ### Ownership (R19–R21) -/

/-- What a change of owner restores: tone settings (R159), acquisition settings (R215, R241). -/
def ownerChange (res : Nat) (s : State) : State :=
  if res < 0x2000 then
    let s := s.modTone res fun t => { t with ftw := 0, phase := 0, amp := 0x7FFF, cont := false, track := 0, trackAt := 0 }
    if res < 0x1000 then s
    else
      let s := if (s.rot (res - 0x1000)).set.tmode = 2 then startTone (res - 0x1000) s else s
      s.modRot (res - 0x1000) fun r => { r with set := {}, firUse := 0, kerUse := 0 }
  else if res < 0x3000 then s
  else eachChain (fun p c => c.start s.now s.epoch p) (res - 0x3000)
    (s.modRot (0x100 + (res - 0x3000)) fun r => { r with set := {}, firUse := 0 })

def setOwner (res : Nat) (o : Option Nat) (s : State) : State :=
  if res < 0x3000 then s.modQueue res fun q => { q with owner := o, lastPlaced := none }
  else s.modAcqPort (res - 0x3000) fun p => { p with stipOwner := o }

def State.claims (s : State) (res : Nat) : List Nat :=
  if res < 0x3000 then (s.queue res).claims else (s.acqPort (res - 0x3000)).stipClaims

def setClaims (res : Nat) (l : List Nat) (s : State) : State :=
  if res < 0x3000 then s.modQueue res fun q => { q with claims := l }
  else s.modAcqPort (res - 0x3000) fun p => { p with stipClaims := l }

/-- The slot in which a burin holds or claims a resource. -/
def State.holdSlot (s : State) (b res : Nat) : Option Nat :=
  ((s.burin b).slots.find? (fun e => decide (e.2 = .owned res) || decide (e.2 = .claim res))).map Prod.fst

def setSlot (b slot : Nat) (h : SlotHold) (s : State) : State :=
  s.modBurin b fun r => { r with slots := tset .empty r.slots slot h }

/-- Ports that a change of owner or of root leaves under a condition of R180 are muted. -/
def muteHeld (s : State) : State :=
  { s with ports := tmap {} (fun p q => if q.unmuted && s.portHeld p then { q with unmuted := false } else q) s.ports }

/-- A burin becomes the owner in the slot it holds. -/
def becomeOwner (b slot res : Nat) (s : State) : State :=
  muteHeld (ownerChange res (setOwner res (some b) (setSlot b slot (.owned res) s)))

/-- What an owner leaves behind goes: the queued entries, the play or the fast voltage, the open windows (R21). -/
def restRes (res : Nat) (s : State) : State :=
  if res < 0x2000 then
    let s := discardQueue res (endPlay res s)
    if res < 0x1000 then s else s.modRot (res - 0x1000) fun r => { r with wins := [] }
  else if res < 0x3000 then discardQueue res (endFast (res - 0x2000) s)
  else s

/-- RELEASE of a resource by one burin (R418): its claim ends, or its ownership passes to the earliest
pending claim. A resource left without an owner rests (R21). -/
def releaseOne (res b : Nat) (s : State) : State :=
  match s.holdSlot b res with
  | none => s
  | some slot =>
    let s' := setSlot b slot .empty s
    if s.owner res = some b then
      let s' := restRes res s'
      match s.claims res with
      | [] => ownerChange res (setOwner res none s')
      | c :: rest =>
        let s' := setClaims res rest s'
        match s'.holdSlot c res with
        | some k => becomeOwner c k res s'
        | none => setOwner res none s'
    else setClaims res ((s.claims res).filter (· != b)) s'

/-! ### Items (R417) -/

/-- What an item comes to: the state after it, or a status. -/
inductive ItemOut where
  | ok (s : State)
  | no (status : Nat) (why : Why)

def itemBad : ItemOut := .no stInvalid (.field 0)

/-- OWN (R418, the case following R21). -/
def itemOwn (cell res slot : Nat) (s : State) : ItemOut :=
  if isPlate (localOf cell) || !resOk res || 16 ≤ slot then itemBad
  else
    let b := localOf cell
    let here := tget .empty (s.burin b).slots slot
    if here = .owned res || here = .claim res then .ok s
    else if here ≠ .empty || (s.holdSlot b res).isSome || 16 ≤ (s.burin b).slots.length then itemBad
    else match s.owner res with
      | none => .ok (becomeOwner b slot res s)
      | some _ =>
        if s.sys.mode = .ready || s.sys.mode = .run then .no stBusy .inUse
        else .ok (setClaims res (s.claims res ++ [b]) (setSlot b slot (.claim res) s))

/-- The resources that a target names below the cell (R417): one that it owns, or all of a class. -/
def State.targets (s : State) (cell target : Nat) (p : Nat → Bool) : Option (List Nat) :=
  let own := (s.cellRes cell).filter p
  if target = 0xFFFF then some own
  else if own.contains target then some [target] else none

def isQueue (r : Nat) : Bool := decide (r < 0x3000)
def isTone (r : Nat) : Bool := decide (r < 0x2000)
def isRo (r : Nat) : Bool := decide (0x1000 ≤ r) && decide (r < 0x2000)
def isZ (r : Nat) : Bool := decide (0x2000 ≤ r) && decide (r < 0x3000)
def isStip (r : Nat) : Bool := decide (0x3000 ≤ r)

/-- Apply one setting to every resource that the target names. -/
def setEach (cell target : Nat) (p : Nat → Bool) (ok : Bool) (f : Nat → State → State) (s : State) : ItemOut :=
  if !ok then itemBad
  else match s.targets cell target p with
    | some l => .ok (each f l s)
    | none => itemBad

/-- The ports that a target names: those of which the cell owns a tone (R157). -/
def State.portTargets (s : State) (cell target : Nat) : Option (List Nat) :=
  let own := (((s.cellRes cell).filter isTone).map tonePort).dedup
  if target = 0xFFFF then some own
  else if own.contains target then some [target] else none

/-- HOSTMUTE (R37, R180): 1 acts once each running root that owns a tone of the port has passed its next shot
boundary, at once where no such root has a further shot; after 0 the next start event of an owner unmutes the port. -/
def setHostmute (v : Bool) (p : Nat) (s : State) : State :=
  if v then
    match s.shotWaits (s.portRoots p) with
    | [] => s.modPort p fun q => { q with hostmute := true, hostmutePend := [], unmuted := false }
    | l => s.modPort p fun q => if q.hostmute then q else { q with hostmutePend := l }
  else s.modPort p fun q => { q with hostmute := false, hostmutePend := [], unmuted := q.unmuted && !q.hostmute }

/-- A port setting (R152, R156, R157): CENTER, ISINC and FSL only while no owner of a tone runs. -/
def itemPort (cell code target v : Nat) (s : State) : ItemOut :=
  let ok := if code = 0x10 then decide (v < 2 ^ 47) else if code = 0x12 then decide (v ≤ 7) else decide (v ≤ 1)
  if !ok then itemBad
  else match s.portTargets cell target with
    | none => itemBad
    | some l =>
      if code = 0x13 then .ok (each (setHostmute (v == 1)) l s)
      else if l.any (fun p => (s.portRoots p).any s.running) then .no stBusy .inUse
      else .ok (each (fun p s => s.modPort p fun q =>
        if code = 0x10 then { q with center := v } else if code = 0x11 then { q with isinc := v }
        else { q with fsl := v }) l s)

/-- A tone setting (R159). -/
def itemTone (cell code target v : Nat) (s : State) : ItemOut :=
  if code = 0x18 then
    setEach cell target isTone (decide (v < 2 ^ 48)) (fun t s => setTrack s.now (sgn 48 v) (s.tone t).cont t s) s
  else if code = 0x19 then
    setEach cell target isTone (decide (v < 2 ^ 16)) (fun t s => s.modTone t fun n => { n with phase := v }) s
  else if code = 0x1A then
    setEach cell target isTone (decide (v < 2 ^ 16)) (fun t s => s.modTone t fun n => { n with amp := v }) s
  else
    setEach cell target isTone (decide (v ≤ 1)) (fun t s => setTrack s.now (s.tone t).ftw (v == 1) t s) s

/-- A Z setting (R187): a SPAN without a PARK in the command sets PARK to 0 V (R188). -/
def itemZ (cell code target v : Nat) (parks : Nat → Bool) (s : State) : ItemOut :=
  let on (ok : Bool) (f : ZChan → ZChan) : ItemOut :=
    setEach cell target isZ ok (fun r s => s.modZ (r - 0x2000) f) s
  if code = 0x20 then
    setEach cell target isZ (decide (v ≤ 3)) (fun r s => s.modZ (r - 0x2000) fun c =>
      { c with span := v, park := if parks r || decide (v = c.span) then c.park else zeroCode v }) s
  else if code = 0x21 then on (decide (v ≤ 2)) fun c => { c with fps := v }
  else if code = 0x22 then on (decide (v < 2 ^ 18)) fun c => { c with park := v }
  else if code = 0x23 then on (decide (2 ≤ v) && decide (v ≤ 500)) fun c => { c with ztol := v }
  else on (decide (v ≤ 1)) fun c => { c with dg := v }

/-- ceil(log2 n) for n from 1 (R214, R241). -/
def clog2 (n : Nat) : Nat := Nat.clog 2 n

/-- An acquisition or window setting (R214, R241, R417): codes 0x32–0x36 also on a stipple port. A MAL
without MASH sets MASH, an NW without KSH sets KSH (`also` tells that the command has the other). -/
def itemRo (cell code target v : Nat) (also : Nat → Bool) (s : State) : ItemOut :=
  let p : Nat → Bool := if 0x32 ≤ code && decide (code ≤ 0x36) && decide (target ≠ 0xFFFF) then fun r => isRo r || isStip r
    else if 0x32 ≤ code && decide (code ≤ 0x36) then fun r => isRo r || isStip r else isRo
  let key (r : Nat) : Nat := if isStip r then 0x100 + (r - 0x3000) else r - 0x1000
  let onR (ok : Bool) (f : Nat → RoSet → RoSet) : ItemOut :=
    setEach cell target p ok (fun r s => s.modRot (key r) fun t => { t with set := f r t.set }) s
  let on (ok : Bool) (f : RoSet → RoSet) : ItemOut := onR ok fun _ => f
  match code with
  | 0x30 => setEach cell target isRo (decide (v ≤ 2)) (fun r s =>
      let s := if (s.rot (r - 0x1000)).set.tmode = 2 && v ≠ 2 then startTone (r - 0x1000) s else s
      s.modRot (r - 0x1000) fun t => { t with set := { t.set with tmode := v } }) s
  | 0x31 => on (decide (v < 2 ^ 16)) fun t => { t with aph := v }
  | 0x32 => onR (decide (1 ≤ v) && decide (v ≤ 4096)) fun r t => { t with mal := v, mash := if also r then t.mash else clog2 v }
  | 0x33 => on (decide (1 ≤ v) && decide (v ≤ 4096)) fun t => { t with mad := v }
  | 0x34 => on (decide (v ≤ 12)) fun t => { t with mash := v }
  | 0x35 => setEach cell target p (decide (v ≤ 1))
      (fun r s => s.modRot (key r) fun t => { t with set := { t.set with firsel := v }, firUse := v }) s
  | 0x36 => on (decide (v < 2 ^ 32)) fun t => { t with step := v }
  | 0x38 => on (decide (v ≤ 1)) fun t => { t with wen := v }
  | 0x39 => on (decide (v < 2 ^ 20)) fun t => { t with woff := v }
  | 0x3A => onR (decide (1 ≤ v) && decide (v ≤ 1024)) fun r t => { t with nw := v, ksh := if also r then t.ksh else clog2 v }
  | 0x3B => on (decide (v ≤ 10)) fun t => { t with ksh := v }
  | 0x3C => setEach cell target p (decide (v ≤ 1))
      (fun r s => s.modRot (key r) fun t => { t with set := { t.set with ksel := v }, kerUse := v }) s
  | _ => on (decide (v ≤ 1)) fun t => { t with kmark := v }

/-- A stipple tone (R239). -/
def itemStip (cell code target aux v : Nat) (s : State) : ItemOut :=
  let ftw := sgn 48 v
  let ok := decide (aux < 128) && (if code = 0x40 then decide (ftw.natAbs ≤ 112589990684262) else decide (v = 0))
  setEach cell target isStip ok (fun r s =>
    let was := (tget {} (s.acqPort (r - 0x3000)).stip aux).en
    let s := if code = 0x40 && !was then startStip (r - 0x3000) aux s else s
    s.modAcqPort (r - 0x3000) fun p =>
      { p with stip := tset {} p.stip aux (if code = 0x40 then { en := true, ftw, phase := bits v 48 16 } else {}) }) s

/-- One item. `items` is the whole list: two codes look for a companion in it. -/
def applyItem (cell : Nat) (items : List CfgItem) (c : CfgItem) (s : State) : ItemOut :=
  let has (code r : Nat) : Bool := items.any fun d => d.code == code && (d.target == r || d.target == 0xFFFF)
  if c.aux ≠ 0 && decide (c.code ≠ 0x40) && decide (c.code ≠ 0x41) then itemBad
  else if c.code = 0x01 then itemOwn cell c.target c.value s
  else if c.code = 0x02 then
    if c.value ≠ 0 then itemBad
    else if c.target = 0xFFFF then
      .ok (each (fun b s => each (fun h s => match h.2 with
          | .owned r => releaseOne r b s
          | .claim r => releaseOne r b s
          | .empty => s) (s.burin b).slots s) (s.burinsOf cell) s)
    else if !resOk c.target then itemBad
    else .ok (each (releaseOne c.target) (s.burinsOf cell) s)
  else if c.code = 0x03 then
    if c.target = 0 && 200 ≤ c.value && decide (c.value ≤ 1000000) then
      .ok (s.modCell (s.keyOf cell) fun k => { k with startLead := c.value }) else itemBad
  else if c.code = 0x04 then
    setEach cell c.target isQueue (decide (20 ≤ c.value) && decide (c.value ≤ 1250))
      (fun r s => s.modQueue r fun q => { q with floor := c.value }) s
  else if c.code = 0x05 then
    if c.target = 0 && decide (c.value < 64) then
      .ok (s.modCell (s.keyOf cell) fun k => { k with recring := c.value }) else itemBad
  else if c.code = 0x06 then
    if c.target = 0 && decide (c.value < 2 ^ 21) && decide (bits c.value 12 4 = 0) then
      .ok (each (fun b s => s.modBurin b fun r =>
        { r with ctab := some (bits c.value 0 12, bits c.value 16 4 + 1, bits c.value 20 1) }) (s.burinsOf cell) s)
    else itemBad
  else if 0x10 ≤ c.code && decide (c.code ≤ 0x13) then itemPort cell c.code c.target c.value s
  else if 0x18 ≤ c.code && decide (c.code ≤ 0x1B) then itemTone cell c.code c.target c.value s
  else if 0x20 ≤ c.code && decide (c.code ≤ 0x24) then itemZ cell c.code c.target c.value (fun r => has 0x22 r) s
  else if (0x30 ≤ c.code && decide (c.code ≤ 0x36)) || (0x38 ≤ c.code && decide (c.code ≤ 0x3D)) then
    itemRo cell c.code c.target c.value (fun r => if c.code = 0x32 then has 0x34 r else has 0x3B r) s
  else if c.code = 0x40 || c.code = 0x41 then itemStip cell c.code c.target c.aux c.value s
  else itemBad

/-- Items in order: all of them, or the index and status of the first that fails (R417); in READY and
RUN each must keep the configuration valid (R33). -/
def applyItems (cell : Nat) (all : List CfgItem) : List CfgItem → Nat → State → State × Option (Nat × Nat × Why)
  | [], _, s => (s, none)
  | c :: rest, k, s =>
    match applyItem cell all c s with
    | .no st why => (s, some (k, st, why))
    | .ok s' => applyItems cell all rest (k + 1) s'

/-- The first item after which the configuration is no longer valid (R33). -/
def firstInvalid (cell : Nat) (all : List CfgItem) : List CfgItem → Nat → State → Nat
  | [], k, _ => k - 1
  | c :: rest, k, s =>
    match applyItem cell all c s with
    | .no _ _ => k
    | .ok s' => if s'.keepsValid then firstInvalid cell all rest (k + 1) s' else k

/-- A pair of SPAN and FPS that R186 refuses. -/
def pairRefused (c : ZChan) : Bool := decide (c.fps = 2) && (decide (c.span = 1) || decide (c.span = 3))

/-- A channel whose range has changed (R200): the play ends, the entries go, the switch closes and the
ladder takes the code for 0 V. -/
def rangeChange (z : Nat) (s : State) : State :=
  let s := (discardQueue (0x2000 + z) (zPark z s)).modZ z fun c => { c with preTrim := none }
  zLoad z (zeroCode (s.z z).span) s

/-- A channel in SAFE_PARK whose PARK code is another now drives that (R198, R202). -/
def parkChange (z : Nat) (s : State) : State := zLoad z (s.z z).park s

/-- Channels that an item list touches with SPAN or FPS. -/
def rangeItems (s : State) (cell : Nat) (items : List CfgItem) : List Nat :=
  (items.flatMap fun c =>
    if c.code = 0x20 || c.code = 0x21 then
      (if c.target = 0xFFFF then (s.cellRes cell).filter isZ else [c.target]).map (· - 0x2000)
    else []).dedup

/-- The index of the last SPAN or FPS item for a channel. -/
def rangeIndex (z : Nat) (items : List CfgItem) : Nat :=
  ((indexed (items.map fun c => if (c.code == 0x20 || c.code == 0x21) && (c.target == 0x2000 + z || c.target == 0xFFFF) then 1 else 0)).filter
    (fun e => e.2 == 1)).foldl (fun _ e => e.1) 0

/-- CELL_CONFIGURE on this device (R417, R418). -/
def configureReply (cell : Nat) (items : List CfgItem) (s : State) : Reply :=
  if !s.cellExists cell then .bad s 0
  else if items = [] || 1024 < items.length then .bad s 4
  else
    let bs := s.burinsOf cell
    if bs.any s.tileBad then .bad s 0
    else if s.cellInUse cell then .busy s
    else match applyItems cell items items 0 s with
      | (_, some (k, st, why)) => { s, status := st, result := k, why := match why with | .field _ => .field (8 + 16 * k) | w => w }
      | (s', none) =>
        let zs := rangeItems s' cell items
        match zs.find? (fun z => pairRefused (s'.z z)) with
        | some z => { s, status := stInvalid, result := rangeIndex z items, why := .field (8 + 16 * rangeIndex z items) }
        | none =>
          if !s'.keepsValid then
            { s, status := stInvalid, result := firstInvalid cell items items 0 s, why := .configured (localOf cell) }
          else
            let t := each (fun z t => if (s'.z z).span ≠ (s.z z).span || (s'.z z).fps ≠ (s.z z).fps then rangeChange z t else t) zs s'
            { s := each parkChange (tkeys (t.zch.filter fun e => e.2.st == .safePark && decide (e.2.park ≠ e.2.code))) t }

/-! ### CELL_LOAD (R70, R79, R99, R419) -/

/-- Opcodes that a loaded patch defines (R98). -/
def State.patched (s : State) (op : Nat) : Bool :=
  match tget none s.patches.dispatch op with
  | some _ => true
  | none => false

/-- The words of an image in package memory. -/
def State.wordsAt (s : State) (a : Nat) : Nat → List Nat
  | 0 => []
  | n + 1 => s.numAt a 4 :: s.wordsAt (a + 4) n

/-- Registers as CELL_LOAD leaves them (R70): all 0 but the presets. -/
def loadRegs (preset : Nat) (presets : List Word) (dmem : List Nat) : Regs :=
  { g := (indexed (presets.map BitVec.toNat)).foldl
      (fun m e => if preset.testBit e.1 then tset 0 m e.1 (BitVec.ofNat 32 e.2) else m) []
    dmem := tsetRun 0 [] 0 (dmem.map (BitVec.ofNat 32)) }

/-- Load one burin. -/
def loadBurin (img : List Nat) (streamed : Bool) (base : Nat) (regs : Regs) (b : Nat) (s : State) : State :=
  let s := s.modBurin b fun r => { r with
    regs, micro := {}, loaded := true, streamed, imgBase := base, imgLen := img.length
    buf := if streamed then [] else tsetRun 0 [] 0 (img.map (BitVec.ofNat 32))
    lines := [], fetching := none, underrun := false, running := false, waiting := none, hold := none }
  let s := each (fun r s => if r < 0x3000 then s.modQueue r fun q => { q with lastPlaced := none } else s) (s.owned b) s
  flushEnds (s.burinEnd b) true s

/-- CELL_LOAD on this device. -/
def loadReply (cell flags preset image length dwords dmem : Nat) (presets : List Word) (s : State) : Reply :=
  let streamed := flags % 2 = 1
  if !s.cellExists cell then .bad s 0
  else if 2 ≤ flags then .bad s 4
  else if image % 32 ≠ 0 || !(if streamed then inProgram image (4 * length) else inProgStag image (4 * length)) then .bad s 8
  else if length = 0 || 65536 < length || (!streamed && 512 < length) then .bad s 16
  else if 4096 < dwords then .bad s 20
  else if dwords ≠ 0 && !inProgStag dmem (4 * dwords) then .bad s 24
  else
    let bs := s.burinsOf cell
    if bs.any s.tileBad then .bad s 0
    else if s.cellInUse cell then .busy s
    else if !s.isOn 4 then .no s stInvalid (.domain 4)
    else match bs.find? (fun b => !s.isOn (folioDom b)) with
      | some b => .no s stInvalid (.domain (folioDom b))
      | none =>
        if s.poisoned image (4 * length) then .no (noteUe (s.firstBad image (4 * length)) s) stFault (.field 8)
        else if s.poisoned dmem (4 * dwords) then .no (noteUe (s.firstBad dmem (4 * dwords)) s) stFault (.field 24)
        else
          let img := s.wordsAt image length
          if !imageOk s.patched img streamed then .bad s 8
          else { s := each (loadBurin img streamed image (loadRegs preset presets (s.wordsAt dmem dwords))) bs s }

/-! ### The rows -/

def execCellConfigure (h : Hdr) (cell : Nat) (items : List CfgItem) (s : State) : Host.Outcome State Fault Refusal :=
  .next (command h 0x10 (8 + 16 * items.length) cfgModes (fun t =>
    onCell cell (.configure cell items) (t.cellDevs cell) (configureReply cell items t) t) s)

def execCellLoad (h : Hdr) (cell flags preset image length dwords dmem : Nat) (presets : List Word) (s : State) :
    Host.Outcome State Fault Refusal :=
  .next (command h 0x11 96 cfgModes (fun t =>
    onCell cell (.load cell flags preset image length dwords dmem presets) (t.cellDevs cell)
      (loadReply cell flags preset image length dwords dmem presets t) t) s)

end Sys2Proof.Machine
end

