-- ==== Sys2Proof/Machine/HostBus.lean ====
section
/-! DEFINITION. The host interface (R365, R390–R405): BAR0 registers, doorbells, heartbeat, BAR2. -/

namespace Sys2Proof.Machine

/-- The host reaches the device: PD02 HOST is On and the link is up (R364, R390). -/
def State.hostReach (s : State) : Bool := s.isOn 2 && s.host.linkUp

/-! ### Reading BAR0 (R390–R399) -/

/-- IDENT (R391). -/
def identWord : Nat := 0x1024 + Config.siliconRev.toNat * 2 ^ 16 + 0x5A * 2 ^ 24

/-- PROTO (R392): 0 until boot step 3 has ended (R544). -/
def State.proto (s : State) : Nat := if s.boot.step < 4 || 8 ≤ s.boot.step then 0 else
  0xE + (if s.host.protoValid then s.host.version else 0) * 2 ^ 8 + Config.fwVersion.toNat * 2 ^ 16

/-- DEVSTAT (R393). -/
def State.devstat (s : State) : Nat :=
  s.sys.mode.code + s.boot.step * 16 + bit s.faultN 8 + bit s.host.protoValid 9
    + bit (s.host.sqs.any fun e => e.2.halted) 10 + s.sys.devnum * 2 ^ 16 + bit s.sys.dnv 30

def SQ.ctl (k : SQ) : Nat := bit k.en 0 + k.cq * 2 + bit k.halted 16 + bit k.baddb 17
def CQ.ctl (k : CQ) : Nat := bit k.en 0 + k.vec * 2 + bit k.ien 7 + k.cnt * 2 ^ 8 + k.itime * 2 ^ 16

/-- An aligned 32-bit read of BAR0 (R390): offsets not listed read 0. -/
def State.bar0 (s : State) (o : Nat) : Nat :=
  if o = 0x0000 then identWord
  else if o = 0x0004 then s.proto
  else if o = 0x0008 then s.devstat
  else if o = 0x000C then s.host.faultsum.toNat
  else if o = 0x0010 then s.host.hbDev
  else if o = 0x0014 then s.host.hbHost.toNat
  else if o = 0x0018 then s.host.hbTimeout
  else if o = 0x001C then s.host.irqctl.toNat
  else if 0x1000 ≤ o && decide (o < 0x1400) then
    let k := s.sq ((o - 0x1000) / 16)
    if o % 16 = 0 then k.baseLo else if o % 16 = 4 then k.baseHi else if o % 16 = 8 then k.ctl else 0
  else if 0x2000 ≤ o && decide (o < 0x2400) then
    let k := s.cq ((o - 0x2000) / 16)
    if o % 16 = 0 then k.baseLo else if o % 16 = 4 then k.baseHi else if o % 16 = 8 then k.ctl else 0
  else if 0x3000 ≤ o && decide (o < 0x3200) then
    if o % 8 = 0 then (s.sq ((o - 0x3000) / 8)).submitted else (s.cq ((o - 0x3000) / 8)).consumed
  else if 0x8000 ≤ o && decide (o < 0x8400) then (s.msixWord ((o - 0x8000) / 4)).toNat
  else if 0x9000 ≤ o && decide (o < 0x9008) then
    ((List.range 32).map fun k => bit (tget false s.host.msixPba ((o - 0x9000) * 8 + k)) k).sum
  else 0

/-! ### Writing BAR0 -/

/-- SQDB (R400): the count of entries submitted; refused where it breaks its rule. -/
def writeSqdb (q n : Nat) (opens : Bool) (s : State) : State :=
  let k := s.sq q
  let refuse := !k.en || decide (s.depthNow < (n + 65536 - k.completed) % 65536)
    || (decide (q = 0) && s.host.openPending)
  if refuse then setSum 13 (s.setSq q { k with baddb := true })
  else
    let snap := s.host.sqs.map fun e => (e.1, e.2.submitted)
    let s := s.setSq q { k with submitted := n, bells := k.bells ++ [(n, snap)] }
    if opens && decide (q = 0) then { s with host := { s.host with openPending := true } } else s

/-- CQDB (R400): the count of completions consumed. A refusal shows in BADDB of the queue's number. -/
def writeCqdb (q n : Nat) (s : State) : State :=
  let k := s.cq q
  let step := (n + 65536 - k.consumed) % 65536
  if !k.en || decide ((k.written + 65536 - k.consumed) % 65536 < step) then
    setSum 13 (s.modSq q fun k => { k with baddb := true })
  else s.setCq q { k with consumed := n, slots := k.slots.drop step }

/-- SQCTL (R398). -/
def writeSqctl (q : Nat) (v : Word) (s : State) : State :=
  s.modSq q fun k =>
    let idle := decide (k.submitted = k.completed)
    { k with
      cq := if k.en then k.cq else bits v.toNat 1 6
      en := if v.getLsbD 0 then true else if idle then false else k.en
      baddb := k.baddb && !v.getLsbD 17 }

/-- CQCTL (R399). -/
def writeCqctl (q : Nat) (v : Word) (s : State) : State :=
  s.modCq q fun k =>
    { k with
      en := v.getLsbD 0, vec := bits v.toNat 1 6, ien := v.getLsbD 7
      cnt := bits v.toNat 8 8, itime := bits v.toNat 16 16 }

/-- A write of FAULTSUM (R394): ones clear; a bit whose latch is still set sets again. -/
def writeFaultsum (v : Word) (s : State) : State :=
  let s := { s with host := { s.host with faultsum := s.host.faultsum &&& ~~~v } }
  each (fun k s => if s.latchBits.testBit k then setSum k s else s) [0, 1, 6, 8, 10, 12] s

/-- The heartbeat timer starts where TIMEOUT is nonzero, outside BOOT (R395). -/
def hbRestart (s : State) : State :=
  { s with host := { s.host with
      hbStart := if s.host.hbTimeout ≠ 0 && decide (s.sys.mode ≠ .boot) then some s.now else none } }

def writeHbHost (v : Word) (s : State) : State := hbRestart { s with host := { s.host with hbHost := v } }

def writeHbCtl (v : Word) (s : State) : State :=
  hbRestart { s with host := { s.host with hbTimeout := v.toNat % 65536 } }

/-- A word of the MSI-X table (R396): unmasking a vector that pends raises it. -/
def writeMsix (k : Nat) (v : Word) (s : State) : State :=
  let v := if k % 4 = 0 then v &&& ~~~3#32 else if k % 4 = 3 then v &&& 1#32 else v
  let s := { s with host := { s.host with msixTable := tset (msixDefault k) s.host.msixTable k v } }
  if k % 4 = 3 && !v.getLsbD 0 && tget false s.host.msixPba (k / 4) then
    raiseVec (k / 4) { s with host := { s.host with msixPba := tset false s.host.msixPba (k / 4) false } }
  else s

/-- A BASE write (R398): ignored while the queue is enabled; BASE_LO [11:0] read 0. -/
def writeBase (sub hiHalf : Bool) (q : Nat) (v : Word) (s : State) : State :=
  let lo := v.toNat / 4096 * 4096
  if sub then
    s.modSq q fun k => if k.en then k else if hiHalf then { k with baseHi := v.toNat } else { k with baseLo := lo }
  else
    s.modCq q fun k => if k.en then k else if hiHalf then { k with baseHi := v.toNat } else { k with baseLo := lo }

/-- An aligned 32-bit write of BAR0 (R390): read-only registers and offsets not listed ignore it. -/
def writeBar0 (o : Nat) (v : Word) (s : State) : State :=
  if o = 0x000C then writeFaultsum v s
  else if o = 0x0014 then writeHbHost v s
  else if o = 0x0018 then writeHbCtl v s
  else if o = 0x001C then { s with host := { s.host with irqctl := v &&& 0x7F7F#32 } }
  else if 0x1000 ≤ o && decide (o < 0x1400) then
    let q := (o - 0x1000) / 16
    if o % 16 = 0 then writeBase true false q v s else if o % 16 = 4 then writeBase true true q v s
    else if o % 16 = 8 then writeSqctl q v s else s
  else if 0x2000 ≤ o && decide (o < 0x2400) then
    let q := (o - 0x2000) / 16
    if o % 16 = 0 then writeBase false false q v s else if o % 16 = 4 then writeBase false true q v s
    else if o % 16 = 8 then writeCqctl q v s else s
  else if 0x3000 ≤ o && decide (o < 0x3200) then
    if o % 8 = 0 then writeSqdb ((o - 0x3000) / 8) (v.toNat % 65536) false s
    else writeCqdb ((o - 0x3000) / 8) (v.toNat % 65536) s
  else if 0x8000 ≤ o && decide (o < 0x8400) then writeMsix ((o - 0x8000) / 4) v s
  else s

/-! ### The rows -/

/-- PCIE_LINK_UP (R364): training settles on a generation and a width. -/
def execPcieLinkUp (gen width : Nat) (s : State) : Host.Outcome State Fault Refusal :=
  .next (if s.isOn 2 then
    { s with host := { s.host with linkUp := true, linkGen := gen, linkWidth := width } } else s)

/-- PCIE_LINK_DOWN (R365, R405): the session closes without a completion; what has committed stands. -/
def execPcieLinkDown (s : State) : Host.Outcome State Fault Refusal :=
  .next (let s := closeSession s
    { s with host := { s.host with linkUp := false, linkGen := 0, linkWidth := 0 } })

def execSqdb (q : Fin 64) (value : Word) (opens : Bool) (s : State) : Host.Outcome State Fault Refusal :=
  .next (if s.hostReach then writeSqdb q.val (value.toNat % 65536) opens s else s)

def execCqdb (q : Fin 64) (value : Word) (s : State) : Host.Outcome State Fault Refusal :=
  .next (if s.hostReach then writeCqdb q.val (value.toNat % 65536) s else s)

def execSqctl (q : Fin 64) (value : Word) (s : State) : Host.Outcome State Fault Refusal :=
  .next (if s.hostReach then writeSqctl q.val value s else s)

def execFaultsum (value : Word) (s : State) : Host.Outcome State Fault Refusal :=
  .next (if s.hostReach then writeFaultsum value s else s)

def execHbHost (value : Word) (s : State) : Host.Outcome State Fault Refusal :=
  .next (if s.hostReach then writeHbHost value s else s)

def execHbCtl (value : Word) (s : State) : Host.Outcome State Fault Refusal :=
  .next (if s.hostReach then writeHbCtl value s else s)

/-- REGISTER_WRITE (R390): any access but an aligned 32-bit one has no effect. -/
def execRegisterWrite (offset bytes : Nat) (value : Word) (s : State) : Host.Outcome State Fault Refusal :=
  .next (if s.hostReach && decide (bytes = 4) && decide (offset % 4 = 0) then writeBar0 offset value s else s)

/-- HB_DEV_ADVANCE (R395): the Atelier advances the count while it runs. -/
def execHbDevAdvance (s : State) : Host.Outcome State Fault Refusal :=
  .next (if s.isOn 1 && decide (4 ≤ s.boot.step) && decide (s.boot.step ≤ 7) && decide (s.host.hbDevAt + us 1000 ≤ s.now) then
      { s with host := { s.host with hbDev := (s.host.hbDev + 1) % 65536, hbDevAt := s.now } }
    else s)

/-- HEARTBEAT_TIMEOUT (R395): a device-scope doubt once TIMEOUT has passed without a write. -/
def execHeartbeatTimeout (s : State) : Host.Outcome State Fault Refusal :=
  .next (match s.host.hbStart with
    | some t =>
      if s.host.hbTimeout ≠ 0 && decide (s.sys.mode ≠ .boot)
          && decide (t + us (1000 * s.host.hbTimeout) ≤ s.now) then
        let s := { s with host := { s.host with hbStart := none } }
        doubtDevice 11 (le 2 s.host.hbTimeout ++ pad 30) (setSum 12 s)
      else s
    | none => s)

/-- COMPLETION_RELEASE (R402): a slot is free, and the oldest held completion takes it. -/
def execCompletionRelease (cq : Fin 64) (s : State) : Host.Outcome State Fault Refusal :=
  .next (match (s.cq cq.val).held with
    | e :: rest =>
      if s.cqFree cq.val then
        writeCompletion cq.val e (s.modCq cq.val fun k => { k with held := rest })
      else s
    | [] => s)

/-- CQ_INTERRUPT_TIMER (R399): ITIME after the first unsignalled completion. -/
def execCqInterruptTimer (cq : Fin 64) (s : State) : Host.Outcome State Fault Refusal :=
  .next (let k := s.cq cq.val
    if timerDue k.ien k.itime k.unsigAt s.now then raiseVec k.vec (s.setCq cq.val { k with unsigAt := none, unsig := 0 }) else s)

/-- BAR2_READ (R397): the bytes; all ones while PD04 MEM is not On; poisoned data on an error. -/
def execBar2Read (addr len : Nat) (s : State) : Host.Outcome State Fault Refusal :=
  .next (if !s.hostReach || !inRegion 0 (2 ^ 30) addr len then s
    else if !s.isOn 4 then { s with out := { s.out with bar2 := List.replicate len 0xFF, bar2Poison := false } }
    else if s.poisoned addr len then
      let s := noteUe (s.firstBad addr len) s
      { s with out := { s.out with bar2 := s.bytesAt addr len, bar2Poison := true } }
    else { s with out := { s.out with bar2 := s.bytesAt addr len, bar2Poison := false } })

/-- A byte of a host write that the device does not discard, with its address. -/
def State.writable (s : State) (a : Nat) : Bool := !inRing a 1 && !s.inStreamed a

/-- BAR2_WRITE (R397, R430, R436): discarded while PD04 MEM is not On; what the device holds is
discarded and counted. -/
def execBar2Write (addr : Nat) (data : List Byte) (s : State) : Host.Outcome State Fault Refusal :=
  .next (if !s.hostReach || !s.isOn 4 || !inRegion 0 (2 ^ 30) addr data.length then s
    else
      let held := (List.range data.length).any fun k => s.inStreamed (addr + k)
      let s := if held then { s with mem := { s.mem with heldWrites := s.mem.heldWrites.bump } } else s
      if (List.range data.length).all fun k => s.writable (addr + k) then
        each (fun g s => writeGranule g addr data s) (granules addr data.length) s
      else
        each (fun k s => if s.writable (addr + k) then
            writeGranule ((addr + k) / 32) (addr + k) ((data.drop k).take 1) s else s)
          (List.range data.length) s)

end Sys2Proof.Machine
end

