-- ==== Sys2Proof/Machine/TimeOps.lean ====
section
/-! DEFINITION. The time keeper's shared operations (R328–R349): steps, regression, selection, holdover. -/

namespace Sys2Proof.Machine

/-! ### Domains -/

def State.tdom (s : State) (k : Nat) : TimeDom := if k = 0 then s.time.domA else s.time.domB
def State.setTdom (s : State) (k : Nat) (d : TimeDom) : State :=
  if k = 0 then { s with time := { s.time with domA := d } } else { s with time := { s.time with domB := d } }
def State.modTdom (s : State) (k : Nat) (f : TimeDom → TimeDom) : State := s.setTdom k (f (s.tdom k))

/-! ### Stamp channels (R351, R354): 0 the pins, 1 the reference inputs, 2 the serialiser boundaries -/

/-- The domain of a channel. -/
def stampDom (chan : Nat) : Nat := if chan = 0 then 5 else if chan = 1 then 0 else 3

/-- A channel stamps: its domain is On, its loop locked, every core calibrated (R351, R354). -/
def State.stamps (s : State) (chan : Nat) : Bool :=
  s.isOn (stampDom chan) && (s.stampChan chan).locked && (s.stampChan chan).cald == 31

/-- Device time in picoseconds. -/
def State.devPs (s : State) : Int := (s.devTicks : Int) * 50

/-! ### Steps (R332) -/

/-- A time-named item is armed. -/
def State.timeNamed (s : State) : Bool :=
  (match s.alignArm with | some (.at _ named) => named | _ => false)
    || (s.mark.named && decide (s.mark.gen ≠ .idle) && decide (s.mark.gen ≠ .playing))
    || decide (s.gatePend ≠ [])
    || (s.time.timers ++ s.time.windows ++ s.time.touts).any (fun e => e.2.active)
    || s.roots.any (fun e => decide (e.2.series ≠ []))

/-- A step is allowed now. -/
def State.stepAllowed (s : State) : Bool :=
  (decide (s.sys.mode = .configure) || decide (s.sys.mode = .ready) || decide (s.sys.mode = .service)) && !s.timeNamed

/-- What every step counts and flags: time is set, and host measurements note it (R358). -/
def noteStep (s : State) : State :=
  { s with
    time := { s.time with
      st := if s.time.st = .unset then .free else s.time.st
      steps := s.time.steps.bump, stepCount := s.time.stepCount + 1, steppedFlag := true }
    tiu := tmap {} (fun _ e => if e.running then { e with stepAt := s.now :: e.stepAt } else e) s.tiu }

/-- The measured offsets of a domain after a step of `n` ticks, and the stamps of this device in messages under way. -/
def TimeDom.shift (n : Int) (d : TimeDom) : TimeDom :=
  { d with
    off := d.off - 50 * n, meas := d.meas.map fun m => (m.1, m.2 - 50 * n)
    t1 := d.t1.map (· + 50 * n)
    syncWait := d.syncWait.map fun w => (w.1, w.2 + 50 * n)
    lastSync := d.lastSync.map fun w => (w.1, w.2 + 50 * n)
    delayTx := d.delayTx.map (· + 50 * n) }

/-- Label the present tick with a device time in ticks: no edge moves, and the alignment epoch is shifted with it, as are
the release ticks, which this model keeps on the coarse count (R332). -/
def setLabel (tai : Nat) (s : State) : State :=
  let n := (tai : Int) - (s.devTicks : Int)
  let s := (s.modTdom 0 (TimeDom.shift n)).modTdom 1 (TimeDom.shift n)
  noteStep { s with
    time := { s.time with sec := tai / ticksPerSec, tick := tai % ticksPerSec, stepLog := (s.now, n) :: s.time.stepLog }
    acqPorts := tmap {} (fun _ a => { a with alignAt := a.alignAt.map fun e => ((e : Int) + n).toNat }) s.acqPorts }

/-- A relative step. -/
def stepBy (d : Int) (s : State) : State := setLabel ((s.devTicks : Int) + d).toNat s

/-! ### Regression (R335): least squares over the latest 16 measurements -/

/-- n·Sxx, n·Sxy and n·Syy of points taken about their last. -/
def sums (l : List (Int × Int)) : Int × Int × Int :=
  let n : Int := l.length
  let (x0, y0) := match l with | p :: _ => p | [] => (0, 0)
  let l := l.map fun p => (p.1 - x0, p.2 - y0)
  let sx := (l.map Prod.fst).sum
  let sy := (l.map Prod.snd).sum
  (n * (l.map fun p => p.1 * p.1).sum - sx * sx, n * (l.map fun p => p.1 * p.2).sum - sx * sy
  , n * (l.map fun p => p.2 * p.2).sum - sy * sy)

/-- The residual of the fit is below a threshold, in ps rms. -/
def fits (l : List (Int × Int)) (thr : Int) : Bool :=
  let (xx, xy, yy) := sums l
  decide (0 < xx) && decide (yy * xx - xy * xy < thr * thr * xx * ((l.length : Int) * l.length))

/-- Rate of the fit in 10^-15, halves up: its slope is in ps per tick of 50 ps. -/
def rateOf (l : List (Int × Int)) : Int :=
  let (xx, xy, _) := sums l
  if xx = 0 then 0 else (xy * 40000000000000 + xx) / (2 * xx)

/-- Lock threshold in ps rms (R335, R337). -/
def lockThreshold (d : TimeDom) : Int :=
  if d.set.source = 1 then (if d.set.profile = 0 && !d.noL1 then 200 else 50000) else if d.set.source = 2 then 50 else 20

/-- Servo bandwidth in mHz: the setting, or the default of the source (R334, R335). -/
def bandwidthOf (a : DomSettings) : Nat :=
  if a.bw ≠ 0 then a.bw
  else if a.source = 1 then (if a.profile = 0 then 100 else 10) else if a.source = 2 then 1000 else 10000

/-! ### Steering (R330) -/

/-- ±100 ppm in units of 10^-15. -/
def ppm100 : Int := 100000000000

/-- The steering in force at a tick: it has moved toward its target by at most SLEWACC × 1 ms in any 1 ms; SLEWACC has the
unit 0.01 ns/s², which is 10 units of 10^-15 in 1 ms. -/
def TimeKeeper.steerNow (t : TimeKeeper) (now : Nat) : Int :=
  let room : Int := (t.servo.slewacc * 10 * (now - t.steerAt) / (ticksPerSec / 1000) : Nat)
  t.steer + max (-room) (min room (t.steerTo - t.steer))

/-- The steering takes a new target, within ±100 ppm, and goes on from where it is. -/
def TimeKeeper.steerToward (t : TimeKeeper) (now : Nat) (y : Int) : TimeKeeper :=
  { t with steer := t.steerNow now, steerAt := now, steerTo := max (-ppm100) (min ppm100 y) }

/-- What the servo aims at: the rate of the domain, and the steering that removes its offset, which never exceeds SLEW
(R342), whose unit of 0.01 ns/s is 10^4 units of 10^-15. -/
def State.servoAim (s : State) (d : TimeDom) : Int :=
  let lim : Int := (s.time.servo.slew * 10000 : Nat)
  d.y + max (-lim) (min lim (Config.servoTrim (bandwidthOf d.set) d.off d.y s.free))

/-! ### Selection and holdover (R341–R344) -/

/-- The offset of a domain lies beyond a step's threshold of 1 µs. -/
def TimeDom.beyond (d : TimeDom) : Bool := 1000000 < d.off.natAbs

/-- The step of device time to a domain, in ticks: its offset to the nearest tick, halves up. -/
def TimeDom.stepTicks (d : TimeDom) : Int := (d.off + 25) / 50

/-- Device time steps to a domain. -/
def stepTo (k : Nat) (s : State) : State :=
  (stepBy (s.tdom k).stepTicks s).modTdom k fun d => { d with far := false }

/-- Select a domain that is TRACKING (R342): a change of domain counts as a switch, its offset is slewed out, and the
steering goes on from where it is. -/
def selectDom (k : Nat) (s : State) : State :=
  let d := s.tdom k
  let switch := decide (s.time.sel ≠ k) && decide (s.time.sel ≠ 0xFF)
  { s with free := s.free + 1, time := { s.time.steerToward s.now (s.servoAim d) with
      sel := k, st := .tracking, herr := 0, holdMs := 0
      slewing := decide (lockThreshold d < d.off.natAbs)
      switches := if switch then s.time.switches.bump else s.time.switches
      switchedFlag := s.time.switchedFlag || switch } }

/-- The selected domain has left TRACKING with no switch-over (R343): the steering goes to its last regressed rate and
holds; the offset not removed enters e0. The uncertainties of the regression are free values. -/
def holdover (d : TimeDom) (s : State) : State :=
  { s with
    free := s.free + 2
    time := { s.time.steerToward s.now d.y with
      st := .holdover, slewing := false, holdMs := 0, holdAt := s.now, herr := 0
      e0 := (Config.freeNat s.free : Int) + d.off.natAbs, sigmaY := Config.freeNat (s.free + 1) } }

/-- A domain has left TRACKING; if device time followed it, AUTO selects the other or holdover begins. -/
def leftTracking (k : Nat) (s : State) : State :=
  if s.time.sel = k && decide (s.time.st = .tracking) then
    let o := s.tdom (1 - k)
    if s.time.servo.selmode = 1 && decide (o.st = .tracking) && !o.far then selectDom (1 - k) s
    else holdover (s.tdom k) s
  else s

/-- A domain becomes LOST (R335, R339, R340); nothing where its source is NONE. -/
def loseDom (k : Nat) (f : TimeDom → TimeDom) (s : State) : State :=
  let d := s.tdom k
  if d.st = .disabled || d.st = .lost then s
  else leftTracking k (s.setTdom k (f { d with st := .lost, meas := [] }))

/-- Both domains of the given sources become LOST. -/
def loseSources (p : DomSettings → Bool) (f : TimeDom → TimeDom) (s : State) : State :=
  each (fun k s => if p (s.tdom k).set then loseDom k f s else s) [0, 1] s

/-- A domain enters TRACKING (R332, R335, R341, R541). -/
def enterTracking (k : Nat) (s : State) : State :=
  let first := !(s.tdom k).tracked
  let s := s.modTdom k fun d => { d with st := .tracking, tracked := true, trackSince := s.now, far := d.beyond }
  let wanted := decide (s.time.sel = k) || (k == 0 && first && s.boot.autosel && decide (s.time.sel = 0xFF))
    || (s.time.servo.selmode = 1 && decide (s.time.st = .holdover))
  if (s.tdom k).beyond then
    if wanted && s.stepAllowed then selectDom k (stepTo k s) else s
  else if wanted then selectDom k s else s

/-- A measurement of a domain: domain time less device time, in ps. `held` keeps the domain ACQUIRING. The selected
domain's gives the servo its aim (R330, R342). -/
def measure (k : Nat) (off : Int) (held : Bool) (s : State) : State :=
  let d := s.tdom k
  if d.st = .disabled then s
  else
    let d := if d.st = .lost then { d with st := .acquiring, meas := [] } else d
    let l := (((s.now : Int), off) :: d.meas).take 16
    let d := { d with meas := if held then [] else l, off, y := rateOf l, missing := false, loop := false }
    let ok := decide (l.length = 16) && fits l (lockThreshold d)
    let s := s.setTdom k d
    if !held && decide (ppm100 < d.y.natAbs) then loseDom k (fun d => { d with range_ := true }) s
    else
      let s := s.modTdom k fun d => { d with range_ := false }
      if d.st = .acquiring then (if ok && !held then enterTracking k s else s)
      else if s.time.sel = k && decide (s.time.st = .tracking) then
        { s with
          free := s.free + 1
          time := { s.time.steerToward s.now (s.servoAim d) with
            slewing := s.time.slewing && decide (lockThreshold d < off.natAbs) } }
      else s

/-! ### Elements (R347) -/

/-- A time element runs: it is active, and its root if it names one is running. -/
def State.elemRuns (s : State) (e : Elem) : Bool :=
  e.active && match e.root with | some k => s.running k | none => true

/-- Go on to the next event of an element. -/
def Elem.advance (e : Elem) : Elem :=
  match e.left with
  | some n => { e with next := e.next + e.period, left := some (n - 1) }
  | none => { e with next := e.next + e.period }

/-- No event of the element is left. -/
def Elem.done (e : Elem) : Bool := e.left == some 0

end Sys2Proof.Machine
end

