-- ==== Sys2Proof/Machine/LinkOps.lean ====
section
/-! DEFINITION. What a disabled channel and a lost link do (R285, R372, R377, R380, R383, R30, R138, R148). -/

namespace Sys2Proof.Machine

/-- Disable a channel (R285): its storm or overflow flag latches, and payloads held at spacing or gate
are discarded, their credits returning. -/
def disableChan (ch : Nat) (storm : Bool) (s : State) : State :=
  let c := s.chan ch
  let held := if c.kind = 2 then (tget {} c.inj 0).heldPay.length + c.atGate.length else 0
  let c := { c with stormFlag := c.stormFlag || storm, ovfFlag := c.ovfFlag || !storm }
  let c := if c.kind = 2 then
      { c with atGate := [], inj := tset {} c.inj 0 { tget {} c.inj 0 with heldPay := [] } } else c
  let s := (s.setChan ch c).modChCtr ch fun k => { k with discarded := k.discarded.add held }
  setSum 6 (returnCredits ch held s)

/-- The port toward a device, whatever its state. -/
def State.via (s : State) (dev : Nat) : Nat := tget 0xFF s.sys.routes dev

/-- A data channel is routed across a port: one of its endpoints is that port, or lies on a device
reached through it. -/
def State.crosses (s : State) (p : Nat) (c : Channel) : Bool :=
  c.bound && c.kind == 2 && (c.prods ++ c.cons).any fun e =>
    (epClass e == 11 && epDev e == s.sys.devnum && epUnit e == p)
      || (decide (epDev e ≠ s.sys.devnum) && s.via (epDev e) == p)

/-- A channel loses its link (R383): it is disabled with its overflow flag, its consumer end discards the
queued arrivals, and payloads on their way are lost. -/
def cutChan (ch : Nat) (s : State) : State :=
  let s := disableChan ch false s
  let n := (tget {} (s.chan ch).con 0).arrivals.length
  (s.modChan ch fun c => { c with con := [], inFlight := [], credFlight := 0, cut := true }).modChCtr ch fun k =>
    { k with discarded := k.discarded.add n }

/-- A root has a device among those that are gone. -/
def State.rootLoses (s : State) (gone : Nat → Bool) (key : Nat) : Bool := (s.remoteDevs key).any gone

/-- The devices beyond a port, by their routes. -/
def State.beyondPort (s : State) (p d : Nat) : Bool := s.via d == p

/-- A spanning root has a link on a port. -/
def State.rootVia (s : State) (p key : Nat) : Bool := s.rootLoses (s.beyondPort p) key

/-- A command that waits for another device loses it. -/
def State.losesDev (s : State) (gone : Nat → Bool) (f : InFlight) : Bool :=
  match f.wait with
  | .votes _ devs _ _ _ => devs.any gone
  | .confirms _ devs _ => devs.any gone
  | .answer _ d => gone d
  | .proof id => s.joins.any fun j => j.id == id && j.owed.any fun d => d != s.sys.devnum && gone d
  | _ => false

/-- Commands that lose a device between their phases (R138): they end with FAULT; the last shot number of their root is
as before (R22), and what this device had accepted for those devices is dropped. -/
def cutPhases (gone : Nat → Bool) (s : State) : State :=
  let lost := s.host.sqs.flatMap fun e => e.2.flight.filter (s.losesDev gone)
  let s := each dropAsked lost s
  let s := each (fun f s => match f.prior with
    | some (key, n) => s.modCell key fun c => { c with lastShot := n }
    | none => s) lost s
  let s := decideFlights (s.losesDev gone) stFault (fun _ => 0) .doubt s
  { s with promises := s.promises.filter fun q => !gone q.src }

/-- The frames of a port are lost, and every credit term takes its value at entry to ACTIVE (R377, R380). -/
def Jvl.clear (j : Jvl) : Jvl :=
  { j with
    p := {}, q := {}, credits := j.advert, freed := [], txq := []
    line := { nextQ := j.line.nextQ, scr := j.line.scr }, idRun := []
    lockedLanes := [], laneIds := [], acks := [], cfgs := [], lanes := 0, feat := 0, gen := 1 }

/-- Tell the peers on the other ports, where they take CONTROL frames. -/
def tellPeers (p : Nat) (m : ControlMsg) (s : State) : State :=
  each (fun q s =>
    let j := s.jport q
    if q = p || !j.feat.testBit 0 then s else sendFrame q 2 (.control s.sys.devnum { dest := j.peerDev, msg := m }) s) (List.range 8) s

/-- The devices whose route leads to a port. -/
def State.devsBeyond (s : State) (p : Nat) : List Nat := (tkeys s.sys.routes).filter (s.beyondPort p)

/-- The peers on the other ports hear that devices are lost. -/
def tellLost (p : Nat) (l : List Nat) (s : State) : State := if l = [] then s else tellPeers p (.lost l) s

/-- What was known of links further on toward some devices holds no more. -/
def forgetCut (gone : Nat → Bool) (s : State) : State :=
  { s with sys := { s.sys with cutDevs := s.sys.cutDevs.filter fun d => !gone d } }

/-- A neighbour no longer reaches some devices to which this one's routes lead through it (R148, R383): their channels are
disabled, commands across devices lose them, and it is a link loss for the roots that span to them. -/
def loseBeyond (p : Nat) (devs : List Nat) (s : State) : State :=
  let l := devs.filter fun d => s.beyondPort p d && !s.sys.cutDevs.contains d
  if l = [] then s else
  let keys := s.spanRoots.filter (s.rootLoses l.contains)
  let chans := (s.chans.filter fun e => e.2.bound && e.2.kind == 2 &&
    (e.2.prods ++ e.2.cons).any fun x => decide (epDev x ≠ s.sys.devnum) && l.contains (epDev x)).map Prod.fst
  let s := each cutChan chans { s with sys := { s.sys with cutDevs := s.sys.cutDevs ++ l } }
  let s := tellLost p l (cutPhases l.contains s)
  each (fun k s => doubtPlate k 3 (le 1 p ++ le 1 0 ++ le 2 (s.jport p).peerDev ++ pad 28) s) keys s

/-- It reaches them again. -/
def foundBeyond (p : Nat) (devs : List Nat) (s : State) : State :=
  let l := devs.filter fun d => s.beyondPort p d && s.sys.cutDevs.contains d
  if l = [] then s else tellPeers p (.back l) (forgetCut l.contains s)

/-- A port is ACTIVE again: the other peers hear of the devices beyond it, and its own of those that this device does not
reach. -/
def linkBack (p : Nat) (s : State) : State :=
  let there := s.devsBeyond p
  let away := (tkeys s.sys.routes).filter fun d => !s.beyondPort p d && !s.reaches d
  let s := if there = [] then s else tellPeers p (.back there) s
  let j := s.jport p
  if away = [] || !j.feat.testBit 0 then s else sendFrame p 2 (.control s.sys.devnum { dest := j.peerDev, msg := .lost away }) s

/-- An ACTIVE port goes down (R372, R383): a link loss under R30 for each plate that spans through it. -/
def portLoss (p cause : Nat) (after : JvlSt) (s : State) : State :=
  let j := s.jport p
  if j.st ≠ .active then s.setJport p { j with st := after, since := s.now }
  else
    let gone := s.beyondPort p
    let devs := s.devsBeyond p
    let keys := s.spanRoots.filter (s.rootLoses gone)
    let chans := (s.chans.filter fun e => s.crosses p e.2).map Prod.fst
    let s := s.setJport p { j.clear with st := after, since := s.now, cause }
    let s := setSum 7 (s.modJctr p fun c => { c with retrains := c.retrains.bump })
    let s := each cutChan chans s
    let s := loseSources (fun a => a.source == 3 && a.port == p) id (cutPhases gone s)
    let s := tellLost p devs (forgetCut gone s)
    each (fun k s => doubtPlate k 3 (le 1 p ++ le 1 cause ++ le 2 j.peerDev ++ pad 28) s) keys s

/-- PD03 LINK is not On, or leaves On (R360, R452): every port and the time port are down. -/
def linksDown (s : State) : State :=
  let s := each (fun p s => if (s.jport p).enabled then portLoss p 5 .detect s else s) (List.range 8) s
  loseSources (fun a => a.source == 1) id { s with timePort := { s.timePort with up := false, trying10 := true, tryAt := s.now } }

end Sys2Proof.Machine
end

