-- ==== Sys2Proof/Machine/Power.lean ====
section
/-! DEFINITION. Power domains (R446–R466): leaving On, what is lost and kept, waking, wake sources, and the power
requests of the mailbox and the sideband. -/

namespace Sys2Proof.Machine

/-! ### What a domain holds -/

def domBurins (d : Nat) : List Nat := if 6 ≤ d && d ≤ 13 then (List.range 128).map ((d - 6) * 128 + ·) else []

def domPorts (d : Nat) : List Nat :=
  if 14 ≤ d && d ≤ 17 then (List.range 8).map ((d - 14) * 8 + ·) ++ (List.range 4).map (0x100 + (d - 14) * 4 + ·) else []

/-- Play-out queues whose edge lies in a domain. -/
def domQueues (d : Nat) : List Nat :=
  (domPorts d).flatMap portTones ++ (if 20 ≤ d && d ≤ 23 then (quadChans (d - 20)).map (0x2000 + ·) else [])

/-- Acquisition ports of an input domain. -/
def domAcqs (d : Nat) : List Nat := if d = 18 || d = 19 then (List.range 8).map ((d - 18) * 8 + ·) else []

/-- Settings keys of the read-out tones and stipple ports of an input domain. -/
def domRo (d : Nat) : List Nat :=
  (domAcqs d).flatMap fun nn => (List.range 16).map (nn * 16 + ·) ++ [0x100 + nn]

/-- The node for which a wake of a domain is refused (R460, R479, R485): its own or one over it. -/
def State.hotNode (s : State) (d : Nat) : Option Nat :=
  (nodesOf d).find? fun n => let x := tget {} s.house.nodes n; x.failed || x.level == 3

/-! ### Content -/

/-- The device parts of every ring are empty. -/
def emptyRings (s : State) : State :=
  { s with rings := tmap {} (fun _ r => { r with recs := [], used := 0, woff := 0 }) s.rings }

/-- The serial ports as PD03 LINK wakes: the boot configuration disables some, or limits all to generation 1 (R541). -/
def bootJvl (b : BootRec) : Tab Jvl :=
  (List.range 8).foldl (fun m p =>
    let off := b.jvlOff.testBit p
    tset {} m p { enabled := !off, st := if off then .disabled else .detect, genMax := if b.gen1 then 1 else 2 }) []

/-- The content of a domain goes to its state after a wake from Off (R8: FAULTSUM goes to 0, and a bit whose latch is
still set sets again, R394, log 137; R157, R166, R188, R215, R221, R248, R324,
R432, R455, R545). Ownership, floors and centroid tables are configuration that the Atelier holds, and stay. -/
def resetDomain (d : Nat) (s : State) : State :=
  if d = 2 then
    { s with host := { s.host with
      sqs := [], cqs := [], msixTable := [], msixPba := [], irqctl := 0, faultsum := BitVec.ofNat 32 s.latchBits } }
  else if d = 3 then
    let s := { s with jvl := bootJvl s.boot, jvlCtr := [], timePort := { tryAt := s.now } }
    ({ s with sys := { s.sys with routes := [], cutDevs := [] } }).setStampChan 2 {}
  else if d = 4 then emptyRings { s with mem := { s.mem with bytes := [], poison := [], captured := [] } }
  else if d = 5 then ({ s with mark := {}, engines := [] }).setStampChan 0 {}
  else
    let s := each (fun b s => s.modBurin b fun r => { slots := r.slots, ctab := r.ctab }) (domBurins d) s
    let s := each (fun p s => s.setPort p {}) (domPorts d) s
    let s := each (fun q s =>
        let s := s.modQueue q fun k => { owner := k.owner, claims := k.claims, floor := k.floor, returning := k.returning }
        if q < 0x2000 then s.setTone q {}
        else (s.modZ (q - 0x2000) fun c =>
          { st := .parked, ovc := c.ovc, mismatch := c.mismatch, unownedLatch := c.unownedLatch }).setZc (q - 0x2000) {}) (domQueues d) s
    let s := if 20 ≤ d then s.setZbank (d - 20) {} else s
    let s := each (fun k s => s.setRot k {}) (domRo d) s
    each (fun nn s => clearChains nn (s.modAcqPort nn fun a =>
      { stipOwner := a.stipOwner, stipClaims := a.stipClaims, alignAt := a.alignAt })) (domAcqs d) s

/-- Tiles whose reload fails are unavailable, and the device goes to SAFE (R120, R122, R124). -/
def reloadTiles (tiles : List Nat) (bad : Nat) (s : State) : State :=
  let tiles := tiles.filter bad.testBit
  if tiles = [] then s
  else
    let un := s.patches.unavailable ++ tiles.filter fun t => !s.patches.unavailable.contains t
    let s := { s with patches := { s.patches with unavailable := un } }
    doubtDevice 8 (le 8 ((un.map (2 ^ ·)).sum) ++ pad 24) s

/-- The tiles of a folio domain. -/
def domTiles (d : Nat) : List Nat := if 6 ≤ d && d ≤ 13 then (List.range 8).map ((d - 6) * 8 + ·) else []

/-- Consumers in a domain are cleared as for a wake from Off (R286). -/
def State.domEnd (s : State) (d e : Nat) : Bool :=
  let c := epClass e
  if epDev e ≠ s.sys.devnum then false
  else if c = 1 || c = 3 then folioDom (epUnit e) == d
  else if c = 5 then outDom (tonePort (unitRes (epUnit e))) == d
  else if c = 8 then d == 5
  else if c = 11 then d == 3
  else false

/-- A domain stands as after a wake from Off: its content reset, its calibration loaded, its tiles reloaded, its
consumers cleared (R454, R455, R458, R529). -/
def freshDomain (d : Nat) (i : RestoreInfo) (s : State) : State :=
  reloadTiles (domTiles d) i.badTiles (calWake d false i (flushEnds (s.domEnd d) true (resetDomain d s)))

/-! ### Leaving On (R452) -/

/-- Host measurements on a source whose channel stops stamping show it (R358). -/
def tiuUnlock (p : Nat → Bool) (s : State) : State :=
  { s with tiu := tmap {} (fun _ e =>
      if e.running && (p e.set.srca || (e.set.mode == 2 && p e.set.srcb)) then { e with unlockAt := s.now :: e.unlockAt } else e) s.tiu }

/-- Steps 1 and 2 of R452, and its effects on other parts of the device. -/
def leaveOn (d : Nat) (s : State) : State :=
  let s := injectDom d s
  let s := each discardQueue (domQueues d) s
  let s := each (fun q s => if q < 0x2000 then endPlay q s else zPark (q - 0x2000) s) (domQueues d) s
  let s := each mute (domPorts d) s
  let s := calLeave d (disarmDomain d s)
  if d = 2 then
    let s := closeSession s
    { s with host := { s.host with linkUp := false, linkGen := 0, linkWidth := 0 } }
  else if d = 3 then
    loseSources (fun a => a.source == 1 || a.source == 3) id (linksDown s)
  else if d = 5 then
    let s := (genIdle s).modStampChan 0 fun c => { c with locked := false, cald := 0 }
    tiuUnlock (fun src => src < 8) { s with mark := { s.mark with outs := tmap {} (fun _ o => mrkIdle o) s.mark.outs } }
  else s

/-- The Z channels of a quadrant domain stand in a state (R461). -/
def standZ (d : Nat) (st : ZState) (s : State) : State :=
  if 20 ≤ d then each (fun z s => s.modZ z fun c => { c with st }) (quadChans (d - 20)) s else s

/-- An entry begins (R452): the outputs take the levels of its target, and Z lines float for Off. -/
def enter (d target : Nat) (s : State) : State :=
  let s := if target = 2 then standZ d .float s else s
  s.modDom d fun k => { k with st := .entering, target, isolated := k.st == .retention }

def beginEntry (d target : Nat) (s : State) : State := enter d target (leaveOn d s)

/-- The content of a domain that is Off: its Z lines float (R461). -/
def loseContent (d : Nat) (s : State) : State := standZ d .float (resetDomain d s)

/-- What Retention does not keep is lost (R453). Counters stay. -/
def keepRetained (d : Nat) (s : State) : State :=
  if d = 2 then
    { s with host := { s.host with irqctl := 0, msixPba := [], faultsum := BitVec.ofNat 32 s.latchBits } }
  else if d = 3 then s.modStampChan 2 fun c => { c with locked := false, cald := 0 }
  else
    let s := each (fun b s => s.modBurin b fun r => { r with
      micro := {}, fetching := none, waiting := none, hold := none, held := [], nulls := [], iq := [], lastPoint := none }) (domBurins d) s
    let s := each (fun q s => if q < 0x2000 then s.modTone q fun t =>
        { t with track := 0, trackAt := 0, past := [], env := [], pend := none, winShot := 0, winIdx := 0 } else s) (domQueues d) s
    each (fun p s => s.modPort p fun o => { o with sums := [], rf := [], line := [] }) (domPorts d) s

/-- An entry is complete: what the target state does not keep is lost (R453). -/
def endEntry (d : Nat) (s : State) : State :=
  let t := (s.dom d).target
  let s := s.modDom d fun k => { k with st := if t = 2 then .off else .retention }
  if t = 2 then loseContent d s else keepRetained d s

/-! ### Completing requests -/

/-- The requests for a domain complete: those of the mailbox whose state satisfies a test, and the sideband's. -/
def settleDom (d : Nat) (p : Nat → Bool) (status : Nat) (why : Why) (s : State) : State :=
  let s := decideFlights (fun f => match f.wait with | .domain k st => k == d && p st | _ => false) status (fun _ => 0) why s
  let r := s.side.pwrReq.toNat
  let s := if s.side.pwrBusy && r % 32 == d && p (bits r 5 2) then
      let s := if failing status then logRefusal 2 status (d + bits r 5 2 * 256) why s else s
      { s with side := { s.side with pwrBusy := false, pwrDone := true, pwrStatus := status } }
    else s
  pump s

/-! ### Waking (R456–R460) -/

/-- A wake begins: the source is disarmed and recorded. -/
def beginWake (d source ref : Nat) (s : State) : State :=
  s.modDom d fun k => { k with
    fromOff := decide (k.st = .off), st := .waking, step := .regulator, wakeCh := none
    lastSource := source, sourceRef := ref, wakeStart := s.now, stepStart := s.now }

/-- What becomes of a wake request. -/
inductive WakeOut where
  | refused (node : Nat) (s : State)
  | taken (s : State)
  | ignored

/-- A wake request reaches the power controller (R460). While the domain is ENTERING from On, whether isolation has been
applied yet is a free value. -/
def wakeRequest (d source ref : Nat) (why : Why) (s : State) : WakeOut :=
  match (s.dom d).st with
  | .on | .waking => .ignored
  | st =>
    match s.hotNode d with
    | some n => .refused n (s.modDom d fun k => { k with thermRefused := true })
    | none =>
      if st = .entering then
        let s := { s with free := s.free + 1 }
        if !(s.dom d).isolated && Config.freeNat (s.free - 1) % 2 = 0 then
          let s := (standZ d .parked s).modDom d fun k => { k with
            st := .on, wakeCh := none, lastSource := source, sourceRef := ref }
          .taken (settleDom d (· != 0) stBusy why s)
        else .taken (beginWake d source ref (settleDom d (· != 0) stOk why (endEntry d s)))
      else .taken (beginWake d source ref s)

/-- An event on a channel passes its gate point: every domain that it is armed for wakes (R459). A thermal refusal
leaves the source armed and is logged (R460, R464). -/
def hatchWake (ch : Nat) (s : State) : State :=
  each (fun d s =>
    if (s.dom d).wakeCh = some ch then
      match wakeRequest d 4 ch (.wakeEvent ch) s with
      | .refused n s => logRefusal 2 stThermal d (.thermal n) s
      | .taken s => s
      | .ignored => s
    else s) (tkeys s.domains) s

/-- A domain is On (R456–R458): its record, and every request for it completes. -/
def nowOn (d : Nat) (s : State) : State :=
  let s := each (fun nn s => s.modAcqPort nn fun a => { a with conv := s.now }) (domAcqs d) s
  let s := (injectDom d s).modDom d fun k => { k with
    st := .on, wakeFailed := false, wakes := k.wakes.bump, wakeUs := (s.now - k.wakeStart) / 20000 }
  settleDom d (· == 0) stOk .doubt s

def WakeStep.code : WakeStep → Nat
  | .regulator => 1 | .oscillator => 2 | .isolation => 3 | .restore => 4

/-- A wake step has failed (R457): the domain is Off. A restore of PD04 from Off is its training, and sets MEM (R432). -/
def failWake (d : Nat) (s : State) : State :=
  let step := (s.dom d).step.code
  let s := if d = 4 && step = 4 && (s.dom 4).fromOff then setSum 9 s else s
  let s := loseContent d (s.modDom d fun k => { k with
    st := .off, failedStep := step, wakeFailed := true, failed := k.failed.bump })
  settleDom d (· == 0) stFault (.wakeTimeout step) s

/-- Memory training passes: every die with both margins at least 13/64 UI (R432). -/
def diesPass (l : List (Nat × Nat × Nat)) : Bool := l.all fun x => x.1 == 0 && 13 ≤ x.2.1 && decide (13 ≤ x.2.2)

/-- The results of training, one die after the other (R445). -/
def trainDies (l : List (Nat × Nat × Nat)) (s : State) : State :=
  { s with mem := { s.mem with dies := tsetRun (0, 0, 0) s.mem.dies 0 l, trained := s.mem.trained + 1 } }

/-- The banks whose check word differs (R454), as lost_banks shows them (R463). The check words of two contents differ
by the division of the contents' exclusive-or alone, whatever they are (R502). -/
def lostBanks (l : List (List Byte)) : Nat :=
  (((List.range 8).zip l).filter fun e => e.2.foldl crcByte 0 != 0).foldl (fun m e => m + 2 ^ e.1) 0

/-- The maximum of a wake step, in µs (R456). A folio whose retention is lost has 40 µs more for its restore. -/
def stepMax (d : Nat) (fromOff lost : Bool) : WakeStep → Nat
  | .regulator => if d < 6 then 500 else if d < 14 then 200 else if d < 20 then 1000 else 2000
  | .oscillator => if d = 3 then 5000 else if 6 ≤ d && d < 14 then 50 else 2000
  | .isolation => 10
  | .restore =>
    if d = 4 then (if fromOff then 50000 else 2000)
    else if d < 6 || 20 ≤ d then 100
    else if d < 14 then (if fromOff then 50 else if lost then 65 else 25)
    else if d < 18 then (if fromOff then 100 else 200)
    else if fromOff then 400 else 100

/-- A domain is in a wake step, and has been for more than its maximum. -/
def Domain.stepLate (k : Domain) (d : Nat) (lost : Bool) (now : Nat) : Bool :=
  decide (k.stepStart + stepMax d k.fromOff lost k.step * 20000 < now)

/-- Restore from Off, or from Retention with its check words (R454, R456). -/
def restoreDomain (d : Nat) (i : RestoreInfo) (s : State) : State :=
  if (s.dom d).fromOff then
    if d = 4 then
      let s := trainDies i.dies s
      if diesPass i.dies then nowOn d (freshDomain d i s) else failWake d s
    else
      let s := s.modDom d fun k => { k with retLost := false, lostBanks := 0 }
      nowOn d (freshDomain d i s)
  else if lostBanks i.banks ≠ 0 && d ≠ 4 then
    let s := s.modDom d fun k => { k with retLost := true, lostBanks := lostBanks i.banks, lostCtr := k.lostCtr.bump }
    nowOn d (freshDomain d i s)
  else
    let s := s.modDom d fun k => { k with retLost := false, lostBanks := 0 }
    nowOn d (each clearChains (domAcqs d) (calWake d true i s))

/-! ### Requests (R448–R450, R459) -/

/-- A domain holds a burin or resource of a burin that satisfies a test. -/
def State.domHolds (s : State) (d : Nat) (p : Nat → Bool) : Bool :=
  s.burins.any fun e => p e.1 && (s.burinDoms e.1).contains d

/-- A domain is in use (R449, R528). -/
def State.domInUse (s : State) (d : Nat) : Bool :=
  s.domHolds d (fun b => s.running (s.rootOf b)) || s.proofCoversDom d
    || (d == 3 && (s.runningRoots.any s.spans || s.chans.any fun e =>
          (List.range 8).any (fun p => s.crosses p e.2)
            && (e.2.prods ++ e.2.cons).any fun x => decide (epDev x = s.sys.devnum) && epClass x < 4 && s.running (s.rootOf (epUnit x))))
    || (d == 4 && !s.allStopped) || (d == 5 && decide (s.mark.gen ≠ .idle))

/-- A configured cell that a domain holds a part of. -/
def State.domConfigured (s : State) (d : Nat) : Option Nat :=
  (s.burins.find? fun e => s.configured e.1 && (s.burinDoms e.1).contains d).map Prod.fst

def DomSt.code : DomSt → Nat
  | .on => 0 | .retention => 1 | .off => 2 | .entering => 3 | .waking => 4

/-- The wake channel of a request: none for 0xFFFF. -/
def wakeChan (wake : Nat) : Option Nat := if wake = 0xFFFF then none else some wake

/-- The wake field keeps R459's rule. -/
def State.wakeOk (s : State) (st wake : Nat) : Bool :=
  wake == 0xFFFF || (st != 0 && (s.chan wake).bound && (s.chan wake).kind == 1 && decide (wake < 4096))

/-- A power request (R448–R450, R459, R460). -/
def powerReply (sideband : Bool) (ref d st wake : Nat) (s : State) : Reply :=
  if 23 < d then .bad s 1
  else if 2 < st then .bad s 2
  else if d < 2 then .no s stInvalid (.alwaysOn d)
  else if d = 2 && st ≠ 0 && !sideband then .no s stInvalid (.alwaysOn d)
  else if !s.wakeOk st wake then .bad s 4
  else
    let k := s.dom d
    let src := if sideband then 3 else 2
    let why : Why := .command (if sideband then 0xFF00 else 0x50 + ref % 256 * 256 + ref / 65536 * 65536)
    if k.st = .waking || (k.st = .entering && st ≠ 0) then .no s stBusy (.transition d)
    else if k.st = .entering then
      match wakeRequest d src ref why s with
      | .refused n s => .no s stThermal (.thermal n)
      | .taken s => { s, wait := if (s.dom d).st = .on then .nothing else .domain d 0 }
      | .ignored => { s }
    else if k.st.code = st then
      { s := if st = 0 then s else s.modDom d fun k => { k with wakeCh := wakeChan wake } }
    else if st = 0 then
      match wakeRequest d src ref why s with
      | .refused n s => .no s stThermal (.thermal n)
      | .taken s => { s, wait := .domain d 0 }
      | .ignored => { s }
    else if k.st = .off then .no s stInvalid (.transition d)
    else if k.st = .retention then
      -- Retention to Off: the supply goes at once into an entry of its own
      { s := (enter d st s).modDom d fun k => { k with wakeCh := wakeChan wake }, wait := .domain d st }
    else if s.domInUse d then .busy s
    else match (if s.sys.mode = .ready || s.sys.mode = .run || s.sys.mode = .calibrate then s.domConfigured d else none) with
      | some c => .no s stInvalid (.configured c)
      | none => { s := (beginEntry d st s).modDom d fun k => { k with wakeCh := wakeChan wake }, wait := .domain d st }

/-- POWER_SET DOMAIN; a refusal is logged as a domain entry (R464, R466). -/
def execPowerSetDomain (h : Hdr) (domain state wake : Nat) (s : State) : Host.Outcome State Fault Refusal :=
  .next (mailbox h 0x50 16 2 (domain % 256 + state % 4 * 256) anyMode
    (powerReply false (h.sq.val + h.cmdId % 65536 * 65536) domain state wake) s)

/-- POWER_SET GOVERNOR (R425, R449). -/
def governorReply (a : GovArgs) (s : State) : Reply :=
  let out (v : Nat) : Bool := v < 650 || 850 < v
  if 1 < a.mode then .bad s 1
  else if out a.vmin then .bad s 2
  else if out a.vmax || a.vmax < a.vmin then .bad s 4
  else if out a.vfixed || (a.mode = 1 && (a.vfixed < a.vmin || a.vmax < a.vfixed)) then .bad s 6
  else if 125 < a.nearlate then .bad s 8
  else if 1250 < a.lower || a.lower < a.nearlate + 10 then .bad s 10
  else { s := { s with gov := { s.gov with
      fixed := a.mode == 1, vmin := a.vmin, vmax := a.vmax, vfixed := a.vfixed, nearLate := a.nearlate, lower := a.lower } } }

def execPowerSetGovernor (h : Hdr) (a : GovArgs) (s : State) : Host.Outcome State Fault Refusal :=
  .next (command h 0x50 16 anyMode (governorReply a) s)

/-! ### The events -/

/-- A wake step ends, and the next begins; a step that ends past its maximum has timed out (R457). -/
def wakeStep (d : Nat) (now next : WakeStep) (s : State) : State :=
  let k := s.dom d
  if !(k.st = .waking && k.step = now) then s
  else if k.stepLate d false s.now then failWake d s
  else s.setDom d { k with step := next, stepStart := s.now }

def execRegulatorReady (d : Fin 24) (s : State) : Host.Outcome State Fault Refusal :=
  .next (wakeStep d.val .regulator .oscillator s)

def execOscillatorReady (d : Fin 24) (s : State) : Host.Outcome State Fault Refusal :=
  .next (wakeStep d.val .oscillator .isolation s)

def execIsolationRelease (d : Fin 24) (s : State) : Host.Outcome State Fault Refusal :=
  .next (wakeStep d.val .isolation .restore s)

def execRestore (d : Fin 24) (i : RestoreInfo) (s : State) : Host.Outcome State Fault Refusal :=
  .next (let k := s.dom d.val
    if !(k.st = .waking && k.step = .restore) then s
    else if k.stepLate d.val (lostBanks i.banks != 0) s.now then failWake d.val s
    else restoreDomain d.val i s)

/-- WAKE_TIMEOUT: the step's maximum is its timeout (R456, R457); before it the row says nothing. -/
def execWakeTimeout (d : Fin 24) (s : State) : Host.Outcome State Fault Refusal :=
  .next (let k := s.dom d.val
    if k.st = .waking && decide (k.stepStart + stepMax d.val k.fromOff false k.step * 20000 ≤ s.now) then failWake d.val s
    else s)

def execEntryComplete (d : Fin 24) (s : State) : Host.Outcome State Fault Refusal :=
  .next (if (s.dom d.val).st = .entering then settleDom d.val (· != 0) stOk .doubt (endEntry d.val s) else s)

end Sys2Proof.Machine
end

