-- ==== Sys2Proof/Machine/Time.lean ====
section
/-! DEFINITION. The commands and events of time (R328–R350, R387): TIME_SET, TIME_SELECT, TIME_TIMER, TIME_QUERY,
PTP and PPS, holdover, timers, windows and TIME_OUTs. -/

namespace Sys2Proof.Machine

/-! ### TIME_SET (R332, R334, R341, R424) -/

def timeModes : List Mode := [.configure, .ready, .service]

/-- STEP_ABS: the first word boundary at least 10 µs ahead takes the named time. -/
def stepAbsReply (time : Stamp) (s : State) : Reply :=
  if !stampOk time then .bad s 16
  else if !s.stepAllowed || s.time.stepPend.isSome then .busy s
  else
    let at_ := wordUp (s.now + us 10)
    let tai := stampTicks time
    { s := { s with time := { s.time with stepPend := some (at_, tai / ticksPerSec, tai % ticksPerSec) } }
      result := at_ % 2 ^ 48 }

def execTimeSetStepAbs (h : Hdr) (time : Stamp) (s : State) : Host.Outcome State Fault Refusal :=
  .next (command h 0x40 24 timeModes (stepAbsReply time) s)

/-- STEP_REL: a signed count of ticks; one that would make device time negative is refused. -/
def stepRelReply (ticks : Int) (s : State) : Reply :=
  if 140737488355328 < ticks.natAbs || (s.devTicks : Int) + ticks < 0 then .bad s 8
  else if !s.stepAllowed then .busy s
  else { s := stepBy ticks s }

def execTimeSetStepRel (h : Hdr) (ticks : Int) (s : State) : Host.Outcome State Fault Refusal :=
  .next (command h 0x40 24 timeModes (stepRelReply ticks) s)

/-- The first field of domain settings that breaks its range, by offset. -/
def domRange (a : DomSettings) : Option Nat :=
  if 3 < a.source then some 2 else if 7 < a.port then some 3 else if 1 < a.profile then some 4
  else if 127 < a.ptpdom then some 5 else if 1 < a.transport then some 6
  else if 1000000 < a.delay.natAbs then some 8 else if 10000 < a.bw then some 12 else none

/-- New settings return a domain to ACQUIRING, or to DISABLED. -/
def startDom (a : DomSettings) : TimeDom := { set := a, st := if a.source = 0 then .disabled else .acquiring }

def timeDomainReply (dom : Nat) (a : DomSettings) (s : State) : Reply :=
  if 1 < dom then .bad s 1
  else match domRange a with
    | some o => .bad s o
    | none =>
      if s.time.sel = dom && decide (s.time.st = .tracking) then .busy s
      else { s := s.setTdom dom { startDom a with tracked := (s.tdom dom).tracked, exchAt := s.now } }

def execTimeSetDomain (h : Hdr) (dom : Nat) (a : DomSettings) (s : State) : Host.Outcome State Fault Refusal :=
  .next (command h 0x40 24 timeModes (timeDomainReply dom a) s)

/-- SERVO: 0 selects a default, except for HLIMIT. -/
def timeServoReply (a : ServoArgs) (s : State) : Reply :=
  if 1 < a.selmode then .bad s 1
  else if 1 < a.revert then .bad s 2
  else if 10000 < a.slew then .bad s 4
  else if 10000 < a.slewacc then .bad s 8
  else if a.hlimit ≠ 0 && (a.hlimit < 10 || 1000000000 < a.hlimit) then .bad s 12
  else if 1000000 < a.hwander then .bad s 16
  else { s := { s with time := { s.time.steerToward s.now s.time.steerTo with servo :=
    { selmode := a.selmode, revert := a.revert, hlimit := a.hlimit
      slew := if a.slew = 0 then 100 else a.slew, slewacc := if a.slewacc = 0 then 100 else a.slewacc
      hwander := if a.hwander = 0 then 1000 else a.hwander } } } }

def execTimeSetServo (h : Hdr) (a : ServoArgs) (s : State) : Host.Outcome State Fault Refusal :=
  .next (command h 0x40 24 timeModes (timeServoReply a) s)

/-- UTC (R329): the offset that holds where no PTP domain gives one. -/
def execTimeSetUtc (h : Hdr) (offset : Int) (s : State) : Host.Outcome State Fault Refusal :=
  .next (command h 0x40 24 timeModes (fun t =>
    if offset < -32768 || 32767 < offset then .bad t 2
    else { s := { t with time := { t.time with utc := offset, utcValid := true } } }) s)

/-- TIME_SELECT (R332, R341). -/
def timeSelectReply (sel : Nat) (s : State) : Reply :=
  if sel = 0xFF then
    { s := { s with time := { s.time.steerToward s.now (s.time.steerNow s.now) with
        sel := 0xFF, st := if s.time.st = .unset then .unset else .free, slewing := false, herr := 0, holdMs := 0 } } }
  else if 1 < sel then .bad s 0
  else
    let d := s.tdom sel
    if d.st ≠ .tracking then .bad s 0
    else if d.far then
      if s.stepAllowed then { s := selectDom sel (stepTo sel s) } else .bad s 0
    else { s := selectDom sel s }

def execTimeSelect (h : Hdr) (sel : Nat) (s : State) : Host.Outcome State Fault Refusal :=
  .next (command h 0x41 4 [.configure, .ready, .run, .calibrate, .safe, .service] (timeSelectReply sel) s)

/-! ### TIME_TIMER (R347) -/

def elemCount (element : Nat) : Nat := if element = 0 then 64 else if element = 1 then 16 else 4

def State.elems (s : State) (element : Nat) : Tab Elem :=
  if element = 0 then s.time.timers else if element = 1 then s.time.windows else s.time.touts
def State.elem (s : State) (element k : Nat) : Elem := tget {} (s.elems element) k
def State.setElem (s : State) (element k : Nat) (e : Elem) : State :=
  if element = 0 then { s with time := { s.time with timers := tset {} s.time.timers k e } }
  else if element = 1 then { s with time := { s.time with windows := tset {} s.time.windows k e } }
  else { s with time := { s.time with touts := tset {} s.time.touts k e } }

/-- A root cell of this device, or of another device that it knows, named by address. -/
def State.rootNamed (s : State) (a : Nat) : Bool :=
  s.cellExists a && (!s.isLocal a || (s.cell (localOf a)).parent.isNone)

/-- The first field of TIME_TIMER ARM that breaks its rule. -/
def timerRange (a : TimerArgs) (s : State) : Option Nat :=
  if 2 < a.element then some 1
  else if elemCount a.element ≤ a.index then some 2
  else if 1 < a.pol || (a.pol = 1 && a.element ≠ 2) then some 3
  else if a.root ≠ 0xFFFFFFFF && !s.rootNamed a.root then some 4
  else if 2 ^ 40 ≤ a.period then some 8
  else if a.element = 0 && a.period < 16 then some 8
  else if a.element = 0 && a.len ≠ 0 then some 16
  else if a.element = 1 && (a.len = 0 || 2 ^ 40 ≤ a.len) then some 16
  else if a.element = 2 && (a.len < 20 || 2 ^ 32 < a.len) then some 16
  else if a.element = 1 && a.period ≠ 0 && a.period ≤ a.len then some 8
  else if a.element = 2 && a.period ≠ 0 && a.period < a.len + 20 then some 8
  else if 2 ^ 32 ≤ a.count then some 24
  else if !stampOk a.start then some 32
  else none

def timerArmReply (a : TimerArgs) (s : State) : Reply :=
  match timerRange a s with
  | some o => .bad s o
  | none =>
    if (s.elem a.element a.index).active then .busy s
    else
      let t := s.coarseOf (stampTicks a.start)
      if t < (s.now : Int) + (us 10 : Nat) then .no s stLate (.field 32)
      else
        let e : Elem :=
          { active := true, root := if a.root = 0xFFFFFFFF then none else some (s.keyOf a.root)
            next := t.toNat, period := a.period, len := a.len
            left := if a.period = 0 then some 1 else if a.count = 0 then none else some a.count
            pol := a.pol }
        { s := s.setElem a.element a.index e }

def execTimeTimerArm (h : Hdr) (a : TimerArgs) (s : State) : Host.Outcome State Fault Refusal :=
  .next (command h 0x42 48 openModes (timerArmReply a) s)

/-- STOP: always OK where the element exists. -/
def timerStopReply (element index : Nat) (s : State) : Reply :=
  if 2 < element then .bad s 1
  else if elemCount element ≤ index then .bad s 2
  else { s := s.setElem element index (elemStop (s.elem element index)) }

def execTimeTimerStop (h : Hdr) (element index : Nat) (s : State) : Host.Outcome State Fault Refusal :=
  .next (command h 0x42 48 openModes (timerStopReply element index) s)

/-! ### Elements at their ticks (R347, R348) -/

/-- A one-shot or counted element whose last event is past is no longer active. -/
def Elem.settle (e : Elem) : Elem := if e.done && !e.high then { e with active := false } else e

/-- TIMER_EVENT: the event is raised where the root, if one is named, runs. -/
def execTimerEvent (n : Fin 64) (s : State) : Host.Outcome State Fault Refusal :=
  .next (let e := s.elem 0 n.val
    if e.active && !e.done && decide (e.next ≤ s.now) then
      let s' := s.setElem 0 n.val e.advance.settle
      if s.elemRuns e then raiseEp (s.ep 9 n.val 0) s' else s'
    else s)

/-- An opening or closing edge of a window or TIME_OUT. While a device-scope fault is latched a TIME_OUT stays at its
safe level (R27, R509). -/
def elemEdge (element k : Nat) (s : State) : State :=
  let e := s.elem element k
  if !e.active then s
  else if e.high then
    if e.highEnd ≤ s.now then s.setElem element k (Elem.settle { e with high := false }) else s
  else if !e.done && decide (e.next ≤ s.now) then
    let e' := e.advance
    s.setElem element k (if s.elemRuns e && !(decide (element = 2) && decide (s.devFault.codes ≠ [])) then { e' with high := true, highEnd := e.next + e.len } else e'.settle)
  else s

def execWindowEdge (n : Fin 16) (s : State) : Host.Outcome State Fault Refusal := .next (elemEdge 1 n.val s)

def execTimeOutPulse (n : Fin 4) (s : State) : Host.Outcome State Fault Refusal := .next (elemEdge 2 n.val s)

/-- The level at a TIME_OUT ball: active high unless POL is 1; its inactive level while a device-scope fault is latched
(R27, R348, R509). -/
def State.timeOutLevel (s : State) (n : Nat) : Bool :=
  ((s.elem 2 n).high && decide (s.devFault.codes = [])) != ((s.elem 2 n).pol == 1)

/-! ### PTP (R336, R337) -/

/-- A PTP domain hears messages on the time port (R340, R387). -/
def State.ptpUp (s : State) (k : Nat) : Bool :=
  decide (k < 2) && (s.tdom k).set.source == 1 && s.isOn 3 && s.timePort.up

/-- A message is one for the domain: of its domainNumber and its transport (R334, R336). -/
def State.ptpHears (s : State) (h : PtpHdr) : Bool :=
  s.ptpUp h.dom && (s.tdom h.dom).set.ptpdom == h.number && ((s.tdom h.dom).set.transport == 1) == h.udp

/-- It is well formed and within what the device supports: versionPTP 2 with minorVersionPTP 1, or 0 under the default
profile (R336). -/
def State.ptpOk (s : State) (h : PtpHdr) : Bool :=
  h.wellFormed && h.version == 2 && (h.minor == 1 || (h.minor == 0 && (s.tdom h.dom).set.profile == 1))

/-- Its sender is the master that the domain follows. -/
def State.ptpMaster (s : State) (h : PtpHdr) : Bool := (s.tdom h.dom).masters.head?.map PtpMaster.source == some h.source

def reject (s : State) : State := { s with time := { s.time with rejects := s.time.rejects.bump } }

/-- What a message does: nothing where the domain does not hear it, a count where it is malformed or outside R336. -/
def ptpTake (h : PtpHdr) (f : State → State) (s : State) : State :=
  if !s.ptpHears h then s else if !s.ptpOk h then reject s else f s

/-- A whole Sync: offset = origin + path + asymmetry − reception. -/
def syncDone (k : Nat) (origin rx : Int) (s : State) : State :=
  let d := s.tdom k
  measure k (origin + d.path + d.set.delay - rx) false
    (s.setTdom k { d with lastSync := some (origin, rx), syncWait := none })

/-- SYNC: the followed master's is measured where its reception is stamped, a two-step one with its Follow_Up; without L1Sync the high accuracy profile runs
as the default one (R337). -/
def execSync (m : PtpSync) (s : State) : Host.Outcome State Fault Refusal :=
  .next (ptpTake m.hdr (fun s =>
    if !s.ptpMaster m.hdr || !s.stamps 2 then s
    else
      let s := s.modTdom m.hdr.dom fun d => { d with noL1 := d.set.profile == 0 && !m.l1 }
      if m.twoStep then s.modTdom m.hdr.dom fun d => { d with syncWait := some (m.seq, m.rxPs) }
      else syncDone m.hdr.dom m.originPs m.rxPs s) s)

def execFollowUp (hdr : PtpHdr) (seq : Nat) (originPs : Int) (s : State) : Host.Outcome State Fault Refusal :=
  .next (ptpTake hdr (fun s =>
    match (s.tdom hdr.dom).syncWait with
    | some (q, rx) => if s.ptpMaster hdr && q == seq then syncDone hdr.dom originPs rx s else s
    | none => s) s)

/-- The interval of Delay_Req in ticks: 2^n s as the followed master announces. -/
def PtpMaster.delayTicks (m : PtpMaster) : Nat :=
  if m.delayInt < 0 then ticksPerSec / 2 ^ m.delayInt.natAbs else ticksPerSec * 2 ^ m.delayInt.natAbs

/-- A Delay_Req is due: a Sync has been measured, and the interval since the last one has passed. -/
def TimeDom.delayDue (d : TimeDom) (now : Nat) : Bool :=
  d.lastSync.isSome && match d.masters, d.delayAt with
    | m :: _, some t => decide (t + m.delayTicks ≤ now)
    | _ :: _, none => true
    | [], _ => false

/-- DELAY_REQ: its departure is stamped to 1 ps; the part of the tick is a free value. -/
def execDelayReq (dom : Fin 2) (s : State) : Host.Outcome State Fault Refusal :=
  .next (if !s.ptpUp dom.val || !s.stamps 2 || !(s.tdom dom.val).delayDue s.now then s
    else
      let s := { s with free := s.free + 1 }
      s.modTdom dom.val fun d =>
        { d with delaySeq := (d.delaySeq + 1) % 65536, delayAt := some s.now
                 delayTx := some (s.devPs + Config.freeNat (s.free - 1) % 50) })

/-- DELAY_RESP: mean path = ((t2 − t1) + (t4 − t3)) ÷ 2. -/
def execDelayResp (hdr : PtpHdr) (seq : Nat) (t4Ps : Int) (s : State) : Host.Outcome State Fault Refusal :=
  .next (ptpTake hdr (fun s =>
    let d := s.tdom hdr.dom
    match d.delayTx, d.lastSync with
    | some t3, some (t1, t2) =>
      if s.ptpMaster hdr && d.delaySeq == seq then
        s.setTdom hdr.dom { d with delayTx := none, path := ((t2 - t1) + (t4Ps - t3)) / 2 }
      else s
    | _, _ => s) s)

/-- The first list is the smaller, entry by entry. -/
def lexLt : List Nat → List Nat → Bool
  | [], [] => false
  | [], _ :: _ => true
  | _ :: _, [] => false
  | a :: l, b :: m => decide (a < b) || (a == b && lexLt l m)

/-- Put a master among those heard, the best first. -/
def insertMaster (m : PtpMaster) : List PtpMaster → List PtpMaster
  | [] => [m]
  | x :: l => if lexLt x.rank m.rank then x :: insertMaster m l else m :: x :: l

/-- The masters heard change: where another is followed, the messages under way with the one before are dropped. -/
def TimeDom.follow (d : TimeDom) (l : List PtpMaster) : TimeDom :=
  if l.head?.map PtpMaster.source = d.masters.head?.map PtpMaster.source then { d with masters := l }
  else { d with masters := l, syncWait := none, lastSync := none, delayTx := none, delayAt := none }

/-- ANNOUNCE: its sender is a master heard, and the best of them is followed (R336); Sync intervals outside 2^-7 to 2 s are
refused. The data sets are compared by priority 1, class, accuracy, variance, priority 2, identity, steps and sender. -/
def execAnnounce (hdr : PtpHdr) (grandmaster : Nat) (rank : PtpRank) (utc : Int) (utcValid : Bool) (delayInt : Int) (syncInt : Int)
    (s : State) : Host.Outcome State Fault Refusal :=
  .next (ptpTake hdr (fun s =>
    if syncInt < -7 || 1 < syncInt || delayInt < -7 || 7 < delayInt then reject s
    else s.modTdom hdr.dom fun d =>
      let m : PtpMaster :=
        { source := hdr.source
          rank := [rank.priority1, rank.clockClass, rank.accuracy, rank.variance, rank.priority2, grandmaster, rank.steps, hdr.source]
          utc := if utcValid then some utc else none, delayInt }
      d.follow (insertMaster m (d.masters.filter fun x => x.source != hdr.source))) s)

/-- The UTC offset of the followed master (R329). -/
def TimeDom.utc (d : TimeDom) : Option Int := d.masters.head?.bind PtpMaster.utc

/-! ### REF (R338) -/

/-- The whole second of device time nearest to an instant, in ps. -/
def nearestSecond (ps : Int) : Int := (ps + 500000000000) / 1000000000000 * 1000000000000

/-- Edges missing between the last one seen and now. -/
def TimeDom.missedPps (d : TimeDom) (now : Nat) : Nat :=
  match d.lastPps with
  | some t => (now - t + ticksPerSec / 2) / ticksPerSec - 1
  | none => 0

/-- `n` more consecutive edges are missing or rejected; from three on the domain is LOST (R335). -/
def badEdges (k n : Nat) (s : State) : State :=
  let b := (s.tdom k).badPps + n
  if b < 3 then s.modTdom k fun d => { d with badPps := b }
  else loseDom k (fun d => { d with missing := true }) (s.modTdom k fun d => { d with badPps := 0 })

/-- PPS_EDGE: an edge that the reference channel stamps is labelled with the nearest whole second; more than 100 ns off the
prediction it is rejected. -/
def execPpsEdge (dom : Fin 2) (ps : Int) (s : State) : Host.Outcome State Fault Refusal :=
  .next (let k := dom.val
    let d := s.tdom k
    if d.set.source ≠ 2 || !s.sys.refclk || !s.stamps 1 then s
    else
      let off := nearestSecond (ps - d.set.delay) - (ps - d.set.delay)
      let s := badEdges k (d.missedPps s.now) (s.setTdom k { d with lastPps := some s.now })
      let d := s.tdom k
      if d.meas ≠ [] && 100000 < (off - d.off).natAbs then badEdges k 1 (reject s)
      else measure k off (decide (s.time.st = .unset)) (s.setTdom k { d with badPps := 0 }))

/-! ### Losses, REVERT, holdover (R335, R341–R344) -/

/-- A LINK domain is without a whole exchange for 10 ms (R335, R384). -/
def TimeDom.silent (d : TimeDom) (now : Nat) : Bool := decide (d.exchAt + us 10000 ≤ now)

/-- DOMAIN_LOSS: the loss condition of a domain's source has come about. A REF source that stays away also shows
as a missing input; a PTP master that stays away is no longer among those heard. -/
def execDomainLoss (dom : Fin 2) (s : State) : Host.Outcome State Fault Refusal :=
  .next (if (s.tdom dom.val).set.source = 3 && !(s.tdom dom.val).silent s.now then s
    else loseDom dom.val (fun d => { d with missing := d.set.source == 2 })
      (s.modTdom dom.val fun d => d.follow d.masters.tail))

/-- REVERT: under AUTO with REVERT 1, A has held TRACKING for 60 s. -/
def execRevert (s : State) : Host.Outcome State Fault Refusal :=
  .next (let d := s.time.domA
    if s.time.servo.selmode = 1 && s.time.servo.revert = 1 && s.time.sel = 1 && decide (d.st = .tracking) && !d.far
        && decide (d.trackSince + 60 * ticksPerSec ≤ s.now) then selectDom 0 s else s)

/-- The estimate of R343 in units of 5·10^-10 ps, from milliseconds in holdover. -/
def TimeKeeper.estimate (t : TimeKeeper) : Int :=
  t.e0 * 2000000000 + t.sigmaY * (t.holdMs : Int) * 2000 + (t.servo.hwander : Int) * (t.holdMs : Int) * (t.holdMs : Int)

/-- HOLDOVER_EVALUATION: every 1 ms; above HLIMIT the holdover doubt latches (R344). -/
def execHoldoverEvaluation (s : State) : Host.Outcome State Fault Refusal :=
  .next (if s.time.st ≠ .holdover || decide (s.now < s.time.holdAt + us 1000) then s
    else
      let t := { s.time with holdMs := s.time.holdMs + 1, holdAt := s.time.holdAt + us 1000 }
      let e := t.estimate
      let t := { t with herr := ((e + 1000000000) / 2000000000).toNat }
      let s := { s with time := t }
      if t.servo.hlimit ≠ 0 && decide ((t.servo.hlimit : Int) * 2000000000 < e) && !t.holdLatch then
        let s := setSum 8 { s with time := { t with holdLatch := true } }
        doubtDevice 7 (le 4 t.herr ++ le 4 (t.holdMs / 1000) ++ pad 24) s
      else s)

/-! ### TIME_QUERY (R350) -/

def TimeSt.code : TimeSt → Nat
  | .unset => 0 | .free => 1 | .tracking => 2 | .holdover => 3
def DomTrack.code : DomTrack → Nat
  | .disabled => 0 | .acquiring => 1 | .tracking => 2 | .lost => 3

def TimeDom.flagBits (d : TimeDom) : Nat := bit d.far 0 + bit d.range_ 1 + bit d.loop 2 + bit d.noL1 3 + bit d.missing 4

/-- Saturation at ±(2^31 − 1). -/
def sat31 (v : Int) : Int := max (-2147483647) (min 2147483647 v)

/-- A rate as the record shows it: unit 10^-13, halves up. -/
def rate13 (y : Int) : Int := sat31 ((y + 50) / 100)

/-- The selected domain. -/
def State.selDom (s : State) : Option TimeDom :=
  if s.time.sel = 0 then some s.time.domA else if s.time.sel = 1 then some s.time.domB else none

/-- Hop count from the time root, and the LINK parent (R338, R339). -/
def State.hops (s : State) : Nat :=
  match s.selDom with
  | some d => if d.set.source = 3 then d.hops else 0
  | none => 0xFF
def State.timeParent (s : State) : Option Nat :=
  match s.selDom with
  | some d => if d.set.source = 3 then d.parent else none
  | none => none

/-- The UTC offset and whether it is valid (R329). -/
def State.utcNow (s : State) : Int × Bool :=
  match firstSome (fun d => if d.set.source = 1 then d.utc else none) [s.time.domA, s.time.domB] with
  | some u => (u, true)
  | none => (s.time.utc, s.time.utcValid)

def State.timeRec (s : State) : List Byte :=
  let t := s.time
  let (utc, uv) := s.utcNow
  (stampBytes (s.devTicks * 65536)).take 14 ++ le 1 t.st.code ++ le 1 t.sel ++ le 1 t.domA.st.code ++ le 1 t.domB.st.code
    ++ le 1 t.domA.flagBits ++ le 1 t.domB.flagBits ++ leI 4 (sat31 t.domA.off) ++ leI 4 (sat31 t.domB.off)
    ++ leI 4 (rate13 t.domA.y) ++ leI 4 (rate13 t.domB.y) ++ leI 4 (rate13 (t.steerNow s.now)) ++ le 4 (if t.st = .holdover then t.herr else 0)
    ++ le 4 (if t.st = .holdover then t.holdMs / 1000 else 0) ++ leI 2 utc ++ le 1 s.hops
    ++ le 1 (bit t.slewing 0 + bit t.holdLatch 1 + bit t.steppedFlag 2 + bit t.switchedFlag 3 + bit uv 4)
    ++ le 4 t.switches.n ++ le 4 t.steps.n ++ le 4 t.rejects.n
    ++ le 1 (bit t.switches.ovf 0 + bit t.steps.ovf 1 + bit t.rejects.ovf 2) ++ pad 3
    ++ le 4 (match s.timeParent with | some p => p | none => 0xFFFFFFFF)

/-- What the query resets. -/
def timeRead (s : State) : State :=
  { s with time := { s.time with switches := {}, steps := {}, rejects := {}, steppedFlag := false, switchedFlag := false } }

def execTimeQuery (h : Hdr) (len : Nat) (s : State) : Host.Outcome State Fault Refusal :=
  .next (command h 0x43 24 anyMode (fun t => queryReply len t.timeRec timeRead t) s)

end Sys2Proof.Machine
end

