-- ==== Sys2Proof/Machine/FaultClear.lean ====
section
/-! DEFINITION. FAULT_CLEAR (R508, R512, R515) with the clearing conditions of R148, R206, R285, R475, R478, R485. -/

namespace Sys2Proof.Machine

/-- A state with the latches cleared so far and those found still set. -/
structure Cleared where
  s : State
  cleared : Nat := 0
  left : Nat := 0

/-- Clear the doubts of a record that are in scope and whose condition holds; a record with no doubt left goes back to
its reset (R512). -/
def FaultRec.clear (r : FaultRec) (sel can : Nat → Bool) : FaultRec :=
  let rest := r.codes.filter fun c => !(sel c && can c)
  if rest = [] then {} else { r with codes := rest }

/-- The inputs of a failed node have not been plausible for 16 rounds (R478). -/
def State.nodeStuck (s : State) (n : Nat) : Bool :=
  let x := tget {} s.house.nodes n
  x.failed && decide (x.good < 16)

/-- Every link on a root's device tree is up (R148). -/
def State.linksUp (s : State) (key : Nat) : Bool := (s.remoteDevs key).all s.reaches

/-- The last column of R508 for a doubt of device scope. -/
def State.canClearDev (s : State) (code : Nat) : Bool :=
  if code = 5 then !(0 :: 1 :: (List.range 8).map (24 + ·)).any s.nodeStuck
  else if code = 6 then s.house.nodes.all fun e => decide (e.2.level ≠ 3)
  else if code = 7 then decide (s.time.st ≠ .holdover) || s.time.servo.hlimit == 0 || decide (s.time.estimate ≤ (s.time.servo.hlimit : Int) * 2000000000)
  else true

/-- The last column of R508 for a doubt of a root. Its home device clears nothing while a link of the root's device tree
is down, and no device a doubt message's latch (R148, R515): `up` tells that the other devices find theirs up. -/
def State.canClearRoot (s : State) (up : Bool) (key code : Nat) : Bool :=
  (if code = 5 then !(((s.rootBurins key).flatMap s.burinDoms).flatMap nodesOf).any s.nodeStuck else true)
    && (if key < 2 ^ 32 || code = 13 then up && s.linksUp key else decide (code ≠ 3) || s.linksUp key)

/-- Clear the doubts of a root. -/
def clearRoot (up : Bool) (sel : Nat → Bool) (key : Nat) (c : Cleared) : Cleared :=
  let r := c.s.fault key
  let hit := r.codes.filter fun k => sel k && c.s.canClearRoot up key k
  { s := c.s.setFault key (r.clear sel (c.s.canClearRoot up key))
    cleared := c.cleared + hit.length, left := c.left + ((r.codes.filter sel).length - hit.length) }

/-- Clear the doubts of device scope: the heartbeat timer restarts, and the holdover flag and the shut-down latch go
with their doubts. -/
def clearDevice (sel : Nat → Bool) (c : Cleared) : Cleared :=
  let r := c.s.devFault
  let hit := r.codes.filter fun k => sel k && c.s.canClearDev k
  let s := { c.s with devFault := r.clear sel c.s.canClearDev }
  let s := if hit.contains 11 then hbRestart s else s
  let s := if hit.contains 7 then { s with time := { s.time with holdLatch := false } } else s
  let s := if hit.contains 6 then { s with house := { s.house with shutLatch := false } } else s
  { s, cleared := c.cleared + hit.length, left := c.left + ((r.codes.filter sel).length - hit.length) }

/-- Every port that a channel crosses is up, and no link further on is known to be down. -/
def State.routeUp (s : State) (c : Channel) : Bool :=
  ((List.range 8).all fun p => !s.crosses p c || decide ((s.jport p).st = .active))
    && (c.prods ++ c.cons).all fun e => !s.sys.cutDevs.contains (epDev e)

/-- A channel that lost its link goes back to four credits and an empty queue (R276, R383). -/
def Channel.restart (c : Channel) : Channel :=
  if c.cut then
    { c with cut := false, credits := 4, con := [], inj := [], toGate := [], atGate := [], inFlight := [], credFlight := 0 }
  else c

/-- A channel's storm and overflow flags clear, it is enabled again, and the storm count restarts (R285); one that
lost its link stays disabled until its route is up again (R383). -/
def clearChan (ch : Nat) (c : Cleared) : Cleared :=
  let k := c.s.chan ch
  let n := (if k.stormFlag then 1 else 0) + (if k.ovfFlag then 1 else 0)
  if n = 0 then c
  else if k.cut && !c.s.routeUp k then { c with left := c.left + n }
  else
    let k := { k.restart with stormFlag := false, ovfFlag := false, storm := [] }
    { c with s := c.s.setChan ch k, cleared := c.cleared + n }

/-- A Z channel's latched flags clear (R206, R207). -/
def clearZ (z : Nat) (c : Cleared) : Cleared :=
  let k := c.s.z z
  let n := (if k.ovc then 1 else 0) + (if k.mismatch then 1 else 0)
  { c with s := c.s.setZ z { k with ovc := false, mismatch := false, unownedLatch := false }, cleared := c.cleared + n }

/-- The latch of a node that failed plausibility (R478). -/
def clearNode (n : Nat) (c : Cleared) : Cleared :=
  let x := tget {} c.s.house.nodes n
  if !x.failed then c
  else if x.good < 16 then { c with left := c.left + 1 }
  else
    let nodes := tset {} c.s.house.nodes n { x with failed := false, suspect := false }
    { c with s := { c.s with house := { c.s.house with nodes } }, cleared := c.cleared + 1 }

/-- A failed converter starts the 16 rounds after which its latch clears; until then it counts as still set (R475). -/
def clearConverters (c : Cleared) : Cleared :=
  let h := c.s.house
  let h' := { h with
    clearA := h.clearA || h.failA, clearB := h.clearB || h.failB
    passA := if h.failA && !h.clearA then 0 else h.passA, passB := if h.failB && !h.clearB then 0 else h.passB }
  { c with s := { c.s with house := h' }
           left := c.left + (if h.failA then 1 else 0) + (if h.failB then 1 else 0) }

def eachCleared (f : Nat → Cleared → Cleared) (l : List Nat) (c : Cleared) : Cleared := l.foldl (fun c k => f k c) c

/-- A whole target of a scope. -/
def allTarget (t : Nat) : Bool := t == 0xFFFFFFFF

/-- What FAULT_CLEAR clears on this device; none where the target names nothing (R416, R515). -/
def clearScope (scope target : Nat) (up : Bool) (s : State) : Option Cleared :=
  let c : Cleared := { s }
  let all := allTarget target
  match scope with
  | 0 => if all || target == 0 then
      some (clearConverters (eachCleared clearZ (tkeys s.zch) (eachCleared clearChan (tkeys s.chans)
        (eachCleared (clearRoot up fun _ => true) (tkeys s.faults) (eachCleared clearNode (List.range 32)
          (clearDevice (fun _ => true) c))))))
    else none
  | 1 => if all then some (eachCleared (clearRoot up fun _ => true) (tkeys s.faults) c)
    else if s.cellExists target && (!s.isLocal target || (s.cell (localOf target)).parent.isNone) then
      some (clearRoot up (fun _ => true) (s.rootKey target) c)
    else none
  | 2 => if all then some (eachCleared clearChan (tkeys s.chans) c) else if target < 4096 then some (clearChan target c) else none
  | 3 => if all then some (eachCleared clearZ (tkeys s.zch) c)
    else if 0x200 ≤ target && decide (target < 0x300) then some (clearZ (target - 0x200) c) else none
  | 4 => if all then some (eachCleared (clearRoot up (· == 3)) (tkeys s.faults) c)
    else if 0x600 ≤ target && decide (target < 0x608) then
      some (eachCleared (clearRoot up (· == 3)) ((tkeys s.faults).filter (s.rootVia (target - 0x600))) c)
    else none
  | 5 => if all || target == 0 then some (clearDevice (· == 7) c) else none
  | _ => none

/-- The roots in the scope of a clear, by address (R515). -/
def State.clearRoots (s : State) (scope target : Nat) : List Nat :=
  let all := ((tkeys s.faults).map s.rootAddr)
  match scope with
  | 0 => all
  | 1 => if allTarget target then all else if s.cellExists target then [target] else []
  | 4 => if allTarget target then all else ((tkeys s.faults).filter (s.rootVia (target - 0x600))).map s.rootAddr
  | _ => []

/-- The other devices of some roots. -/
def State.devsOf (s : State) (roots : List Nat) : List Nat := (roots.flatMap fun a => s.remoteDevs (s.rootKey a)).dedup

/-- This device's links on the device trees of some roots are up. -/
def State.treesUp (s : State) (roots : List Nat) : Bool := roots.all fun a => s.linksUp (s.rootKey a)

/-- FAULT_CLEAR on this device. -/
def faultClearReply (scope target : Nat) (up : Bool) (s : State) : Reply :=
  if 5 < scope then .bad s 0
  else match clearScope scope target up s with
    | some c => { s := c.s, result := c.cleared + c.left * 2 ^ 32 }
    | none => .bad s 4

/-- FAULT_CLEAR of another device: this one clears its own records of the roots. -/
def clearPart (scope : Nat) (roots : List Nat) (up : Bool) (s : State) : Reply :=
  { s := (eachCleared (clearRoot up fun k => scope != 4 || k == 3) (roots.map s.rootKey) { s }).s }

/-- FAULT_CLEAR on the devices of its roots; one that no link reaches is left out, and then no home device clears. -/
def clearRequest (scope target : Nat) (s : State) : Reply :=
  let roots := s.clearRoots scope target
  let devs := s.devsOf roots
  let near := devs.filter s.reaches
  let up := decide (near = devs)
  span (.clear scope target roots up) near (faultClearReply scope target up s) s

def execFaultClear (h : Hdr) (scope target : Nat) (s : State) : Host.Outcome State Fault Refusal :=
  .next (command h 0x5A 8 anyMode (clearRequest scope target) s)

end Sys2Proof.Machine
end

