-- ==== Sys2Proof/Machine/HatchNet.lean ====
section
/-! DEFINITION. The Hatch network's commands and events (R264–R287): binding, gates, spacing, the gate point,
latching, payloads, credits, the SOFT consumer. -/

namespace Sys2Proof.Machine

/-! ### EVENT_ROUTE (R264–R266, R269, R270, R371, R423) -/

/-- Range of a gate's index (R280). -/
def gidxOk (gsrc gidx : Nat) : Bool :=
  if gsrc = 0 then gidx == 0 else if gsrc = 1 then gidx < 64 else if gsrc = 2 then gidx < 8
  else if gsrc = 3 then gidx < 32 else gidx < 16

/-- The first field that breaks its range. -/
def bindRange (a : BindArgs) : Option Nat :=
  let np := a.producers.length
  let nc := a.consumers.length
  if a.kind ≠ 1 && a.kind ≠ 2 then some 1
  else if 4096 ≤ a.channel then some 2
  else if (a.width ≠ 0 && a.width ≠ 32 && a.width ≠ 64) || (a.kind = 1 && a.width = 64) then some 4
  else if 16 ≤ a.flags then some 5
  else if 65536 ≤ a.rs then some 6
  else if 65536 ≤ a.stmax then some 8
  else if a.flags.testBit 3 && (a.stwin = 0 || 1000 < a.stwin) then some 10
  else if 4 < a.gsrc then some 12
  else if !gidxOk a.gsrc a.gidx then some 13
  else if 64 ≤ a.ring then some 14
  else if np = 0 || (if a.kind = 1 then 8 else 1) < np then some 15
  else if nc = 0 || (if a.kind = 1 then 256 else 1) < nc then some 16
  else none

/-- A device reached over a port that carries 64-bit payloads (R371). -/
def State.w64 (s : State) (p : Nat) : Bool := decide ((s.jport p).st = .active) && (s.jport p).feat.testBit 2

/-- An endpoint is acceptable in the channel (R265, R269). -/
def State.endOk (s : State) (a : BindArgs) (prod : Bool) (e : Nat) : Bool :=
  epExists e && (if prod then epProduces e else epConsumes e) && epSuits e a.kind
    && (decide (epDev e = s.sys.devnum)
      || (a.kind == 2 && (epClass e == 2 || epClass e == 3 || epClass e == 11) && decide (s.via (epDev e) ≠ 0xFF)))
    && (a.width != 64 || (if epDev e ≠ s.sys.devnum then s.w64 (s.via (epDev e)) else epClass e != 11 || s.w64 (epUnit e)))

/-- Ownership of an endpoint by a running root (R265). -/
def State.endInUse (s : State) (e : Nat) : Bool :=
  decide (epDev e = s.sys.devnum) &&
    (if epClass e < 4 then s.running (s.rootOf (epUnit e))
     else if epClass e = 4 || epClass e = 5 then
       match s.resRoot (unitRes (epUnit e)) with | some k => s.running k | none => false
     else false)

/-- What outlives a binding: the storm and overflow flags, which only FAULT_CLEAR clears (R287), and the watch flag,
which only its query clears (R282). -/
def Channel.latches (c : Channel) : Channel :=
  { stormFlag := c.stormFlag, ovfFlag := c.ovfFlag, watched := c.watched }

/-- BIND as one device checks and applies it; `here` where this device processes the command, whose producer it
must hold. -/
def bindReply (here : Bool) (a : BindArgs) (s : State) : Reply :=
  let eps := a.producers ++ a.consumers
  let softData := a.kind == 2 && a.consumers.any fun e => epClass e == 12
  match bindRange a with
  | some o => .bad s o
  | none =>
    if !(a.producers.all (s.endOk a true) && a.consumers.all (s.endOk a false)) || !decide eps.Nodup
        || (here && a.producers.any fun e => decide (epDev e ≠ s.sys.devnum)) then .bad s 20
    else if softData && !(s.ring a.ring).dev then .bad s 14
    else if (s.chan a.channel).bound || s.promises.any (fun p => p.chan == some a.channel) || eps.any (fun e => (s.chanOfProd e).isSome || (s.chanOfCons e).isSome) then .busy s
    else if eps.any s.endInUse then .busy s
    else
      let storm := a.flags.testBit 3
      { s := s.setChan a.channel
          { (s.chan a.channel).latches with
            bound := true, kind := a.kind, wide := a.width == 64, rs := if a.rs = 0 then 10 else a.rs
            stmax := if storm then a.stmax else 256, stwin := if storm then a.stwin else 10
            gsrc := a.gsrc, gidx := a.gidx, ginv := a.flags.testBit 2, watch := a.flags.testBit 0
            flush := a.flags.testBit 1, ring := a.ring, prods := a.producers, cons := a.consumers } }

/-- The other device of a data channel. -/
def State.bindDevs (s : State) (eps : List Nat) : List Nat :=
  ((eps.map epDev).filter (· != s.sys.devnum)).dedup

/-- EVENT_ROUTE BIND: a channel that spans devices takes both phases (R266). -/
def execEventRouteBind (h : Hdr) (a : BindArgs) (s : State) : Host.Outcome State Fault Refusal :=
  .next (command h 0x30 (20 + 4 * (a.producers.length + a.consumers.length)) cfgModes (fun t =>
    span (.bind a) (if a.kind = 2 then t.bindDevs (a.producers ++ a.consumers) else [])
      (bindReply true a t) t) s)

/-- UNBIND (R265, R459): wake sources on the channel are disarmed. -/
def unbindReply (ch : Nat) (s : State) : Reply :=
  let c := s.chan ch
  if 4096 ≤ ch then .bad s 2
  else if !c.bound then { s }
  else if (c.prods ++ c.cons).any s.endInUse || s.promises.any (fun p => p.chan == some ch) then .busy s
  else
    { s := { (s.setChan ch c.latches) with
        domains := tmap {} (fun _ d => if d.wakeCh = some ch then { d with wakeCh := none } else d) s.domains } }

def execEventRouteUnbind (h : Hdr) (channel : Nat) (s : State) : Host.Outcome State Fault Refusal :=
  .next (command h 0x30 20 cfgModes (fun t =>
    span (.unbind channel) (t.bindDevs ((t.chan channel).prods ++ (t.chan channel).cons))
      (unbindReply channel t) t) s)

/-! ### Gates (R280, R281) -/

/-- Each masked gate takes its value bit. -/
def setGates (mask value : BitVec 64) (s : State) : State := { s with gates := (s.gates &&& ~~~mask) ||| (value &&& mask) }

def insertGate (t : Nat) (m v : BitVec 64) : List (Nat × BitVec 64 × BitVec 64) → List (Nat × BitVec 64 × BitVec 64)
  | [] => [(t, m, v)]
  | e :: l => if t < e.1 then (t, m, v) :: e :: l else e :: insertGate t m v l

def eventGateReply (mask value : BitVec 64) (time : Stamp) (s : State) : Reply :=
  if !stampOk time then .bad s 16
  else if stampNow time then { s := setGates mask value s }
  else
    let t := s.coarseOf (stampTicks time)
    if t < (s.now : Int) + (us 10 : Nat) then .no s stLate (.field 16)
    else { s := { s with gatePend := insertGate t.toNat mask value s.gatePend } }

def execEventGate (h : Hdr) (mask value : BitVec 64) (time : Stamp) (s : State) : Host.Outcome State Fault Refusal :=
  .next (command h 0x31 32 openModes (eventGateReply mask value time) s)

/-- GATE_CHANGE: the effect time of the earliest named change is reached. -/
def execGateChange (s : State) : Host.Outcome State Fault Refusal :=
  .next (match s.gatePend with
    | (t, m, v) :: rest => if t ≤ s.now then setGates m v { s with gatePend := rest } else s
    | [] => s)

/-! ### From injection to the consumers -/

/-- SPACING_END (R283): RS after the last forward, the held event or the oldest held payload goes on. -/
def execSpacingEnd (ch : Fin 4096) (producer : Fin 8) (s : State) : Host.Outcome State Fault Refusal :=
  .next (let c := s.chan ch.val
    let j := tget {} c.inj producer.val
    let due := match j.last with | some t => decide (t + c.rs * word ≤ s.now) | none => true
    let go (j : Inject) (pay : BitVec 64) : State :=
      s.setChan ch.val { c with inj := tset {} c.inj producer.val { j with last := some s.now }, toGate := c.toGate ++ [pay] }
    if !c.bound || !due then s
    else if j.heldEv then go { j with heldEv := false } 0
    else match j.heldPay with
      | v :: rest => go { j with heldPay := rest } v
      | [] => s)

/-- An event or payload passes the gate point (R271, R276, R282, R381, R459). A payload for a consumer on another device
or beyond a link latches the watch flag of this device as it is sent. -/
def passGate (ch : Nat) (pay : BitVec 64) (s : State) : State :=
  let s := s.modChCtr ch fun k => { k with forwarded := k.forwarded.bump }
  let c := s.chan ch
  if c.kind = 1 then
    let idx := (List.range c.cons.length).filter fun i => epClass (c.cons.getD i 0) != 12
    hatchWake ch (watch ch (s.setChan ch { c with toLatch := c.toLatch ++ idx }))
  else
    let s := s.setChan ch { c with inFlight := c.inFlight ++ [pay] }
    if s.consFar c then
      match c.cons with
      | e :: _ => watch ch (sendHatch e (fun d => .hatchData { dest := d, channel := ch, w64 := c.wide, payload := pay }) s)
      | [] => s
    else s

/-- The events that the storm detector counts with one more now (R284). -/
def stormList (now : Nat) (c : Channel) : List Nat := now :: c.storm.filter fun t => decide (now < t + us c.stwin)

/-- GATE_POINT_ARRIVAL (R280, R282, R284, R285, R573). -/
def execGatePointArrival (ch : Fin 4096) (s : State) : Host.Outcome State Fault Refusal :=
  .next (let c := s.chan ch.val
    match c.toGate with
    | [] => s
    | pay :: rest =>
      let l := stormList s.now c
      let drop (s : State) : State :=
        let s := s.modChCtr ch.val fun k => { k with discarded := k.discarded.bump }
        if c.kind = 2 then returnCredits ch.val 1 s else s
      if c.disabled then drop (s.setChan ch.val { c with toGate := rest })
      else
        let s := s.setChan ch.val { c with toGate := rest, storm := l }
        let s := s.modChCtr ch.val fun k => { k with peak := Nat.max k.peak l.length }
        if c.stmax ≠ 0 && c.stmax < l.length then disableChan ch.val true (drop s)
        else if c.kind = 1 then
          if s.gateOpen c then passGate ch.val pay s
          else s.modChCtr ch.val fun k => { k with gated := k.gated.bump }
        else if s.gateOpen c && decide (c.atGate = []) then passGate ch.val pay s
        else s.modChan ch.val fun k => { k with atGate := k.atGate ++ [pay] })

/-- GATE_OPEN_RELEASE (R280): held payloads pass in order once the gate is open. -/
def execGateOpenRelease (ch : Fin 4096) (s : State) : Host.Outcome State Fault Refusal :=
  .next (let c := s.chan ch.val
    match c.atGate with
    | pay :: rest => if s.gateOpen c then passGate ch.val pay (s.setChan ch.val { c with atGate := rest }) else s
    | [] => s)

/-- An arrival belongs to the wavefront of the one before (R273): less than 0.4 ns after it; from 1.2 ns on it does not, and
between the row says. -/
def Consumer.joins (k : Consumer) (now : Nat) (merged : Bool) : Bool :=
  match k.lastWave with
  | none => false
  | some t => decide (now < t + 8) || (decide (now < t + 24) && merged)

/-- TRIGGER_LATCH (R271–R274). -/
def execTriggerLatch (ch : Fin 4096) (consumer : Fin 256) (merged : Bool) (s : State) : Host.Outcome State Fault Refusal :=
  .next (let c := s.chan ch.val
    if !c.toLatch.contains consumer.val then s
    else
      let k := tget {} c.con consumer.val
      let one := k.joins s.now merged
      let s := s.setChan ch.val { c with
        toLatch := c.toLatch.erase consumer.val
        con := tset {} c.con consumer.val (if one || k.flag then { k with lastWave := some s.now }
          else { k with flag := true, latched := s.now, lastWave := some s.now }) }
      if one then s.modChCtr ch.val fun n => { n with coalesced := n.coalesced.bump }
      else if k.flag then s.modChCtr ch.val fun n => { n with overlaid := n.overlaid.bump }
      else s)

/-- A payload joins the consumer's queue, or overflows it (R276, R277, R282). `port` is the link it came by. -/
def arrive (ch : Nat) (pay : BitVec 64) (port : Option Nat) (s : State) : State :=
  let k := tget {} (s.chan ch).con 0
  if k.arrivals.length < 4 then
    watch ch (s.modChan ch fun c =>
      { c with con := tset {} c.con 0 { k with arrivals := k.arrivals ++ [pay], times := k.times ++ [s.now] } })
  else
    let s := disableChan ch false (s.modChCtr ch fun n => { n with discarded := n.discarded.bump })
    match port with
    | some p => s.modJctr p fun n => { n with credViol := n.credViol.bump }
    | none => s

/-- The port of a channel's LINK producer on this device. -/
def State.linkPort (s : State) (c : Channel) : Option Nat :=
  (c.prods.find? fun e => epClass e == 11 && epDev e == s.sys.devnum).map epUnit

/-- PAYLOAD_ARRIVAL on this device. -/
def execPayloadArrival (ch : Fin 4096) (s : State) : Host.Outcome State Fault Refusal :=
  .next (let c := s.chan ch.val
    match c.inFlight with
    | pay :: rest =>
      if s.consFar c then s else arrive ch.val pay (s.linkPort c) (s.setChan ch.val { c with inFlight := rest })
    | [] => s)

/-- HATCH_CREDIT_ARRIVAL (R276, R279). -/
def execHatchCreditArrival (ch : Fin 4096) (s : State) : Host.Outcome State Fault Refusal :=
  .next (let c := s.chan ch.val
    if c.credFlight = 0 then s
    else s.setChan ch.val ({ c with credFlight := c.credFlight - 1 }.regain 1))

/-- SOFT_CONSUMER_TAKE (R278): the oldest arrival becomes an event record once its ring has a slot. -/
def execSoftConsumerTake (ch : Fin 4096) (s : State) : Host.Outcome State Fault Refusal :=
  .next (let c := s.chan ch.val
    let k := tget {} c.con 0
    match k.arrivals with
    | v :: _ =>
      if c.kind ≠ 2 || !c.soft then s
      else
        let time := s.taiOf (((k.times.getD 0 s.now : Nat)) : Int)
        let rec_ := le 2 0x0041 ++ le 2 ch.val ++ le 2 c.seq ++ le 1 (bit c.wide 0) ++ le 1 0 ++ le 8 v.toNat
          ++ (stampBytes ((time * 65536).toNat)).take 14 ++ pad 2
        match ringPut c.ring rec_ none s with
        | some s' => takeArrival (c.cons.getD 0 0) (s'.modChan ch.val fun c => { c with seq := (c.seq + 1) % 65536 })
        | none => s
    | [] => s)

end Sys2Proof.Machine
end

