-- ==== Sys2Proof/Machine/Lanes.lean ====
section
/-! DEFINITION. The coding of the JVL ports (R366–R375): blocks and their scrambler, frames in blocks with their check, the
reading of a received frame, and the transmitter, which sends a row at a time. -/

namespace Sys2Proof.Machine

/-! ### Blocks (R366) -/

/-- The body of a block: data bytes as they stand, or the type in byte 0 and the fields in bytes 1 to 7. -/
def Block.body : Block → BitVec 64
  | .data b => b
  | .ctl t f => BitVec.ofNat 64 (t.toNat + f.toNat * 256)

/-- Its sync header: 0b01 for data, 0b10 for control. -/
def Block.head : Block → BitVec 2
  | .data _ => 1
  | .ctl _ _ => 2

/-- The scrambler 1 + x^39 + x^58: what it adds to the next bit, from the last 58 bits on the lane, newest lowest. -/
def scrTap (st : Nat) : Bool := st.testBit 38 != st.testBit 57

/-- One more bit on the lane. -/
def scrNext (st : Nat) (b : Bool) : Nat := (st * 2 + bit b 0) % 2 ^ 58

/-- Scramble a body, least significant bit first: the scrambler after it, and the body as sent. -/
def scramble (st : BitVec 58) (body : BitVec 64) : BitVec 58 × BitVec 64 :=
  let r := (List.range 64).foldl (fun (a : Nat × Nat) i =>
    let b := body.toNat.testBit i != scrTap a.1
    (scrNext a.1 b, a.2 + bit b i)) (st.toNat, 0)
  (BitVec.ofNat 58 r.1, BitVec.ofNat 64 r.2)

/-- Descramble a body: the history of the lane is of the bits as received. -/
def descramble (st : BitVec 58) (body : BitVec 64) : BitVec 64 :=
  let r := (List.range 64).foldl (fun (a : Nat × Nat) i =>
    let b := body.toNat.testBit i
    (scrNext a.1 b, a.2 + bit (b != scrTap a.1) i)) (st.toNat, 0)
  BitVec.ofNat 64 r.2

/-- A block as a lane carries it, and the lane's scrambler after it. -/
def Block.wire (st : BitVec 58) (b : Block) : BitVec 58 × Wire :=
  let r := scramble st b.body
  (r.1, { head := b.head, prev := st, body := r.2 })

/-- The types of control blocks (R368). -/
def knownType (t : BitVec 8) : Bool := t = 0x1E || t = 0x4B || t = 0x55 || t = 0x2D || t = 0x78 || t = 0x87

/-- Read a block; none for a coding error: a header that is neither, or an unknown type (R366, R368). -/
def readWire (w : Wire) : Option Block :=
  let b := descramble w.prev w.body
  if w.head = 1 then some (.data b)
  else if w.head = 2 && knownType (b.setWidth 8) then some (.ctl (b.setWidth 8) ((b >>> 8).setWidth 56))
  else none

def idleBlock : Block := .ctl 0x1E 0
def alignBlock (lane : Nat) : Block := .ctl 0x4B (BitVec.ofNat 56 (lane % 16))

/-! ### Frames in blocks (R373, R374, R381, R384) -/

/-- A header: `ext` is CHANNEL and W64 of a DECISION frame, SRC of another. -/
def headWord (vl type len seq dest ext : Nat) : Nat :=
  vl + type * 2 ^ 2 + len * 2 ^ 6 + seq * 2 ^ 10 + dest * 2 ^ 22 + ext * 2 ^ 36

def headVl (h : Nat) : Nat := bits h 0 2
def headType (h : Nat) : Nat := bits h 2 4
def headLen (h : Nat) : Nat := bits h 6 4
def headSeq (h : Nat) : Nat := bits h 10 12
def headDest (h : Nat) : Nat := bits h 22 14
def headSrc (h : Nat) : Nat := bits h 36 14

/-- An instant in ps in the layout of R11 with 2 bytes of 0 at the end, its fraction of a nanosecond to the nearest
2^-16, halves up (R13, R384). -/
def psStamp (ps : Int) : List Byte :=
  let q := ((ps * 65536 + 500) / 1000).toNat
  le 8 (q / (65536 * 1000000000)) ++ le 4 (q / 65536 % 1000000000) ++ le 2 (q % 65536) ++ pad 2

/-- The data bytes of a frame. Those of a CONTROL frame are device-private. -/
def bodyData : FrameBody → List Byte
  | .hatchData f => le 8 (if f.w64 then f.payload.toNat else f.payload.toNat % 2 ^ 32)
  | .hatchCredit _ _ => []
  | .doubt _ root => le 4 root ++ pad 4
  | .tReq exch => le 2 exch ++ pad 6
  | .tResp exch t2 => le 2 exch ++ pad 6 ++ psStamp t2
  | .tFollow exch dev parent hops tstate t3 =>
    let par := match parent with | some d => d * 2 ^ 30 | none => 2 ^ 54
    le 8 (exch % 2 ^ 16 + dev * 2 ^ 16 + par + hops * 2 ^ 44 + tstate * 2 ^ 52) ++ psStamp t3
  | .control _ b => (List.range (8 * ((Config.controlLen b).val + 1))).map (Config.controlByte b)
  | .bulk _ _ _ data => data

/-- The header of a frame; a TIME frame goes to the device at the far end of its port. -/
def bodyHead (dev peer seq : Nat) (b : FrameBody) : Nat :=
  let len := (bodyData b).length / 8
  match b with
  | .hatchData f => headWord 0 0 len seq f.dest (f.channel + bit f.w64 12)
  | .hatchCredit dest ch => headWord 0 1 len seq dest ch
  | .doubt dest _ => headWord 0 2 len seq dest 0
  | .tReq _ => headWord 1 0 len seq peer dev
  | .tResp _ _ => headWord 1 1 len seq peer dev
  | .tFollow _ _ _ _ _ _ => headWord 1 2 len seq peer dev
  | .control src c => headWord 2 (Config.controlType c).toNat len seq c.dest src
  | .bulk src dest type _ => headWord 3 type len seq dest src

/-- The frame check: the CRC-32C of the 7 header bytes and the data bytes (R373). -/
def frameCheck (head : Nat) (data : List Byte) : Nat := crc32c (le 7 head ++ data)

/-- FRAME_START, the data blocks and FRAME_END. -/
def frameBlocks (head : Nat) (data : List Byte) : List Block :=
  [.ctl 0x78 (BitVec.ofNat 56 head)]
    ++ (List.range (data.length / 8)).map (fun i => Block.data (BitVec.ofNat 64 (field data (8 * i) 8)))
    ++ [.ctl 0x87 (BitVec.ofNat 56 (frameCheck head data))]

/-! ### Reading a received frame (R368, R373, R376) -/

/-- The data blocks up to the FRAME_END, and its fields; none for anything else. -/
def readData : List (Option Block) → Option (List Byte × Nat)
  | [some (.ctl t f)] => if t = 0x87 then some ([], f.toNat) else none
  | some (.data b) :: l => (readData l).map fun r => (le 8 b.toNat ++ r.1, r.2)
  | _ => none

/-- The header and the data of a frame whose blocks are in order, whose LEN is right and whose check holds. -/
def readFrame (t : FrameTag) : Option (Nat × List Byte) :=
  match t.blocks.map readWire with
  | some (.ctl k h) :: l =>
    match readData l with
    | some (data, c) =>
      if k = 0x78 && headLen h.toNat == data.length / 8 && c == frameCheck h.toNat data then some (h.toNat, data) else none
    | none => none
  | _ => none

/-- Blocks of a frame that are coding errors. -/
def codeErrors (t : FrameTag) : Nat := ((t.blocks.map readWire).filter Option.isNone).length

/-- SEQ of a received frame. -/
def frameSeq (t : FrameTag) : Nat := match readFrame t with | some (h, _) => headSeq h | none => 0

/-- A header is that of the frame that a row names, with every reserved bit 0: the SEQ is its own, a TIME frame's two devices
and a private frame's TYPE are any. -/
def headIs (b : FrameBody) (h : Nat) : Bool :=
  match b with
  | .control src c => h == headWord 2 (headType h) (headLen h) (headSeq h) c.dest src
  | .bulk _ dest _ _ => h == headWord 3 (headType h) (headLen h) (headSeq h) dest (headSrc h)
  | b => h == bodyHead (headSrc h) (headDest h) (headSeq h) b

/-- The data are those of the frame that a row names; private ones are any. -/
def dataIs (b : FrameBody) (data : List Byte) : Bool :=
  match b with
  | .control _ _ => true
  | .bulk _ _ _ _ => true
  | b => data == bodyData b

/-- A received frame is well formed, and the one that a row names (R376). -/
def frameOk (b : FrameBody) (t : FrameTag) : Bool :=
  match readFrame t with
  | some (h, data) => headIs b h && dataIs b data
  | none => false

/-- DEST of a received frame. -/
def frameDest (t : FrameTag) : Nat := match readFrame t with | some (h, _) => headDest h | none => 0

/-- LEN, SRC, TYPE and data of a received private frame. -/
def frameLen (t : FrameTag) : Nat := match readFrame t with | some (h, _) => headLen h | none => 0
def bulkOf (dest : Nat) (t : FrameTag) : FrameBody :=
  match readFrame t with
  | some (h, data) => .bulk (headSrc h) dest (headType h) data
  | none => .bulk 0 dest 0 []

/-! ### Training sets (R369) -/

def JvlSt.code : JvlSt → Nat
  | .disabled => 0 | .detect => 1 | .lock => 2 | .config => 3 | .speed => 4 | .active => 5

/-- What this device supports: PEER, TIME and W64. -/
def ownFeat : Nat := 7

/-- What this device advertises (R369). -/
def ownAdvert (vl : Nat) : Nat := if vl = 0 then 64 else if vl = 1 then 16 else if vl = 2 then 128 else 512

/-- The TRAIN block of a lane: TS_ID with ACK once 8 identical sets have come, or TS_CFG. -/
def trainBlock (dev : Option Nat) (p lane : Nat) (cfg : Bool) (j : Jvl) : Block :=
  let f := if cfg then 1 + ownAdvert 0 * 2 ^ 2 + ownAdvert 1 * 2 ^ 10 + ownAdvert 2 * 2 ^ 18 + ownAdvert 3 * 2 ^ 30
    else lane * 2 ^ 2 + p * 2 ^ 6 + dev.getD 0 * 2 ^ 9 + (if j.genMax = 1 then 1 else 3) * 2 ^ 23 + ownFeat * 2 ^ 25
      + j.st.code * 2 ^ 33 + bit (decide (8 ≤ (tget (none, 0) j.idRun lane).2)) 36 + bit dev.isSome 37
  .ctl 0x55 (BitVec.ofNat 56 f)

/-! ### The transmitter (R366, R367, R374, R375, R377) -/

/-- A frame is in class P. -/
def TxFrame.urgent (f : TxFrame) : Bool := decide (f.vl < 2)

/-- A frame may start on a lane: a TIME frame on logical lane 0 only (R375). -/
def TxFrame.startsOn (f : TxFrame) (lane : Nat) : Bool := f.vl != 1 || lane == 0

/-- The frames of a class that are not acknowledged, each with its SEQ. -/
def Retry.numbered (r : Retry) : List (Nat × TxFrame) :=
  (List.range r.unacked.length).zip r.unacked |>.map fun e => ((r.txSeq + 4096 - r.unacked.length + e.1) % 4096, e.2)

/-- The next frame of a class that may start on a lane: one to be sent again first; else the oldest of the lane of highest
priority that holds a frame and a credit, which takes its credit and its SEQ (R374, R377, R379). -/
def Jvl.pick (j : Jvl) (urgent : Bool) (lane : Nat) : Option (Nat × TxFrame × Jvl) :=
  match j.line.redo.find? fun e => e.2.urgent == urgent with
  | some e => if e.2.startsOn lane then some (e.1, e.2, { j with line := { j.line with redo := j.line.redo.erase e } }) else none
  | none =>
    firstSome (fun vl =>
      match j.txq.find? fun e => e.vl == vl with
      | some f =>
        let r := j.retry vl
        if f.startsOn lane && decide (1 ≤ tget 0 j.credits vl) && decide (r.unacked.length < 512) then
          some (r.txSeq, f, ({ j with txq := j.txq.erase f, line := { j.line with began := j.line.began ++ [f.body] } }).launch f)
        else none
      | none => none) (if urgent then [0, 1] else [2, 3])

/-- The next block of the stream, on a logical lane. A frame of class P goes on to its end; one may start between any two
blocks of class Q. `hold` where a whole row waits: no frame starts. -/
def Jvl.nextBlock (dev lane : Nat) (hold : Bool) (j : Jvl) : Block × Jvl :=
  let begin_ (urgent : Bool) (e : Nat × TxFrame × Jvl) : Block × Jvl :=
    let h := bodyHead dev j.peerDev e.1 e.2.1.body
    let k := e.2.2
    match frameBlocks h (bodyData e.2.1.body) with
    | b :: rest => (b, { k with line := if urgent then { k.line with cut := rest } else { k.line with cur := rest } })
    | [] => (idleBlock, k)
  match j.line.cut with
  | b :: rest => (b, { j with line := { j.line with cut := rest } })
  | [] =>
    match (if hold then none else j.pick true lane) with
    | some e => begin_ true e
    | none =>
      match j.line.cur with
      | b :: rest => (b, { j with line := { j.line with cur := rest } })
      | [] =>
        match j.line.links with
        | b :: rest => (b, { j with line := { j.line with links := rest } })
        | [] =>
          match (if hold then none else j.pick false lane) with
          | some e => begin_ false e
          | none => (idleBlock, j)

/-- One block goes out on a lane. -/
def Jvl.put (j : Jvl) (lane : Nat) (b : Block) : Jvl :=
  let w := b.wire (tget 0 j.line.scr lane)
  { j with line := { j.line with scr := tset 0 j.line.scr lane w.1, row := j.line.row ++ [w.2] } }

/-- The row of an ACTIVE port: a whole row that waits, between frames; else the stream, block k on lane k mod n (R367). -/
def Jvl.streamRow (dev : Nat) (j : Jvl) : Jvl :=
  match j.line.whole, j.line.cut, j.line.cur with
  | a :: rest, [], [] =>
    (List.range j.lanes).foldl (fun j l => j.put l (if a then alignBlock l else idleBlock))
      { j with line := { j.line with whole := rest, sinceAlign := if a then 0 else j.line.sinceAlign + 1 } }
  | w, _, _ =>
    (List.range j.lanes).foldl (fun j l => let r := j.nextBlock dev l (decide (w ≠ [])); r.2.put l r.1)
      { j with line := { j.line with sinceAlign := j.line.sinceAlign + 1 } }

/-- The row of a port: frames in ACTIVE, training sets on every lane before that; a port in near-end parallel loopback
sends IDLE (R363, R370). -/
def Jvl.sendRow (dev : Option Nat) (p : Nat) (j : Jvl) : Jvl :=
  let j := { j with line := { j.line with row := [], began := [] } }
  if j.loopback = 2 then (List.range 4).foldl (fun j l => j.put l idleBlock) j
  else if j.st = .active then j.streamRow (dev.getD 0)
  else
    let cfg := j.line.cfgNext && (decide (j.st = .config) || decide (j.st = .speed))
    let j := (List.range 4).foldl (fun j l => j.put l (trainBlock dev p l cfg j)) j
    { j with line := { j.line with cfgNext := !cfg } }

/-- The length of a row in quarters of a tick: 66 bits at 10.3125 Gb/s are 6.4 ns, at 32 Gb/s 2.0625 ns (R360). -/
def rowQuarters (gen : Nat) : Nat := if gen = 2 then 165 else 512

end Sys2Proof.Machine
end

