-- ==== Sys2Proof/Machine/Markers.lean ====
section
/-! DEFINITION. Markers and patterns (R310–R327), and the shot boundary (R37). -/

namespace Sys2Proof.Machine

/-! ### MARK_LOAD (R320–R322, R422) -/

/-- The generator is in use (R320). -/
def State.genBusy (s : State) : Bool := decide (s.mark.gen ≠ .idle)

/-- One vector of 16 bytes, as its codes and timing set; none where it breaks R313. -/
def readVector (s : State) (a : Nat) : Option (Nat × Nat) :=
  let hi := s.numAt (a + 8) 8
  if hi < 8 then some (s.numAt a 8, hi) else none

/-- One timing-set entry (R314). -/
def readTset (s : State) (a : Nat) : Option (Nat × Nat) :=
  let v := s.numAt a 2
  if bits v 6 2 = 0 && bits v 14 2 = 0 then some (bits v 0 6, bits v 8 6) else none

/-- One segment entry (R315). -/
def readMrkSeg (s : State) (a : Nat) : Option MrkSeg :=
  let start := s.numAt a 2
  let len := s.numAt (a + 2) 4
  let last := s.numAt (a + 12) 4
  if len ≤ 65536 && (len = 0 || start + len ≤ 65536) && last < 2 then
    some { start, len, rep := s.numAt (a + 6) 1, next := s.numAt (a + 7) 1, trig := s.numAt (a + 8) 4, last := last == 1 }
  else none

/-- `n` items of a size from an address on; none where one breaks its rule. -/
def readItems {α : Type} (f : Nat → Option α) (size : Nat) : Nat → Nat → Option (List α)
  | _, 0 => some []
  | a, n + 1 => match f a with
    | some v => (readItems f size (a + size) n).map (v :: ·)
    | none => none

/-- The timing sets of a mask, in ascending order. -/
def tsList (mask : Nat) : List Nat := (List.range 8).filter mask.testBit

/-- Bytes that a LOAD reads. -/
def markBytes (count tsmask segCount : Nat) : Nat := 16 * count + 64 * (tsList tsmask).length + 16 * segCount

/-- A range of staging from which a load reads: 64-byte aligned and inside the region (R422, R434). -/
def srcOk (src n : Nat) : Bool := src % 64 == 0 && (n == 0 || inStaging src n)

def markLoadReply (first count tsmask segFirst segCount src : Nat) (s : State) : Reply :=
  let sets := tsList tsmask
  let n := markBytes count tsmask segCount
  if 65536 < first + count then .bad s 8
  else if 256 ≤ tsmask then .bad s 12
  else if 256 < segCount || 256 < segFirst + segCount then .bad s 14
  else if !srcOk src n then .bad s 16
  else if !s.isOn 5 then .no s stInvalid (.domain 5)
  else if s.testing 5 then .busy s
  else if !s.isOn 4 then .no s stInvalid (.domain 4)
  else if s.genBusy then .busy s
  else if s.poisoned src n then .no (noteUe (s.firstBad src n) s) stFault (.field 16)
  else
    let tsAt := src + 16 * count
    let segAt := tsAt + 64 * sets.length
    match readItems (readVector s) 16 src count, readItems (readTset s) 2 tsAt (32 * sets.length),
        readItems (readMrkSeg s) 16 segAt segCount with
    | some vs, some ts, some gs =>
      let keys := sets.flatMap fun i => (List.range 32).map (i * 32 + ·)
      { s := { s with mark := { s.mark with
          vectors := tsetRun (0, 0) s.mark.vectors first vs
          tsets := (keys.zip ts).foldl (fun m e => tset (0, 0) m e.1 e.2) s.mark.tsets
          segs := tsetRun {} s.mark.segs segFirst gs } } }
    | _, _, _ => .bad s 16

def execMarkLoadLoad (h : Hdr) (first count tsmask segFirst segCount src : Nat) (s : State) : Host.Outcome State Fault Refusal :=
  .next (command h 0x22 32 cfgModes (markLoadReply first count tsmask segFirst segCount src) s)

/-- Outputs of a mask. -/
def mrkOuts (outputs : Word) : List Nat := (List.range 32).filter outputs.toNat.testBit

/-- CONFIG of one output: an output that follows the segments of running cells waits for the next shot boundary of
each (R37); any other takes its settings at once. -/
def configOut (mode idle : Nat) (offs : Int) (fw k : Nat) (s : State) : State :=
  let o := tget {} s.mark.outs k
  let waits := if o.mode = 2 then s.shotWaits s.runningRoots else []
  let o := if waits = [] then takeSettings mode idle offs fw o else { o with pend := some (mode, idle, offs, fw), pendRoots := waits }
  { s with mark := { s.mark with outs := tset {} s.mark.outs k o } }

def markConfigReply (outputs : Word) (mode idle : Nat) (offs : Int) (fw sosel : Nat) (setSo : Bool) (s : State) : Reply :=
  let l := mrkOuts outputs
  if outputs ≠ 0 && 2 < mode then .bad s 8
  else if outputs ≠ 0 && 1 < idle then .bad s 9
  else if outputs ≠ 0 && (offs < -256 || 255 < offs) then .bad s 10
  else if outputs ≠ 0 && (fw = 0 || 255 < fw) then .bad s 12
  else if setSo && 31 < sosel && sosel ≠ 0xFF then .bad s 13
  else if !s.isOn 5 then .no s stInvalid (.domain 5)
  else if s.testing 5 then .busy s
  else if s.genBusy && l.any (fun k => (tget {} s.mark.outs k).mode == 1) then .busy s
  else
    let s := each (configOut mode idle offs fw) l (markUpTo s.now s)
    { s := if setSo then { s with mark := { s.mark with sosel } } else s }

def execMarkLoadConfig (h : Hdr) (outputs : Word) (mode idle : Nat) (offs : Int) (fw sosel : Nat) (setSo : Bool) (s : State) :
    Host.Outcome State Fault Refusal :=
  .next (command h 0x22 32 cfgModes (markConfigReply outputs mode idle offs fw sosel setSo) s)

/-- START (R321). -/
def markStartReply (root seg source delay : Nat) (time : Stamp) (s : State) : Reply :=
  let at_ := s.coarseOf (stampTicks time)
  let soon := s.now + us 10
  if root ≠ 0xFFFFFFFF && !s.rootNamed root then .bad s 4
  else if source = 3 && root = 0xFFFFFFFF then .bad s 4
  else if 256 ≤ seg then .bad s 8
  else if 3 < source then .bad s 9
  else if 65536 ≤ delay then .bad s 10
  else if !stampOk time then .bad s 16
  else if !s.isOn 5 then .no s stInvalid (.domain 5)
  else if s.testing 5 then .busy s
  else if (tget {} s.mark.segs seg).len = 0 then .bad s 8
  else if s.genBusy then .busy s
  else if source = 1 && decide (at_ < (soon : Int)) then .no s stLate (.field 16)
  else
    let gen : MrkGen := match source with
      | 0 => .armed soon
      | 1 => .armed at_.toNat
      | 2 => .sync delay
      | _ => .shot
    { s := { s with mark := { s.mark with
        gen, first := seg, shotSrc := source == 3, named := source == 1, synced := false, stopping := none, shotAt := none
        root := if root = 0xFFFFFFFF then none else some (s.keyOf root) } }
      result := if source = 0 then soon % 2 ^ 48 else 0 }

def execMarkLoadStart (h : Hdr) (root seg source delay : Nat) (time : Stamp) (s : State) : Host.Outcome State Fault Refusal :=
  .next (command h 0x22 32 cfgModes (markStartReply root seg source delay time) s)

/-- The first word boundary after a tick. -/
def wordNext (t : Nat) : Nat := t / 16 * 16 + 16

/-- STOP (R322): a pending start is disarmed at once, a playback ends at the next word boundary. A start that has its
SYNC_IN edge takes place and ends so (R325). -/
def markStopReply (s : State) : Reply :=
  if s.mark.gen = .playing || s.mark.synced then
    { s := { s with mark := { s.mark with stopping := some (wordNext s.now), shotSrc := false, shotAt := none } } }
  else
    let s := patternIdle (genIdle s)
    { s := { s with mark := { s.mark with root := none } } }

def execMarkLoadStop (h : Hdr) (s : State) : Host.Outcome State Fault Refusal :=
  .next (command h 0x22 32 cfgModes markStopReply s)

/-! ### Playback -/

/-- A repetition starts at a tick: its TRIG events are raised as that tick ends (R315, R316, R325). -/
def beginRep (seg rep tick : Nat) (s : State) : State :=
  { s with mark := { s.mark with
    gen := .playing, seg, rep, segStart := tick, done := 0, upTo := 4 * (tick : Int), segments := s.mark.segments.bump
    trigDue := s.mark.trigDue ++ (List.range 32).filter (tget {} s.mark.segs seg).trig.testBit } }

/-- The tick ends, and no doubt or stop has prevailed: the TRIG events of a repetition that started in it are raised. -/
def raiseTrigs (s : State) : State :=
  let l := s.mark.trigDue
  if l = [] then s
  else each (fun k s => raiseEp (s.ep 6 k 0) s) l { s with mark := { s.mark with trigDue := [] } }

/-- PLAYBACK_START (R321): the start tick of an armed start, or a shot origin of ROOT, which cuts a playback still
running. -/
def execPlaybackStart (s : State) : Host.Outcome State Fault Refusal :=
  .next (match s.mark.gen, s.mark.shotAt with
    | .armed t, _ =>
      if s.now < t then s
      else
        let stop := s.mark.stopping.map fun b => max b (wordNext t)
        beginRep s.mark.first 0 t { s with mark := { s.mark with named := false, synced := false, stopping := stop } }
    | .shot, some t => beginRep s.mark.first 0 t { s with mark := { s.mark with shotAt := none } }
    | .playing, some t =>
      let s := markUpTo t s
      beginRep s.mark.first 0 t { s with mark := { s.mark with shotAt := none, cuts := s.mark.cuts.bump } }
    | _, _ => s)

/-- The segment and repetition that follow the one in play; none where the playback ends there. -/
def Markers.following (m : Markers) : Option (Nat × Nat) :=
  let e := tget {} m.segs m.seg
  if m.rep < e.rep then some (m.seg, m.rep + 1)
  else if e.last || (tget {} m.segs e.next).len = 0 then none
  else some (e.next, 0)

/-- A stop takes effect before the repetition in play ends, or as it does. -/
def Markers.stopsIn (m : Markers) : Bool := match m.stopping with | some t => decide (t ≤ m.repEnd) | none => false

/-- MARKER_SEGMENT_START (R316): gapless, at the end of the repetition before. -/
def execMarkerSegmentStart (s : State) : Host.Outcome State Fault Refusal :=
  .next (let m := s.mark
    if m.gen ≠ .playing || decide (s.now < m.repEnd) || m.stopsIn then s
    else match m.following with
      | some (seg, rep) => beginRep seg rep m.repEnd (markUpTo m.repEnd s)
      | none => s)

/-- A playback is over: with source SHOT the generator waits for the next origin. -/
def endPlayback (s : State) : State :=
  if s.mark.shotSrc then { s with mark := { s.mark with gen := .shot } } else genIdle s

/-- PLAYBACK_END (R316, R322, R323): after a LAST segment and at an undefined one the outputs hold their levels;
after STOP they go to IDLE. -/
def execPlaybackEnd (s : State) : Host.Outcome State Fault Refusal :=
  .next (let m := s.mark
    match m.gen, m.stopping with
    | .playing, some t =>
      if t ≤ m.repEnd || m.following.isNone then
        let fin := Nat.min t m.repEnd
        if s.now < fin then s
        else
          let s := patternIdle (genIdle (markUpTo fin s))
          { s with mark := { s.mark with root := none } }
      else s
    | .playing, none =>
      if s.now < m.repEnd || m.following.isSome then s
      else
        let s := markUpTo m.repEnd s
        let s := if (tget {} m.segs m.seg).last then s
          else { s with mark := { s.mark with missing := s.mark.missing.bump } }
        endPlayback s
    | _, _ => s)

/-- FOLLOW_PULSE_END (R318): 6 ns after the pulse's end, inside the latency, since a Z channel's request counts from
an instant 6 ns before its release tick. -/
def execFollowPulseEnd (k : Fin 32) (s : State) : Host.Outcome State Fault Refusal :=
  .next (let o := tget {} s.mark.outs k.val
    match o.pulseEnd with
    | some t =>
      if s.now < t + 120 then s
      else
        let (o, n) := followFall t o
        { s with mark := { s.mark with outs := tset {} s.mark.outs k.val o, drops := s.mark.drops.add n } }
    | none => s)

/-! ### The shot boundary (R37) -/

/-- A playback armed on the shots of a root is to start afresh. -/
def shotPlayback (key origin : Nat) (s : State) : State :=
  if s.mark.shotSrc && s.mark.root == some key then { s with mark := { s.mark with shotAt := some origin } } else s

/-- SHOT_BOUNDARY: the origin of the oldest shot whose boundary is due has come (R37, R169, R180, R225, R249,
R321, R496). -/
def execShotBoundary (root : CellRef) (s : State) : Host.Outcome State Fault Refusal :=
  .next (let key := s.refKey root
    match (s.root key).due with
    | d :: rest =>
      if s.now < d.origin then s
      else
        let s := boundaryPass key (some d.ord) (s.modRoot key fun r => { r with due := rest })
        let s := swapWhere (fun w => w.root == key && w.at_.isNone && decide (w.after < d.ord)) s
        shotPlayback key d.origin (burnishAll (some key) s)
    | [] => s)

end Sys2Proof.Machine
end

