-- ==== Sys2Proof/Machine/Tiu.lean ====
section
/-! DEFINITION. Timing inputs and the time-interval unit (R325, R346, R351–R359). Instants are picoseconds of the
coarse count, 50 to a tick. -/

namespace Sys2Proof.Machine

/-! ### Stamp channels -/

/-- The channel of a source (R351, R357): pins, then the reference inputs. -/
def srcChan (src : Nat) : Nat := if src < 8 then 0 else 1

/-- The interval that a count of N means (R352, R353), rounded to 1 ps: 1 ps a cycle below code 50, and from there
the calibrated steps of 50 ps times their share of 65,536 hits. -/
def vernier (hits : List Nat) (n : Nat) : Nat := Nat.min n 50 + (50 * (hits.take (n - 50)).sum + 32768) / 65536

/-- The core that takes an edge: the lowest that is neither busy nor in calibration (R352). -/
def StampChan.free (c : StampChan) (tick : Nat) : Option Nat :=
  (List.range 5).find? fun k => decide (k ≠ c.calCore) && decide (tget 0 c.busy k ≤ tick)

/-- LOOP_LOCK (R354): the loop locks on a reference that is present. -/
def execLoopLock (chan : Fin 3) (s : State) : Host.Outcome State Fault Refusal :=
  .next (if s.isOn (stampDom chan.val) && s.sys.refclk then s.modStampChan chan.val fun c => { c with locked := true } else s)

/-- CORE_CALIBRATION (R353): the core in rotation has its new step table, from 65,536 hits, and the next one is taken. -/
def execCoreCalibration (chan : Fin 3) (core : Fin 5) (hits : List Nat) (s : State) : Host.Outcome State Fault Refusal :=
  .next (let c := s.stampChan chan.val
    if !s.isOn (stampDom chan.val) || !c.locked || c.calCore ≠ core.val || hits.sum ≠ 65536 then s
    else s.setStampChan chan.val { c with
      w := tset [] c.w core.val hits, cald := c.cald ||| 2 ^ core.val, calCore := (core.val + 1) % 5 })

/-! ### Host measurements (R357–R359) -/

/-- Edges of a kind that an engine stamps. -/
def edgeFits (edge : Nat) (falling : Bool) : Bool := edge == 2 || (edge == 1) == falling

/-- A timestamp of an instant of TAI in ps (R13). -/
def stampPs (ps : Int) : List Byte :=
  let q := ((ps * 131072 + 1000) / 2000).toNat
  le 8 (q / (65536 * 1000000000)) ++ le 4 (q / 65536 % 1000000000) ++ le 2 (q % 65536)

/-- The root of a ratio in units of 2^-8, rounded to nearest; all ones where it does not fit 4 bytes. -/
def root8 (num den : Nat) : Nat := Nat.min 0xFFFFFFFF ((isqrt 64 (262144 * num / den) 0 + 1) / 2)

/-- INTERVAL: the mean in 2^-16 ps and the rms about it in 2^-8 ps (R358). -/
def intervalResult (l : List Int) : Int × Nat :=
  let n : Int := (l.length : Int)
  let sum := l.sum
  let sq := (l.map fun x => x * x).sum
  ((2 * sum * 65536 + n) / (2 * n), root8 (n * sq - sum * sum).toNat (n * n).toNat)

/-- FREQ: DIV ÷ b in 2^-32 Hz and the rms residual in 2^-8 ps, for stamps newest first (R358). -/
def freqResult (div : Nat) (l : List Int) : Nat × Nat :=
  let t := l.reverse
  let n : Int := (t.length : Int)
  let t0 := t.headD 0
  let y := t.map fun x => x - t0
  let k : List Int := (List.range t.length).map fun i => (i : Int)
  let sk := k.sum
  let sy := y.sum
  let ky := ((k.zip y).map fun e => e.1 * e.2).sum
  let b := n * ky - sk * sy
  let c := n * (k.map fun x => x * x).sum - sk * sk
  let a := n * (y.map fun x => x * x).sum - sy * sy
  let num := 2 * ((div : Int) * 1000000000000 * 4294967296) * c + b
  (if b ≤ 0 then 0 else Nat.min 0xFFFFFFFFFFFFFFFF (num / (2 * b)).toNat, root8 (a * c - b * b).toNat (c * n * n).toNat)

/-- A record of an engine goes to its ring, or is dropped and its number with it (R442). -/
def tiuWrite (e : Nat) (bytes : List Byte) (s : State) : State :=
  let k := s.tiuEng e
  let next (loss : Bool) (k : TiuEng) : TiuEng := { k with seq := (k.seq + 1) % 65536, loss }
  match ringPut k.set.ring bytes none s with
  | some s' => s'.modTiuEng e (next false)
  | none => s.modTiuEng e (next true)

/-- The tick at which the open gate ends. -/
def TiuEng.gateFin (k : TiuEng) : Nat := k.gateOpen + k.set.gate

/-- One of some ticks lies in the open gate. -/
def TiuEng.inGate (k : TiuEng) (l : List Nat) : Bool := l.any fun t => decide (k.gateOpen ≤ t) && decide (t < k.gateFin)

/-- The record of the open gate (R358). -/
def State.gateRec (s : State) (e : Nat) : List Byte :=
  let k := s.tiuEng e
  let short := decide (k.vals.length < 3)
  let r : Int × Nat := if short then (0, 0) else if k.set.mode = 2 then intervalResult k.vals
    else let f := freqResult k.set.div k.vals; ((f.1 : Int), f.2)
  le 2 0x0061 ++ le 1 e ++ le 1 k.set.mode ++ le 2 k.seq
    ++ le 1 (bit (k.inGate k.stepAt) 0 + bit (k.unlock || k.inGate k.unlockAt) 1 + bit (k.inGate k.mergedAt) 2 + bit short 3) ++ pad 1
    ++ le 4 k.vals.length ++ le 4 r.2 ++ leI 8 r.1 ++ le 8 (k.gateOpen % 2 ^ 48)

/-- The gate of an engine closes; the next opens at the same tick, or the engine ends (R357, R358). -/
def closeGate (e : Nat) (s : State) : State :=
  let s := tiuWrite e (s.gateRec e) s
  s.modTiuEng e fun k =>
    let left := k.gatesLeft.map (· - 1)
    { k with
      running := left != some 0, gatesLeft := left, gateOpen := k.gateFin, vals := [], skip := 0
      stepAt := k.stepAt.filter (k.gateFin ≤ ·), mergedAt := k.mergedAt.filter (k.gateFin ≤ ·)
      unlockAt := k.unlockAt.filter (k.gateFin ≤ ·), unlock := !s.stamps (srcChan k.set.srca) }

/-- An engine measures gates. -/
def TiuEng.gated (k : TiuEng) : Bool := k.running && (k.set.mode == 2 || k.set.mode == 3)

/-- GATE_END. -/
def execGateEnd (e : Fin 4) (s : State) : Host.Outcome State Fault Refusal :=
  .next (let k := s.tiuEng e.val
    if k.gated && decide (k.gateFin ≤ s.now) then closeGate e.val s else s)

/-- Close the gates that end at or before a tick: an edge on a boundary belongs to the later gate. -/
def closeGates (e tick : Nat) : Nat → State → State
  | 0, s => s
  | n + 1, s =>
    let k := s.tiuEng e
    if k.gated && decide (k.gateFin ≤ tick) then closeGates e tick n (closeGate e s) else s

/-- A stamp record (R359). Beyond 10 million a second the device drops some: with less than 100 ns since the last
record, whether it drops is a free value. -/
def stampRecord (e src : Nat) (falling : Bool) (ps : Int) (s : State) : State :=
  let k := s.tiuEng e
  let tick := (ps / 50).toNat
  let close := match k.lastRec with | some t => decide (tick < t + 2000) | none => false
  let s := if close then { s with free := s.free + 1 } else s
  if close && decide (Config.freeNat (s.free - 1) % 2 = 1) then
    s.modTiuEng e fun k => { k with seq := (k.seq + 1) % 65536, loss := true }
  else
    let rec_ := le 2 0x0062 ++ le 1 src ++ le 1 (bit falling 0 + bit k.loss 1 + bit (k.stepAt.any (· ≤ tick)) 2) ++ le 2 k.seq
      ++ le 1 (ps % 50).toNat ++ pad 1 ++ le 8 (tick % 2 ^ 48)
      ++ stampPs (s.taiAt (ps / 50) * 50 + ps % 50) ++ pad 2
    (tiuWrite e rec_ s).modTiuEng e fun k => { k with stepAt := k.stepAt.filter (tick < ·), lastRec := some tick }

/-- A stamp comes to an engine that uses its source. -/
def tiuTake (src : Nat) (falling : Bool) (ps : Int) (e : Nat) (s : State) : State :=
  let k := s.tiuEng e
  let tick := (ps / 50).toNat
  if !k.running || !edgeFits k.set.edge falling || tick < k.gateOpen then s
  else if k.set.mode = 1 then if k.set.srca = src then stampRecord e src falling ps s else s
  else
    let s := closeGates e tick ((tick - k.gateOpen) / k.set.gate) s
    if !(s.tiuEng e).running then s
    else if k.set.mode = 3 then
      if k.set.srca ≠ src then s
      else s.modTiuEng e fun k =>
        if 0 < k.skip then { k with skip := k.skip - 1 } else { k with vals := ps :: k.vals, skip := k.set.div - 1 }
    else s.modTiuEng e fun k =>
      let k := if k.set.srcb = src then { k with vals := (k.openA.map fun t => ps - t).reverse ++ k.vals, openA := [] } else k
      if k.set.srca = src then { k with openA := k.openA ++ [ps] } else k

/-- An engine uses a source. -/
def TiuEng.uses (k : TiuEng) (src : Nat) : Bool := k.running && (k.set.srca == src || (k.set.mode == 2 && k.set.srcb == src))

/-- An edge that is not stamped: host measurements of its source show MERGED in its gate (R352, R358). -/
def unstamped (src tick : Nat) (s : State) : State :=
  { s with tiu := tmap {} (fun _ k => if k.uses src then { k with mergedAt := tick :: k.mergedAt } else k) s.tiu }

/-- An edge that found no core (R303, R352). -/
def mergeEdge (src tick : Nat) (s : State) : State :=
  { unstamped src tick s with
    engines := tmap {} (fun _ k =>
      if k.armed && k.lat.tsrc == 1 && k.lat.pin == src then { k with tdcMerged := k.tdcMerged.bump } else k) s.engines }

/-- STAMP (R352): a core converts an edge, counted from tick edge `c2`, with count `n`. While the channel's loop is
unlocked it stamps nothing (R354, the dropout case of R359). -/
def execStamp (source : Fin 11) (falling : Bool) (c2 n : Nat) (s : State) : Host.Outcome State Fault Refusal :=
  .next (let ch := srcChan source.val
    let c := s.stampChan ch
    if !s.stamps ch then unstamped source.val c2 s
    else match c.free c2 with
      | none => mergeEdge source.val c2 s
      | some core =>
        let ps : Int := ((c2 * 50 : Nat) : Int) - (vernier (tget [] c.w core) n : Int)
        let s := s.setStampChan ch { c with busy := tset 0 c.busy core (c2 + (51 * n + 49) / 50 + 30) }
        each (tiuTake source.val falling ps) (List.range 4) (if source.val < 8 then pinEdge source.val (!falling) ps s else s))

/-! ### TIU_MEASURE -/

def tiuModes : List Mode := [.configure, .ready, .run, .calibrate, .safe, .service]

/-- The first field of START that breaks its rule. -/
def tiuRange (e : Nat) (a : TiuArgs) (s : State) : Option Nat :=
  let srcOk (x : Nat) : Bool := decide (x ≤ 10) && s.stamps (srcChan x)
  if 4 ≤ e then some 1
  else if 3 < a.mode then some 2
  else if !srcOk a.srca then some 3
  else if a.mode = 2 && !srcOk a.srcb then some 4
  else if 2 < a.edge || (a.edge = 2 && a.mode ≠ 1) then some 5
  else if 64 ≤ a.ring || !(s.ring a.ring).dev then some 6
  else if a.div = 0 || 65536 < a.div then some 8
  else if 2 ^ 32 ≤ a.count then some 12
  else if a.gate < 20 || 2 ^ 46 < a.gate then some 16
  else if !stampOk a.start then some 24
  else none

def tiuStartReply (e : Nat) (a : TiuArgs) (s : State) : Reply :=
  match tiuRange e a s with
  | some o => .bad s o
  | none =>
    let t := s.coarseOf (stampTicks a.start)
    if (s.tiuEng e).running then .busy s
    else if !stampNow a.start && decide (t < (s.now : Int) + (us 10 : Nat)) then .no s stLate (.field 24)
    else
      let open_ := if stampNow a.start then s.now else t.toNat
      { s := s.setTiuEng e { running := decide (a.mode ≠ 0), set := a, gateOpen := open_, seq := (s.tiuEng e).seq
                             gatesLeft := if a.count = 0 then none else some a.count } }

def execTiuMeasureStart (h : Hdr) (engine : Nat) (a : TiuArgs) (s : State) : Host.Outcome State Fault Refusal :=
  .next (command h 0x44 40 tiuModes (tiuStartReply engine a) s)

def tiuStopReply (e : Nat) (s : State) : Reply :=
  if 4 ≤ e then .bad s 1 else { s := s.modTiuEng e fun k => { k with running := false, vals := [], openA := [] } }

def execTiuMeasureStop (h : Hdr) (engine : Nat) (s : State) : Host.Outcome State Fault Refusal :=
  .next (command h 0x44 40 tiuModes (tiuStopReply engine) s)

/-- The record of QUERY (R356, R424). -/
def State.tiuRec (s : State) : List Byte :=
  le 8 s.coarse ++ stampBytes (s.devTicks * 65536) ++ le 4 s.time.stepCount ++ pad 4

def tiuQueryReply (e len : Nat) (s : State) : Reply := if 4 ≤ e then .bad s 1 else queryReply len s.tiuRec id s

def execTiuMeasureQuery (h : Hdr) (engine len : Nat) (s : State) : Host.Outcome State Fault Refusal :=
  .next (command h 0x44 40 tiuModes (tiuQueryReply engine len) s)

/-! ### Edges -/

/-- TRIG_IN_EDGE (R351): the pin's level changes, and its Hatch event is raised on the first tick of the word after the edge.
Its stamp is a row of its own. -/
def execTrigInEdge (pin : Fin 8) (rising : Bool) (s : State) : Host.Outcome State Fault Refusal :=
  .next { s with sys := { s.sys with
    trigPins := tset false s.sys.trigPins pin.val rising
    trigDue := s.sys.trigDue ++ [(s.now / word * word + word, pin.val, rising)] } }

/-- The TRIG events whose tick has come are raised, in the order of their edges. -/
def trigEvents (s : State) : State :=
  let l := s.sys.trigDue.filter fun e => decide (e.1 ≤ s.now)
  if l = [] then s
  else each (fun e s => raiseEp (s.ep 7 e.2.1 (if e.2.2 then 0 else 1)) s) l
    { s with sys := { s.sys with trigDue := s.sys.trigDue.filter fun e => decide (s.now < e.1) } }

/-- SYNC_IN was sampled low at the REFCLK edge before this one: no such edge sampled it high within the last cycle
and a half (R325; one REFCLK cycle is 200 ticks, R234). -/
def State.syncWasLow (s : State) : Bool :=
  match s.sys.syncHigh with
  | some t => t + 300 ≤ s.now
  | none => true

/-- An alignment that waits for SYNC_IN takes this edge, and a marker start (R321, R346). -/
def alignEdge (s : State) : State :=
  match s.alignArm with
  | some (.sync d) => { s with alignArm := some (.at (s.now + d) false) }
  | _ => s

def markEdge (s : State) : State :=
  match s.mark.gen with
  | .sync d => { s with mark := { s.mark with gen := .armed (s.now + d), synced := true } }
  | _ => s

/-- SYNC_IN_EDGE (R234, R321, R325): SYNC_IN is sampled high at an edge of a REFCLK that is present. What is armed takes
that edge, so an input already high when it was armed starts it too, where the reference channel stamps and so locates the
edge (R346, R351); the event is raised where SYNC_IN was sampled low before (log 139). -/
def execSyncInEdge (s : State) : Host.Outcome State Fault Refusal :=
  .next (if !s.sys.refclk then s
    else
      let s := (if s.syncWasLow then raiseEp (s.ep 10 0 0) else id) { s with sys := { s.sys with syncHigh := some s.now } }
      if s.stamps 1 then markEdge (alignEdge s) else s)

end Sys2Proof.Machine
end

