-- ==== Sys2Proof/Machine/Links.lean ====
section
/-! DEFINITION. Jenvadon links and the time port (R360–R389, R544–R546): training, frames and retry, credits, decisions,
TIME exchanges, LINK_SET, LINK_STATUS and NET_SET. -/

namespace Sys2Proof.Machine

/-! ### Training (R369–R372, R546) -/

/-- A port trains or runs: PD03 LINK is On, the port enabled and in no loopback (R360, R363). -/
def State.portOn (s : State) (p : Nat) : Bool := s.isOn 3 && (s.jport p).enabled && (s.jport p).loopback == 0

/-- SIGNAL_DETECT: signal on one lane. -/
def execSignalDetect (p : JvlPort) (lane : Fin 4) (s : State) : Host.Outcome State Fault Refusal :=
  .next (if s.portOn p.val && decide ((s.jport p.val).st = .detect) && lane.val < 4 then
      s.modJport p.val fun j => { j.clear with st := .lock, since := s.now }
    else s)

/-- BLOCK_LOCK: 64 valid sync headers in a row on a lane. -/
def execBlockLock (p : JvlPort) (lane : Fin 4) (s : State) : Host.Outcome State Fault Refusal :=
  .next (let j := s.jport p.val
    if s.portOn p.val && (j.st = .lock || j.st = .config || j.st = .speed) && !j.lockedLanes.contains lane.val then
      s.setJport p.val { j with lockedLanes := j.lockedLanes ++ [lane.val] }
    else s)

/-- The lane numbers received run opposite to the physical order (R362). -/
def Jvl.isReversed (j : Jvl) : Bool := j.laneIds ≠ [] && j.laneIds.all fun e => e.1 + e.2 == 3

/-- The lanes that line up, straight or reversed: no other permutation is corrected (R362). -/
def Jvl.lined (j : Jvl) : List (Nat × Nat) := j.laneIds.filter fun e => if j.isReversed then e.1 + e.2 == 3 else e.1 == e.2

/-- Logical lanes that have locked. -/
def Jvl.logical (j : Jvl) : List Nat := (j.lined.filter fun e => j.lockedLanes.contains e.1).map Prod.snd

/-- The lane count: the largest of 4, 2 and 1 whose logical lanes have locked (R371). -/
def Jvl.width (j : Jvl) : Nat :=
  let l := j.logical
  if [0, 1, 2, 3].all l.contains then 4 else if [0, 1].all l.contains then 2 else if l.contains 0 then 1 else 0

/-- TS_ID with ACK and 8 identical TS_CFG have come on every lane in use (R370). -/
def Jvl.configured (j : Jvl) : Bool :=
  let use := (j.lined.filter fun e => decide (e.2 < j.width)).map Prod.fst
  decide (0 < j.width) && use.all fun l => j.acks.contains l && decide (8 ≤ tget 0 j.cfgs l)

/-- The port enters ACTIVE: both retry classes start at 0, the sender holds what its peer advertised. -/
def Jvl.activate (j : Jvl) : Jvl :=
  { j with
    st := .active, lanes := j.width, reversed := j.isReversed, feat := j.peerFeat &&& ownFeat
    p := {}, q := {}, credits := j.advert, freed := [], txq := [], line := { nextQ := j.line.nextQ, scr := j.line.scr } }

/-- CONFIG or SPEED is complete at the present rate: go on to generation 2 if both ends support it. -/
def Jvl.advance (j : Jvl) : Jvl :=
  if j.gen = 1 && j.genMax = 2 && j.peerGens.testBit 1 then
    { j with st := .speed, gen := 2, lockedLanes := [], laneIds := [], acks := [], cfgs := [] }
  else j.activate

/-- A peer carries this device's own number (R546). -/
def State.dupPeer (s : State) (j : Jvl) : Bool := s.sys.dnv && j.peerDnv && j.peerDev == s.sys.devnum

/-- Leave CONFIG or SPEED if everything has come and the numbers do not clash. -/
def trainOn (p : Nat) (s : State) : State :=
  let j := s.jport p
  if (j.st = .config || j.st = .speed) && j.configured then
    if s.dupPeer j then { s with boot := { s.boot with dupSeen := true, dupPorts := s.boot.dupPorts ||| 2 ^ p } }
    else
      let s := s.setJport p { j.advance with since := s.now }
      if j.advance.st = .active then linkBack p s else s
  else s

/-- One more TS_ID on a lane: how many identical ones have come in a row (R369). -/
def Jvl.noteId (j : Jvl) (lane : Nat) (ts : TrainSet) : Tab (Option TrainSet × Nat) :=
  let r := tget (none, 0) j.idRun lane
  tset (none, 0) j.idRun lane (some ts, if r.1 = some ts then r.2 + 1 else 1)

/-- What a training set teaches. -/
def Jvl.learn (j : Jvl) (lane : Nat) (inverted : Bool) : TrainSet → Jvl
  | .tsId l port dev gens feat state ack dnv =>
    { j with
      idRun := j.noteId lane (.tsId l port dev gens feat state ack dnv)
      polarity := if inverted then j.polarity ||| 2 ^ lane else j.polarity
      laneIds := (lane, l) :: j.laneIds.filter fun e => e.1 != lane
      peerDev := dev, peerDnv := dnv, peerGens := gens, peerFeat := feat
      acks := if ack && !j.acks.contains lane then j.acks ++ [lane] else j.acks }
  | .tsCfg a b c d =>
    let adv := tset 0 (tset 0 (tset 0 (tset 0 [] 0 a) 1 b) 2 c) 3 d
    if j.advert = adv then { j with cfgs := tset 0 j.cfgs lane (tget 0 j.cfgs lane + 1) }
    else { j with advert := adv, cfgs := tset 0 [] lane 1 }

/-- TRAIN: one training set on a lane (R369, R370). In ACTIVE it is a loss (R372). -/
def execTrain (p : JvlPort) (lane : Fin 4) (inverted : Bool) (ts : TrainSet) (s : State) : Host.Outcome State Fault Refusal :=
  .next (let j := s.jport p.val
    if !s.portOn p.val then s
    else if j.st = .active then portLoss p.val 4 .lock s
    else if !j.lockedLanes.contains lane.val then s
    else
      let j := j.learn lane.val inverted ts
      let ids := j.laneIds.any fun e => e.1 == 0 || e.1 == 3
      let j := if j.st = .lock && ids then { j with st := .config, since := s.now } else j
      if j.st = .lock || j.st = .config || j.st = .speed then trainOn p.val (s.setJport p.val j) else s)

/-- How long a port may stay in a state before it returns to DETECT: the timeout of R370 and the 10 ms of R372. -/
def JvlSt.limit : JvlSt → Option Nat
  | .lock => some (us 11000)
  | .config => some (us 12000)
  | .speed => some (us 14000)
  | _ => none

/-- A port has timed out in training. -/
def Jvl.timedOut (j : Jvl) (now : Nat) : Bool := match j.st.limit with | some n => decide (j.since + n ≤ now) | none => false

/-- TRAINING_TIMEOUT (R372). -/
def execTrainingTimeout (p : JvlPort) (s : State) : Host.Outcome State Fault Refusal :=
  .next (let j := s.jport p.val
    if j.timedOut s.now then s.setJport p.val { j.clear with st := .detect, since := s.now } else s)

/-- Some frame of a port has been sent again 8 times without acknowledgement. -/
def Jvl.wornOut (j : Jvl) : Bool := (j.p.tried ++ j.q.tried).any fun n => decide (8 ≤ n)

/-- LINK_LOSS: causes 1 lock, 2 silence, 3 replay, 4 training. -/
def execLinkLoss (p : JvlPort) (cause : Fin 6) (s : State) : Host.Outcome State Fault Refusal :=
  .next (let j := s.jport p.val
    if j.st = .active && 1 ≤ cause.val && cause.val ≤ 4 && (decide (cause.val ≠ 3) || j.wornOut) then portLoss p.val cause.val .lock s
    else s)

/-! ### Frames and retry (R376–R380) -/

/-- A frame arrives at an ACTIVE port, `b` being what the row says that it carries. Where it is not well formed, or its number
is out of order, it is discarded; else it is accepted, `f` acts on it, and its buffer becomes free (R376, R377, R379). `known`
tells that its type is one that the port carries. Its coding errors are counted (R368). -/
def recvFrame (p vl : Nat) (tag : FrameTag) (b : FrameBody) (known : Bool) (f : State → State) (s : State) : State :=
  let j := s.jport p
  if j.st ≠ .active then s
  else
    let s := if codeErrors tag = 0 then s else s.modJctr p fun c => { c with code := c.code.add (codeErrors tag) }
    let r := j.retry vl
    let nak := s.setJport p (j.setRetry vl { r with nak := true })
    if !frameOk b tag || !known then nak.modJctr p fun c => { c with crc := c.crc.bump }
    else if frameSeq tag ≠ r.rxNext then nak
    else
      let s := s.setJport p (j.setRetry vl { r with rxNext := (r.rxNext + 1) % 4096, nak := false, nakSent := false })
      let owed := tget 0 j.freed vl + 1
      let s := if ownAdvert vl < owed then s.modJctr p fun c => { c with credViol := c.credViol.bump }
        else s.modJport p fun j => { j with freed := tset 0 j.freed vl owed }
      f s

/-- A frame that names no route, or no channel of this port. -/
def misroute (p : Nat) (s : State) : State := s.modJctr p fun c => { c with misrouted := c.misrouted.bump }

/-- Forward a frame for another device, on the port that its route names (R376, R381, R545). -/
def relay (p dest vl : Nat) (body : FrameBody) (s : State) : State :=
  match s.route dest with
  | some q => sendFrame q vl body s
  | none => misroute p s

/-- The port by which an endpoint lies, seen from this device. -/
def State.endPort (s : State) (e : Nat) : Option Nat :=
  if epDev e = s.sys.devnum then (if epClass e = 11 then some (epUnit e) else none) else some (s.via (epDev e))

/-- Some endpoint of a list lies beyond a port. -/
def State.endsVia (s : State) (l : List Nat) (p : Nat) : Bool := l.any fun e => s.endPort e == some p

/-- A payload for a channel of this device (R276, R277, R285, R381): one of a LINK producer here spends a credit and is
injected, or on a disabled channel is discarded, its credit going back at once; one from another device has passed its gate
and is delivered, one credit less being left at its producer. -/
def takePayload (p ch : Nat) (pay : BitVec 64) (s : State) : State :=
  let c := s.chan ch
  if s.linkPort c ≠ some p then arrive ch pay (some p) (s.setChan ch c.spend)
  else if c.disabled then creditFrames ch 1 (s.modChCtr ch fun n => { n with discarded := n.discarded.bump })
  else inject ch 0 pay (s.setChan ch c.spend)

/-- HATCH_DATA (R381, R382). -/
def execHatchData (p : JvlPort) (tag : FrameTag) (f : HatchFrame) (s : State) : Host.Outcome State Fault Refusal :=
  .next (recvFrame p.val 0 tag (.hatchData f) (!f.w64 || (s.jport p.val).feat.testBit 2) (fun s =>
    let c := s.chan f.channel
    if f.dest ≠ s.sys.devnum then relay p.val f.dest 0 (.hatchData f) s
    else if c.bound && c.kind == 2 && s.endsVia c.prods p.val && c.wide == f.w64 then takePayload p.val f.channel f.payload s
    else misroute p.val s) s)

/-- One credit comes back from the consumer beyond a link: to a producer of this device, and on to one beyond a link
(R276, R381). -/
def takeCredit (ch : Nat) (s : State) : State :=
  let c := s.chan ch
  let s := s.setChan ch { c.regain 1 with inFlight := c.inFlight.tail }
  if s.prodFar c then creditFrames ch 1 s else s

/-- HATCH_CREDIT (R276, R381, R382): one credit comes back to the channel's producer. -/
def execHatchCredit (p : JvlPort) (tag : FrameTag) (f : HatchFrame) (s : State) : Host.Outcome State Fault Refusal :=
  .next (recvFrame p.val 0 tag (.hatchCredit f.dest f.channel) true (fun s =>
    let c := s.chan f.channel
    if f.dest ≠ s.sys.devnum then relay p.val f.dest 0 (.hatchCredit f.dest f.channel) s
    else if c.bound && c.kind == 2 && s.endsVia c.cons p.val then takeCredit f.channel s
    else misroute p.val s) s)

/-- A doubt of a spanning root arises elsewhere (R53, R144–R147): this device acts on its own part. On the home device
the doubt reports of R514 count, and not the messages. -/
def remoteDoubt (src root : Nat) (s : State) : State :=
  let key := s.keyOf root
  if !s.spanRoots.contains key then s
  else
    let s := s.modFault key fun r =>
      if key < 2 ^ 32 && decide (r.codes ≠ []) then r else r.note 13 s.coarse src (le 2 src ++ pad 30) true
    pump (stopRoot key 2 true (setSum 1 s))

/-- DOUBT, on PEER ports only: for another device it is relayed (R145, R381); the frame has no source, and the device that
sent it is the port's peer. -/
def execDoubt (p : JvlPort) (tag : FrameTag) (dest root : Nat) (s : State) : Host.Outcome State Fault Refusal :=
  .next (recvFrame p.val 0 tag (.doubt dest root) ((s.jport p.val).feat.testBit 0) (fun s =>
    if dest ≠ s.sys.devnum then relay p.val dest 0 (.doubt dest root) s
    else remoteDoubt (s.jport p.val).peerDev root s) s)

/-- BULK_FRAME: for another device it is forwarded; what one for this device does is device-private. -/
def execBulkFrame (p : JvlPort) (tag : FrameTag) (dest len : Nat) (s : State) : Host.Outcome State Fault Refusal :=
  .next (recvFrame p.val 3 tag (bulkOf dest tag)
    ((s.jport p.val).feat.testBit 0 && frameLen tag == len && decide (1 ≤ len) && decide (len ≤ 8)) (fun s =>
    if dest = s.sys.devnum then s else relay p.val dest 3 (bulkOf dest tag) s) s)

/-- A class is acknowledged up to a number; a retry request resends the rest. Answers the replays. -/
def Retry.ack (r : Retry) (seq : Nat) (nak : Bool) : Retry × Nat :=
  let base := (r.txSeq + 4096 - r.unacked.length) % 4096
  let n := (seq + 1 + 4096 - base) % 4096
  let r := if n ≤ r.unacked.length then { r with unacked := r.unacked.drop n, tried := r.tried.drop n } else r
  if nak then ({ r with tried := r.tried.map (· + 1) }, r.unacked.length) else (r, 0)

/-- What a port still has to send again after a LINK block: on a retry request every unacknowledged frame of the class, else
what was to be sent again and is not acknowledged (R377). -/
def Jvl.again (j : Jvl) (nakp nakq : Bool) : List (Nat × TxFrame) :=
  let rest (urgent nak : Bool) (r : Retry) : List (Nat × TxFrame) :=
    if nak then r.numbered else (j.line.redo.filter fun e => e.2.urgent == urgent).filter r.numbered.contains
  rest true nakp j.p ++ rest false nakq j.q

/-- LINK_BLOCK: acknowledgements, retry requests and credits from the peer (R377–R379). -/
def execLinkBlock (p : JvlPort) (lb : LinkBlock) (s : State) : Host.Outcome State Fault Refusal :=
  .next (let j := s.jport p.val
    if j.st ≠ .active then s
    else
      let (a, m) := j.p.ack lb.ackp lb.nakp
      let (b, n) := j.q.ack lb.ackq lb.nakq
      let add (c : Tab Nat) (vl k : Nat) : Tab Nat := tset 0 c vl (Nat.min (tget 0 j.advert vl) (tget 0 c vl + k))
      let c := add (add (add (add j.credits 0 lb.rdec) 1 lb.rtime) 2 lb.rctrl) 3 lb.rbulk
      let j := { j with p := a, q := b, credits := c }
      (s.setJport p.val { j with line := { j.line with redo := j.again lb.nakp lb.nakq } }).modJctr p.val fun k =>
        { k with replays := k.replays.add (m + n) })

/-- A class asks for a retry: once for each NAK (R377). -/
def Retry.asks (r : Retry) : Bool := r.nak && !r.nakSent

/-- The LINK block of a port: what it has accepted of each class, a retry request once, and at most 63 credits of a lane
(R377, R378). -/
def Jvl.linkBlock (j : Jvl) : Block :=
  let back (vl : Nat) : Nat := Nat.min (tget 0 j.freed vl) 63
  .ctl 0x2D (BitVec.ofNat 56 ((j.p.rxNext + 4095) % 4096 + bit j.p.asks 12 + (j.q.rxNext + 4095) % 4096 * 2 ^ 13 + bit j.q.asks 25
    + back 0 * 2 ^ 26 + back 1 * 2 ^ 32 + back 2 * 2 ^ 38 + back 3 * 2 ^ 44))

/-- LINK_BLOCK_SEND: the port's LINK block joins what it has to send (R378). -/
def execLinkBlockSend (p : JvlPort) (s : State) : Host.Outcome State Fault Refusal :=
  .next (if (s.jport p.val).st ≠ .active then s
    else s.modJport p.val fun j =>
      { j with
        linkBlocks := j.linkBlocks + 1, freed := tmap 0 (fun _ k => k - Nat.min k 63) j.freed
        line := { j.line with links := j.line.links ++ [j.linkBlock] }
        p := { j.p with nakSent := j.p.nak }, q := { j.q with nakSent := j.q.nak } })

/-- A whole row joins what a port has to send. -/
def Jvl.askRow (j : Jvl) (align : Bool) : Jvl := { j with line := { j.line with whole := j.line.whole ++ [align] } }

/-- ALIGN_ROW_SEND and IDLE_ROW_SEND (R367): rows that carry no frame. A row of ALIGN blocks is one of every 16,384. -/
def execAlignRowSend (p : JvlPort) (s : State) : Host.Outcome State Fault Refusal :=
  .next (let j := s.jport p.val
    if j.st = .active && decide (16383 ≤ j.line.sinceAlign) && !j.line.whole.contains true then
      s.setJport p.val { j.askRow true with alignRows := j.alignRows + 1 }
    else s)

def execIdleRowSend (p : JvlPort) (s : State) : Host.Outcome State Fault Refusal :=
  .next (if (s.jport p.val).st = .active then
      s.modJport p.val fun j => { j.askRow false with idleRows := j.idleRows + 1 } else s)

/-! ### TIME exchanges (R339, R384) -/

/-- A port has TIME in use. -/
def State.timeUp (s : State) (p : Nat) : Bool := decide ((s.jport p).st = .active) && (s.jport p).feat.testBit 1

/-- A LINK domain on a port. -/
def State.linkDom (s : State) (k p : Nat) : Bool := (s.tdom k).set.source == 3 && (s.tdom k).set.port == p

/-- 1 ms has passed since a domain's last T_REQ: it sends 1,000 in a second. -/
def TimeDom.reqDue (d : TimeDom) (now : Nat) : Bool := match d.reqAt with | some t => decide (t + us 1000 ≤ now) | none => true

/-- T_REQ_SEND: the next exchange begins; its departure is stamped as its FRAME_START goes out. -/
def execTReqSend (dom : Fin 2) (s : State) : Host.Outcome State Fault Refusal :=
  .next (let d := s.tdom dom.val
    if d.set.source ≠ 3 || !s.timeUp d.set.port || !s.stamps 2 || !d.reqDue s.now then s
    else
      let exch := (d.exch + 1) % 65536
      sendFrame d.set.port 1 (.tReq exch) (s.setTdom dom.val { d with exch, reqAt := some s.now, t1 := none, t2 := none }))

/-- A TIME frame's FRAME_START crosses the serialiser boundary at an instant: t1 of a T_REQ is that instant, and a T_RESP is
followed by the T_FOLLOW that carries it as t3 (R384). -/
def timeDeparts (p : Nat) (ps : Int) (b : FrameBody) (s : State) : State :=
  match b with
  | .tReq exch =>
    each (fun k s => s.modTdom k fun d => if s.linkDom k p && d.exch == exch then { d with t1 := some ps } else d) [0, 1] s
  | .tResp exch _ => sendFrame p 1 (.tFollow exch s.sys.devnum s.timeParent s.hops s.time.st.code ps) s
  | _ => s

/-- When the row that is due on a port begins, in quarters of a tick. -/
def State.rowStart (s : State) (j : Jvl) : Nat := if j.line.nextQ + rowQuarters j.gen ≤ 4 * s.now then 4 * s.now else j.line.nextQ

/-- Device time at that instant, to 1 ps, halves up. -/
def State.rowPs (s : State) (j : Jvl) : Int := (2 * s.devPs - 25 * ((4 * s.now : Nat) - (s.rowStart j : Int)) + 1) / 2

/-- A port's transmitter at a tick: it sends a row where one is due. A disabled port is idle, and one in far-end loopback
sends what it receives (R363, R370). -/
def lineTick (p : Nat) (s : State) : State :=
  let j := s.jport p
  if !s.isOn 3 || !j.enabled || decide (j.loopback = 3) || decide (4 * s.now < j.line.nextQ) then s
  else
    let k := j.sendRow (if s.sys.dnv then some s.sys.devnum else none) p
    each (timeDeparts p (s.rowPs j)) k.line.began
      (s.setJport p { k with line := { k.line with nextQ := s.rowStart j + rowQuarters j.gen } })

/-- Every port's. -/
def lineTicks (s : State) : State := each lineTick (List.range 8) s

/-- A TIME frame is for this device or is misrouted: one that names another device that no route reaches (R376). -/
def timeFrame (p : Nat) (tag : FrameTag) (f : State → State) (s : State) : State :=
  if frameDest tag ≠ s.sys.devnum && (s.route (frameDest tag)).isNone then misroute p s else f s

/-- T_REQ: answered with a T_RESP, which its T_FOLLOW follows (R384); the part of the tick of t2 is a free value. -/
def execTReq (p : JvlPort) (tag : FrameTag) (exch : Nat) (s : State) : Host.Outcome State Fault Refusal :=
  .next (recvFrame p.val 1 tag (.tReq exch) (s.timeUp p.val && decide (exch < 65536)) (timeFrame p.val tag fun s =>
    let t2 := s.devPs + Config.freeNat s.free % 50
    sendFrame p.val 1 (.tResp exch t2) { s with free := s.free + 1 }) s)

/-- T_RESP: the peer's reception of the request. -/
def execTResp (p : JvlPort) (tag : FrameTag) (exch : Nat) (t2Ps : Int) (s : State) : Host.Outcome State Fault Refusal :=
  .next (recvFrame p.val 1 tag (.tResp exch t2Ps) (s.timeUp p.val) (timeFrame p.val tag fun s =>
    each (fun k s => s.modTdom k fun d =>
      if s.linkDom k p.val && d.exch == exch && d.t1.isSome then { d with t2 := some t2Ps } else d) [0, 1] s) s)

/-- An exchange of a LINK domain is whole (R339). -/
def exchangeDone (k dev : Nat) (parent : Option Nat) (hops tstate : Nat) (t3 t4 : Int) (s : State) : State :=
  let d := s.tdom k
  match d.t1, d.t2 with
  | some t1, some t2 =>
    let s := s.setTdom k { d with t1 := none, t2 := none, hops := hops + 1, parent := some dev, exchAt := s.now }
    if parent = some s.sys.devnum then loseDom k (fun d => { d with loop := true }) s
    else measure k (((t2 - t1) - (t4 - t3)) / 2 + d.set.delay) (decide (tstate < 2)) s
  | _, _ => s

/-- T_FOLLOW: the peer's departure, our reception, and what the peer says of its own time. -/
def execTFollow (p : JvlPort) (tag : FrameTag) (exch dev : Nat) (parent : Option Nat) (hops tstate : Nat) (t3Ps t4Ps : Int)
    (s : State) : Host.Outcome State Fault Refusal :=
  .next (recvFrame p.val 1 tag (.tFollow exch dev parent hops tstate t3Ps) (s.timeUp p.val) (timeFrame p.val tag fun s =>
    each (fun k s =>
      if s.linkDom k p.val && (s.tdom k).exch == exch then exchangeDone k dev parent hops tstate t3Ps t4Ps s else s) [0, 1] s) s)

/-! ### The time port (R387) -/

/-- TIME_PORT_BRINGUP: one attempt ends; the two codings alternate until one comes up. One at 10 Gb/s fails after 50 ms. -/
def execTimePortBringup (tenG up : Bool) (s : State) : Host.Outcome State Fault Refusal :=
  .next (let t := s.timePort
    if !s.isOn 3 || !t.enabled || t.loopback ≠ 0 || t.up || t.trying10 != tenG then s
    else if up then { s with timePort := { t with up := true, tenG } }
    else if tenG && decide (s.now < t.tryAt + us 50000) then s
    else { s with timePort := { t with trying10 := !tenG, tryAt := s.now } })

/-- TIME_PORT_DOWN: a PTP domain meets its loss condition (R335). -/
def execTimePortDown (s : State) : Host.Outcome State Fault Refusal :=
  .next (if s.timePort.up then
      loseSources (fun a => a.source == 1) id
        { s with timePort := { s.timePort with up := false, trying10 := true, tryAt := s.now, retrains := s.timePort.retrains.bump } }
    else s)

/-- ARP_REQUEST: answered for the port's own address. -/
def execArpRequest (ip : Nat) (s : State) : Host.Outcome State Fault Refusal :=
  .next (if s.timePort.up && s.timePort.ip == ip then
      { s with timePort := { s.timePort with arpReplies := s.timePort.arpReplies + 1 } }
    else s)

/-- OTHER_FRAME: discarded and counted. -/
def execOtherFrame (s : State) : Host.Outcome State Fault Refusal :=
  .next (if s.timePort.up then { s with timePort := { s.timePort with misrouted := s.timePort.misrouted.bump } } else s)

/-! ### LINK_SET (R388, R425) -/

/-- A port carries a route of a running root. -/
def State.portInUse (s : State) (p : Nat) : Bool :=
  (s.spanRoots.any fun k => s.running k && s.rootVia p k)
    || s.chans.any fun e => s.crosses p e.2 && (e.2.prods ++ e.2.cons).any s.endInUse

/-- The first field of LINK_SET that breaks its rule. -/
def linkRange (port flags genmax loopback pfx : Nat) : Option Nat :=
  let time := decide (port = 0x608)
  if port < 0x600 || 0x608 < port then some 0
  else if 16 ≤ flags || (time && flags.testBit 1) || (!time && flags.testBit 3) then some 2
  else if flags.testBit 1 && (genmax = 0 || 2 < genmax) then some 3
  else if flags.testBit 2 && 3 < loopback then some 4
  else if flags.testBit 3 && 32 < pfx then some 12
  else none

/-- A JVL port takes new settings: a change of any takes it down or retrains it. -/
def setPort (p flags genmax loopback : Nat) (s : State) : State :=
  let j := s.jport p
  let en := flags.testBit 0
  let gm := if flags.testBit 1 then genmax else j.genMax
  let lb := if flags.testBit 2 then loopback else j.loopback
  let new (s : State) : State := s.modJport p fun j => { j with enabled := en, genMax := gm, loopback := lb }
  if !en then new (portLoss p 5 .disabled s)
  else if lb ≠ j.loopback then new (portLoss p 5 .detect s)
  else if !j.enabled then new (s.modJport p fun j => { j.clear with st := .detect, since := s.now })
  else if gm ≠ j.genMax then new (if j.st = .active then portLoss p 4 .lock s else s.modJport p fun j => { j.clear with st := .detect, since := s.now })
  else s

def linkSetReply (port flags genmax loopback address pfx : Nat) (s : State) : Reply :=
  match linkRange port flags genmax loopback pfx with
  | some o => .bad s o
  | none =>
    if flags.testBit 2 && loopback ≠ 0 && s.sys.mode ≠ .service then .no s stMode .mode
    else if !s.isOn 3 then .no s stInvalid (.domain 3)
    else if s.testing 3 then .busy s
    else if port = 0x608 then
      let t := s.timePort
      let lb := if flags.testBit 2 then loopback else t.loopback
      let down := !flags.testBit 0 || lb ≠ t.loopback
      let s := { s with timePort := { t with
          enabled := flags.testBit 0, loopback := lb, up := t.up && !down
          trying10 := t.trying10 || down, tryAt := if down then s.now else t.tryAt
          ip := if flags.testBit 3 then address else t.ip, pfx := if flags.testBit 3 then pfx else t.pfx } }
      { s := if t.up && down then loseSources (fun a => a.source == 1) id s else s }
    else if s.sys.mode = .run && s.portInUse (port - 0x600) then .busy s
    else { s := setPort (port - 0x600) flags genmax loopback s }

def execLinkSet (h : Hdr) (port flags genmax loopback address pfx : Nat) (s : State) : Host.Outcome State Fault Refusal :=
  .next (command h 0x5D 16 [.configure, .ready, .run, .safe, .service] (linkSetReply port flags genmax loopback address pfx) s)

/-! ### LINK_STATUS (R389) -/

/-- The least of a list, 0 where it is empty. -/
def least : List Nat → Nat
  | [] => 0
  | x :: l => l.foldl Nat.min x

/-- The record of a JVL port; eye margins are measured, and are values of the configuration. -/
def State.portRec (s : State) (p : Nat) : List Byte :=
  let j := s.jport p
  let c := s.jctr p
  let eyes := (List.range j.lanes).map fun l => Config.eye (4 * p + l)
  le 2 (0x600 + p) ++ le 1 j.st.code ++ le 1 (j.gen + j.lanes * 4 + bit j.reversed 5) ++ le 1 j.polarity ++ le 1 j.feat
    ++ le 2 (j.peerDev + bit j.peerDnv 14) ++ le 1 j.cause ++ pad 3
    ++ le 4 c.crc.n ++ le 4 c.misrouted.n ++ le 4 c.replays.n ++ le 4 c.credViol.n ++ le 4 c.retrains.n ++ le 4 c.code.n
    ++ le 1 (bit c.crc.ovf 0 + bit c.misrouted.ovf 1 + bit c.replays.ovf 2 + bit c.credViol.ovf 3 + bit c.retrains.ovf 4
      + bit c.code.ovf 5) ++ pad 3
    ++ le 4 (least (eyes.map Prod.fst)) ++ le 4 (least (eyes.map Prod.snd))

/-- The record of the time port. Its state, generation and lanes follow the codes of a JVL port. -/
def State.timePortRec (s : State) : List Byte :=
  let t := s.timePort
  let e := Config.eye 32
  le 2 0x608 ++ le 1 (if t.up then 5 else if t.enabled then 1 else 0)
    ++ le 1 (if t.up then (if t.tenG then 2 else 1) + 4 else 0) ++ pad 8
    ++ le 4 t.crc.n ++ le 4 t.misrouted.n ++ le 4 0 ++ le 4 0 ++ le 4 t.retrains.n ++ le 4 0
    ++ le 1 (bit t.crc.ovf 0 + bit t.misrouted.ovf 1 + bit t.retrains.ovf 4) ++ pad 3
    ++ le 4 (if t.up then e.1 else 0) ++ le 4 (if t.up then e.2 else 0)

def linkStatusReply (port len : Nat) (s : State) : Reply :=
  if port < 0x600 || 0x608 < port then .bad s 0
  else if port = 0x608 then
    queryReply len s.timePortRec (fun s => { s with timePort := { s.timePort with misrouted := {}, crc := {}, retrains := {} } }) s
  else queryReply len (s.portRec (port - 0x600)) (fun s => s.setJctr (port - 0x600) {}) s

def execLinkStatus (h : Hdr) (port len : Nat) (s : State) : Host.Outcome State Fault Refusal :=
  .next (command h 0x5C 24 anyMode (linkStatusReply port len) s)

/-! ### NET_SET (R545) -/

/-- An address or endpoint of the device under its new number: both carry DEVICE in the same bits. -/
def renumber (old new a : Nat) : Nat := if a / 2 ^ 14 % 2 ^ 14 = old then a - old * 2 ^ 14 + new * 2 ^ 14 else a

/-- The device takes a number: its own cells and endpoints are named by it. -/
def setDevnum (n : Nat) (s : State) : State :=
  let r := renumber s.sys.devnum n
  { s with
    sys := { s.sys with devnum := n, dnv := true }
    plates := tmap {} (fun _ p => { p with members := p.members.map r, cell := if p.st = .free then p.cell else r p.cell }) s.plates
    cells := tmap {} (fun _ c => { c with parent := c.parent.map r }) s.cells
    chans := tmap {} (fun _ c => { c with prods := c.prods.map r, cons := c.cons.map r }) s.chans }

def devnumReply (devnum : Nat) (s : State) : Reply :=
  if 16384 ≤ devnum then .bad s 2
  else if (s.plates.any fun e => decide (e.2.st = .shadow)) || (s.chans.any fun e => e.2.bound && e.2.kind == 2 && s.chanSpans e.2) then
    .busy s
  else
    let s := setDevnum devnum s
    { s := each (fun p s => if (s.jport p).st = .active then portLoss p 4 .lock s else s) (List.range 8) s }

def execNetSetDevnum (h : Hdr) (devnum : Nat) (s : State) : Host.Outcome State Fault Refusal :=
  .next (command h 0x5E 24 [.configure, .service] (devnumReply devnum) s)

def routesReply (src first count : Nat) (s : State) : Reply :=
  if !srcOk src count then .bad s 8
  else if count = 0 || 16384 < count || 16384 < first + count then .bad s 18
  else if !s.isOn 3 then .no s stInvalid (.domain 3)
  else if s.testing 3 then .busy s
  else if !s.isOn 4 then .no s stInvalid (.domain 4)
  else if s.poisoned src count then .no (noteUe (s.firstBad src count) s) stFault (.field 8)
  else
    let l := (s.bytesAt src count).map BitVec.toNat
    if l.any fun b => decide (8 ≤ b) && decide (b ≠ 0xFF) then .bad s 8
    else
      let own := tget 0xFF s.sys.routes s.sys.devnum
      let r := tset 0xFF (tsetRun 0xFF s.sys.routes first l) s.sys.devnum own
      let cutDevs := s.sys.cutDevs.filter fun d => tget 0xFF r d == s.via d
      { s := { s with sys := { s.sys with routes := r, cutDevs } } }

def execNetSetRoutes (h : Hdr) (src first count : Nat) (s : State) : Host.Outcome State Fault Refusal :=
  .next (command h 0x5E 24 [.configure, .service] (routesReply src first count) s)

end Sys2Proof.Machine
end

