-- ==== Sys2Proof/Machine/Plates.lean ====
section
/-! DEFINITION. PLATE_COMPOSE (R129–R137). -/

namespace Sys2Proof.Machine

def setParent (p : Option Nat) (a : Nat) (s : State) : State :=
  if s.isLocal a then s.modCell (localOf a) fun c => { c with parent := p } else s

/-- The plate of a PLATE_COMPOSE: a descriptor of this device. -/
def State.plateArg (s : State) (a : Nat) : Bool := s.addrOk a && s.isLocal a && isPlate (localOf a)

/-- A cell is a plate or stands above it: it cannot become its member (R134). -/
def State.holds (s : State) (plate m : Nat) : Bool := m == plate || (s.upChain (localOf plate)).contains m

/-- A burin in a tile marked unavailable. -/
def State.memberBad (s : State) (m : Nat) : Bool := s.isLocal m && !isPlate (localOf m) && s.tileBad (localOf m)

/-- R134's last row: the plate's root runs, or a member belongs to a running cell or a proof run (R528). -/
def State.touches (s : State) (plate : Nat) (members : List Nat) : Bool :=
  s.cellInUse plate || members.any fun m => s.isLocal m && s.cellInUse m

/-- The result of a composition, refused where it leaves the configuration invalid in READY or RUN (R33); the other
devices of the trees hear of it. -/
def ifValid (s' : State) (plate : Nat) (s : State) : Reply :=
  if s'.keepsValid then { s := announce (muteHeld s') } else .no s stInvalid (.configured (localOf plate))

/-- CREATE. -/
def createReply (plate : Nat) (s : State) : Reply :=
  if !s.plateArg plate then .bad s 4
  else if (s.plateOf (localOf plate)).st ≠ .free then .busy s
  else
    let s' := s.setPlate (localOf plate - 0x1000) { st := .open_, cell := plate }
    ifValid (s'.modCell (localOf plate) fun c => { c with lastShot := 0xFFFFFFFFFFFFFFFF }) plate s

/-- ADD. -/
def addReply (plate : Nat) (members : List Nat) (s : State) : Reply :=
  let p := s.plateOf (localOf plate)
  if members = [] || 256 < members.length then .bad s 2
  else if !s.plateArg plate || p.st = .free || p.st = .shadow then .bad s 4
  else if !members.all s.cellExists then .bad s 8
  else if members.any fun m => s.isLocal m && (s.cell (localOf m)).parent.isSome then .busy s
  else if members.any fun m => s.holds plate m then .bad s 8
  else if 256 < p.members.length + members.length then .bad s 2
  else if p.st ≠ .open_ then .bad s 4
  else if members.any s.memberBad then .bad s 8
  else if !decide members.Nodup then .bad s 8
  else if s.touches plate members then .busy s
  else
    let s' := s.setPlate (localOf plate - 0x1000) { p with members := p.members ++ members }
    ifValid (each (setParent (some plate)) members s') plate s

/-- A plate without some of its members. -/
def Plate.without (p : Plate) (l : List Nat) : Plate :=
  { p with members := p.members.filter (fun m => !l.contains m), far := p.far.filter fun e => !l.contains e.1 }

/-- REMOVE. -/
def removeReply (plate : Nat) (members : List Nat) (s : State) : Reply :=
  let p := s.plateOf (localOf plate)
  if members = [] || 256 < members.length then .bad s 2
  else if !s.plateArg plate || p.st = .free || p.st = .shadow then .bad s 4
  else if !members.all s.cellExists then .bad s 8
  else if p.st ≠ .open_ then .bad s 4
  else if !decide members.Nodup then .bad s 8
  else if !members.all p.members.contains then .bad s 8
  else if s.touches plate members then .busy s
  else
    let s' := s.setPlate (localOf plate - 0x1000) (p.without members)
    ifValid (each (setParent none) members s') plate s

/-- SEAL. -/
def sealReply (plate : Nat) (s : State) : Reply :=
  let p := s.plateOf (localOf plate)
  if !s.plateArg plate || p.st ≠ .open_ then .bad s 4
  else if p.members = [] || p.members.any fun m =>
      s.isLocal m && isPlate (localOf m) && decide ((s.plateOf (localOf m)).st ≠ .sealed) then .bad s 4
  else { s := announce (s.setPlate (localOf plate - 0x1000) { p with st := .sealed }) }

/-- A SHADOW without some of its members: it is freed when the last leaves (R137). -/
def leaveShadow (plate : Nat) (l : List Nat) (s : State) : State :=
  match s.shadowOf plate with
  | some (n, p) => s.setPlate n (if (p.without l).members = [] then {} else p.without l)
  | none => s

/-- The descriptor of this device, not a SHADOW, that has a member. -/
def State.parentHere (s : State) (m : Nat) : Option Nat :=
  (s.plates.find? fun e => decide (e.2.st ≠ .shadow) && e.2.members.contains m).map Prod.fst

/-- A plate leaves the member list of its parent, be that a plate of this device or a SHADOW. -/
def leaveParent (plate : Nat) (s : State) : State :=
  match (s.cell (localOf plate)).parent with
  | some a => if s.isLocal a then s.modPlate (localOf a - 0x1000) (·.without [plate]) else leaveShadow a [plate] s
  | none => s

/-- DISSOLVE. -/
def dissolveReply (plate : Nat) (s : State) : Reply :=
  let p := s.plateOf (localOf plate)
  if !s.plateArg plate || p.st = .free || p.st = .shadow then .bad s 4
  else
    let upSealed : Bool := match (s.cell (localOf plate)).parent with
      | some a => s.isLocal a && decide ((s.plateOf (localOf a)).st = .sealed)
      | none => false
    if upSealed then .bad s 4
    else if s.touches plate p.members then .busy s
    else
      let s' := leaveParent plate (each (setParent none) p.members s)
      ifValid (setParent none plate (s'.setPlate (localOf plate - 0x1000) {})) plate s

/-! ### The parts of other devices (R134, R137, R138) -/

/-- Descriptors that are FREE and not already meant for the SHADOW of another plate. -/
def State.shadowRoom (s : State) (plate : Nat) : Bool :=
  let meant := ((s.promises.filterMap Promise.shadow).filter fun a => a != plate && (s.shadowOf a).isNone).dedup
  decide ((s.plates.filter fun e => decide (e.2.st ≠ .free)).length + meant.length < 4096)

/-- Members join the SHADOW of a plate of another device, which a FREE descriptor becomes if there is none. -/
def joinShadow (plate : Nat) (l : List Nat) (s : State) : State :=
  match s.shadowOf plate with
  | some (n, p) => s.setPlate n { p with members := p.members ++ l }
  | none => match (List.range 4096).find? fun n => (s.plate n).st == .free with
    | some n => s.setPlate n { st := .shadow, members := l, cell := plate }
    | none => s

/-- ADD of the members that lie on this device. -/
def addPart (plate : Nat) (members : List Nat) (s : State) : Reply :=
  let mine := members.filter s.isLocal
  if !mine.all s.cellExists then .bad s 8
  else if mine.any fun m => (s.cell (localOf m)).parent.isSome then .busy s
  else if mine.any s.memberBad then .bad s 8
  else if (s.shadowOf plate).isNone && !s.shadowRoom plate then .bad s 4
  else if mine.any s.cellInUse then .busy s
  else if mine = [] then { s }
  else ifValid (each (setParent (some plate)) mine (joinShadow plate mine s)) plate s

/-- REMOVE of such members. -/
def removePart (plate : Nat) (members : List Nat) (s : State) : Reply :=
  let mine := members.filter s.isLocal
  if mine.any fun m => (s.cell (localOf m)).parent ≠ some plate then .bad s 8
  else if mine.any s.cellInUse then .busy s
  else ifValid (each (setParent none) mine (leaveShadow plate mine s)) plate s

/-- SEAL: the member plates that lie here are SEALED. -/
def sealPart (plate : Nat) (s : State) : Reply :=
  let open_ : Bool := match s.shadowOf plate with
    | some (_, p) => p.members.any fun m => isPlate (localOf m) && decide ((s.plateOf (localOf m)).st ≠ .sealed)
    | none => false
  if open_ then .bad s 4 else { s }

/-- DISSOLVE: the members that lie here become roots, and a parent here, which must be OPEN, loses the plate. -/
def dissolvePart (plate : Nat) (s : State) : Reply :=
  let mine := match s.shadowOf plate with | some (_, p) => p.members | none => []
  let upSealed : Bool := match s.parentHere plate with | some n => decide ((s.plate n).st = .sealed) | none => false
  let upBusy : Bool := match s.parentHere plate with | some n => s.cellInUse (s.addr (0x1000 + n)) | none => false
  if upSealed then .bad s 4
  else if upBusy || mine.any s.cellInUse then .busy s
  else
    let s' := each (setParent none) mine (leaveShadow plate mine s)
    let s' := match s'.parentHere plate with | some n => s'.modPlate n (·.without [plate]) | none => s'
    ifValid s' plate s

/-- What stands above a plate with members here: its root's start lead and record ring are kept too (R141, R252). -/
def takeAbove (plate : Nat) (r : RootInfo) (s : State) : State :=
  match s.shadowOf plate with
  | some (n, p) =>
    let p := { p with above := r }
    let key := s.keyOf p.rootAddr
    let s := s.setPlate n p
    announce (if key < 2 ^ 32 then s else s.modCell key fun c => { c with startLead := r.lead, recring := r.ring })
  | none => s

/-- What stands below a member plate of another device. -/
def takeBelow (plate : Nat) (t : TreeInfo) (s : State) : State :=
  match s.parentHere plate with
  | some n => announce (s.modPlate n fun p => { p with far := (plate, t) :: p.far.filter fun e => e.1 != plate })
  | none => s

/-- The other devices that a DISSOLVE concerns: those of the plate's tree, and that of its parent. -/
def State.dissolveDevs (s : State) (plate : Nat) : List Nat :=
  let up := match (s.cell (localOf plate)).parent with | some a => [deviceOf a] | none => []
  ((s.cellDevs plate ++ up).filter (· != s.sys.devnum)).dedup

def execPlateComposeCreate (h : Hdr) (plate : Nat) (s : State) : Host.Outcome State Fault Refusal :=
  .next (command h 0x15 8 cfgModes (createReply plate) s)

def execPlateComposeAdd (h : Hdr) (plate : Nat) (members : List Nat) (s : State) : Host.Outcome State Fault Refusal :=
  .next (command h 0x15 (8 + 4 * members.length) cfgModes (fun t =>
    onCell plate (.add plate members) (t.memberDevs members) (addReply plate members t) t) s)

def execPlateComposeRemove (h : Hdr) (plate : Nat) (members : List Nat) (s : State) : Host.Outcome State Fault Refusal :=
  .next (command h 0x15 (8 + 4 * members.length) cfgModes (fun t =>
    onCell plate (.remove plate members) (t.memberDevs members) (removeReply plate members t) t) s)

def execPlateComposeSeal (h : Hdr) (plate : Nat) (s : State) : Host.Outcome State Fault Refusal :=
  .next (command h 0x15 8 cfgModes (fun t =>
    onCell plate (.seal plate) (t.cellDevs plate) (sealReply plate t) t) s)

def execPlateComposeDissolve (h : Hdr) (plate : Nat) (s : State) : Host.Outcome State Fault Refusal :=
  .next (command h 0x15 8 cfgModes (fun t =>
    onCell plate (.dissolve plate) (t.dissolveDevs plate) (dissolveReply plate t) t) s)

end Sys2Proof.Machine
end

