-- ==== Sys2Proof/Machine/Proof.lean ====
section
/-! DEFINITION. Proof runs (R127, R149, R527–R531): what a run covers, how it starts, and what its end resets and
reports. -/

namespace Sys2Proof.Machine

/-- The burins a run covers: those of a folio, or those of this device below a cell. -/
def ProofRun.burins (s : State) (p : ProofRun) : List Nat := if p.kind = 0 then domBurins p.domain else s.burinsOf p.cell

/-- The tiles a run covers (R127). -/
def ProofRun.tiles (s : State) (p : ProofRun) : List Nat :=
  if p.kind = 0 then domTiles p.domain else ((p.burins s).map (· / 16)).dedup

/-- The domains a run needs On. -/
def ProofRun.doms (s : State) (p : ProofRun) : List Nat :=
  if p.kind = 0 then [p.domain] else ((p.burins s).map folioDom).dedup

/-- A domain holds a burin or resource of a running cell, or is under a run (R32, R528). -/
def State.domBusy (s : State) (d : Nat) : Bool :=
  s.domHolds d (fun b => s.running (s.rootOf b)) || s.testing d

/-- The target of a run is in use (R32, R127, R528). -/
def State.proofBusyOn (s : State) (p : ProofRun) : Bool :=
  (if p.kind = 0 then s.domBusy p.domain || s.proofCoversDom p.domain else (p.doms s).any s.testing)
    || (p.burins s).any (fun b => s.proofCovers b || s.promised (s.addr b))
    || (p.tiles s).any fun t => (List.range 16).any fun k => s.running (s.rootOf (t * 16 + k))

/-- A free place among the four runs (R528). -/
def State.proofSlot (s : State) : Option Nat := (List.range 4).find? fun k => !(s.proof k).active

/-- A run begins: the outputs of what it covers go to the safe state (R528). -/
def beginProof (k : Nat) (p : ProofRun) (s : State) : State :=
  let s := each safeRes ((p.burins s).flatMap s.owned) s
  let s := if p.kind = 0 then leaveOn p.domain (disarmProof p.domain s) else s
  s.setProof k { p with active := true }

/-- The devices whose results a run needs (R149): for a cell of this device every device of its tree. -/
def ProofRun.devs (s : State) (p : ProofRun) : List Nat :=
  if p.kind = 1 && s.isLocal p.cell then (s.tree p.cell).devs else [s.sys.devnum]

/-- The request for a run that this device leads is kept until every result has come. -/
def joinProof (p : ProofRun) (s : State) : State :=
  if p.home.isSome then s
  else { s with joins := s.joins ++ [{ id := p.id, cell := if p.kind = 1 then some p.cell else none, owed := p.devs s, results := [] }] }

/-- PROOF_RUN, from the mailbox, the sideband or another device (R416, R527, R528). -/
def proofReply (p : ProofRun) (s : State) : Reply :=
  if 1 < p.kind then .bad s 0
  else if p.kind = 0 && (p.domain < 3 || 23 < p.domain) then .bad s 1
  else if p.tests = 0 || 3 < p.tests then .bad s 2
  else if p.kind = 1 && !s.cellExists p.cell then .bad s 4
  else if p.kind = 0 && p.domain = 4 && p.tests.testBit 1 && s.sys.mode ≠ .proof then .bad s 2
  else match (p.doms s).find? fun d => !s.isOn d with
    | some d => .no s stInvalid (.domain d)
    | none =>
      if s.proofBusyOn p then .busy s
      else match s.proofSlot with
        | none => .busy s
        | some k => { s := beginProof k p (joinProof p s), wait := .proof p.id }

/-- Modes that admit PROOF_RUN (R32). -/
def proofModes : List Mode := [.configure, .ready, .run, .proof, .safe, .service]

/-- A request for a run: a cell run concerns every device of the cell (R138, R149). -/
def proofRequest (kind domain tests cell : Nat) (s : State) : Reply :=
  let r := proofReply { kind, domain, cell, tests, id := s.nextId } s
  let r := if failing r.status then r else { r with s := { r.s with nextId := r.s.nextId + 1 } }
  if kind = 1 && s.cellExists cell then onCell cell (.proof cell tests) (s.cellDevs cell) r s else r

def execProofRun (h : Hdr) (kind domain tests cell : Nat) (s : State) : Host.Outcome State Fault Refusal :=
  .next (command h 0x51 8 proofModes (proofRequest kind domain tests cell) s)

/-! ### The end of a run -/

/-- What a run destroyed stands as after a wake from Off (R529). -/
def proofReset (p : ProofRun) (badTiles : Nat) (s : State) : State :=
  let info : RestoreInfo := { banks := [], dies := [], badTiles, upA := [], upB := [], badF := [] }
  if p.kind = 0 then freshDomain p.domain info s
  else
    let tiles := p.tiles s
    let s := each (fun b s => flushEnds (s.burinEnd b) true (s.modBurin b fun r => { slots := r.slots, ctab := r.ctab })) (p.burins s) s
    reloadTiles tiles badTiles s

/-- The roots with a burin or resource in a domain. -/
def State.domRoots (s : State) (d : Nat) : List Nat :=
  ((s.burins.filter fun e => s.configured e.1 && (s.burinDoms e.1).contains d).map fun e => s.rootOf e.1).dedup

/-- The signature of a burin. -/
def sigOf (g : ProofSigs) (b : Nat) : BitVec 64 := ((g.burins.find? fun e => e.1 == b).map Prod.snd).getD 0

/-- The burins a run covers, in ascending index. -/
def ProofRun.ascending (s : State) (p : ProofRun) : List Nat := (List.range 1024).filter (p.burins s).contains

/-- The signature of a run on this device (R149, R530): of the domain, or of its burins folded. -/
def ProofRun.fold (s : State) (p : ProofRun) (g : ProofSigs) : BitVec 64 :=
  if p.kind = 0 then g.dom else (p.ascending s).foldl (fun a b => Config.misr a (sigOf g b)) 0

/-- The first failing domain or burin (R513). -/
def ProofRun.failing (s : State) (p : ProofRun) (sig expected : ProofSigs) : Nat :=
  if p.kind = 0 then p.domain else ((p.ascending s).find? fun b => sigOf sig b != sigOf expected b).getD 0

/-- A proof signature mismatch (R30, R513, R530). -/
def proofMismatch (p : ProofRun) (sig expected : BitVec 64) (bad : Nat) (s : State) : State :=
  let detail := le 8 sig.toNat ++ le 8 expected.toNat ++ le 2 bad ++ pad 14
  if s.sys.mode = .proof then doubtDevice 4 detail s
  else if p.kind = 1 then doubtPlate (s.rootKey p.cell) 4 detail s
  else each (fun k s => doubtPlate k 4 detail s) (s.domRoots p.domain) s

/-- Insert a result in ascending device number. -/
def insertResult (e : Nat × BitVec 64 × BitVec 64) : List (Nat × BitVec 64 × BitVec 64) → List (Nat × BitVec 64 × BitVec 64)
  | [] => [e]
  | x :: l => if e.1 < x.1 then e :: x :: l else x :: insertResult e l

/-- The signature and the expected one of a request whose results are all there: for a cell, the devices' folded in
ascending device number (R149). -/
def ProofJoin.outcome (j : ProofJoin) : BitVec 64 × BitVec 64 :=
  if j.cell.isSome then
    (j.results.foldl (fun a e => Config.misr a e.2.1) 0, j.results.foldl (fun a e => Config.misr a e.2.2) 0)
  else (j.results.head?.map Prod.snd).getD (0, 0)

/-- A device's result of a request; the last completes it. A device that abandoned its part ends it with FAULT (R518). -/
def addResult (id dev : Nat) (r : Option (BitVec 64 × BitVec 64)) (s : State) : State :=
  match s.joins.find? fun j => j.id == id with
  | none => s
  | some j =>
    let others := s.joins.filter fun k => k.id != id
    let done (st sig : Nat) (s : State) : State := pump (decideFlights (fun f => f.wait == .proof id) st (fun _ => sig) .doubt s)
    match r with
    | none => done stFault 0 { s with joins := others }
    | some x =>
      let j := { j with owed := j.owed.filter (· != dev), results := insertResult (dev, x) j.results }
      if j.owed ≠ [] then { s with joins := others ++ [j] }
      else done (if j.outcome.1 == j.outcome.2 then stOk else stFault) j.outcome.1.toNat { s with joins := others }

/-- PROOF_RUN_END (R149, R529, R530): an abandoned run raises no mismatch (R518). -/
def execProofRunEnd (run : Fin 4) (signature expected : ProofSigs) (badTiles : Nat) (s : State) :
    Host.Outcome State Fault Refusal :=
  .next (let p := s.proof run.val
    if !p.active then s
    else
      let sig := p.fold s signature
      let want := p.fold s expected
      let bad := p.failing s signature expected
      let s := proofReset p badTiles (s.setProof run.val {})
      if p.abandoned then s
      else
        let s := match p.home with
          | some d => tell d (.proofResult p.id (some (sig, want))) s
          | none => addResult p.id s.sys.devnum (some (sig, want)) s
        if sig == want then s else proofMismatch p sig want bad s)

end Sys2Proof.Machine
end

