-- ==== Sys2Proof/Machine/Shots.lean ====
section
/-! DEFINITION. Shots (R22–R24, R37, R87, R88, R139–R142, R416, R420, R421, R516, R520–R522), entries on their way
to their queues (R44–R57), drop state (R256) and the VFAB governor (R59–R62). -/

namespace Sys2Proof.Machine

/-! ### Starting roots (R140, R420, R421) -/

/-- A command of R140 names a root. -/
def State.namesRoot (s : State) (a : Nat) : Bool := s.cellExists a && (!s.isLocal a || (s.cell (localOf a)).parent.isNone)

/-- The number after the last one assigned to a root (R22). -/
def State.nextShot (s : State) (key : Nat) : Nat := ((s.cell key).lastShot + 1) % 2 ^ 64

/-- Why a root cannot take a series: its latch, a proof run, its stop, a burin of an unavailable tile or an
unloaded one (R120, R142, R455, R516, R528). -/
def State.startBar (s : State) (cell : Nat) : Option Reply :=
  let key := s.keyOf cell
  let bs := s.burinsOf cell
  if s.faulted key then some (.no s stFault .doubt)
  else if bs.any s.tileBad then some (.bad s 0)
  else if bs.any s.proofHolds then some (.busy s)
  else if s.stopping key then some (.busy s)
  else if bs.any fun b => !(s.burin b).loaded then some (.bad s 0)
  else none

/-- The earliest first origin of a series that follows this one: its last origin and its period, none if it is endless. -/
def Series.nextFree (r : Series) : Option Nat := r.left.map fun n => r.origin + n * r.period

/-- Add a series to a root of this device, which runs from then on. -/
def addSeries (key : Nat) (r : Series) (last : Nat) (s : State) : State :=
  (s.modCell key fun c => { c with lastShot := last }).modRoot key fun k =>
    { k with running := true, series := k.series ++ [r], freeFrom := some r.nextFree }

/-- CELL_START (R421). -/
def cellStartReply (cell period : Nat) (s : State) : Reply :=
  if !s.namesRoot cell then .bad s 0
  else match s.startBar cell with
    | some r => r
    | none =>
      let key := s.keyOf cell
      if !s.isLocal cell || s.running key then { s }
      else
        let first := s.nextShot key
        let origin := wordUp (s.now + s.lead key + us (if s.spans key then 200 else 10))
        let r : Series := if period = 0 then { next := first, left := some 1, numbered := true, origin, period := 0 }
          else { next := first, left := none, numbered := false, fresh := true, origin, period := us period }
        { s := addSeries key r first s, result := first }

def execCellStart (h : Hdr) (cell period : Nat) (s : State) : Host.Outcome State Fault Refusal :=
  .next (command h 0x12 8 [.run] (fun t => onCell cell (.start cell period) (t.cellDevs cell) (cellStartReply cell period t) t) s (some cell))

/-- A first origin comes too early for the series before it, if the root runs with one (R420). -/
def RootRun.early (r : RootRun) (o : Int) : Bool :=
  r.running && (match r.freeFrom with
    | none => false
    | some none => true
    | some (some t) => decide (o < (t : Int)))

/-- SHOT_SCHEDULE (R139, R419, R420). -/
def shotScheduleReply (cell count period : Nat) (origin : Stamp) (s : State) : Reply :=
  if !s.namesRoot cell then .bad s 0
  else if period < 20000 || 2 ^ 47 < period then .bad s 8
  else if !stampOk origin then .bad s 16
  else match s.startBar cell with
    | some r => r
    | none =>
      let key := s.keyOf cell
      if !s.isLocal cell then { s }
      else
        let r := s.root key
        let o := s.coarseOf (stampTicks origin)
        if 16 ≤ r.series.length then .busy s
        else if r.early o then .bad s 16
        else if o - (s.lead key : Int) < (s.now : Int) + (us (if s.spans key then 200 else 10) : Nat) then
          .no s stLate (.field 16)
        else
          let first := s.nextShot key
          let e : Series :=
            { next := first, left := if count = 0 then none else some count, numbered := count ≠ 0, fresh := count == 0
              origin := o.toNat, period }
          { s := addSeries key e ((first + (count - 1)) % 2 ^ 64) s, result := first }

def execShotSchedule (h : Hdr) (cell count period : Nat) (origin : Stamp) (s : State) : Host.Outcome State Fault Refusal :=
  .next (command h 0x16 32 [.run] (fun t =>
    onCell cell (.schedule cell count period origin) (t.cellDevs cell) (shotScheduleReply cell count period origin t) t) s (some cell))

/-! ### Stopping and aborting (R34, R142, R520–R522) -/

def cellStopReply (cell : Nat) (s : State) : Reply :=
  if !s.namesRoot cell then .bad s 0
  else
    let key := s.keyOf cell
    if !s.isLocal cell || !s.running key || s.stopping key then { s, result := 0xFFFFFFFFFFFFFFFF }
    else
      let (s', first) := beginStop key s
      { s := s', result := first, wait := .rootStop key }

/-- The other devices that a stop or abort concerns: none while the root does not run (R34). -/
def State.stopDevs (s : State) (cell : Nat) : List Nat := if s.running (s.keyOf cell) then s.cellDevs cell else []

def execCellStop (h : Hdr) (cell : Nat) (s : State) : Host.Outcome State Fault Refusal :=
  .next (command h 0x13 8 anyMode (fun t => onCell cell (.stop cell) (t.stopDevs cell) (cellStopReply cell t) t) s)

def cellAbortReply (cell : Nat) (s : State) : Reply :=
  if !s.namesRoot cell then .bad s 0
  else
    let key := s.keyOf cell
    if s.running key then { s := stopRoot key 3 false s } else { s }

def execCellAbort (h : Hdr) (cell : Nat) (s : State) : Host.Outcome State Fault Refusal :=
  .next (command h 0x14 8 anyMode (fun t => onCell cell (.abort cell) (t.stopDevs cell) (cellAbortReply cell t) t) s)

/-- The header of a mailbox command (R406). -/
def entryHdr : Instr → Option Hdr
  | .unknownCommand h _ => some h
  | .open_ h _ _ => some h
  | .close h => some h
  | .queueResume h => some h
  | .fence h _ => some h
  | .cellConfigure h _ _ => some h
  | .cellLoad h _ _ _ _ _ _ _ _ => some h
  | .cellStart h _ _ => some h
  | .cellStop h _ => some h
  | .cellAbort h _ => some h
  | .cellAbortCommandForm h _ _ _ => some h
  | .plateComposeCreate h _ => some h
  | .plateComposeAdd h _ _ => some h
  | .plateComposeRemove h _ _ => some h
  | .plateComposeSeal h _ => some h
  | .plateComposeDissolve h _ => some h
  | .shotSchedule h _ _ _ _ => some h
  | .segmentLoad h _ => some h
  | .filterLoad h _ _ _ _ _ => some h
  | .markLoadLoad h _ _ _ _ _ _ => some h
  | .markLoadConfig h _ _ _ _ _ _ _ => some h
  | .markLoadStart h _ _ _ _ _ => some h
  | .markLoadStop h => some h
  | .streamOpen h _ _ => some h
  | .streamClose h _ => some h
  | .align h _ _ _ => some h
  | .alignCancel h => some h
  | .eventRouteBind h _ => some h
  | .eventRouteUnbind h _ => some h
  | .eventGate h _ _ _ => some h
  | .acqSet h _ _ => some h
  | .acqArm h _ => some h
  | .acqDisarm h _ => some h
  | .timeSetStepAbs h _ => some h
  | .timeSetStepRel h _ => some h
  | .timeSetDomain h _ _ => some h
  | .timeSetServo h _ => some h
  | .timeSetUtc h _ => some h
  | .timeSelect h _ => some h
  | .timeTimerArm h _ => some h
  | .timeTimerStop h _ _ => some h
  | .timeQuery h _ => some h
  | .tiuMeasureStart h _ _ => some h
  | .tiuMeasureStop h _ => some h
  | .tiuMeasureQuery h _ _ => some h
  | .calRun h _ _ _ => some h
  | .calCommit h _ _ _ => some h
  | .calSet h _ _ _ _ _ _ => some h
  | .powerSetDomain h _ _ _ => some h
  | .powerSetGovernor h _ => some h
  | .proofRun h _ _ _ _ => some h
  | .modeSet h _ => some h
  | .statusQuery h _ _ _ => some h
  | .ledgerQuery h _ _ _ => some h
  | .faultClear h _ _ => some h
  | .patchStatus h _ => some h
  | .linkStatus h _ _ => some h
  | .linkSet h _ _ _ _ _ _ => some h
  | .ringSet h _ => some h
  | .hkSet h _ _ => some h
  | .netSetDevnum h _ => some h
  | .netSetRoutes h _ _ _ => some h
  | _ => none

/-- The entries of a queue that are submitted and not yet read, each with its count (R400): they are the
commands that wait, in their order. -/
def State.unread (s : State) (q : Nat) : List (Nat × Instr) :=
  let k := s.sq q
  let l := s.pending.filter fun c => match entryHdr c with | some h => h.sq.val == q | none => false
  (l.take ((k.submitted + 65536 - k.read) % 65536)).zipIdx.map fun e => ((k.read + e.2) % 65536, e.1)

/-- The command has a cmd_id. -/
def hasId (cmdId : Nat) (c : Instr) : Bool := match entryHdr c with | some h => h.cmdId == cmdId | none => false

/-- A waiting SHOT_SCHEDULE or CELL_START of a cell. -/
def schedulesNow (cell : Nat) : Instr → Bool
  | .shotSchedule _ c _ _ _ => c == cell
  | .cellStart _ c _ => c == cell
  | _ => false

/-- A command that creates a series of a cell. -/
def schedules (opcode : Nat) (c : Option Nat) (cell : Nat) : Bool := (opcode == 0x12 || opcode == 0x16) && c == some cell

/-- A command in its first phase has not committed (R517). -/
def InFlight.uncommitted (f : InFlight) : Bool := match f.wait with | .votes _ _ _ _ _ => true | _ => false

/-- CELL_ABORT, command form (R522): the most recent command with the cmd_id is the last one that waits to be
read, else the last in flight, else the last completed. -/
def abortCmdReply (cell sq cmdId : Nat) (s : State) : Reply :=
  if !s.namesRoot cell then .bad s 0
  else match ((s.unread sq).filter fun e => hasId cmdId e.2).getLast? with
  | some (n, c) =>
    if !schedulesNow cell c then .bad s 5
    else { s := s.modSq sq fun k => { k with withdrawn := n :: k.withdrawn.filter (· != n) } }
  | none => match ((s.sq sq).flight.filter fun f => f.cmdId == cmdId).getLast? with
    | some f =>
      if !schedules f.opcode f.cell cell then .bad s 5
      else if f.uncommitted then
        { s := decideFlights (fun g => g == f && g.uncommitted) stFault (fun _ => 0) .doubt (dropAsked f s) }
      else .no s stAlready .doubt
    | none =>
      match (s.sq sq).history.find? fun e => e.1 == cmdId with
      | some (_, op, c) => if schedules op c cell then .no s stAlready .doubt else .bad s 5
      | none => .bad s 5

def execCellAbortCommandForm (h : Hdr) (cell sq cmdId : Nat) (s : State) : Host.Outcome State Fault Refusal :=
  .next (command h 0x14 8 anyMode (abortCmdReply cell sq cmdId) s)

/-! ### Start events (R70, R87, R88, R180, R202, R247, R275) -/

/-- A start event takes effect at a burin. -/
def startBurin (b shot origin : Nat) (s : State) : State :=
  let s := flushEnds (s.ownEnd b) false s
  let s := s.modBurin b fun r =>
    { r with
      running := true, waiting := none, hold := none, shot, origin, micro := {}, underrun := false
      regs := { r.regs with pc := 0, loops := [] }
      iqOverruns := r.iqOverruns.add r.iq.length, iqLost := r.iqLost || decide (r.iq ≠ [])
      iq := [], lastPoint := none }
  fetchOn b (s.setCent b { s.cent b with due := false })

/-- A start event reaches a burin: held while the shot before it has not ended. -/
def startOrHold (shot origin b : Nat) (s : State) : State :=
  let r := s.burin b
  if r.running || decide (r.held ≠ []) then
    s.setBurin b { r with held := r.held ++ [{ shot, origin }], shotOverruns := r.shotOverruns.bump }
  else startBurin b shot origin s

/-- Outputs of a root leave the muted or safe state at its start event, unless something holds them. -/
def freeOutputs (key : Nat) (s : State) : State :=
  let res := s.rootRes key
  let ports := ((res.filter fun r => decide (r < 0x2000)).map tonePort).dedup
  let s := each (fun p s => if s.portHeld p then s else s.modPort p fun q => { q with unmuted := true }) ports s
  each (fun r s =>
    if 0x2000 ≤ r && decide (r < 0x3000) && !s.plausHeld (zDom (r - 0x2000)) then
      s.modZ (r - 0x2000) fun c => if c.st = .safePark then { c with st := .driven } else c
    else s) res s

/-- A series after one of its shots has started; none where that was the last. -/
def Series.after (r : Series) : Option Series :=
  let r := { r with next := (r.next + 1) % 2 ^ 64, origin := r.origin + r.period, fresh := false }
  match r.left with
  | some n => if n ≤ 1 then none else some { r with left := some (n - 1) }
  | none => some r

/-- START_EVENT (R22, R23, R88, R267, R421): the start lead before the next origin. -/
def execStartEvent (root : CellRef) (s : State) : Host.Outcome State Fault Refusal :=
  .next (let key := s.refKey root
    let k := s.root key
    match k.series with
    | r :: rest =>
      if !k.running || decide (s.now + s.lead key < r.origin) then s
      else
        let shot := if r.numbered || r.fresh then r.next else s.nextShot key
        let s := if r.numbered || r.fresh then s else s.modCell key fun c => { c with lastShot := shot }
        let d : Due := { ord := k.starts + 1, shot, origin := r.origin }
        let s := s.setRoot key { k with
          series := r.after.toList ++ rest, starts := k.starts + 1, cur := some d, due := k.due ++ [d] }
        let s := freeOutputs key s
        each (startOrHold shot r.origin) (s.rootBurins key) s
    | [] => s)

/-- HELD_START (R88): the previous shot's program has reached END. -/
def execHeldStart (b : BurinId) (s : State) : Host.Outcome State Fault Refusal :=
  .next (match (s.burin b.val).held with
    | h :: rest =>
      if (s.burin b.val).running then s
      else startBurin b.val h.shot h.origin (s.modBurin b.val fun r => { r with held := rest })
    | [] => s)

/-! ### Entries (R45–R56) -/

/-- The late record (R56). -/
def State.lateRec (s : State) (res : Nat) (e : Entry) (reason : Nat) (slack : Int) : List Byte :=
  le 2 0x0011 ++ le 1 reason ++ le 1 0 ++ le 2 res ++ le 2 e.burin ++ le 8 e.shot ++ le 6 e.rel48
    ++ le 2 (s.queue res).floor ++ leI 4 slack ++ le 2 s.gov.vfab ++ leI 2 (s.tj16 (folioDom e.burin))

/-- Why an entry that arrives is late, if it is (R51). -/
def lateReason (release slack : Int) (last : Option Int) (floor : Nat) : Option Nat :=
  let order := match last with | some t => decide (release ≤ t) | none => false
  if order then some 3 else if slack ≤ 0 then some 2 else if slack < ((floor * 16 : Nat) : Int) then some 1 else none

/-- ENTRY_ARRIVAL (R48–R52): the queue edge accepts the next entry from the crossbar, or finds it late. -/
def execEntryArrival (q : QueueId) (s : State) : Host.Outcome State Fault Refusal :=
  .next (let res := qnum q
    let k := s.queue res
    match k.xbar with
    | [] => s
    | e :: rest =>
      let slack := e.release - (wordUp s.now : Nat)
      match lateReason e.release slack k.lastArrived k.floor with
      | none =>
        s.setQueue res { k with xbar := rest, entries := k.entries ++ [{ e with slack, margin := slack - ((k.floor * 16 : Nat) : Int) }], lastArrived := some e.release }
      | some reason =>
        let rec_ := s.lateRec res e reason slack
        let s := s.setQueue res { k with
          xbar := [], returning := k.returning + 1 + rest.length, lastArrived := some ((rest.getLast?.getD e).release)
          lastPlaced := none, meter := { k.meter with late := true } }
        doubtBurin e.burin 1 rec_ { s with gov := { s.gov with late := true } })

/-- CREDIT_RETURN (R47). -/
def execCreditReturn (q : QueueId) (s : State) : Host.Outcome State Fault Refusal :=
  .next (let k := s.queue (qnum q)
    if k.returning = 0 then s else s.setQueue (qnum q) { k with returning := k.returning - 1 })

/-- An entry whose release tick has come leaves the head of its queue: its credit returns, and the meter and the
governor take it (R50, R57, R59). -/
def releaseHead (res : Nat) (s : State) : Option (Entry × State) :=
  let k := s.queue res
  match k.entries with
  | [] => none
  | e :: rest =>
    if (s.now : Int) < e.release then none
    else
      let near := decide (e.margin < ((s.gov.nearLate * 16 : Nat) : Int))
      let least (o : Option Int) (v : Int) : Option Int := match o with | some x => some (min x v) | none => some v
      let m := k.meter
      let m := { m with
        minSlack := least m.minSlack e.slack, released := m.released.bump, nearLate := if near then m.nearLate.bump else m.nearLate }
      let s := s.setQueue res { k with entries := rest, returning := k.returning + 1, meter := m }
      some (e, { s with gov := { s.gov with margin := least s.gov.margin e.margin } })

/-- An entry discarded at its release leaves the queue, its credit returns, and nothing else happens (R160, R189). -/
def dropHead (res : Nat) (s : State) : State :=
  s.modQueue res fun k => { k with entries := k.entries.tail, returning := k.returning + 1 }

/-! ### Drop state (R256) -/

/-- Write pending gaps while slots last. -/
def writeGaps (key : Nat) : Nat → State → State
  | 0, s => s
  | n + 1, s =>
    match (s.root key).gaps with
    | [] => s
    | g :: rest =>
      match ringPut (s.streamRing key) (withSeq g (s.root key).seq) none s with
      | some s' => writeGaps key n (s'.modRoot key fun r => { r with gaps := rest, seq := (r.seq + 1) % 65536 })
      | none => s

/-- DROP_STATE_EXIT: the pending gap records, then one RING_FULL record; then the stream goes on. -/
def execDropStateExit (root : CellRef) (s : State) : Host.Outcome State Fault Refusal :=
  .next (let key := s.refKey root
    let s := if (s.root key).drop then writeGaps key (s.root key).gaps.length s else s
    let r := s.root key
    if !r.drop || decide (r.gaps ≠ []) then s
    else if r.dropped = 0 then flush key (s.setRoot key { r with drop := false })
    else
      let part := decide (r.lastRec = some r.dropShot)
      let rec_ := gapRec 4 part r.dropShot (r.dropLast - r.dropShot + 1) (s.rootAddr key) r.dropped
      match ringPut (s.streamRing key) (withSeq rec_ r.seq) (some (key, r.dropShot)) s with
      | some s' => flush key (s'.modRoot key fun r => { r with
          drop := false, dropped := 0, dropShot := 0, dropLast := 0, seq := (r.seq + 1) % 65536 })
      | none => s)

/-! ### The governor (R59–R62) -/

/-- The upper limit, and whether the power cap gives it (R60); a cap that equals the user maximum or 0.85 V does not
count as giving it (the model's choice, log 138). -/
def State.govUpper (s : State) : Nat × Bool :=
  let u := Nat.min 850 s.gov.vmax
  if s.house.vcap < u then (s.house.vcap, true) else (u, false)

/-- The code on VID4–VID0 (R555): 10 until the governor starts, then that of VFAB. -/
def State.vid (s : State) : Nat := if s.gov.on then (s.gov.vfab - 650) / 10 else 10

def State.govLower (s : State) : Nat := Nat.max 650 s.gov.vmin

/-- Hold a voltage within the limits; the cap wins over the user minimum. -/
def State.govClamp (s : State) (v : Nat) : Nat := Nat.min s.govUpper.1 (Nat.max s.govLower v)

/-- GOVERNOR_INTERVAL: the interval of 100 µs is over, and the first row of R59 that applies acts. -/
def execGovernorInterval (s : State) : Host.Outcome State Fault Refusal :=
  .next (if !s.gov.on || decide (s.now < s.gov.since + us 100) then s
    else
      let g := s.gov
      let (up, byCap) := s.govUpper
      let low := g.late || (match g.margin with | some m => decide (m < ((g.nearLate * 16 : Nat) : Int)) | none => false)
      let roomy := match g.margin with | some m => decide (((g.lower * 16 : Nat) : Int) < m) | none => true
      let quiet := if low then 0 else if roomy then g.quiet + 1 else 0
      let sat := !g.fixed && low && decide (up ≤ g.vfab)
      let want := if g.fixed then g.vfixed else if low then g.vfab + 10 else if 16 ≤ quiet then g.vfab - 10 else g.vfab
      let g := { g with
        since := g.since + us 100, vfab := s.govClamp want, margin := none, late := false, quiet := if g.fixed || 16 ≤ quiet then 0 else quiet
        saturated := sat, capped := sat && byCap, conflict := decide (s.house.vcap < g.vmin) }
      let s := { s with gov := g }
      let s := if sat then setSum 4 s else s
      if sat && byCap then setSum 5 s else s)

end Sys2Proof.Machine
end

