-- ==== Sys2Proof/Machine/Between.lean ====
section
/-! DEFINITION. CONTROL frames: what devices say to each other about commands, stops, trees, proof runs and doubts (R132,
R137, R138, R142, R143, R149, R266, R514, R515, R520). -/

namespace Sys2Proof.Machine

/-! ### The home device -/

/-- What a command does on the device that leads it. -/
def homeReply (id : Nat) (t : Task) (s : State) : Reply :=
  match t with
  | .configure cell items => configureReply cell items s
  | .load cell flags preset image length dwords dmem presets => loadReply cell flags preset image length dwords dmem presets s
  | .start cell period => cellStartReply cell period s
  | .schedule cell count period origin => shotScheduleReply cell count period origin s
  | .stop cell => cellStopReply cell s
  | .abort cell => cellAbortReply cell s
  | .add plate members => addReply plate members s
  | .remove plate members => removeReply plate members s
  | .seal plate => sealReply plate s
  | .dissolve plate => dissolveReply plate s
  | .bind a => bindReply true a s
  | .unbind ch => unbindReply ch s
  | .proof cell tests => proofReply { kind := 1, domain := 0, cell, tests, id } s
  | .clear scope target _ up => faultClearReply scope target up s
  | .series _ _ _ _ _ | .halt _ _ => { s }

/-- A command that another device passes to this one, as the lead of it. -/
def taskReply (t : Task) (s : State) : Reply :=
  match t with
  | .configure cell _ => onCell cell t (s.cellDevs cell) (homeReply 0 t s) s
  | .load cell _ _ _ _ _ _ _ => onCell cell t (s.cellDevs cell) (homeReply 0 t s) s
  | .start cell _ => onCell cell t (s.cellDevs cell) (homeReply 0 t s) s
  | .schedule cell _ _ _ => onCell cell t (s.cellDevs cell) (homeReply 0 t s) s
  | .stop cell => onCell cell t (s.stopDevs cell) (homeReply 0 t s) s
  | .abort cell => onCell cell t (s.stopDevs cell) (homeReply 0 t s) s
  | .add plate members => onCell plate t (s.memberDevs members) (homeReply 0 t s) s
  | .remove plate members => onCell plate t (s.memberDevs members) (homeReply 0 t s) s
  | .seal plate => onCell plate t (s.cellDevs plate) (homeReply 0 t s) s
  | .dissolve plate => onCell plate t (s.dissolveDevs plate) (homeReply 0 t s) s
  | .proof cell tests => proofRequest 1 0 tests cell s
  | _ => .no s stInvalid (.field 0)

/-- The oldest command in flight whose wait satisfies a test, with its queue. -/
def State.findFlight (s : State) (p : WaitFor → Bool) : Option (Nat × InFlight) :=
  firstSome (fun e => (e.2.flight.find? fun f => p f.wait).map fun f => (e.1, f)) s.host.sqs

/-- The first element equal to one becomes another. -/
def replaceFirst {α : Type} [DecidableEq α] (x y : α) : List α → List α
  | [] => []
  | z :: l => if z = x then y :: l else z :: replaceFirst x y l

def setFlight (q : Nat) (f g : InFlight) (s : State) : State :=
  s.modSq q fun k => { k with flight := replaceFirst f g k.flight }

/-- How the log gives the reason of a status that another device answered. -/
def whyOf (status : Nat) : Why :=
  if status = stBusy then .inUse else if status = stMode then .mode else if status = stInvalid || status = stLate then .field 0 else .doubt

/-- A command in its phases ends with a status. -/
def endFlight (q : Nat) (f : InFlight) (status result : Nat) (why : Why) (s : State) : State :=
  noteFailure q status f.what f.target why (setFlight q f { f with wait := .nothing, status, result } s)

/-- What the other devices are told to apply: for a command that starts shots the series as it was numbered here, for a
stop the number at which it ends the root. `s` is the state before, `r` the reply. -/
def partOf (t : Task) (s : State) (r : Reply) : Task :=
  match t with
  | .start cell period =>
    match (r.s.root (s.keyOf cell)).series.getLast? with
    | some e => if s.running (s.keyOf cell) then t
        else .series cell r.result (if period = 0 then 1 else 0) e.period (toStamp ((r.s.taiOf e.origin * 65536).toNat))
    | none => t
  | .schedule cell count period origin => .series cell r.result count period origin
  | .stop cell =>
    if s.running (s.keyOf cell) && !s.stopping (s.keyOf cell) then .halt cell (s.stopNumber (s.keyOf cell)) else t
  | _ => t

/-- The root whose shots a command numbers, with the last number assigned so far (R22). -/
def State.priorShot (s : State) : Task → Option (Nat × Nat)
  | .start cell _ => some (s.keyOf cell, (s.cell (s.keyOf cell)).lastShot)
  | .schedule cell _ _ _ => some (s.keyOf cell, (s.cell (s.keyOf cell)).lastShot)
  | _ => none

/-- Every device has accepted: the command is judged and applied here, and every other device is told to apply its part.
The stop or the results are then awaited, else the confirmations (R138). -/
def commitFlight (q : Nat) (f : InFlight) (id : Nat) (devs : List Nat) (t : Task) (s : State) : State :=
  let r := if (taskModes t).contains s.sys.mode then homeReply id t s else .no s stMode .mode
  if failing r.status then each (fun d s => tell d (.drop id) s) devs (endFlight q f r.status r.result r.why r.s)
  else
    let wait : WaitFor := match r.wait with
      | .rootStop k => .confirms id devs (some k)
      | .proof k => .proof k
      | _ => .confirms id devs none
    let s' := setFlight q f { f with wait, status := r.status, result := r.result, prior := s.priorShot t } r.s
    each (fun d s => tell d (.apply id (partOf t s r)) s) devs s'

/-- What a vote adds to a FAULT_CLEAR: whether that device's links are up. -/
def heardUp (t : Task) (up : Bool) : Task :=
  match t with
  | .clear scope target roots u => .clear scope target roots (u && up)
  | t => t

/-- A device answers phase one: of the refusing devices, the lowest number's status counts, and the others hear that the
command is not applied (R138). -/
def takeVote (dev id status : Nat) (up : Bool) (s : State) : State :=
  match s.findFlight fun w => match w with | .votes k _ owed _ _ => k == id && owed.contains dev | _ => false with
  | none => s
  | some (q, f) =>
    match f.wait with
    | .votes _ devs owed worst t =>
      let rest := owed.filter (· != dev)
      let t := heardUp t up
      let worst := if !failing status then worst
        else match worst with
          | some (d, st) => if dev < d then some (dev, status) else some (d, st)
          | none => some (dev, status)
      if rest ≠ [] then setFlight q f { f with wait := .votes id devs rest worst t } s
      else match worst with
        | some (_, st) => each (fun d s => tell d (.drop id) s) devs (endFlight q f st 0 (whyOf st) s)
        | none => commitFlight q f id devs t s
    | _ => s

/-- A device confirms phase two. -/
def takeConfirm (dev id : Nat) (s : State) : State :=
  match s.findFlight fun w => match w with | .confirms k owed _ => k == id && owed.contains dev | _ => false with
  | none => s
  | some (q, f) =>
    match f.wait with
    | .confirms _ owed root => setFlight q f { f with wait := .confirms id (owed.filter (· != dev)) root } s
    | _ => s

/-- The device that carries a command out says how it ended. -/
def takeAnswer (dev id status result : Nat) (s : State) : State :=
  match s.findFlight (· == .answer id dev) with
  | none => s
  | some (q, f) => endFlight q f status result (whyOf status) s

/-! ### A member's device -/

/-- A series of a root of another device, its origin converted by this device's own time (R22, R138, R333). -/
def seriesPart (root first count period : Nat) (origin : Stamp) (s : State) : State :=
  let r : Series :=
    { next := first, left := if count = 0 then none else some count, numbered := count != 0, fresh := count == 0
      origin := (s.coarseOf (stampTicks origin)).toNat, period }
  addSeries (s.keyOf root) r ((first + (count - 1)) % 2 ^ 64) s

/-- This device's part of a command that another leads: the check of phase one and the effect of phase two. -/
def partReply (src id : Nat) (t : Task) (s : State) : Reply :=
  match t with
  | .configure cell items => configureReply cell items s
  | .load cell flags preset image length dwords dmem presets => loadReply cell flags preset image length dwords dmem presets s
  | .start cell _ => (s.startBar cell).getD { s }
  | .schedule cell _ _ _ => (s.startBar cell).getD { s }
  | .series root first count period origin => { s := seriesPart root first count period origin s }
  | .stop _ => { s }
  | .halt root first => { s := haltPart root first src s }
  | .abort root => { s := if s.running (s.keyOf root) then stopRoot (s.keyOf root) 3 false s else s }
  | .add plate members => addPart plate members s
  | .remove plate members => removePart plate members s
  | .seal plate => sealPart plate s
  | .dissolve plate => dissolvePart plate s
  | .bind a => bindReply false a s
  | .unbind ch => unbindReply ch s
  | .proof cell tests => proofReply { kind := 1, domain := 0, cell, tests, id, home := some src } s
  | .clear scope _ roots up => clearPart scope roots up s

/-- What stays as it is between the phases of an accepted part: the cells and the channel that it concerns (R138). -/
def State.promiseOf (s : State) (src id : Nat) (t : Task) : Promise :=
  let below (a : Nat) : List Nat := (s.burinsOf a).map s.addr
  let mine (l : List Nat) : List Nat := l.filter s.isLocal
  let shadow (a : Nat) : List Nat := match s.shadowOf a with | some (_, p) => p.members | none => []
  match t with
  | .configure cell _ => { src, id, cells := below cell, chan := none, shadow := none }
  | .load cell _ _ _ _ _ _ _ => { src, id, cells := below cell, chan := none, shadow := none }
  | .start cell _ => { src, id, cells := below cell, chan := none, shadow := none }
  | .schedule cell _ _ _ => { src, id, cells := below cell, chan := none, shadow := none }
  | .proof cell _ => { src, id, cells := below cell, chan := none, shadow := none }
  | .add plate l => { src, id, cells := mine l, chan := none, shadow := some plate }
  | .remove _ l => { src, id, cells := mine l, chan := none, shadow := none }
  | .seal plate => { src, id, cells := shadow plate, chan := none, shadow := none }
  | .dissolve plate => { src, id, cells := shadow plate, chan := none, shadow := none }
  | .bind a => { src, id, cells := [], chan := some a.channel, shadow := none }
  | .unbind ch => { src, id, cells := [], chan := some ch, shadow := none }
  | _ => { src, id, cells := [], chan := none, shadow := none }

/-- The roots of which a command asks whether their links are up (R515). -/
def taskRoots : Task → List Nat
  | .clear _ _ roots _ => roots
  | _ => []

/-- Phase one on this device: nothing is applied, and what it accepts it holds until phase two (R138). -/
def takeAsk (src id : Nat) (t : Task) (s : State) : State :=
  let r := if (taskModes t).contains s.sys.mode then partReply src id t s else .no s stMode .mode
  if failing r.status then tell src (.vote id r.status (s.treesUp (taskRoots t))) r.s
  else tell src (.vote id stOk (s.treesUp (taskRoots t))) { s with promises := s.promises ++ [s.promiseOf src id t] }

/-- An accepted part is no longer held. -/
def unpromise (src id : Nat) (s : State) : State :=
  { s with promises := s.promises.filter fun p => !(p.src == src && p.id == id) }

/-- Phase two on this device. -/
def takeApply (src id : Nat) (t : Task) (s : State) : State :=
  let s := unpromise src id s
  let r := if (taskModes t).contains s.sys.mode then partReply src id t s else .no s stMode .mode
  tell src (.confirm id) (announce (if failing r.status then s else r.s))

/-- A doubt report reaches the home device: it fills the record of the doubt that its message announced (R514). -/
def doubtReport (root dev code tick : Nat) (detail : List Byte) (s : State) : State :=
  let key := s.keyOf root
  let fresh := decide ((s.fault key).codes = [])
  let s := if fresh then remoteDoubt dev root s else s
  s.modFault key fun r =>
    if r.code = 13 && (fresh || !r.reported) then
      { r with codes := (r.codes.filter (· != 13)) ++ [code], code, tick, detail, origin := dev, reported := true }
    else r.note code tick dev detail true

/-! ### CONTROL_FRAME -/

/-- The port at whose far end a device lies. -/
def State.peerPort (s : State) (dev : Nat) : Option Nat :=
  (List.range 8).find? fun p => decide ((s.jport p).st = .active) && (s.jport p).peerDev == dev

/-- What a message does. -/
def hear (src : Nat) (m : ControlMsg) (s : State) : State :=
  match m with
  | .request id t =>
    conclude (guestQ src) id 0 0 0 none (if (taskModes t).contains s.sys.mode then taskReply t s else .no s stMode .mode)
  | .answered id status result => takeAnswer src id status result s
  | .ask id t => takeAsk src id t s
  | .vote id status up => takeVote src id status up s
  | .apply id t => takeApply src id t s
  | .confirm id => takeConfirm src id s
  | .drop id => unpromise src id s
  | .halt root first => haltPart root first src s
  | .stopped root => checkStopped (s.keyOf root) (s.modRoot (s.keyOf root) fun r =>
      { r with remoteWait := r.remoteWait.filter (· != src) })
  | .rootIs plate r => takeAbove plate r s
  | .treeIs plate t => takeBelow plate t s
  | .proofResult id r => addResult id src r s
  | .doubtReport root code tick detail =>
    if s.spanRoots.contains (s.keyOf root) then doubtReport root src code tick detail s else s
  | .lost devs => match s.peerPort src with | some p => loseBeyond p devs s | none => s
  | .back devs => match s.peerPort src with | some p => foundBeyond p devs s | none => s

/-- CONTROL_FRAME, on PEER ports only (R374); one for another device is relayed (R376). -/
def execControlFrame (p : JvlPort) (tag : FrameTag) (src len : Nat) (m : ControlBody) (s : State) : Host.Outcome State Fault Refusal :=
  .next (recvFrame p.val 2 tag (.control src m)
    ((s.jport p.val).feat.testBit 0 && frameLen tag == len && decide (1 ≤ len) && decide (len ≤ 8)) (fun s =>
    if m.dest ≠ s.sys.devnum then relay p.val m.dest 2 (.control src m) s else pump (hear src m.msg s)) s)

end Sys2Proof.Machine
end

