-- ==== Sys2Proof/Machine/Flash.lean ====
section
/-! DEFINITION. What boot reads from the flash: boot header, boot configuration, patch directory and containers
(R116–R118, R538–R541). SHA-384, ECDSA over P-384 and AES-256-GCM are those that R116 names without giving them: constants
of Config over the bytes they read (log 150). -/

namespace Sys2Proof.Machine

/-! ### Boot header and configuration -/

/-- The bytes of the flash that the device reads: all, or the first 16 MiB of one without SFDP (R537). -/
def flashReach (h : BootHdr) (noSfdp : Bool) : Nat := if noSfdp then min h.flashSize (2 ^ 24) else h.flashSize

/-- The boot header is in rule (R538). -/
def bootHdrOk (h : BootHdr) (noSfdp : Bool) : Bool :=
  let b := h.bytes
  checked b 60 && field b 0 4 == 0x4248485A && field b 4 2 == 1 && zeros (slice b 6 2) && zeros (slice b 24 36)
    && [8, 12, 16, 20].all fun o => field b o 4 % 4096 == 0 && decide (field b o 4 < flashReach h noSfdp)

/-- The fields of the boot configuration (R541). -/
def cfgOffmask (c : BootCfg) : Nat := field c.bytes 4 4
def cfgDevnum (c : BootCfg) : Nat := field c.bytes 8 2
def cfgI2c (c : BootCfg) : Nat := field c.bytes 10 1
def cfgFlags (c : BootCfg) : Nat := field c.bytes 11 1
def cfgJvlOff (c : BootCfg) : Nat := field c.bytes 12 1

/-- Domain A's settings, laid out as TIME_SET DOMAIN (R424). -/
def cfgDomainA (c : BootCfg) : DomSettings :=
  let f := field c.bytes
  { source := f 18 1, port := f 19 1, profile := f 20 1, ptpdom := f 21 1, transport := f 22 1
    delay := sgn 32 (f 24 4), bw := f 28 4 }

/-- All zeros leave domain A DISABLED. -/
def cfgNoDomainA (c : BootCfg) : Bool := zeros (slice c.bytes 16 16)

/-- The boot configuration is in rule (R541). -/
def bootCfgOk (c : BootCfg) : Bool :=
  let b := c.bytes
  checked b 60 && field b 0 4 == 0x4343485A && zeros (slice b 13 3) && zeros (slice b 32 28)
    && bits (cfgOffmask c) 0 3 == 0 && decide (cfgOffmask c < 2 ^ 24) && !(cfgDevnum c).testBit 14
    && (cfgI2c c == 0 || (8 ≤ cfgI2c c && decide (cfgI2c c ≤ 0x77))) && decide (cfgFlags c < 4)
    && (cfgNoDomainA c || (field b 16 1 == 2 && field b 17 1 == 0 && field b 23 1 == 0 && (domRange (cfgDomainA c)).isNone))

/-! ### Containers (R116, R117) -/

/-- The header fields of a container (R116). -/
def contMagic (c : Container) : Nat := field c.bytes 0 4
def contPart (c : Container) : Nat := field c.bytes 8 4
def contId (c : Container) : Nat := field c.bytes 12 2
def contVer (c : Container) : Nat := field c.bytes 14 2
def contSec (c : Container) : Nat := field c.bytes 16 2
def contKey (c : Container) : Nat := field c.bytes 18 1
def contFlags (c : Container) : Nat := field c.bytes 19 1
def contBase (c : Container) : Nat := field c.bytes 20 4
def contLen (c : Container) : Nat := field c.bytes 24 4

/-- The ciphertext behind the header. -/
def contCipher (c : Container) : List Byte := slice c.bytes 256 (contLen c)

/-- The plaintext under the device-class key and the container's nonce. -/
def contPlain (c : Container) : List Byte := Config.gcmPlain (slice c.bytes 28 12) (contCipher c)

/-- The public key of the KEY record, which is the plaintext's first record (R117). -/
def contPublic (c : Container) : Option (List Byte) :=
  let p := contPlain c
  if field p 0 2 = 3 && p.length ≥ 112 && zeros (slice p 2 6) && zeros (slice p 105 7) then some (slice p 8 97) else none

/-- The key record is there, and its digest is that of the slot. -/
def keyRecordOk (c : Container) : Bool :=
  match contPublic c with
  | some k => Config.sha384 k == Config.keyDigest (contKey c)
  | none => false

/-- A big-endian integer. -/
def bigEndian (l : List Byte) : Nat := unle l.reverse

/-- The signature over header bytes 0–127 and the ciphertext verifies under the key record's key. -/
def signatureOk (c : Container) : Bool :=
  match contPublic c with
  | some k => Config.ecdsaP384 k (Config.sha384 (slice c.bytes 0 128 ++ contCipher c))
      (bigEndian (slice c.bytes 128 48)) (bigEndian (slice c.bytes 176 48))
  | none => false

/-- The tag verifies, with header bytes 0–27 as additional data. -/
def tagOk (c : Container) : Bool :=
  Config.gcmTag (slice c.bytes 28 12) (slice c.bytes 0 28) (contCipher c) == slice c.bytes 40 16

/-- One record of a patch payload after the KEY record (R117). -/
inductive PatchRec where
  | words (start : Nat) (ws : List Nat)
  | dispatch (opcode : Nat) (addr : Nat)
  deriving DecidableEq, Repr

/-- The words of a WORDS record. -/
def recWords (l : List Byte) : Nat → Nat → List Nat
  | _, 0 => []
  | off, n + 1 => field l off 4 :: recWords l (off + 4) n

/-- The records of a payload up to END, with which it must close; none where one is unknown, misplaced or out of
rule. -/
def parseRecs : Nat → List Byte → Option (List PatchRec)
  | 0, _ => none
  | n + 1, l =>
    let ty := field l 0 2
    if l.length < 8 then none
    else if ty = 0 then if l.length = 8 && zeros l then some [] else none
    else if ty = 1 then
      let k := field l 2 2
      let ws := recWords l 8 k
      let size := (8 + 4 * k + 7) / 8 * 8
      if l.length < size || !zeros (slice l 6 2) || !zeros (slice l (8 + 4 * k) (size - (8 + 4 * k))) || ws.any (2 ^ 24 ≤ ·) then none
      else (parseRecs n (l.drop size)).map (.words (field l 4 2) ws :: ·)
    else if ty = 2 then
      if !zeros (slice l 3 1) || !zeros (slice l 6 2) then none
      else (parseRecs n (l.drop 8)).map (.dispatch (field l 2 1) (field l 4 2) :: ·)
    else none

/-- The records after the KEY record. -/
def contRecs (c : Container) : Option (List PatchRec) := parseRecs (contLen c / 8 + 1) ((contPlain c).drop 112)

/-- The patch-area words that a container fills: address and microword. -/
def contWords (c : Container) : List (Nat × Nat) :=
  ((contRecs c).getD []).flatMap fun r => match r with
    | .words a ws => (List.range ws.length).map (a + ·) |>.zip ws
    | .dispatch .. => []

/-- The opcodes that a container dispatches, with their addresses. -/
def contDisp (c : Container) : List (Nat × Nat) :=
  ((contRecs c).getD []).flatMap fun r => match r with
    | .dispatch o a => [(o, a)]
    | .words .. => []

def inPatch (a : Nat) : Bool := 0xC00 ≤ a && decide (a ≤ 0xFFF)

/-- Check 8 passes beside the containers before this one. -/
def contentOk (before : List Container) (c : Container) : Bool :=
  (contRecs c).isSome
    && (contWords c).all (fun e => inPatch e.1 && !before.any fun b => (contWords b).any fun x => x.1 == e.1)
    && (contDisp c).all (fun e => inPatch e.2 && (0xE0 ≤ e.1 || (contFlags c).testBit 1)
        && !before.any fun b => (contDisp b).any fun x => x.1 == e.1)
    && !before.any fun b => contId b == contId c

/-- Check 1, against a magic and the longest payload (R118, R539). -/
def formatOk (magic most : Nat) (c : Container) : Bool :=
  contMagic c == magic && field c.bytes 4 2 == 1 && field c.bytes 6 2 == 256
    && contLen c % 8 == 0 && decide (8 ≤ contLen c) && decide (contLen c ≤ most) && decide (256 + contLen c ≤ c.bytes.length)
    && decide (contFlags c < 4) && zeros (slice c.bytes 56 72) && zeros (slice c.bytes 224 32) && decide (contSec c ≤ 64)

/-- Checks 1–6 of a container, in order (R118). -/
def headResult (magic most least : Nat) (c : Container) : Nat :=
  if !formatOk magic most c then 1
  else if contPart c ≠ identWord then 2
  else if 3 < contKey c || (Config.keySlot (contKey c)).val ≠ 1 || !keyRecordOk c then 3
  else if !signatureOk c then 4
  else if contSec c < least then 5
  else if !tagOk c then 6
  else 0

/-- Checks 1–8 of one patch container, in order (R118). -/
def contResult (ninth : Bool) (least : Nat) (before : List Container) (c : Container) : Nat :=
  let r := headResult 0x4D43485A 65536 least c
  if ninth then 1 else if r ≠ 0 then r
  else if contBase c ≠ Config.baseMicrocodeVersion.toNat then 7
  else if !contentOk before c then 8
  else 0

/-- Ascending patch_id; equal ones keep their order. -/
def insCont (c : Container) : List Container → List Container
  | [] => [c]
  | d :: l => if contId c < contId d then c :: d :: l else d :: insCont c l

def sortConts : List Container → List Container
  | [] => []
  | c :: l => insCont c (sortConts l)

/-- The containers that the patch directory names; an absent or invalid directory names none (R540). -/
def dirConts (d : PatchDir) : List Container :=
  let n := field d.head 0 2
  if d.head.length < 16 || 16 < n || !zeros (slice d.head 2 14) || d.head.length < 16 + 8 * n then []
  else ((List.range n).zip d.conts).map fun e => { bytes := e.2.bytes.take (field d.head (16 + 8 * e.1 + 4) 4) }

end Sys2Proof.Machine
end

