-- ==== Sys2Proof/Machine/Boot.lean ====
section
/-! DEFINITION. Reset and boot (R102–R122, R532–R546, R557–R560). -/

namespace Sys2Proof.Machine

/-! ### Reset (R532, R533) -/

/-- What the calibration store holds of an instance: it outlives power (R501, R504). -/
def CalInst.stored (c : CalInst) : CalInst :=
  { genA := c.genA, genB := c.genB, imgA := c.imgA, imgB := c.imgB }

/-- PD00 AON at its power-up state and every other domain Off. Fuses and the calibration store keep what they hold;
the pins stand as the board drives them. -/
def poweredUp (s : State) : State :=
  { State.reset with
    pending := s.pending
    free := s.free
    sys := { refclk := s.sys.refclk, resetLow := s.sys.resetLow, trigPins := s.sys.trigPins }
    calib := { inst := tmap {} (fun _ c => c.stored) s.calib.inst }
    boot := { fwMin := s.boot.fwMin }
    patches := { minSv := s.patches.minSv } }

/-- Steps 2 to 4 of a device reset: the time keeper keeps device time, its state, the coarse count and the settings of
its domains; its timers, windows and TIME_OUTs stop (R533). Boot begins again at step 0. -/
def finishReset (s : State) : State :=
  let t := loseSources (fun a => a.source == 1 || a.source == 3) id s
  { poweredUp s with
    now := s.now
    time := { t.time with timers := [], windows := [], touts := [] }
    refLog := { active := true, start := s.coarse }
    boot := { fwMin := s.boot.fwMin, start := s.now } }

/-- Step 1 of a device reset: the safe state, for 10 µs (R533). -/
def beginReset (s : State) : State :=
  if s.sys.resetAt.isSome then s else { safeDevice s with sys := { s.sys with resetAt := some (s.now + us 10) } }

/-- A device reset whose 10 µs have passed is carried out. -/
def resetDue (s : State) : State :=
  match s.sys.resetAt with
  | some t => if t ≤ s.now then finishReset s else s
  | none => s

/-- POWER_UP. -/
def execPowerUp (s : State) : Host.Outcome State Fault Refusal := .next (poweredUp s)

/-- RESET_N low for 1 µs. -/
def execResetN (s : State) : Host.Outcome State Fault Refusal :=
  .next (if !s.sys.railsOk then { s with sys := { s.sys with resetLow := true } }
    else let s := beginReset s
      { s with sys := { s.sys with resetLow := true } })

/-- RESET_N_RELEASE: boot begins at step 0 (R557). -/
def execResetNRelease (s : State) : Host.Outcome State Fault Refusal :=
  .next (if !s.sys.resetLow then s
    else { s with sys := { s.sys with resetLow := false }
                  boot := if s.sys.resetAt.isSome then s.boot else { s.boot with start := s.now } })

/-- SUPPLY_LOSS (R558): nothing is powered, and every output floats. -/
def execSupplyLoss (s : State) : Host.Outcome State Fault Refusal :=
  .next (let p := poweredUp s
    { p with domains := [], sys := { p.sys with railsOk := false } })

/-! ### REFCLK (R534, R560) -/

/-- Boot is at a step and runs. -/
def State.booting (s : State) (step : Nat) : Bool :=
  s.sys.mode == .boot && s.boot.step == step && !s.sys.resetLow && s.sys.railsOk && s.sys.resetAt.isNone

def bootStep (n : Nat) (s : State) : State := { s with boot := { s.boot with step := n } }

/-- REFCLK_VALID: step 0 ends once REFCLK is there. -/
def execRefclkValid (s : State) : Host.Outcome State Fault Refusal :=
  .next (let t : State := { s with sys := { s.sys with refclk := true } }
    if s.booting 0 then bootStep 1 t else t)

/-- REFCLK_LOSS: the loops unlock, and measurements show it (R354, R560). -/
def execRefclkLoss (s : State) : Host.Outcome State Fault Refusal :=
  .next (let s : State := { s with sys := { s.sys with refclk := false } }
    let s := each (fun k s => s.modStampChan k fun c => { c with locked := false, cald := 0 }) [0, 1, 2] s
    tiuUnlock (fun _ => true) s)

/-! ### Wakes in boot (R451, R542) -/

/-- How long a wake in boot takes, and the step at which one fails, are free values. -/
def bootWake (d : Nat) (ok : Bool) (i : RestoreInfo) (s : State) : State :=
  let v := Config.freeNat s.free
  let step : WakeStep := match v % 4 with | 0 => .regulator | 1 => .oscillator | 2 => .isolation | _ => .restore
  let s := (beginWake d 1 0 { s with free := s.free + 1 }).modDom d fun k => { k with step }
  if ok then (nowOn d (freshDomain d i s)).modDom d fun k => { k with wakeUs := v }
  else failWake d s

/-- Nothing that a wake reads is bad. -/
def goodInfo : RestoreInfo := { banks := [], dies := [], badTiles := 0, upA := [], upB := [], badF := [] }

/-- BOOT_HOST: PD01 MGMT, then PD02 HOST; code 10 where one fails (R535, R536). -/
def execBootHost (mgmtOk hostOk : Bool) (s : State) : Host.Outcome State Fault Refusal :=
  .next (if !s.booting 1 then s
    else
      let s := bootWake 1 mgmtOk goodInfo s
      if !mgmtOk then bootStep 10 s
      else bootStep (if hostOk then 2 else 10) (bootWake 2 hostOk goodInfo s))

/-! ### Flash (R537–R541) -/

/-- The boot configuration takes effect. Settings of domain A that a reset kept and that are the same go on. -/
def applyCfg (c : BootCfg) (s : State) : State :=
  let n := cfgDevnum c
  let assigned := n.testBit 15
  let s := { s with
    boot := { s.boot with
      offmask := cfgOffmask c, devnum := bits n 0 14, assigned, autosel := (cfgFlags c).testBit 0
      gen1 := (cfgFlags c).testBit 1, jvlOff := cfgJvlOff c }
    side := { s.side with static_ := if cfgI2c c = 0 then 0x4C else cfgI2c c }
    sys := { s.sys with devnum := if assigned then bits n 0 14 else 0, dnv := assigned } }
  if cfgNoDomainA c || (s.tdom 0).set = cfgDomainA c then s
  else s.setTdom 0 { startDom (cfgDomainA c) with tracked := (s.tdom 0).tracked }

/-- BOOT_FLASH: code 8 where no flash answers or the header is invalid. -/
def execBootFlash (answers noSfdp : Bool) (flashId : Nat) (hdr : BootHdr) (cfg : BootCfg) (s : State) :
    Host.Outcome State Fault Refusal :=
  .next (if !s.booting 2 then s
    else
      let s : State := { s with boot := { s.boot with noSfdp := answers && noSfdp, flashId := if answers then flashId % 2 ^ 24 else 0 } }
      if !answers || !bootHdrOk hdr noSfdp then bootStep 8 s
      else if bootCfgOk cfg then bootStep 3 (applyCfg cfg s)
      else bootStep 3 { s with boot := { s.boot with cfgInvalid := true } })

/-! ### Firmware (R539) -/

/-- The least sec_ver of firmware: fused, or raised by a boot. -/
def State.fwMinimum (s : State) : Nat := max Config.fusedFwMin.val s.boot.fwMin

/-- The result of a slot's checks 1–6, its sec_ver held to the firmware minimum (R539). -/
def slotResult (least : Nat) (f : Container) : Nat := headResult 0x5746485A (8 * 2 ^ 20) least f

/-- Slot A is tried first. -/
def slotAFirst (a b : Container) : Bool :=
  contSec b < contSec a || (contSec a == contSec b && decide (contVer b ≤ contVer a))

/-- The firmware of a slot starts. -/
def startFw (slot : Nat) (f : Container) (fallback : Bool) (s : State) : State :=
  bootStep 4 { s with boot := { s.boot with
    fwSlot := slot, fwVer := contVer f, fwSv := contSec f, fwRaise := (contFlags f).testBit 0, fallback } }

/-- BOOT_FIRMWARE: the first slot in order that passes; code 9 where neither does. -/
def execBootFirmware (a b : Container) (s : State) : Host.Outcome State Fault Refusal :=
  .next (if !s.booting 3 then s
    else
      let ra := slotResult s.fwMinimum a
      let rb := slotResult s.fwMinimum b
      let note (na nb : Nat) (s : State) : State := { s with boot := { s.boot with resultA := na, resultB := nb } }
      if slotAFirst a b then
        if ra = 0 then startFw 0 a false (note 0 0xFF s)
        else if rb = 0 then startFw 1 b true (note ra 0 s)
        else bootStep 9 (note ra rb s)
      else
        if rb = 0 then startFw 1 b false (note 0xFF 0 s)
        else if ra = 0 then startFw 0 a true (note 0 rb s)
        else bootStep 9 (note ra rb s))

/-! ### Domains (R535, R542) -/

/-- The die that fails training, and its result (R513). -/
def badDie (dies : List (Nat × Nat × Nat)) : Nat × Nat :=
  match ((List.range dies.length).zip dies).find? fun e => !diesPass [e.2] with
  | some e => (e.1, e.2.1)
  | none => (0, 0)

/-- One wake of step 4; PD04 MEM trains, and its failure is the MEMTRAIN doubt (R432). -/
def bootDomain (failed : Nat) (dies : List (Nat × Nat × Nat)) (i : RestoreInfo) (d : Nat) (s : State) : State :=
  if s.boot.offmask.testBit d then s
  else
    let ok := !failed.testBit d && (d != 4 || diesPass dies)
    let s := bootWake d ok i s
    let s := if d = 4 then trainDies dies s else s
    if ok then s
    else
      let s := { s with boot := { s.boot with failedDoms := s.boot.failedDoms ||| 2 ^ d } }
      if d = 4 then doubtDevice 10 (le 1 (badDie dies).1 ++ le 1 (badDie dies).2 ++ pad 30) (setSum 9 s) else s

/-- BOOT_DOMAINS: PD03–PD23 in ascending order, but for those left Off. -/
def execBootDomains (failed : Nat) (dies : List (Nat × Nat × Nat)) (info : RestoreInfo) (s : State) :
    Host.Outcome State Fault Refusal :=
  .next (if !s.booting 4 then s
    else bootStep 5 (each (bootDomain failed dies info) ((List.range 21).map (3 + ·)) s))

/-! ### Patches (R116–R122) -/

/-- The least sec_ver of patches. -/
def State.patchMinimum (s : State) : Nat := max Config.fusedPatchMin.val s.patches.minSv

/-- The results of the containers, each beside those before it. -/
def contResults (ninth : Bool) (min : Nat) : List Container → List Container → List Nat
  | _, [] => []
  | before, c :: l => contResult ninth min before c :: contResults ninth min (before ++ [c]) l

/-- A container as PATCH_STATUS reports it (R428): words only where they were written. -/
def loadedCont (c : Container) (result : Nat) (written : Bool) : LoadedCont :=
  let w := if written then contWords c else []
  { patchId := contId c, patchVer := contVer c, secVer := contSec c, result, words := w.length
    first := match w with | [] => 0 | a :: l => l.foldl (fun m x => Nat.min m x.1) a.1 }

/-- The doubt of a container that is not loaded (R122). -/
def contDoubt (un : Nat) (k : LoadedCont) (s : State) : State :=
  if k.result = 0 then s
  else
    let code := if 3 ≤ k.result && k.result ≤ 6 then 9 else 8
    doubtDevice code (le 8 un ++ le 2 k.patchId ++ le 1 k.result ++ pad 21) (setSum 11 s)

/-- BOOT_PATCH: all containers apply or none (R119–R121); a tile that reads back wrong is unavailable. -/
def execBootPatch (dir : PatchDir) (badTiles : Nat) (s : State) : Host.Outcome State Fault Refusal :=
  .next (if !s.booting 5 then s
    else
      let cs := dirConts dir
      let l := (sortConts cs).take 8
      let results := contResults (decide (8 < cs.length)) s.patchMinimum [] l
      let ok := results.all (· == 0)
      let tiles := if ok && decide (l ≠ []) then
          (List.range 64).filter fun t => badTiles.testBit t && s.isOn (6 + t / 8) else []
      let conts := (l.zip results).map fun e => loadedCont e.1 (if e.2 = 0 && tiles ≠ [] then 9 else e.2) ok
      let un := (tiles.map (2 ^ ·)).sum
      let raise := if ok && decide (tiles = []) then
          (l.filter fun c => (contFlags c).testBit 0).foldl (fun m c => Nat.max m (contSec c)) 0 else 0
      let p := s.patches
      let words := (l.flatMap contWords).foldl (fun m e => tset 0 m e.1 (BitVec.ofNat 24 e.2)) ([] : Tab (BitVec 24))
      let dispatch := (l.flatMap contDisp).foldl (fun m e => tset none m e.1 (some e.2)) ([] : Tab (Option Nat))
      let s : State := { s with
        patches := { p with conts, unavailable := p.unavailable ++ tiles.filter (fun t => !p.unavailable.contains t), words := if ok then words else [], dispatch := if ok then dispatch else [] }
        boot := { s.boot with patchRaise := raise } }
      bootStep 6 (each (contDoubt un) conts s))

/-! ### The end of boot (R26, R61, R121, R535, R539) -/

/-- BOOT_FINAL: minimum security versions are raised, the governor starts, and BOOT ends. -/
def execBootFinal (s : State) : Host.Outcome State Fault Refusal :=
  .next (if !s.booting 6 then s
    else
      let good := decide (s.devFault.codes = [])
      let raised := good && s.boot.fwRaise && decide (s.fwMinimum < s.boot.fwSv)
      let b := s.boot
      let s : State := { s with
        boot := { b with
          step := 7, bootUs := (s.now - b.start) / 20000, fwRaised := raised, fwMin := if raised then b.fwSv else b.fwMin }
        patches := { s.patches with minSv := max s.patches.minSv b.patchRaise }
        gov := { on := true, since := s.now }
        sys := { s.sys with bootedOk := s.sys.bootedOk || good } }
      hbRestart (if good then setMode .configure s else enterSafe s))

end Sys2Proof.Machine
end

