-- ==== Sys2Proof/Machine/Cal.lean ====
section
/-! DEFINITION. The calibration commands and the ends of their runs (R488–R507). -/

namespace Sys2Proof.Machine

/-- A target is listed for a scope; for CENTROID it is a cell of this device. -/
def State.calTarget (s : State) (scope target : Nat) : Bool :=
  target == 0xFFFFFFFF || (if scope = 2 then s.isLocal target && s.cellExists target else (instOf scope target).isSome)

/-- CAL_RUN of a signal-traced scope: measuring begins. -/
def beginMeasure (ramp i : Nat) (s : State) : State :=
  s.modCal i fun c => { c with st := 1, rampLen := ramp, runAt := s.now, crossed := [] }

/-- Insert a trim among those of its scope that wait, in ascending order; the one in progress stays first. -/
def queueTrim (i : Nat) : List Nat → List Nat
  | [] => [i]
  | h :: t => h :: ((t.filter (· < i)) ++ i :: t.filter (i < ·))

/-- CAL_RUN (R488, R489, R499). -/
def calRunReply (scope target ramp : Nat) (s : State) : Reply :=
  let is_ := namedInsts scope target
  if !scopeOk scope then .bad s 0
  else if !s.calTarget scope target then .bad s 4
  else if 65536 < ramp then .bad s 8
  else
    let r := if ramp = 0 then (s.scope scope).ramp else ramp
    if scope = 2 then
      let bs := s.centBurins target
      if bs.any fun b => (s.cent b).on || (s.scope 2).auto || (s.cent b).ramp.isSome then .busy s
      else { s := each (fun b s => s.setCent b { s.cent b with on := true, sums := [], got := [], rampLen := r }) bs s
             wait := if bs = [] then .nothing else .cal 2 target }
    else if analogue scope then
      if is_.any fun i => s.instUsed i || (tget [] s.calib.trimQ scope).contains i then .busy s
      else match is_.find? (fun i => !s.isOn (instDom i)) with
        | some i => .no s stInvalid (.domain (instDom i))
        | none =>
          let q := tget [] s.calib.trimQ scope
          if is_.any fun i => s.testing (instDom i) then .busy s else
          let s := { s with calib := { s.calib with trimQ := tset [] s.calib.trimQ scope (is_.foldl (fun l i => queueTrim i l) q) } }
          { s := if q = [] then beginTrim scope s else s, wait := .cal scope target }
    else if is_.any fun i => (s.calI i).st = 1 || (s.calI i).ramp.isSome || (s.calI i).st = 3 then .busy s
    else match is_.find? (fun i => !s.isOn (instDom i)) with
      | some i => .no s stInvalid (.domain (instDom i))
      | none => if is_.any fun i => s.testing (instDom i) then .busy s else { s := each (beginMeasure r) is_ s, wait := .cal scope target }

def execCalRun (h : Hdr) (scope target ramp : Nat) (s : State) : Host.Outcome State Fault Refusal :=
  .next (command h 0x48 12 [.ready, .run, .calibrate, .service] (calRunReply scope target ramp) s)

/-- CAL_COMMIT (R486, R488, R495, R505). -/
def calCommitReply (scope target ramp : Nat) (s : State) : Reply :=
  let is_ := namedInsts scope target
  if !scopeOk scope || scope = 2 then .bad s 0
  else if !s.calTarget scope target then .bad s 4
  else if ramp ≠ 0 then .bad s 8
  else match is_.find? (fun i => !s.windowOpen i) with
    | some i => .no s stThermal (.thermal (if s.nodeOpen 1 then instDom i else 1))
    | none =>
      { s := each (fun i s => s.modCal i fun c => { c with writeDue := true, commit := true }) is_ s, wait := .cal scope target }

def execCalCommit (h : Hdr) (scope target ramp : Nat) (s : State) : Host.Outcome State Fault Refusal :=
  .next (command h 0x49 12 [.ready, .run, .calibrate, .service] (calCommitReply scope target ramp) s)

/-- CAL_SET (R495): 0 selects a default. -/
def calSetReply (scope : Nat) (auto : Bool) (dtemp cwin cdead ramp : Nat) (s : State) : Reply :=
  if !scopeOk scope then .bad s 0
  else if dtemp ≠ 0 && (dtemp < 8 || 480 < dtemp) then .bad s 4
  else if cwin ≠ 0 && (cwin < 16 || 65535 < cwin) then .bad s 6
  else if 4096 < cdead then .bad s 8
  else if 65536 < ramp then .bad s 12
  else
    let v : CalScope :=
      { auto := auto && !analogue scope
        dtemp := if dtemp = 0 then 48 else dtemp, cwin := if cwin = 0 then 1024 else cwin
        cdead := if cdead = 0 then 16 else cdead, ramp := if ramp = 0 then 256 else ramp }
    { s := { s with calib := { s.calib with scopes := tset (scopeDefault scope) s.calib.scopes scope v } } }

def execCalSet (h : Hdr) (scope : Nat) (auto : Bool) (dtemp cwin cdead ramp : Nat) (s : State) : Host.Outcome State Fault Refusal :=
  .next (command h 0x4A 16 openModes (calSetReply scope auto dtemp cwin cdead ramp) s)

/-! ### Ends of runs -/

def clampTo (lo hi v : Int) : Int := max lo (min hi v)

/-- The ADC values of R490 by index, clamped, and whether some lay beyond its range: offset in 1/16 code,
gain in 2^-20 less unity, skew in 0.01 ps. -/
def adcValues (est : List (Int × Int × Int)) : List (Nat × Int) × Bool :=
  let one (k : Nat) (e : Int × Int × Int) : List (Nat × Int × Int) :=
    [(3 * k, clampTo (-1024) 1024 e.1, e.1), (3 * k + 1, clampTo 996148 1101004 e.2.1 - 1048576, e.2.1 - 1048576)
    , (3 * k + 2, clampTo (-200) 200 e.2.2, e.2.2)]
  let l := ((List.range 32).zip est).flatMap fun p => one p.1 p.2
  (l.map fun e => (e.1, e.2.1), l.any fun e => decide (e.2.1 ≠ e.2.2))

/-- The estimates of R490 from what a run has gathered of its 32 sub-converters, `n` samples of each: the sum of the samples,
the sum of their squares, and the skew that their correlation gives, in 0.01 ps. The offset is the mean less the mean over all,
in 1/16 code, and the gain the rms about the mean over that of all, in 2^-20; both to the nearest, halves up. -/
def adcEstimates (n : Nat) (l : List (Int × Int × Int)) : List (Int × Int × Int) :=
  let k : Int := (l.length : Int)
  let total := (l.map fun e => e.1).sum
  let spread (e : Int × Int × Int) : Nat := ((n : Int) * e.2.1 - e.1 * e.1).toNat
  let all := (l.map spread).sum
  l.map fun e =>
    ( (2 * 16 * (k * e.1 - total) + k * n) / (2 * k * n)
    , (((isqrt 64 (2 ^ 42 * l.length * spread e / all) 0 + 1) / 2 : Nat) : Int)
    , e.2.2)

/-- The ladder corrections of R491 by index, clamped to ±32 LSB: channel, segment, value in 1/16 LSB. -/
def zValues (est : List (Nat × Nat × Int)) : List (Nat × Int) × Bool :=
  (est.map fun (z, seg, v) => (64 * (z % 64) + seg % 64, clampTo (-512) 512 v), est.any fun e => 512 < e.2.2.natAbs)

/-- Values as differences from an instance's start. -/
def fromStart (i : Nat) (v : CalVals) (l : List (Nat × Int)) : List (Nat × Int) :=
  l.map fun e => (e.1, e.2 - (if v.fact then Config.factoryCal i e.1 else 0))

/-- Samples that an ADC_BLIND run collects of each sub-converter, and the ticks that takes at 625 MS/s (R490). -/
def blindSamples : Nat := 2 ^ 24
def blindTicks : Nat := blindSamples * 32

/-- The estimates of the segments that the run saw crossed often enough (R491). -/
def CalInst.counted (c : CalInst) (est : List (Nat × Nat × Int)) : List (Nat × Nat × Int) :=
  est.filter fun (z, seg, _) => decide (4096 ≤ tget 0 c.crossed (64 * (z % 64) + seg % 64))

/-- A signal-traced run ends (R493, R494, R496). -/
def endRunOf (i : Nat) (starved : Bool) (l : List (Nat × Int)) (beyond : Bool) (s : State) : State :=
  if (s.calI i).st ≠ 1 then s
  else
    let c := s.calI i
    let c := { c with runs := c.runs.bump }
    let c := if starved then { c with starved := c.starved.bump, st := if c.ramp.isSome then 2 else 0 }
      else { c.aim (fromStart i c.vals l) with st := 2, tjRun := s.tj16 (instDom i), tjMeas := s.tj16 (instDom i), trimDue := c.trimDue || beyond }
    settleCal (s.modCal i fun _ => c)

/-- ADC_BLIND_RUN_END (R490): `stats` as adcEstimates takes them, `extremes` how many of all the samples were at an ADC
extreme: the run is starved by more than 1 %. -/
def execAdcBlindRunEnd (port : Fin 16) (rmsLow : Bool) (extremes : Nat) (stats : List (Int × Int × Int)) (s : State) :
    Host.Outcome State Fault Refusal :=
  let v := adcValues (adcEstimates blindSamples stats)
  .next (if s.now < (s.calI port.val).runAt + blindTicks then s
    else endRunOf port.val (rmsLow || decide (32 * blindSamples < 100 * extremes)) v.1 v.2 s)

def execZstatRunEnd (q : Fin 4) (est : List (Nat × Nat × Int)) (s : State) : Host.Outcome State Fault Refusal :=
  let est := (s.calI (64 + q.val)).counted est
  let v := zValues est
  .next (endRunOf (64 + q.val) (decide (est = [])) v.1 v.2 s)

/-- TRIM_END (R494, R499, R500, R505): the target returns to service with its values at once, and the next trim
of the scope begins. -/
def execTrimEnd (scope target : Nat) (est : List (Int × Int × Int)) (zest : List (Nat × Nat × Int)) (s : State) :
    Host.Outcome State Fault Refusal :=
  .next (match instOf scope target, tget [] s.calib.trimQ scope with
    | some i, h :: rest =>
      if i ≠ h || !analogue scope then s
      else
        let l := if i < 16 then (adcValues est).1 else if 64 ≤ i then (zValues zest).1 else []
        let s := s.modCal i fun c => { c with
          vals := setVals (fromStart i c.vals l) c.vals, trimDue := false, runs := c.runs.bump
          trimmed := true, tjMeas := s.tj16 (instDom i)
          tjTrim := s.tj16 (instDom i), tjRun := if l = [] then c.tjRun else s.tj16 (instDom i) }
        let s := dueWrite i (endService i s)
        let s := { s with calib := { s.calib with trimQ := tset [] s.calib.trimQ scope rest } }
        settleCal (beginTrim scope s)
    | _, _ => s)

/-- One copy of an instance is written and read back (R504). -/
def writeCopy (i : Nat) (a : Bool) (gen : Nat) (img : List Byte) (c : CalInst) : CalInst :=
  let gen := if recordOk i img then gen else 0
  if a then { c with genA := gen, imgA := img } else { c with genB := gen, imgB := img }

/-- STORE_WRITE (R486, R503–R505): the older or invalid copy first, verified, then the other. A write that fails
its check leaves that copy invalid; the operands are the bytes that do not take what is written. -/
def execStoreWrite (inst : Fin 68) (upFirst upSecond : List (Nat × Byte)) (s : State) : Host.Outcome State Fault Refusal :=
  .next (let i := inst.val
    let c := s.calI i
    let late := match c.lastWrite with | some t => decide (s.now < t + 10 * ticksPerSec) | none => false
    if !c.writeDue || !s.windowOpen i || (late && !c.commit) then s
    else
      let g := max c.genA c.genB + 1
      let rec_ := s.storeRecord i g c.tjMeas (if c.commit then c.target else c.vals)
      let firstA := decide (c.genA ≤ c.genB)
      let first := upset upFirst rec_
      let second := upset upSecond rec_
      let c := writeCopy i firstA g first c
      let c := if recordOk i first then writeCopy i (!firstA) g second c else c
      let c := { c with
        writeDue := false, commit := false, lastWrite := some s.now, st := if c.st = 4 then 0 else c.st
        storeErrs := if recordOk i first && recordOk i second then c.storeErrs else c.storeErrs.bump }
      settleCal (s.modCal i fun _ => c))

/-- The burin's table waits for a CELL_LOAD or CELL_CONFIGURE between its phases (R251). -/
def State.cellPending (s : State) (b : Nat) : Bool :=
  s.host.sqs.any fun e => e.2.flight.any fun f => match f.wait with
    | .votes _ _ _ _ (.load c _ _ _ _ _ _ _) => (s.burinsOf c).contains b
    | .votes _ _ _ _ (.configure c _) => (s.burinsOf c).contains b
    | _ => false

/-- CENTROID_UPDATE (R251, R496): one step of the ramp in an idle interval, the whole table at once. -/
def execCentroidUpdate (b : BurinId) (s : State) : Host.Outcome State Fault Refusal :=
  .next (let t := s.cent b.val
    let r := s.burin b.val
    match t.ramp, r.ctab with
    | some p, some (a, _, form) =>
      if !t.due || r.running || decide (r.held ≠ []) || s.proofCovers b.val || s.cellPending b.val || !s.isOn (folioDom b.val) then s
      else
        let (l, rest) := p.step
        let put (m : Tab Word) (e : Nat × Int) : Tab Word :=
          let k := (a + e.1 / 2 * (1 + form)) % 4096
          let w := (tget 0 m k).toNat
          let w' := if e.1 % 2 = 0 then w / 65536 * 65536 + low 16 e.2 else w % 65536 + low 16 e.2 * 65536
          tset 0 m k (BitVec.ofNat 32 w')
        let s := s.setCent b.val { t with ramp := rest, due := false }
        s.modBurin b.val fun r => { r with regs := { r.regs with dmem := l.foldl put r.regs.dmem } }
    | _, _ => s)

end Sys2Proof.Machine
end

