-- ==== Sys2Proof/Machine/Complex.lean ====
section
/-! DEFINITION. Complex and accumulator instructions of a burin (R72–R77, R97). -/

namespace Sys2Proof.Machine

/-- gd ← a complex value narrowed by s. -/
def cplx (b : BurinId) (w : Nat) (gd : GReg) (n : Nat) (f : Regs → Int × Int) (s : State) : Host.Outcome State Fault Refusal :=
  plain b w (fun r => setCpx gd.val (f r).1 (f r).2 n r) s

def optM (m : Option MReg) : Nat := match m with | some k => k.val | none => 0
def optU (m : Option MReg) : Nat := if m.isSome then 1 else 0

def execCadd (b : BurinId) (gd ga gb : GReg) (s : State) : Host.Outcome State Fault Refusal :=
  cplx b (encRG 0x50 gd.val ga.val gb.val) gd 0 (fun r =>
    let x := gr r ga.val; let y := gr r gb.val; (cI x + cI y, cQ x + cQ y)) s

def execCsub (b : BurinId) (gd ga gb : GReg) (s : State) : Host.Outcome State Fault Refusal :=
  cplx b (encRG 0x51 gd.val ga.val gb.val) gd 0 (fun r =>
    let x := gr r ga.val; let y := gr r gb.val; (cI x - cI y, cQ x - cQ y)) s

def execCsubm (b : BurinId) (g gx : GReg) (pa : PReg) (k : MemKind) (s : State) : Host.Outcome State Fault Refusal :=
  plain b (encMemX 0x52 g.val gx.val pa.val k) (fun r =>
    let x := gr r gx.val
    let y := dm r (memXAddr r gx.val pa.val k)
    setCpx g.val (cI x - cI y) (cQ x - cQ y) 0 (memXPost pa.val k r)) s

def execCmulr (b : BurinId) (gd ga gb : GReg) (s : State) : Host.Outcome State Fault Refusal :=
  cplx b (encRG 0x53 gd.val ga.val gb.val) gd 15 (fun r =>
    (cmulRe (gr r ga.val) (gr r gb.val), cmulIm (gr r ga.val) (gr r gb.val))) s

def execCconj (b : BurinId) (gd ga : GReg) (s : State) : Host.Outcome State Fault Refusal :=
  cplx b (encRG 0x54 gd.val ga.val 0) gd 0 (fun r => (cI (gr r ga.val), -cQ (gr r ga.val))) s

def execCscl (b : BurinId) (gd ga gb : GReg) (s : State) : Host.Outcome State Fault Refusal :=
  cplx b (encRG 0x55 gd.val ga.val gb.val) gd 15 (fun r =>
    (cI (gr r ga.val) * cI (gr r gb.val), cQ (gr r ga.val) * cI (gr r gb.val))) s

def execCmag2 (b : BurinId) (gd ga : GReg) (s : State) : Host.Outcome State Fault Refusal :=
  plain b (encRG 0x56 gd.val ga.val 0) (fun r =>
    let x := gr r ga.val
    setG gd.val (BitVec.ofInt 32 (cI x * cI x + cQ x * cQ x)) r) s

/-- WSQ: U2.14 times Q1.15 squared, unit 2^-44, narrows to U4.28 by 16 bits. -/
def execWsq (b : BurinId) (g gx : GReg) (pa : PReg) (k : MemKind) (s : State) : Host.Outcome State Fault Refusal :=
  plain b (encMemX 0x57 g.val gx.val pa.val k) (fun r =>
    let x := gr r gx.val
    let w := dm r (memXAddr r gx.val pa.val k)
    let v := narrowU ((bits w.toNat 0 16 : Nat) * (cI x * cI x) + (bits w.toNat 16 16 : Nat) * (cQ x * cQ x)) 16
    satIf v.2 (setG g.val v.1 (memXPost pa.val k r))) s

/-- DSQ: unit 2^-30 narrows to U4.28 by 2 bits; both pointers move after both accesses (R77). -/
def execDsq (b : BurinId) (gs : GReg) (pd : PReg) (md : Option MReg) (pa : PReg) (ma : Option MReg) (s : State) : Host.Outcome State Fault Refusal :=
  plain b (encMM 0x58 gs.val pd.val (optM md) (optU md) pa.val (optM ma) (optU ma)) (fun r =>
    let x := gr r gs.val
    let y := dm r (pr r pa.val).toNat
    let i := cI x - cI y
    let q := cQ x - cQ y
    let v := narrowU (i * i + q * q) 2
    optPost pa.val ma (optPost pd.val md (satIf v.2 (setDm (pr r pd.val).toNat v.1 r)))) s

def execCpk (b : BurinId) (gd ga gb : GReg) (s : State) : Host.Outcome State Fault Refusal :=
  plain b (encRG 0x59 gd.val ga.val gb.val) (fun r =>
    setG gd.val ((gr r gb.val).extractLsb' 0 16 ++ (gr r ga.val).extractLsb' 0 16) r) s

def execClra (b : BurinId) (acc : AReg) (s : State) : Host.Outcome State Fault Refusal :=
  plain b (encAC 0x60 0 0 acc.val 0) (accLoad acc.val 0) s

def execMova (b : BurinId) (acc : AReg) (g : GReg) (s : State) : Host.Outcome State Fault Refusal :=
  plain b (encAC 0x61 g.val 0 acc.val 0) (fun r => accLoad acc.val ((gr r g.val).toInt * 32768) r) s

def execMac (b : BurinId) (acc : AReg) (g gb : GReg) (s : State) : Host.Outcome State Fault Refusal :=
  plain b (encAC 0x62 g.val gb.val acc.val 0) (fun r =>
    accPut acc.val (Sys2Proof.Machine.acc r acc.val + cI (gr r g.val) * cI (gr r gb.val)) r) s

def execMsu (b : BurinId) (acc : AReg) (g gb : GReg) (s : State) : Host.Outcome State Fault Refusal :=
  plain b (encAC 0x63 g.val gb.val acc.val 0) (fun r =>
    accPut acc.val (Sys2Proof.Machine.acc r acc.val - cI (gr r g.val) * cI (gr r gb.val)) r) s

def execCmul (b : BurinId) (pair : Fin 2) (g gb : GReg) (s : State) : Host.Outcome State Fault Refusal :=
  plain b (encAC 0x64 g.val gb.val (2 * pair.val) 0) (fun r =>
    accLoad (2 * pair.val + 1) (cmulIm (gr r g.val) (gr r gb.val))
      (accLoad (2 * pair.val) (cmulRe (gr r g.val) (gr r gb.val)) r)) s

def execCmac (b : BurinId) (pair : Fin 2) (g gb : GReg) (s : State) : Host.Outcome State Fault Refusal :=
  plain b (encAC 0x65 g.val gb.val (2 * pair.val) 0) (fun r =>
    pairAdd pair.val (cmulRe (gr r g.val) (gr r gb.val)) (cmulIm (gr r g.val) (gr r gb.val)) r) s

def execCmacj (b : BurinId) (pair : Fin 2) (g gb : GReg) (s : State) : Host.Outcome State Fault Refusal :=
  plain b (encAC 0x66 g.val gb.val (2 * pair.val) 0) (fun r =>
    pairAdd pair.val (cmuljRe (gr r g.val) (gr r gb.val)) (cmuljIm (gr r g.val) (gr r gb.val)) r) s

def execCmacm (b : BurinId) (pair : Fin 2) (g : GReg) (m : Mem) (s : State) : Host.Outcome State Fault Refusal :=
  plain b (encMem 0x67 g.val pair.val m) (fun r =>
    let y := dm r (memAddr r m)
    memPost m (pairAdd pair.val (cmulRe (gr r g.val) y) (cmulIm (gr r g.val) y) r)) s

def execRnd (b : BurinId) (g : GReg) (acc : AReg) (n : Fin 64) (s : State) : Host.Outcome State Fault Refusal :=
  plain b (encAC 0x68 g.val 0 acc.val n.val) (fun r =>
    let v := accNarrow r acc.val n.val (-2147483648) 2147483647
    satIf v.2 (setG g.val (BitVec.ofInt 32 v.1) r)) s

def execRndc (b : BurinId) (g : GReg) (pair : Fin 2) (n : Fin 64) (s : State) : Host.Outcome State Fault Refusal :=
  plain b (encAC 0x69 g.val 0 (2 * pair.val) n.val) (fun r =>
    let x := accNarrow r (2 * pair.val) n.val (-32768) 32767
    let y := accNarrow r (2 * pair.val + 1) n.val (-32768) 32767
    satIf (x.2 || y.2) (setG g.val (cpx x.1 y.1) r)) s

/-- SHA: a narrowing store of the accumulator into itself; an overflowed mark stays (R75). -/
def execSha (b : BurinId) (acc : AReg) (n : Fin 64) (s : State) : Host.Outcome State Fault Refusal :=
  plain b (encAC 0x6A 0 0 acc.val n.val) (fun r =>
    let v := accNarrow r acc.val n.val accMin accMax
    satIf v.2 { r with acc := tset 0 r.acc acc.val (BitVec.ofInt 48 v.1) }) s

end Sys2Proof.Machine
end

