-- ==== Sys2Proof/Machine/Control.lean ====
section
/-! DEFINITION. Control flow of a burin (R82–R87, R97): branches, jumps, repeats and END. -/

namespace Sys2Proof.Machine

/-- A conditional branch. -/
def branchIf (b : BurinId) (w : Nat) (off : BitVec 16) (c : Regs → Bool) (s : State) : Host.Outcome State Fault Refusal :=
  jumps b w (fun r => if c r then branch off r else pass r) s

/-- NOP. -/
def execNop (b : BurinId) (s : State) : Host.Outcome State Fault Refusal :=
  plain b (encNO 0x00) id s

/-- END (R84, R87). -/
def execEnd (b : BurinId) (s : State) : Host.Outcome State Fault Refusal :=
  issue b (encNO 0x01) (endShot b.val) s

/-- JMP. -/
def execJmp (b : BurinId) (off : BitVec 16) (s : State) : Host.Outcome State Fault Refusal :=
  jumps b (encJU 0x02 off.toNat) (branch off) s

/-- JT: n is the field n − 1, the greatest offset. -/
def execJt (b : BurinId) (gs : GReg) (n : Fin 16) (s : State) : Host.Outcome State Fault Refusal :=
  jumps b (encJT 0x03 gs.val n.val) (fun r => goTo (low 16 (r.pc + 1 + (Nat.min (gr r gs.val).toNat n.val : Nat))) r) s

/-- REP: the count is read at issue; len is the field len − 1. -/
def execRep (b : BurinId) (gs : GReg) (len : Fin 256) (s : State) : Host.Outcome State Fault Refusal :=
  jumps b (encRP 0x04 len.val gs.val) (fun r => repeatBody (gr r gs.val).toNat (len.val + 1) r) s

/-- REPI. -/
def execRepi (b : BurinId) (count : BitVec 16) (len : Fin 256) (s : State) : Host.Outcome State Fault Refusal :=
  jumps b (encRQ 0x05 len.val count.toNat) (repeatBody count.toNat (len.val + 1)) s

def execBeq (b : BurinId) (ga gb : GReg) (off : BitVec 16) (s : State) : Host.Outcome State Fault Refusal :=
  branchIf b (encBR 0x08 ga.val gb.val off.toNat) off (fun r => let x := gr r ga.val; let y := gr r gb.val; x == y) s

def execBne (b : BurinId) (ga gb : GReg) (off : BitVec 16) (s : State) : Host.Outcome State Fault Refusal :=
  branchIf b (encBR 0x09 ga.val gb.val off.toNat) off (fun r => let x := gr r ga.val; let y := gr r gb.val; x != y) s

def execBlt (b : BurinId) (ga gb : GReg) (off : BitVec 16) (s : State) : Host.Outcome State Fault Refusal :=
  branchIf b (encBR 0x0A ga.val gb.val off.toNat) off (fun r => let x := gr r ga.val; let y := gr r gb.val; x.slt y) s

def execBge (b : BurinId) (ga gb : GReg) (off : BitVec 16) (s : State) : Host.Outcome State Fault Refusal :=
  branchIf b (encBR 0x0B ga.val gb.val off.toNat) off (fun r => let x := gr r ga.val; let y := gr r gb.val; !x.slt y) s

def execBltu (b : BurinId) (ga gb : GReg) (off : BitVec 16) (s : State) : Host.Outcome State Fault Refusal :=
  branchIf b (encBR 0x0C ga.val gb.val off.toNat) off (fun r => let x := gr r ga.val; let y := gr r gb.val; x.ult y) s

def execBgeu (b : BurinId) (ga gb : GReg) (off : BitVec 16) (s : State) : Host.Outcome State Fault Refusal :=
  branchIf b (encBR 0x0D ga.val gb.val off.toNat) off (fun r => let x := gr r ga.val; let y := gr r gb.val; !x.ult y) s

def execBeqz (b : BurinId) (ga : GReg) (off : BitVec 16) (s : State) : Host.Outcome State Fault Refusal :=
  branchIf b (encBR 0x0E ga.val 0 off.toNat) off (fun r => gr r ga.val == 0) s

def execBnez (b : BurinId) (ga : GReg) (off : BitVec 16) (s : State) : Host.Outcome State Fault Refusal :=
  branchIf b (encBR 0x0F ga.val 0 off.toNat) off (fun r => gr r ga.val != 0) s

end Sys2Proof.Machine
end

