-- ==== Sys2Proof/Machine/Windows.lean ====
section
/-! DEFINITION. Measurement windows and the points they form (R91, R92, R241–R249), and the samples of open streams
(R232, R233). -/

namespace Sys2Proof.Machine

/-! ### Windows -/

/-- The grid of an acquisition tone. -/
def State.grid (s : State) : Grid := toneGrid s.epoch

/-- G of a read-out tone with the bank in use. -/
def State.toneG (s : State) (i : Nat) : Nat :=
  let r := s.rot i
  s.grid.group r.set (if r.firUse = 0 then r.fir0 else r.fir1)

/-- The first label of a tone's grid at or after a tick (R242). -/
def State.firstLabel (s : State) (i tick : Nat) : Nat :=
  let step : Int := ((8 * (s.rot i).set.mad : Nat) : Int)
  let base : Int := (s.epoch : Int) - (s.toneG i : Int)
  (base + ((tick : Int) - base + step - 1) / step * step).toNat

/-- A SEG_PLAY on a probe tone opens a window (R242, R246, R247). -/
def openWindow (i release shot : Nat) (s : State) : State :=
  let r := s.rot i
  if r.set.tmode ≠ 0 || r.set.wen ≠ 1 || !s.isOn (inDom (i / 16)) || (s.acqPort (i / 16)).stipOwner.isSome then s
  else
    let t := s.tone (0x1000 + i)
    let idx := if t.winShot = shot then t.winIdx else 0
    let p0 := s.firstLabel i (release + r.set.woff)
    let fin := p0 + 8 * r.set.mad * (r.set.nw - 1)
    let aligned := (s.acqPort (i / 16)).alignAt.isSome && decide (p0 ≤ s.epoch) && decide (s.epoch ≤ fin)
    let w : Window :=
      { p0, nw := r.set.nw, endTick := fin, idx, shot, bank := r.kerUse, align := aligned, fill := []
        skipped := decide (2 ≤ (r.wins.filter fun w => !w.skipped && !w.done).length) }
    (s.modTone (0x1000 + i) fun n => { n with winShot := shot, winIdx := (idx + 1) % 256 }).modRot i fun r =>
      { r with wins := r.wins ++ [w] }

/-- A FIR output comes to a window (R243). -/
def Window.take (w : Window) (period : Nat) (o : FirOut) : Window :=
  if w.skipped || w.done then w
  else
    let d := o.label - (w.p0 : Int)
    let k := d.toNat / period
    let w := if 0 ≤ d && d % (period : Int) = 0 && k < w.nw && (tget none w.fill k).isNone then
        { w with fill := tset none w.fill k (some (o.i, o.q, bit o.fill 0 + bit o.sat 2 + bit o.swap 3)) }
      else w
    { w with done := decide ((w.endTick : Int) < o.label) || (tget none w.fill (w.nw - 1)).isSome }

/-- The kernel sum (R244). -/
def kernelSum (ker : Tab Word) (w : Window) : Int × Int :=
  w.fill.foldl (fun a e => match e.2 with
    | some (i, q, _) =>
      let k := (tget 0x7FFF ker e.1).toNat
      let wi := sgn 16 k
      let wq := sgn 16 (k / 65536)
      (a.1 + (wi * i - wq * q), a.2 + (wi * q + wq * i))
    | none => a) (0, 0)

/-- The point of a window and its flags (R244, R245). -/
def RoTone.point (r : RoTone) (w : Window) : Word × Nat :=
  let ker := if w.bank = 0 then r.ker0 else r.ker1
  let (a, b) := kernelSum ker w
  let lo : Int := if r.set.kmark = 1 then -32767 else -32768
  let (i, x) := narrow a (15 + r.set.ksh) lo 32767
  let (q, y) := narrow b (15 + r.set.ksh) lo 32767
  let any (k : Nat) : Bool := w.fill.any fun e => match e.2 with | some (_, _, m) => m.testBit k | none => false
  let flags := bit (any 0) 0 + bit w.align 1 + bit (any 2 || x || y) 2 + bit (any 3) 3 + bit w.lost 4 + bit w.skipped 5
  let p : Nat := if r.set.kmark = 1 && flags ≠ 0 then 0x80008000 else if w.skipped then 0 else cword i q
  (BitVec.ofNat 32 p, flags)

/-- A point comes to the FIFO of the tone's owner, or is discarded and counted (R92, R247). -/
def deliver (i : Nat) (w : Window) (s : State) : State :=
  match s.owner (0x1000 + i) with
  | none => s
  | some b =>
    let r := s.burin b
    if !r.running || r.shot ≠ w.shot || 32 ≤ r.iq.length then
      s.setBurin b { r with iqOverruns := r.iqOverruns.bump, iqLost := true }
    else
      let (pt, flags) := (s.rot i).point w
      let q : IqPoint :=
        { pt, tick := w.endTick, slot := (s.slotOf b (0x1000 + i)).getD 0, window := w.idx, flags, shot := w.shot }
      s.setBurin b { r with iq := r.iq ++ [q] }

/-- Points leave in window order; a skipped window's as soon as those before it have left (R246). -/
def deliverReady (i : Nat) : Nat → State → State
  | 0, s => s
  | n + 1, s =>
    match (s.rot i).wins with
    | [] => s
    | w :: rest =>
      if w.done || w.skipped then deliverReady i n (deliver i w (s.modRot i fun r => { r with wins := rest })) else s

/-- A FIR output of a line-mode tone comes to its windows. -/
def windowsTake (i : Nat) (o : FirOut) (s : State) : State :=
  let s := s.modRot i fun r => { r with wins := r.wins.map fun w => w.take (8 * r.set.mad) o }
  deliverReady i (s.rot i).wins.length s

/-- Chain samples [n, n + lost) of a tone are lost: windows with a position among their outputs show it (R245). -/
def windowsLose (i n lost : Nat) (s : State) : State :=
  let g := (s.toneG i : Int)
  s.modRot i fun r => { r with wins := r.wins.map fun w =>
    let hit := (List.range w.nw).any fun k =>
      let tick := ((w.p0 + 8 * r.set.mad * k : Nat) : Int) + g
      (tget none w.fill k).isNone && decide (s.grid.tick n ≤ tick) && decide (tick < s.grid.tick ((n : Int) + (lost : Int)))
    { w with lost := w.lost || (hit && !w.skipped) } }

/-! ### Streams -/

/-- A sample comes to an open stream (R232, R233). `align` tells output 0 after an alignment event. -/
def streamTake (src : Nat) (o : StreamOut) (align : Bool) (overrun : Bool) (s : State) : State :=
  let swap := (s.stream src).swapDue
  let s := if swap then closeBlock src s else s
  let s := s.modStream src fun t => { t with
    samples := t.samples ++ [(o.i, o.q)]
    t0 := if t.samples = [] then some (o.tick, o.frac) else t.t0
    flags := t.flags ||| (o.marks + bit align 1 + bit swap 3 + bit overrun 4)
    swapDue := false }
  if (s.stream src).samples.length = 56 then closeBlock src s else s

/-- A FIR output of a stream-mode chain goes through the resampler to its stream. -/
def chainToStream (src port : Nat) (r : RoTone) (g : Grid) (c : Chain) (o : FirOut) (s : State) : State × Chain :=
  let s := if o.swap && (s.stream src).open_ then s.modStream src fun t => { t with swapDue := true } else s
  match resample r g c o with
  | none => (s, c)
  | some x =>
    let s := s.modAcqPort port fun a => { a with toneSats := a.toneSats.add x.sats }
    if (s.stream src).open_ then
      let first := o.n / r.set.mad = 0 && (s.acqPort port).alignAt.isSome
      (streamTake src x first c.overrun s, { c with overrun := false })
    else (s, c)

/-! ### Inputs of chains (R228) -/

/-- One A2 sample of a read-out tone, mixed at its label, goes through its chain (R216, R228). Answers the FIR output. -/
def toneInput (i k : Nat) (x : Int × Int × Bool) (s : State) : State × Option FirOut :=
  let r := s.rot i
  let g := s.grid
  match r.chain.due k with
  | none => (s, none)
  | some c =>
    let tick := g.tick k
    let t := (s.tone (0x1000 + i)).atTick tick
    let phi := trackAt s t tick + ((t.phase + r.set.aph : Nat) : Int) * 34359738368
    let (c, o, sats) := chainIn r g (s.acqPort (i / 16)).fills (phasor phi) x.1 x.2.1 x.2.2 c
    let s := s.modAcqPort (i / 16) fun a => { a with toneSats := a.toneSats.add sats }
    match o with
    | none => (s.modRot i fun r => { r with chain := c }, none)
    | some o =>
      if r.set.tmode = 1 then
        let (s, c) := chainToStream (i / 16 * 256 + i % 16) (i / 16) r g c o s
        (s.modRot i fun r => { r with chain := c }, some o)
      else (windowsTake i o (s.modRot i fun r => { r with chain := c }), some o)

/-- The chain of a read-out tone runs (R228, R237). -/
def State.toneRuns (s : State) (i : Nat) : Bool :=
  s.isOn (inDom (i / 16)) && decide ((s.rot i).set.tmode ≠ 2) && (s.acqPort (i / 16)).stipOwner.isNone

/-- The channel of a stipple tone: the nearest, halves toward plus infinity (R239). -/
def stipChannel (ftw : Int) : Int := (ftw + 137438953472) / 274877906944

/-- The phase by which B1 mixes channel sample k of a stipple tone, in 2^-51 turn (R238): the residual offset at its label, the
tone's phase, and the half turns by which an odd channel rotates from sample to sample. -/
def stipPhase (g : Grid) (e : StipTone) (k : Nat) : Int :=
  let c := stipChannel e.ftw
  (e.ftw - c * 274877906944) * (g.tick k - (g.delay : Int) - (g.epoch : Int)) + (e.phase : Int) * 34359738368
    + c * (k : Int) * 1125899906842624

/-- One channel sample of a stipple tone goes through its chain. -/
def stipInput (nn t k : Nat) (x : Int × Int × Bool) (s : State) : State :=
  let r := s.rot (0x100 + nn)
  let g := stipGrid s.epoch
  match (s.stipChain (nn * 128 + t)).due k with
  | none => s
  | some c =>
    let (c, o, sats) := chainIn r g (s.acqPort nn).fills (phasor (stipPhase g (tget {} (s.acqPort nn).stip t) k)) x.1 x.2.1 x.2.2 c
    let s := s.modAcqPort nn fun a => { a with toneSats := a.toneSats.add sats }
    match o with
    | none => s.setStipChain (nn * 128 + t) c
    | some o =>
      let (s, c) := chainToStream (nn * 256 + 128 + t) nn r g c o s
      s.setStipChain (nn * 128 + t) c

/-- A stipple tone is served. -/
def State.stipRuns (s : State) (nn t : Nat) : Bool :=
  s.isOn (inDom nn) && (s.acqPort nn).stipOwner.isSome && (tget {} (s.acqPort nn).stip t).en

/-- Samples of a chain are lost (R228): the integrators stand still over them. -/
def Chain.lose (lost : Nat) (c : Chain) : Chain :=
  let h : Word × Word × Bool := match c.hist with | e :: _ => (e.1, e.2.1, false) | [] => (0, 0, false)
  { c with n := c.n + lost, overrun := true, hist := (List.replicate (Nat.min lost 4097) h ++ c.hist).take 4097 }

end Sys2Proof.Machine
end

