-- ==== Sys2Proof/Machine/Tones.lean ====
section
/-! DEFINITION. Entries of tones, playlists and jumps (R160–R178). An entry acts when it is the head of its queue and
its release tick has come; an ill-formed one is discarded by whichever of the rows meets it. -/

namespace Sys2Proof.Machine

/-! ### Descriptors (R160–R163) -/

/-- Word k of a descriptor. -/
def Entry.w (e : Entry) (k : Nat) : Nat := (e.words.getD k 0).toNat

/-- A SEG_PLAY in rule. -/
def Entry.segPlayOk (e : Entry) : Bool :=
  bits (e.w 0) 11 5 == 0 && decide (bits (e.w 0) 16 16 < (if bits (e.w 0) 8 1 = 1 then 1024 else 256)) && bits (e.w 3) 5 27 == 0

/-- The kind of a tone entry; none where it is discarded. -/
def Entry.toneKind (e : Entry) : Option Nat :=
  let k := bits (e.w 0) 0 8
  let ok :=
    if k = 1 then e.segPlayOk
    else if k = 2 then bits (e.w 0) 13 19 == 0 && bits (e.w 3) 16 16 == 0
    else if k = 3 then e.w 0 == 3 && e.w 1 == 0 && e.w 2 == 0 && e.w 3 == 0
    else if k = 4 then
      bits (e.w 0) 9 23 == 0 && decide (e.w 1 < (if bits (e.w 0) 8 1 = 1 then 1024 else 1)) && e.w 2 == 0 && e.w 3 == 0
    else false
  if ok then some k else none

/-! ### Banks -/

def Banks.bank (b : Banks) (k : Nat) : Bank := if k = 0 then b.b0 else b.b1

/-- The bank that a play uses. -/
def State.playBank (s : State) (t : Nat) (p : Play) : Bank := (s.port (tonePort t)).banks.bank p.bank

/-- The segment of a step and its length, if both are defined (R170). -/
def Bank.stepSeg (b : Bank) (k : Nat) : Option (StepE × SegE) :=
  match tget none b.steps k with
  | some e => if (tget {} b.segs e.seg).len = 0 then none else some (e, tget {} b.segs e.seg)
  | none => none

/-- The step in play. -/
def State.stepOf (s : State) (t : Nat) (p : Play) : Option StepE :=
  match p.step with | some k => tget none (s.playBank t p).steps k | none => none

/-- A port counts an event. -/
def countMissing (t : Nat) (s : State) : State := s.modPort (tonePort t) fun p => { p with missing := p.missing.bump }

/-! ### Decision points (R173–R175) -/

/-- The decision point of the segment in play (R173). -/
def Play.decision (p : Play) : Option Nat :=
  if 64 ≤ p.len && p.step.isSome then some (p.start + 8 * p.len - 512) else none

/-- The jump trigger that a step accepts (R171). -/
def State.trigOf (s : State) (t : Nat) (e : StepE) : Option Nat :=
  if e.jsrc = 1 then some (s.ep 5 (resUnit t) 0) else if e.jsrc = 2 then some (s.ep 5 (resUnit t) 1) else none

/-- What happens at the decision point (R175). -/
def decidePlay (t : Nat) (s : State) : State :=
  let n := s.tone t
  match n.play with
  | none => s
  | some p =>
    match s.stepOf t p with
    | none => s
    | some e =>
      let trig := s.trigOf t e
      let flag := match trig, p.decision with
        | some x, some d => (match s.latchTick x with | some t => decide (t < d / 16 * 16) | none => false)
        | _, _ => false
      let s := match trig with | some x => if flag then consume x s else s | none => s
      let target : Option Nat := match n.pend with
        | some (some k) => some k
        | some none => some e.jump
        | none => if flag then some e.jump else none
      let s := s.modTone t fun n => { n with pend := none, play := some { p with decided := true, take := target } }
      if target.isSome then s.modPort (tonePort t) fun q => { q with taken := q.taken.bump } else s

/-- The decision point has come and is not past. -/
def State.decisionDue (s : State) (t tick : Nat) : Bool :=
  match (s.tone t).play with
  | some p => !p.decided && (match p.decision with | some d => decide (d ≤ tick) | none => false)
  | none => false

/-! ### From segment to segment (R172) -/

/-- What follows the segment in play: a step and repetition, or the end, there by an undefined step or not. -/
inductive NextSeg where
  | go (step rep : Nat)
  | done
  | missing
  deriving DecidableEq, Repr

/-- A step to which a playlist goes. -/
def Bank.goStep (b : Bank) (k : Nat) : NextSeg := if (b.stepSeg k).isSome then .go k 0 else .missing

def State.nextSeg (s : State) (t : Nat) (p : Play) : NextSeg :=
  match p.step, s.stepOf t p with
  | some k, some e =>
    match p.take with
    | some j => (s.playBank t p).goStep j
    | none => if p.rep < e.rep then .go k (p.rep + 1) else if e.last then .done else (s.playBank t p).goStep e.next
  | _, _ => .done

/-- The tick at which the segment in play ends. -/
def Play.fin (p : Play) : Nat := p.start + 8 * p.len

/-- A play whose last segment ends at or before a tick is over (R164, R170). -/
def lapse (t tick : Nat) (s : State) : State :=
  match (s.tone t).play with
  | none => s
  | some p =>
    if tick < p.fin then s
    else
      let s' := if s.decisionDue t tick then decidePlay t s else s
      let p' := (s'.tone t).play.getD p
      match s'.nextSeg t p' with
      | .go _ _ => s
      | .done => endPlay t s'
      | .missing => countMissing t (endPlay t s')

/-! ### Release -/

/-- The head of a tone's queue is released if it is of a kind, or in no rule; then `f` acts on it. -/
def releaseTone (t kind : Nat) (f : Entry → State → State) (s : State) : State :=
  match releaseHead t s with
  | none => s
  | some (e, s') =>
    match e.toneKind with
    | none => (dropHead t s).modPort (tonePort t) fun p => { p with bad := p.bad.bump }
    | some k => if k = kind then f e (lapse t e.release.toNat s') else s

/-! ### Segment starts (R172, R177, R178) -/

/-- The root that owns a tone or channel, for marker pulses. -/
def State.pulseRoot (s : State) (res : Nat) : Option Nat := s.resRoot res

/-- The events and marker requests of a segment start of the play on a tone. -/
def segStarts (t : Nat) (s : State) : State :=
  match (s.tone t).play with
  | none => s
  | some p =>
    let e := s.stepOf t p
    let s := if p.evs || (match e with | some x => x.evs | none => false) then raiseEp (s.ep 4 (resUnit t) 0) s else s
    let s := if p.mke then followRequest p.mrk (s.pulseRoot t) p.start s else s
    match e with
    | some x => if x.mke then followRequest x.mrk (s.pulseRoot t) p.start s else s
    | none => s

/-- The effective fine word lies beyond 1 GHz (R153). -/
def beyond (f : Int) : Bool := decide (ftwLimit < f.natAbs)

def countClamp (t : Nat) (over_ : Bool) (s : State) : State :=
  if over_ then s.modPort (tonePort t) fun p => { p with clamps := p.clamps.bump } else s

/-- SEG_PLAY at its release tick (R161, R164, R170, R242). -/
def playSegment (t : Nat) (e : Entry) (s : State) : State :=
  let rel := e.release.toNat
  let s := if (s.tone t).play.isSome then s.modPort (tonePort t) fun p => { p with cuts := p.cuts.bump } else s
  let s := endPlay t s
  let foff := sgn 32 (e.w 2)
  let s := if 0x1000 ≤ t then openWindow (t - 0x1000) rel e.shot s else s
  let id := bits (e.w 0) 16 16
  let b := (s.port (tonePort t)).banks
  let found : Option (Nat × Nat × Option Nat) :=
    if bits (e.w 0) 8 1 = 1 then ((b.bank b.inPlay).stepSeg id).map fun x => (x.1.seg, x.2.len, some id)
    else
      let g := tget {} (b.bank b.inPlay).segs id
      if g.len = 0 then none else some (id, g.len, none)
  match found with
  | none => countMissing t s
  | some (seg, len, step) =>
    let p : Play :=
      { rel, start := rel, bank := b.inPlay, seg, len, step, rep := 0, evs := bits (e.w 0) 9 1 == 1
        mke := bits (e.w 0) 10 1 == 1, mrk := bits (e.w 3) 0 5, amp := bits (e.w 1) 0 16, phase := bits (e.w 1) 16 16
        foff, decided := false, take := none }
    let s := countClamp t (foff ≠ 0 && beyond ((s.tone t).ftw + foff * 65536)) s
    segStarts t (s.modTone t fun n => { n with play := some p })

def execSegPlay (t : ToneId) (s : State) : Host.Outcome State Fault Refusal :=
  .next (releaseTone (tnum t) 1 (playSegment (tnum t)) s)

/-- TONE_SET at its release tick (R162, R164). -/
def setTone (t : Nat) (e : Entry) (s : State) : State :=
  let n := s.tone t
  let set (k : Nat) : Bool := (e.w 0).testBit k
  let ftw := if set 8 then sgn 48 (e.w 1 + bits (e.w 2) 0 16 * 2 ^ 32) else n.ftw
  let foff := match n.play with | some p => p.foff | none => 0
  let s := countClamp t (set 8 && beyond (ftw + foff * 65536)) s
  let s := keepTone e.release.toNat t s
  let s := if set 8 || set 11 then setTrack e.release.toNat ftw (if set 11 then set 12 else n.cont) t s else s
  s.modTone t fun n => { n with
    phase := if set 9 then bits (e.w 2) 16 16 else n.phase
    amp := if set 10 then bits (e.w 3) 0 16 else n.amp }

def execToneSet (t : ToneId) (s : State) : Host.Outcome State Fault Refusal :=
  .next (releaseTone (tnum t) 2 (setTone (tnum t)) s)

/-- STOP (R163): it ends any play and clears the pending request. -/
def execStop (t : ToneId) (s : State) : Host.Outcome State Fault Refusal :=
  .next (releaseTone (tnum t) 3 (fun _ => endPlay (tnum t)) s)

/-! ### Jumps (R173–R176) -/

/-- JUMP at its release tick (R174–R176). A request released after a decision point comes too late for it. -/
def jumpRequest (t : Nat) (e : Entry) (s : State) : State :=
  let rel := e.release.toNat
  let s := if 0 < rel && s.decisionDue t (rel - 1) then decidePlay t s else s
  let n := s.tone t
  let listed := match n.play with | some p => p.step.isSome | none => false
  if listed then
    s.modTone t fun n => { n with pend := some (if bits (e.w 0) 8 1 = 1 then some (bits (e.w 1) 0 10) else none) }
  else s.modPort (tonePort t) fun q => { q with unused := q.unused.bump }

def execJump (t : ToneId) (s : State) : Host.Outcome State Fault Refusal :=
  .next (releaseTone (tnum t) 4 (jumpRequest (tnum t)) s)

/-- DECISION_POINT (R175). -/
def execDecisionPoint (t : ToneId) (s : State) : Host.Outcome State Fault Refusal :=
  .next (if s.decisionDue (tnum t) s.now then decidePlay (tnum t) s else s)

/-! ### From segment to segment -/

/-- SEGMENT_START: the next repetition or step of a playlist starts where the segment before it ends. A decision
point that has come and was not met is met first. -/
def execSegmentStart (t : ToneId) (s : State) : Host.Outcome State Fault Refusal :=
  .next (let t := tnum t
    let s0 := s
    let s := if s.decisionDue t s.now then decidePlay t s else s
    match (s.tone t).play with
    | none => s0
    | some p =>
      if s.now < p.fin then s0
      else match s.nextSeg t p with
        | .go k rep =>
          match (s.playBank t p).stepSeg k with
          | some (e, g) =>
            segStarts t (s.modTone t fun n => { n with play := some { p with
              start := p.fin, seg := e.seg, len := g.len, step := some k, rep, decided := false, take := none } })
          | none => s0
        | _ => s0)

/-- PLAY_END: a single segment, or the last of a playlist, is over; the tone falls silent (R164, R170, R176). -/
def execPlayEnd (t : ToneId) (s : State) : Host.Outcome State Fault Refusal :=
  .next (lapse (tnum t) s.now s)

end Sys2Proof.Machine
end

