-- ==== Sys2Proof/Machine/Loads.lean ====
section
/-! DEFINITION. Loading envelope, fast pulse, FIR and kernel banks (R166–R171, R196, R221, R224, R225, R248, R249,
R422), streams and alignment events (R232–R236). -/

namespace Sys2Proof.Machine

/-! ### When a swap takes place (R169, R225) -/

/-- The armed swap and the origin at which it is to take place; none where it takes place at once. -/
def State.swapPlan (s : State) (root : Option Nat) : Option (Swap × Nat) :=
  match root with
  | some k =>
    if s.running k then (s.root k).series.head?.map fun r => ({ root := k, after := (s.root k).starts }, r.origin) else none
  | none => none

/-- The result of a load without SWAP. -/
def noSwap : Nat := 0xFFFFFFFFFFFFFFFF

/-! ### SEGMENT_LOAD -/

/-- A segment entry in rule (R167). -/
def readSeg (s : State) (a : Nat) : Option SegE :=
  let start := s.numAt a 4
  let len := s.numAt (a + 4) 4
  if start < 131072 && (len = 0 || (2 ≤ len && decide (start + len ≤ 131072))) then some { start, len } else none

/-- A step entry in rule (R171). -/
def readStep (s : State) (a : Nat) : Option StepE :=
  let w0 := s.numAt a 4
  let w1 := s.numAt (a + 4) 4
  if bits w0 27 5 = 0 && bits w1 19 13 = 0 && bits w1 10 2 ≠ 3 then
    some { seg := bits w0 0 8, rep := bits w0 8 8, next := bits w0 16 10, last := bits w0 26 1 == 1
           jump := bits w1 0 10, jsrc := bits w1 10 2, evs := bits w1 12 1 == 1, mke := bits w1 13 1 == 1
           mrk := bits w1 14 5 }
  else none

/-- A port that SEGMENT_LOAD names: a drive or probe port, or a Z quadrant. -/
def loadPortOk (p : Nat) : Bool :=
  decide (p < 32) || (decide (0x100 ≤ p) && decide (p < 0x110)) || (decide (0x200 ≤ p) && decide (p < 0x204))

def isQuad (p : Nat) : Bool := decide (0x200 ≤ p)

/-- The bank pair of a port or quadrant. -/
def State.pair (s : State) (p : Nat) : Banks := if isQuad p then s.zbank (p - 0x200) else (s.port p).banks

def setBanks (p : Nat) (b : Banks) (s : State) : State :=
  if isQuad p then s.setZbank (p - 0x200) b else s.modPort p fun q => { q with banks := b }

/-- The domain of a port or quadrant. -/
def loadDom (p : Nat) : Nat := if isQuad p then 20 + (p - 0x200) else outDom p

/-- A root owns part of a port or quadrant (R169, R196). -/
def State.ownsPort (s : State) (key p : Nat) : Bool :=
  (s.rootRes key).any fun r =>
    if isQuad p then 0x2000 ≤ r && decide (r < 0x3000) && decide ((r - 0x2000) / 64 = p - 0x200)
    else r < 0x2000 && tonePort r == p

/-- The first field of SEGMENT_LOAD that breaks its rule. -/
def segLoadRange (a : SegLoadArgs) : Option Nat :=
  if !loadPortOk a.port then some 0
  else if 131072 < a.sFirst + a.sCount || (isQuad a.port && (a.sFirst % 2 = 1 || a.sCount % 2 = 1)) then some 16
  else if 256 < a.gFirst + a.gCount then some 24
  else if 1024 < a.pFirst + a.pCount || (isQuad a.port && a.pCount ≠ 0) then some 28
  else none

/-- Write the ranges that a load names into a bank. -/
def Bank.load (b : Bank) (first : Nat) (ws : List Word) (gFirst : Nat) (gs : List SegE) (pFirst : Nat)
    (ps : List StepE) : Bank :=
  { samples := tsetRun 0 b.samples first ws
    segs := tsetRun {} b.segs gFirst gs
    steps := tsetRun none b.steps pFirst (ps.map some) }

def Banks.setIdle (b : Banks) (k : Bank) : Banks := if b.inPlay = 0 then { b with b1 := k } else { b with b0 := k }

def segmentLoadReply (a : SegLoadArgs) (s : State) : Reply :=
  let words := if isQuad a.port then a.sCount / 2 else a.sCount
  let n := 4 * words + 8 * a.gCount + 8 * a.pCount
  match segLoadRange a with
  | some o => .bad s o
  | none =>
    if a.swap && !(s.namesRoot a.root && s.ownsPort (s.keyOf a.root) a.port) then .bad s 4
    else if !srcOk a.src n then .bad s 8
    else if !s.isOn (loadDom a.port) then .no s stInvalid (.domain (loadDom a.port))
    else if s.testing (loadDom a.port) then .busy s
    else if !s.isOn 4 then .no s stInvalid (.domain 4)
    else
      let b := s.pair a.port
      if b.draining || b.swap.isSome then .busy s
      else if s.poisoned a.src n then .no (noteUe (s.firstBad a.src n) s) stFault (.field 8)
      else
        let gAt := a.src + 4 * words
        match readItems (readSeg s) 8 gAt a.gCount, readItems (readStep s) 8 (gAt + 8 * a.gCount) a.pCount with
        | some gs, some ps =>
          let ws := (s.wordsAt a.src words).map (BitVec.ofNat 32)
          let first := if isQuad a.port then a.sFirst / 2 else a.sFirst
          let idle := b.bank (1 - b.inPlay)
          let b := b.setIdle (idle.load first ws a.gFirst gs a.pFirst ps)
          if !a.swap then { s := setBanks a.port b s, result := noSwap }
          else match s.swapPlan (some (s.keyOf a.root)) with
            | some (w, origin) => { s := setBanks a.port { b with swap := some w } s, result := origin % 2 ^ 48 }
            | none =>
              let s := setBanks a.port b s
              { s := if isQuad a.port then swapZ (a.port - 0x200) s else swapPort a.port s, result := s.coarse }
        | _, _ => .bad s 8

def execSegmentLoad (h : Hdr) (a : SegLoadArgs) (s : State) : Host.Outcome State Fault Refusal :=
  .next (command h 0x20 32 loadModes (segmentLoadReply a) s)

/-! ### FILTER_LOAD -/

/-- The settings key of a target, and whether it is a stipple port (R422). -/
def filterKey (target : Nat) : Option (Nat × Bool) :=
  if 0x1000 ≤ target && target < 0x1100 then some (target - 0x1000, false)
  else if 0x3000 ≤ target && target < 0x3010 then some (0x100 + (target - 0x3000), true) else none

/-- A FIR bank from its 65 words; none where a reserved field is not 0 (R221). -/
def firOfWords (ws : List Nat) : Option Fir :=
  let cs := ws.take 64
  let g := ws.getD 64 0
  if cs.any (fun w => decide (2 ^ 18 ≤ w)) || 1024 ≤ g then none
  else some { c := tsetRun 0 [] 0 (cs.map fun w => sgn 18 w), gd16 := g }

/-- A kernel bank from its words. -/
def kerOfWords (ws : List Nat) : Tab Word := tsetRun 0x7FFF [] 0 (ws.map (BitVec.ofNat 32))

/-- The bank is in use: it computes outputs, or an open window reads it (R224, R249). -/
def RoTone.bankUsed (r : RoTone) (what bank : Nat) : Bool :=
  if what = 0 then r.firUse == bank else r.kerUse == bank || r.wins.any fun w => w.bank == bank

def RoTone.putBank (r : RoTone) (what bank : Nat) (f : Fir) (k : Tab Word) : RoTone :=
  match what, bank with
  | 0, 0 => { r with fir0 := f }
  | 0, _ => { r with fir1 := f }
  | _, 0 => { r with ker0 := k }
  | _, _ => { r with ker1 := k }

def filterLoadReply (target what bank : Nat) (swap : Bool) (src : Nat) (s : State) : Reply :=
  match filterKey target with
  | none => .bad s 0
  | some (i, stip) =>
    let words := if what = 0 then 65 else 1024
    let nn := if stip then i - 0x100 else i / 16
    if 1 < what || (what = 1 && stip) then .bad s 2
    else if 1 < bank then .bad s 3
    else if !srcOk src (4 * words) then .bad s 8
    else if !s.isOn (inDom nn) then .no s stInvalid (.domain (inDom nn))
    else if s.testing (inDom nn) then .busy s
    else if !s.isOn 4 then .no s stInvalid (.domain 4)
    else
      let r := s.rot i
      if r.bankUsed what bank || r.firSwap.isSome || r.kerSwap.isSome then .busy s
      else if s.poisoned src (4 * words) then .no (noteUe (s.firstBad src (4 * words)) s) stFault (.field 8)
      else
        let ws := s.wordsAt src words
        match (if what = 0 then firOfWords ws else some {}) with
        | none => .bad s 8
        | some f =>
          let s := s.setRot i (r.putBank what bank f (kerOfWords ws))
          if !swap then { s, result := noSwap }
          else match s.swapPlan (s.resRoot target) with
            | some (w, origin) =>
              { s := s.modRot i fun r => if what = 0 then { r with firSwap := some w } else { r with kerSwap := some w }
                result := origin % 2 ^ 48 }
            | none => { s := if what = 0 then swapFir i s else swapKernel i s, result := s.coarse }

def execFilterLoad (h : Hdr) (target what bank : Nat) (swap : Bool) (src : Nat) (s : State) : Host.Outcome State Fault Refusal :=
  .next (command h 0x21 16 openModes (filterLoadReply target what bank swap src) s)

/-! ### STREAM_OPEN and STREAM_CLOSE -/

/-- A source number in rule (R232). -/
def sourceOk (src : Nat) : Bool :=
  decide (src < 4096) && (decide (src % 256 < 16) || decide (128 ≤ src % 256))

def streamOpenReply (src ring : Nat) (s : State) : Reply :=
  if !sourceOk src then .bad s 0
  else if 64 ≤ ring || !(s.ring ring).dev then .bad s 2
  else if (s.stream src).open_ then .busy s
  else { s := s.setStream src { open_ := true, ring } }

def execStreamOpen (h : Hdr) (source ring : Nat) (s : State) : Host.Outcome State Fault Refusal :=
  .next (command h 0x23 4 [.ready, .run, .service] (streamOpenReply source ring) s)

def streamCloseReply (src : Nat) (s : State) : Reply :=
  if !sourceOk src then .bad s 0 else if (s.stream src).open_ then { s := closeStream src s } else { s }

def execStreamClose (h : Hdr) (source : Nat) (s : State) : Host.Outcome State Fault Refusal :=
  .next (command h 0x24 4 anyMode (streamCloseReply source) s)

/-! ### ALIGN (R234, R235) -/

/-- A running cell owns a tone or a stipple port. -/
def State.toneCellRuns (s : State) : Bool :=
  s.runningRoots.any fun k => (s.rootRes k).any fun r => decide (r < 0x2000) || decide (0x3000 ≤ r)

def alignReply (source syncDelay : Nat) (time : Stamp) (s : State) : Reply :=
  let t := s.coarseOf (stampTicks time)
  let soon := s.now + us 10
  if 3 ≤ source then .bad s 0
  else if 65536 ≤ syncDelay then .bad s 2
  else if !stampOk time then .bad s 8
  else if s.toneCellRuns || s.alignArm.isSome then .busy s
  else match source with
    | 0 => { s := { s with alignArm := some (.at soon false) }, result := soon % 2 ^ 48 }
    | 1 => if t < (soon : Int) then .no s stLate (.field 8) else { s := { s with alignArm := some (.at t.toNat true) } }
    | _ => { s := { s with alignArm := some (.sync syncDelay) } }

def execAlign (h : Hdr) (source syncDelay : Nat) (time : Stamp) (s : State) : Host.Outcome State Fault Refusal :=
  .next (command h 0x25 24 openModes (alignReply source syncDelay time) s)

def execAlignCancel (h : Hdr) (s : State) : Host.Outcome State Fault Refusal :=
  .next (command h 0x25 24 openModes (fun s => { s := { s with alignArm := none } }) s)

/-! ### The alignment event (R155, R236) -/

/-- Every chain, track, window and stream at an alignment event at tick `e`. -/
def alignAll (e : Nat) (s : State) : State :=
  let s := { s with
    epoch := e, epochPrev := s.epoch, alignArm := none
    tones := tmap {} (fun _ t => { t with track := 0, trackAt := e, past := [] }) s.tones
    engines := tmap {} (fun _ k => { k with aligned := some (e, k.count) }) s.engines
    ro := tmap {} (fun _ r => { r with wins := r.wins.map fun w =>
      { w with align := w.align || (decide (w.p0 ≤ e) && decide (e ≤ w.endTick)) } }) s.ro }
  let s := each closeBlock (tkeys (s.streams.filter fun x => x.2.open_)) s
  let tai := (s.taiOf (e : Int)).toNat
  each (fun nn s =>
    let s := eachChain (fun _ c => { overrun := c.overrun, swapMark := c.swapMark }) nn s
    s.modAcqPort nn fun a => { a with
      alignments := a.alignments.bump, alignAt := some tai, a2 := [], fills := (0, e) :: a.fills.filter fun r => r.2 == 2 ^ 64 }) (List.range 16) s

/-- ALIGNMENT_EVENT: the armed event's tick has come. -/
def execAlignmentEvent (s : State) : Host.Outcome State Fault Refusal :=
  .next (match s.alignArm with
    | some (.at t _) => if s.now < t then s else alignAll t s
    | _ => s)

end Sys2Proof.Machine
end

