-- ==== Sys2Proof/Machine/Convert.lean ====
section
/-! DEFINITION. What each acquisition port makes of the samples that its converter takes (R209–R212, R228, R238): stages A1, A2
and C, the chains of its tones, and the acquisition engine on it; and the rows that bring samples. A row carries the codes of
the port's ball, one per tick, from where the row before it left off (log 55). -/

namespace Sys2Proof.Machine

/-! ### Stages A1, A2 and C -/

/-- Corrections that leave a code as it is. -/
def neutral (off gain skew : Int) : Bool := off == 0 && gain == 1048576 && skew == 0

/-- Stage A1: the Q1.15 sample of a code; the correction of its sub-converter where there is one (R209, R210, R490). -/
def State.a1 (s : State) (nn tick : Nat) (codes : List Int) : Int :=
  let v := (s.calI nn).vals
  let sub := tick % 32
  let off := calValue nn v (3 * sub)
  let gain := 1048576 + calValue nn v (3 * sub + 1)
  let skew := calValue nn v (3 * sub + 2)
  if neutral off gain skew then codes.headD 0 * 16 else (q15 (Config.stageA1 off gain skew codes) 0).1

/-- A filter over the newest samples: silent in, silent out. -/
def filtered (f : List Int → Int) (l : List Int) : Int × Bool :=
  if l.all (· == 0) then (0, false) else q15 (f l) 16

/-- Samples that stage A2's filter can reach from a label: those within stage A on either side (R212). -/
def a2Taps : Nat := 2 * stageA + 1

/-- Stage A2 for the sample of a tick: the delay line and the components that saturated in the mixer (R211). -/
def State.a2Mix (s : State) (nn tick : Nat) (x : Int) (l : List (Int × Int × Bool)) : List (Int × Int × Bool) × Nat :=
  let (i, q, k) := mixTone (phasor (s.thetaC (s.port (0x100 + nn)).center tick * 8)) x 0
  (push a2Taps (0, 0, false) (i, q, decide (0 < k)) l, k)

/-- The output of stage A2: components, saturation mark, components that saturated in the narrowing. -/
def a2Out (l : List (Int × Int × Bool)) : (Int × Int × Bool) × Nat :=
  let (i, a) := filtered Config.a2Filter (l.map fun e => e.1)
  let (q, b) := filtered Config.a2Filter (l.map fun e => e.2.1)
  ((i, q, a || b || l.any fun e => e.2.2), satCount a b)

/-- Taps of stage C (R238). -/
def bankTaps : Nat := 8192

/-- A channel sample of stage C: components, saturation mark. -/
def channelOut (c : Int) (l : List (Int × Int × Bool)) : Int × Int × Bool :=
  if l.all fun e => decide (e.1 = 0) && decide (e.2.1 = 0) then (0, 0, l.any fun e => e.2.2)
  else
    let y := Config.channelBank c (l.map fun e => (e.1, e.2.1))
    let (i, a) := q15 y.1 16
    let (q, b) := q15 y.2 16
    (i, q, a || b || l.any fun e => e.2.2)

/-! ### The chains -/

/-- √(I² + Q²), rounded half up to U1.15 (R289). -/
def magnitude (i q : Int) : Nat :=
  let v := (i * i + q * q).toNat
  let r := isqrt 17 v 0
  if r * r + r < v then r + 1 else r

/-- One A2 sample comes to the tones of a port in tone mode. Answers what their chains put out, by tone. -/
def toneInputs (nn k : Nat) (x : Int × Int × Bool) (s : State) : State × List (Nat × FirOut) :=
  (List.range 16).foldl (fun a t =>
    if a.1.toneRuns (nn * 16 + t) then
      match toneInput (nn * 16 + t) k x a.1 with
      | (s, some o) => (s, a.2 ++ [(t, o)])
      | (s, none) => (s, a.2)
    else a) (s, [])

/-- The sample of a MAG source (R289, R290): a tone whose chain delivers nothing gives 0. -/
def magSample (nn k : Nat) (outs : List (Nat × FirOut)) (s : State) : State :=
  let a := (s.engine nn).lat
  if a.src ≠ 2 || k % s.magMad nn a ≠ 0 then s
  else
    let out (t : Nat) : Option FirOut := (outs.find? fun e => e.1 == t).map Prod.snd
    let mag (t : Nat) : Nat := match out t with | some o => magnitude o.i o.q | none => 0
    let tones := magTones a.tmask
    let bytes := tones.flatMap (fun t => le 2 (mag t)) ++ pad (sampleBytes a - 2 * tones.length)
    let label : Int := match out a.ttone with | some o => o.label | none => s.grid.tick k - (s.toneG (nn * 16 + a.ttone) : Int)
    engineSample nn label (mag a.ttone) bytes (tones.any fun t => match out t with | some o => o.sat | none => false) s

/-- The scalar of a COARSE source (R294). -/
def coarseScalar (tsel : Nat) (i q : Int) : Int := if tsel = 0 then i else if tsel = 1 then q else magnitude i q

/-- One sample of stage A2 at its label (R211, R228): to a COARSE engine, to the tones, or through stage C to the stipple
tones. -/
def a2Sample (nn : Nat) (label : Int) (x : Int × Int × Bool) (sats : Nat) (s : State) : State :=
  let a := (s.engine nn).lat
  let s := if a.src = 1 then
      engineSample nn label (coarseScalar a.tsel x.1 x.2.1) (le 4 (cword x.1 x.2.1)) (decide (0 < sats)) s
    else s
  if label < (s.epoch : Int) then s
  else
    let k := ((label - (s.epoch : Int)) / 8).toNat
    if (s.acqPort nn).stipOwner.isNone then
      let (s, outs) := toneInputs nn k x s
      magSample nn k outs s
    else
      let s := s.modAcqPort nn fun a => { a with a2 := push bankTaps (0, 0, false) x a.a2 }
      if k % 512 ≠ 0 then s
      else each (fun t s =>
        if s.stipRuns nn t then
          stipInput nn t (k / 512) (channelOut (stipChannel (tget {} (s.acqPort nn).stip t).ftw) (s.acqPort nn).a2) s
        else s) (tkeys (s.acqPort nn).stip) s

/-! ### The converter -/

/-- The grid on which a label of stage A2 lies: that of E from E on, that of the epoch before until then. -/
def State.gridOf (s : State) (label : Int) : Nat := if label < (s.epoch : Int) then s.epochPrev else s.epoch

/-- The converter takes one code (R210). While an ADC_TRIM isolates the input, stage A1 delivers code 0 (R499). -/
def convert (nn : Nat) (code : Int) (s : State) : State :=
  let a := s.acqPort nn
  let tick := a.conv
  let code := if (s.calI nn).st = 3 then 0 else max (-2048) (min 2047 code)
  let over_ := decide (code = -2048) || decide (code = 2047)
  let codes := push 32 0 code a.codes
  let x := s.a1 nn tick codes
  let (mixed, k) := s.a2Mix nn tick x a.mixed
  let s := s.setAcqPort nn { a with
    conv := tick + 1, codes, mixed, overranges := if over_ then a.overranges.bump else a.overranges
    coarseSats := a.coarseSats.add k }
  let s := if (s.engine nn).lat.src = 0 then engineSample nn (tick : Int) x (leI 2 x) over_ s else s
  let label : Int := (tick : Int) - (stageA : Int)
  if label < 0 || (label - (s.gridOf label : Int)) % 8 ≠ 0 then s
  else
    let (y, k) := a2Out mixed
    a2Sample nn label y k (s.modAcqPort nn fun a => { a with coarseSats := a.coarseSats.add k })

/-- Codes of a port, one per tick; none from before its domain was On, and none of a tick to come. -/
def feed (nn : Nat) (xs : List Int) (s : State) : State :=
  if s.isOn (inDom nn) then each (convert nn) (xs.take (s.now + 1 - (s.acqPort nn).conv)) s else s

/-! ### Rows that bring samples (R228, R233, R243, R298, R304, R305) -/

/-- POINT_FORMED: samples of the port of a line-mode tone, among them those that complete a window. -/
def execPointFormed (tone : Fin 256) (xs : List Int) (s : State) : Host.Outcome State Fault Refusal :=
  .next (feed (tone.val / 16) xs s)

/-- STREAM_BLOCK: samples of a port, among them those that fill a block. -/
def execStreamBlock (src : SrcId) (xs : List Int) (s : State) : Host.Outcome State Fault Refusal :=
  .next (match src with
    | .tone i => feed (i.val / 16) xs s
    | .stip nn _ => feed nn.val xs s)

/-- CHAIN_OVERRUN (R228, R245). -/
def execChainOverrun (src : SrcId) (lost : Nat) (s : State) : Host.Outcome State Fault Refusal :=
  .next (let count (nn : Nat) (s : State) := s.modAcqPort nn fun a => { a with chainOverruns := a.chainOverruns.add lost }
    match src with
    | .tone i =>
      if !s.toneRuns i.val then s
      else
        let s := windowsLose i.val (s.rot i.val).chain.n lost (count (i.val / 16) s)
        s.modRot i.val fun r => { r with chain := r.chain.lose lost }
    | .stip nn t =>
      if !s.stipRuns nn.val t.val then s
      else (count nn.val s).modStipChain (nn.val * 128 + t.val) (Chain.lose lost))

/-- The edges and forces that the samples so far have reached act, and the event that is due is raised. -/
def engineSettle (e : Nat) (s : State) : State :=
  let k := s.engine e
  raiseCapture e (match k.det.prev with
    | some p => if k.count = 0 then s else takeEdges e (k.count - 1) p.1 k.edges.length s
    | none => s)

/-- TRIGGER_ACCEPT: samples of the engine's port, among them one that completes the condition; or a stamped edge (R303). -/
def execTriggerAccept (e : Fin 16) (xs : List Int) (s : State) : Host.Outcome State Fault Refusal :=
  .next (engineSettle e.val (feed e.val xs s))

/-- FORCE_TRIGGER (R304): the force flag is consumed in every state; the instant is the first tick of the word in which it is
present. -/
def execForceTrigger (e : Fin 16) (xs : List Int) (s : State) : Host.Outcome State Fault Refusal :=
  .next (let x := s.ep 8 e.val 2
    let s := match s.present x with
      | some t =>
        (consume x s).modEngine e.val fun k =>
          if k.armed && decide (k.st ≠ .primed) then { k with edges := k.edges ++ [(fineTick t, none)] } else k
      | none => s
    engineSettle e.val (feed e.val xs s))

/-- CAPTURE_COMPLETE (R298): samples up to the last POST sample; the engine enters REARMING at the word boundary after it. -/
def execCaptureComplete (e : Fin 16) (xs : List Int) (s : State) : Host.Outcome State Fault Refusal :=
  .next (let s := feed e.val xs s
    if (s.engine e.val).st = .capturing then engineDue e.val s.now s else s)

end Sys2Proof.Machine
end

