-- ==== Sys2Proof/Machine/ZRows.lean ====
section
/-! DEFINITION. Entries of Z channels, the park switch, settling and over-current (R189–R206). -/

namespace Sys2Proof.Machine

/-- The kind of a Z entry; none where it is discarded (R189–R192). -/
def Entry.zKind (e : Entry) : Option Nat :=
  let k := bits (e.w 0) 0 8
  let ok :=
    if k = 0x11 then e.w 0 == 0x11 && decide (e.w 1 < 2 ^ 18) && e.w 2 == 0 && e.w 3 == 0
    else if k = 0x12 then
      bits (e.w 0) 11 5 == 0 && decide (bits (e.w 0) 16 16 < 256) && bits (e.w 1) 16 16 == 0 && e.w 2 == 0
        && bits (e.w 3) 5 27 == 0
    else if k = 0x13 then e.w 0 == 0x13 && e.w 1 == 0 && e.w 2 == 0 && e.w 3 == 0
    else false
  if ok then some k else none

/-- The head of a channel's queue is released if it is of a kind, or in no rule; then `f` acts on it. -/
def releaseZ (z kind : Nat) (f : Entry → State → State) (s : State) : State :=
  match releaseHead (0x2000 + z) s with
  | none => s
  | some (e, s') =>
    match e.zKind with
    | none => (dropHead (0x2000 + z) s).modZc z fun c => { c with bad := c.bad.bump }
    | some k => if k = kind then f e s' else s

/-- Ticks for which the deglitcher holds its output after a ladder load (R194). -/
def zHold (c : ZChan) : Nat := if c.dg = 1 then 800 else 0

/-- Ticks from a ladder load to the start of the change at the ball (R193). -/
def zLatency (c : ZChan) : Nat := zHold c + biasDelay

/-- The thermometer segments that a change of code switches (R491): those above the lower code's, up to the higher's. -/
def segsCrossed (a b : Nat) : List Nat :=
  let lo := min (a / 4096) (b / 4096)
  (List.range (max (a / 4096) (b / 4096) - lo)).map (lo + 1 + ·)

/-- ZSTAT counts the segments that a BIAS entry of a DRIVEN channel crosses while its run measures (R491). -/
def zstatCount (z code : Nat) (s : State) : State :=
  let i := 64 + z / 64
  let c := tget {} s.calib.inst i
  if c.st = 1 && (s.z z).st == .driven then
    let m := (segsCrossed (s.z z).code code).foldl (fun m g =>
      let k := 64 * (z % 64) + g
      tset 0 m k (tget 0 m k + 1)) c.crossed
    { s with calib := { s.calib with inst := tset {} s.calib.inst i { c with crossed := m } } }
  else s

/-- BIAS at its release tick (R190, R193, R194, R199). -/
def biasEntry (z : Nat) (e : Entry) (s : State) : State :=
  let c := s.z z
  let code := e.w 1
  let rel := e.release.toNat
  let load (s : State) : State := (zLoadAt z code (rel + zLatency c) s).modZ z fun c => { c with holdTo := rel + zHold c }
  let mark (s : State) : State := s.modZ z fun c => { c with lastBias := some rel }
  if c.st = .float || s.plausHeld (zDom z) then s
  else if c.st = .parked then (mark (load s)).modZ z fun c => { c with openAt := some (rel + 40000), openTo := .driven }
  else if code = c.code then mark s
  else mark (load (zstatCount z code s))

def execBias (z : Fin 256) (s : State) : Host.Outcome State Fault Refusal :=
  .next (releaseZ z.val 0x11 (biasEntry z.val) s)

/-- ZPLAY at its release tick (R191, R195, R196, R199). Its FOLLOW edge reaches the ball 12 ns after the tick, 6 ns
earlier than the 18 ns that marker edges count from (R318). -/
def fastEntry (z : Nat) (e : Entry) (s : State) : State :=
  let rel := e.release.toNat
  let s := endFastAt z rel s
  let b := s.zbank (z / 64)
  let seg := bits (e.w 0) 16 16
  let g := tget {} (b.bank b.inPlay).segs seg
  if g.len = 0 then s.modZc z fun c => { c with missing := c.missing.bump }
  else
    let s := if (s.z z).st = .parked then s.modZc z fun c => { c with parkedPlays := c.parkedPlays.bump } else s
    let f : Fast :=
      { rel, seg, bank := b.inPlay, amp := bits (e.w 1) 0 16, len := g.len, hold := bits (e.w 0) 8 1 == 1, held := false }
    let s := s.modZ z fun c => { c with fast := some f }
    let s := if bits (e.w 0) 9 1 = 1 then raiseEp (s.ep 4 (resUnit (0x2000 + z)) 0) s else s
    if bits (e.w 0) 10 1 = 1 then followRequest (bits (e.w 3) 0 5) (s.pulseRoot (0x2000 + z)) (rel - 120) s else s

def execZplay (z : Fin 256) (s : State) : Host.Outcome State Fault Refusal :=
  .next (releaseZ z.val 0x12 (fastEntry z.val) s)

/-- ZSTOP at its release tick (R192). -/
def execZstop (z : Fin 256) (s : State) : Host.Outcome State Fault Refusal :=
  .next (releaseZ z.val 0x13 (fun e => endFastAt z.val e.release.toNat) s)

/-- FAST_PLAY_END (R195): the fast voltage returns to 0, or the last code is held. -/
def execFastPlayEnd (z : Fin 256) (s : State) : Host.Outcome State Fault Refusal :=
  .next (match (s.z z.val).fast with
    | some f =>
      if f.held || decide (s.now < f.rel + 16 * f.len) then s
      else if f.hold then
        drainZ (z.val / 64) (s.modZ z.val fun c => { c with
          fast := some { f with held := true, code := (s.fastSample z.val f (f.len - 1)).1 } })
      else endFast z.val s
    | none => s)

/-- PARK_SWITCH_OPEN (R199). -/
def execParkSwitchOpen (z : Fin 256) (s : State) : Host.Outcome State Fault Refusal :=
  .next (match (s.z z.val).openAt with
    | some t =>
      if s.now < t then s
      else s.modZ z.val fun c => { c with st := c.openTo, openAt := none, lastBias := some t }
    | none => s)

/-- BIAS_SETTLED (R193). -/
def execBiasSettled (z : Fin 256) (s : State) : Host.Outcome State Fault Refusal :=
  .next (match (s.z z.val).settleAt with
    | some t => if s.now < t then s else s.modZ z.val fun c => { c with settled := true, settleAt := none }
    | none => s)

/-- A fault of a channel that has no owner (R206): its switch closes and FAULT_N is asserted. -/
def unownedFault (z : Nat) (s : State) : State :=
  setSum 10 ((zPark z s).modZ z fun c => { c with unownedLatch := true })

/-- OVER_CURRENT (R205, R206): the limiter holds a channel that its amplifier drives. -/
def execOverCurrent (z : Fin 256) (s : State) : Host.Outcome State Fault Refusal :=
  .next (let c := s.z z.val
    if c.st ≠ .driven && c.st ≠ .safePark then s
    else
      let s := (s.modZ z.val fun c => { c with ovc := true, ovcPend := true }).modZc z.val fun k =>
        { k with overcurrents := k.overcurrents.bump }
      if (s.owner (0x2000 + z.val)).isNone then unownedFault z.val s else s)

end Sys2Proof.Machine
end

