-- ==== Sys2Proof/Machine/Housekeeping.lean ====
section
/-! DEFINITION. Housekeeping (R467–R487): the slow round, Z read-back (R203–R206), injected sequences, the
shared-channel check, the thermal model, plausibility, levels, the power cap, and the shut-down action. -/

namespace Sys2Proof.Machine

/-! ### HK_SET -/

/-- A user slot names a channel, or leaves the converter idle (R471). -/
def hkChan (c : Nat) : Bool := c ≤ 320 || c == 0xFFFF

/-- HK_SET (R471): in force from the next round. -/
def hkSetReply (dislim : Nat) (slots : List (Nat × Nat)) (s : State) : Reply :=
  if dislim ≠ 0 && (dislim < 4 || 1024 < dislim) then .bad s 0
  else if 351 < slots.length then .bad s 2
  else match ((List.range slots.length).zip slots).find? fun e => !hkChan e.2.1 || !hkChan e.2.2 with
    | some e => .bad s (8 + 4 * e.1)
    | none => { s := { s with house := { s.house with slotsPend := some (if dislim = 0 then 32 else dislim, slots) } } }

def execHkSet (h : Hdr) (dislim : Nat) (slots : List (Nat × Nat)) (s : State) : Host.Outcome State Fault Refusal :=
  .next (command h 0x53 (8 + 4 * slots.length) [.configure, .ready, .service] (hkSetReply dislim slots) s)

/-! ### Z read-back (R203–R206) -/

/-- The voltage that a reading of a channel is compared with (R203). -/
def ZChan.expectedVolt (c : ZChan) : Int :=
  match c.st with
  | .driven => c.ladder
  | .safePark => biasVolt c.span c.park
  | _ => 0

/-- A comparison of a sample taken now is skipped (R203). -/
def State.zSkip (s : State) (z : Nat) : Bool :=
  let c := s.z z
  let near (o : Option Nat) (t : Nat) : Bool := match o with | some x => decide (s.now ≤ x + us t) | none => false
  let fast : Bool := match c.fast with
    | some f => (match f.fin with | some _ => near f.fin 2 | none => true)
    | none => false
  c.st == .float || near c.lastBias 5 || fast || near c.fastEnd 2

/-- 2^-18 µV rounded to a µV, halves up. -/
def toUv (v : Int) : Int := (v + 131072) / 262144

/-- A read-back mismatch (R204, R206). -/
def zMismatch (z : Nat) (s : State) : State :=
  let c := s.z z
  let s := (zPark z s).modZ z fun c => { c with mismatch := true, fails := 0, preTrim := none }
  match s.owner (0x2000 + z) with
  | none => unownedFault z s
  | some b =>
    doubtBurin b 2 (le 2 (0x200 + z) ++ pad 2 ++ leI 4 c.readback ++ leI 4 c.expected ++ le 1 (bit c.ovc 0) ++ pad 19) s

/-- A comparison (R203, R204); `once` where one reading beyond ZTOL is a mismatch (R205). -/
def zCompare (z : Nat) (uv expected : Int) (once : Bool) (s : State) : State :=
  let c := s.z z
  let far := decide (c.ztol * 1000 * 262144 < (uv * 262144 - expected).natAbs)
  let s := s.modZ z fun c => { c with
    readback := uv, expected := toUv expected, skips := 0, unchecked := false, fails := if far then c.fails + 1 else 0 }
  if !far then s
  else
    let s := s.modZc z fun k => { k with mismatches := k.mismatches.bump }
    if once || c.fails ≠ 0 then zMismatch z s else s

/-- A skipped comparison (R203). -/
def zSkipped (z : Nat) (uv : Int) (s : State) : State :=
  (s.modZ z fun c => { c with readback := uv, skips := c.skips + 1, unchecked := c.unchecked || decide (999 ≤ c.skips) }).modZc
    z fun k => { k with skipped := k.skipped.bump }

/-- The read-back samples of a round that its converters vouch for. -/
def judgeSamples (useA useB : Bool) (s : State) : State :=
  let l := s.house.zread.filter fun r => if r.chan < 128 then useA else useB
  each (fun r s => if r.skip then zSkipped r.chan r.uv s else zCompare r.chan r.uv r.expected false s) l
    { s with house := { s.house with zread := [] } }

/-! ### The slow round -/

/-- Ticks between starts of slow rounds (R469). -/
def roundTicks : Nat := us 1000

/-- SLOW_ROUND: settings of HK_SET come into force, and every read-back tap is sampled once (R203, R468–R471): `z` are the
slots of the channels in order. -/
def execSlowRound (z : List Slot) (s : State) : Host.Outcome State Fault Refusal :=
  .next (let h := s.house
    if h.inRound || decide (s.now < h.roundDue) then s
    else
      let due := if h.lateEnd then h.roundDue + roundTicks else (s.now / roundTicks + 1) * roundTicks
      let h := match h.slotsPend with
        | some (d, l) => { h with dislim := d, slots := l, slotsPend := none }
        | none => h
      let zread := (List.range 256).map fun k =>
        ({ chan := k, uv := (z.getD k {}).mean, expected := (s.z k).expectedVolt, skip := s.zSkip k } : ZSample)
      { s with house := { h with
          inRound := true, roundDue := due, zread, lateEnd := false
          overruns := if h.lateEnd then h.overruns.bump else h.overruns } })

/-! ### Injected sequences (R472, R473) -/

/-- INJECTED_SEQUENCE: at most 32 slots, over-current readings first, two channels a slot; then 8 slots of supplies
after a safe-state entry; then one for each domain that left or reached On. -/
def execInjectedSequence (z : List ZReading) (s : State) : Host.Outcome State Fault Refusal :=
  .next (let waiting := tkeys (s.zch.filter fun e => e.2.ovcPend)
    let safe : Bool := match s.house.injSafe with | some t => decide (t ≤ s.now) | none => false
    if waiting = [] && !safe && s.house.injDue = [] then s
    else
      let taken := waiting.take 64
      let room := 32 - (taken.length + 1) / 2
      let doSafe := safe && decide (8 ≤ room)
      let room := if doSafe then room - 8 else room
      let s := { s with house := { s.house with
        injected := s.house.injected.bump, injDue := s.house.injDue.drop room
        injSafe := if doSafe then none else s.house.injSafe } }
      let dark : Bool := s.house.failA && s.house.failB
      let s := each (fun c s =>
          let uv := match z.find? fun r => r.chan.val == c with | some r => r.uv | none => 0
          let s := s.modZ c fun k => { k with ovcPend := false }
          if dark || (s.z c).st == .float then s else zCompare c uv (s.z c).expectedVolt true s) taken s
      each (fun c s => zMismatch c (s.modZ c fun k => { k with ovcPend := false })) (waiting.drop 64) s)

/-! ### The shared-channel check (R474, R475) -/

def dist (a b : Nat) : Nat := if a ≤ b then b - a else a - b

/-- What the check of a round gives: whether the round passes, and the converters whose readings it discards. -/
structure Check where
  pass : Bool
  badA : Bool
  badB : Bool

/-- The check against the check DAC's expected value. One that is already out of service leaves the other judged
alone; with both out, nothing is read. -/
def House.check (h : House) (a b : Nat) : Check :=
  let e := (0x80 + 0x100 * (h.rounds % 16)) * 16
  let okA := decide (dist a e ≤ 48)
  let okB := decide (dist b e ≤ 48)
  if h.failA && h.failB then { pass := decide (dist a b ≤ h.dislim), badA := true, badB := true }
  else if h.failA then { pass := okB, badA := true, badB := !okB }
  else if h.failB then { pass := okA, badA := !okA, badB := true }
  else if dist a b ≤ h.dislim then { pass := true, badA := false, badB := false }
  else { pass := false, badA := !okA || okB, badB := !okB || okA }

/-- The latches after a round: a failed converter returns after FAULT_CLEAR and 16 rounds within 48 LSB. -/
def House.latch (h : House) (c : Check) (a b : Nat) : House :=
  let e := (0x80 + 0x100 * (h.rounds % 16)) * 16
  let pa := if h.failA && decide (dist a e ≤ 48) then h.passA + 1 else 0
  let pb := if h.failB && decide (dist b e ≤ 48) then h.passB + 1 else 0
  let backA := h.failA && h.clearA && decide (16 ≤ pa)
  let backB := h.failB && h.clearB && decide (16 ≤ pb)
  { h with
    failA := (h.failA && !backA) || (!h.failA && c.badA), failB := (h.failB && !backB) || (!h.failB && c.badB)
    passA := if backA then 0 else pa, passB := if backB then 0 else pb
    clearA := h.clearA && !backA, clearB := h.clearB && !backB
    disagree := if c.pass then h.disagree else h.disagree.bump }

/-- The converters whose readings of a round count: the one in service stands in for the other (R475). -/
def House.useA (h : House) (c : Check) : Bool := if h.failA then !c.badB else !c.badA
def House.useB (h : House) (c : Check) : Bool := if h.failB then !c.badA else !c.badB

/-! ### The thermal model (R476–R478) -/

/-- The package nodes over a domain (R476). -/
def parentsOf (d : Nat) : List Nat := (nodesOf d).drop 1

/-- Rise in 0.1 °C/W (R476). -/
def rise10 (d : Nat) : Int :=
  if 14 ≤ d && d ≤ 17 then 15 else if 20 ≤ d then 10 else if 6 ≤ d && d ≤ 13 then 20
  else if d = 18 || d = 19 then 20 else if d = 4 then 4
  else if d = 0 then 8 else if d = 1 then 5 else if d = 2 then 12 else if d = 3 then 6 else 10

/-- exp(−Δt/τ) in 2^-32, for Δt = 1 ms and τ of 20, 5 and 10 ms (R476, R477). -/
def decay (d : Nat) : Int :=
  if 6 ≤ d && d ≤ 13 then 4085499269 else if d = 4 || 14 ≤ d then 3886247119 else 3516421809

def maxInt : List Int → Int
  | [] => 0
  | a :: l => l.foldl max a

/-- The temperature of the parent of a domain node. -/
def parentTemp (ns : Tab Node) (d : Nat) : Int := maxInt ((parentsOf d).map fun p => (tget {} ns p).t)

/-- A domain node's new temperature in 2^-16 °C, halves up: power in µW. -/
def nodeTemp (d : Nat) (old oldP newP power : Int) : Int :=
  let one : Int := 4294967296
  let a := decay d
  let x := (old - oldP) * a * 10000000 + rise10 d * power * 65536 * (one - a)
  newP + (2 * x + 10000000 * one) / (20000000 * one)

/-- A reading of a domain is plausible (R478). The full scale of a current is the top of its channel. -/
def plausibleDom (r : DomReading) (st : DomSt) : Bool :=
  let full : Int := 12 * r.maxMa
  let v := r.mv * 100
  let c := r.ma * 10
  !(st == .on && (v < 0 || decide (120 * (r.nomMv : Int) < v))) && !(st == .off && decide (5 * (r.nomMv : Int) < v))
    && !(decide (c * 50 < -full)) && !(decide (full < c)) && !(st == .off && decide (full < c * 100))

/-- A diode reading is plausible beside that of the round before (R478), in 1/16 °C. -/
def diodePlausible (v : Int) (last : Option Int) : Bool :=
  decide (-640 ≤ v) && decide (v ≤ 2400) && (match last with | some p => decide ((v - p).natAbs ≤ 80) | none => true)

/-- The level after a round, with hysteresis (R480). -/
def levelAfter (old : Nat) (t : Int) : Nat :=
  let reach (k : Nat) (enter leave : Int) : Bool := enter * 65536 ≤ t || (k ≤ old && decide (leave * 65536 ≤ t))
  if reach 3 120 110 then 3 else if reach 2 105 100 then 2 else if reach 1 95 90 then 1 else 0

/-- Plausibility of a node after a round: a second implausible round in a row is a failure. -/
def Node.judge (x : Node) (ok : Bool) : Node :=
  if ok then { x with suspect := false, good := x.good + 1 }
  else { x with suspect := true, good := 0, failed := x.failed || x.suspect }

/-- The level of a node that has not failed. -/
def Node.settleLevel (x : Node) : Node := if x.failed then x else { x with level := levelAfter x.level x.t }

/-- The nodes after a round: the package nodes, then the domain nodes. -/
def State.nodesAfter (s : State) (r : RoundReadings) (useA useB : Bool) : Tab Node :=
  let old := s.house.nodes
  let pkg := (List.range 8).foldl (fun ns k =>
    let v := r.diodes.getD k 0
    let ok := (if k < 4 then useA else useB) && diodePlausible v (tget none s.house.lastDiodes k)
    let x := (tget {} old (24 + k)).judge ok
    tset {} ns (24 + k) (if ok then { x with t := (v - Config.diodeOffset k) * 4096 } else x)) old
  (List.range 24).foldl (fun ns d =>
    let v : DomReading := r.doms.getD d { mv := 0, ma := 0, nomMv := 0, maxMa := 0 }
    let ok := useA && useB && plausibleDom v (s.dom d).st
    let o := tget {} old d
    let x := o.judge ok
    tset {} ns d (if ok then { x with t := nodeTemp d o.t (parentTemp old d) (parentTemp ns d) (v.mv * v.ma) } else x)) pkg

/-- A node's doubt detail (R513). -/
def nodeDetail (s : State) (n : Nat) : List Byte := le 1 n ++ pad 1 ++ leI 2 (s.tj16 n) ++ pad 28

/-- A node has failed plausibility (R30, R479): its domains' outputs go to the safe state. -/
def nodeFails (n : Nat) (s : State) : State :=
  let s := { s with house := { s.house with plaus := s.house.plaus.bump } }
  if n < 2 || 24 ≤ n then doubtDevice 5 (nodeDetail s n) s
  else
    let s := each (fun k s => doubtPlate k 5 (nodeDetail s n) s) (s.domRoots n) s
    each safeRes (domQueues n) s

/-! ### Levels and the cap (R480–R484) -/

/-- The domains that a node at shut-down takes Off (R484). -/
def shutDomains (n : Nat) : List Nat :=
  if n < 2 || n = 31 then (List.range 22).map (2 + ·)
  else if n < 24 then [n]
  else (List.range 24).filter fun d => (parentsOf d).contains n

/-- A node reaches shut-down (R484). -/
def nodeShuts (n : Nat) (s : State) : State :=
  let s := doubtDevice 6 (nodeDetail s n) s
  let h := s.house
  { s with house := { h with
      shutLatch := true, shutAt := some (match h.shutAt with | some t => t | none => s.now + us 10)
      shutDoms := h.shutDoms ++ (shutDomains n).filter fun d => !h.shutDoms.contains d } }

/-- Fabric power and device power of a round, in µW. -/
def roundPower (r : RoundReadings) (first n : Nat) : Nat :=
  ((((r.doms.drop first).take n).map fun (v : DomReading) => v.mv * v.ma).sum).toNat

/-- The cap of a measured power: rounded up to 5 %, within 20–100 (R481). -/
def capOf (pf : Nat) : Nat := max 20 (min 100 (5 * ((pf * 20 + 67999999) / 68000000)))

/-- The voltage that a cap allows (R482), in mV. -/
def capVolt (vn cap pf : Nat) : Nat :=
  (List.range 21).foldl (fun best k =>
    let v := 650 + 10 * k
    if v * v * v * pf ≤ vn * vn * vn * (cap * 680000) then v else best) 650

/-- The cap, its steps and the voltage at the end of a round. -/
def capRound (level : Nat) (s : State) : State :=
  let h := s.house
  let stepTime : Bool := match h.lastStep with | some t => decide (t + us 10000 ≤ s.now) | none => true
  let entry := decide (2 ≤ level) && decide (h.devLevel < 2)
  let cap :=
    if entry && h.cap = 100 then capOf h.pfab
    else if !stepTime then h.cap
    else if 2 ≤ level then max 20 (h.cap - 5)
    else min 100 (h.cap + 5)
  let moved := (entry && decide (h.cap = 100)) || decide (cap ≠ h.cap)
  let s := { s with house := { h with
    cap, lastStep := if moved then some s.now else h.lastStep, devLevel := level, vcap := capVolt s.gov.vfab cap h.pfab } }
  if entry || cap < 100 then setSum 3 s else s

/-! ### The end of a round -/

/-- Runs that AUTO starts, and trims that fall due (R494). -/
def autoCal (s : State) : State :=
  let can : Bool := s.sys.mode == .ready || s.sys.mode == .run || s.sys.mode == .calibrate || s.sys.mode == .service
  let far (i : Nat) (t : Int) (scope : Nat) (s : State) : Bool := (s.scope scope).dtemp < (s.tj16 (instDom i) - t).natAbs
  let s := each (fun i s =>
      let scope := if i < 16 then 1 else 3
      let c := s.calI i
      if can && (s.scope scope).auto && c.st ≠ 1 && c.st ≠ 3 && s.isOn (instDom i)
          && (decide (64 ≤ i) || s.isOn (outDom (0x100 + i))) && !s.testing (instDom i) && far i c.tjRun scope s then
        beginMeasure (s.scope scope).ramp i s
      else s) (scopeInsts 1 ++ scopeInsts 3) s
  each (fun i s =>
    let scope := if i < 16 then 0x11 else if i < 64 then 0x12 else 0x13
    if far i (s.calI i).tjTrim scope s then s.modCal i fun c => { c with trimDue := true } else s) (List.range 68) s

/-- What the records show of a round, and its diode readings for the next. -/
def noteRound (r : RoundReadings) (useA useB : Bool) (s : State) : State :=
  let h := s.house
  let diodes := (List.range 8).foldl (fun m k =>
    if if k < 4 then useA else useB then tset none m k (some (r.diodes.getD k 0)) else m) h.lastDiodes
  let aux := (List.range 8).foldl (fun m k =>
    if if k < 4 then useA else useB then tset 0 m k (r.aux.getD k 0) else m) h.aux
  { s with house := { h with
      lastDiodes := diodes, aux, roundUs := r.lengthUs
      pfab := if useA && useB then roundPower r 6 8 else h.pfab, ptotal := if useA && useB then roundPower r 0 24 else h.ptotal
      rounds := h.rounds + 1, inRound := false, lateEnd := decide (h.roundDue < s.now) } }

/-- ROUND_END: every decision of a round (R470, R474–R482, R494, R496). -/
def execRoundEnd (l : RoundSlots) (s : State) : Host.Outcome State Fault Refusal :=
  .next (if !s.house.inRound then s
    else
      let r := l.readings
      let c := s.house.check r.chkA r.chkB
      let useA := s.house.useA c
      let useB := s.house.useB c
      let old := s.house.nodes
      let nodes := (s.nodesAfter r useA useB)
      let s := { s with house := { s.house.latch c r.chkA r.chkB with nodes } }
      let s := judgeSamples useA useB (noteRound r useA useB s)
      let s := each (fun n s =>
        if (tget {} s.house.nodes n).failed && !(tget {} old n).failed then nodeFails n s else s) (List.range 32) s
      let s := { s with house := { s.house with nodes := tmap {} (fun _ x => x.settleLevel) s.house.nodes } }
      let lev (ns : Tab Node) (n : Nat) : Nat := (tget {} ns n).level
      let s := if (List.range 32).any fun n => lev old n = 0 && decide (1 ≤ lev s.house.nodes n) then setSum 2 s else s
      let s := each (fun n s => if lev s.house.nodes n = 3 && lev old n ≠ 3 then nodeShuts n s else s) (List.range 32) s
      let top := ((List.range 32).map fun n => let x := tget {} s.house.nodes n; if x.failed then 0 else x.level).foldl Nat.max 0
      burnishAll none (autoCal (capRound top s)))

/-! ### The shut-down action (R484) -/

/-- A domain goes to Off, whatever it is doing. A wake in progress ends, and its requests with it. -/
def shutDomain (d : Nat) (s : State) : State :=
  match (s.dom d).st with
  | .off => s
  | .on => beginEntry d 2 s
  | .waking =>
    settleDom d (· == 0) stThermal (.thermal d) (enter d 2 s)
  | _ => enter d 2 s

/-- SHUTDOWN_ACTION: 10 µs after entry, in descending domain number. -/
def execShutdownAction (s : State) : Host.Outcome State Fault Refusal :=
  .next (match s.house.shutAt with
    | some t =>
      if s.now < t then s
      else
        let doms := ((List.range 24).filter fun d => s.house.shutDoms.contains d).reverse
        each shutDomain doms { s with house := { s.house with shutAt := none, shutDoms := [] } }
    | none => s)

end Sys2Proof.Machine
end

