-- ==== Sys2Proof/Machine/MemOps.lean ====
section
/-! DEFINITION. Loads, stores and selection of a burin (R77, R86, R97). -/

namespace Sys2Proof.Machine

/-- The index of the best of n words to gd and the word to gd + 1 (R86); n is the field n − 1. -/
def argSel (b : BurinId) (op : Nat) (gd : GReg) (pa : PReg) (n : Fin 16) (better : Word → Word → Bool) (s : State) :
    Host.Outcome State Fault Refusal :=
  plain b (encSE op gd.val pa.val n.val) (fun r =>
    let best := selRun better r (pr r pa.val).toNat (n.val + 1)
    setG (gd.val + 1) best.2 (setG gd.val (BitVec.ofNat 32 best.1) r)) s

def execLd (b : BurinId) (g : GReg) (m : Mem) (s : State) : Host.Outcome State Fault Refusal :=
  plain b (encMem 0x40 g.val 0 m) (fun r => setG g.val (dm r (memAddr r m)) (memPost m r)) s

def execSt (b : BurinId) (g : GReg) (m : Mem) (s : State) : Host.Outcome State Fault Refusal :=
  plain b (encMem 0x41 g.val 0 m) (fun r => memPost m (setDm (memAddr r m) (gr r g.val) r)) s

def execLdd (b : BurinId) (g : GReg) (m : Mem) (s : State) : Host.Outcome State Fault Refusal :=
  plain b (encMem 0x42 g.val 0 m) (fun r =>
    setPair g.val (dm r (memAddr r m + 1) ++ dm r (memAddr r m)) (memPost m r)) s

def execStd (b : BurinId) (g : GReg) (m : Mem) (s : State) : Host.Outcome State Fault Refusal :=
  plain b (encMem 0x43 g.val 0 m) (fun r =>
    memPost m (setDm (memAddr r m + 1) (gr r (g.val + 1)) (setDm (memAddr r m) (gr r g.val) r))) s

def execLdx (b : BurinId) (g : GReg) (pa : PReg) (gx : GReg) (s : State) : Host.Outcome State Fault Refusal :=
  plain b (encME 0x44 g.val pa.val 0 0 gx.val 0 1) (fun r => setG g.val (dm r ((pr r pa.val).toNat + (gr r gx.val).toNat)) r) s

def execStx (b : BurinId) (g : GReg) (pa : PReg) (gx : GReg) (s : State) : Host.Outcome State Fault Refusal :=
  plain b (encME 0x45 g.val pa.val 0 0 gx.val 0 1) (fun r => setDm ((pr r pa.val).toNat + (gr r gx.val).toNat) (gr r g.val) r) s

def execArgmin (b : BurinId) (gd : GReg) (pa : PReg) (n : Fin 16) (s : State) : Host.Outcome State Fault Refusal :=
  argSel b 0x70 gd pa n (fun x y => x.ult y) s

def execArgmax (b : BurinId) (gd : GReg) (pa : PReg) (n : Fin 16) (s : State) : Host.Outcome State Fault Refusal :=
  argSel b 0x71 gd pa n (fun x y => y.ult x) s

def execArgmins (b : BurinId) (gd : GReg) (pa : PReg) (n : Fin 16) (s : State) : Host.Outcome State Fault Refusal :=
  argSel b 0x72 gd pa n (fun x y => x.slt y) s

def execArgmaxs (b : BurinId) (gd : GReg) (pa : PReg) (n : Fin 16) (s : State) : Host.Outcome State Fault Refusal :=
  argSel b 0x73 gd pa n (fun x y => y.slt x) s

end Sys2Proof.Machine
end

