-- ==== Sys2Proof/Machine/Outside.lean ====
section
/-! DEFINITION. Instructions of a burin that meet the outside (R89–R95, R97, R253). -/

namespace Sys2Proof.Machine

/-- g ← a number read from outside. -/
def reads (b : BurinId) (w : Nat) (g : GReg) (f : State → Nat) (s : State) : Host.Outcome State Fault Refusal :=
  issue b w (fun s => finish b.val (modRegs b.val (setG g.val (BitVec.ofNat 32 (f s))) s)) s

/-- The entry of PUT: the release pair g:g+1 and the four words at pa. -/
def putEntry (b slot g pa : Nat) (ma : Option Nat) (s : State) : State :=
  let r := (s.burin b).regs
  let e := s.makeEntry b (pair r g) ((List.range 4).map fun k => dm r ((pr r pa).toNat + k))
  let post : Option (Nat × Nat) := ma.map fun m => (pa, m)
  if s.slotCredits b slot = 0 then
    s.modBurin b fun k => { k with hold := some { slot, entry := e, post, micro := false } }
  else
    let s := launch b slot e s
    finish b (match post with | some (p, m) => modRegs b (bumpP p m) s | none => s)

/-- A held PUT has a credit: the entry leaves and the instruction completes (R46). -/
def releaseHold (b : Nat) (s : State) : Host.Outcome State Fault Refusal :=
  match (s.burin b).hold with
  | none => .next s
  | some h =>
    if s.slotCredits b h.slot = 0 then .next s
    else
      let s := launch b h.slot h.entry (s.modBurin b fun k => { k with hold := none })
      let s := match h.post with | some (p, m) => modRegs b (bumpP p m) s | none => s
      if h.micro then
        let upc := (s.burin b).micro.upc
        if bits (s.microword upc) 19 1 = 1 then .next (endRun b s) else runFrom b (upc + 1) s
      else .next (finish b s)

/-- PUT_HOLD_RELEASE (R46). -/
def execPutHoldRelease (b : BurinId) (s : State) : Host.Outcome State Fault Refusal := releaseHold b.val s

/-- WAIT_WAKE (R89, R113): the condition holds, and the waiting instruction or microword takes its stage. -/
def execWaitWake (b : BurinId) (s : State) : Host.Outcome State Fault Refusal :=
  match (s.burin b.val).waiting with
  | none => .next s
  | some w =>
    if !s.waitHolds b.val w then .next s
    else
      let t := s.modBurin b.val fun r => { r with waiting := none }
      match w with
      | .micro .. => runFrom b.val (s.burin b.val).micro.upc t
      | _ => .next (finish b.val (waitEffect b.val w t))

/-- LINE_FETCH_COMPLETE (R80, R81): the line is resident, unless a granule of it is bad: then the burin
waits on, and the memory error is reported (R444). -/
def execLineFetchComplete (b : BurinId) (uncorrectable : Bool) (s : State) : Host.Outcome State Fault Refusal :=
  .next (match (s.burin b.val).fetching with
    | none => s
    | some l =>
      let a := (s.burin b.val).imgBase + 32 * l
      if !s.isOn 4 then s
      else if uncorrectable || s.poisoned a 32 then noteUe a s
      else
        let n := Nat.min 8 ((s.burin b.val).imgLen - 8 * l)
        let ws := (List.range n).map fun k => BitVec.ofNat 32 (s.numAt (a + 4 * k) 4)
        let s := { s with free := s.free + 1 }
        fetchOn b.val (s.modBurin b.val fun r =>
          let r := r.evict (Config.freeNat (s.free - 1))
          { r with lines := r.lines ++ [l], buf := tsetRun 0 r.buf (8 * l) ws, fetching := none }))

/-- NULL_PUT_DISCARD (R90): an entry on a slot with no owned queue reaches its release tick. -/
def execNullPutDiscard (b : BurinId) (s : State) : Host.Outcome State Fault Refusal :=
  .next (match (s.burin b.val).nulls.find? (fun e => decide (e.release ≤ (s.now : Int))) with
    | some e => s.modBurin b.val fun r => { r with nulls := r.nulls.erase e, nullPuts := r.nullPuts.bump }
    | none => s)

/-- PUT (R46, R89, R90). -/
def execPut (b : BurinId) (slot : Fin 16) (g : GReg) (pa : PReg) (ma : Option MReg) (s : State) : Host.Outcome State Fault Refusal :=
  issue b (encSL 0x80 g.val slot.val pa.val (optM ma) (optU ma)) (putEntry b.val slot.val g.val pa.val (ma.map Fin.val)) s

/-- QFREE. -/
def execQfree (b : BurinId) (g : GReg) (slot : Fin 16) (s : State) : Host.Outcome State Fault Refusal :=
  reads b (encSL 0x81 g.val slot.val 0 0 0) g (fun s => s.slotCredits b.val slot.val) s

/-- EVS. -/
def execEvs (b : BurinId) (slot : Fin 8) (s : State) : Host.Outcome State Fault Refusal :=
  issue b (encSL 0x90 0 slot.val 0 0 0) (fun s => finish b.val (raiseEp (s.ep 0 b.val slot.val) s)) s

/-- EVW. -/
def execEvw (b : BurinId) (slot : Fin 8) (s : State) : Host.Outcome State Fault Refusal :=
  issue b (encSL 0x91 0 slot.val 0 0 0) (await b.val (.evw slot.val)) s

/-- EVT. -/
def execEvt (b : BurinId) (g : GReg) (slot : Fin 8) (s : State) : Host.Outcome State Fault Refusal :=
  issue b (encSL 0x92 g.val slot.val 0 0 0) (fun s =>
    let e := s.ep 1 b.val slot.val
    finish b.val (modRegs b.val (setG g.val (if s.flagged e then 1 else 0)) (consume e s))) s

/-- DSEND. -/
def execDsend (b : BurinId) (slot : Fin 4) (g : GReg) (s : State) : Host.Outcome State Fault Refusal :=
  issue b (encSL 0x93 g.val slot.val 0 0 0) (await b.val (.dsend slot.val g.val)) s

/-- DRECV. -/
def execDrecv (b : BurinId) (g : GReg) (slot : Fin 4) (s : State) : Host.Outcome State Fault Refusal :=
  issue b (encSL 0x94 g.val slot.val 0 0 0) (await b.val (.drecv g.val slot.val)) s

/-- DPOLL. -/
def execDpoll (b : BurinId) (g : GReg) (slot : Fin 4) (s : State) : Host.Outcome State Fault Refusal :=
  reads b (encSL 0x95 g.val slot.val 0 0 0) g (fun s => (s.arrivals (s.ep 3 b.val slot.val)).length) s

/-- WAITT. -/
def execWaitt (b : BurinId) (g : GReg) (s : State) : Host.Outcome State Fault Refusal :=
  issue b (encSL 0xA0 g.val 0 0 0 0) (await b.val (.waitt g.val)) s

/-- WAITQ. -/
def execWaitq (b : BurinId) (slot : Fin 16) (g : GReg) (s : State) : Host.Outcome State Fault Refusal :=
  issue b (encSL 0xA1 g.val slot.val 0 0 0) (await b.val (.waitq slot.val g.val)) s

/-- WAITC. -/
def execWaitc (b : BurinId) (slot : Fin 4) (s : State) : Host.Outcome State Fault Refusal :=
  issue b (encSL 0xA2 0 slot.val 0 0 0) (await b.val (.waitc slot.val)) s

/-- NOW. -/
def execNow (b : BurinId) (g : GReg) (s : State) : Host.Outcome State Fault Refusal :=
  issue b (encSL 0xA3 g.val 0 0 0 0) (fun s =>
    finish b.val (modRegs b.val (setPair g.val (BitVec.ofNat 64 (s.shotTime b.val))) s)) s

/-- IQRD. -/
def execIqrd (b : BurinId) (g : GReg) (s : State) : Host.Outcome State Fault Refusal :=
  issue b (encSL 0xB0 g.val 0 0 0 0) (await b.val (.iqrd g.val)) s

/-- IQPOLL. -/
def execIqpoll (b : BurinId) (g : GReg) (s : State) : Host.Outcome State Fault Refusal :=
  reads b (encSL 0xB1 g.val 0 0 0 0) g (fun s => (s.burin b.val).iq.length) s

/-- REC (R253). -/
def execRec (b : BurinId) (m : Mem) (s : State) : Host.Outcome State Fault Refusal :=
  issue b (encMem 0xC0 0 0 m) (fun s =>
    let r := (s.burin b.val).regs
    finish b.val (modRegs b.val (memPost m) (postResult b.val (memAddr r m) s))) s

/-- MFS. -/
def execMfs (b : BurinId) (g : GReg) (sr : Fin 6) (s : State) : Host.Outcome State Fault Refusal :=
  issue b (encSP 0xC1 g.val sr.val) (fun s => finish b.val (modRegs b.val (setG g.val (s.special b.val sr.val)) s)) s

/-- MTS. -/
def execMts (b : BurinId) (sr : Fin 6) (g : GReg) (s : State) : Host.Outcome State Fault Refusal :=
  plain b (encSP 0xC2 g.val sr.val) (fun r => setSpecial sr.val (gr r g.val) r) s

end Sys2Proof.Machine
end

