-- ==== Sys2Proof/Machine/Records.lean ====
section
/-! DEFINITION. The status records (R57, R132, R182, R207, R240, R282, R287, R309, R327, R427, R445, R463, R466,
R487, R507, R512, R543) and what each query resets (R58). -/

namespace Sys2Proof.Machine

/-- The counts of a run of counters, 4 bytes each. -/
def ctrBytes (l : List Ctr) : List Byte := l.flatMap fun c => le 4 c.n

/-- The overflow bits of a run of counters. -/
def ctrOvf (l : List Ctr) : Nat := ((l.zip (List.range l.length)).map fun e => bit e.1.ovf e.2).sum

/-- A record with the counters it shows, which a query resets. -/
structure Query where
  bytes : List Byte
  reset : State → State := id

/-! ### Device, burin, plate -/

/-- Highest model Tj in 1/16 °C. -/
def State.tjMax (s : State) : Int := (List.range 31).foldl (fun m n => max m (s.tj16 (n + 1))) (s.tj16 0)

/-- Kind 0 (R427). -/
def State.deviceRec (s : State) : Query :=
  { bytes := le 1 s.sys.mode.code
      ++ le 1 (bit s.sys.valFailed 0 + bit s.gov.conflict 1 + bit s.gov.saturated 2 + bit s.gov.capped 3)
      ++ le 2 s.gov.vfab ++ le 1 (bit s.gov.fixed 0) ++ pad 3 ++ le 1 s.sys.failKind ++ pad 3 ++ le 4 s.sys.failRef
      ++ leI 2 s.tjMax ++ pad 14 }

/-- Kind 1 (R427). -/
def State.burinRec (s : State) (b : Nat) : Query :=
  let r := s.burin b
  let st := if s.tileBad b then 3 else if !r.running then 0 else if r.waiting.isSome || r.hold.isSome then 2 else 1
  let l := [r.underruns, r.iqOverruns, r.nullPuts, r.shotOverruns]
  { bytes := le 2 b ++ le 1 st ++ le 1 (ctrOvf l) ++ ctrBytes l ++ pad 4
    reset := fun s => s.modBurin b fun r => { r with underruns := {}, iqOverruns := {}, nullPuts := {}, shotOverruns := {} } }

def PlateSt.code : PlateSt → Nat
  | .free => 0 | .open_ => 1 | .sealed => 2 | .shadow => 3

/-- Kind 2 (R132), descriptor n: for a SHADOW, with its direct members on this device and what its home device says of
its tree. The depth of a plate with no burin below it is a free value. -/
def State.plateRec (s : State) (n : Nat) : Query :=
  let p := s.plate n
  let sh := decide (p.st = .shadow)
  let loc := 0x1000 + n
  let a := if sh then p.cell else s.addr loc
  let up := if sh then p.above.up else s.upChain loc
  let t := if sh then p.above.tree else s.tree a
  let key := s.rootKey a
  { bytes := le 4 a ++ le 1 p.st.code
      ++ le 1 (bit (p.st != .free && up == []) 0 + bit (decide (1 < t.devs.length)) 1 + bit (s.running key) 2 + bit (s.faulted key) 3)
      ++ le 2 p.members.length ++ le 4 (up.head?.getD 0xFFFFFFFF) ++ le 4 (up.getLast?.getD a)
      ++ le 4 t.burins ++ le 2 t.devs.length ++ le 2 (if t.burins = 0 then Config.emptyDepth else t.depth)
      ++ le 8 (s.cell (if sh then s.keyOf a else loc)).lastShot ++ p.members.flatMap (le 4) }

/-! ### Queues and ports -/

/-- Kind 3 (R57). -/
def State.meterRec (s : State) (res : Nat) : Query :=
  let m := (s.queue res).meter
  { bytes := le 2 res ++ le 2 (s.queue res).floor
      ++ (match m.minSlack with | some x => leI 4 x | none => le 4 0xFFFFFFFF)
      ++ ctrBytes [m.released, m.nearLate] ++ le 1 (ctrOvf [m.released, m.nearLate] + bit m.late 2) ++ pad 3
    reset := fun s => s.modQueue res fun q => { q with meter := {} } }

/-- Kind 4 (R182). -/
def State.rfRec (s : State) (p : Nat) : Query :=
  let q := s.port p
  let l := [q.clips, q.cuts, q.bad, q.missing, q.taken, q.unused, q.clamps]
  { bytes := le 2 p ++ le 1 q.banks.inPlay
      ++ le 1 (bit (s.muted p) 0 + bit q.banks.swap.isSome 1 + bit q.banks.draining 2 + bit q.hostmute 3 + bit q.mutedByOther 4)
      ++ ctrBytes l ++ le 1 (ctrOvf l) ++ pad 7
    reset := fun s => s.modPort p fun q =>
      { q with clips := {}, cuts := {}, bad := {}, missing := {}, taken := {}, unused := {}, clamps := {}, mutedByOther := false } }

/-- Kind 5 (R207). -/
def State.zRec (s : State) (z : Nat) : Query :=
  let c := s.z z
  let k := s.zc z
  let b := s.zbank (z / 64)
  let l := [k.mismatches, k.overcurrents, k.skipped, k.bad, k.clips, k.parkedPlays, k.missing]
  { bytes := le 2 (0x200 + z) ++ le 1 (c.span + c.dg * 8 + c.fps * 16)
      ++ le 1 (bit (c.st == .parked) 0 + bit (c.st == .safePark) 1 + bit c.settled 2 + bit c.ovc 3 + bit c.mismatch 4
        + bit c.unchecked 5 + bit (b.inPlay == 1) 6 + bit (b.swap.isSome || b.draining) 7)
      ++ le 4 c.code ++ le 4 c.park ++ leI 4 c.readback ++ leI 4 c.expected ++ ctrBytes l ++ le 1 (ctrOvf l) ++ pad 3
    reset := fun s => s.setZc z {} }

/-- A tone of a port whose chain runs delivers fill-marked samples now (R236, R240): its own grid's newest input reaches a
marked range. -/
def State.portMarked (s : State) (nn : Nat) : Bool :=
  let a := s.acqPort nn
  let hit (g : Grid) (set : RoSet) : Bool := g.filled a.fills set ((s.now - s.epoch) / g.period)
  (List.range 16).any (fun k => s.toneRuns (nn * 16 + k) && hit s.grid (s.rot (nn * 16 + k)).set)
    || (a.stip.any (fun e => s.stipRuns nn e.1) && hit (stipGrid s.epoch) (s.rot (0x100 + nn)).set)

/-- Kind 6 (R240). -/
def State.acqRec (s : State) (nn : Nat) : Query :=
  let a := s.acqPort nn
  let keys := (List.range 16).map (nn * 16 + ·)
  let l := [a.overranges, a.coarseSats, a.toneSats, a.swaps, a.alignments, a.chainOverruns]
  { bytes := le 2 (0x300 + nn) ++ le 1 (bit a.stipOwner.isSome 0)
      ++ le 1 (bit s.alignArm.isSome 0 + bit (((0x100 + nn) :: keys).any fun k => (s.rot k).firSwap.isSome) 1 + bit (s.portMarked nn) 2)
      ++ ctrBytes l ++ le 1 (ctrOvf l) ++ pad 3
      ++ (match a.alignAt with | some t => stampBytes (t * 65536) | none => pad 16)
    reset := fun s => s.modAcqPort nn fun a =>
      { a with overranges := {}, coarseSats := {}, toneSats := {}, swaps := {}, alignments := {}, chainOverruns := {} } }

def AcqSt.code : AcqSt → Nat
  | .idle => 0 | .primed => 1 | .filling => 2 | .waiting => 3 | .capturing => 4 | .rearming => 5 | .done => 6

/-- Kind 7 (R309). -/
def State.engineRec (s : State) (e : Nat) : Query :=
  let k := s.engine e
  let l := [k.captures, k.early, k.busyIgn, k.rearmIgn, k.forced, k.tdcMerged]
  { bytes := le 2 (0x400 + e) ++ le 1 k.st.code ++ le 1 (if k.st = .done then k.lat.nseg else k.seg)
      ++ ctrBytes l ++ le 1 (ctrOvf l) ++ pad 3 ++ le 4 (if k.armed then (s.bandwidth e k.lat).1 / (s.bandwidth e k.lat).2 else 0) ++ pad 4
    reset := fun s => s.modEngine e fun k =>
      { k with captures := {}, early := {}, busyIgn := {}, rearmIgn := {}, forced := {}, tdcMerged := {} } }

/-! ### Hatch and markers -/

/-- Kind 8 (R282): the watch flags, channel n in byte n ÷ 8. -/
def State.watchRec (s : State) : Query :=
  { bytes := (List.range 512).map fun i =>
      BitVec.ofNat 8 ((List.range 8).map fun k => bit (s.chan (8 * i + k)).watched k).sum
    reset := fun s => { s with chans := tmap {} (fun _ c => { c with watched := false }) s.chans } }

/-- Payloads of a data channel held at spacing or gate, and in flight. -/
def Channel.heldPays (c : Channel) : Nat := (tget {} c.inj 0).heldPay.length + c.atGate.length
def Channel.flying (c : Channel) : Nat := c.toGate.length + c.inFlight.length
def Channel.queued (c : Channel) : Nat := (tget {} c.con 0).arrivals.length

/-- Kind 9 (R287). -/
def State.chanRec (s : State) (ch : Nat) : Query :=
  let c := s.chan ch
  let k := s.chCtr ch
  let data : Bool := c.bound && c.kind == 2
  let l := [k.forwarded, k.gated, k.spaced, k.coalesced, k.overlaid, k.flushed, k.discarded]
  { bytes := le 2 ch ++ le 1 (if c.bound then c.kind else 0)
      ++ le 1 (bit c.wide 0 + bit c.stormFlag 1 + bit c.ovfFlag 2 + bit (c.bound && s.gateOpen c) 3 + bit (s.chanSpans c) 4)
      ++ le 1 c.prods.length ++ le 1 (if data then c.credits else 0) ++ le 1 (if data then c.queued + c.heldPays else 0)
      ++ le 1 (if data then c.flying + c.credFlight else 0) ++ le 2 c.cons.length ++ pad 2
      ++ ctrBytes l ++ le 4 k.peak ++ le 1 (ctrOvf l) ++ pad 3
    reset := fun s => s.setChCtr ch {} }

/-- Kind 10 (R327): the edges up to now are emitted first. -/
def State.markRec (s : State) : Query :=
  let m := advanceMarks s.now s.mark
  let st : Nat := match m.gen with | .idle => 0 | .armed _ => 1 | .sync _ => 1 | .playing => 2 | .shot => 3
  let sync : Bool := match m.gen with | .sync _ => true | _ => false
  let l := [m.segments, m.drops, m.merged, m.ignored, m.cuts, m.missing]
  { bytes := le 2 0x0500 ++ le 1 st ++ le 1 (bit sync 0 + bit m.stopped 1 + bit (m.sosel != 0xFF) 2)
      ++ ctrBytes l ++ le 1 (ctrOvf l) ++ pad 1 ++ le 2 (if st = 2 then m.seg else 0xFFFF)
    reset := fun s => { s with mark := { m with
      stopped := false, segments := {}, drops := {}, merged := {}, ignored := {}, cuts := {}, missing := {} } } }

/-! ### Faults, memory, domains, refusals -/

/-- Kind 11 (R512): the record of a root, or of the device. -/
def faultBytes (r : FaultRec) (cell : Nat) (dev : Bool) : List Byte :=
  le 2 0x0A00 ++ le 1 r.code ++ le 1 (bit (decide (r.codes ≠ [])) 0 + bit dev 1 + bit r.remoteFirst 2 + bit r.later.ovf 3 + bit r.remote.ovf 4)
    ++ le 4 cell ++ le 2 r.origin ++ pad 2 ++ le 4 r.later.n ++ le 4 r.remote.n ++ pad 4 ++ le 8 r.tick
    ++ (r.detail ++ pad 32).take 32

/-- The state of package memory (R445): 0 untrained or Off, 1 trained, 2 training failed. -/
def State.memState (s : State) : Nat :=
  let k := s.dom 4
  if s.mem.trained = 0 then 0
  else if k.wakeFailed && k.st == .off then 2
  else if k.st = .off || k.st = .waking then 0 else 1

/-- Kind 12 (R445). -/
def State.memRec (s : State) : Query :=
  let m := s.mem
  let bad : Bool := s.rings.any fun e => e.2.bad.ovf
  { bytes := le 2 0x0700 ++ le 1 s.memState ++ le 1 (bit ((s.dom 4).st == .retention) 0 + bit m.ueSince 1)
      ++ le 4 m.uncorrectable.n ++ le 8 m.lastUe
      ++ le 2 (bit m.uncorrectable.ovf 0 + bit m.heldWrites.ovf 1 + bit bad 2
        + ctrOvf ((List.range 8).map fun k => tget {} m.corrected k) * 8)
      ++ pad 2 ++ le 4 m.heldWrites.n
      ++ (List.range 8).flatMap fun k =>
        let d := tget (0, 0, 0) m.dies k
        le 1 d.1 ++ le 1 d.2.1 ++ le 1 d.2.2 ++ pad 1 ++ le 4 (tget {} m.corrected k).n
    reset := fun s => { s with mem := { s.mem with ueSince := false, uncorrectable := {}, heldWrites := {}, corrected := [] } } }

/-- Kind 13 (R463). -/
def State.domRec (s : State) (d : Nat) : Query :=
  let k := s.dom d
  let l := [k.wakes, k.failed, k.lostCtr]
  { bytes := le 1 d ++ le 1 k.st.code
      ++ le 1 (bit k.retLost 0 + bit k.wakeFailed 1 + bit k.wakeCh.isSome 2 + bit k.thermRefused 3)
      ++ le 1 k.lastSource ++ le 4 k.sourceRef ++ le 1 k.failedStep ++ le 1 k.lostBanks
      ++ le 2 (match k.wakeCh with | some c => c | none => 0xFFFF) ++ le 4 k.wakeUs ++ ctrBytes l ++ le 1 (ctrOvf l) ++ pad 3
    reset := fun s => s.modDom d fun k => { k with thermRefused := false, wakes := {}, failed := {}, lostCtr := {} } }

/-- Kind 14 (R466): newest first. -/
def State.logRec (s : State) : Query :=
  let g := s.refLog
  let l := [g.total, g.byDomain, g.byCommand, g.byRule]
  let one (e : Refused) : List Byte :=
    le 6 e.tick ++ le 1 e.what ++ le 1 e.status ++ le 2 e.target ++ le 1 e.kind ++ pad 1 ++ le 4 e.refuser
  { bytes := le 2 0x0800 ++ le 1 g.entries.length ++ le 1 (ctrOvf l + bit g.lost 4) ++ ctrBytes l
      ++ le 1 g.periodMode ++ le 1 (bit g.active 0) ++ pad 2 ++ le 8 g.start
      ++ g.entries.flatMap one ++ pad (16 * (32 - g.entries.length))
    reset := fun s => { s with refLog := { s.refLog with
      entries := [], lost := false, total := {}, byDomain := {}, byCommand := {}, byRule := {} } } }

/-! ### Housekeeping, calibration, boot -/

/-- Kind 15 (R487). -/
def State.houseRec (s : State) : Query :=
  let h := s.house
  let ns := (List.range 32).map fun n => tget {} h.nodes n
  let l := [h.disagree, h.plaus, h.injected, h.overruns]
  let idx := ns.zip (List.range 32)
  { bytes := le 2 0x0900 ++ le 1 h.devLevel
      ++ le 1 (bit (decide (h.cap < 100)) 0 + bit (ns.any fun x => x.failed) 1 + bit h.failA 2 + bit h.failB 3
        + bit h.shutLatch 4 + bit (s.nodeOpen 1) 5)
      ++ le 1 h.cap ++ pad 1 ++ le 2 (h.pfab / 10000) ++ le 2 (h.ptotal / 100000) ++ le 2 h.vcap ++ le 4 h.roundUs
      ++ ctrBytes l ++ le 1 (ctrOvf l) ++ pad 3
      ++ le 4 ((idx.map fun e => bit e.1.failed e.2).sum)
      ++ le 8 ((idx.map fun e => e.1.level * 4 ^ e.2).sum)
      ++ (List.range 32).flatMap (fun n => leI 2 (s.tj16 n))
      ++ (List.range 8).flatMap (fun k => leI 2 (match tget none h.lastDiodes k with | some v => v | none => 0))
      ++ (List.range 8).flatMap fun k => le 2 (tget 0 h.aux k)
    reset := fun s => { s with house := { s.house with disagree := {}, plaus := {}, injected := {}, overruns := {} } } }

/-- The steps left of a ramp. -/
def rampLeft (p : Option Ramp) : Nat := match p with | some p => p.r - p.k | none => 0

/-- Kind 16 (R507), an instance. -/
def State.calRec (s : State) (target i : Nat) : Query :=
  let c := s.calI i
  let auto : Bool := if i < 16 then (s.scope 1).auto else if i < 64 then false else (s.scope 3).auto
  let l := [c.runs, c.starved, c.abandoned, c.storeErrs]
  { bytes := le 4 target ++ le 1 c.st
      ++ le 1 (bit c.trimDue 0 + bit c.factory 1 + bit c.none_ 2 + bit c.badA 3 + bit c.badB 4 + bit auto 5)
      ++ leI 2 c.tjRun ++ leI 2 c.tjTrim ++ le 2 (rampLeft c.ramp) ++ pad 4 ++ le 8 (max c.genA c.genB)
      ++ ctrBytes l ++ le 1 (ctrOvf l) ++ pad 7
    reset := fun s => s.modCal i fun c => { c with runs := {}, starved := {}, abandoned := {}, storeErrs := {} } }

/-- Kind 16 (R507), the centroid tracking of a burin. -/
def State.centRec (s : State) (target b : Nat) : Query :=
  let t := s.cent b
  { bytes := le 4 target ++ le 1 (if t.ramp.isSome then 2 else if t.on then 1 else 0) ++ le 1 (bit (s.scope 2).auto 5)
      ++ pad 4 ++ le 2 (rampLeft t.ramp) ++ pad 12 ++ le 4 t.runs.n ++ pad 12 ++ le 1 (bit t.runs.ovf 0) ++ pad 7
    reset := fun s => s.setCent b { s.cent b with runs := {} } }

/-- Kind 17 and the sideband's BOOTREC (R543). -/
def State.bootRecBytes (s : State) : List Byte :=
  let b := s.boot
  le 2 0x0B00 ++ le 1 b.step
    ++ le 1 (bit b.cfgInvalid 0 + bit b.noSfdp 1 + bit b.fallback 2 + bit b.fwRaised 3 + bit b.dupSeen 4)
    ++ le 1 b.fwSlot ++ le 1 b.resultA ++ le 1 b.resultB ++ pad 1 ++ le 2 b.fwVer ++ le 1 b.fwSv
    ++ le 1 (max Config.fusedFwMin.val b.fwMin) ++ le 4 b.failedDoms ++ le 4 b.bootUs ++ le 4 b.flashId ++ le 1 b.dupPorts ++ pad 7

end Sys2Proof.Machine
end

