-- ==== Sys2Proof/Machine/Queries.lean ====
section
/-! DEFINITION. STATUS_QUERY, LEDGER_QUERY and PATCH_STATUS (R426–R428, R525, R526). -/

namespace Sys2Proof.Machine

/-- Answer with a record. -/
def Query.reply (q : Query) (len : Nat) (s : State) : Reply := queryReply len q.bytes q.reset s

/-! ### STATUS_QUERY -/

/-- The plate descriptor that a target names: one of this device that is no SHADOW (R137), or the SHADOW of the plate of
another device that it names. -/
def State.descriptor (s : State) (a : Nat) : Option Nat :=
  if !s.addrOk a || !isPlate (localOf a) then none
  else if s.isLocal a then (if (s.plateOf (localOf a)).st = .shadow then none else some (localOf a - 0x1000))
  else (s.shadowOf a).map Prod.fst

/-- The root cell that a fault record is kept for. -/
def State.faultKey (s : State) (a : Nat) : Option Nat :=
  if s.cellExists a && (!s.isLocal a || (s.cell (localOf a)).parent.isNone) then some (s.keyOf a) else none

/-- The record of a kind and target; none where the target names nothing (R426 and the chapters' kinds). -/
def State.statusRec (s : State) (kind target : Nat) : Option Query :=
  let zero (q : Query) : Option Query := if target = 0 then some q else none
  match kind with
  | 0 => zero s.deviceRec
  | 1 => if s.cellExists target && s.isLocal target && decide (localOf target < 0x400) then some (s.burinRec (localOf target)) else none
  | 2 => (s.descriptor target).map s.plateRec
  | 3 => if target < 0x3000 && resOk target then some (s.meterRec target) else none
  | 4 => if target < 0x20 || (0x100 ≤ target && decide (target < 0x110)) then some (s.rfRec target) else none
  | 5 => if 0x200 ≤ target && decide (target < 0x300) then some (s.zRec (target - 0x200)) else none
  | 6 => if 0x300 ≤ target && decide (target < 0x310) then some (s.acqRec (target - 0x300)) else none
  | 7 => if 0x400 ≤ target && decide (target < 0x410) then some (s.engineRec (target - 0x400)) else none
  | 8 => zero s.watchRec
  | 9 => if target < 4096 then some (s.chanRec target) else none
  | 10 => if target = 0x500 then some s.markRec else none
  | 11 => if target = 0xFFFFFFFF then some { bytes := faultBytes s.devFault target true }
    else (s.faultKey target).map fun k => { bytes := faultBytes (s.fault k) target false }
  | 12 => zero s.memRec
  | 13 => if target < 24 then some (s.domRec target) else none
  | 14 => zero s.logRec
  | 15 => zero s.houseRec
  | 16 => match firstSome (fun sc => instOf sc target) [1, 0x12, 3] with
    | some i => some (s.calRec target i)
    | none =>
      if s.cellExists target && s.isLocal target && decide (localOf target < 0x400) then some (s.centRec target (localOf target)) else none
  | 17 => zero { bytes := s.bootRecBytes }
  | _ => none

def statusReply (kind target len : Nat) (s : State) : Reply :=
  if 17 < kind then .bad s 0
  else match s.statusRec kind target with
    | some q => q.reply len s
    | none => .bad s 4

def execStatusQuery (h : Hdr) (kind target len : Nat) (s : State) : Host.Outcome State Fault Refusal :=
  .next (command h 0x58 24 anyMode (statusReply kind target len) s)

/-! ### LEDGER_QUERY -/

/-- The terms of a ledger record: total, the terms, which of them form the sum, and the extra count. -/
structure Ledger where
  total : Nat
  t0 : Nat
  t1 : Nat
  t2 : Nat := 0
  t3 : Nat := 0
  t4 : Nat := 0
  sum : Nat
  extra : Nat := 0

/-- Credit units of a lane that have been sent and not acknowledged. -/
def Jvl.unackedUnits (j : Jvl) (vl : Nat) : Nat :=
  ((j.retry vl).unacked.filter fun e => e.vl == vl).length

/-- The terms of a class and index (R526); none where the index names nothing. -/
def State.ledger (s : State) (cls index : Nat) : Option Ledger :=
  let ahead (a b : Nat) : Nat := (a + 65536 - b) % 65536
  match cls with
  | 0 =>
    if !s.queueExists index then none
    else
      let k := s.sq index
      let t1 := ahead k.submitted k.read
      let t2 := ahead k.read k.completed
      some { total := s.depthNow, t0 := s.depthNow - t1 - t2, t1, t2, sum := s.depthNow - t1 - t2 + t1 + t2 }
  | 1 =>
    if !s.queueExists index then none
    else
      let k := s.cq index
      let t1 := ahead k.written k.consumed
      some { total := s.depthNow, t0 := s.depthNow - t1, t1, t4 := k.held.length, sum := s.depthNow - t1 + t1 }
  | 2 =>
    let c := s.chan index
    if 4096 ≤ index || !c.bound || c.kind ≠ 2 then none
    else
      some { total := 4, t0 := c.credits, t1 := c.queued, t2 := c.heldPays, t3 := c.flying, t4 := c.credFlight
             sum := c.credits + c.queued + c.heldPays + c.flying + c.credFlight }
  | 3 =>
    if 0x3000 ≤ index || !resOk index then none
    else
      let q := s.queue index
      let t0 := 256 - q.entries.length - q.xbar.length - q.returning
      some { total := 256, t0, t1 := q.entries.length, t2 := q.xbar.length, t3 := q.returning
             sum := t0 + q.entries.length + q.xbar.length + q.returning }
  | 4 =>
    if 64 ≤ index then none
    else
      let r := s.ring index
      let t4 := (r.written - r.consumed) / 32
      some { total := r.dlen / 32, t0 := r.dlen / 32 - r.used, t1 := r.used, t3 := r.hlen / 32 - t4, t4
             sum := r.dlen / 32 - r.used + r.used, extra := r.bad.n }
  | 5 =>
    if 32 ≤ index then none
    else
      let j := s.jport (index / 4)
      let vl := index % 4
      let total := tget 0 j.advert vl
      let t0 := tget 0 j.credits vl
      let t1 := j.unackedUnits vl
      some { total, t0, t1, t2 := total - t0 - t1, sum := t0 + t1 + (total - t0 - t1) }
  | _ => none

/-- The record of R525. -/
def Ledger.bytes (l : Ledger) (cls index : Nat) : List Byte :=
  le 1 cls ++ le 1 (bit (l.sum == l.total) 0) ++ le 2 index ++ le 4 l.total ++ le 4 l.t0 ++ le 4 l.t1 ++ le 4 l.t2
    ++ le 4 l.t3 ++ le 4 l.t4 ++ le 4 l.extra

def ledgerReply (cls index len : Nat) (s : State) : Reply :=
  if 5 < cls then .bad s 0
  else match s.ledger cls index with
    | some l => queryReply len (l.bytes cls index) (fun s => if cls = 4 then s.modRing index fun r => { r with bad := {} } else s) s
    | none => .bad s 2

def execLedgerQuery (h : Hdr) (cls index len : Nat) (s : State) : Host.Outcome State Fault Refusal :=
  .next (command h 0x59 24 anyMode (ledgerReply cls index len) s)

/-! ### PATCH_STATUS -/

/-- Head, containers and dispatch entries (R428). -/
def State.patchRec (s : State) : List Byte :=
  let p := s.patches
  let entries := p.dispatch.filterMap fun e => e.2.map fun a => (e.1, a)
  le 4 Config.baseMicrocodeVersion.toNat ++ le 1 (max Config.fusedPatchMin.val p.minSv) ++ le 1 p.conts.length ++ le 2 entries.length
    ++ (List.range 4).flatMap (fun k => le 1 ((Config.keySlot k).val)) ++ pad 4
    ++ le 8 ((p.unavailable.map fun t => 2 ^ t).sum) ++ pad 8
    ++ p.conts.flatMap (fun c => le 2 c.patchId ++ le 2 c.patchVer ++ le 1 c.secVer ++ le 1 c.result ++ pad 2
      ++ le 2 c.first ++ le 2 c.words ++ pad 4)
    ++ entries.flatMap fun e => le 1 e.1 ++ pad 1 ++ le 2 (e.2 + 0x3000)

/-- The status that the containers' results give (R122, R428). -/
def State.patchStatus (s : State) : Nat × Why :=
  match s.patches.conts.find? fun c => 3 ≤ c.result && decide (c.result ≤ 6) with
  | some c => (stAuth, .auth c.patchId)
  | none => (if s.patches.conts.any fun c => c.result != 0 then stFault else stOk, .doubt)

def patchReply (len : Nat) (s : State) : Reply :=
  let r := queryReply len s.patchRec id s
  if r.status ≠ stOk then r else { r with status := s.patchStatus.1, why := s.patchStatus.2 }

def execPatchStatus (h : Hdr) (len : Nat) (s : State) : Host.Outcome State Fault Refusal :=
  .next (command h 0x5B 24 anyMode (patchReply len) s)

end Sys2Proof.Machine
end

