-- ==== Sys2Proof/Machine/Rings.lean ====
section
/-! DEFINITION. Record rings as the host sees them (R437–R444) and the patrol scrub of the package memory (R430). -/

namespace Sys2Proof.Machine

/-! ### RING_SET (R437, R438) -/

/-- A configured root names the ring (R438): some burin below it is loaded. -/
def State.recUses (s : State) (r : Nat) : Bool :=
  s.burins.any fun e => e.2.loaded && (s.cell (s.rootOf e.1)).recring == r

/-- A ring is in use. -/
def State.ringInUse (s : State) (r : Nat) : Bool :=
  s.recUses r || (s.streams.any fun e => e.2.open_ && e.2.ring == r)
    || (s.chans.any fun e => e.2.bound && e.2.kind == 2 && e.2.soft && e.2.ring == r)
    || (s.engines.any fun e => e.2.armed && e.2.lat.ring == r)
    || (s.tiu.any fun e => e.2.running && e.2.set.ring == r)

/-- The first field of a RING_SET that breaks its rule: a part's fields count where the part is enabled. -/
def ringField (a : RingArgs) : Option Nat :=
  let dev := a.flags.testBit 0
  let host := a.flags.testBit 1
  if 64 ≤ a.ring then some 0
  else if 8 ≤ a.flags then some 1
  else if 64 ≤ a.vec then some 2
  else if dev && (a.dbase % 4096 ≠ 0 || !inRing a.dbase a.dlen) then some 4
  else if dev && (a.dlen < 65536 || 33554432 < a.dlen || a.dlen % 4096 ≠ 0) then some 8
  else if 65536 ≤ a.cnt then some 12
  else if host && a.hbase % 4096 ≠ 0 then some 16
  else if host && (a.hlen < 4096 || 67108864 < a.hlen || a.hlen % 4096 ≠ 0) then some 24
  else if host && a.ctrl % 64 ≠ 0 then some 32
  else none

/-- The device part overlaps that of another enabled ring. -/
def State.ringOverlap (s : State) (a : RingArgs) : Bool :=
  s.rings.any fun e => e.1 != a.ring && e.2.dev && decide (a.dbase < e.2.dbase + e.2.dlen) && decide (e.2.dbase < a.dbase + a.dlen)

/-- The ring as RING_SET leaves it. -/
def Ring.set (r : Ring) (a : RingArgs) (fresh : Bool) : Ring :=
  let host := a.flags.testBit 1
  let r := if fresh then { r with recs := [], used := 0, woff := 0 } else r
  let r := if host && !r.host then { r with written := 0, consumed := 0, lastBad := none } else r
  let r := if host then r else { r with unsig := 0, unsigAt := none }
  { r with
    dev := a.flags.testBit 0, host, ien := a.flags.testBit 2, vec := a.vec, dbase := a.dbase, dlen := a.dlen, cnt := a.cnt
    hbase := a.hbase, hlen := a.hlen, itime := a.itime, ctrl := a.ctrl }

def ringSetReply (a : RingArgs) (s : State) : Reply :=
  match ringField a with
  | some o => .bad s o
  | none =>
    let r := s.ring a.ring
    let dev := a.flags.testBit 0
    let fresh := !dev || a.dbase ≠ r.dbase || a.dlen ≠ r.dlen
    if dev && s.ringOverlap a then .bad s 4
    else if r.dev && fresh && s.ringInUse a.ring then .busy s
    else if r.host && (a.hbase ≠ r.hbase || a.hlen ≠ r.hlen || a.ctrl ≠ r.ctrl) then .busy s
    else { s := s.setRing a.ring (r.set a fresh) }

def execRingSet (h : Hdr) (a : RingArgs) (s : State) : Host.Outcome State Fault Refusal :=
  .next (command h 0x26 48 anyMode (ringSetReply a) s)

/-! ### Transfer (R439, R440, R443, R444) -/

/-- The host part lacks space for a record with its PADs. -/
def Ring.lacks (r : Ring) (rec_ : RingRec) : Bool :=
  let n := rec_.bytes.length / 32
  let pads := padSlots (r.written / 32 % (r.hlen / 32)) n
  decide (r.hlen < r.written - r.consumed + 32 * (pads + n))

/-- The device reads consumed: a bad value is ignored, and counted once for as long as it is read (R440). -/
def Ring.readConsumed (r : Ring) (v : Nat) : Ring :=
  if r.written < v || v < r.consumed then
    if r.lastBad = some v then r else { r with lastBad := some v, bad := r.bad.bump }
  else { r with consumed := v, lastBad := none }

/-- What stands for a record whose granule reads as uncorrectable (R444). -/
def State.lostRec (s : State) (rec_ : RingRec) : List Byte :=
  match rec_.tag with
  | some (key, shot) =>
    withSeq (gapRec 5 (decide ((s.root key).lastSent = some shot)) shot 1 (s.rootAddr key) 0) (unle ((rec_.bytes.drop 4).take 2))
  | none => le 2 0x0071 ++ rec_.bytes.take 2 ++ pad (rec_.bytes.length - 4)

/-- What a transfer writes into host memory: PADs one per slot, the record, and then the control block's written (R440). -/
def Ring.hostWrites (r : Ring) (pads : Nat) (bytes : List Byte) : List (Nat × List Byte) :=
  let at_ (k : Nat) : Nat := r.hbase + (r.written + 32 * k) % r.hlen
  (List.range pads).map (fun k => (at_ k, padRec)) ++ [(at_ pads, bytes), (r.ctrl, le 8 (r.written + 32 * pads + bytes.length))]

/-- The oldest record of a ring moves to its host part, PADs first; written counts them, and the ring's vector is
raised under cnt and itime. -/
def moveRecord (k : Nat) (rec_ : RingRec) (rest : List RingRec) (uncorrectable : Bool) (s : State) : State :=
  let r := s.ring k
  let n := rec_.bytes.length / 32
  let slots := r.dlen / 32
  let addr := r.dbase + 32 * ((r.woff + slots - r.used + rec_.pads) % slots)
  let uncorrectable := uncorrectable || s.poisoned addr (32 * n)
  let s := if uncorrectable then noteUe addr s else s
  let bytes := if uncorrectable then s.lostRec rec_ else rec_.bytes
  let pads := padSlots (r.written / 32 % (r.hlen / 32)) (bytes.length / 32)
  let fire := r.ien && decide (r.cnt < r.unsig + 1)
  let s := s.setRing k { r with
    recs := rest, used := r.used - (rec_.pads + n), written := r.written + 32 * pads + bytes.length
    unsig := if fire then 0 else r.unsig + 1, unsigAt := if fire then none else some (r.unsigAt.getD s.now) }
  let s := match rec_.tag with
    | some (key, shot) => s.modRoot key fun t => { t with lastSent := some shot }
    | none => s
  let s := { s with out := { s.out with ring := tset [] s.out.ring k (r.hostWrites pads bytes) } }
  let s := if fire then raiseVec r.vec s else s
  each flushEngine ((List.range 16).filter fun e => (s.engine e).lat.ring == k) s

/-- RING_TRANSFER: where the host part lacks space the device first reads consumed, at most once per µs. -/
def execRingTransfer (r : Fin 64) (consumed : Nat) (uncorrectable : Bool) (s : State) : Host.Outcome State Fault Refusal :=
  .next (let k := s.ring r.val
    match k.recs with
    | [] => s
    | rec_ :: rest =>
      if !k.host || !s.isOn 4 || !s.isOn 2 || !s.host.linkUp then s
      else
        let may := match k.readAt with | some t => decide (t + us 1 ≤ s.now) | none => true
        let k := if k.lacks rec_ && may then { k.readConsumed consumed with readAt := some s.now } else k
        let s := s.setRing r.val k
        if k.lacks rec_ then s else moveRecord r.val rec_ rest uncorrectable s)

/-- RING_INTERRUPT_TIMER: itime after the first unsignalled record. -/
def execRingInterruptTimer (r : Fin 64) (s : State) : Host.Outcome State Fault Refusal :=
  .next (let k := s.ring r.val
    if timerDue k.ien k.itime k.unsigAt s.now then raiseVec k.vec (s.setRing r.val { k with unsigAt := none, unsig := 0 }) else s)

/-! ### PATROL_SCRUB (R430, R444) -/

/-- A corrected error counts against the die that holds its granule (R429). -/
def noteCorrected (g : Nat) (s : State) : State :=
  let die := g / 8 % 8
  { s with mem := { s.mem with corrected := tset {} s.mem.corrected die ((tget {} s.mem.corrected die).bump) } }

/-- The scrub finds correctable errors and granules that it cannot correct. -/
def execPatrolScrub (corrected : List Nat) (bad : List Nat) (s : State) : Host.Outcome State Fault Refusal :=
  .next (if !s.isOn 4 then s
    else
      let s := each noteCorrected (corrected.filter fun g => decide (g < 2 ^ 25)) s
      each (fun g s =>
        let s := noteUe (32 * g) s
        if s.mem.poison.contains g then s else { s with mem := { s.mem with poison := s.mem.poison ++ [g] } })
        (bad.filter fun g => decide (g < 2 ^ 25)) s)

end Sys2Proof.Machine
end

