-- ==== Sys2Proof/Machine/Sideband.lean ====
section
/-! DEFINITION. The sideband target (R547–R549): its request registers, its status reads and its CCCs. -/

namespace Sys2Proof.Machine

/-- What a sideband read returns. -/
def sbOut (l : List Byte) (s : State) : State := { s with out := { s.out with sb := l } }

/-- The status word of a request. -/
def sbStat (status : Nat) (busy done : Bool) : List Byte := le 4 (status % 256 + bit busy 8 + bit done 9)

/-! ### Power requests -/

/-- PWR_REQ (R450, R548, R549): reserved bits read 0; a request refused while BUSY leaves the register. -/
def execPwrReq (value : Word) (s : State) : Host.Outcome State Fault Refusal :=
  .next (let v := (value &&& 0x00FFFF7F#32)
    let d := bits v.toNat 0 5
    let st := bits v.toNat 5 2
    let target := d + st * 256
    let refuse (status : Nat) (why : Why) (s : State) : State :=
      logRefusal 2 status target why { s with side := { s.side with pwrStatus := status, pwrDone := s.side.pwrDone || !s.side.pwrBusy } }
    if !s.sys.railsOk then s
    else if s.sys.mode = .boot then refuse stMode .mode s
    else if s.side.pwrBusy then refuse stBusy .inUse s
    else
      let s : State := { s with side := { s.side with pwrReq := v } }
      let r := powerReply true 0 d st (bits v.toNat 8 16) s
      if r.status = stOk then
        let busy := decide (r.wait ≠ .nothing)
        { r.s with side := { r.s.side with pwrBusy := busy, pwrDone := !busy, pwrStatus := stOk } }
      else refuse r.status r.why r.s)

/-- PWR_STAT: a read clears DONE. -/
def execPwrStat (s : State) : Host.Outcome State Fault Refusal :=
  .next (sbOut (sbStat s.side.pwrStatus s.side.pwrBusy s.side.pwrDone) { s with side := { s.side with pwrDone := false } })

/-! ### Proof requests -/

/-- PROOF_REQ (R527, R528, R548, R549), with what PROOF_CELL holds: a request as PROOF_RUN makes it. -/
def execProofReq (value : Word) (cell : Word) (s : State) : Host.Outcome State Fault Refusal :=
  .next (let v := value.toNat % 256
    let target := 0x51 + 0xFF * 256
    let refuse (status : Nat) (why : Why) (s : State) : State :=
      logRefusal 0 status target why
        { s with side := { s.side with proofStatus := status, proofDone := s.side.proofDone || !s.side.proofBusy } }
    if !s.sys.railsOk then s
    else if s.sys.mode = .boot then refuse stMode .mode s
    else if s.side.proofBusy then refuse stBusy .inUse s
    else
      let s : State := { s with side := { s.side with proofReq := BitVec.ofNat 32 v, proofCell := cell } }
      if !proofModes.contains s.sys.mode then refuse stMode .mode s
      else
        let r := proofRequest (v % 2) (bits v 3 5) (bits v 1 2) cell.toNat s
        if r.status = stOk then
          let t := r.s.modSq sbQueue fun k => { k with flight := k.flight ++
            [{ cmdId := 0, opcode := 0x51, wait := r.wait, status := stOk, result := r.result, cell := none, what := 0, target }] }
          { t with side := { t.side with proofBusy := true, proofDone := false, proofStatus := stOk } }
        else refuse r.status r.why r.s)

/-- PROOF_STAT: a read clears DONE. -/
def execProofStat (s : State) : Host.Outcome State Fault Refusal :=
  .next (sbOut (sbStat s.side.proofStatus s.side.proofBusy s.side.proofDone) { s with side := { s.side with proofDone := false } })

/-! ### Reset -/

/-- RESET: the key resets the device; any other value is ignored (R532, R548). -/
def execReset (value : Word) (s : State) : Host.Outcome State Fault Refusal :=
  .next (if value = 0xC3A55A3C#32 && s.sys.mode ≠ .boot && s.sys.railsOk then beginReset s else s)

/-! ### CCCs (R547) -/

/-- The target takes part in an assignment only while it has no dynamic address. -/
def assign (addr : Nat) (s : State) : State :=
  if s.side.dyn.isSome then s else { s with side := { s.side with dyn := some (addr % 128) } }

def execEntdaa (addr : Nat) (s : State) : Host.Outcome State Fault Refusal := .next (assign addr s)

/-- SETDASA is addressed to the static address of R541. -/
def execSetdasa (addr : Nat) (s : State) : Host.Outcome State Fault Refusal := .next (assign addr s)

def execRstdaa (s : State) : Host.Outcome State Fault Refusal := .next { s with side := { s.side with dyn := none } }

/-- The provisioned ID, most significant byte first. -/
def execGetpid (s : State) : Host.Outcome State Fault Refusal := .next (sbOut (le 6 Config.i3cPid.toNat).reverse s)

def execGetbcr (s : State) : Host.Outcome State Fault Refusal := .next (sbOut [Config.i3cBcr] s)

def execGetdcr (s : State) : Host.Outcome State Fault Refusal := .next (sbOut [Config.i3cDcr] s)

/-- The target's status: two bytes whose value the rules do not state. -/
def execGetstatus (s : State) : Host.Outcome State Fault Refusal :=
  .next (sbOut [Config.freeByte s.free, Config.freeByte (s.free + 1)] { s with free := s.free + 2 })

end Sys2Proof.Machine
end

