-- ==== Sys2Proof/Machine/Dispatch.lean ====
section
/-! DEFINITION. One arm per command: a direct call of its meaning, or its rejection by name. -/

namespace Sys2Proof.Machine

def exec (i : Instr) (s : State) : Host.Outcome State Fault Refusal :=
  match i with
  | .powerUp => Sys2Proof.Machine.execPowerUp s
  | .resetN => Sys2Proof.Machine.execResetN s
  | .supplyLoss => Sys2Proof.Machine.execSupplyLoss s
  | .refclkValid => Sys2Proof.Machine.execRefclkValid s
  | .refclkLoss => Sys2Proof.Machine.execRefclkLoss s
  | .bootHost mgmtOk hostOk => Sys2Proof.Machine.execBootHost mgmtOk hostOk s
  | .bootFlash answers noSfdp flashId hdr cfg => Sys2Proof.Machine.execBootFlash answers noSfdp flashId hdr cfg s
  | .bootFirmware a b => Sys2Proof.Machine.execBootFirmware a b s
  | .bootDomains failed dies info => Sys2Proof.Machine.execBootDomains failed dies info s
  | .bootPatch dir badTiles => Sys2Proof.Machine.execBootPatch dir badTiles s
  | .bootFinal => Sys2Proof.Machine.execBootFinal s
  | .pcieLinkDown => Sys2Proof.Machine.execPcieLinkDown s
  | .sqdb q value opens => Sys2Proof.Machine.execSqdb q value opens s
  | .cqdb q value => Sys2Proof.Machine.execCqdb q value s
  | .sqctl q value => Sys2Proof.Machine.execSqctl q value s
  | .faultsum value => Sys2Proof.Machine.execFaultsum value s
  | .hbHost value => Sys2Proof.Machine.execHbHost value s
  | .hbCtl value => Sys2Proof.Machine.execHbCtl value s
  | .registerWrite offset bytes value => Sys2Proof.Machine.execRegisterWrite offset bytes value s
  | .hbDevAdvance => Sys2Proof.Machine.execHbDevAdvance s
  | .heartbeatTimeout => Sys2Proof.Machine.execHeartbeatTimeout s
  | .completionRelease cq => Sys2Proof.Machine.execCompletionRelease cq s
  | .cqInterruptTimer cq => Sys2Proof.Machine.execCqInterruptTimer cq s
  | .bar2Read addr len => Sys2Proof.Machine.execBar2Read addr len s
  | .bar2Write addr data => Sys2Proof.Machine.execBar2Write addr data s
  | .unknownCommand h opcode => Sys2Proof.Machine.execUnknownCommand h opcode s
  | .open_ h vmin vmax => Sys2Proof.Machine.execOpen h vmin vmax s
  | .close h => Sys2Proof.Machine.execClose h s
  | .queueResume h => Sys2Proof.Machine.execQueueResume h s
  | .fence h mask => Sys2Proof.Machine.execFence h mask s
  | .cellConfigure h cell items => Sys2Proof.Machine.execCellConfigure h cell items s
  | .cellLoad h cell flags preset image length dwords dmem presets => Sys2Proof.Machine.execCellLoad h cell flags preset image length dwords dmem presets s
  | .cellStart h cell period => Sys2Proof.Machine.execCellStart h cell period s
  | .cellStop h cell => Sys2Proof.Machine.execCellStop h cell s
  | .cellAbort h cell => Sys2Proof.Machine.execCellAbort h cell s
  | .cellAbortCommandForm h cell sq cmdId => Sys2Proof.Machine.execCellAbortCommandForm h cell sq cmdId s
  | .plateComposeCreate h plate => Sys2Proof.Machine.execPlateComposeCreate h plate s
  | .plateComposeAdd h plate members => Sys2Proof.Machine.execPlateComposeAdd h plate members s
  | .plateComposeRemove h plate members => Sys2Proof.Machine.execPlateComposeRemove h plate members s
  | .plateComposeSeal h plate => Sys2Proof.Machine.execPlateComposeSeal h plate s
  | .plateComposeDissolve h plate => Sys2Proof.Machine.execPlateComposeDissolve h plate s
  | .shotSchedule h cell count period origin => Sys2Proof.Machine.execShotSchedule h cell count period origin s
  | .segmentLoad h a => Sys2Proof.Machine.execSegmentLoad h a s
  | .filterLoad h target what bank swap src => Sys2Proof.Machine.execFilterLoad h target what bank swap src s
  | .markLoadLoad h first count tsmask segFirst segCount src => Sys2Proof.Machine.execMarkLoadLoad h first count tsmask segFirst segCount src s
  | .markLoadConfig h outputs mode idle offs fw sosel setSo => Sys2Proof.Machine.execMarkLoadConfig h outputs mode idle offs fw sosel setSo s
  | .markLoadStart h root seg source delay time => Sys2Proof.Machine.execMarkLoadStart h root seg source delay time s
  | .markLoadStop h => Sys2Proof.Machine.execMarkLoadStop h s
  | .streamOpen h source ring => Sys2Proof.Machine.execStreamOpen h source ring s
  | .streamClose h source => Sys2Proof.Machine.execStreamClose h source s
  | .align h source syncDelay time => Sys2Proof.Machine.execAlign h source syncDelay time s
  | .alignCancel h => Sys2Proof.Machine.execAlignCancel h s
  | .eventRouteBind h a => Sys2Proof.Machine.execEventRouteBind h a s
  | .eventRouteUnbind h channel => Sys2Proof.Machine.execEventRouteUnbind h channel s
  | .eventGate h mask value time => Sys2Proof.Machine.execEventGate h mask value time s
  | .gateChange => Sys2Proof.Machine.execGateChange s
  | .acqSet h engine a => Sys2Proof.Machine.execAcqSet h engine a s
  | .acqArm h engine => Sys2Proof.Machine.execAcqArm h engine s
  | .acqDisarm h engine => Sys2Proof.Machine.execAcqDisarm h engine s
  | .timeSetStepAbs h time => Sys2Proof.Machine.execTimeSetStepAbs h time s
  | .timeSetStepRel h ticks => Sys2Proof.Machine.execTimeSetStepRel h ticks s
  | .timeSetDomain h dom a => Sys2Proof.Machine.execTimeSetDomain h dom a s
  | .timeSetServo h a => Sys2Proof.Machine.execTimeSetServo h a s
  | .timeSetUtc h offset => Sys2Proof.Machine.execTimeSetUtc h offset s
  | .timeSelect h sel => Sys2Proof.Machine.execTimeSelect h sel s
  | .timeTimerArm h a => Sys2Proof.Machine.execTimeTimerArm h a s
  | .timeTimerStop h element index => Sys2Proof.Machine.execTimeTimerStop h element index s
  | .timeQuery h len => Sys2Proof.Machine.execTimeQuery h len s
  | .tiuMeasureStart h engine a => Sys2Proof.Machine.execTiuMeasureStart h engine a s
  | .tiuMeasureStop h engine => Sys2Proof.Machine.execTiuMeasureStop h engine s
  | .tiuMeasureQuery h engine len => Sys2Proof.Machine.execTiuMeasureQuery h engine len s
  | .calRun h scope target ramp => Sys2Proof.Machine.execCalRun h scope target ramp s
  | .calCommit h scope target ramp => Sys2Proof.Machine.execCalCommit h scope target ramp s
  | .calSet h scope auto dtemp cwin cdead ramp => Sys2Proof.Machine.execCalSet h scope auto dtemp cwin cdead ramp s
  | .powerSetDomain h domain state wake => Sys2Proof.Machine.execPowerSetDomain h domain state wake s
  | .powerSetGovernor h a => Sys2Proof.Machine.execPowerSetGovernor h a s
  | .proofRun h kind domain tests cell => Sys2Proof.Machine.execProofRun h kind domain tests cell s
  | .modeSet h mode => Sys2Proof.Machine.execModeSet h mode s
  | .statusQuery h kind target len => Sys2Proof.Machine.execStatusQuery h kind target len s
  | .ledgerQuery h cls index len => Sys2Proof.Machine.execLedgerQuery h cls index len s
  | .faultClear h scope target => Sys2Proof.Machine.execFaultClear h scope target s
  | .patchStatus h len => Sys2Proof.Machine.execPatchStatus h len s
  | .linkStatus h port len => Sys2Proof.Machine.execLinkStatus h port len s
  | .linkSet h port flags genmax loopback address pfx => Sys2Proof.Machine.execLinkSet h port flags genmax loopback address pfx s
  | .ringSet h a => Sys2Proof.Machine.execRingSet h a s
  | .hkSet h dislim slots => Sys2Proof.Machine.execHkSet h dislim slots s
  | .netSetDevnum h devnum => Sys2Proof.Machine.execNetSetDevnum h devnum s
  | .netSetRoutes h src first count => Sys2Proof.Machine.execNetSetRoutes h src first count s
  | .pwrReq value => Sys2Proof.Machine.execPwrReq value s
  | .proofReq value cell => Sys2Proof.Machine.execProofReq value cell s
  | .reset value => Sys2Proof.Machine.execReset value s
  | .pwrStat => Sys2Proof.Machine.execPwrStat s
  | .proofStat => Sys2Proof.Machine.execProofStat s
  | .entdaa addr => Sys2Proof.Machine.execEntdaa addr s
  | .setdasa addr => Sys2Proof.Machine.execSetdasa addr s
  | .rstdaa => Sys2Proof.Machine.execRstdaa s
  | .getpid => Sys2Proof.Machine.execGetpid s
  | .getbcr => Sys2Proof.Machine.execGetbcr s
  | .getdcr => Sys2Proof.Machine.execGetdcr s
  | .getstatus => Sys2Proof.Machine.execGetstatus s
  | .startEvent root => Sys2Proof.Machine.execStartEvent root s
  | .heldStart b => Sys2Proof.Machine.execHeldStart b s
  | .shotBoundary root => Sys2Proof.Machine.execShotBoundary root s
  | .entryArrival q => Sys2Proof.Machine.execEntryArrival q s
  | .creditReturn q => Sys2Proof.Machine.execCreditReturn q s
  | .putHoldRelease b => Sys2Proof.Machine.execPutHoldRelease b s
  | .governorInterval => Sys2Proof.Machine.execGovernorInterval s
  | .lineFetchComplete b uncorrectable => Sys2Proof.Machine.execLineFetchComplete b uncorrectable s
  | .waitWake b => Sys2Proof.Machine.execWaitWake b s
  | .nop b => Sys2Proof.Machine.execNop b s
  | .end_ b => Sys2Proof.Machine.execEnd b s
  | .jmp b off => Sys2Proof.Machine.execJmp b off s
  | .jt b gs n => Sys2Proof.Machine.execJt b gs n s
  | .rep b gs len => Sys2Proof.Machine.execRep b gs len s
  | .repi b count len => Sys2Proof.Machine.execRepi b count len s
  | .beq b ga gb off => Sys2Proof.Machine.execBeq b ga gb off s
  | .bne b ga gb off => Sys2Proof.Machine.execBne b ga gb off s
  | .blt b ga gb off => Sys2Proof.Machine.execBlt b ga gb off s
  | .bge b ga gb off => Sys2Proof.Machine.execBge b ga gb off s
  | .bltu b ga gb off => Sys2Proof.Machine.execBltu b ga gb off s
  | .bgeu b ga gb off => Sys2Proof.Machine.execBgeu b ga gb off s
  | .beqz b ga off => Sys2Proof.Machine.execBeqz b ga off s
  | .bnez b ga off => Sys2Proof.Machine.execBnez b ga off s
  | .add b gd ga gb => Sys2Proof.Machine.execAdd b gd ga gb s
  | .sub b gd ga gb => Sys2Proof.Machine.execSub b gd ga gb s
  | .and_ b gd ga gb => Sys2Proof.Machine.execAnd b gd ga gb s
  | .or_ b gd ga gb => Sys2Proof.Machine.execOr b gd ga gb s
  | .xor_ b gd ga gb => Sys2Proof.Machine.execXor b gd ga gb s
  | .shl b gd ga gb => Sys2Proof.Machine.execShl b gd ga gb s
  | .shr b gd ga gb => Sys2Proof.Machine.execShr b gd ga gb s
  | .sar b gd ga gb => Sys2Proof.Machine.execSar b gd ga gb s
  | .mul b gd ga gb => Sys2Proof.Machine.execMul b gd ga gb s
  | .mulh b gd ga gb => Sys2Proof.Machine.execMulh b gd ga gb s
  | .min b gd ga gb => Sys2Proof.Machine.execMin b gd ga gb s
  | .max b gd ga gb => Sys2Proof.Machine.execMax b gd ga gb s
  | .minu b gd ga gb => Sys2Proof.Machine.execMinu b gd ga gb s
  | .maxu b gd ga gb => Sys2Proof.Machine.execMaxu b gd ga gb s
  | .adds b gd ga gb => Sys2Proof.Machine.execAdds b gd ga gb s
  | .subs b gd ga gb => Sys2Proof.Machine.execSubs b gd ga gb s
  | .addi b gd ga imm => Sys2Proof.Machine.execAddi b gd ga imm s
  | .andi b gd ga imm => Sys2Proof.Machine.execAndi b gd ga imm s
  | .ori b gd ga imm => Sys2Proof.Machine.execOri b gd ga imm s
  | .xori b gd ga imm => Sys2Proof.Machine.execXori b gd ga imm s
  | .shli b gd ga imm => Sys2Proof.Machine.execShli b gd ga imm s
  | .shri b gd ga imm => Sys2Proof.Machine.execShri b gd ga imm s
  | .sari b gd ga imm => Sys2Proof.Machine.execSari b gd ga imm s
  | .movi b gd imm => Sys2Proof.Machine.execMovi b gd imm s
  | .movhi b gd imm => Sys2Proof.Machine.execMovhi b gd imm s
  | .addpi b gd imm => Sys2Proof.Machine.execAddpi b gd imm s
  | .addp b gd gb => Sys2Proof.Machine.execAddp b gd gb s
  | .mov b gd ga => Sys2Proof.Machine.execMov b gd ga s
  | .extu b gd ga pos w => Sys2Proof.Machine.execExtu b gd ga pos w s
  | .exts b gd ga pos w => Sys2Proof.Machine.execExts b gd ga pos w s
  | .shin b gd ga w => Sys2Proof.Machine.execShin b gd ga w s
  | .dep b gd ga pos w => Sys2Proof.Machine.execDep b gd ga pos w s
  | .movpi b pd imm => Sys2Proof.Machine.execMovpi b pd imm s
  | .movmi b md imm => Sys2Proof.Machine.execMovmi b md imm s
  | .movpg b pd g => Sys2Proof.Machine.execMovpg b pd g s
  | .movgp b g ps => Sys2Proof.Machine.execMovgp b g ps s
  | .movmg b md g => Sys2Proof.Machine.execMovmg b md g s
  | .modp b pd ms => Sys2Proof.Machine.execModp b pd ms s
  | .leap b pd ps g sh => Sys2Proof.Machine.execLeap b pd ps g sh s
  | .ld b g m => Sys2Proof.Machine.execLd b g m s
  | .st b g m => Sys2Proof.Machine.execSt b g m s
  | .ldd b g m => Sys2Proof.Machine.execLdd b g m s
  | .std b g m => Sys2Proof.Machine.execStd b g m s
  | .ldx b g pa gx => Sys2Proof.Machine.execLdx b g pa gx s
  | .stx b g pa gx => Sys2Proof.Machine.execStx b g pa gx s
  | .cadd b gd ga gb => Sys2Proof.Machine.execCadd b gd ga gb s
  | .csub b gd ga gb => Sys2Proof.Machine.execCsub b gd ga gb s
  | .csubm b g gx pa k => Sys2Proof.Machine.execCsubm b g gx pa k s
  | .cmulr b gd ga gb => Sys2Proof.Machine.execCmulr b gd ga gb s
  | .cconj b gd ga => Sys2Proof.Machine.execCconj b gd ga s
  | .cscl b gd ga gb => Sys2Proof.Machine.execCscl b gd ga gb s
  | .cmag2 b gd ga => Sys2Proof.Machine.execCmag2 b gd ga s
  | .wsq b g gx pa k => Sys2Proof.Machine.execWsq b g gx pa k s
  | .dsq b gs pd md pa ma => Sys2Proof.Machine.execDsq b gs pd md pa ma s
  | .cpk b gd ga gb => Sys2Proof.Machine.execCpk b gd ga gb s
  | .clra b acc => Sys2Proof.Machine.execClra b acc s
  | .mova b acc g => Sys2Proof.Machine.execMova b acc g s
  | .mac b acc g gb => Sys2Proof.Machine.execMac b acc g gb s
  | .msu b acc g gb => Sys2Proof.Machine.execMsu b acc g gb s
  | .cmul b pair g gb => Sys2Proof.Machine.execCmul b pair g gb s
  | .cmac b pair g gb => Sys2Proof.Machine.execCmac b pair g gb s
  | .cmacj b pair g gb => Sys2Proof.Machine.execCmacj b pair g gb s
  | .cmacm b pair g m => Sys2Proof.Machine.execCmacm b pair g m s
  | .rnd b g acc n => Sys2Proof.Machine.execRnd b g acc n s
  | .rndc b g pair n => Sys2Proof.Machine.execRndc b g pair n s
  | .sha b acc n => Sys2Proof.Machine.execSha b acc n s
  | .argmin b gd pa n => Sys2Proof.Machine.execArgmin b gd pa n s
  | .argmax b gd pa n => Sys2Proof.Machine.execArgmax b gd pa n s
  | .argmins b gd pa n => Sys2Proof.Machine.execArgmins b gd pa n s
  | .argmaxs b gd pa n => Sys2Proof.Machine.execArgmaxs b gd pa n s
  | .put b slot g pa ma => Sys2Proof.Machine.execPut b slot g pa ma s
  | .qfree b g slot => Sys2Proof.Machine.execQfree b g slot s
  | .evs b slot => Sys2Proof.Machine.execEvs b slot s
  | .evw b slot => Sys2Proof.Machine.execEvw b slot s
  | .evt b g slot => Sys2Proof.Machine.execEvt b g slot s
  | .dsend b slot g => Sys2Proof.Machine.execDsend b slot g s
  | .drecv b g slot => Sys2Proof.Machine.execDrecv b g slot s
  | .dpoll b g slot => Sys2Proof.Machine.execDpoll b g slot s
  | .waitt b g => Sys2Proof.Machine.execWaitt b g s
  | .waitq b slot g => Sys2Proof.Machine.execWaitq b slot g s
  | .waitc b slot => Sys2Proof.Machine.execWaitc b slot s
  | .now b g => Sys2Proof.Machine.execNow b g s
  | .iqrd b g => Sys2Proof.Machine.execIqrd b g s
  | .iqpoll b g => Sys2Proof.Machine.execIqpoll b g s
  | .rec_ b m => Sys2Proof.Machine.execRec b m s
  | .mfs b g sr => Sys2Proof.Machine.execMfs b g sr s
  | .mts b sr g => Sys2Proof.Machine.execMts b sr g s
  | .patchOpcode b op fields => Sys2Proof.Machine.execPatchOpcode b op fields s
  | .segPlay t => Sys2Proof.Machine.execSegPlay t s
  | .toneSet t => Sys2Proof.Machine.execToneSet t s
  | .stop t => Sys2Proof.Machine.execStop t s
  | .jump t => Sys2Proof.Machine.execJump t s
  | .nullPutDiscard b => Sys2Proof.Machine.execNullPutDiscard b s
  | .segmentStart t => Sys2Proof.Machine.execSegmentStart t s
  | .decisionPoint t => Sys2Proof.Machine.execDecisionPoint t s
  | .playEnd t => Sys2Proof.Machine.execPlayEnd t s
  | .bias z => Sys2Proof.Machine.execBias z s
  | .zplay z => Sys2Proof.Machine.execZplay z s
  | .zstop z => Sys2Proof.Machine.execZstop z s
  | .fastPlayEnd z => Sys2Proof.Machine.execFastPlayEnd z s
  | .parkSwitchOpen z => Sys2Proof.Machine.execParkSwitchOpen z s
  | .biasSettled z => Sys2Proof.Machine.execBiasSettled z s
  | .overCurrent z => Sys2Proof.Machine.execOverCurrent z s
  | .alignmentEvent => Sys2Proof.Machine.execAlignmentEvent s
  | .pointFormed tone xs => Sys2Proof.Machine.execPointFormed tone xs s
  | .streamBlock src xs => Sys2Proof.Machine.execStreamBlock src xs s
  | .chainOverrun src lost => Sys2Proof.Machine.execChainOverrun src lost s
  | .centroidUpdate b => Sys2Proof.Machine.execCentroidUpdate b s
  | .dropStateExit root => Sys2Proof.Machine.execDropStateExit root s
  | .spacingEnd ch producer => Sys2Proof.Machine.execSpacingEnd ch producer s
  | .gatePointArrival ch => Sys2Proof.Machine.execGatePointArrival ch s
  | .gateOpenRelease ch => Sys2Proof.Machine.execGateOpenRelease ch s
  | .triggerLatch ch consumer merged => Sys2Proof.Machine.execTriggerLatch ch consumer merged s
  | .payloadArrival ch => Sys2Proof.Machine.execPayloadArrival ch s
  | .hatchCreditArrival ch => Sys2Proof.Machine.execHatchCreditArrival ch s
  | .softConsumerTake ch => Sys2Proof.Machine.execSoftConsumerTake ch s
  | .armEvent e => Sys2Proof.Machine.execArmEvent e s
  | .writingBegins e => Sys2Proof.Machine.execWritingBegins e s
  | .preTriggerFull e => Sys2Proof.Machine.execPreTriggerFull e s
  | .triggerAccept e xs => Sys2Proof.Machine.execTriggerAccept e xs s
  | .forceTrigger e xs => Sys2Proof.Machine.execForceTrigger e xs s
  | .captureComplete e xs => Sys2Proof.Machine.execCaptureComplete e xs s
  | .rearmEnd e => Sys2Proof.Machine.execRearmEnd e s
  | .playbackStart => Sys2Proof.Machine.execPlaybackStart s
  | .markerSegmentStart => Sys2Proof.Machine.execMarkerSegmentStart s
  | .playbackEnd => Sys2Proof.Machine.execPlaybackEnd s
  | .followPulseEnd k => Sys2Proof.Machine.execFollowPulseEnd k s
  | .trigInEdge pin rising => Sys2Proof.Machine.execTrigInEdge pin rising s
  | .syncInEdge => Sys2Proof.Machine.execSyncInEdge s
  | .ppsEdge dom ps => Sys2Proof.Machine.execPpsEdge dom ps s
  | .stamp source falling c2 n => Sys2Proof.Machine.execStamp source falling c2 n s
  | .coreCalibration chan core hits => Sys2Proof.Machine.execCoreCalibration chan core hits s
  | .loopLock chan => Sys2Proof.Machine.execLoopLock chan s
  | .gateEnd e => Sys2Proof.Machine.execGateEnd e s
  | .sync m => Sys2Proof.Machine.execSync m s
  | .followUp hdr seq originPs => Sys2Proof.Machine.execFollowUp hdr seq originPs s
  | .delayResp hdr seq t4Ps => Sys2Proof.Machine.execDelayResp hdr seq t4Ps s
  | .announce hdr grandmaster rank utc utcValid delayInt syncInt => Sys2Proof.Machine.execAnnounce hdr grandmaster rank utc utcValid delayInt syncInt s
  | .delayReq dom => Sys2Proof.Machine.execDelayReq dom s
  | .domainLoss dom => Sys2Proof.Machine.execDomainLoss dom s
  | .revert => Sys2Proof.Machine.execRevert s
  | .holdoverEvaluation => Sys2Proof.Machine.execHoldoverEvaluation s
  | .timerEvent n => Sys2Proof.Machine.execTimerEvent n s
  | .windowEdge n => Sys2Proof.Machine.execWindowEdge n s
  | .timeOutPulse n => Sys2Proof.Machine.execTimeOutPulse n s
  | .signalDetect p lane => Sys2Proof.Machine.execSignalDetect p lane s
  | .blockLock p lane => Sys2Proof.Machine.execBlockLock p lane s
  | .train p lane inverted ts => Sys2Proof.Machine.execTrain p lane inverted ts s
  | .trainingTimeout p => Sys2Proof.Machine.execTrainingTimeout p s
  | .linkLoss p cause => Sys2Proof.Machine.execLinkLoss p cause s
  | .hatchData p tag f => Sys2Proof.Machine.execHatchData p tag f s
  | .hatchCredit p tag f => Sys2Proof.Machine.execHatchCredit p tag f s
  | .doubt p tag dest root => Sys2Proof.Machine.execDoubt p tag dest root s
  | .tReqSend dom => Sys2Proof.Machine.execTReqSend dom s
  | .tReq p tag exch => Sys2Proof.Machine.execTReq p tag exch s
  | .tResp p tag exch t2Ps => Sys2Proof.Machine.execTResp p tag exch t2Ps s
  | .tFollow p tag exch dev parent hops tstate t3Ps t4Ps => Sys2Proof.Machine.execTFollow p tag exch dev parent hops tstate t3Ps t4Ps s
  | .controlFrame p tag src len m => Sys2Proof.Machine.execControlFrame p tag src len m s
  | .bulkFrame p tag dest len => Sys2Proof.Machine.execBulkFrame p tag dest len s
  | .linkBlock p lb => Sys2Proof.Machine.execLinkBlock p lb s
  | .linkBlockSend p => Sys2Proof.Machine.execLinkBlockSend p s
  | .alignRowSend p => Sys2Proof.Machine.execAlignRowSend p s
  | .timePortBringup tenG up => Sys2Proof.Machine.execTimePortBringup tenG up s
  | .arpRequest ip => Sys2Proof.Machine.execArpRequest ip s
  | .ringTransfer r consumed uncorrectable => Sys2Proof.Machine.execRingTransfer r consumed uncorrectable s
  | .ringInterruptTimer r => Sys2Proof.Machine.execRingInterruptTimer r s
  | .patrolScrub corrected bad => Sys2Proof.Machine.execPatrolScrub corrected bad s
  | .regulatorReady d => Sys2Proof.Machine.execRegulatorReady d s
  | .oscillatorReady d => Sys2Proof.Machine.execOscillatorReady d s
  | .isolationRelease d => Sys2Proof.Machine.execIsolationRelease d s
  | .restore d info => Sys2Proof.Machine.execRestore d info s
  | .wakeTimeout d => Sys2Proof.Machine.execWakeTimeout d s
  | .entryComplete d => Sys2Proof.Machine.execEntryComplete d s
  | .slowRound z => Sys2Proof.Machine.execSlowRound z s
  | .roundEnd r => Sys2Proof.Machine.execRoundEnd r s
  | .injectedSequence z => Sys2Proof.Machine.execInjectedSequence z s
  | .shutdownAction => Sys2Proof.Machine.execShutdownAction s
  | .adcBlindRunEnd port rmsLow clipped est => Sys2Proof.Machine.execAdcBlindRunEnd port rmsLow clipped est s
  | .zstatRunEnd q est => Sys2Proof.Machine.execZstatRunEnd q est s
  | .trimEnd scope target est zest => Sys2Proof.Machine.execTrimEnd scope target est zest s
  | .storeWrite inst upFirst upSecond => Sys2Proof.Machine.execStoreWrite inst upFirst upSecond s
  | .proofRunEnd run signature expected badTiles => Sys2Proof.Machine.execProofRunEnd run signature expected badTiles s
  | .resetNRelease => Sys2Proof.Machine.execResetNRelease s
  | .idleRowSend p => Sys2Proof.Machine.execIdleRowSend p s
  | .timePortDown => Sys2Proof.Machine.execTimePortDown s
  | .pcieLinkUp gen width => Sys2Proof.Machine.execPcieLinkUp gen width s
  | .otherFrame => Sys2Proof.Machine.execOtherFrame s

end Sys2Proof.Machine
end

