-- ==== Sys2Proof/Machine/Synth.lean ====
section
/-! DEFINITION. The synthesis path of drive and probe ports (R150–R154, R165, R179, R180) and the output path of Z channels
(R183–R198), stage by stage and tick by tick: what a tick's samples are is settled when the tick is over, and reaches the
ball some ticks later (log 158). -/

namespace Sys2Proof.Machine

/-! ### Phases (R152–R154) -/

/-- The cosine of a phase in 2^-51 turn, in units of 2^-96, its error below 2^-80. -/
def cosFine (phi : Int) : Int :=
  let k := low 51 phi
  let r := k % 2 ^ 49
  let base (r : Nat) : Int :=
    let x := pi96 * 2 * r / 2 ^ 51
    cosTerms ((x * x / 2 ^ 96 : Nat) : Int) 20 0 (2 ^ 96) (2 ^ 96)
  match k / 2 ^ 49 with
  | 0 => base r
  | 1 => -(base (2 ^ 49 - r))
  | 2 => -(base r)
  | _ => base (2 ^ 49 - r)

def sinFine (phi : Int) : Int := cosFine (phi - 562949953421312)

/-- The effective fine word of a play (R153). -/
def effective (n : Tone) (p : Play) : Int := clampF (n.ftw + p.foff * 65536)

/-- θf of a tone in a play at a tick (R154), in 2^-51 turn. The play's offset counts from its release. -/
def State.thetaF (s : State) (n : Tone) (p : Play) (tick : Nat) : Int :=
  trackAt s n (tick : Int) + ((n.phase + p.phase) * 2 ^ 35 : Nat)
    + (effective n p - clampF n.ftw) * ((tick : Int) - (p.rel : Int))

/-! ### Stages 1 to 4, per sample of 2.5 GS/s -/

/-- Stage 1: the envelope sample of a play that is due at a tick, none once its segment has ended. -/
def State.envelope (s : State) (t : Nat) (p : Play) (tick : Nat) : Option (Int × Int) :=
  let b := s.port (tonePort t)
  let bank := if p.bank = 0 then b.banks.b0 else b.banks.b1
  let n := (tick - p.start) / 8
  if tick < p.start || p.len ≤ n then none
  else
    let w := (tget 0 bank.samples ((tget {} bank.segs p.seg).start + n)).toNat
    some (sgn 16 (bits w 0 16), sgn 16 (bits w 16 16))

/-- Stage 2: an envelope whose first sample falls between two ticks of the 2.5 GS/s grid is delayed to it, by a filter of
which only the accuracy is stated (R165). `l` are the play's samples so far, newest first. -/
def placed (d : Nat) (l : List (Int × Int)) : Int × Int :=
  if d = 0 || l.all (· == (0, 0)) then l.head?.getD (0, 0)
  else ((q15 (Config.place d (l.map Prod.fst)) 0).1, (q15 (Config.place d (l.map Prod.snd)) 0).1)

/-- Stage 3, and R165's y(n): the product of envelope, amplitudes and phasor, narrowed, and whether it saturated. -/
def toneMix (e : Int × Int) (amp : Int) (phi : Int) : (Int × Int) × Bool :=
  let c := cosFine phi
  let d := sinFine phi
  let (i, x) := q15 ((e.1 * c - e.2 * d) * amp) 126
  let (q, y) := q15 ((e.1 * d + e.2 * c) * amp) 126
  ((i, q), x || y)

/-- One tone at a tick of the grid: the tone with its envelope samples so far, its output, whether it saturated. -/
def State.toneStep (s : State) (t tick : Nat) : Tone × (Int × Int) × Bool :=
  let n := s.tone t
  match n.play with
  | none => ({ n with env := [] }, (0, 0), false)
  | some p => match s.envelope t p tick with
    | none => (n, (0, 0), false)
    | some e =>
      let l := (e :: n.env).take 32
      let (y, sat) := toneMix (placed (p.start % 8) l) (sgn 16 n.amp * sgn 16 p.amp) (s.thetaF n p tick)
      ({ n with env := l }, y, sat)

/-- Stages 1 to 4 of a port at a tick of the grid: the sum is narrowed to Q1.15 and kept; saturated samples count. -/
def sumTones (p tick : Nat) (s : State) : State :=
  let outs := (portTones p).map fun t => (t, s.toneStep t tick)
  let s := each (fun o s => if s.tone o.1 = o.2.1 then s else s.setTone o.1 o.2.1) outs s
  let (i, x) := q15 ((outs.map fun o => o.2.2.1.1).sum) 0
  let (q, y) := q15 ((outs.map fun o => o.2.2.1.2).sum) 0
  let sats := (outs.filter fun o => o.2.2.2).length + (x || y).toNat
  s.modPort p fun r => { r with sums := push 64 (0, 0) (i, q) r.sums, clips := r.clips.add sats }

/-! ### Stages 5 to 8, per tick -/

/-- Stage 5: one component of the interpolation by 8 at a phase of the grid; the filter's coefficients are not stated, and
a silent input gives a silent output. -/
def interp8 (l : List Int) (phase : Nat) : Int × Bool :=
  if l.all (· == 0) then (0, false) else q15 (Config.interp8 l phase) 0

/-- Stage 6: I·cos θc − Q·sin θc. -/
def coarseMix (i q theta : Int) : Int × Bool := q15 (i * cosFine (theta * 8) - q * sinFine (theta * 8)) 96

/-- Stage 7: the inverse sinc filter over the newest samples; its coefficients are not stated. -/
def inverseSinc (l : List Int) : Int × Bool := if l.all (· == 0) then (0, false) else q15 (Config.inverseSinc l) 0

/-- Stages 5 to 8 of a port for a tick: its DAC code sets out toward the ball. -/
def portTick (p tick : Nat) (s : State) : State :=
  let r := s.port p
  let (i, a) := interp8 (r.sums.map Prod.fst) (tick % 8)
  let (q, b) := interp8 (r.sums.map Prod.snd) (tick % 8)
  let (x, c) := coarseMix i q (s.thetaC r.center tick)
  let rf := push 64 0 x r.rf
  let (y, d) := if r.isinc = 1 then inverseSinc rf else (x, false)
  let (code, e) := narrow y 2 (-8192) 8191
  s.setPort p { r with
    rf, line := push 360 0 code r.line
    clips := r.clips.add ((a || b).toNat + c.toNat + d.toNat + e.toNat) }

/-- The synthesis of every port for the tick that ends. -/
def synthTick (s : State) : State :=
  each (fun p s => portTick p s.now (if s.now % 8 = 0 then sumTones p s.now s else s)) (tkeys s.ports) s

/-! ### Z channels (R183–R198) -/

/-- The deglitcher's slew limit of 50 V/µs (R194), in 2^-18 µV per tick. -/
def slewStep : Int := 2500 * 2 ^ 18

/-- The deglitcher's output at a tick: held after a load, then toward the ladder within the slew limit; off, the ladder's. -/
def ZChan.track (c : ZChan) (tick : Nat) : Int :=
  if c.dg ≠ 1 then c.ladder
  else if tick < c.holdTo then c.out
  else max (c.out - slewStep) (min (c.out + slewStep) c.ladder)

/-- The fast DAC's code at a tick, and whether a sample that saturated came into force at it (R195). -/
def State.fastCode (s : State) (z tick : Nat) : Int × Bool :=
  match (s.z z).fast with
  | none => (0, false)
  | some f =>
    let n := (tick - f.rel) / 16
    if tick < f.rel then (0, false)
    else if f.held then (f.code, false)
    else if n < f.len then
      let (c, b) := s.fastSample z f n
      (c, b && decide ((tick - f.rel) % 16 = 0))
    else if f.hold then ((s.fastSample z f (f.len - 1)).1, false)
    else (0, false)

/-- The output path of a channel for a tick. -/
def zTick (z tick : Nat) (s : State) : State :=
  let c := s.z z
  let (d, clip) := s.fastCode z tick
  let c := c.setOut tick (c.track tick)
  let c := { c with dac := d, dacPast := keepPast fastDelay tick c.dac d c.dacPast }
  let s := if clip then s.modZc z fun k => { k with clips := k.clips.bump } else s
  if c = s.z z then s else s.setZ z c

/-- The output paths of every channel for the tick that ends. -/
def zTicks (s : State) : State := each (fun z s => zTick z s.now s) (tkeys s.zch) s

/-- What a Z ball presents: high impedance, 0 V through the closed park switch, or the summing amplifier's output in
2^-18 µV, which the current limiter may hold below that (R197, R198), with whether its bias has settled. -/
inductive ZBall where
  | floating
  | parked
  | volts (v : Int) (settled : Bool)
  deriving DecidableEq, Repr

/-- The bias voltage at the ball, 20 ns after the deglitcher, and the fast voltage, 12 ns after the DAC. -/
def State.zBias (s : State) (z : Nat) : Int := pastAt (s.z z).outPast (s.z z).out (s.now - biasDelay)
def State.zFast (s : State) (z : Nat) : Int := fastVolt (s.z z).fps (pastAt (s.z z).dacPast (s.z z).dac (s.now - fastDelay))

/-- The ball of a channel (R183, R197, R198). -/
def State.zBall (s : State) (z : Nat) : ZBall :=
  match (s.z z).st with
  | .float => .floating
  | .parked => .parked
  | .driven => .volts (s.zBias z + s.zFast z) (s.z z).settled
  | .safePark => .volts (s.zBias z) (s.z z).settled

/-! ### The ball of a port (R150, R179, R180) -/

/-- What a ball presents. -/
inductive Ball where
  | floating
  | terminated
  | code (c : Int)
  deriving DecidableEq, Repr

/-- The ball of a port: floating in Off, the termination in Retention (R461) and while muted, else the code of 18 ns
ago. -/
def State.ball (s : State) (p : Nat) : Ball :=
  match s.edgeSt (outDom p) with
  | .off => .floating
  | .on => if s.muted p then .terminated else .code ((s.port p).line.getD 359 0)
  | _ => .terminated

end Sys2Proof.Machine
end

