-- ==== Sys2Proof/Machine/Tick.lean ====
section
/-! DEFINITION. One tick of device time, which passes when no command waits (log 2). -/

namespace Sys2Proof.Machine

/-- Advance the label of device time by one tick (R11, R328). -/
def labelTick (t : TimeKeeper) : TimeKeeper :=
  if t.tick + 1 < ticksPerSec then { t with tick := t.tick + 1 } else { t with sec := t.sec + 1, tick := 0 }

/-- A named step of device time takes effect at its tick (R332), where a step is allowed then: not where a time-named item
has been armed or the mode has changed since. -/
def stepDue (s : State) : State :=
  match s.time.stepPend with
  | some (t, sec, tick) =>
    if s.now < t then s
    else
      let u : State := { s with time := { s.time with stepPend := none } }
      if u.stepAllowed then setLabel (sec * ticksPerSec + tick) u else u
  | none => s

/-- One tick of 50 ps: the samples of the tick are settled, the coarse count and device time advance, and what was fixed
for a tick that has now come takes place. -/
def idleTick (s : State) : State :=
  let s := lineTicks (zTicks (synthTick (raiseTrigs s)))
  let s := resetDue (swapsDue (stepDue (trigEvents { s with now := s.now + 1, time := labelTick s.time })))
  each raiseCapture (tkeys (s.engines.filter fun e => e.2.evAt.isSome)) s

end Sys2Proof.Machine
end

