-- ==== Sys2Proof/Machine/Words.lean ====
section
/-! DEFINITION. The word that each instruction of a burin spells (R96–R98), and the instruction that a word
spells. -/

namespace Sys2Proof.Machine

/-- The burin that an instruction names, and its word. -/
def wordOf : Instr → Option (BurinId × Nat)
  | .nop b => some (b, encNO 0x00)
  | .end_ b => some (b, encNO 0x01)
  | .jmp b off => some (b, encJU 0x02 off.toNat)
  | .jt b gs n => some (b, encJT 0x03 gs.val n.val)
  | .rep b gs len => some (b, encRP 0x04 len.val gs.val)
  | .repi b count len => some (b, encRQ 0x05 len.val count.toNat)
  | .beq b ga gb off => some (b, encBR 0x08 ga.val gb.val off.toNat)
  | .bne b ga gb off => some (b, encBR 0x09 ga.val gb.val off.toNat)
  | .blt b ga gb off => some (b, encBR 0x0A ga.val gb.val off.toNat)
  | .bge b ga gb off => some (b, encBR 0x0B ga.val gb.val off.toNat)
  | .bltu b ga gb off => some (b, encBR 0x0C ga.val gb.val off.toNat)
  | .bgeu b ga gb off => some (b, encBR 0x0D ga.val gb.val off.toNat)
  | .beqz b ga off => some (b, encBR 0x0E ga.val 0 off.toNat)
  | .bnez b ga off => some (b, encBR 0x0F ga.val 0 off.toNat)
  | .add b gd ga gb => some (b, encRG 0x10 gd.val ga.val gb.val)
  | .sub b gd ga gb => some (b, encRG 0x11 gd.val ga.val gb.val)
  | .and_ b gd ga gb => some (b, encRG 0x12 gd.val ga.val gb.val)
  | .or_ b gd ga gb => some (b, encRG 0x13 gd.val ga.val gb.val)
  | .xor_ b gd ga gb => some (b, encRG 0x14 gd.val ga.val gb.val)
  | .shl b gd ga gb => some (b, encRG 0x15 gd.val ga.val gb.val)
  | .shr b gd ga gb => some (b, encRG 0x16 gd.val ga.val gb.val)
  | .sar b gd ga gb => some (b, encRG 0x17 gd.val ga.val gb.val)
  | .mul b gd ga gb => some (b, encRG 0x18 gd.val ga.val gb.val)
  | .mulh b gd ga gb => some (b, encRG 0x19 gd.val ga.val gb.val)
  | .min b gd ga gb => some (b, encRG 0x1A gd.val ga.val gb.val)
  | .max b gd ga gb => some (b, encRG 0x1B gd.val ga.val gb.val)
  | .minu b gd ga gb => some (b, encRG 0x1C gd.val ga.val gb.val)
  | .maxu b gd ga gb => some (b, encRG 0x1D gd.val ga.val gb.val)
  | .adds b gd ga gb => some (b, encRG 0x1E gd.val ga.val gb.val)
  | .subs b gd ga gb => some (b, encRG 0x1F gd.val ga.val gb.val)
  | .addi b gd ga imm => some (b, encIM 0x20 gd.val ga.val imm.toNat)
  | .andi b gd ga imm => some (b, encIM 0x21 gd.val ga.val imm.toNat)
  | .ori b gd ga imm => some (b, encIM 0x22 gd.val ga.val imm.toNat)
  | .xori b gd ga imm => some (b, encIM 0x23 gd.val ga.val imm.toNat)
  | .shli b gd ga imm => some (b, encIM 0x24 gd.val ga.val imm.val)
  | .shri b gd ga imm => some (b, encIM 0x25 gd.val ga.val imm.val)
  | .sari b gd ga imm => some (b, encIM 0x26 gd.val ga.val imm.val)
  | .movi b gd imm => some (b, encIM 0x27 gd.val 0 imm.toNat)
  | .movhi b gd imm => some (b, encIM 0x28 gd.val 0 imm.toNat)
  | .addpi b gd imm => some (b, encIM 0x29 gd.val 0 imm.toNat)
  | .addp b gd gb => some (b, encRG 0x2A gd.val 0 gb.val)
  | .mov b gd ga => some (b, encRG 0x2B gd.val ga.val 0)
  | .extu b gd ga pos n => some (b, encFX 0x2C gd.val ga.val pos.val n.val)
  | .exts b gd ga pos n => some (b, encFX 0x2D gd.val ga.val pos.val n.val)
  | .shin b gd ga n => some (b, encFX 0x2E gd.val ga.val 0 n.val)
  | .dep b gd ga pos n => some (b, encFX 0x2F gd.val ga.val pos.val n.val)
  | .movpi b pd imm => some (b, encPT 0x30 pd.val 0 0 0 imm.toNat)
  | .movmi b md imm => some (b, encPT 0x31 md.val 0 0 0 imm.toNat)
  | .movpg b pd g => some (b, encPT 0x32 pd.val 0 g.val 0 0)
  | .movgp b g ps => some (b, encPT 0x33 0 ps.val g.val 0 0)
  | .movmg b md g => some (b, encPT 0x34 md.val 0 g.val 0 0)
  | .modp b pd ms => some (b, encPT 0x35 pd.val ms.val 0 0 0)
  | .leap b pd ps g sh => some (b, encPT 0x36 pd.val ps.val g.val sh.val 0)
  | .ld b g m => some (b, encMem 0x40 g.val 0 m)
  | .st b g m => some (b, encMem 0x41 g.val 0 m)
  | .ldd b g m => some (b, encMem 0x42 g.val 0 m)
  | .std b g m => some (b, encMem 0x43 g.val 0 m)
  | .ldx b g pa gx => some (b, encME 0x44 g.val pa.val 0 0 gx.val 0 1)
  | .stx b g pa gx => some (b, encME 0x45 g.val pa.val 0 0 gx.val 0 1)
  | .cadd b gd ga gb => some (b, encRG 0x50 gd.val ga.val gb.val)
  | .csub b gd ga gb => some (b, encRG 0x51 gd.val ga.val gb.val)
  | .csubm b g gx pa k => some (b, encMemX 0x52 g.val gx.val pa.val k)
  | .cmulr b gd ga gb => some (b, encRG 0x53 gd.val ga.val gb.val)
  | .cconj b gd ga => some (b, encRG 0x54 gd.val ga.val 0)
  | .cscl b gd ga gb => some (b, encRG 0x55 gd.val ga.val gb.val)
  | .cmag2 b gd ga => some (b, encRG 0x56 gd.val ga.val 0)
  | .wsq b g gx pa k => some (b, encMemX 0x57 g.val gx.val pa.val k)
  | .dsq b gs pd md pa ma => some (b, encMM 0x58 gs.val pd.val (optM md) (optU md) pa.val (optM ma) (optU ma))
  | .cpk b gd ga gb => some (b, encRG 0x59 gd.val ga.val gb.val)
  | .clra b acc => some (b, encAC 0x60 0 0 acc.val 0)
  | .mova b acc g => some (b, encAC 0x61 g.val 0 acc.val 0)
  | .mac b acc g gb => some (b, encAC 0x62 g.val gb.val acc.val 0)
  | .msu b acc g gb => some (b, encAC 0x63 g.val gb.val acc.val 0)
  | .cmul b pair g gb => some (b, encAC 0x64 g.val gb.val (2 * pair.val) 0)
  | .cmac b pair g gb => some (b, encAC 0x65 g.val gb.val (2 * pair.val) 0)
  | .cmacj b pair g gb => some (b, encAC 0x66 g.val gb.val (2 * pair.val) 0)
  | .cmacm b pair g m => some (b, encMem 0x67 g.val pair.val m)
  | .rnd b g acc n => some (b, encAC 0x68 g.val 0 acc.val n.val)
  | .rndc b g pair n => some (b, encAC 0x69 g.val 0 (2 * pair.val) n.val)
  | .sha b acc n => some (b, encAC 0x6A 0 0 acc.val n.val)
  | .argmin b gd pa n => some (b, encSE 0x70 gd.val pa.val n.val)
  | .argmax b gd pa n => some (b, encSE 0x71 gd.val pa.val n.val)
  | .argmins b gd pa n => some (b, encSE 0x72 gd.val pa.val n.val)
  | .argmaxs b gd pa n => some (b, encSE 0x73 gd.val pa.val n.val)
  | .put b slot g pa ma => some (b, encSL 0x80 g.val slot.val pa.val (optM ma) (optU ma))
  | .qfree b g slot => some (b, encSL 0x81 g.val slot.val 0 0 0)
  | .evs b slot => some (b, encSL 0x90 0 slot.val 0 0 0)
  | .evw b slot => some (b, encSL 0x91 0 slot.val 0 0 0)
  | .evt b g slot => some (b, encSL 0x92 g.val slot.val 0 0 0)
  | .dsend b slot g => some (b, encSL 0x93 g.val slot.val 0 0 0)
  | .drecv b g slot => some (b, encSL 0x94 g.val slot.val 0 0 0)
  | .dpoll b g slot => some (b, encSL 0x95 g.val slot.val 0 0 0)
  | .waitt b g => some (b, encSL 0xA0 g.val 0 0 0 0)
  | .waitq b slot g => some (b, encSL 0xA1 g.val slot.val 0 0 0)
  | .waitc b slot => some (b, encSL 0xA2 0 slot.val 0 0 0)
  | .now b g => some (b, encSL 0xA3 g.val 0 0 0 0)
  | .iqrd b g => some (b, encSL 0xB0 g.val 0 0 0 0)
  | .iqpoll b g => some (b, encSL 0xB1 g.val 0 0 0 0)
  | .rec_ b m => some (b, encMem 0xC0 0 0 m)
  | .mfs b g sr => some (b, encSP 0xC1 g.val sr.val)
  | .mts b sr g => some (b, encSP 0xC2 g.val sr.val)
  | .patchOpcode b op fields => some (b, (0xE0 + op.val) * 2 ^ 24 + fields.toNat)
  | _ => none

/-- Field of `n` bits from bit `lo` of a word. -/
def fld (w lo n : Nat) : Fin (2 ^ n) := Fin.ofNat (2 ^ n) (w / 2 ^ lo)

def imm16 (w : Nat) : BitVec 16 := BitVec.ofNat 16 w

/-- The memory operand of an ME word (R77). -/
def memOf (w : Nat) : Mem :=
  { pa := fld w 17 3
    form := if bits w 13 1 = 1 then .post (fld w 14 3) else if bits w 7 1 = 1 then .index (fld w 9 4) else .plain }

/-- The form of the operand of CSUBM and WSQ. -/
def kindOf (w : Nat) : MemKind :=
  if bits w 13 1 = 1 then .post (fld w 14 3) else if bits w 7 1 = 1 then .index else .plain

/-- An offset register whose use bit is at `u`. -/
def offOf (w u lo : Nat) : Option MReg := if bits w u 1 = 1 then some (fld w lo 3) else none

/-- A special register number. -/
def srOf (w : Nat) : Option (Fin 6) := if h : bits w 16 4 < 6 then some ⟨bits w 16 4, h⟩ else none

/-- The instruction that a word spells on a burin. -/
def readWord (b : BurinId) (w : Nat) : Option Instr :=
  match w / 2 ^ 24 with
  | 0x00 => some (.nop b)
  | 0x01 => some (.end_ b)
  | 0x02 => some (.jmp b (imm16 w))
  | 0x03 => some (.jt b (fld w 20 4) (fld w 16 4))
  | 0x04 => some (.rep b (fld w 12 4) (fld w 16 8))
  | 0x05 => some (.repi b (imm16 w) (fld w 16 8))
  | 0x08 => some (.beq b (fld w 20 4) (fld w 16 4) (imm16 w))
  | 0x09 => some (.bne b (fld w 20 4) (fld w 16 4) (imm16 w))
  | 0x0A => some (.blt b (fld w 20 4) (fld w 16 4) (imm16 w))
  | 0x0B => some (.bge b (fld w 20 4) (fld w 16 4) (imm16 w))
  | 0x0C => some (.bltu b (fld w 20 4) (fld w 16 4) (imm16 w))
  | 0x0D => some (.bgeu b (fld w 20 4) (fld w 16 4) (imm16 w))
  | 0x0E => some (.beqz b (fld w 20 4) (imm16 w))
  | 0x0F => some (.bnez b (fld w 20 4) (imm16 w))
  | 0x10 => some (.add b (fld w 20 4) (fld w 16 4) (fld w 12 4))
  | 0x11 => some (.sub b (fld w 20 4) (fld w 16 4) (fld w 12 4))
  | 0x12 => some (.and_ b (fld w 20 4) (fld w 16 4) (fld w 12 4))
  | 0x13 => some (.or_ b (fld w 20 4) (fld w 16 4) (fld w 12 4))
  | 0x14 => some (.xor_ b (fld w 20 4) (fld w 16 4) (fld w 12 4))
  | 0x15 => some (.shl b (fld w 20 4) (fld w 16 4) (fld w 12 4))
  | 0x16 => some (.shr b (fld w 20 4) (fld w 16 4) (fld w 12 4))
  | 0x17 => some (.sar b (fld w 20 4) (fld w 16 4) (fld w 12 4))
  | 0x18 => some (.mul b (fld w 20 4) (fld w 16 4) (fld w 12 4))
  | 0x19 => some (.mulh b (fld w 20 4) (fld w 16 4) (fld w 12 4))
  | 0x1A => some (.min b (fld w 20 4) (fld w 16 4) (fld w 12 4))
  | 0x1B => some (.max b (fld w 20 4) (fld w 16 4) (fld w 12 4))
  | 0x1C => some (.minu b (fld w 20 4) (fld w 16 4) (fld w 12 4))
  | 0x1D => some (.maxu b (fld w 20 4) (fld w 16 4) (fld w 12 4))
  | 0x1E => some (.adds b (fld w 20 4) (fld w 16 4) (fld w 12 4))
  | 0x1F => some (.subs b (fld w 20 4) (fld w 16 4) (fld w 12 4))
  | 0x20 => some (.addi b (fld w 20 4) (fld w 16 4) (imm16 w))
  | 0x21 => some (.andi b (fld w 20 4) (fld w 16 4) (imm16 w))
  | 0x22 => some (.ori b (fld w 20 4) (fld w 16 4) (imm16 w))
  | 0x23 => some (.xori b (fld w 20 4) (fld w 16 4) (imm16 w))
  | 0x24 => some (.shli b (fld w 20 4) (fld w 16 4) (fld w 0 5))
  | 0x25 => some (.shri b (fld w 20 4) (fld w 16 4) (fld w 0 5))
  | 0x26 => some (.sari b (fld w 20 4) (fld w 16 4) (fld w 0 5))
  | 0x27 => some (.movi b (fld w 20 4) (imm16 w))
  | 0x28 => some (.movhi b (fld w 20 4) (imm16 w))
  | 0x29 => some (.addpi b (fld w 20 4) (imm16 w))
  | 0x2A => some (.addp b (fld w 20 4) (fld w 12 4))
  | 0x2B => some (.mov b (fld w 20 4) (fld w 16 4))
  | 0x2C => some (.extu b (fld w 20 4) (fld w 16 4) (fld w 11 5) (fld w 6 5))
  | 0x2D => some (.exts b (fld w 20 4) (fld w 16 4) (fld w 11 5) (fld w 6 5))
  | 0x2E => some (.shin b (fld w 20 4) (fld w 16 4) (fld w 6 5))
  | 0x2F => some (.dep b (fld w 20 4) (fld w 16 4) (fld w 11 5) (fld w 6 5))
  | 0x30 => some (.movpi b (fld w 21 3) (BitVec.ofNat 12 w))
  | 0x31 => some (.movmi b (fld w 21 3) (BitVec.ofNat 12 w))
  | 0x32 => some (.movpg b (fld w 21 3) (fld w 14 4))
  | 0x33 => some (.movgp b (fld w 14 4) (fld w 18 3))
  | 0x34 => some (.movmg b (fld w 21 3) (fld w 14 4))
  | 0x35 => some (.modp b (fld w 21 3) (fld w 18 3))
  | 0x36 => some (.leap b (fld w 21 3) (fld w 18 3) (fld w 14 4) (fld w 12 2))
  | 0x40 => some (.ld b (fld w 20 4) (memOf w))
  | 0x41 => some (.st b (fld w 20 4) (memOf w))
  | 0x42 => some (.ldd b (fld w 20 4) (memOf w))
  | 0x43 => some (.std b (fld w 20 4) (memOf w))
  | 0x44 => some (.ldx b (fld w 20 4) (fld w 17 3) (fld w 9 4))
  | 0x45 => some (.stx b (fld w 20 4) (fld w 17 3) (fld w 9 4))
  | 0x50 => some (.cadd b (fld w 20 4) (fld w 16 4) (fld w 12 4))
  | 0x51 => some (.csub b (fld w 20 4) (fld w 16 4) (fld w 12 4))
  | 0x52 => some (.csubm b (fld w 20 4) (fld w 9 4) (fld w 17 3) (kindOf w))
  | 0x53 => some (.cmulr b (fld w 20 4) (fld w 16 4) (fld w 12 4))
  | 0x54 => some (.cconj b (fld w 20 4) (fld w 16 4))
  | 0x55 => some (.cscl b (fld w 20 4) (fld w 16 4) (fld w 12 4))
  | 0x56 => some (.cmag2 b (fld w 20 4) (fld w 16 4))
  | 0x57 => some (.wsq b (fld w 20 4) (fld w 9 4) (fld w 17 3) (kindOf w))
  | 0x58 => some (.dsq b (fld w 20 4) (fld w 17 3) (offOf w 13 14) (fld w 10 3) (offOf w 6 7))
  | 0x59 => some (.cpk b (fld w 20 4) (fld w 16 4) (fld w 12 4))
  | 0x60 => some (.clra b (fld w 14 2))
  | 0x61 => some (.mova b (fld w 14 2) (fld w 20 4))
  | 0x62 => some (.mac b (fld w 14 2) (fld w 20 4) (fld w 16 4))
  | 0x63 => some (.msu b (fld w 14 2) (fld w 20 4) (fld w 16 4))
  | 0x64 => some (.cmul b (fld w 15 1) (fld w 20 4) (fld w 16 4))
  | 0x65 => some (.cmac b (fld w 15 1) (fld w 20 4) (fld w 16 4))
  | 0x66 => some (.cmacj b (fld w 15 1) (fld w 20 4) (fld w 16 4))
  | 0x67 => some (.cmacm b (fld w 8 1) (fld w 20 4) (memOf w))
  | 0x68 => some (.rnd b (fld w 20 4) (fld w 14 2) (fld w 8 6))
  | 0x69 => some (.rndc b (fld w 20 4) (fld w 15 1) (fld w 8 6))
  | 0x6A => some (.sha b (fld w 14 2) (fld w 8 6))
  | 0x70 => some (.argmin b (fld w 20 4) (fld w 17 3) (fld w 13 4))
  | 0x71 => some (.argmax b (fld w 20 4) (fld w 17 3) (fld w 13 4))
  | 0x72 => some (.argmins b (fld w 20 4) (fld w 17 3) (fld w 13 4))
  | 0x73 => some (.argmaxs b (fld w 20 4) (fld w 17 3) (fld w 13 4))
  | 0x80 => some (.put b (fld w 16 4) (fld w 20 4) (fld w 13 3) (offOf w 9 10))
  | 0x81 => some (.qfree b (fld w 20 4) (fld w 16 4))
  | 0x90 => some (.evs b (fld w 16 3))
  | 0x91 => some (.evw b (fld w 16 3))
  | 0x92 => some (.evt b (fld w 20 4) (fld w 16 3))
  | 0x93 => some (.dsend b (fld w 16 2) (fld w 20 4))
  | 0x94 => some (.drecv b (fld w 20 4) (fld w 16 2))
  | 0x95 => some (.dpoll b (fld w 20 4) (fld w 16 2))
  | 0xA0 => some (.waitt b (fld w 20 4))
  | 0xA1 => some (.waitq b (fld w 16 4) (fld w 20 4))
  | 0xA2 => some (.waitc b (fld w 16 2))
  | 0xA3 => some (.now b (fld w 20 4))
  | 0xB0 => some (.iqrd b (fld w 20 4))
  | 0xB1 => some (.iqpoll b (fld w 20 4))
  | 0xC0 => some (.rec_ b (memOf w))
  | 0xC1 => (srOf w).map fun sr => .mfs b (fld w 20 4) sr
  | 0xC2 => (srOf w).map fun sr => .mts b sr (fld w 20 4)
  | op => if h : 0xE0 ≤ op ∧ op ≤ 0xFF then some (.patchOpcode b ⟨op - 0xE0, by omega⟩ (BitVec.ofNat 24 w)) else none

end Sys2Proof.Machine
end

