-- ==== Sys2Proof/Safety.lean ====
section
/-! DEFINITION. What counts as a safe state of the device, and the words in which claims speak of commands: when
the Atelier serves one, how it ends, and what an instruction of a burin may change (R32, R100, R181, R201, R404–R413,
R509). -/

namespace Sys2Proof.Machine

/-- The outputs stand at the safe levels of SAFE: no tone plays, no Z channel is DRIVEN and no
TIME_OUT is active. -/
def State.outputsSafe (s : State) : Bool :=
  s.tones.all (fun e => e.2.play.isNone) && s.zch.all (fun e => decide (e.2.st ≠ .driven))
    && s.time.touts.all (fun e => !e.2.high)

/-! ### Mailbox commands -/

/-- What the Atelier knows of a mailbox command before its meaning: its entry's header, its opcode and the length of
its structure (R415), the modes that admit it (R32), how a refusal of it is logged (R466), the cell of a command that
creates shots (R522). -/
structure Mail where
  h : Hdr
  op : Nat
  len : Nat
  modes : List Mode
  what : Nat := 0
  target : Nat
  cell : Option Nat := none

/-- The mailbox commands of R415 and of the chapters that add to it. -/
def mailOf : Instr → Option Mail
  | .open_ h _ _ => some { h, op := 0x01, len := 4, modes := [.configure, .ready, .run, .calibrate, .proof, .safe, .service], target := 0x01 + h.sq.val * 256 }
  | .close h => some { h, op := 0x02, len := 0, modes := [.configure, .ready, .run, .calibrate, .proof, .safe, .service], target := 0x02 + h.sq.val * 256 }
  | .queueResume h => some { h, op := 0x03, len := 0, modes := [.configure, .ready, .run, .calibrate, .proof, .safe, .service], target := 0x03 + h.sq.val * 256 }
  | .fence h _ => some { h, op := 0x04, len := 8, modes := [.configure, .ready, .run, .calibrate, .proof, .safe, .service], target := 0x04 + h.sq.val * 256 }
  | .cellConfigure h _ items => some { h, op := 0x10, len := 8 + 16 * items.length, modes := [.configure, .ready, .run], target := 0x10 + h.sq.val * 256 }
  | .cellLoad h _ _ _ _ _ _ _ _ => some { h, op := 0x11, len := 96, modes := [.configure, .ready, .run], target := 0x11 + h.sq.val * 256 }
  | .cellStart h cell _ => some { h, op := 0x12, len := 8, modes := [.run], target := 0x12 + h.sq.val * 256, cell := some cell }
  | .cellStop h _ => some { h, op := 0x13, len := 8, modes := [.configure, .ready, .run, .calibrate, .proof, .safe, .service], target := 0x13 + h.sq.val * 256 }
  | .cellAbort h _ => some { h, op := 0x14, len := 8, modes := [.configure, .ready, .run, .calibrate, .proof, .safe, .service], target := 0x14 + h.sq.val * 256 }
  | .cellAbortCommandForm h _ _ _ => some { h, op := 0x14, len := 8, modes := [.configure, .ready, .run, .calibrate, .proof, .safe, .service], target := 0x14 + h.sq.val * 256 }
  | .plateComposeCreate h _ => some { h, op := 0x15, len := 8, modes := [.configure, .ready, .run], target := 0x15 + h.sq.val * 256 }
  | .plateComposeAdd h _ members => some { h, op := 0x15, len := 8 + 4 * members.length, modes := [.configure, .ready, .run], target := 0x15 + h.sq.val * 256 }
  | .plateComposeRemove h _ members => some { h, op := 0x15, len := 8 + 4 * members.length, modes := [.configure, .ready, .run], target := 0x15 + h.sq.val * 256 }
  | .plateComposeSeal h _ => some { h, op := 0x15, len := 8, modes := [.configure, .ready, .run], target := 0x15 + h.sq.val * 256 }
  | .plateComposeDissolve h _ => some { h, op := 0x15, len := 8, modes := [.configure, .ready, .run], target := 0x15 + h.sq.val * 256 }
  | .shotSchedule h cell _ _ _ => some { h, op := 0x16, len := 32, modes := [.run], target := 0x16 + h.sq.val * 256, cell := some cell }
  | .segmentLoad h _ => some { h, op := 0x20, len := 32, modes := [.configure, .ready, .run, .calibrate], target := 0x20 + h.sq.val * 256 }
  | .filterLoad h _ _ _ _ _ => some { h, op := 0x21, len := 16, modes := [.configure, .ready, .run, .calibrate, .service], target := 0x21 + h.sq.val * 256 }
  | .markLoadLoad h _ _ _ _ _ _ => some { h, op := 0x22, len := 32, modes := [.configure, .ready, .run], target := 0x22 + h.sq.val * 256 }
  | .markLoadConfig h _ _ _ _ _ _ _ => some { h, op := 0x22, len := 32, modes := [.configure, .ready, .run], target := 0x22 + h.sq.val * 256 }
  | .markLoadStart h _ _ _ _ _ => some { h, op := 0x22, len := 32, modes := [.configure, .ready, .run], target := 0x22 + h.sq.val * 256 }
  | .markLoadStop h => some { h, op := 0x22, len := 32, modes := [.configure, .ready, .run], target := 0x22 + h.sq.val * 256 }
  | .streamOpen h _ _ => some { h, op := 0x23, len := 4, modes := [.ready, .run, .service], target := 0x23 + h.sq.val * 256 }
  | .streamClose h _ => some { h, op := 0x24, len := 4, modes := [.configure, .ready, .run, .calibrate, .proof, .safe, .service], target := 0x24 + h.sq.val * 256 }
  | .align h _ _ _ => some { h, op := 0x25, len := 24, modes := [.configure, .ready, .run, .calibrate, .service], target := 0x25 + h.sq.val * 256 }
  | .alignCancel h => some { h, op := 0x25, len := 24, modes := [.configure, .ready, .run, .calibrate, .service], target := 0x25 + h.sq.val * 256 }
  | .ringSet h _ => some { h, op := 0x26, len := 48, modes := [.configure, .ready, .run, .calibrate, .proof, .safe, .service], target := 0x26 + h.sq.val * 256 }
  | .eventRouteBind h a => some { h, op := 0x30, len := 20 + 4 * (a.producers.length + a.consumers.length), modes := [.configure, .ready, .run], target := 0x30 + h.sq.val * 256 }
  | .eventRouteUnbind h _ => some { h, op := 0x30, len := 20, modes := [.configure, .ready, .run], target := 0x30 + h.sq.val * 256 }
  | .eventGate h _ _ _ => some { h, op := 0x31, len := 32, modes := [.configure, .ready, .run, .calibrate, .service], target := 0x31 + h.sq.val * 256 }
  | .acqSet h _ _ => some { h, op := 0x38, len := 56, modes := [.configure, .ready, .run, .service], target := 0x38 + h.sq.val * 256 }
  | .acqArm h _ => some { h, op := 0x39, len := 4, modes := [.ready, .run, .service], target := 0x39 + h.sq.val * 256 }
  | .acqDisarm h _ => some { h, op := 0x3A, len := 4, modes := [.configure, .ready, .run, .calibrate, .proof, .safe, .service], target := 0x3A + h.sq.val * 256 }
  | .timeSetStepAbs h _ => some { h, op := 0x40, len := 24, modes := [.configure, .ready, .service], target := 0x40 + h.sq.val * 256 }
  | .timeSetStepRel h _ => some { h, op := 0x40, len := 24, modes := [.configure, .ready, .service], target := 0x40 + h.sq.val * 256 }
  | .timeSetDomain h _ _ => some { h, op := 0x40, len := 24, modes := [.configure, .ready, .service], target := 0x40 + h.sq.val * 256 }
  | .timeSetServo h _ => some { h, op := 0x40, len := 24, modes := [.configure, .ready, .service], target := 0x40 + h.sq.val * 256 }
  | .timeSetUtc h _ => some { h, op := 0x40, len := 24, modes := [.configure, .ready, .service], target := 0x40 + h.sq.val * 256 }
  | .timeSelect h _ => some { h, op := 0x41, len := 4, modes := [.configure, .ready, .run, .calibrate, .safe, .service], target := 0x41 + h.sq.val * 256 }
  | .timeTimerArm h _ => some { h, op := 0x42, len := 48, modes := [.configure, .ready, .run, .calibrate, .service], target := 0x42 + h.sq.val * 256 }
  | .timeTimerStop h _ _ => some { h, op := 0x42, len := 48, modes := [.configure, .ready, .run, .calibrate, .service], target := 0x42 + h.sq.val * 256 }
  | .timeQuery h _ => some { h, op := 0x43, len := 24, modes := [.configure, .ready, .run, .calibrate, .proof, .safe, .service], target := 0x43 + h.sq.val * 256 }
  | .tiuMeasureStart h _ _ => some { h, op := 0x44, len := 40, modes := [.configure, .ready, .run, .calibrate, .safe, .service], target := 0x44 + h.sq.val * 256 }
  | .tiuMeasureStop h _ => some { h, op := 0x44, len := 40, modes := [.configure, .ready, .run, .calibrate, .safe, .service], target := 0x44 + h.sq.val * 256 }
  | .tiuMeasureQuery h _ _ => some { h, op := 0x44, len := 40, modes := [.configure, .ready, .run, .calibrate, .safe, .service], target := 0x44 + h.sq.val * 256 }
  | .calRun h _ _ _ => some { h, op := 0x48, len := 12, modes := [.ready, .run, .calibrate, .service], target := 0x48 + h.sq.val * 256 }
  | .calCommit h _ _ _ => some { h, op := 0x49, len := 12, modes := [.ready, .run, .calibrate, .service], target := 0x49 + h.sq.val * 256 }
  | .calSet h _ _ _ _ _ _ => some { h, op := 0x4A, len := 16, modes := [.configure, .ready, .run, .calibrate, .service], target := 0x4A + h.sq.val * 256 }
  | .powerSetDomain h domain state _ => some { h, op := 0x50, len := 16, modes := [.configure, .ready, .run, .calibrate, .proof, .safe, .service], what := 2, target := domain % 256 + state % 4 * 256 }
  | .powerSetGovernor h _ => some { h, op := 0x50, len := 16, modes := [.configure, .ready, .run, .calibrate, .proof, .safe, .service], target := 0x50 + h.sq.val * 256 }
  | .proofRun h _ _ _ _ => some { h, op := 0x51, len := 8, modes := [.configure, .ready, .run, .proof, .safe, .service], target := 0x51 + h.sq.val * 256 }
  | .modeSet h mode => some { h, op := 0x52, len := 4, modes := [.configure, .ready, .run, .calibrate, .proof, .safe, .service], what := 1, target := mode }
  | .hkSet h _ slots => some { h, op := 0x53, len := 8 + 4 * slots.length, modes := [.configure, .ready, .service], target := 0x53 + h.sq.val * 256 }
  | .statusQuery h _ _ _ => some { h, op := 0x58, len := 24, modes := [.configure, .ready, .run, .calibrate, .proof, .safe, .service], target := 0x58 + h.sq.val * 256 }
  | .ledgerQuery h _ _ _ => some { h, op := 0x59, len := 24, modes := [.configure, .ready, .run, .calibrate, .proof, .safe, .service], target := 0x59 + h.sq.val * 256 }
  | .faultClear h _ _ => some { h, op := 0x5A, len := 8, modes := [.configure, .ready, .run, .calibrate, .proof, .safe, .service], target := 0x5A + h.sq.val * 256 }
  | .patchStatus h _ => some { h, op := 0x5B, len := 24, modes := [.configure, .ready, .run, .calibrate, .proof, .safe, .service], target := 0x5B + h.sq.val * 256 }
  | .linkStatus h _ _ => some { h, op := 0x5C, len := 24, modes := [.configure, .ready, .run, .calibrate, .proof, .safe, .service], target := 0x5C + h.sq.val * 256 }
  | .linkSet h _ _ _ _ _ _ => some { h, op := 0x5D, len := 16, modes := [.configure, .ready, .run, .safe, .service], target := 0x5D + h.sq.val * 256 }
  | .netSetDevnum h _ => some { h, op := 0x5E, len := 24, modes := [.configure, .service], target := 0x5E + h.sq.val * 256 }
  | .netSetRoutes h _ _ _ => some { h, op := 0x5E, len := 24, modes := [.configure, .service], target := 0x5E + h.sq.val * 256 }
  | _ => none

/-- The Atelier carries out a mailbox command (R25, R32, R402–R413): its entry is there to be read, its queue is not
halted or the command is QUEUE_RESUME, no CELL_ABORT withdrew it (R522), a session is open or the command is served without one, the mode admits it, its
header is in rule, and its structure, if it lies in package memory, can be read there. -/
def served (c : Instr) (s : State) : Bool :=
  match mailOf c with
  | none => false
  | some m =>
    s.canRead m.h.sq.val && (!(s.sq m.h.sq.val).halted || m.op == 0x03) && !s.withdrawn m.h.sq.val m.op
      && (s.host.protoValid || m.op == 0x01 || m.op == 0x58) && m.modes.contains s.sys.mode
      && (hdrError m.h m.len s.host.version).isNone
      && (m.h.flags != 3 || (inStaging m.h.addr m.len && !s.poisoned m.h.addr m.len))

/-- A command ends as a reply says: it goes in flight, and every command whose wait is over completes. -/
def Mail.done (m : Mail) (r : Reply) : State := conclude m.h.sq.val m.h.cmdId m.op m.what m.target m.cell r

/-- The Atelier reads the command's entry, the command does what `r` makes of the state then, and it completes or
waits as `r` says. -/
def Ends (c : Instr) (s : State) (r : State → Reply) : Prop :=
  ∃ m, mailOf c = some m ∧ exec c s = .next (m.done (r (takeEntry m.h.sq.val s)))

/-- Everything but the queues and registers of the host interface, the mode and the refusal log. -/
def State.device (s : State) : State := { s with host := {}, refLog := {}, sys := { s.sys with mode := .boot } }

/-! ### Instructions of a burin -/

/-- An instruction issues: its burin runs in a domain that is On, waits for nothing, has its word at pc, and no patch
redirects the opcode (R98, R100). -/
def Issues (i : Instr) (s : State) : Bool :=
  match wordOf i with
  | none => false
  | some (b, w) => s.fetched b.val w && (tget none s.patches.dispatch (w / 2 ^ 24)).isNone

/-- From `s` to `t` one burin's registers change by `f`, and nothing else but the fetch that its new pc asks for. -/
def Turns (b : BurinId) (f : Regs → Regs) (s t : State) : Prop :=
  ∃ fe ur un, t = s.setBurin b.val
    { s.burin b.val with regs := f (s.burin b.val).regs, fetching := fe, underrun := ur, underruns := un }

/-- The instruction completes, and all that it does is `f` on its burin's registers. -/
def Completes (i : Instr) (b : BurinId) (f : Regs → Regs) (s : State) : Prop :=
  ∃ t, exec i s = .next t ∧ Turns b f s t

/-- The same of an instruction that also acts outside its burin: `u` is the state that its effect outside leaves. -/
def CompletesFrom (i : Instr) (b : BurinId) (f : Regs → Regs) (s u : State) : Prop :=
  ∃ t, exec i s = .next t ∧ Turns b f u t

end Sys2Proof.Machine
end

