-- ==== Sys2Proof/Certificates/Slice0/Obligations.lean ====
section
/-! DEFINITION. The statements for the provers. Each says what a command does to the state, or what holds of every
state; the docstring names the rules of the spec that it formalises, or the log entry where it rests on a choice of the
model's own. -/

open Sys2Proof Sys2Proof.Machine

/-- A step runs the command at the front of the queue. With a command at the front of the queue, a step is that
command's meaning on the state with the queue's rest. (95_what_each_step_holds.md) -/
def Obligations.StepRunsFrontCommand : Prop :=
  ∀ (c : Instr) (rest : List Instr) (s : State), s.pending = c :: rest → step s = exec c { s with pending := rest }

/-- On an empty queue one tick of 50 ps passes. With no command waiting a step is one tick (the model's choice, log
entry 2): where no named step of time, bank swap, device reset, marker or capture event falls due, the coarse count
and device time go on by one tick, and nothing else changes but the samples on their way through the tones and ports,
the output paths and clip counters of Z channels, and what the serial ports send with the departure instants that the
time domains keep of it. Where no port, no Z channel and no serial lane is there to do so, these stay too. (R150,
R183, R328, R356, R366, 13_time_network.md) -/
def Obligations.TickAdvancesTime : Prop :=
  ∀ s : State, s.pending = [] → s.time.stepPend = none → s.sys.resetAt = none → s.mark.trigDue = [] → s.sys.trigDue = [] →
    (s.engines.all fun e => e.2.evAt.isNone) →
    (s.ports.all fun e => e.2.banks.swap.isNone) → (s.zbanks.all fun e => e.2.swap.isNone) →
    (s.ro.all fun e => e.2.firSwap.isNone && e.2.kerSwap.isNone) → s.time.tick < 20000000000 →
    ∃ sec tick domA domB tones ports zch zctr jvl,
      step s = .next { s with
        now := s.now + 1, time := { s.time with sec, tick, domA, domB }, tones, ports, zch, zctr, jvl }
      ∧ sec * 20000000000 + tick = s.time.sec * 20000000000 + s.time.tick + 1 ∧ tick < 20000000000
      ∧ (s.ports = [] → tones = s.tones ∧ ports = []) ∧ (s.zch = [] → zch = [] ∧ zctr = s.zctr)
      ∧ (s.isOn 3 = false → jvl = s.jvl ∧ domA = s.time.domA ∧ domB = s.time.domB)

/-- What reset leaves. After reset the device is in BOOT at step 0 with PD00 AON On and every other domain Off, no
session open, no queue enabled, no fault latched, every tone silent and every Z channel FLOAT, and no command waits.
The memory lists nothing, which is in canonical form. (R26, R104, R393, R446, R532, 18_power_domains.md,
22_boot_bringup.md) -/
def Obligations.ResetLeavesBootState : Prop :=
  State.reset.sys.mode = .boot ∧ State.reset.boot.step = 0 ∧ State.reset.isOn 0 = true
    ∧ (∀ d, d ≠ 0 → (State.reset.dom d).st = .off) ∧ State.reset.host.protoValid = false
    ∧ (∀ q, (State.reset.sq q).en = false ∧ (State.reset.cq q).en = false)
    ∧ State.reset.host.faultsum = 0 ∧ State.reset.devFault.codes = [] ∧ (∀ k, (State.reset.fault k).codes = [])
    ∧ (∀ t, (State.reset.tone t).play = none) ∧ (∀ z, (State.reset.z z).st = .float)
    ∧ State.reset.pending = [] ∧ Memory.wf State.reset.mem.bytes = true

/-- Every step keeps the memory in canonical form and takes one command. From every state whose package memory is in
canonical form (addresses strictly rising, no entry equal to what an unlisted address reads as), every step that
answers a next state leaves it in that form, and leaves of the queue everything but the command it took. (R397, R430,
R434, 17_memory.md) -/
def Obligations.StepKeepsMemoryForm : Prop :=
  ∀ s t : State, Memory.wf s.mem.bytes = true → step s = .next t →
    Memory.wf t.mem.bytes = true ∧ t.pending = s.pending.tail

/-- The word of every burin instruction reads back as that instruction. For every instruction of a burin, with every
operand at every value the encoding admits, the instruction that its word spells is that instruction, operands
included, and the word fits 32 bits. (R96, R97, R98, 03_burin_engines.md, 04_microcode.md) -/
def Obligations.WordsReadBack : Prop :=
  ∀ (i : Instr) (b : BurinId) (w : Nat), wordOf i = some (b, w) → readWord b w = some i ∧ w < 2 ^ 32

/-- At most one instruction of a burin can issue. In any state, two instructions that could both issue on one burin
are the same instruction. (R96, R97, R100, 03_burin_engines.md) -/
def Obligations.OneInstructionIssues : Prop :=
  ∀ (i j : Instr) (b : BurinId) (v w : Nat) (s : State), wordOf i = some (b, v) → wordOf j = some (b, w) →
    Issues i s = true → Issues j s = true → i = j

/-- An instruction that is not at pc of a running burin does nothing. Where the burin does not run, waits, holds a
PUT, lacks the line, lies in a domain that is not On, or has another word at pc, the event that the instruction issues
has no effect (the model's reading of an event whose condition does not hold, log entry 1). (R98, R100,
03_burin_engines.md) -/
def Obligations.UnissuedInstructionDoesNothing : Prop :=
  ∀ (i : Instr) (b : BurinId) (w : Nat) (s : State), wordOf i = some (b, w) → s.fetched b.val w = false → exec i s = .next s

/-- A command whose entry cannot be read does nothing. Where a queue is not enabled, not of the session's shape,
empty, behind a FENCE, OPEN or CLOSE in flight or behind a full completion queue, or the device is in BOOT, the
Atelier reads no entry and nothing changes (the model's reading of an event whose condition does not hold, log entry
1). (R25, R398, R400, R402, R404, R411, 16_host_mailboxes.md) -/
def Obligations.UnreadableEntryDoesNothing : Prop :=
  ∀ (c : Instr) (m : Mail) (s : State), mailOf c = some m → s.canRead m.h.sq.val = false → exec c s = .next s

/-- A command outside its admitted modes completes with REFUSED_MODE. An entry that can be read, in a queue that is
not halted, not withdrawn by CELL_ABORT and with a session open, whose command the present mode does not admit, is
read and completes with status 5 REFUSED_MODE, and the command has no effect. (For the commands that R32 does not list
the admitted modes are those of their own rules.) (R32, 01_system_view.md) -/
def Obligations.CommandOutsideItsModes : Prop :=
  ∀ (c : Instr) (m : Mail) (s : State), mailOf c = some m → s.canRead m.h.sq.val = true →
    (s.sq m.h.sq.val).halted = false → s.withdrawn m.h.sq.val m.op = false → s.host.protoValid = true → s.sys.mode ∉ m.modes →
    exec c s = .next (m.done { s := takeEntry m.h.sq.val s, status := 5, why := .mode })

/-- A halted queue carries out QUEUE_RESUME alone. In a halted queue every command but QUEUE_RESUME is read and
completes with status 9 ABORTED_BY_PREDECESSOR and no effect; QUEUE_RESUME clears HALTED and completes with OK, and in
a queue that is not halted it changes nothing of it; with HALTED clear a command that no CELL_ABORT withdrew is
served; with no session open a failure halts nothing. (R413) -/
def Obligations.HaltedQueueAborts : Prop :=
  (∀ (c : Instr) (m : Mail) (s : State), mailOf c = some m → s.canRead m.h.sq.val = true →
    (s.sq m.h.sq.val).halted = true → m.op ≠ 0x03 →
    ∃ why, exec c s = .next (m.done { s := takeEntry m.h.sq.val s, status := 9, why }))
  ∧ (∀ (h : Hdr) (s : State), served (.queueResume h) s = true →
    (Ends (.queueResume h) s fun t => { s := t.setSq h.sq.val { t.sq h.sq.val with halted := false } })
    ∧ ((s.sq h.sq.val).halted = false → Ends (.queueResume h) s fun t => { s := t.setSq h.sq.val (t.sq h.sq.val) }))
  ∧ (∀ (c : Instr) (m : Mail) (s : State), mailOf c = some m → s.canRead m.h.sq.val = true →
    (s.sq m.h.sq.val).halted = false → s.withdrawn m.h.sq.val m.op = false → s.host.protoValid = true → s.sys.mode ∈ m.modes →
    hdrError m.h m.len s.host.version = none → m.h.flags ≠ 3 → served c s = true)
  ∧ ∀ (m : Mail) (r : Reply), r.s.host.protoValid = false → r.status ≠ 0 → (∀ e ∈ r.s.host.sqs, e.2.flight = []) →
    ((m.done r).sq m.h.sq.val).halted = (r.s.sq m.h.sq.val).halted

/-- With no session open only OPEN and STATUS_QUERY are served. While no session is open, any other command (not
withdrawn by CELL_ABORT) is read and completes with status 3 NOT_SUPPORTED and no effect. (R404, 16_host_mailboxes.md)
-/
def Obligations.NoSessionRefusal : Prop :=
  ∀ (c : Instr) (m : Mail) (s : State), mailOf c = some m → s.canRead m.h.sq.val = true →
    (s.sq m.h.sq.val).halted = false → s.withdrawn m.h.sq.val m.op = false → s.host.protoValid = false → m.op ≠ 0x01 → m.op ≠ 0x58 →
    exec c s = .next (m.done { s := takeEntry m.h.sq.val s, status := 3, why := .mode })

/-- A command whose header or structure is out of rule completes with INVALID_ARG. With the queue, session and mode in
order, and the command not withdrawn: a length other than the structure's, a structure too long for inline bytes, a
misaligned indirect address, a nonzero reserved field, or an indirect structure outside the staging region completes
with status 2 INVALID_ARG; an indirect structure that lies on a granule that reads as uncorrectable completes with
status 7 FAULT, and that error is reported. In each case the command itself has no effect. (R9, R406, R407, R416,
R434, R444, 16_host_mailboxes.md) -/
def Obligations.HeaderRuleRefusal : Prop :=
  ∀ (c : Instr) (m : Mail) (s : State), mailOf c = some m → s.canRead m.h.sq.val = true →
    (s.sq m.h.sq.val).halted = false → s.withdrawn m.h.sq.val m.op = false → s.host.protoValid = true → s.sys.mode ∈ m.modes →
    (∀ o, hdrError m.h m.len s.host.version = some o →
      exec c s = .next (m.done { s := takeEntry m.h.sq.val s, status := 2, why := .field o }))
    ∧ (m.h.plen ≠ m.len → hdrError m.h m.len s.host.version ≠ none)
    ∧ (m.h.resv ≠ none → hdrError m.h m.len s.host.version ≠ none)
    ∧ (hdrError m.h m.len s.host.version = none → m.h.flags = 3 → inStaging m.h.addr m.len = false →
      exec c s = .next (m.done { s := takeEntry m.h.sq.val s, status := 2, why := .field 16 }))
    ∧ (hdrError m.h m.len s.host.version = none → m.h.flags = 3 → inStaging m.h.addr m.len = true →
      s.poisoned m.h.addr m.len = true →
      exec c s = .next (m.done { s := noteUe (s.firstBad m.h.addr m.len) (takeEntry m.h.sq.val s), status := 7, why := .field 16 }))

/-- A command that does not wait completes with its entry of R408. Where no command is in flight and the completion
queue has a free slot and holds nothing back, a command that waits for nothing completes: the next slot takes one
entry with its cmd_id, its queue, the phase of the pass, its status, sq_head one further, and its result; the queue's
count of completed commands goes on by one. (OPEN and CLOSE, which reset the queues on completion, have their own
statement.) (R401, R402, R408, 16_host_mailboxes.md) -/
def Obligations.CompletionPosted : Prop :=
  ∀ (m : Mail) (r : Reply), (∀ e ∈ r.s.host.sqs, e.2.flight = []) → r.wait = .nothing → m.op ≠ 0x01 → m.op ≠ 0x02 →
    (r.s.cq (r.s.cqOf m.h.sq.val)).held = [] → r.s.cqFree (r.s.cqOf m.h.sq.val) = true →
    ∃ e : Completion, e.cmdId = m.h.cmdId ∧ e.sq = m.h.sq.val ∧ e.status = r.status ∧ e.result = r.result
      ∧ e.sqHead = ((r.s.sq m.h.sq.val).completed + 1) % 65536
      ∧ e.phase = decide ((r.s.cq (r.s.cqOf m.h.sq.val)).written / r.s.depthNow % 2 = 0)
      ∧ ((m.done r).cq (r.s.cqOf m.h.sq.val)).slots = (r.s.cq (r.s.cqOf m.h.sq.val)).slots ++ [e]
      ∧ ((m.done r).cq (r.s.cqOf m.h.sq.val)).written = ((r.s.cq (r.s.cqOf m.h.sq.val)).written + 1) % 65536
      ∧ ((m.done r).sq m.h.sq.val).completed = e.sqHead ∧ ((m.done r).sq m.h.sq.val).flight = []

/-- Completing a command changes nothing of the device but its host interface, mode and refusal log. Where neither the
command nor one in flight is CLOSE, and nothing in flight comes from another device or the sideband, putting a judged
command in flight and completing every command whose wait is over leaves everything outside the host interface, the
mode and the refusal log as the command's own meaning left it. (R401, R402, R410, R518, 16_host_mailboxes.md) -/
def Obligations.CompletionTouchesHostOnly : Prop :=
  ∀ (m : Mail) (r : Reply), m.op ≠ 0x02 → (∀ e ∈ r.s.host.sqs, ∀ f ∈ e.2.flight, f.opcode ≠ 0x02 ∧ e.1 < 64) →
    (m.done r).device = r.s.device

/-- A command that fails halts its queue. With a session open and no OPEN or CLOSE in flight, a command that completes
with any status other than 0 OK and 10 ALREADY_COMPLETE leaves its queue halted and FAULTSUM.QUEUE (bit 13) set.
(R412, 16_host_mailboxes.md) -/
def Obligations.FailureHaltsItsQueue : Prop :=
  ∀ (m : Mail) (r : Reply), r.status ≠ 0 → r.status ≠ 10 → r.s.host.protoValid = true →
    (∀ e ∈ r.s.host.sqs, ∀ f ∈ e.2.flight, f.opcode ≠ 0x01 ∧ f.opcode ≠ 0x02) →
    ((m.done r).sq m.h.sq.val).halted = true ∧ (m.done r).host.faultsum.getLsbD 13 = true

/-- A refusal in a counting period is logged. While a counting period runs, a command that fails leaves at the head of
the refusal log an entry with the present coarse count, how the command is named there, its status, its target and its
refuser, and the total goes on by one. (R464, R465, R466, 18_power_domains.md) -/
def Obligations.RefusalIsLogged : Prop :=
  ∀ (m : Mail) (r : Reply), r.status ≠ 0 → r.status ≠ 10 → r.s.refLog.active = true →
    (∀ e ∈ r.s.host.sqs, e.2.flight = []) →
    ∃ e : Refused, (m.done r).refLog.entries.head? = some e ∧ e.tick = r.s.coarse ∧ e.what = m.what ∧ e.status = r.status
      ∧ e.target = m.target ∧ (e.kind, e.refuser) = r.why.refuser r.s.sys.mode ∧ (m.done r).refLog.total = r.s.refLog.total.bump

/-- OPEN, CLOSE, FENCE and an unknown opcode. OPEN with a range that holds a served version answers the highest one
with the shape of R403 (version, queue counts, entry bytes, depth), a bad range with INVALID_ARG, a range above 3 with
NOT_SUPPORTED, and in an open session with BUSY; CLOSE waits for the earlier commands of its queue; FENCE waits for
the commands that were submitted to the masked, enabled queues other than its own before the doorbell that made it
visible; an unknown opcode completes with NOT_SUPPORTED. (R403, R404, R405, R406, R411, R415, 16_host_mailboxes.md) -/
def Obligations.SessionCommandsComplete : Prop :=
  (∀ (h : Hdr) (vmin vmax : Nat) (s : State), served (.open_ h vmin vmax) s = true →
    (vmin = 0 ∨ vmax < vmin → Ends (.open_ h vmin vmax) s fun t => { s := t, status := 2, why := .field 0 })
    ∧ (3 < vmin → vmin ≤ vmax → Ends (.open_ h vmin vmax) s fun t => { s := t, status := 3, why := .field 0 })
    ∧ (1 ≤ vmin → vmin ≤ 3 → vmin ≤ vmax → s.host.protoValid = true →
        Ends (.open_ h vmin vmax) s fun t => { s := t, status := 1, why := .inUse })
    ∧ (vmin = 1 → vmax = 1 → s.host.protoValid = false →
        Ends (.open_ h vmin vmax) s fun t => { s := t, result := 1 + 16 * 2 ^ 8 + 16 * 2 ^ 16 + 32 * 2 ^ 24 + 64 * 2 ^ 32 })
    ∧ (1 ≤ vmin → vmin ≤ 2 → vmax = 2 → s.host.protoValid = false →
        Ends (.open_ h vmin vmax) s fun t => { s := t, result := 2 + 32 * 2 ^ 8 + 32 * 2 ^ 16 + 64 * 2 ^ 24 + 128 * 2 ^ 32 })
    ∧ (1 ≤ vmin → vmin ≤ 3 → 3 ≤ vmax → s.host.protoValid = false →
        Ends (.open_ h vmin vmax) s fun t => { s := t, result := 3 + 64 * 2 ^ 8 + 64 * 2 ^ 16 + 64 * 2 ^ 24 + 256 * 2 ^ 32 }))
  ∧ (∀ (h : Hdr) (s : State), served (.close h) s = true → Ends (.close h) s fun t => { s := t, wait := .earlier })
  ∧ (∀ (h : Hdr) (mask : BitVec 64) (s : State) (n : Nat) (counts : List (Nat × Nat)) (later : List (Nat × List (Nat × Nat))),
    served (.fence h mask) s = true → (s.sq h.sq.val).bells = (n, counts) :: later →
    Ends (.fence h mask) s fun t =>
      { s := t, wait := .prior (counts.filter fun e => mask.getLsbD e.1 && decide (e.1 ≠ h.sq.val) && (s.sq e.1).en) })
  ∧ ∀ (h : Hdr) (op : Nat) (s : State), op ∉ knownOpcodes → s.canRead h.sq.val = true → (s.sq h.sq.val).halted = false →
    s.host.protoValid = true →
    exec (.unknownCommand h op) s = .next (conclude h.sq.val h.cmdId op 0 (op + h.sq.val * 256) none
      { s := takeEntry h.sq.val s, status := 3, why := .field 0 })

/-- What OPEN and CLOSE leave of the queues. With no other command in flight, an OPEN that completes with OK leaves
the session open at its version, queue 0 with counts 0, its base and EN kept, and every other queue disabled; a CLOSE
leaves no session, every queue but queue 0 disabled, every stream closed and every ring's host part off. (R365, R404,
R405, R441, 16_host_mailboxes.md) -/
def Obligations.OpenAndCloseResetQueues : Prop :=
  ∀ (m : Mail) (r : Reply), m.h.sq.val = 0 → (∀ e ∈ r.s.host.sqs, e.2.flight = []) →
    (m.op = 0x01 → r.status = 0 → r.wait = .nothing →
      (m.done r).host.version = r.result % 256 ∧ (m.done r).host.protoValid = true
      ∧ ((m.done r).sq 0).submitted = 0 ∧ ((m.done r).sq 0).read = 0 ∧ ((m.done r).sq 0).completed = 0
      ∧ ((m.done r).sq 0).en = (r.s.sq 0).en ∧ ((m.done r).sq 0).baseLo = (r.s.sq 0).baseLo
      ∧ ((m.done r).sq 0).baseHi = (r.s.sq 0).baseHi ∧ ((m.done r).cq 0).written = 0 ∧ ((m.done r).cq 0).consumed = 0
      ∧ ∀ q, q ≠ 0 → ((m.done r).sq q).en = false ∧ ((m.done r).cq q).en = false)
    ∧ (m.op = 0x02 → r.status = 0 → r.wait = .earlier →
      (m.done r).host.protoValid = false ∧ (m.done r).host.version = 0
      ∧ (∀ q, q ≠ 0 → ((m.done r).sq q).en = false ∧ ((m.done r).cq q).en = false)
      ∧ (∀ k, ((m.done r).stream k).open_ = false) ∧ ∀ k, ((m.done r).ring k).host = false)

namespace Sys2Proof.Claims

/-- The transitions of R26 that a MODE_SET makes with no condition of its own. -/
def freeMoves : List (Mode × Mode) :=
  [(.ready, .configure), (.ready, .run), (.ready, .calibrate), (.configure, .proof), (.ready, .proof), (.safe, .proof),
   (.service, .proof), (.configure, .service), (.ready, .service), (.safe, .service)]

/-- The transitions of R26 that have one. -/
def boundMoves : List (Mode × Mode) :=
  [(.configure, .ready), (.run, .ready), (.calibrate, .ready), (.proof, .configure), (.service, .configure), (.safe, .configure)]

end Sys2Proof.Claims

/-- MODE_SET makes the transitions of R26 and refuses every other. Naming the present mode has no effect; a listed
transition is made, or refused as R27 says; to READY it waits for every cell to stop (from RUN) or for the trims (from
CALIBRATE); SAFE is entered by a device-scope doubt; every other pair is refused with 5 REFUSED_MODE; a code above 7
is out of range. (R26, R27, R28, R29, R31, R33, 01_system_view.md) -/
def Obligations.ModeSetFollowsTheTable : Prop :=
  ∀ (h : Hdr) (s : State), 
    (∀ m : Mode, served (.modeSet h m.code) s = true →
      (m = s.sys.mode → Ends (.modeSet h m.code) s fun t => { s := t })
      ∧ ((s.sys.mode, m) ∈ Sys2Proof.Claims.freeMoves → Ends (.modeSet h m.code) s fun t => { s := setMode m t })
      ∧ (m ≠ s.sys.mode → m ≠ .safe → (s.sys.mode, m) ∉ Sys2Proof.Claims.freeMoves → (s.sys.mode, m) ∉ Sys2Proof.Claims.boundMoves →
          Ends (.modeSet h m.code) s fun t => { s := t, status := 5, why := .mode })
      ∧ (m = .safe → s.sys.mode ≠ .safe → Ends (.modeSet h m.code) s fun t =>
          { s := doubtDevice 12 (le 1 h.sq.val ++ pad 1 ++ le 2 h.cmdId ++ pad 28) t })
      ∧ (m = .ready → s.sys.mode = .configure → s.validation = none → Ends (.modeSet h m.code) s fun t =>
          { s := setMode .ready { t with sys := { t.sys with valFailed := false, failKind := 0, failRef := 0 } } })
      ∧ (∀ kind ref, m = .ready → s.sys.mode = .configure → s.validation = some (kind, ref) →
          Ends (.modeSet h m.code) s fun t =>
            { s := { t with sys := { t.sys with valFailed := true, failKind := kind, failRef := ref } }, status := 2, why := .field 0 })
      ∧ (m = .ready → s.sys.mode = .run → Ends (.modeSet h m.code) s fun t => { s := stopAll t, wait := .cellsStopped })
      ∧ (m = .ready → s.sys.mode = .calibrate → Ends (.modeSet h m.code) s fun t => { s := t, wait := .trims })
      ∧ (m = .configure → s.sys.mode = .safe ∨ s.sys.mode = .service ∨ s.sys.mode = .proof → s.devFault.codes ≠ [] →
          Ends (.modeSet h m.code) s fun t => { s := t, status := 7, why := .doubt })
      ∧ (m = .configure → s.sys.mode = .safe ∨ s.sys.mode = .service → s.devFault.codes = [] →
          Ends (.modeSet h m.code) s fun t => { s := setMode .configure t })
      ∧ (m = .configure → s.sys.mode = .proof → s.devFault.codes = [] → (s.proofs.any fun e => e.2.active) = true →
          Ends (.modeSet h m.code) s fun t => { s := t, status := 1, why := .inUse })
      ∧ (m = .configure → s.sys.mode = .proof → s.devFault.codes = [] → (s.proofs.any fun e => e.2.active) = false →
          Ends (.modeSet h m.code) s fun t => { s := setMode .configure t }))
    ∧ ∀ code, 7 < code → served (.modeSet h code) s = true →
      Ends (.modeSet h code) s fun t => { s := t, status := 2, why := .field 0 }

/-- CELL_CONFIGURE applies all of its items or none. On a cell of this device that is not in use: where an item fails,
the command answers that item's status and index and changes nothing; where every item applies, no channel is left
with a refused pair of SPAN and FPS and the configuration stays valid, the state is the one the items leave in order,
with the ladder of every channel whose range has changed at the code for 0 V and that of every channel in SAFE_PARK at
its PARK code; a cell in use is refused with BUSY. (R33, R186, R200, R417, 05_plates_and_cells.md) -/
def Obligations.CellConfigureIsAllOrNone : Prop :=
  ∀ (h : Hdr) (cell : Nat) (items : List CfgItem) (s : State), served (.cellConfigure h cell items) s = true →
    s.cellDevs cell = [] → s.isLocal cell = true → s.cellExists cell = true → items ≠ [] → items.length ≤ 1024 →
    (∀ b ∈ s.burinsOf cell, s.tileBad b = false) →
    (s.cellInUse cell = true →
      Ends (.cellConfigure h cell items) s fun t => { s := t, status := 1, why := .inUse })
    ∧ (∀ (s' : State) (k st : Nat) (why : Why), s.cellInUse cell = false →
      applyItems cell items items 0 (takeEntry h.sq.val s) = (s', some (k, st, why)) →
      ∃ why', Ends (.cellConfigure h cell items) s fun t => { s := t, status := st, result := k, why := why' })
    ∧ (∀ s' : State, s.cellInUse cell = false →
      applyItems cell items items 0 (takeEntry h.sq.val s) = (s', none) →
      (∀ z ∈ rangeItems s' cell items, ¬((s'.z z).fps = 2 ∧ ((s'.z z).span = 1 ∨ (s'.z z).span = 3))) → s'.keepsValid = true →
      Ends (.cellConfigure h cell items) s fun t =>
        let u := each (fun z u => if (s'.z z).span ≠ (t.z z).span ∨ (s'.z z).fps ≠ (t.z z).fps then rangeChange z u else u)
            (rangeItems s' cell items) s'
        { s := each parkChange (tkeys (u.zch.filter fun e => e.2.st == .safePark && decide (e.2.park ≠ e.2.code))) u })

/-- What one configuration item does. On a burin of this device: OWN of a free resource into an empty slot makes the
burin its owner; RELEASE of a resource without a waiting claim leaves it without one; START_LEAD, RECRING, the floor
of a queue, FTW, phase and amplitude of a tone, PARK, ZTOL and DG of a Z channel, TMODE, MAD and WOFF of a read-out
tone take their value, and a value out of range is refused. (R20, R23, R49, R152, R159, R187, R251, R417, R418,
05_plates_and_cells.md) -/
def Obligations.CellItemsFollowTheTable : Prop :=
  ∀ (s : State) (a target value : Nat) (all : List CfgItem), s.isLocal a = true → localOf a < 0x400 →
    (∀ res slot, resOk res = true → slot < 16 → tget .empty (s.burin (localOf a)).slots slot = .empty → s.owner res = none →
      s.holdSlot (localOf a) res = none → (s.burin (localOf a)).slots.length < 16 →
      applyItem a all { code := 0x01, target := res, aux := 0, value := slot } s = .ok (becomeOwner (localOf a) slot res s))
    ∧ applyItem a all { code := 0x03, target := 0, aux := 0, value } s
        = (if 200 ≤ value ∧ value ≤ 1000000 then .ok (s.setCell (localOf a) { s.cell (localOf a) with startLead := value }) else itemBad)
    ∧ applyItem a all { code := 0x05, target := 0, aux := 0, value } s
        = (if value < 64 then .ok (s.setCell (localOf a) { s.cell (localOf a) with recring := value }) else itemBad)
    ∧ (target ∈ s.cellRes a → target < 0x3000 → target ≠ 0xFFFF →
      applyItem a all { code := 0x04, target, aux := 0, value } s
        = (if 20 ≤ value ∧ value ≤ 1250 then .ok (s.setQueue target { s.queue target with floor := value }) else itemBad))
    ∧ (target ∈ s.cellRes a → target < 0x2000 →
      (applyItem a all { code := 0x18, target, aux := 0, value } s
        = (if value < 2 ^ 48 then .ok (setTrack s.now (sgn 48 value) (s.tone target).cont target s) else itemBad))
      ∧ (applyItem a all { code := 0x19, target, aux := 0, value } s
        = (if value < 2 ^ 16 then .ok (s.setTone target { s.tone target with phase := value }) else itemBad))
      ∧ applyItem a all { code := 0x1A, target, aux := 0, value } s
        = (if value < 2 ^ 16 then .ok (s.setTone target { s.tone target with amp := value }) else itemBad))
    ∧ (target ∈ s.cellRes a → 0x2000 ≤ target → target < 0x3000 →
      (applyItem a all { code := 0x22, target, aux := 0, value } s
        = (if value < 2 ^ 18 then .ok (s.setZ (target - 0x2000) { s.z (target - 0x2000) with park := value }) else itemBad))
      ∧ (applyItem a all { code := 0x23, target, aux := 0, value } s
        = (if 2 ≤ value ∧ value ≤ 500 then .ok (s.setZ (target - 0x2000) { s.z (target - 0x2000) with ztol := value }) else itemBad))
      ∧ applyItem a all { code := 0x24, target, aux := 0, value } s
        = (if value ≤ 1 then .ok (s.setZ (target - 0x2000) { s.z (target - 0x2000) with dg := value }) else itemBad))
    ∧ (target ∈ s.cellRes a → 0x1000 ≤ target → target < 0x2000 →
      (applyItem a all { code := 0x33, target, aux := 0, value } s
        = (if 1 ≤ value ∧ value ≤ 4096 then .ok (s.setRot (target - 0x1000)
            { s.rot (target - 0x1000) with set := { (s.rot (target - 0x1000)).set with mad := value } }) else itemBad))
      ∧ applyItem a all { code := 0x39, target, aux := 0, value } s
        = (if value < 2 ^ 20 then .ok (s.setRot (target - 0x1000)
            { s.rot (target - 0x1000) with set := { (s.rot (target - 0x1000)).set with woff := value } }) else itemBad))

/-- CELL_LOAD loads the image, presets and data memory. On a cell of this device that is not in use, with PD04 MEM and
the folios of its burins On, ranges in rule, no bad granule and an image that passes its checks, the command completes
with a next state in which every burin of the cell is loaded with the image's place, length and registers and does not
run; loading a burin leaves it loaded, not running, with the image's place, its words (unless STREAMED), registers
that are 0 but for the presets, and the data memory image. (R70, R79, R99, R419, R436, 03_burin_engines.md,
05_plates_and_cells.md) -/
def Obligations.CellLoadLoadsEveryBurin : Prop :=
  (∀ (h : Hdr) (cell flags preset image length dwords dmem : Nat) (presets : List Word) (s : State),
    served (.cellLoad h cell flags preset image length dwords dmem presets) s = true →
    s.cellDevs cell = [] → s.isLocal cell = true → s.cellExists cell = true → flags < 2 → image % 32 = 0 →
    (if flags % 2 = 1 then inProgram image (4 * length) else inProgStag image (4 * length)) = true → 1 ≤ length → length ≤ 65536 →
    (flags = 0 → length ≤ 512) → dwords ≤ 4096 → (dwords ≠ 0 → inProgStag dmem (4 * dwords) = true) →
    (∀ b ∈ s.burinsOf cell, s.tileBad b = false) → s.cellInUse cell = false → s.isOn 4 = true →
    (∀ b ∈ s.burinsOf cell, s.isOn (folioDom b) = true) → s.poisoned image (4 * length) = false →
    s.poisoned dmem (4 * dwords) = false → imageOk s.patched (s.wordsAt image length) (decide (flags % 2 = 1)) = true →
    Ends (.cellLoad h cell flags preset image length dwords dmem presets) s fun t =>
      { s := each (loadBurin (t.wordsAt image length) (decide (flags % 2 = 1)) image (loadRegs preset presets (t.wordsAt dmem dwords)))
          (t.burinsOf cell) t })
  ∧ (∀ (h : Hdr) (cell flags preset image length dwords dmem : Nat) (presets : List Word) (s : State),
    served (.cellLoad h cell flags preset image length dwords dmem presets) s = true →
    s.cellDevs cell = [] → s.isLocal cell = true → s.cellExists cell = true → flags < 2 → image % 32 = 0 →
    (if flags % 2 = 1 then inProgram image (4 * length) else inProgStag image (4 * length)) = true → 1 ≤ length → length ≤ 65536 →
    (flags = 0 → length ≤ 512) → dwords ≤ 4096 → (dwords ≠ 0 → inProgStag dmem (4 * dwords) = true) →
    (∀ b ∈ s.burinsOf cell, s.tileBad b = false) → s.cellInUse cell = false → s.isOn 4 = true →
    (∀ b ∈ s.burinsOf cell, s.isOn (folioDom b) = true) → s.poisoned image (4 * length) = false →
    s.poisoned dmem (4 * dwords) = false → imageOk s.patched (s.wordsAt image length) (decide (flags % 2 = 1)) = true →
    ∃ t, exec (.cellLoad h cell flags preset image length dwords dmem presets) s = .next t
      ∧ ∀ b ∈ s.burinsOf cell, (t.burin b).loaded = true ∧ (t.burin b).running = false ∧ (t.burin b).imgBase = image
        ∧ (t.burin b).imgLen = length ∧ (t.burin b).regs = loadRegs preset presets (s.wordsAt dmem dwords))
  ∧ (∀ (img : List Nat) (streamed : Bool) (base : Nat) (regs : Regs) (b : Nat) (s : State),
    ((loadBurin img streamed base regs b s).burin b).regs = regs ∧ ((loadBurin img streamed base regs b s).burin b).loaded = true
    ∧ ((loadBurin img streamed base regs b s).burin b).running = false
    ∧ ((loadBurin img streamed base regs b s).burin b).imgBase = base
    ∧ ((loadBurin img streamed base regs b s).burin b).imgLen = img.length
    ∧ (∀ k, streamed = false → k < img.length →
      tget 0 ((loadBurin img streamed base regs b s).burin b).buf k = BitVec.ofNat 32 (img.getD k 0))
    ∧ ∀ c, c ≠ b → (loadBurin img streamed base regs b s).burin c = s.burin c)
  ∧ ∀ (preset : Nat) (presets : List Word) (data : List Nat), presets.length = 16 → data.length ≤ 4096 →
    (∀ k, k < 16 → gr (loadRegs preset presets data) k = if preset.testBit k then presets.getD k 0 else 0)
    ∧ (∀ k, k < 4096 → dm (loadRegs preset presets data) k = BitVec.ofNat 32 (data.getD k 0))
    ∧ (loadRegs preset presets data).pc = 0 ∧ (loadRegs preset presets data).loops = []
    ∧ (loadRegs preset presets data).flags = 0 ∧ (loadRegs preset presets data).acc = []

/-- PLATE_COMPOSE makes, fills, seals and dissolves plates. In CONFIGURE, on plates and members of this device (where
a composition takes effect the other devices of its trees hear of it, and a port that it brings under a condition of
R180 is muted): CREATE opens a FREE descriptor with no shot numbers assigned; ADD appends members that have no parent
and become the plate's; REMOVE takes members out and frees them of their parent; SEAL seals an OPEN plate whose member
plates are sealed; DISSOLVE frees every member and the descriptor, and takes the plate out of the member list of an
OPEN parent. CREATE of a descriptor that is not FREE answers BUSY, and in READY and RUN, where an OPEN plate makes the
configuration invalid (R28, R33), INVALID_ARG. (R33, R131, R132, R133, R134, R135, R136, 05_plates_and_cells.md) -/
def Obligations.PlateCommandsCompose : Prop :=
  (∀ (h : Hdr) (plate : Nat) (s : State), served (.plateComposeCreate h plate) s = true → s.plateArg plate = true →
    ((s.plateOf (localOf plate)).st ≠ .free →
      Ends (.plateComposeCreate h plate) s fun t => { s := t, status := 1, why := .inUse })
    ∧ ((s.plateOf (localOf plate)).st = .free → s.sys.mode = .configure →
      Ends (.plateComposeCreate h plate) s fun t =>
        { s := announce (muteHeld ((t.setPlate (localOf plate - 0x1000) { st := .open_, cell := plate }).setCell (localOf plate)
            { t.cell (localOf plate) with lastShot := 0xFFFFFFFFFFFFFFFF })) })
    ∧ ((s.plateOf (localOf plate)).st = .free → s.sys.mode = .ready ∨ s.sys.mode = .run →
      ∃ why, Ends (.plateComposeCreate h plate) s fun t => { s := t, status := 2, why }))
  ∧ (∀ (h : Hdr) (plate : Nat) (members : List Nat) (s : State), served (.plateComposeAdd h plate members) s = true →
    s.sys.mode = .configure → s.memberDevs members = [] → members ≠ [] → members.length ≤ 256 → s.plateArg plate = true →
    (s.plateOf (localOf plate)).st = .open_ → (∀ m ∈ members, s.cellExists m = true) →
    (∀ m ∈ members, s.isLocal m = true → (s.cell (localOf m)).parent = none) → (∀ m ∈ members, s.holds plate m = false) →
    (s.plateOf (localOf plate)).members.length + members.length ≤ 256 → (∀ m ∈ members, s.memberBad m = false) →
    members.Nodup → s.touches plate members = false →
    Ends (.plateComposeAdd h plate members) s fun t =>
      { s := announce (muteHeld (each (setParent (some plate)) members (t.setPlate (localOf plate - 0x1000)
          { t.plateOf (localOf plate) with members := (t.plateOf (localOf plate)).members ++ members }))) })
  ∧ (∀ (h : Hdr) (plate : Nat) (members : List Nat) (s : State), served (.plateComposeRemove h plate members) s = true →
    s.sys.mode = .configure → s.memberDevs members = [] → members ≠ [] → members.length ≤ 256 → s.plateArg plate = true →
    (s.plateOf (localOf plate)).st = .open_ → (∀ m ∈ members, s.cellExists m = true) → members.Nodup →
    (∀ m ∈ members, m ∈ (s.plateOf (localOf plate)).members) → s.touches plate members = false →
    Ends (.plateComposeRemove h plate members) s fun t =>
      { s := announce (muteHeld (each (setParent none) members (t.setPlate (localOf plate - 0x1000)
          { t.plateOf (localOf plate) with
            members := (t.plateOf (localOf plate)).members.filter fun m => !members.contains m
            far := (t.plateOf (localOf plate)).far.filter fun e => !members.contains e.1 }))) })
  ∧ (∀ (h : Hdr) (plate : Nat) (s : State), served (.plateComposeSeal h plate) s = true → s.cellDevs plate = [] →
    s.plateArg plate = true → (s.plateOf (localOf plate)).st = .open_ → (s.plateOf (localOf plate)).members ≠ [] →
    (∀ m ∈ (s.plateOf (localOf plate)).members, s.isLocal m = true → isPlate (localOf m) = true → (s.plateOf (localOf m)).st = .sealed) →
    Ends (.plateComposeSeal h plate) s fun t =>
      { s := announce (t.setPlate (localOf plate - 0x1000) { t.plateOf (localOf plate) with st := .sealed }) })
  ∧ ∀ (h : Hdr) (plate : Nat) (s : State), served (.plateComposeDissolve h plate) s = true → s.sys.mode = .configure →
    s.dissolveDevs plate = [] → s.plateArg plate = true →
    (s.plateOf (localOf plate)).st = .open_ ∨ (s.plateOf (localOf plate)).st = .sealed →
    (∀ a, (s.cell (localOf plate)).parent = some a → s.isLocal a = true → (s.plateOf (localOf a)).st ≠ .sealed) →
    s.touches plate (s.plateOf (localOf plate)).members = false →
    Ends (.plateComposeDissolve h plate) s fun t =>
      { s := announce (muteHeld (setParent none plate
          ((leaveParent plate (each (setParent none) (t.plateOf (localOf plate)).members t)).setPlate (localOf plate - 0x1000) {}))) }

/-- CELL_START and SHOT_SCHEDULE number and schedule shots. On a root of this device that nothing bars: CELL_START of
a root that does not run assigns the next shot number, at the first word boundary a start lead and 10 µs ahead, once
or endlessly with the period, and of a running root has no effect; SHOT_SCHEDULE refuses a first origin before the
last origin of the series before it plus that series' period, or after an endless series, also where that series' last
start event is past; it appends a series at its origin with the numbers after the last one assigned, and answers LATE
where its origin less the start lead lies less than 10 µs ahead; both answer the first number. (R12, R22, R139, R321,
R419, R420, R421, 05_plates_and_cells.md, 01_system_view.md) -/
def Obligations.ShotCommandsSchedule : Prop :=
  (∀ (h : Hdr) (cell period : Nat) (s : State), served (.cellStart h cell period) s = true → s.cellDevs cell = [] →
    s.namesRoot cell = true → s.isLocal cell = true → s.startBar cell = none → s.spans (localOf cell) = false →
    let key := localOf cell
    let first := ((s.cell key).lastShot + 1) % 2 ^ 64
    let origin := (s.now + (s.cell key).startLead * 20 + 200000 + 15) / 16 * 16
    ((s.root key).running = true → Ends (.cellStart h cell period) s fun t => { s := t })
    ∧ ((s.root key).running = false → period = 0 → Ends (.cellStart h cell period) s fun t =>
      { s := (t.setCell key { t.cell key with lastShot := first }).setRoot key { t.root key with
          running := true, series := (t.root key).series ++ [{ next := first, left := some 1, numbered := true, origin, period := 0 }]
          freeFrom := some (some origin) }
        result := first })
    ∧ ((s.root key).running = false → period ≠ 0 → Ends (.cellStart h cell period) s fun t =>
      { s := (t.setCell key { t.cell key with lastShot := first }).setRoot key { t.root key with
          running := true
          series := (t.root key).series ++ [{ next := first, left := none, numbered := false, fresh := true, origin, period := period * 20000 }]
          freeFrom := some none }
        result := first }))
  ∧ ∀ (h : Hdr) (cell count period : Nat) (origin : Stamp) (s : State), served (.shotSchedule h cell count period origin) s = true →
    s.cellDevs cell = [] → s.namesRoot cell = true → s.isLocal cell = true → s.startBar cell = none →
    s.spans (localOf cell) = false → 20000 ≤ period → period ≤ 2 ^ 47 → origin.ns < 1000000000 →
    let key := localOf cell
    let first := ((s.cell key).lastShot + 1) % 2 ^ 64
    let o := s.coarseOf (stampTicks origin)
    (s.root key).series.length < 16 →
    let early := (s.root key).running = true
      ∧ ∃ before, (s.root key).freeFrom = some before ∧ ∀ n, before = some n → o < (n : Int)
    (early → Ends (.shotSchedule h cell count period origin) s fun t => { s := t, status := 2, why := .field 16 })
    ∧ (¬ early → o - (((s.cell key).startLead * 20 : Nat) : Int) < (s.now : Int) + 200000 →
      Ends (.shotSchedule h cell count period origin) s fun t => { s := t, status := 6, why := .field 16 })
    ∧ (¬ early → (s.now : Int) + 200000 ≤ o - (((s.cell key).startLead * 20 : Nat) : Int) →
      Ends (.shotSchedule h cell count period origin) s fun t =>
        { s := (t.setCell key { t.cell key with lastShot := (first + (count - 1)) % 2 ^ 64 }).setRoot key { t.root key with
            running := true
            series := (t.root key).series ++ [{ next := first, left := if count = 0 then none else some count
                                                numbered := decide (count ≠ 0), fresh := decide (count = 0), origin := o.toNat, period }]
            freeFrom := some (if count = 0 then none else some (o.toNat + count * period)) }
          result := first })

/-- CELL_STOP and CELL_ABORT stop a root. On a root of this device: CELL_STOP fixes the stop boundary, answers the
first cancelled number (all ones where none or where nothing is to stop) and waits for the root to stop; CELL_ABORT
stops it at once; the command form refuses an identifier that names no command of the cell, answers ALREADY_COMPLETE
for one that has committed, ends one still in its first phase with FAULT, and withdraws one that waits to be read,
which then completes with FAULT and no effect. A root that has stopped at once does not run, and none of its burins
runs, waits or holds a start event. (R34, R114, R142, R254, R517, R520, R522, 05_plates_and_cells.md,
21_faults_ordering_proof.md) -/
def Obligations.StopsEndTheRoot : Prop :=
  (∀ (h : Hdr) (cell : Nat) (s : State), served (.cellStop h cell) s = true → s.cellDevs cell = [] → s.namesRoot cell = true →
    s.isLocal cell = true →
    ((s.root (localOf cell)).running = false ∨ (s.root (localOf cell)).stopAt.isSome = true →
      Ends (.cellStop h cell) s fun t => { s := t, result := 0xFFFFFFFFFFFFFFFF })
    ∧ ((s.root (localOf cell)).running = true → (s.root (localOf cell)).stopAt = none →
      Ends (.cellStop h cell) s fun t =>
        { s := (beginStop (localOf cell) t).1, result := (beginStop (localOf cell) t).2, wait := .rootStop (localOf cell) }))
  ∧ (∀ (h : Hdr) (cell : Nat) (s : State), served (.cellAbort h cell) s = true → s.cellDevs cell = [] → s.namesRoot cell = true →
    s.isLocal cell = true →
    ((s.root (localOf cell)).running = false → Ends (.cellAbort h cell) s fun t => { s := t })
    ∧ ((s.root (localOf cell)).running = true →
      Ends (.cellAbort h cell) s fun t => { s := stopRoot (localOf cell) 3 false t }))
  ∧ (∀ (h : Hdr) (cell q id : Nat) (s : State), served (.cellAbortCommandForm h cell q id) s = true → s.namesRoot cell = true →
    (∀ n c, (((takeEntry h.sq.val s).unread q).filter fun e => hasId id e.2).getLast? = some (n, c) → schedulesNow cell c = true →
      Ends (.cellAbortCommandForm h cell q id) s fun t =>
        { s := t.setSq q { t.sq q with withdrawn := n :: (t.sq q).withdrawn.filter (· != n) } })
    ∧ (∀ f, (∀ c ∈ s.pending, hasId id c = false) →
      ((s.sq q).flight.filter fun g => g.cmdId == id).getLast? = some f → (f.opcode = 0x12 ∨ f.opcode = 0x16) → f.cell = some cell →
      (f.uncommitted = false →
        Ends (.cellAbortCommandForm h cell q id) s fun t => { s := t, status := 10, why := .doubt })
      ∧ (f.uncommitted = true →
        Ends (.cellAbortCommandForm h cell q id) s fun t =>
          { s := decideFlights (fun g => g == f && g.uncommitted) 7 (fun _ => 0) .doubt (dropAsked f t) }))
    ∧ ((∀ c ∈ s.pending, hasId id c = false) → (∀ g ∈ (s.sq q).flight, g.cmdId ≠ id) → (∀ e ∈ (s.sq q).history, e.1 ≠ id) →
      Ends (.cellAbortCommandForm h cell q id) s fun t => { s := t, status := 2, why := .field 5 }))
  ∧ (∀ (c : Instr) (m : Mail) (s : State), mailOf c = some m → s.canRead m.h.sq.val = true →
    (s.sq m.h.sq.val).halted = false → s.withdrawn m.h.sq.val m.op = true →
    exec c s = .next (m.done { s := takeEntry m.h.sq.val s, status := 7, why := .doubt }))
  ∧ ∀ (key reason : Nat) (flag : Bool) (s : State),
    ((stopRoot key reason flag s).root key).running = false ∧ ((stopRoot key reason flag s).root key).stopAt = none
    ∧ ∀ b ∈ s.rootBurins key, ((stopRoot key reason flag s).burin b).running = false
      ∧ ((stopRoot key reason flag s).burin b).waiting = none ∧ ((stopRoot key reason flag s).burin b).held = []

/-- SEGMENT_LOAD and FILTER_LOAD write the bank that is not in use. With the ranges in rule, the domains On and not
under proof, no swap pending, no bad granule and items in rule, SEGMENT_LOAD puts samples, segments and steps into the
idle bank of its port and leaves the bank in play alone; FILTER_LOAD puts a FIR or kernel bank that is not used into
its place; without SWAP both answer all ones; with SWAP and no further shot of the root to wait for, the banks swap at
once and the answer is the present coarse count. (R166, R167, R169, R171, R196, R221, R224, R225, R248, R249, R422,
06_drive_synthesis.md) -/
def Obligations.BankLoadsFillTheIdleBank : Prop :=
  (∀ (h : Hdr) (a : SegLoadArgs) (s : State) (gs : List SegE) (ps : List StepE), served (.segmentLoad h a) s = true →
    let quad := decide (0x200 ≤ a.port)
    let words := if quad then a.sCount / 2 else a.sCount
    let n := 4 * words + 8 * a.gCount + 8 * a.pCount
    (a.port < 32 ∨ (0x100 ≤ a.port ∧ a.port < 0x110) ∨ (0x200 ≤ a.port ∧ a.port < 0x204)) →
    a.sFirst + a.sCount ≤ 131072 → (quad = true → a.sFirst % 2 = 0 ∧ a.sCount % 2 = 0 ∧ a.pCount = 0) → a.gFirst + a.gCount ≤ 256 →
    a.pFirst + a.pCount ≤ 1024 → a.src % 64 = 0 → (n ≠ 0 → inStaging a.src n = true) → s.isOn (loadDom a.port) = true →
    s.testing (loadDom a.port) = false → s.isOn 4 = true → (s.pair a.port).draining = false → (s.pair a.port).swap = none →
    s.poisoned a.src n = false → readItems (readSeg s) 8 (a.src + 4 * words) a.gCount = some gs →
    readItems (readStep s) 8 (a.src + 4 * words + 8 * a.gCount) a.pCount = some ps →
    let b := s.pair a.port
    let first := if quad then a.sFirst / 2 else a.sFirst
    let full (t : State) : Banks :=
      b.setIdle ((b.bank (1 - b.inPlay)).load first ((t.wordsAt a.src words).map (BitVec.ofNat 32)) a.gFirst gs a.pFirst ps)
    (a.swap = false → Ends (.segmentLoad h a) s fun t => { s := setBanks a.port (full t) t, result := 2 ^ 64 - 1 })
    ∧ (a.swap = true → s.namesRoot a.root = true → s.ownsPort (s.keyOf a.root) a.port = true → s.running (s.keyOf a.root) = false →
      Ends (.segmentLoad h a) s fun t =>
        { s := if quad then swapZ (a.port - 0x200) (setBanks a.port (full t) t) else swapPort a.port (setBanks a.port (full t) t)
          result := s.now % 2 ^ 48 })
    ∧ (∀ r rest, a.swap = true → s.namesRoot a.root = true → s.ownsPort (s.keyOf a.root) a.port = true →
      s.running (s.keyOf a.root) = true → (s.root (s.keyOf a.root)).series = r :: rest →
      Ends (.segmentLoad h a) s fun t =>
        { s := setBanks a.port { full t with swap := some { root := s.keyOf a.root, after := (s.root (s.keyOf a.root)).starts } } t
          result := r.origin % 2 ^ 48 }))
  ∧ (∀ (b : Banks) (k : Bank), b.inPlay ≤ 1 →
    (b.setIdle k).bank b.inPlay = b.bank b.inPlay ∧ (b.setIdle k).bank (1 - b.inPlay) = k ∧ (b.setIdle k).inPlay = b.inPlay)
  ∧ ∀ (h : Hdr) (target i nn what bank src : Nat) (swap : Bool) (f : Fir) (s : State),
    served (.filterLoad h target what bank swap src) s = true →
    ((target = 0x1000 + i ∧ i < 256 ∧ nn = i / 16 ∧ what ≤ 1) ∨ (target = 0x3000 + nn ∧ nn < 16 ∧ i = 0x100 + nn ∧ what = 0)) →
    bank ≤ 1 → src % 64 = 0 →
    inStaging src (4 * (if what = 0 then 65 else 1024)) = true → s.isOn (inDom nn) = true → s.testing (inDom nn) = false →
    s.isOn 4 = true → (s.rot i).bankUsed what bank = false → (s.rot i).firSwap = none → (s.rot i).kerSwap = none →
    s.poisoned src (4 * (if what = 0 then 65 else 1024)) = false →
    (what = 0 → firOfWords (s.wordsAt src 65) = some f) → (what = 1 → f = {}) →
    let full (t : State) : State :=
      t.setRot i ((t.rot i).putBank what bank f (kerOfWords (t.wordsAt src (if what = 0 then 65 else 1024))))
    (swap = false → Ends (.filterLoad h target what bank swap src) s fun t => { s := full t, result := 2 ^ 64 - 1 })
    ∧ (swap = true → s.resRoot target = none → Ends (.filterLoad h target what bank swap src) s fun t =>
        { s := if what = 0 then swapFir i (full t) else swapKernel i (full t), result := s.now % 2 ^ 48 })
    ∧ (∀ k r rest, swap = true → s.resRoot target = some k → s.running k = true → (s.root k).series = r :: rest →
      Ends (.filterLoad h target what bank swap src) s fun t =>
        { s := (full t).setRot i (if what = 0 then { (full t).rot i with firSwap := some { root := k, after := (s.root k).starts } }
            else { (full t).rot i with kerSwap := some { root := k, after := (s.root k).starts } })
          result := r.origin % 2 ^ 48 })

/-- MARK_LOAD loads, configures, starts and stops the marker generator. LOAD of vectors, timing sets and segments in
rule, while the generator is idle, puts them into their tables; CONFIG sets the masked outputs, which then stand at
their IDLE level, and the source of SYNC_OUT, at once or, for an output in FOLLOW while cells run, once each of them
has passed its next shot boundary; START arms the generator 10 µs ahead, at a named tick at least 10 µs ahead (LATE
otherwise), at a SYNC edge or at the shots of a root, and NOW answers its tick; STOP ends a playback, and a start that
has its SYNC edge, at the next word boundary, and disarms any other start at once. (R311, R313, R314, R315, R320,
R321, R322, R422, 12_markers_patterns.md) -/
def Obligations.MarkerCommandsComplete : Prop :=
  (∀ (h : Hdr) (first count tsmask segFirst segCount src : Nat) (s : State) (vs ts : List (Nat × Nat)) (gs : List MrkSeg),
    served (.markLoadLoad h first count tsmask segFirst segCount src) s = true → first + count ≤ 65536 → tsmask < 256 →
    segFirst + segCount ≤ 256 → src % 64 = 0 →
    let sets := (List.range 8).filter tsmask.testBit
    let n := 16 * count + 64 * sets.length + 16 * segCount
    (n ≠ 0 → inStaging src n = true) → s.isOn 5 = true → s.testing 5 = false → s.isOn 4 = true → s.mark.gen = .idle →
    s.poisoned src n = false → readItems (readVector s) 16 src count = some vs →
    readItems (readTset s) 2 (src + 16 * count) (32 * sets.length) = some ts →
    readItems (readMrkSeg s) 16 (src + 16 * count + 64 * sets.length) segCount = some gs →
    Ends (.markLoadLoad h first count tsmask segFirst segCount src) s fun t => { s := { t with mark := { t.mark with
      vectors := tsetRun (0, 0) t.mark.vectors first vs
      tsets := ((sets.flatMap fun i => (List.range 32).map (i * 32 + ·)).zip ts).foldl
        (fun m e => tset (0, 0) m e.1 e.2) t.mark.tsets
      segs := tsetRun {} t.mark.segs segFirst gs } } })
  ∧ (∀ (h : Hdr) (outputs : Word) (mode idle : Nat) (offs : Int) (fw sosel : Nat) (setSo : Bool) (s : State),
    served (.markLoadConfig h outputs mode idle offs fw sosel setSo) s = true → mode ≤ 2 → idle ≤ 1 → -256 ≤ offs → offs ≤ 255 →
    1 ≤ fw → fw ≤ 255 → (sosel ≤ 31 ∨ sosel = 0xFF) → s.isOn 5 = true → s.testing 5 = false →
    (s.mark.gen = .idle ∨ ∀ k, k < 32 → outputs.toNat.testBit k = true → (tget {} s.mark.outs k).mode ≠ 1) →
    Ends (.markLoadConfig h outputs mode idle offs fw sosel setSo) s fun t =>
      let u := each (configOut mode idle offs fw) ((List.range 32).filter outputs.toNat.testBit) (markUpTo t.now t)
      { s := if setSo then { u with mark := { u.mark with sosel } } else u })
  ∧ (∀ (h : Hdr) (root seg source delay : Nat) (time : Stamp) (s : State),
    served (.markLoadStart h root seg source delay time) s = true → (root = 0xFFFFFFFF ∨ s.rootNamed root = true) →
    seg < 256 → delay < 65536 → time.ns < 1000000000 → s.isOn 5 = true →
    s.testing 5 = false → (tget {} s.mark.segs seg).len ≠ 0 → s.mark.gen = .idle →
    let arm (t : State) (gen : MrkGen) : State := { t with mark := { t.mark with
      gen, first := seg, shotSrc := decide (source = 3), named := decide (source = 1), synced := false, stopping := none, shotAt := none
      root := if root = 0xFFFFFFFF then none else some (s.keyOf root) } }
    (source = 0 → Ends (.markLoadStart h root seg source delay time) s fun t =>
      { s := arm t (.armed (s.now + 200000)), result := (s.now + 200000) % 2 ^ 48 })
    ∧ (source = 1 → (s.now : Int) + 200000 ≤ s.coarseOf (stampTicks time) →
      Ends (.markLoadStart h root seg source delay time) s fun t =>
        { s := arm t (.armed (s.coarseOf (stampTicks time)).toNat) })
    ∧ (source = 1 → s.coarseOf (stampTicks time) < (s.now : Int) + 200000 →
      Ends (.markLoadStart h root seg source delay time) s fun t => { s := t, status := 6, why := .field 16 })
    ∧ (source = 2 → Ends (.markLoadStart h root seg source delay time) s fun t => { s := arm t (.sync delay) })
    ∧ (source = 3 → root ≠ 0xFFFFFFFF → Ends (.markLoadStart h root seg source delay time) s fun t => { s := arm t .shot })
    ∧ (source = 3 → root = 0xFFFFFFFF →
      Ends (.markLoadStart h root seg source delay time) s fun t => { s := t, status := 2, why := .field 4 }))
  ∧ ∀ (h : Hdr) (s : State), served (.markLoadStop h) s = true →
    (s.mark.gen = .playing ∨ s.mark.synced = true → Ends (.markLoadStop h) s fun t =>
      { s := { t with mark := { t.mark with stopping := some (s.now / 16 * 16 + 16), shotSrc := false, shotAt := none } } })
    ∧ (s.mark.gen ≠ .playing → s.mark.synced = false → Ends (.markLoadStop h) s fun t =>
      let u := patternIdle (genIdle t)
      { s := { u with mark := { u.mark with root := none } } })

/-- STREAM_OPEN, STREAM_CLOSE and ALIGN. STREAM_OPEN of a valid source onto an enabled ring opens a closed stream
afresh and answers BUSY for an open one; STREAM_CLOSE writes the block in progress and closes it; ALIGN with source
NOW arms 10 µs ahead and answers the tick, with AT arms the named tick or answers LATE where it lies less than 10 µs
ahead, with SYNC waits for an edge; it answers BUSY while a cell that owns tones runs or an alignment is armed; CANCEL
disarms. (R232, R234, R235, R415, R423, 08_readout_chain.md) -/
def Obligations.StreamAndAlignCommands : Prop :=
  (∀ (h : Hdr) (src ring : Nat) (s : State), served (.streamOpen h src ring) s = true → sourceOk src = true → ring < 64 →
    (s.ring ring).dev = true →
    ((s.stream src).open_ = false → Ends (.streamOpen h src ring) s fun t => { s := t.setStream src { open_ := true, ring } })
    ∧ ((s.stream src).open_ = true → Ends (.streamOpen h src ring) s fun t => { s := t, status := 1, why := .inUse }))
  ∧ (∀ (h : Hdr) (src : Nat) (s : State), served (.streamClose h src) s = true → sourceOk src = true →
    ((s.stream src).open_ = true → Ends (.streamClose h src) s fun t => { s := closeStream src t })
    ∧ ((s.stream src).open_ = false → Ends (.streamClose h src) s fun t => { s := t }))
  ∧ (∀ (src : Nat) (s : State), (s.stream src).samples = [] →
    closeStream src s = s.setStream src { s.stream src with open_ := false, samples := [], t0 := none, flags := 0 })
  ∧ (∀ (h : Hdr) (source delay : Nat) (time : Stamp) (s : State), served (.align h source delay time) s = true → delay < 65536 →
    time.ns < 1000000000 →
    (s.toneCellRuns = true ∨ s.alignArm.isSome = true → source < 3 →
      Ends (.align h source delay time) s fun t => { s := t, status := 1, why := .inUse })
    ∧ (s.toneCellRuns = false → s.alignArm = none →
      (source = 0 → Ends (.align h source delay time) s fun t =>
        { s := { t with alignArm := some (.at (s.now + 200000) false) }, result := (s.now + 200000) % 2 ^ 48 })
      ∧ (source = 1 → (s.now : Int) + 200000 ≤ s.coarseOf (stampTicks time) →
        Ends (.align h source delay time) s fun t => { s := { t with alignArm := some (.at (s.coarseOf (stampTicks time)).toNat true) } })
      ∧ (source = 1 → s.coarseOf (stampTicks time) < (s.now : Int) + 200000 →
        Ends (.align h source delay time) s fun t => { s := t, status := 6, why := .field 8 })
      ∧ (source = 2 → Ends (.align h source delay time) s fun t => { s := { t with alignArm := some (.sync delay) } })))
  ∧ ∀ (h : Hdr) (s : State), served (.alignCancel h) s = true →
    Ends (.alignCancel h) s fun t => { s := { t with alignArm := none } }

/-- EVENT_ROUTE binds and unbinds channels, EVENT_GATE sets gates. BIND of a channel of this device whose fields and
endpoints are in rule and free makes the channel with its settings (RS 0 selects 10 words; without the storm flag 256
events in 10 units), four credits and nothing queued, its latched storm, overflow and watch flags kept; UNBIND frees
it, those flags kept too, and disarms the wake sources on it; EVENT_GATE with time now sets every masked gate, with a
named time at least 10 µs ahead queues the change in order of time, less far ahead answers LATE; a queued change takes
effect once its tick has come, and not before. (R264, R265, R266, R269, R280, R281, R283, R284, R423, R459,
10_hatch_events.md) -/
def Obligations.RouteAndGateCommands : Prop :=
  (∀ (h : Hdr) (a : BindArgs) (s : State), served (.eventRouteBind h a) s = true → bindRange a = none →
    (∀ e ∈ a.producers ++ a.consumers, epDev e = s.sys.devnum) → (∀ e ∈ a.producers, s.endOk a true e = true) →
    (∀ e ∈ a.consumers, s.endOk a false e = true ∧ (epClass e = 12 → a.kind = 1 ∨ (s.ring a.ring).dev = true)) → (a.producers ++ a.consumers).Nodup →
    (s.chan a.channel).bound = false → (∀ p ∈ s.promises, p.chan ≠ some a.channel) →
    (∀ e ∈ a.producers ++ a.consumers, s.chanOfProd e = none ∧ s.chanOfCons e = none ∧ s.endInUse e = false) →
    Ends (.eventRouteBind h a) s fun t =>
      { s := t.setChan a.channel
          { (s.chan a.channel).latches with
            bound := true, kind := a.kind, wide := decide (a.width = 64), rs := if a.rs = 0 then 10 else a.rs
            stmax := if a.flags.testBit 3 then a.stmax else 256, stwin := if a.flags.testBit 3 then a.stwin else 10
            gsrc := a.gsrc, gidx := a.gidx, ginv := a.flags.testBit 2, watch := a.flags.testBit 0
            flush := a.flags.testBit 1, ring := a.ring, prods := a.producers, cons := a.consumers } })
  ∧ (∀ (h : Hdr) (ch : Nat) (s : State), served (.eventRouteUnbind h ch) s = true → ch < 4096 →
    s.bindDevs ((s.chan ch).prods ++ (s.chan ch).cons) = [] →
    ((s.chan ch).bound = false → Ends (.eventRouteUnbind h ch) s fun t => { s := t })
    ∧ ((s.chan ch).bound = true → (∀ p ∈ s.promises, p.chan ≠ some ch) → (∀ e ∈ (s.chan ch).prods ++ (s.chan ch).cons, s.endInUse e = false) →
      ∃ ds : Tab Domain, Ends (.eventRouteUnbind h ch) s (fun t => { s := { t.setChan ch (s.chan ch).latches with domains := ds } })
        ∧ ds = tmap {} (fun _ d => { d with wakeCh := if d.wakeCh = some ch then none else d.wakeCh }) s.domains))
  ∧ (∀ (h : Hdr) (mask value : BitVec 64) (time : Stamp) (s : State), served (.eventGate h mask value time) s = true →
    time.ns < 1000000000 →
    (time.sec = 0 → time.ns = 0 → time.frac = 0 → Ends (.eventGate h mask value time) s fun t => { s := setGates mask value t })
    ∧ (¬(time.sec = 0 ∧ time.ns = 0 ∧ time.frac = 0) → (s.now : Int) + 200000 ≤ s.coarseOf (stampTicks time) →
      Ends (.eventGate h mask value time) s fun t =>
        { s := { t with gatePend := insertGate (s.coarseOf (stampTicks time)).toNat mask value t.gatePend } })
    ∧ (¬(time.sec = 0 ∧ time.ns = 0 ∧ time.frac = 0) → s.coarseOf (stampTicks time) < (s.now : Int) + 200000 →
      Ends (.eventGate h mask value time) s fun t => { s := t, status := 6, why := .field 16 }))
  ∧ (∀ (mask value : BitVec 64) (s : State) (k : Nat), k < 64 →
    (setGates mask value s).gates.getLsbD k = if mask.getLsbD k then value.getLsbD k else s.gates.getLsbD k)
  ∧ ∀ (s : State) (t : Nat) (mask value : BitVec 64) (rest : List (Nat × BitVec 64 × BitVec 64)), s.gatePend = (t, mask, value) :: rest →
    exec .gateChange s = .next (if t ≤ s.now then setGates mask value { s with gatePend := rest } else s)

namespace Sys2Proof.Claims

/-- The settings of an acquisition engine lie in the ranges of R292 and R293. -/
structure AcqInRule (a : AcqSettings) : Prop where
  source : a.src ≤ 2 ∧ a.tsel ≤ 3 ∧ ¬(a.src = 1 ∧ a.tsel = 3)
  tones : a.ttone < 16 ∧ a.tmask < 65536 ∧ (a.src = 2 → a.tmask.testBit a.ttone = true)
  trigger : a.tsrc ≤ 2 ∧ a.pin < 8 ∧ a.ttype ≤ 4 ∧ a.pol ≤ 1 ∧ ¬(a.tsrc = 1 ∧ (a.ttype = 2 ∨ a.ttype = 4))
  levels : -32768 ≤ a.lo ∧ a.lo < a.hi ∧ a.hi ≤ 32767 ∧ a.hys ≤ 8192
  window : 1 ≤ a.w1 ∧ a.w1 ≤ a.w2 ∧ a.w2 < 2 ^ 32 ∧ a.wcond ≤ 1 ∧ 1 ≤ a.tw ∧ a.tw < 2 ^ 32
  ring : 1 ≤ a.nseg ∧ a.nseg ≤ 256 ∧ 65536 ≤ a.rlen ∧ a.rlen ≤ 536870912 ∧ a.rlen % (a.nseg * 4096) = 0
    ∧ a.rbase % 4096 = 0 ∧ inCapture a.rbase a.rlen = true
  counts : 1 ≤ a.post ∧ a.pre + a.post ≤ capacity a
  record : a.armsrc ≤ 1 ∧ a.ring < 64

end Sys2Proof.Claims

/-- ACQ_SET stores settings in rule; ACQ_ARM latches them and fills; ACQ_DISARM leaves IDLE. With every setting in the
ranges of R292 and R293, a MAG source in rule and an enabled record ring, ACQ_SET stores the settings and changes
nothing else; on an engine that is neither IDLE nor DONE, a change of RBASE, RLEN, NSEG or SRC is answered BUSY.
ACQ_ARM of an engine that is IDLE or DONE, with PD05, PD04 and its input domain On and under no proof, its ring free
of the others' and the summed bandwidth within 40 GB/s, latches the settings at segment 0 and is FILLING, to write
from the first word boundary 1 µs ahead, or PRIMED with ARMSRC 1; an armed engine, or bandwidth above the limit, is
BUSY, a domain that is not On is INVALID_ARG, and none of these arms. ACQ_DISARM leaves an armed engine with no
capture in progress IDLE without a record, and does nothing to one that is IDLE or DONE. (R288, R290, R291, R292,
R293, R295, R296, R300, R423, 11_acquisition.md) -/
def Obligations.AcquisitionCommands : Prop :=
  (∀ (h : Hdr) (e : Nat) (a : AcqSettings) (s : State), served (.acqSet h e a) s = true → e < 16 → Sys2Proof.Claims.AcqInRule a →
    s.magOk e a = true → (s.ring a.ring).dev = true →
    let k := s.engine e
    let idle : Prop := k.st = .idle ∨ k.st = .done
    let same : Prop := a.rbase = k.set.rbase ∧ a.rlen = k.set.rlen ∧ a.nseg = k.set.nseg ∧ a.src = k.set.src
    (idle ∨ same → Ends (.acqSet h e a) s fun t => { s := t.setEngine e { k with set := a } })
    ∧ (¬idle → ¬same → Ends (.acqSet h e a) s fun t => { s := t, status := 1, why := .inUse }))
  ∧ (∀ (h : Hdr) (e : Nat) (s : State), served (.acqArm h e) s = true → e < 16 →
    let k := s.engine e
    let others := s.engines.filter fun x => x.1 != e && decide (x.2.st ≠ .idle) && decide (x.2.st ≠ .done)
    let load := (others.map fun x => s.bandwidth x.1 x.2.lat).foldl addRatio (s.bandwidth e k.set)
    ((k.st ≠ .idle ∧ k.st ≠ .done) → Ends (.acqArm h e) s fun t => { s := t, status := 1, why := .inUse })
    ∧ ((k.st = .idle ∨ k.st = .done) → s.isOn 5 = false →
      Ends (.acqArm h e) s fun t => { s := t, status := 2, why := .domain 5 })
    ∧ ((k.st = .idle ∨ k.st = .done) → s.isOn 5 = true → s.isOn 4 = true → s.isOn (18 + e / 8) = true → s.testing 5 = false →
      s.testing (18 + e / 8) = false → Sys2Proof.Claims.AcqInRule k.set → s.magOk e k.set = true → (s.ring k.set.ring).dev = true →
      (∀ x ∈ others, k.set.rbase + k.set.rlen ≤ x.2.lat.rbase ∨ x.2.lat.rbase + x.2.lat.rlen ≤ k.set.rbase) →
      (load.1 ≤ 40000 * load.2 → k.set.armsrc = 0 → Ends (.acqArm h e) s fun t => { s := t.setEngine e { k with
          lat := k.set, seg := 0, st := .filling, writing := false, writeAt := some ((s.now + 20000 + 15) / 16 * 16), count := 0
          overs := [], aligned := none, trig := none, det := {}, edges := [] } })
      ∧ (load.1 ≤ 40000 * load.2 → k.set.armsrc = 1 → Ends (.acqArm h e) s fun t => { s := t.setEngine e { k with
          lat := k.set, seg := 0, st := .primed, writing := false, writeAt := none } })
      ∧ (40000 * load.2 < load.1 → Ends (.acqArm h e) s fun t => { s := t, status := 1, why := .inUse })))
  ∧ ∀ (h : Hdr) (e : Nat) (s : State), served (.acqDisarm h e) s = true → e < 16 →
    let k := s.engine e
    ((k.st = .primed ∨ k.st = .filling ∨ k.st = .waiting ∨ k.st = .rearming) → Ends (.acqDisarm h e) s fun t =>
      { s := t.setEngine e { k with
        st := .idle, writing := false, writeAt := none, trig := none, edges := [], overs := []
        aligned := none, det := {} } })
    ∧ ((k.st = .idle ∨ k.st = .done) → Ends (.acqDisarm h e) s fun t => { s := t })

/-- TIME_SET steps device time and sets domains, servo and UTC offset. While a step is allowed, STEP_ABS answers the
first word boundary at least 10 µs ahead, where device time becomes the named time, and STEP_REL moves device time by
its ticks at once; while it is not they answer BUSY. DOMAIN with settings in range gives the domain those settings,
ACQUIRING or, for source NONE, DISABLED; on the selected domain that device time is TRACKING it is BUSY. SERVO stores
its settings, 0 selecting the default but for HLIMIT; the steering goes on from where it is. UTC stores the offset. A
step relabels the present tick: device time differs by exactly the count, an UNSET time keeper is FREE, and steps has
one more. (R329, R331, R332, R334, R341, R424, 13_time_network.md) -/
def Obligations.TimeSetCommands : Prop :=
  (∀ (h : Hdr) (time : Stamp) (s : State), served (.timeSetStepAbs h time) s = true → time.ns < 1000000000 →
    let at_ := (s.now + 200000 + 15) / 16 * 16
    let tai := stampTicks time
    (s.stepAllowed = true → s.time.stepPend = none → Ends (.timeSetStepAbs h time) s fun t =>
      { s := { t with time := { t.time with stepPend := some (at_, tai / 20000000000, tai % 20000000000) } }, result := at_ % 2 ^ 48 })
    ∧ (s.stepAllowed = false → Ends (.timeSetStepAbs h time) s fun t => { s := t, status := 1, why := .inUse }))
  ∧ (∀ (h : Hdr) (ticks : Int) (s : State), served (.timeSetStepRel h ticks) s = true → ticks.natAbs ≤ 2 ^ 47 →
    0 ≤ (s.devTicks : Int) + ticks →
    (s.stepAllowed = true → Ends (.timeSetStepRel h ticks) s fun t => { s := stepBy ticks t })
    ∧ (s.stepAllowed = false → Ends (.timeSetStepRel h ticks) s fun t => { s := t, status := 1, why := .inUse }))
  ∧ (∀ (ticks : Int) (s : State), 0 ≤ (s.devTicks : Int) + ticks →
    ((stepBy ticks s).devTicks : Int) = s.devTicks + ticks ∧ (stepBy ticks s).now = s.now ∧ (stepBy ticks s).epoch = s.epoch
    ∧ (stepBy ticks s).time.steps = s.time.steps.bump ∧ (stepBy ticks s).time.stepCount = s.time.stepCount + 1
    ∧ (stepBy ticks s).time.st = (if s.time.st = .unset then .free else s.time.st))
  ∧ (∀ (s : State), s.stepAllowed = true ↔
    (s.sys.mode = .configure ∨ s.sys.mode = .ready ∨ s.sys.mode = .service) ∧ s.timeNamed = false)
  ∧ (∀ (h : Hdr) (k : Nat) (a : DomSettings) (s : State), served (.timeSetDomain h k a) s = true → k ≤ 1 → a.source ≤ 3 →
    a.port ≤ 7 → a.profile ≤ 1 → a.ptpdom ≤ 127 → a.transport ≤ 1 → a.delay.natAbs ≤ 1000000 → a.bw ≤ 10000 →
    ((s.time.sel ≠ k ∨ s.time.st ≠ .tracking) → Ends (.timeSetDomain h k a) s fun t =>
      { s := t.setTdom k { set := a, st := if a.source = 0 then .disabled else .acquiring, tracked := (s.tdom k).tracked, exchAt := t.now } })
    ∧ (s.time.sel = k → s.time.st = .tracking →
      Ends (.timeSetDomain h k a) s fun t => { s := t, status := 1, why := .inUse }))
  ∧ (∀ (h : Hdr) (a : ServoArgs) (s : State), served (.timeSetServo h a) s = true → a.selmode ≤ 1 → a.revert ≤ 1 → a.slew ≤ 10000 →
    a.slewacc ≤ 10000 → (a.hlimit = 0 ∨ 10 ≤ a.hlimit ∧ a.hlimit ≤ 1000000000) → a.hwander ≤ 1000000 →
    Ends (.timeSetServo h a) s fun t => { s := { t with time := { t.time.steerToward t.now t.time.steerTo with servo :=
      { selmode := a.selmode, revert := a.revert, hlimit := a.hlimit, slew := if a.slew = 0 then 100 else a.slew
        slewacc := if a.slewacc = 0 then 100 else a.slewacc, hwander := if a.hwander = 0 then 1000 else a.hwander } } } })
  ∧ ∀ (h : Hdr) (offset : Int) (s : State), served (.timeSetUtc h offset) s = true → -32768 ≤ offset → offset ≤ 32767 →
    Ends (.timeSetUtc h offset) s fun t => { s := { t with time := { t.time with utc := offset, utcValid := true } } }

/-- TIME_SELECT names a domain or none; TIME_TIMER arms and stops elements. Naming none leaves device time FREE, its
steering where it is. A domain that is TRACKING without FAR is selected, its offset slewed out, a change of domain
counted; one with FAR is stepped to first where a step is allowed; one that is not TRACKING, or FAR with no step
allowed, is INVALID_ARG. TIME_TIMER ARM of an element in rule that is not active makes it active at the tick of START,
once for PERIOD 0, endless for COUNT 0; within 10 µs of the present time it is LATE and arms nothing; an active
element is BUSY. STOP ends the element. (R332, R341, R342, R347, R424, 13_time_network.md) -/
def Obligations.TimeSelectionAndTimers : Prop :=
  (∀ (h : Hdr) (s : State), served (.timeSelect h 0xFF) s = true → Ends (.timeSelect h 0xFF) s fun t =>
    { s := { t with time := { t.time.steerToward t.now (t.time.steerNow t.now) with
      sel := 0xFF, st := if s.time.st = .unset then .unset else .free, slewing := false, herr := 0, holdMs := 0 } } })
  ∧ (∀ (h : Hdr) (k : Nat) (s : State), served (.timeSelect h k) s = true → k ≤ 1 →
    ((s.tdom k).st ≠ .tracking → Ends (.timeSelect h k) s fun t => { s := t, status := 2, why := .field 0 })
    ∧ ((s.tdom k).st = .tracking → (s.tdom k).far = false → Ends (.timeSelect h k) s fun t => { s := selectDom k t })
    ∧ ((s.tdom k).st = .tracking → (s.tdom k).far = true → s.stepAllowed = true →
      Ends (.timeSelect h k) s fun t => { s := selectDom k (stepTo k t) })
    ∧ ((s.tdom k).st = .tracking → (s.tdom k).far = true → s.stepAllowed = false →
      Ends (.timeSelect h k) s fun t => { s := t, status := 2, why := .field 0 }))
  ∧ (∀ (k : Nat) (s : State), selectDom k s = { s with free := s.free + 1, time := { s.time.steerToward s.now (s.servoAim (s.tdom k)) with
    sel := k, st := .tracking, herr := 0, holdMs := 0, slewing := decide (lockThreshold (s.tdom k) < (s.tdom k).off.natAbs)
    switches := if s.time.sel ≠ k ∧ s.time.sel ≠ 0xFF then s.time.switches.bump else s.time.switches
    switchedFlag := s.time.switchedFlag || decide (s.time.sel ≠ k ∧ s.time.sel ≠ 0xFF) } })
  ∧ (∀ (k : Nat) (s : State), k ≤ 1 → (s.tdom k).off = 50 * (s.tdom k).stepTicks + ((s.tdom k).off + 25) % 50 - 25)
  ∧ (∀ (h : Hdr) (a : TimerArgs) (s : State), served (.timeTimerArm h a) s = true → (a.root = 0xFFFFFFFF ∨ s.rootNamed a.root = true) →
    a.period < 2 ^ 40 → a.count < 2 ^ 32 → a.start.ns < 1000000000 →
    ((a.element = 0 ∧ a.index < 64 ∧ a.pol = 0 ∧ 16 ≤ a.period ∧ a.len = 0)
      ∨ (a.element = 1 ∧ a.index < 16 ∧ a.pol = 0 ∧ 1 ≤ a.len ∧ a.len < 2 ^ 40 ∧ (a.period = 0 ∨ a.len < a.period))
      ∨ (a.element = 2 ∧ a.index < 4 ∧ a.pol ≤ 1 ∧ 20 ≤ a.len ∧ a.len ≤ 2 ^ 32 ∧ (a.period = 0 ∨ a.len + 20 ≤ a.period))) →
    let at_ := s.coarseOf (stampTicks a.start)
    let full : Elem :=
      { active := true, root := if a.root = 0xFFFFFFFF then none else some (s.keyOf a.root), next := at_.toNat
        period := a.period, len := a.len, pol := a.pol
        left := if a.period = 0 then some 1 else if a.count = 0 then none else some a.count }
    ((s.elem a.element a.index).active = true → Ends (.timeTimerArm h a) s fun t => { s := t, status := 1, why := .inUse })
    ∧ ((s.elem a.element a.index).active = false → at_ < (s.now : Int) + 200000 →
      Ends (.timeTimerArm h a) s fun t => { s := t, status := 6, why := .field 32 })
    ∧ ((s.elem a.element a.index).active = false → (s.now : Int) + 200000 ≤ at_ →
      Ends (.timeTimerArm h a) s fun t => { s := t.setElem a.element a.index full }))
  ∧ ∀ (h : Hdr) (element k : Nat) (s : State), served (.timeTimerStop h element k) s = true →
    ((element = 0 ∧ k < 64) ∨ (element = 1 ∧ k < 16) ∨ (element = 2 ∧ k < 4)) →
    Ends (.timeTimerStop h element k) s fun t => { s := t.setElem element k (elemStop (s.elem element k)) }

/-- TIU_MEASURE starts and stops an engine. With settings in the ranges of R357 and sources whose channels can stamp,
START of an engine that is not running runs it (MODE 0 leaves it off) with a gate that opens now for an all-zero
START, else at the tick nearest START; COUNT 0 is endless. A START in the past or within 10 µs is LATE, an engine
already running is BUSY, a source that cannot stamp is INVALID_ARG. STOP ends the engine at once without a record for
the open gate. (R351, R354, R357, R424, R428, 14_interval_measurement.md) -/
def Obligations.IntervalUnitCommands : Prop :=
  (∀ (h : Hdr) (e : Nat) (a : TiuArgs) (s : State), served (.tiuMeasureStart h e a) s = true → e < 4 → a.mode ≤ 3 → a.srca ≤ 10 →
    (a.mode = 2 → a.srcb ≤ 10) →
    (a.edge ≤ 1 ∨ a.edge = 2 ∧ a.mode = 1) → a.ring < 64 → (s.ring a.ring).dev = true → 1 ≤ a.div → a.div ≤ 65536 →
    a.count < 2 ^ 32 → 20 ≤ a.gate → a.gate ≤ 2 ^ 46 → a.start.ns < 1000000000 →
    let now : Prop := a.start.sec = 0 ∧ a.start.ns = 0 ∧ a.start.frac = 0
    let at_ := s.coarseOf (stampTicks a.start)
    let full (open_ : Nat) : TiuEng :=
      { running := decide (a.mode ≠ 0), set := a, gateOpen := open_, seq := (s.tiuEng e).seq
        gatesLeft := if a.count = 0 then none else some a.count }
    (s.stamps (srcChan a.srca) = false → Ends (.tiuMeasureStart h e a) s fun t => { s := t, status := 2, why := .field 3 })
    ∧ (s.stamps (srcChan a.srca) = true → a.mode = 2 → s.stamps (srcChan a.srcb) = false →
      Ends (.tiuMeasureStart h e a) s fun t => { s := t, status := 2, why := .field 4 })
    ∧ (s.stamps (srcChan a.srca) = true → (a.mode = 2 → s.stamps (srcChan a.srcb) = true) →
      ((s.tiuEng e).running = true → Ends (.tiuMeasureStart h e a) s fun t => { s := t, status := 1, why := .inUse })
      ∧ ((s.tiuEng e).running = false → ¬now → at_ < (s.now : Int) + 200000 →
        Ends (.tiuMeasureStart h e a) s fun t => { s := t, status := 6, why := .field 24 })
      ∧ ((s.tiuEng e).running = false → now → Ends (.tiuMeasureStart h e a) s fun t => { s := t.setTiuEng e (full s.now) })
      ∧ ((s.tiuEng e).running = false → ¬now → (s.now : Int) + 200000 ≤ at_ →
        Ends (.tiuMeasureStart h e a) s fun t => { s := t.setTiuEng e (full at_.toNat) })))
  ∧ (∀ (s : State) (src : Nat), src ≤ 10 → (s.stamps (srcChan src) = true ↔
    s.isOn (if src < 8 then 5 else 0) = true ∧ (s.stampChan (if src < 8 then 0 else 1)).locked = true
      ∧ (s.stampChan (if src < 8 then 0 else 1)).cald = 31))
  ∧ ∀ (h : Hdr) (e : Nat) (s : State), served (.tiuMeasureStop h e) s = true → e < 4 →
    Ends (.tiuMeasureStop h e) s fun t => { s := t.setTiuEng e { s.tiuEng e with running := false, vals := [], openA := [] } }

/-- Each query writes its record where it fits, answers its length and resets what it reports. TIME_QUERY, TIU_MEASURE
QUERY, STATUS_QUERY, LEDGER_QUERY, PATCH_STATUS and LINK_STATUS write their record to a buffer that holds it, answer
its length and reset the counters that it reports; a shorter buffer is INVALID_ARG and resets nothing. STATUS_QUERY
has a record for exactly the kinds and targets of R426. PATCH_STATUS completes with AUTH_FAIL, FAULT or OK by the
containers' results. The TIU record tells the coarse count, device time and step count of this tick; the records of
fixed layout have the spec's lengths. (R58, R350, R356, R389, R424, R426, R427, R428, R525, R526,
16_host_mailboxes.md) -/
def Obligations.QueriesWriteTheirRecord : Prop :=
  (∀ (h : Hdr) (len : Nat) (s : State), served (.timeQuery h len) s = true →
    (72 ≤ len → Ends (.timeQuery h len) s fun t => { s := { t with
      out := { t.out with query := s.timeRec }
      time := { t.time with switches := {}, steps := {}, rejects := {}, steppedFlag := false, switchedFlag := false } }, result := 72 })
    ∧ (len < 72 → Ends (.timeQuery h len) s fun t => { s := t, status := 2, why := .field 16 }))
  ∧ (∀ (h : Hdr) (e len : Nat) (s : State), served (.tiuMeasureQuery h e len) s = true → e < 4 →
    let query := le 8 (s.now % 2 ^ 48) ++ stampBytes (s.devTicks * 65536) ++ le 4 s.time.stepCount ++ [0, 0, 0, 0]
    (32 ≤ len → Ends (.tiuMeasureQuery h e len) s fun t => { s := { t with out := { t.out with query } }, result := 32 })
    ∧ (len < 32 → Ends (.tiuMeasureQuery h e len) s fun t => { s := t, status := 2, why := .field 16 }))
  ∧ (∀ (h : Hdr) (kind target len : Nat) (s : State), served (.statusQuery h kind target len) s = true → kind ≤ 17 →
    Ends (.statusQuery h kind target len) s fun t => match t.statusRec kind target with
      | some q => if q.bytes.length ≤ len then { s := q.reset { t with out := { t.out with query := q.bytes } }, result := q.bytes.length }
        else { s := t, status := 2, why := .field 16 }
      | none => { s := t, status := 2, why := .field 4 })
  ∧ (∀ (s : State) (kind target : Nat), (s.statusRec kind target).isSome = true ↔
    kind ∈ [0, 8, 12, 14, 15, 17] ∧ target = 0
    ∨ kind = 1 ∧ s.cellExists target = true ∧ s.isLocal target = true ∧ localOf target < 0x400
    ∨ kind = 2 ∧ (s.descriptor target).isSome = true
    ∨ kind = 3 ∧ target < 0x3000 ∧ resOk target = true
    ∨ kind = 4 ∧ (target < 32 ∨ 0x100 ≤ target ∧ target < 0x110)
    ∨ kind = 5 ∧ 0x200 ≤ target ∧ target < 0x300
    ∨ kind = 6 ∧ 0x300 ≤ target ∧ target < 0x310
    ∨ kind = 7 ∧ 0x400 ≤ target ∧ target < 0x410
    ∨ kind = 9 ∧ target < 4096
    ∨ kind = 10 ∧ target = 0x500
    ∨ kind = 11 ∧ (target = 0xFFFFFFFF ∨ (s.faultKey target).isSome = true)
    ∨ kind = 13 ∧ target < 24
    ∨ kind = 16 ∧ ((instOf 1 target).isSome = true ∨ (instOf 0x12 target).isSome = true ∨ (instOf 3 target).isSome = true
        ∨ s.cellExists target = true ∧ s.isLocal target = true ∧ localOf target < 0x400))
  ∧ (∀ (s : State) (b : Nat), s.deviceRec.bytes.length = 32 ∧ (s.burinRec b).bytes.length = 24 ∧ (s.zRec b).bytes.length = 52
    ∧ (s.engineRec b).bytes.length = 40 ∧ (s.chanRec b).bytes.length = 48 ∧ s.watchRec.bytes.length = 512 ∧ (s.domRec b).bytes.length = 32
    ∧ s.bootRecBytes.length = 32)
  ∧ (∀ (h : Hdr) (cls index len : Nat) (s : State), served (.ledgerQuery h cls index len) s = true → cls ≤ 5 →
    (∀ l, (takeEntry h.sq.val s).ledger cls index = some l →
      (32 ≤ len → Ends (.ledgerQuery h cls index len) s fun t =>
        let u := { t with out := { t.out with query := l.bytes cls index } }
        { s := if cls = 4 then u.setRing index { u.ring index with bad := {} } else u, result := 32 })
      ∧ (len < 32 → Ends (.ledgerQuery h cls index len) s fun t => { s := t, status := 2, why := .field 16 }))
    ∧ (s.ledger 4 index = none ↔ 64 ≤ index) ∧ (s.ledger 5 index = none ↔ 32 ≤ index))
  ∧ (∀ (h : Hdr) (len : Nat) (s : State), served (.patchStatus h len) s = true → s.patchRec.length ≤ len →
    let results := s.patches.conts.map fun c => c.result
    ((∀ r ∈ results, r = 0) → Ends (.patchStatus h len) s fun t =>
      { s := { t with out := { t.out with query := s.patchRec } }, result := s.patchRec.length })
    ∧ ((∃ r ∈ results, 3 ≤ r ∧ r ≤ 6) → ∃ why, Ends (.patchStatus h len) s fun t =>
      { s := { t with out := { t.out with query := s.patchRec } }, status := 8, result := s.patchRec.length, why })
    ∧ ((∀ r ∈ results, ¬(3 ≤ r ∧ r ≤ 6)) → (∃ r ∈ results, r ≠ 0) → Ends (.patchStatus h len) s fun t =>
      { s := { t with out := { t.out with query := s.patchRec } }, status := 7, result := s.patchRec.length }))
  ∧ ∀ (h : Hdr) (port len : Nat) (s : State), served (.linkStatus h port len) s = true →
    (port < 0x600 ∨ 0x608 < port → Ends (.linkStatus h port len) s fun t => { s := t, status := 2, why := .field 0 })
    ∧ (0x600 ≤ port → port ≤ 0x608 → len < 48 → Ends (.linkStatus h port len) s fun t => { s := t, status := 2, why := .field 16 })
    ∧ (0x600 ≤ port → port < 0x608 → 48 ≤ len → Ends (.linkStatus h port len) s fun t =>
      { s := ({ t with out := { t.out with query := s.portRec (port - 0x600) } }).setJctr (port - 0x600) {}, result := 48 })
    ∧ (port = 0x608 → 48 ≤ len → Ends (.linkStatus h port len) s fun t => { result := 48, s := { t with
        out := { t.out with query := s.timePortRec }
        timePort := { t.timePort with misrouted := {}, crc := {}, retrains := {} } } })

/-- CAL_RUN, CAL_COMMIT and CAL_SET. CAL_RUN of a signal-traced port or quadrant scope whose instances are idle, On
and not under proof begins to measure on each, with the ramp named or the scope's own, and waits; an instance that
measures, ramps or trims makes it BUSY. CAL_RUN of CENTROID turns tracking on for every burin named that has a
centroid table. CAL_RUN of an analogue scope queues its targets in ascending order and begins the first where none is
in progress; an instance of a running cell or already queued makes it BUSY. CAL_COMMIT within the write window orders
a write of every instance named and waits; CENTROID and a ramp are INVALID_ARG. CAL_SET stores the scope's settings, 0
selecting a default. (R425, R486, R488, R489, R493, R495, R499, R505, 20_calibration.md) -/
def Obligations.CalibrationCommands : Prop :=
  (∀ (h : Hdr) (scope target ramp : Nat) (s : State), served (.calRun h scope target ramp) s = true → scope = 1 ∨ scope = 3 →
    target = 0xFFFFFFFF ∨ (instOf scope target).isSome = true → ramp ≤ 65536 →
    let is_ := namedInsts scope target
    ((∀ i ∈ is_, (s.calI i).st ≠ 1 ∧ (s.calI i).st ≠ 3 ∧ (s.calI i).ramp = none ∧ s.isOn (instDom i) = true ∧ s.testing (instDom i) = false) →
      Ends (.calRun h scope target ramp) s fun t =>
        { s := each (fun i u => u.modCal i fun c => { c with
            st := 1, rampLen := if ramp = 0 then (s.scope scope).ramp else ramp, runAt := u.now, crossed := [] }) is_ t
          wait := .cal scope target })
    ∧ ((∃ i ∈ is_, (s.calI i).st = 1 ∨ (s.calI i).st = 3 ∨ (s.calI i).ramp.isSome = true) →
      Ends (.calRun h scope target ramp) s fun t => { s := t, status := 1, why := .inUse }))
  ∧ (∀ (h : Hdr) (target ramp b : Nat) (s : State), served (.calRun h 2 target ramp) s = true → s.calTarget 2 target = true →
    ramp ≤ 65536 → s.centBurins target = [b] → (s.cent b).on = false → (s.scope 2).auto = false → (s.cent b).ramp = none →
    Ends (.calRun h 2 target ramp) s fun t =>
      { s := t.setCent b { s.cent b with on := true, sums := [], got := [], rampLen := if ramp = 0 then (s.scope 2).ramp else ramp }
        wait := .cal 2 target })
  ∧ (∀ (h : Hdr) (scope target ramp i : Nat) (s : State), served (.calRun h scope target ramp) s = true →
    scope = 0x11 ∨ scope = 0x12 ∨ scope = 0x13 → instOf scope target = some i → ramp ≤ 65536 →
    let q := tget [] s.calib.trimQ scope
    (s.instUsed i = true ∨ i ∈ q → Ends (.calRun h scope target ramp) s fun t => { s := t, status := 1, why := .inUse })
    ∧ (s.instUsed i = false → s.isOn (instDom i) = true → s.testing (instDom i) = false →
      (q = [] → Ends (.calRun h scope target ramp) s fun t =>
        { s := beginTrim scope { t with calib := { t.calib with trimQ := tset [] t.calib.trimQ scope [i] } }, wait := .cal scope target })
      ∧ (∀ k l, q = k :: l → i ∉ q → l.Pairwise (· < ·) → ∃ l', l'.Pairwise (· < ·) ∧ (∀ x, x ∈ l' ↔ x = i ∨ x ∈ l)
        ∧ Ends (.calRun h scope target ramp) s fun t =>
          { s := { t with calib := { t.calib with trimQ := tset [] t.calib.trimQ scope (k :: l') } }, wait := .cal scope target })))
  ∧ (∀ (h : Hdr) (scope target ramp : Nat) (s : State), served (.calCommit h scope target ramp) s = true →
    (scope = 2 → Ends (.calCommit h scope target ramp) s fun t => { s := t, status := 2, why := .field 0 })
    ∧ (scope ∈ [1, 3, 0x11, 0x12, 0x13] → target = 0xFFFFFFFF ∨ (instOf scope target).isSome = true →
      (ramp ≠ 0 → Ends (.calCommit h scope target ramp) s fun t => { s := t, status := 2, why := .field 8 })
      ∧ (ramp = 0 → (∀ i ∈ namedInsts scope target, s.windowOpen i = true) → Ends (.calCommit h scope target ramp) s fun t =>
        { s := each (fun i u => u.modCal i fun c => { c with writeDue := true, commit := true }) (namedInsts scope target) t
          wait := .cal scope target })))
  ∧ ∀ (h : Hdr) (scope : Nat) (auto : Bool) (dtemp cwin cdead ramp : Nat) (s : State),
    served (.calSet h scope auto dtemp cwin cdead ramp) s = true → scope ∈ [1, 2, 3, 0x11, 0x12, 0x13] →
    (dtemp = 0 ∨ 8 ≤ dtemp ∧ dtemp ≤ 480) → (cwin = 0 ∨ 16 ≤ cwin ∧ cwin ≤ 65535) → cdead ≤ 4096 → ramp ≤ 65536 →
    Ends (.calSet h scope auto dtemp cwin cdead ramp) s fun t =>
      let v : CalScope := { auto := auto && decide (scope < 0x11), dtemp := if dtemp = 0 then 48 else dtemp, cwin := if cwin = 0 then 1024 else cwin
                            cdead := if cdead = 0 then 16 else cdead, ramp := if ramp = 0 then 256 else ramp }
      { s := { t with calib := { t.calib with scopes := tset (scopeDefault scope) t.calib.scopes scope v } } }

/-- POWER_SET follows the permitted transitions; the governor takes settings in range. For PD02 to PD23 with a wake
field in rule: a request for the present state completes, replacing the wake channel in Retention and Off; one to
Retention or Off from On, with the domain in no use and no configured cell in READY, RUN or CALIBRATE, begins the
entry and waits; a domain in use is BUSY; Retention to Off enters; Off to Retention is INVALID_ARG; a request to On
from Retention or Off begins the wake and waits, unless a node of the domain is at the shut-down level or failed,
which is REFUSED_THERMAL; WAKING, or ENTERING with a request that is not On, is BUSY. PD00, PD01 and, to leave On,
PD02 are INVALID_ARG. GOVERNOR stores settings in range. (R425, R446, R448, R449, R450, R452, R456, R459, R460,
18_power_domains.md) -/
def Obligations.PowerCommands : Prop :=
  (∀ (h : Hdr) (d st wake : Nat) (s : State), served (.powerSetDomain h d st wake) s = true → st ≤ 2 →
    let c : Instr := .powerSetDomain h d st wake
    let k := s.dom d
    let ch : Option Nat := if wake = 0xFFFF then none else some wake
    (d < 2 ∨ d = 2 ∧ st ≠ 0 → Ends c s fun t => { s := t, status := 2, why := .alwaysOn d })
    ∧ (2 ≤ d → d ≤ 23 → (d = 2 → st = 0) →
      (wake = 0xFFFF ∨ st ≠ 0 ∧ wake < 4096 ∧ (s.chan wake).bound = true ∧ (s.chan wake).kind = 1) →
      (k.st = .waking ∨ k.st = .entering ∧ st ≠ 0 → Ends c s fun t => { s := t, status := 1, why := .transition d })
      ∧ (k.st = .on → st = 0 → Ends c s fun t => { s := t })
      ∧ (k.st = .retention ∧ st = 1 ∨ k.st = .off ∧ st = 2 → Ends c s fun t => { s := t.setDom d { k with wakeCh := ch } })
      ∧ (k.st = .off → st = 1 → Ends c s fun t => { s := t, status := 2, why := .transition d })
      ∧ (k.st = .retention → st = 2 → Ends c s fun t =>
        { s := (enter d 2 t).modDom d fun x => { x with wakeCh := ch }, wait := .domain d 2 })
      ∧ (k.st = .on → st ≠ 0 → s.domInUse d = true → Ends c s fun t => { s := t, status := 1, why := .inUse })
      ∧ (k.st = .on → st ≠ 0 → s.domInUse d = false →
        (s.sys.mode ≠ .ready ∧ s.sys.mode ≠ .run ∧ s.sys.mode ≠ .calibrate ∨ s.domConfigured d = none) →
        Ends c s fun t => { s := (beginEntry d st t).modDom d fun x => { x with wakeCh := ch }, wait := .domain d st })
      ∧ (∀ cell, k.st = .on → st ≠ 0 → s.domInUse d = false → (s.sys.mode = .ready ∨ s.sys.mode = .run ∨ s.sys.mode = .calibrate) →
        s.domConfigured d = some cell → Ends c s fun t => { s := t, status := 2, why := .configured cell })
      ∧ (k.st = .retention ∨ k.st = .off → st = 0 →
        (s.hotNode d = none → Ends c s fun t => { wait := .domain d 0, s := t.setDom d { k with
          fromOff := decide (k.st = .off), st := .waking, step := .regulator, wakeCh := none, lastSource := 2
          sourceRef := h.sq.val + h.cmdId % 65536 * 65536, wakeStart := s.now, stepStart := s.now } })
        ∧ (∀ n, s.hotNode d = some n → Ends c s fun t =>
          { s := t.setDom d { k with thermRefused := true }, status := 4, why := .thermal n }))))
  ∧ (∀ (s : State) (d : Nat), (beginEntry d 1 s).dom d =
    { (leaveOn d s).dom d with st := .entering, target := 1, isolated := ((leaveOn d s).dom d).st == .retention })
  ∧ ∀ (h : Hdr) (a : GovArgs) (s : State), served (.powerSetGovernor h a) s = true → a.mode ≤ 1 → 650 ≤ a.vmin → a.vmin ≤ a.vmax →
    a.vmax ≤ 850 → 650 ≤ a.vfixed → a.vfixed ≤ 850 → (a.mode = 1 → a.vmin ≤ a.vfixed ∧ a.vfixed ≤ a.vmax) → a.nearlate ≤ 125 →
    a.nearlate + 10 ≤ a.lower → a.lower ≤ 1250 →
    Ends (.powerSetGovernor h a) s fun t => { s := { t with gov := { t.gov with
      fixed := decide (a.mode = 1), vmin := a.vmin, vmax := a.vmax, vfixed := a.vfixed, nearLate := a.nearlate, lower := a.lower } } }

/-- PROOF_RUN takes one of four places; FAULT_CLEAR clears what may clear and counts. Both complete with a next state.
A PROOF_RUN of a domain PD03 to PD23 that is On and in no use, or of a cell of this device that has burins here alone,
with a test named, takes the lowest free place of four, holds what it covers safe and waits; a target in use or a
fifth run is BUSY; PD00 to PD02, no test, and a memory test of PD04 outside PROOF are INVALID_ARG. FAULT_CLEAR of a
scope that concerns no other device clears the latches whose condition holds and answers cleared + left × 2^32: of a
root its doubts, of a channel its storm and overflow flags while its route is up, of a Z channel its over-current and
mismatch flags, of holdover the device's doubt 7; a target that names nothing is INVALID_ARG. (R138, R206, R285, R344,
R416, R508, R512, R515, R527, R528, 21_faults_ordering_proof.md) -/
def Obligations.ProofAndFaultCommands : Prop :=
  (∀ (h : Hdr) (kind domain tests cell : Nat) (s : State), served (.proofRun h kind domain tests cell) s = true →
    let c : Instr := .proofRun h kind domain tests cell
    let p : ProofRun := { kind, domain, cell, tests, id := s.nextId }
    (kind = 0 → (domain < 3 ∨ 23 < domain) → Ends c s fun t => { s := t, status := 2, why := .field 1 })
    ∧ (kind = 0 → 3 ≤ domain → domain ≤ 23 → tests = 0 → Ends c s fun t => { s := t, status := 2, why := .field 2 })
    ∧ ((kind = 0 ∧ 3 ≤ domain ∧ domain ≤ 23 ∧ (domain = 4 → tests.testBit 1 = true → s.sys.mode = .proof)
        ∨ kind = 1 ∧ s.cellExists cell = true ∧ s.isLocal cell = true ∧ s.cellDevs cell = []) →
      1 ≤ tests → tests ≤ 3 → (∀ d ∈ p.doms s, s.isOn d = true) →
      (s.proofBusyOn p = true ∨ (∀ k, k < 4 → (s.proof k).active = true) → Ends c s fun t => { s := t, status := 1, why := .inUse })
      ∧ (∀ k, k < 4 → (∀ j, j < k → (s.proof j).active = true) → (s.proof k).active = false → s.proofBusyOn p = false →
        (∃ t, exec c s = .next t ∧ t.proof k = { p with active := true })
        ∧ Ends c s fun t =>
          let u := beginProof k p (joinProof p t)
          { s := { u with nextId := u.nextId + 1 }, wait := .proof p.id })))
  ∧ (∀ (k : Nat) (p : ProofRun) (s : State), (beginProof k p s).proof k = { p with active := true })
  ∧ (∀ (h : Hdr) (scope target : Nat) (s : State), served (.faultClear h scope target) s = true → scope ≤ 5 →
    s.devsOf (s.clearRoots scope target) = [] →
    (∀ x, clearScope scope target true (takeEntry h.sq.val s) = some x →
      ∃ t, exec (.faultClear h scope target) s = .next t ∧ t.devFault = x.s.devFault ∧ t.faults = x.s.faults ∧ t.zch = x.s.zch
        ∧ t.chans = x.s.chans ∧ t.time = x.s.time)
    ∧ Ends (.faultClear h scope target) s fun t => match clearScope scope target true t with
      | some x => { s := x.s, result := x.cleared + x.left * 4294967296 }
      | none => { s := t, status := 2, why := .field 4 })
  ∧ (∀ (up : Bool) (s : State) (scope target : Nat), scope ≤ 5 → ((clearScope scope target up s).isSome = true ↔
    target = 0xFFFFFFFF ∨ (scope = 0 ∨ scope = 5) ∧ target = 0
    ∨ scope = 1 ∧ s.cellExists target = true ∧ (s.isLocal target = false ∨ (s.cell (localOf target)).parent = none)
    ∨ scope = 2 ∧ target < 4096 ∨ scope = 3 ∧ 0x200 ≤ target ∧ target < 0x300 ∨ scope = 4 ∧ 0x600 ≤ target ∧ target < 0x608))
  ∧ (∀ (up : Bool) (s : State) (key c : Nat), c ∈ ((clearRoot up (fun _ => true) key { s }).s.fault key).codes ↔
    c ∈ (s.fault key).codes ∧ s.canClearRoot up key c = false)
  ∧ (∀ (up : Bool) (s : State) (z : Nat), z < 256 → clearScope 3 (0x200 + z) up s = some
    { s := s.setZ z { s.z z with ovc := false, mismatch := false, unownedLatch := false }
      cleared := (if (s.z z).ovc then 1 else 0) + (if (s.z z).mismatch then 1 else 0) })
  ∧ (∀ (up : Bool) (s : State) (ch : Nat), ch < 4096 → (s.chan ch).stormFlag = true → (s.chan ch).ovfFlag = false → (s.chan ch).cut = false →
    clearScope 2 ch up s = some { s := s.setChan ch { s.chan ch with stormFlag := false, ovfFlag := false, storm := [] }, cleared := 1 })
  ∧ ∀ (up : Bool) (s : State), 7 ∈ s.devFault.codes → s.time.st ≠ .holdover → ∃ x, clearScope 5 0 up s = some x ∧ 7 ∉ x.s.devFault.codes
    ∧ x.s.time.holdLatch = false ∧ (∀ c, c ≠ 7 → (c ∈ x.s.devFault.codes ↔ c ∈ s.devFault.codes))

/-- LINK_SET, RING_SET, HK_SET and NET_SET store what is in rule. LINK_SET of the time port sets ENABLE, and its
loopback and address where flagged, and a PTP domain loses its source where that takes the port down; a loopback
outside SERVICE is REFUSED_MODE; a JVL port takes its settings unless in RUN a running root's route uses it, which is
BUSY. RING_SET of fields in rule sets the ring, and empties its device part where DEV is cleared or the part moved; an
overlap is INVALID_ARG, a move or clearing of DEV in use BUSY, a change of host fields while HOST is 1 BUSY. HK_SET
with channels in rule is in force from the next round, DISLIM 0 selecting 32. NET_SET DEVNUM gives the device a number
unless a SHADOW or spanning data channel holds it; ROUTES stores its entries, but not the device's own. (R363, R387,
R425, R435, R437, R438, R471, R545, 15_serial_lanes.md, 16_host_mailboxes.md, 17_memory.md, 22_boot_bringup.md) -/
def Obligations.LinkAndRingCommands : Prop :=
  (∀ (h : Hdr) (flags genmax lb address pfx : Nat) (s : State), served (.linkSet h 0x608 flags genmax lb address pfx) s = true →
    flags < 16 → flags.testBit 1 = false → (flags.testBit 2 = true → lb ≤ 3) → (flags.testBit 3 = true → pfx ≤ 32) →
    let c : Instr := .linkSet h 0x608 flags genmax lb address pfx
    (flags.testBit 2 = true → lb ≠ 0 → s.sys.mode ≠ .service → Ends c s fun t => { s := t, status := 5, why := .mode })
    ∧ ((flags.testBit 2 = true → lb ≠ 0 → s.sys.mode = .service) → s.isOn 3 = true → s.testing 3 = false → Ends c s fun t =>
      let p := t.timePort
      let l := if flags.testBit 2 then lb else p.loopback
      let stays := flags.testBit 0 && decide (l = p.loopback)
      let u := { t with timePort := { p with
          enabled := flags.testBit 0, loopback := l, up := p.up && stays
          trying10 := p.trying10 || !stays, tryAt := if stays = true then p.tryAt else t.now
          ip := if flags.testBit 3 then address else p.ip, pfx := if flags.testBit 3 then pfx else p.pfx } }
      { s := if p.up && !stays then loseSources (fun a => a.source == 1) id u else u }))
  ∧ (∀ (h : Hdr) (p flags genmax lb address pfx : Nat) (s : State), served (.linkSet h (0x600 + p) flags genmax lb address pfx) s = true →
    p < 8 → flags < 8 → (flags.testBit 1 = true → genmax = 1 ∨ genmax = 2) → (flags.testBit 2 = true → lb ≤ 3 ∧ (lb = 0 ∨ s.sys.mode = .service)) →
    s.isOn 3 = true → s.testing 3 = false →
    let c : Instr := .linkSet h (0x600 + p) flags genmax lb address pfx
    (s.sys.mode = .run → s.portInUse p = true → Ends c s fun t => { s := t, status := 1, why := .inUse })
    ∧ (s.sys.mode ≠ .run ∨ s.portInUse p = false → Ends c s fun t => { s := setPort p flags genmax lb t }))
  ∧ (∀ (s : State) (p flags genmax lb : Nat), ((s.jport p).enabled = true ∨ (s.jport p).enabled = false ∧ flags.testBit 0 = true) →
    let j := (setPort p flags genmax lb s).jport p
    j.enabled = flags.testBit 0 ∧ j.genMax = (if flags.testBit 1 then genmax else (s.jport p).genMax)
      ∧ j.loopback = (if flags.testBit 2 then lb else (s.jport p).loopback))
  ∧ (∀ (h : Hdr) (a : RingArgs) (s : State), served (.ringSet h a) s = true → a.ring < 64 → a.flags < 8 → a.vec < 64 → a.cnt < 65536 →
    let dev := a.flags.testBit 0
    let host := a.flags.testBit 1
    let r := s.ring a.ring
    (dev = true → a.dbase % 4096 = 0 ∧ inRing a.dbase a.dlen = true ∧ 65536 ≤ a.dlen ∧ a.dlen ≤ 33554432 ∧ a.dlen % 4096 = 0) →
    (host = true → a.hbase % 4096 = 0 ∧ 4096 ≤ a.hlen ∧ a.hlen ≤ 67108864 ∧ a.hlen % 4096 = 0 ∧ a.ctrl % 64 = 0) →
    let moved : Bool := !dev || decide (a.dbase ≠ r.dbase) || decide (a.dlen ≠ r.dlen)
    let hostMoved : Prop := a.hbase ≠ r.hbase ∨ a.hlen ≠ r.hlen ∨ a.ctrl ≠ r.ctrl
    (dev = true → s.ringOverlap a = true → Ends (.ringSet h a) s fun t => { s := t, status := 2, why := .field 4 })
    ∧ ((dev = true → s.ringOverlap a = false) → r.dev = true → moved = true → s.ringInUse a.ring = true →
      Ends (.ringSet h a) s fun t => { s := t, status := 1, why := .inUse })
    ∧ ((dev = true → s.ringOverlap a = false) → r.host = true → hostMoved →
      Ends (.ringSet h a) s fun t => { s := t, status := 1, why := .inUse })
    ∧ ((dev = true → s.ringOverlap a = false) → (r.dev = true → moved = true → s.ringInUse a.ring = false) → (r.host = true → ¬hostMoved) →
      Ends (.ringSet h a) s fun t => { s := t.setRing a.ring { r with
        dev, host, ien := a.flags.testBit 2, vec := a.vec, dbase := a.dbase, dlen := a.dlen, cnt := a.cnt, hbase := a.hbase
        hlen := a.hlen, itime := a.itime, ctrl := a.ctrl
        recs := if moved then [] else r.recs, used := if moved then 0 else r.used, woff := if moved then 0 else r.woff
        written := if host && !r.host then 0 else r.written, consumed := if host && !r.host then 0 else r.consumed
        lastBad := if host && !r.host then none else r.lastBad
        unsig := if host then r.unsig else 0, unsigAt := if host then r.unsigAt else none } }))
  ∧ (∀ (h : Hdr) (dislim : Nat) (slots : List (Nat × Nat)) (s : State), served (.hkSet h dislim slots) s = true →
    (dislim = 0 ∨ 4 ≤ dislim ∧ dislim ≤ 1024) → slots.length ≤ 351 →
    (∀ e ∈ slots, (e.1 ≤ 320 ∨ e.1 = 0xFFFF) ∧ (e.2 ≤ 320 ∨ e.2 = 0xFFFF)) →
    Ends (.hkSet h dislim slots) s fun t =>
      { s := { t with house := { t.house with slotsPend := some (if dislim = 0 then 32 else dislim, slots) } } })
  ∧ (∀ (h : Hdr) (n : Nat) (s : State), served (.netSetDevnum h n) s = true → n < 16384 →
    let held := (s.plates.any fun e => decide (e.2.st = .shadow)) || (s.chans.any fun e => e.2.bound && e.2.kind == 2 && s.chanSpans e.2)
    (held = true → Ends (.netSetDevnum h n) s fun t => { s := t, status := 1, why := .inUse })
    ∧ (held = false → Ends (.netSetDevnum h n) s fun t =>
      { s := each (fun p u => if (u.jport p).st = .active then portLoss p 4 .lock u else u) (List.range 8) (setDevnum n t) }))
  ∧ (∀ (s : State) (n : Nat), (setDevnum n s).sys = { s.sys with devnum := n, dnv := true })
  ∧ ∀ (h : Hdr) (src first count : Nat) (s : State), served (.netSetRoutes h src first count) s = true → srcOk src count = true →
    1 ≤ count → first + count ≤ 16384 → s.isOn 3 = true → s.testing 3 = false → s.isOn 4 = true → s.poisoned src count = false →
    (∀ b ∈ s.bytesAt src count, b.toNat < 8 ∨ b.toNat = 0xFF) →
    let routes := tset 0xFF (tsetRun 0xFF s.sys.routes first ((s.bytesAt src count).map BitVec.toNat)) s.sys.devnum
      (tget 0xFF s.sys.routes s.sys.devnum)
    Ends (.netSetRoutes h src first count) s fun t => { s := { t with sys := { t.sys with
      routes, cutDevs := t.sys.cutDevs.filter fun d => tget 0xFF routes d == tget 0xFF s.sys.routes d } } }

/-- IDENT holds the part, the silicon revision and the family, and patch containers are checked against it. A read of
IDENT gives part 0x1024 in [15:0], the silicon revision, which the model leaves open, in [23:16] and family 0x5A in
[31:24], in every state; a write of it is ignored; and a container whose identity code is another has result 1 or 2,
and 2 only such a one. (R391) -/
def Obligations.IdentityCode : Prop :=
  (∀ s : State, s.bar0 0 % 2 ^ 16 = 0x1024 ∧ s.bar0 0 / 2 ^ 16 % 2 ^ 8 = Config.siliconRev.toNat ∧ s.bar0 0 / 2 ^ 24 = 0x5A)
  ∧ (∀ (bytes : Nat) (value : Word) (s : State), exec (.registerWrite 0 bytes value) s = .next s)
  ∧ ∀ (s : State) (ninth : Bool) (least : Nat) (before : List Container) (c : Container),
    (contPart c ≠ s.bar0 0 → contResult ninth least before c = 1 ∨ contResult ninth least before c = 2)
    ∧ (contResult ninth least before c = 2 → contPart c ≠ s.bar0 0)

/-- What a write of each BAR0 register does, and what it leaves. While PD02 HOST is On and the link is up, SQDB and
CQDB take a count in rule and refuse one that is not, with BADDB and QUEUE set and the count as before (SQ0 also while
an OPEN submitted there has not completed); SQCTL sets CQ while the queue is disabled, EN to 1 at once and to 0 only
when every command submitted has completed, and clears BADDB by 1; a 1 written to FAULTSUM clears a bit whose latch is
not set; HB_HOST and HB_CTL keep their value and restart the timer where TIMEOUT is nonzero outside BOOT;
REGISTER_WRITE of an aligned word does what the named rows do, sets IRQCTL, BASE while disabled, CQCTL and the MSI-X
table, and leaves read-only registers and offsets not listed; any other access, and any write while the host does not
reach the device, changes nothing. HB_DEV advances modulo 2^16 while PD01 is On. (R364, R390, R394, R395, R396, R397,
R398, R399, R400, 16_host_mailboxes.md) -/
def Obligations.HostRegisterWrites : Prop :=
  (∀ (s : State), s.isOn 2 = true → s.host.linkUp = true →
    (∀ (q : Fin 64) (value : Word) (opens : Bool),
      let k := s.sq q.val
      let n := value.toNat % 65536
      let bad : Prop := k.en = false ∨ s.depthNow < (n + 65536 - k.completed) % 65536 ∨ q.val = 0 ∧ s.host.openPending = true
      (bad → exec (.sqdb q value opens) s = .next (setSum 13 (s.setSq q.val { k with baddb := true })))
      ∧ (¬bad → ∃ t, exec (.sqdb q value opens) s = .next t ∧ t.sq q.val = { k with
          submitted := n, bells := k.bells ++ [(n, s.host.sqs.map fun e => (e.1, e.2.submitted))] }
        ∧ (∀ j, j ≠ q.val → t.sq j = s.sq j) ∧ t.device = s.device
        ∧ t.host.openPending = (s.host.openPending || opens && decide (q.val = 0))))
    ∧ (∀ (q : Fin 64) (value : Word),
      let k := s.cq q.val
      let n := value.toNat % 65536
      let step := (n + 65536 - k.consumed) % 65536
      let bad : Prop := k.en = false ∨ (k.written + 65536 - k.consumed) % 65536 < step
      (bad → exec (.cqdb q value) s = .next (setSum 13 (s.setSq q.val { s.sq q.val with baddb := true })))
      ∧ (¬bad → exec (.cqdb q value) s = .next (s.setCq q.val { k with consumed := n, slots := k.slots.drop step })))
    ∧ (∀ (q : Fin 64) (value : Word), let k := s.sq q.val
      exec (.sqctl q value) s = .next (s.setSq q.val { k with
        cq := if k.en then k.cq else value.toNat / 2 % 64
        en := value.getLsbD 0 || k.en && decide (k.submitted ≠ k.completed), baddb := k.baddb && !value.getLsbD 17 }))
    ∧ (∀ value : Word, ∃ t, exec (.faultsum value) s = .next t ∧ t.device = s.device ∧ ∀ k, k < 32 →
      t.host.faultsum.getLsbD k = (s.host.faultsum.getLsbD k && !value.getLsbD k
        || k == 0 && decide (s.devFault.codes ≠ []) || k == 1 && s.faults.any (fun e => decide (e.2.codes ≠ []))
        || k == 6 && s.chans.any (fun e => e.2.stormFlag || e.2.ovfFlag) || k == 8 && s.time.holdLatch
        || k == 10 && s.zch.any (fun e => e.2.unownedLatch) || k == 12 && s.devFault.codes.contains 11))
    ∧ (∀ value : Word, exec (.hbHost value) s = .next { s with host := { s.host with
        hbHost := value, hbStart := if s.host.hbTimeout ≠ 0 ∧ s.sys.mode ≠ .boot then some s.now else none } })
    ∧ (∀ value : Word, exec (.hbCtl value) s = .next { s with host := { s.host with
        hbTimeout := value.toNat % 65536
        hbStart := if value.toNat % 65536 ≠ 0 ∧ s.sys.mode ≠ .boot then some s.now else none } })
    ∧ (∀ (o bytes : Nat) (value : Word), (bytes ≠ 4 ∨ o % 4 ≠ 0) → exec (.registerWrite o bytes value) s = .next s)
    ∧ (∀ (o : Nat) (value : Word), (o ∈ [0, 4, 8, 0x10, 0x9000, 0x9004] ∨ 0x20 ≤ o ∧ o < 0x1000 ∨ 0x1400 ≤ o ∧ o < 0x2000
        ∨ 0x2400 ≤ o ∧ o < 0x3000 ∨ 0x3200 ≤ o ∧ o < 0x8000 ∨ 0x8400 ≤ o) → exec (.registerWrite o 4 value) s = .next s)
    ∧ (∀ value : Word, exec (.registerWrite 0x0C 4 value) s = exec (.faultsum value) s
      ∧ exec (.registerWrite 0x14 4 value) s = exec (.hbHost value) s ∧ exec (.registerWrite 0x18 4 value) s = exec (.hbCtl value) s
      ∧ exec (.registerWrite 0x1C 4 value) s = .next { s with host := { s.host with irqctl := value &&& 0x7F7F#32 } })
    ∧ (∀ (q : Fin 64) (value : Word), let k := s.sq q.val; let c := s.cq q.val
      exec (.registerWrite (0x1008 + 16 * q.val) 4 value) s = exec (.sqctl q value) s
      ∧ exec (.registerWrite (0x3000 + 8 * q.val) 4 value) s = exec (.sqdb q value false) s
      ∧ exec (.registerWrite (0x3004 + 8 * q.val) 4 value) s = exec (.cqdb q value) s
      ∧ exec (.registerWrite (0x1000 + 16 * q.val) 4 value) s = .next (s.setSq q.val { k with
          baseLo := if k.en then k.baseLo else value.toNat / 4096 * 4096 })
      ∧ exec (.registerWrite (0x1004 + 16 * q.val) 4 value) s = .next (s.setSq q.val { k with
          baseHi := if k.en then k.baseHi else value.toNat })
      ∧ exec (.registerWrite (0x2008 + 16 * q.val) 4 value) s = .next (s.setCq q.val { c with
          en := value.getLsbD 0, vec := value.toNat / 2 % 64, ien := value.getLsbD 7, cnt := value.toNat / 2 ^ 8 % 2 ^ 8
          itime := value.toNat / 2 ^ 16 % 2 ^ 16 }))
    ∧ ∀ (k : Nat) (value : Word), k < 256 → ∃ t, exec (.registerWrite (0x8000 + 4 * k) 4 value) s = .next t ∧ t.device = s.device
      ∧ t.msixWord k = (if k % 4 = 0 then value &&& ~~~3#32 else if k % 4 = 3 then value &&& 1#32 else value)
      ∧ ∀ j, j ≠ k → t.msixWord j = s.msixWord j)
  ∧ (∀ (s : State) (q : Fin 64) (value : Word) (opens : Bool) (o bytes : Nat), (s.isOn 2 = false ∨ s.host.linkUp = false) →
    exec (.sqdb q value opens) s = .next s ∧ exec (.cqdb q value) s = .next s ∧ exec (.sqctl q value) s = .next s
    ∧ exec (.faultsum value) s = .next s ∧ exec (.hbHost value) s = .next s ∧ exec (.hbCtl value) s = .next s
    ∧ exec (.registerWrite o bytes value) s = .next s)
  ∧ ∀ s : State, exec .hbDevAdvance s = .next (if s.isOn 1 = true ∧ 4 ≤ s.boot.step ∧ s.boot.step ≤ 7 ∧ s.host.hbDevAt + 20000 * 1000 ≤ s.now then
    { s with host := { s.host with hbDev := (s.host.hbDev + 1) % 65536, hbDevAt := s.now } } else s)

/-- Heartbeat loss, held completions, completion timers and the PCIe link. Once TIMEOUT ms have passed without a
write, outside BOOT, the timer stops, HBLOST sets and the device-scope doubt 11 is raised with TIMEOUT as its detail;
before that nothing happens. The oldest completion held takes a slot of its queue when one is free. ITIME after the
first unsignalled completion the queue's vector is raised, where the queue may interrupt; a completion is written at
its slot's address. The link comes up with its generation and width while PD02 is On. A link-down closes the session
with no completion: queues, streams and transfers into host memory stop; mode, cells, plates, burins, tones, Z
channels and domains stay. (R30, R364, R365, R395, R399, R402, R405, 16_host_mailboxes.md, 15_serial_lanes.md) -/
def Obligations.HostInterfaceEvents : Prop :=
  (∀ (s : State) (t : Nat), s.host.hbStart = some t → s.host.hbTimeout ≠ 0 → s.sys.mode ≠ .boot →
    exec .heartbeatTimeout s = .next (if t + 20000000 * s.host.hbTimeout ≤ s.now then
      doubtDevice 11 (le 2 s.host.hbTimeout ++ List.replicate 30 0) (setSum 12 { s with host := { s.host with hbStart := none } }) else s))
  ∧ (∀ s : State, (s.host.hbStart = none ∨ s.host.hbTimeout = 0 ∨ s.sys.mode = .boot) → exec .heartbeatTimeout s = .next s)
  ∧ (∀ (s : State) (c : Fin 64) (e : Completion) (rest : List Completion), (s.cq c.val).held = e :: rest →
    exec (.completionRelease c) s = .next (if s.cqFree c.val = true then
      writeCompletion c.val e (s.setCq c.val { s.cq c.val with held := rest }) else s))
  ∧ (∀ (s : State) (c : Fin 64), (s.cq c.val).held = [] → exec (.completionRelease c) s = .next s)
  ∧ (∀ (s : State) (c : Nat) (e : Completion), (s.cq c).ien = false →
    let k := s.cq c
    let x : Completion := { e with phase := decide (k.written / s.depthNow % 2 = 0) }
    writeCompletion c e s = s.setCq c { k with
      written := (k.written + 1) % 65536, unsig := k.unsig + 1, unsigAt := some (k.unsigAt.getD s.now)
      slots := k.slots ++ [x], last := some x
      image := some (k.baseLo + k.baseHi * 4294967296 + 16 * (k.written % s.depthNow), x.bytes) })
  ∧ (∀ (s : State) (c : Fin 64), 
    (∀ t, (s.cq c.val).ien = true → (s.cq c.val).itime ≠ 0 → (s.cq c.val).unsigAt = some t → t + 20000 * (s.cq c.val).itime ≤ s.now →
      exec (.cqInterruptTimer c) s = .next (raiseVec (s.cq c.val).vec (s.setCq c.val { s.cq c.val with unsigAt := none, unsig := 0 })))
    ∧ ((s.cq c.val).ien = false ∨ (s.cq c.val).itime = 0 ∨ (s.cq c.val).unsigAt = none
        ∨ (∃ t, (s.cq c.val).unsigAt = some t ∧ s.now < t + 20000 * (s.cq c.val).itime) →
      exec (.cqInterruptTimer c) s = .next s))
  ∧ (∀ (s : State) (gen width : Nat), exec (.pcieLinkUp gen width) s = .next (if s.isOn 2 = true then
    { s with host := { s.host with linkUp := true, linkGen := gen, linkWidth := width } } else s))
  ∧ ∀ s : State, ∃ t, exec .pcieLinkDown s = .next t ∧ t.host.linkUp = false ∧ t.host.protoValid = false ∧ t.host.version = 0
    ∧ (∀ q, q ≠ 0 → (q < 64 → t.sq q = {}) ∧ t.cq q = {}) ∧ (t.sq 0).flight = [] ∧ (t.sq 0).submitted = 0 ∧ (t.sq 0).completed = 0
    ∧ (∀ e ∈ t.rings, e.2.host = false) ∧ t.sys = s.sys ∧ t.burins = s.burins ∧ t.cells = s.cells ∧ t.plates = s.plates
    ∧ t.roots = s.roots ∧ t.tones = s.tones ∧ t.zch = s.zch ∧ t.domains = s.domains ∧ t.chans = s.chans

/-- BAR2 reads and writes package memory. While the host reaches the device, a read of bytes in the 1 GiB space
answers them, all ones while PD04 MEM is not On; over a granule that cannot be corrected it is poisoned, and MEM,
uncorrectable and the address are noted. A write to bytes that the device does not hold and whose granules are good
stores exactly those bytes and leaves every other; one while PD04 MEM is not On is discarded; one that lies wholly in
the RING region is discarded. (R397, R430, R434, R436, R444, 17_memory.md) -/
def Obligations.PackageMemoryThroughBar2 : Prop :=
  (∀ (s : State) (a n : Nat), s.isOn 2 = true → s.host.linkUp = true → a + n ≤ 2 ^ 30 →
    (s.isOn 4 = false → exec (.bar2Read a n) s = .next { s with out := { s.out with bar2 := List.replicate n 0xFF, bar2Poison := false } })
    ∧ (s.isOn 4 = true → s.poisoned a n = false →
      exec (.bar2Read a n) s = .next { s with out := { s.out with bar2 := s.bytesAt a n, bar2Poison := false } })
    ∧ (s.isOn 4 = true → s.poisoned a n = true → ∃ t, exec (.bar2Read a n) s = .next t ∧ t.out.bar2Poison = true
      ∧ t.host.faultsum.getLsbD 9 = true ∧ t.mem.uncorrectable = s.mem.uncorrectable.bump ∧ t.mem.bytes = s.mem.bytes))
  ∧ (∀ (s : State) (a n k : Nat), k < n → (s.bytesAt a n)[k]? = some (s.byteAt (a + k)))
  ∧ (∀ (s : State) (a : Nat) (data : List Byte), s.isOn 2 = true → s.host.linkUp = true → s.isOn 4 = true → a + data.length ≤ 2 ^ 30 →
    (∀ k, k < data.length → inRing (a + k) 1 = false ∧ s.inStreamed (a + k) = false) → s.poisoned a data.length = false →
    ∃ t, exec (.bar2Write a data) s = .next t ∧ (∀ k, k < data.length → some (t.byteAt (a + k)) = data[k]?)
      ∧ (∀ x, x < a ∨ a + data.length ≤ x → t.byteAt x = s.byteAt x) ∧ t.mem.heldWrites = s.mem.heldWrites
      ∧ ({ t with mem := s.mem } : State) = s)
  ∧ (∀ (s : State) (a : Nat) (data : List Byte), s.isOn 4 = false → exec (.bar2Write a data) s = .next s)
  ∧ ∀ (s : State) (a : Nat) (data : List Byte), (∀ k, k < data.length → inRing (a + k) 1 = true ∧ s.inStreamed (a + k) = false) →
    exec (.bar2Write a data) s = .next s

/-- PWR_REQ, PROOF_REQ and RESET on the sideband, and their status reads. With the rails up, a power or proof request
in BOOT is refused with REFUSED_MODE and one written while BUSY with BUSY, each logged, the request register as
before. Otherwise the register takes the request with its reserved bits 0: a power request that POWER_SET's rules
admit, with PD02 allowed to leave On, sets BUSY until the state is reached or, if it is the present one, DONE; a proof
request that PROOF_RUN's rules admit sets BUSY and is in flight on the sideband's own queue; any other shows its
status and is logged. RESET resets only with its key: the safe state for 10 µs. A read of a status register returns
STATUS, BUSY and DONE and clears DONE. (R25, R448, R450, R459, R464, R465, R528, R532, R533, R548, R549,
22_boot_bringup.md) -/
def Obligations.SidebandRequests : Prop :=
  (∀ (value cell : Word) (s : State), s.sys.railsOk = true →
    let d := value.toNat % 32
    let st := value.toNat / 32 % 4
    let no (status : Nat) (why : Why) (t : State) : State := logRefusal 2 status (d + st * 256) why
      { t with side := { t.side with pwrStatus := status, pwrDone := t.side.pwrDone || !t.side.pwrBusy } }
    let noProof (status : Nat) (why : Why) (t : State) : State := logRefusal 0 status 0xFF51 why
      { t with side := { t.side with proofStatus := status, proofDone := t.side.proofDone || !t.side.proofBusy } }
    (s.sys.mode = .boot → exec (.pwrReq value) s = .next (no 5 .mode s) ∧ exec (.proofReq value cell) s = .next (noProof 5 .mode s))
    ∧ (s.sys.mode ≠ .boot → s.side.pwrBusy = true → exec (.pwrReq value) s = .next (no 1 .inUse s))
    ∧ (s.sys.mode ≠ .boot → s.side.proofBusy = true → exec (.proofReq value cell) s = .next (noProof 1 .inUse s))
    ∧ (s.sys.mode ≠ .boot → s.side.pwrBusy = false →
      let r := powerReply true 0 d st (value.toNat / 256 % 65536) { s with side := { s.side with pwrReq := value &&& 0x00FFFF7F#32 } }
      (r.status = 0 → exec (.pwrReq value) s = .next { r.s with side := { r.s.side with
        pwrBusy := decide (r.wait ≠ .nothing), pwrDone := decide (r.wait = .nothing), pwrStatus := 0 } })
      ∧ (r.status ≠ 0 → exec (.pwrReq value) s = .next (no r.status r.why r.s)))
    ∧ (s.sys.mode ∈ [.configure, .ready, .run, .proof, .safe, .service] → s.side.proofBusy = false →
      let u : State := { s with side := { s.side with proofReq := BitVec.ofNat 32 (value.toNat % 256), proofCell := cell } }
      let r := proofRequest (value.toNat % 2) (value.toNat / 8 % 32) (value.toNat / 2 % 4) cell.toNat u
      let t := r.s.modSq sbQueue fun k => { k with
        flight := k.flight ++ [{ cmdId := 0, opcode := 0x51, wait := r.wait, status := 0, result := r.result, cell := none, what := 0
                                 target := 0xFF51 }] }
      (r.status = 0 → exec (.proofReq value cell) s = .next { t with side := { t.side with
        proofBusy := true, proofDone := false, proofStatus := 0 } })
      ∧ (r.status ≠ 0 → exec (.proofReq value cell) s = .next (noProof r.status r.why r.s)))
    ∧ (s.sys.mode = .calibrate → s.side.proofBusy = false → exec (.proofReq value cell) s = .next (noProof 5 .mode
        { s with side := { s.side with proofReq := BitVec.ofNat 32 (value.toNat % 256), proofCell := cell } }))
    ∧ (s.sys.mode ≠ .boot → s.sys.resetAt = none → exec (.reset 0xC3A55A3C) s =
        .next { safeDevice s with sys := { s.sys with resetAt := some (s.now + 200000) } }))
  ∧ (∀ s : State, (s.dom 2).st = .on → s.domInUse 2 = false → s.sys.mode = .configure →
    (powerReply true 0 2 2 0xFFFF s).status = 0 ∧ (powerReply false 0 2 2 0xFFFF s).status = 2)
  ∧ (∀ (value : Word) (s : State), (value ≠ 0xC3A55A3C ∨ s.sys.mode = .boot ∨ s.sys.railsOk = false) → exec (.reset value) s = .next s)
  ∧ (∀ s : State, exec .pwrStat s = .next { s with
    out := { s.out with sb := le 4 (s.side.pwrStatus % 256 + (if s.side.pwrBusy then 256 else 0) + (if s.side.pwrDone then 512 else 0)) }
    side := { s.side with pwrDone := false } })
  ∧ ∀ s : State, exec .proofStat s = .next { s with
    out := { s.out with sb := le 4 (s.side.proofStatus % 256 + (if s.side.proofBusy then 256 else 0) + (if s.side.proofDone then 512 else 0)) }
    side := { s.side with proofDone := false } }

/-- The sideband's common command codes. ENTDAA and SETDASA give the target a 7-bit dynamic address while it has none
and do nothing while it has one; RSTDAA takes it away; after RSTDAA an assignment succeeds. GETPID, GETBCR and GETDCR
answer the configuration's six, one and one bytes, and GETSTATUS two bytes that the spec leaves open: whatever the
free values are. None of them touches anything else of the device. (R547, R541, 22_boot_bringup.md) -/
def Obligations.SidebandAddressing : Prop :=
  (∀ (addr : Nat) (s : State), s.side.dyn = none →
    exec (.entdaa addr) s = .next { s with side := { s.side with dyn := some (addr % 128) } }
    ∧ exec (.setdasa addr) s = .next { s with side := { s.side with dyn := some (addr % 128) } })
  ∧ (∀ (addr a : Nat) (s : State), s.side.dyn = some a → exec (.entdaa addr) s = .next s ∧ exec (.setdasa addr) s = .next s)
  ∧ (∀ (addr : Nat) (s : State), ∃ t, exec .rstdaa s = .next t ∧ t = { s with side := { s.side with dyn := none } }
    ∧ exec (.entdaa addr) t = .next { s with side := { s.side with dyn := some (addr % 128) } })
  ∧ (∀ s : State, (∃ l, l.length = 6 ∧ unle l.reverse = Config.i3cPid.toNat
      ∧ exec .getpid s = .next { s with out := { s.out with sb := l } })
    ∧ exec .getbcr s = .next { s with out := { s.out with sb := [Config.i3cBcr] } }
    ∧ exec .getdcr s = .next { s with out := { s.out with sb := [Config.i3cDcr] } })
  ∧ ∀ s : State, ∃ x y, exec .getstatus s = .next { s with out := { s.out with sb := [x, y] }, free := s.free + 2 }

/-- The safe state of the device reaches every output and stops no measurement. In every state, driving the device to
its safe state leaves every RF port muted, no tone playing and no play-out entry waiting, every Z channel that was
DRIVEN in SAFE_PARK at its park code and every other as it was, every marker output at its IDLE level with the
generator idle, and every TIME_OUT inactive; captures, host measurements, timers, windows, Hatch channels, the time of
day, the mode and the package memory stay as they are. (R31, R181, R201, R300, R323, R349, R509,
21_faults_ordering_proof.md) -/
def Obligations.SafeStateOfTheDevice : Prop :=
  ∀ s : State, ∃ t, t = safeDevice s
    ∧ (∀ p, t.muted p = true) ∧ (∀ k, (t.tone k).play = none) ∧ (∀ q, (t.queue q).entries = [] ∧ (t.queue q).xbar = [])
    ∧ (∀ z, (t.z z).st = (if (s.z z).st = .driven then .safePark else (s.z z).st)
        ∧ ((s.z z).st = .driven → (t.z z).code = (s.z z).park) ∧ ((s.z z).st ≠ .driven → (t.z z).code = (s.z z).code))
    ∧ (∀ e ∈ t.mark.outs, e.2.level = decide (e.2.idle = 1)) ∧ t.mark.gen = .idle
    ∧ (∀ n, (t.elem 2 n).high = false ∧ (t.elem 2 n).active = false)
    ∧ t.engines = s.engines ∧ t.tiu = s.tiu ∧ t.time.timers = s.time.timers ∧ t.time.windows = s.time.windows
    ∧ t.chans = s.chans ∧ t.now = s.now ∧ t.devTicks = s.devTicks ∧ t.sys = s.sys ∧ t.mem = s.mem

namespace Sys2Proof.Claims

/-- What the calibration store holds, and nothing else of the calibration (R501, R504). -/
def storeOnly (c : Calib) : Calib :=
  { inst := tmap {} (fun _ x =>
      { genA := x.genA, genB := x.genB, imgA := x.imgA, imgB := x.imgB }) c.inst }

end Sys2Proof.Claims

/-- Power-up, RESET_N, supply loss and REFCLK. POWER_UP leaves the device in BOOT at step 0 with only PD00 AON On,
device time at 0 and UNSET, and keeps the calibration store's copies and the raised security versions. RESET_N low
drives the safe state and holds boot for 10 µs, after which the reset is carried out: BOOT at step 0, every domain but
PD00 Off, registers and channels as after power-up, but the coarse count, device time and the domains' settings kept
and no timer, window or TIME_OUT left. Its release starts boot. A supply loss leaves nothing powered. REFCLK_VALID
lets step 0 of boot end; its loss unlocks every stamp channel and marks running host measurements. (R356, R504, R532,
R533, R534, R557, R558, R560, 22_boot_bringup.md, 23_pins_electrical.md) -/
def Obligations.ResetsAndSupplies : Prop :=
  (∀ s : State, ∃ t, exec .powerUp s = .next t ∧ t.sys.mode = .boot ∧ t.boot.step = 0 ∧ t.sys.railsOk = true ∧ t.isOn 0 = true
    ∧ (∀ d, d ≠ 0 → t.isOn d = false) ∧ t.now = 0 ∧ t.devTicks = 0 ∧ t.time.st = .unset ∧ t.boot.fwMin = s.boot.fwMin
    ∧ t.patches.minSv = s.patches.minSv ∧ t.burins = [] ∧ t.rings = [] ∧ t.chans = []
    ∧ t.calib = Sys2Proof.Claims.storeOnly s.calib)
  ∧ (∀ s : State, s.sys.railsOk = true → s.sys.resetAt = none → exec .resetN s = .next { safeDevice s with
    sys := { s.sys with resetAt := some (s.now + 200000), resetLow := true } })
  ∧ (∀ (s : State) (t : Nat), s.sys.resetAt = some t → t ≤ s.now → ∃ u, resetDue s = u ∧ u.sys.mode = .boot ∧ u.boot.step = 0
    ∧ u.isOn 0 = true ∧ (∀ d, d ≠ 0 → u.isOn d = false) ∧ u.now = s.now ∧ u.devTicks = s.devTicks
    ∧ (u.tdom 0).set = (s.tdom 0).set ∧ (u.tdom 1).set = (s.tdom 1).set ∧ u.time.timers = [] ∧ u.time.windows = [] ∧ u.time.touts = []
    ∧ u.burins = [] ∧ u.chans = [] ∧ u.roots = [] ∧ u.rings = [] ∧ u.sys.resetLow = s.sys.resetLow ∧ u.sys.refclk = s.sys.refclk)
  ∧ (∀ s : State, s.sys.resetLow = true → exec .resetNRelease s = .next { s with
    sys := { s.sys with resetLow := false }
    boot := if s.sys.resetAt.isSome then s.boot else { s.boot with start := s.now } })
  ∧ (∀ s : State, s.sys.resetLow = false → exec .resetNRelease s = .next s)
  ∧ (∀ s : State, ∃ t, exec .supplyLoss s = .next t ∧ t.sys.railsOk = false ∧ (∀ d, t.isOn d = false)
    ∧ t.calib = Sys2Proof.Claims.storeOnly s.calib)
  ∧ (∀ s : State, exec .refclkValid s = .next (if s.booting 0 = true then
    { s with sys := { s.sys with refclk := true }, boot := { s.boot with step := 1 } } else { s with sys := { s.sys with refclk := true } }))
  ∧ (∀ (s : State) (n : Nat), s.booting n = true ↔ s.sys.mode = .boot ∧ s.boot.step = n ∧ s.sys.resetLow = false
    ∧ s.sys.railsOk = true ∧ s.sys.resetAt = none)
  ∧ ∀ s : State, ∃ t, exec .refclkLoss s = .next t ∧ t.sys.refclk = false
    ∧ (∀ c, c < 3 → (t.stampChan c).locked = false ∧ (t.stampChan c).cald = 0)
    ∧ t.tiu = tmap {} (fun _ e => if e.running then { e with unlockAt := s.now :: e.unlockAt } else e) s.tiu
    ∧ t.burins = s.burins ∧ t.domains = s.domains ∧ t.time = s.time ∧ t.now = s.now

/-- Each boot step ends at the next step or at its failure code. A boot step's event does nothing unless boot stands
at its step. Step 1 ends at 2 with PD01 and PD02 On, or at code 10. Step 2 ends at 8 where no flash answers or the
header is out of rule, else at 3, an invalid configuration showing as CFG_INVALID and a valid one in force. Step 3
starts the first firmware slot, in order of security version, patch version and slot, whose checks pass, and ends at
4, or at 9 where neither passes. Step 4 ends at 5 with the domains of the off mask Off. Step 5 applies every container
or none and ends at 6. Step 6 ends BOOT: CONFIGURE without a doubt, else SAFE, step 7. (R26, R118, R119, R120, R121,
R451, R535, R536, R538, R539, R541, 22_boot_bringup.md) -/
def Obligations.BootStepsAdvance : Prop :=
  (∀ (m h answers noSfdp : Bool) (flashId failed bad : Nat) (hdr : BootHdr) (cfg : BootCfg) (a b : Container)
    (dies : List (Nat × Nat × Nat)) (info : RestoreInfo) (dir : PatchDir) (s : State),
    (s.booting 1 = false → exec (.bootHost m h) s = .next s)
    ∧ (s.booting 2 = false → exec (.bootFlash answers noSfdp flashId hdr cfg) s = .next s)
    ∧ (s.booting 3 = false → exec (.bootFirmware a b) s = .next s)
    ∧ (s.booting 4 = false → exec (.bootDomains failed dies info) s = .next s)
    ∧ (s.booting 5 = false → exec (.bootPatch dir bad) s = .next s)
    ∧ (s.booting 6 = false → exec .bootFinal s = .next s))
  ∧ (∀ (m h : Bool) (s : State), s.booting 1 = true → ∃ t, exec (.bootHost m h) s = .next t
    ∧ t.boot.step = (if m && h then 2 else 10) ∧ t.isOn 1 = m ∧ (m = true → t.isOn 2 = h))
  ∧ (∀ (answers noSfdp : Bool) (flashId : Nat) (hdr : BootHdr) (cfg : BootCfg) (s : State), s.booting 2 = true →
    ∃ t, exec (.bootFlash answers noSfdp flashId hdr cfg) s = .next t
    ∧ t.boot.step = (if answers && bootHdrOk hdr noSfdp then 3 else 8)
    ∧ (answers = true → bootHdrOk hdr noSfdp = true → bootCfgOk cfg = true →
      t.boot.offmask = cfgOffmask cfg ∧ t.sys.dnv = (cfgDevnum cfg).testBit 15 ∧ t.boot.jvlOff = cfgJvlOff cfg
      ∧ t.boot.cfgInvalid = s.boot.cfgInvalid ∧ ((cfgDevnum cfg).testBit 15 = true → t.sys.devnum = cfgDevnum cfg % 2 ^ 14)
      ∧ t.side.static_ = (if cfgI2c cfg = 0 then 0x4C else cfgI2c cfg))
    ∧ (answers = true → bootHdrOk hdr noSfdp = true → bootCfgOk cfg = false →
      t.boot.cfgInvalid = true ∧ t.boot.offmask = s.boot.offmask ∧ t.sys = s.sys ∧ t.side = s.side))
  ∧ (∀ (a b : Container) (s : State), s.booting 3 = true → ∃ t, exec (.bootFirmware a b) s = .next t
    ∧ (let ra := slotResult (max Config.fusedFwMin.val s.boot.fwMin) a
      let rb := slotResult (max Config.fusedFwMin.val s.boot.fwMin) b
      let first : Prop := contSec b < contSec a ∨ contSec b = contSec a ∧ contVer b ≤ contVer a
      let takesA : Prop := ra = 0 ∧ (first ∨ rb ≠ 0)
      t.boot.step = (if ra = 0 ∨ rb = 0 then 4 else 9)
      ∧ t.boot.fwSlot = (if takesA then 0 else if rb = 0 then 1 else s.boot.fwSlot)
      ∧ t.boot.fwVer = (if takesA then contVer a else if rb = 0 then contVer b else s.boot.fwVer)
      ∧ t.boot.fwSv = (if takesA then contSec a else if rb = 0 then contSec b else s.boot.fwSv)
      ∧ t.boot.fallback = (if takesA then decide (¬first) else if rb = 0 then decide first else s.boot.fallback)))
  ∧ (∀ (failed : Nat) (dies : List (Nat × Nat × Nat)) (info : RestoreInfo) (s : State), s.booting 4 = true →
    exec (.bootDomains failed dies info) s = .next { each (bootDomain failed dies info) ((List.range 21).map (3 + ·)) s with
      boot := { (each (bootDomain failed dies info) ((List.range 21).map (3 + ·)) s).boot with step := 5 } })
  ∧ (∀ (failed d : Nat) (dies : List (Nat × Nat × Nat)) (info : RestoreInfo) (s : State),
    (s.boot.offmask.testBit d = true → bootDomain failed dies info d s = s)
    ∧ (s.boot.offmask.testBit d = false → failed.testBit d = true → d ≠ 4 →
      (bootDomain failed dies info d s).boot.failedDoms.testBit d = true))
  ∧ (∀ (dir : PatchDir) (bad : Nat) (s : State), s.booting 5 = true → let cs := dirConts dir
    ∃ t, exec (.bootPatch dir bad) s = .next t ∧ t.boot.step = 6
    ∧ ((∃ r ∈ contResults (decide (8 < cs.length)) (max Config.fusedPatchMin.val s.patches.minSv) [] ((sortConts cs).take 8), r ≠ 0) →
      t.patches.words = [] ∧ t.patches.dispatch = [] ∧ t.devFault.codes ≠ [])
    ∧ (cs = [] → t.patches.words = [] ∧ t.patches.dispatch = [] ∧ t.patches.conts = [] ∧ t.devFault = s.devFault))
  ∧ ∀ s : State, s.booting 6 = true →
    (s.devFault.codes = [] → ∃ t, exec .bootFinal s = .next t ∧ t.boot.step = 7 ∧ t.sys.mode = .configure ∧ t.gov.on = true
      ∧ t.patches.minSv = max s.patches.minSv s.boot.patchRaise
      ∧ t.boot.fwMin = (if s.boot.fwRaise = true ∧ max Config.fusedFwMin.val s.boot.fwMin < s.boot.fwSv then s.boot.fwSv else s.boot.fwMin))
    ∧ (s.devFault.codes ≠ [] → exec .bootFinal s = .next (hbRestart (enterSafe { s with
      boot := { s.boot with step := 7, bootUs := (s.now - s.boot.start) / 20000, fwRaised := false }
      patches := { s.patches with minSv := max s.patches.minSv s.boot.patchRaise }
      gov := { on := true, since := s.now } })))

/-- Start events, shot boundaries, entries, credits, drop state, the governor and waits. A start event of a running
root whose next origin is within its start lead takes the next shot of its first series: the number rises, the shot
becomes due, the outputs are freed and every burin of the root starts, or holds the start and counts an overrun while
it still runs a shot. A start sets pc 0, no repeat level, no IQ point, the shot and its origin, and keeps every
register. A held start begins once its burin has ended. At its origin a due shot's boundary passes. An entry that
reaches its queue in order and with at least the floor of slack is queued; any other empties the crossbar of its
queue, the last entry of which the next is held to, returns the credits and puts the burin's plate in doubt, ORDER
before PAST before FLOOR_BREACH. A credit return lowers the credits in transit by one. At the end of each interval of
100 µs the governor raises VFAB by 10 mV after a late or near-late interval, lowers it by 10 mV after 16 quiet ones,
and holds it within its limits. A fetched line becomes resident unless a granule is bad. A null PUT is discarded at
its release tick. A held PUT goes with the first credit. A wait ends once its condition holds. Each does nothing
otherwise. (R22, R24, R37, R46, R47, R51, R52, R59, R60, R88, R89, R90) -/
def Obligations.ShotEvents : Prop :=
  (∀ (root : CellRef) (s : State), (s.root (s.refKey root)).series = [] ∨ (s.root (s.refKey root)).running = false
      → exec (.startEvent root) s = .next s)
  ∧ (∀ (root : CellRef) (r : Series) (rest : List Series) (s : State), (s.root (s.refKey root)).series = r :: rest →
    (s.root (s.refKey root)).running = true →
    let key := s.refKey root
    let k := s.root key
    (s.now + s.lead key < r.origin → exec (.startEvent root) s = .next s)
    ∧ (r.origin ≤ s.now + s.lead key →
      let given := r.numbered || r.fresh
      let shot := if given = true then r.next else s.nextShot key
      let d : Due := { ord := k.starts + 1, shot, origin := r.origin }
      let left := { r with next := (r.next + 1) % 2 ^ 64, origin := r.origin + r.period, fresh := false }
      let more : List Series := match r.left with
        | none => [left]
        | some n => if n ≤ 1 then [] else [{ left with left := some (n - 1) }]
      let u := (if given = true then s else s.modCell key fun c => { c with lastShot := shot }).setRoot key { k with
        series := more ++ rest, starts := k.starts + 1, cur := some d, due := k.due ++ [d] }
      exec (.startEvent root) s = .next (each (startOrHold shot r.origin) ((freeOutputs key u).rootBurins key) (freeOutputs key u))))
  ∧ (∀ (shot origin b : Nat) (s : State), (s.burin b).running = true ∨ (s.burin b).held ≠ [] →
    startOrHold shot origin b s = s.setBurin b { s.burin b with
      held := (s.burin b).held ++ [{ shot, origin }], shotOverruns := (s.burin b).shotOverruns.bump })
  ∧ (∀ (shot origin b : Nat) (s : State), (s.burin b).running = false → (s.burin b).held = [] →
    ∃ t, startOrHold shot origin b s = t ∧ (t.burin b).running = true ∧ (t.burin b).shot = shot ∧ (t.burin b).origin = origin
      ∧ (t.burin b).waiting = none ∧ (t.burin b).hold = none ∧ (t.burin b).iq = [] ∧ (t.burin b).held = []
      ∧ (t.burin b).regs = { (s.burin b).regs with pc := 0, loops := [] }
      ∧ (∀ c, c ≠ b → t.burin c = s.burin c))
  ∧ (∀ (b : BurinId) (s : State), (s.burin b.val).held = [] ∨ (s.burin b.val).running = true → exec (.heldStart b) s = .next s)
  ∧ (∀ (b : BurinId) (h : HeldStart) (rest : List HeldStart) (s : State), (s.burin b.val).held = h :: rest → (s.burin b.val).running = false →
    ∃ t, exec (.heldStart b) s = .next t ∧ (t.burin b.val).running = true ∧ (t.burin b.val).shot = h.shot
      ∧ (t.burin b.val).origin = h.origin ∧ (t.burin b.val).held = rest
      ∧ (t.burin b.val).regs = { (s.burin b.val).regs with pc := 0, loops := [] })
  ∧ (∀ (root : CellRef) (s : State), (s.root (s.refKey root)).due = [] → exec (.shotBoundary root) s = .next s)
  ∧ (∀ (root : CellRef) (d : Due) (rest : List Due) (s : State), (s.root (s.refKey root)).due = d :: rest →
    (s.now < d.origin → exec (.shotBoundary root) s = .next s)
    ∧ (d.origin ≤ s.now → ∃ t, exec (.shotBoundary root) s = .next t ∧ (t.root (s.refKey root)).due = rest
      ∧ t.burins = s.burins ∧ t.now = s.now ∧ t.chans = s.chans))
  ∧ (∀ (q : QueueId) (s : State), (s.queue (qnum q)).xbar = [] → exec (.entryArrival q) s = .next s)
  ∧ (∀ (q : QueueId) (e : Entry) (rest : List Entry) (s : State), (s.queue (qnum q)).xbar = e :: rest →
    let res := qnum q
    let k := s.queue res
    let slack : Int := e.release - ((s.now + 15) / 16 * 16 : Nat)
    let order := ∃ t, k.lastArrived = some t ∧ e.release ≤ t
    let late (reason : Nat) : Prop := exec (.entryArrival q) s = .next (doubtBurin e.burin 1 (s.lateRec res e reason slack)
      { s.setQueue res { k with
                                xbar := [], returning := k.returning + 1 + rest.length, lastPlaced := none
                                lastArrived := some ((rest.getLast?.getD e).release), meter := { k.meter with late := true } } with gov := { s.gov with late := true } })
    (¬order → 0 < slack → (k.floor : Int) * 16 ≤ slack → exec (.entryArrival q) s = .next (s.setQueue res { k with
      xbar := rest, entries := k.entries ++ [{ e with slack, margin := slack - (k.floor : Int) * 16 }], lastArrived := some e.release }))
    ∧ (order → late 3) ∧ (¬order → slack ≤ 0 → late 2) ∧ (¬order → 0 < slack → slack < (k.floor : Int) * 16 → late 1))
  ∧ (∀ (q : QueueId) (s : State), exec (.creditReturn q) s = .next (if (s.queue (qnum q)).returning = 0 then s else
    s.setQueue (qnum q) { s.queue (qnum q) with returning := (s.queue (qnum q)).returning - 1 }))
  ∧ (∀ (root : CellRef) (s : State), (s.root (s.refKey root)).drop = false → exec (.dropStateExit root) s = .next s)
  ∧ (∀ (root : CellRef) (s : State), (s.root (s.refKey root)).drop = true → (s.root (s.refKey root)).gaps = [] →
    let key := s.refKey root
    let r := s.root key
    let bytes := gapRec 4 (decide (r.lastRec = some r.dropShot)) r.dropShot (r.dropLast - r.dropShot + 1) (s.rootAddr key) r.dropped
    (r.dropped = 0 → exec (.dropStateExit root) s = .next (flush key (s.setRoot key { r with drop := false })))
    ∧ (r.dropped ≠ 0 → ringPut (s.streamRing key) (withSeq bytes r.seq) (some (key, r.dropShot)) s = none →
      exec (.dropStateExit root) s = .next s)
    ∧ ∀ t, r.dropped ≠ 0 → ringPut (s.streamRing key) (withSeq bytes r.seq) (some (key, r.dropShot)) s = some t →
      exec (.dropStateExit root) s = .next (flush key (t.setRoot key { t.root key with
        drop := false, dropped := 0, dropShot := 0, dropLast := 0, seq := (r.seq + 1) % 65536 })))
  ∧ (∀ s : State, s.gov.on = false ∨ s.now < s.gov.since + 2000000 → exec .governorInterval s = .next s)
  ∧ (∀ s : State, s.gov.on = true → s.gov.since + 2000000 ≤ s.now →
    let g := s.gov
    let up := min (min 850 g.vmax) s.house.vcap
    let down := max 650 g.vmin
    let near := g.late = true ∨ ∃ m, g.margin = some m ∧ m < (g.nearLate : Int) * 16
    let roomy := g.margin = none ∨ ∃ m, g.margin = some m ∧ (g.lower : Int) * 16 < m
    ∃ t, exec .governorInterval s = .next t ∧ t.gov.margin = none ∧ t.gov.late = false ∧ t.gov.since = s.gov.since + 2000000
      ∧ (g.fixed = true → t.gov.vfab = min up (max down g.vfixed) ∧ t.gov.saturated = false ∧ t.gov.quiet = 0)
      ∧ (g.fixed = false → near → t.gov.vfab = min up (max down (g.vfab + 10)) ∧ t.gov.quiet = 0
        ∧ (t.gov.saturated = true ↔ up ≤ g.vfab) ∧ (up ≤ g.vfab → t.host.faultsum.getLsbD 4 = true))
      ∧ (g.fixed = false → ¬near → roomy → g.quiet + 1 = 16 → t.gov.vfab = min up (max down (g.vfab - 10)) ∧ t.gov.quiet = 0)
      ∧ (g.fixed = false → ¬near → roomy → g.quiet + 1 < 16 → t.gov.vfab = min up (max down g.vfab) ∧ t.gov.quiet = g.quiet + 1)
      ∧ (g.fixed = false → ¬near → ¬roomy → t.gov.vfab = min up (max down g.vfab) ∧ t.gov.quiet = 0)
      ∧ (t.gov.conflict = true ↔ s.house.vcap < g.vmin) ∧ t.queues = s.queues ∧ t.burins = s.burins ∧ t.roots = s.roots)
  ∧ (∀ (b : BurinId) (bad : Bool) (s : State), (s.burin b.val).fetching = none ∨ s.isOn 4 = false →
    exec (.lineFetchComplete b bad) s = .next s)
  ∧ (∀ (b : BurinId) (bad : Bool) (l : Nat) (s : State), (s.burin b.val).fetching = some l → s.isOn 4 = true →
    let a := (s.burin b.val).imgBase + 32 * l
    (bad = true ∨ s.poisoned a 32 = true → exec (.lineFetchComplete b bad) s = .next (noteUe a s))
    ∧ (bad = false → s.poisoned a 32 = false → ∃ t, exec (.lineFetchComplete b bad) s = .next t
      ∧ l ∈ (t.burin b.val).lines ∧ (t.burin b.val).regs = (s.burin b.val).regs ∧ (t.burin b.val).running = (s.burin b.val).running
      ∧ (∀ k, k < min 8 ((s.burin b.val).imgLen - 8 * l) →
        tget 0 (t.burin b.val).buf (8 * l + k) = BitVec.ofNat 32 (s.numAt (a + 4 * k) 4))
      ∧ (∀ c, c ≠ b.val → t.burin c = s.burin c) ∧ t.mem = s.mem))
  ∧ (∀ (b : BurinId) (s : State), (∀ e ∈ (s.burin b.val).nulls, (s.now : Int) < e.release) → exec (.nullPutDiscard b) s = .next s)
  ∧ (∀ (b : BurinId) (s : State), (∃ e ∈ (s.burin b.val).nulls, e.release ≤ (s.now : Int)) →
    ∃ e ∈ (s.burin b.val).nulls, e.release ≤ (s.now : Int) ∧ exec (.nullPutDiscard b) s = .next (s.setBurin b.val { s.burin b.val with
      nulls := (s.burin b.val).nulls.erase e, nullPuts := (s.burin b.val).nullPuts.bump }))
  ∧ (∀ (b : BurinId) (s : State), (s.burin b.val).hold = none → exec (.putHoldRelease b) s = .next s)
  ∧ (∀ (b : BurinId) (h : Hold) (s : State), (s.burin b.val).hold = some h →
    (s.slotCredits b.val h.slot = 0 → exec (.putHoldRelease b) s = .next s)
    ∧ (s.slotCredits b.val h.slot ≠ 0 → h.micro = false → h.post = none → exec (.putHoldRelease b) s =
      .next (finish b.val (launch b.val h.slot h.entry (s.setBurin b.val { s.burin b.val with hold := none }))))
    ∧ ∀ p m, s.slotCredits b.val h.slot ≠ 0 → h.micro = false → h.post = some (p, m) → exec (.putHoldRelease b) s =
      .next (finish b.val (modRegs b.val (bumpP p m) (launch b.val h.slot h.entry (s.setBurin b.val { s.burin b.val with hold := none })))))
  ∧ (∀ (b : BurinId) (s : State), (s.burin b.val).waiting = none → exec (.waitWake b) s = .next s)
  ∧ ∀ (b : BurinId) (w : Wait) (s : State), (s.burin b.val).waiting = some w →
    (s.waitHolds b.val w = false → exec (.waitWake b) s = .next s)
    ∧ (s.waitHolds b.val w = true → (∀ c x y z, w ≠ .micro c x y z) → exec (.waitWake b) s =
      .next (finish b.val (waitEffect b.val w (s.setBurin b.val { s.burin b.val with waiting := none }))))

namespace Sys2Proof.Claims

/-- A value moved into a range. -/
def clampTo (lo hi x : Int) : Int := if x < lo then lo else if hi < x then hi else x

/-- A value in units of 2^s, halves rounded up (R73). -/
def rounded (s : Nat) (x : Int) : Int := if s = 0 then x else (x + 2 ^ (s - 1)) / 2 ^ s

/-- Set the sticky SAT flag, bit 4 of FLAGS, where a value was changed. -/
def satWhere (changed : Bool) (r : Regs) : Regs := { r with flags := if changed = true then r.flags ||| 16#32 else r.flags }

/-- A signed 32-bit destination that saturates. -/
def put32 (d : Nat) (x : Int) (r : Regs) : Regs :=
  satWhere (decide (clampTo (-2147483648) 2147483647 x ≠ x))
    { r with g := tset 0 r.g d (BitVec.ofInt 32 (clampTo (-2147483648) 2147483647 x)) }

/-- An unsigned 32-bit destination that saturates. -/
def put32u (d : Nat) (x : Int) (r : Regs) : Regs :=
  satWhere (decide (clampTo 0 4294967295 x ≠ x)) { r with g := tset 0 r.g d (BitVec.ofInt 32 (clampTo 0 4294967295 x)) }

/-- A complex destination: I in the low half, Q in the high, each saturating at 16 bits. -/
def putIq (d : Nat) (i q : Int) (r : Regs) : Regs :=
  satWhere (decide (clampTo (-32768) 32767 i ≠ i) || decide (clampTo (-32768) 32767 q ≠ q))
    { r with g := tset 0 r.g d (BitVec.ofInt 16 (clampTo (-32768) 32767 q) ++ BitVec.ofInt 16 (clampTo (-32768) 32767 i)) }

/-- A pair of registers takes a 64-bit value, the low half first. -/
def put64 (d : Nat) (x : Int) (r : Regs) : Regs :=
  { r with g := tset 0 (tset 0 r.g d (BitVec.ofInt 32 x)) (d + 1) (BitVec.ofInt 32 (x / 2 ^ 32)) }

/-- An accumulator takes a value: outside 48 bits it takes the extreme, sets its OVG flag and is marked (R75). -/
def put48 (k : Nat) (x : Int) (r : Regs) : Regs :=
  let c := clampTo (-(2 ^ 47)) (2 ^ 47 - 1) x
  { r with
    acc := tset 0 r.acc k (BitVec.ofInt 48 c)
    ovd := if c = x then r.ovd else tset false r.ovd k true
    flags := if c = x then r.flags else r.flags ||| BitVec.ofNat 32 (2 ^ k) }

/-- An accumulator is overwritten by a value of its range: its mark ends. -/
def load48 (k : Nat) (x : Int) (r : Regs) : Regs :=
  { r with acc := tset 0 r.acc k (BitVec.ofInt 48 x), ovd := tset false r.ovd k false }

/-- What a narrowing store reads of an accumulator: the extreme of its sign while it is marked (R75). -/
def read48 (r : Regs) (k s : Nat) (lo hi : Int) : Int :=
  if tget false r.ovd k = true then (if acc r k < 0 then lo - 1 else hi + 1) else rounded s (acc r k)

/-- The word that a memory operand names, and what becomes of its pointer (R77). -/
def place (m : Mem) (r : Regs) : Nat :=
  match m.form with
  | .index g => ((pr r m.pa.val).toNat + (gr r g.val).toNat) % 4096
  | _ => (pr r m.pa.val).toNat

def movePtr (p : PReg) (o : Option MReg) (r : Regs) : Regs :=
  match o with
  | some k => { r with p := tset 0 r.p p.val (BitVec.ofInt 12 ((pr r p.val).toNat + (mr r k.val).toInt)) }
  | none => r

def moved (m : Mem) (r : Regs) : Regs :=
  match m.form with
  | .post k => movePtr m.pa (some k) r
  | _ => r

/-- The same of CSUBM and WSQ, whose register operand is the index as well. -/
def placeX (pa : PReg) (gx : GReg) (k : MemKind) (r : Regs) : Nat :=
  match k with
  | .index => ((pr r pa.val).toNat + (gr r gx.val).toNat) % 4096
  | _ => (pr r pa.val).toNat

def movedX (pa : PReg) (k : MemKind) (r : Regs) : Regs :=
  match k with
  | .post o => movePtr pa (some o) r
  | _ => r

/-- What an integer, field, pointer or memory instruction does to its burin's registers before its burin goes on
(R77, R78, R97). -/
def dataEffect : Instr → Option (BurinId × (Regs → Regs))
  | .nop b => some (b, id)
  | .add b d x y => some (b, fun r => setG d.val (BitVec.ofNat 32 ((gr r x.val).toNat + (gr r y.val).toNat)) r)
  | .sub b d x y => some (b, fun r => setG d.val (BitVec.ofInt 32 ((gr r x.val).toInt - (gr r y.val).toInt)) r)
  | .and_ b d x y => some (b, fun r => setG d.val (gr r x.val &&& gr r y.val) r)
  | .or_ b d x y => some (b, fun r => setG d.val (gr r x.val ||| gr r y.val) r)
  | .xor_ b d x y => some (b, fun r => setG d.val (gr r x.val ^^^ gr r y.val) r)
  | .shl b d x y => some (b, fun r => setG d.val (BitVec.ofNat 32 ((gr r x.val).toNat * 2 ^ ((gr r y.val).toNat % 32))) r)
  | .shr b d x y => some (b, fun r => setG d.val (BitVec.ofNat 32 ((gr r x.val).toNat / 2 ^ ((gr r y.val).toNat % 32))) r)
  | .sar b d x y => some (b, fun r => setG d.val (BitVec.ofInt 32 ((gr r x.val).toInt / 2 ^ ((gr r y.val).toNat % 32))) r)
  | .mul b d x y => some (b, fun r => setG d.val (BitVec.ofInt 32 ((gr r x.val).toInt * (gr r y.val).toInt)) r)
  | .mulh b d x y => some (b, fun r => setG d.val (BitVec.ofInt 32 ((gr r x.val).toInt * (gr r y.val).toInt / 2 ^ 32)) r)
  | .min b d x y => some (b, fun r => setG d.val (BitVec.ofInt 32 (Min.min (gr r x.val).toInt (gr r y.val).toInt)) r)
  | .max b d x y => some (b, fun r => setG d.val (BitVec.ofInt 32 (Max.max (gr r x.val).toInt (gr r y.val).toInt)) r)
  | .minu b d x y => some (b, fun r => setG d.val (BitVec.ofNat 32 (Min.min (gr r x.val).toNat (gr r y.val).toNat)) r)
  | .maxu b d x y => some (b, fun r => setG d.val (BitVec.ofNat 32 (Max.max (gr r x.val).toNat (gr r y.val).toNat)) r)
  | .adds b d x y => some (b, fun r => put32 d.val ((gr r x.val).toInt + (gr r y.val).toInt) r)
  | .subs b d x y => some (b, fun r => put32 d.val ((gr r x.val).toInt - (gr r y.val).toInt) r)
  | .addi b d x n => some (b, fun r => setG d.val (BitVec.ofInt 32 ((gr r x.val).toInt + n.toInt)) r)
  | .andi b d x n => some (b, fun r => setG d.val (gr r x.val &&& BitVec.ofNat 32 n.toNat) r)
  | .ori b d x n => some (b, fun r => setG d.val (gr r x.val ||| BitVec.ofNat 32 n.toNat) r)
  | .xori b d x n => some (b, fun r => setG d.val (gr r x.val ^^^ BitVec.ofNat 32 n.toNat) r)
  | .shli b d x n => some (b, fun r => setG d.val (BitVec.ofNat 32 ((gr r x.val).toNat * 2 ^ n.val)) r)
  | .shri b d x n => some (b, fun r => setG d.val (BitVec.ofNat 32 ((gr r x.val).toNat / 2 ^ n.val)) r)
  | .sari b d x n => some (b, fun r => setG d.val (BitVec.ofInt 32 ((gr r x.val).toInt / 2 ^ n.val)) r)
  | .movi b d n => some (b, setG d.val (BitVec.ofInt 32 n.toInt))
  | .movhi b d n => some (b, fun r => setG d.val (BitVec.ofNat 32 (n.toNat * 2 ^ 16 + (gr r d.val).toNat % 2 ^ 16)) r)
  | .addpi b d n => some (b, fun r => put64 d.val ((gr r (d.val + 1)).toNat * 2 ^ 32 + (gr r d.val).toNat + n.toInt) r)
  | .addp b d y => some (b, fun r => put64 d.val ((gr r (d.val + 1)).toNat * 2 ^ 32 + (gr r d.val).toNat + (gr r y.val).toNat) r)
  | .mov b d x => some (b, fun r => setG d.val (gr r x.val) r)
  | .extu b d x pos w => some (b, fun r => setG d.val (BitVec.ofNat 32 ((gr r x.val).toNat / 2 ^ pos.val % 2 ^ (w.val + 1))) r)
  | .exts b d x pos w => some (b, fun r =>
      let v := (gr r x.val).toNat / 2 ^ pos.val % 2 ^ (w.val + 1)
      setG d.val (BitVec.ofInt 32 (if v < 2 ^ w.val then (v : Int) else (v : Int) - 2 ^ (w.val + 1))) r)
  | .shin b d x w => some (b, fun r =>
      setG d.val (BitVec.ofNat 32 ((gr r d.val).toNat * 2 ^ (w.val + 1) + (gr r x.val).toNat % 2 ^ (w.val + 1))) r)
  | .dep b d x pos w => some (b, fun r =>
      let e := pos.val + w.val + 1
      setG d.val (BitVec.ofNat 32 ((gr r d.val).toNat / 2 ^ e * 2 ^ e + (gr r x.val).toNat % 2 ^ (w.val + 1) * 2 ^ pos.val
        + (gr r d.val).toNat % 2 ^ pos.val)) r)
  | .movpi b p n => some (b, setP p.val n)
  | .movmi b k n => some (b, setM k.val (BitVec.ofInt 16 n.toInt))
  | .movpg b p x => some (b, fun r => setP p.val (BitVec.ofNat 12 ((gr r x.val).toNat % 4096)) r)
  | .movgp b d p => some (b, fun r => setG d.val (BitVec.ofNat 32 (pr r p.val).toNat) r)
  | .movmg b k x => some (b, fun r => setM k.val (BitVec.ofNat 16 ((gr r x.val).toNat % 65536)) r)
  | .modp b p k => some (b, movePtr p (some k))
  | .leap b p q x n => some (b, fun r => setP p.val (BitVec.ofNat 12 ((pr r q.val).toNat + (gr r x.val).toNat * 2 ^ n.val)) r)
  | .ld b d m => some (b, fun r => setG d.val (dm r (place m r)) (moved m r))
  | .st b x m => some (b, fun r => moved m { r with dmem := tset 0 r.dmem (place m r % 4096) (gr r x.val) })
  | .ldd b d m => some (b, fun r => setG (d.val + 1) (dm r (place m r + 1)) (setG d.val (dm r (place m r)) (moved m r)))
  | .std b x m => some (b, fun r => moved m { r with
      dmem := tset 0 (tset 0 r.dmem (place m r % 4096) (gr r x.val)) ((place m r + 1) % 4096) (gr r (x.val + 1)) })
  | .ldx b d p x => some (b, fun r => setG d.val (dm r (((pr r p.val).toNat + (gr r x.val).toNat) % 4096)) r)
  | .stx b y p x => some (b, fun r => { r with dmem := tset 0 r.dmem (((pr r p.val).toNat + (gr r x.val).toNat) % 4096) (gr r y.val) })
  | _ => none

/-- What a complex or accumulator instruction does to its burin's registers (R72–R77, R97). -/
def signalEffect : Instr → Option (BurinId × (Regs → Regs))
  | .cadd b d x y => some (b, fun r => putIq d.val (cI (gr r x.val) + cI (gr r y.val)) (cQ (gr r x.val) + cQ (gr r y.val)) r)
  | .csub b d x y => some (b, fun r => putIq d.val (cI (gr r x.val) - cI (gr r y.val)) (cQ (gr r x.val) - cQ (gr r y.val)) r)
  | .csubm b d x p k => some (b, fun r =>
      let w := dm r (placeX p x k r)
      putIq d.val (cI (gr r x.val) - cI w) (cQ (gr r x.val) - cQ w) (movedX p k r))
  | .cmulr b d x y => some (b, fun r =>
      let v := gr r x.val
      let w := gr r y.val
      putIq d.val (rounded 15 (cI v * cI w - cQ v * cQ w)) (rounded 15 (cI v * cQ w + cQ v * cI w)) r)
  | .cconj b d x => some (b, fun r => putIq d.val (cI (gr r x.val)) (-cQ (gr r x.val)) r)
  | .cscl b d x y => some (b, fun r =>
      putIq d.val (rounded 15 (cI (gr r x.val) * cI (gr r y.val))) (rounded 15 (cQ (gr r x.val) * cI (gr r y.val))) r)
  | .cmag2 b d x => some (b, fun r =>
      setG d.val (BitVec.ofInt 32 (cI (gr r x.val) * cI (gr r x.val) + cQ (gr r x.val) * cQ (gr r x.val))) r)
  | .wsq b d x p k => some (b, fun r =>
      let v := gr r x.val
      let w := dm r (placeX p x k r)
      put32u d.val (rounded 16 ((w.toNat % 65536 : Nat) * (cI v * cI v) + (w.toNat / 65536 : Nat) * (cQ v * cQ v))) (movedX p k r))
  | .dsq b x p mp q mq => some (b, fun r =>
      let i := cI (gr r x.val) - cI (dm r (pr r q.val).toNat)
      let j := cQ (gr r x.val) - cQ (dm r (pr r q.val).toNat)
      let v := rounded 2 (i * i + j * j)
      movePtr q mq (movePtr p mp (satWhere (decide (4294967295 < v))
        { r with dmem := tset 0 r.dmem (pr r p.val).toNat (BitVec.ofInt 32 (if 4294967295 < v then 4294967295 else v)) })))
  | .cpk b d x y => some (b, fun r =>
      setG d.val (BitVec.ofNat 32 ((gr r x.val).toNat % 65536 + (gr r y.val).toNat % 65536 * 65536)) r)
  | .clra b k => some (b, load48 k.val 0)
  | .mova b k x => some (b, fun r => load48 k.val ((gr r x.val).toInt * 2 ^ 15) r)
  | .mac b k x y => some (b, fun r => put48 k.val (acc r k.val + cI (gr r x.val) * cI (gr r y.val)) r)
  | .msu b k x y => some (b, fun r => put48 k.val (acc r k.val - cI (gr r x.val) * cI (gr r y.val)) r)
  | .cmul b n x y => some (b, fun r =>
      let v := gr r x.val
      let w := gr r y.val
      load48 (2 * n.val + 1) (cI v * cQ w + cQ v * cI w) (load48 (2 * n.val) (cI v * cI w - cQ v * cQ w) r))
  | .cmac b n x y => some (b, fun r =>
      let v := gr r x.val
      let w := gr r y.val
      put48 (2 * n.val + 1) (acc r (2 * n.val + 1) + (cI v * cQ w + cQ v * cI w))
        (put48 (2 * n.val) (acc r (2 * n.val) + (cI v * cI w - cQ v * cQ w)) r))
  | .cmacj b n x y => some (b, fun r =>
      let v := gr r x.val
      let w := gr r y.val
      put48 (2 * n.val + 1) (acc r (2 * n.val + 1) + (cQ v * cI w - cI v * cQ w))
        (put48 (2 * n.val) (acc r (2 * n.val) + (cI v * cI w + cQ v * cQ w)) r))
  | .cmacm b n x m => some (b, fun r =>
      let v := gr r x.val
      let w := dm r (place m r)
      moved m (put48 (2 * n.val + 1) (acc r (2 * n.val + 1) + (cI v * cQ w + cQ v * cI w))
        (put48 (2 * n.val) (acc r (2 * n.val) + (cI v * cI w - cQ v * cQ w)) r)))
  | .rnd b d k n => some (b, fun r => put32 d.val (read48 r k.val n.val (-2147483648) 2147483647) r)
  | .rndc b d k n => some (b, fun r =>
      putIq d.val (read48 r (2 * k.val) n.val (-32768) 32767) (read48 r (2 * k.val + 1) n.val (-32768) 32767) r)
  | .sha b k n => some (b, fun r =>
      let x := read48 r k.val n.val (-(2 ^ 47)) (2 ^ 47 - 1)
      let c := clampTo (-(2 ^ 47)) (2 ^ 47 - 1) x
      satWhere (decide (c ≠ x)) { r with acc := tset 0 r.acc k.val (BitVec.ofInt 48 c) })
  | _ => none

/-- The order of an ARG instruction and its operands: `w` is better than `v` (R86). -/
def bestOf : Instr → Option (BurinId × GReg × PReg × Fin 16 × (Word → Word → Prop))
  | .argmin b d p n => some (b, d, p, n, fun w v => w.toNat < v.toNat)
  | .argmax b d p n => some (b, d, p, n, fun w v => v.toNat < w.toNat)
  | .argmins b d p n => some (b, d, p, n, fun w v => w.toInt < v.toInt)
  | .argmaxs b d p n => some (b, d, p, n, fun w v => v.toInt < w.toInt)
  | _ => none

/-- Where a branch of the instruction at pc goes. -/
def target (r : Regs) (off : BitVec 16) : Nat := (((r.pc : Int) + 1 + off.toInt) % 65536).toNat

def goIf (c : Prop) [Decidable c] (off : BitVec 16) (r : Regs) : Regs := if c then goTo (target r off) r else pass r

/-- Opening a repeat level of `n` instructions, or skipping them (R82). -/
def levelOf (count n : Nat) (r : Regs) : Regs :=
  if count = 0 then passAt (r.pc + n) r
  else { r with loops := { first := r.pc + 1, last := r.pc + n, left := count } :: r.loops, pc := r.pc + 1 }

/-- What a branch, a jump or a repeat does to its burin's registers (R82, R84, R97). -/
def flowEffect : Instr → Option (BurinId × (Regs → Regs))
  | .jmp b off => some (b, fun r => goTo (target r off) r)
  | .jt b x n => some (b, fun r => goTo ((r.pc + 1 + Min.min (gr r x.val).toNat n.val) % 65536) r)
  | .rep b x n => some (b, fun r => levelOf (gr r x.val).toNat (n.val + 1) r)
  | .repi b k n => some (b, fun r => levelOf k.toNat (n.val + 1) r)
  | .beq b x y off => some (b, fun r => goIf (gr r x.val = gr r y.val) off r)
  | .bne b x y off => some (b, fun r => goIf (gr r x.val ≠ gr r y.val) off r)
  | .blt b x y off => some (b, fun r => goIf ((gr r x.val).toInt < (gr r y.val).toInt) off r)
  | .bge b x y off => some (b, fun r => goIf ((gr r y.val).toInt ≤ (gr r x.val).toInt) off r)
  | .bltu b x y off => some (b, fun r => goIf ((gr r x.val).toNat < (gr r y.val).toNat) off r)
  | .bgeu b x y off => some (b, fun r => goIf ((gr r y.val).toNat ≤ (gr r x.val).toNat) off r)
  | .beqz b x off => some (b, fun r => goIf (gr r x.val = 0) off r)
  | .bnez b x off => some (b, fun r => goIf (gr r x.val ≠ 0) off r)
  | _ => none

/-- A waiting instruction waits. -/
def waits (b : BurinId) (w : Wait) (s : State) : State := s.setBurin b.val { s.burin b.val with waiting := some w }

end Sys2Proof.Claims

/-- Integer, field, pointer, load, store and selection instructions. NOP and every integer, immediate, field, pointer,
load and store instruction that issues completes, and all that it does in the device is its effect of R97 on the
registers of its burin: the destination takes the value, a post-modified pointer moves, ADDS and SUBS set SAT where
they saturate; then pc goes on as its repeat levels say. Each ARG instruction writes to gd the lowest index of the n
words from pa on that hold the best value, and that word to gd + 1, unsigned or signed. (R71, R77, R78, R86, R97,
R100, 03_burin_engines.md) -/
def Obligations.DataInstructionsComplete : Prop :=
  (∀ (i : Instr) (b : BurinId) (f : Regs → Regs) (s : State), Sys2Proof.Claims.dataEffect i = some (b, f) → Issues i s = true →
    Completes i b (fun r => pass (f r)) s)
  ∧ ∀ (i : Instr) (b : BurinId) (d : GReg) (p : PReg) (n : Fin 16) (better : Word → Word → Prop) (s : State),
    Sys2Proof.Claims.bestOf i = some (b, d, p, n, better) → Issues i s = true →
    let r := (s.burin b.val).regs
    let w (k : Nat) : Word := tget 0 r.dmem (((pr r p.val).toNat + k) % 4096)
    ∃ k, k ≤ n.val ∧ (∀ j, j ≤ n.val → ¬better (w j) (w k)) ∧ (∀ j, j < k → better (w k) (w j))
      ∧ Completes i b (fun _ => pass { r with g := tset 0 (tset 0 r.g d.val (BitVec.ofNat 32 k)) (d.val + 1) (w k) }) s

/-- Pointers and offset registers take their bits of a general register, MOVMI extends its sign. MOVPG, issued, writes
bits [11:0] of the general register to the pointer, MOVMG bits [15:0] of it to the offset register, and MOVMI the
sign-extended 12-bit immediate to the offset register; nothing else of the registers changes but pc and the repeat
levels, as they go on. (R78) -/
def Obligations.PointerAndOffsetWrites : Prop :=
  (∀ (b : BurinId) (p : PReg) (g : GReg) (s : State), Issues (.movpg b p g) s = true →
    Completes (.movpg b p g) b (fun r => pass { r with p := tset 0 r.p p.val ((tget 0 r.g g.val).extractLsb' 0 12) }) s)
  ∧ (∀ (b : BurinId) (k : MReg) (g : GReg) (s : State), Issues (.movmg b k g) s = true →
    Completes (.movmg b k g) b (fun r => pass { r with m := tset 0 r.m k.val ((tget 0 r.g g.val).extractLsb' 0 16) }) s)
  ∧ ∀ (b : BurinId) (k : MReg) (n : BitVec 12) (s : State), Issues (.movmi b k n) s = true →
    Completes (.movmi b k n) b (fun r => pass { r with
      m := tset 0 r.m k.val (BitVec.ofInt 16 (if n.toNat < 2048 then (n.toNat : Int) else (n.toNat : Int) - 4096)) }) s

/-- Complex and accumulator instructions, SAT and OVG. Every complex and accumulator instruction that issues completes
with its effect of R97 on its burin's registers: narrowing stores round half up, saturate and set SAT; an accumulator
sum outside 48 bits takes the extreme, sets its OVG flag and is marked, and while it is marked every narrowing store
from it gives the extreme of its sign and sets SAT; CLRA, MOVA and CMUL end the mark and leave OVG. With OVGCTL.EN
each OVG flag that the instruction newly sets raises one event on the trigger output slot of OVGCTL; then pc goes on.
Nothing else happens. (R72, R73, R74, R75, R76, R77, R97, 03_burin_engines.md) -/
def Obligations.SignalInstructionsComplete : Prop :=
  ∀ (i : Instr) (b : BurinId) (f : Regs → Regs) (s : State), Sys2Proof.Claims.signalEffect i = some (b, f) → Issues i s = true →
    let r := (s.burin b.val).regs
    let set := ((List.range 4).filter fun k => (f r).flags.getLsbD k && !r.flags.getLsbD k).length
    let n := if r.ovgctl.getLsbD 0 = true then set else 0
    CompletesFrom i b pass s (times (raiseEp (s.ep 0 b.val (r.ovgctl.toNat / 2 % 8))) n
      (s.setBurin b.val { s.burin b.val with regs := f r }))

/-- Branches, jumps, repeats and END. A branch, jump or repeat that issues completes with its effect on pc and the
repeat levels and nothing else. A branch that is taken, JMP and JT keep of properly nested levels exactly those whose
body holds the target. Going on after an instruction, the innermost level that ends there counts first: with count
left it goes back to its first instruction; else it ends and the level around it counts; where none ends there, pc
advances by one. REP and REPI open a level of the following len instructions, or skip them where the count is 0. END
leaves the burin idle with no level, makes a centroid step that waits due, and then the records that waited for the
shot and a stop that waited for its burins go on. (R79, R82, R83, R84, R87, R97, R142, R255, 03_burin_engines.md) -/
def Obligations.FlowInstructions : Prop :=
  (∀ (i : Instr) (b : BurinId) (f : Regs → Regs) (s : State), Sys2Proof.Claims.flowEffect i = some (b, f) → Issues i s = true →
    Completes i b f s)
  ∧ (∀ (t : Nat) (r : Regs), r.loops.Pairwise (fun x y => y.first ≤ x.first ∧ x.last ≤ y.last) →
    goTo t r = { r with loops := r.loops.filter (fun l => decide (l.first ≤ t ∧ t ≤ l.last)), pc := t })
  ∧ (∀ r : Regs, r.loops = [] → pass r = { r with pc := r.pc + 1 })
  ∧ (∀ (l : Loop) (ls : List Loop) (r : Regs), r.loops = l :: ls →
    (l.last ≠ r.pc → pass r = { r with pc := r.pc + 1 })
    ∧ (l.last = r.pc → 1 < l.left → pass r = { r with loops := { l with left := l.left - 1 } :: ls, pc := l.first })
    ∧ (l.last = r.pc → l.left ≤ 1 → pass r = pass { r with loops := ls }))
  ∧ ∀ (b : BurinId) (s : State), Issues (.end_ b) s = true →
    let u := s.setBurin b.val { s.burin b.val with running := false, regs := { (s.burin b.val).regs with loops := [] } }
    let v := if (s.cent b.val).ramp.isSome = true then u.setCent b.val { s.cent b.val with due := true } else u
    exec (.end_ b) s = .next (pump (checkStopped (v.rootOf b.val) (flush (v.rootOf b.val) v)))

/-- Instructions that meet the outside, and patched opcodes. Issued, QFREE, DPOLL, IQPOLL, NOW and MFS write what they
read; MTS clears the FLAGS bits written 1, sets OVGCTL [3:0] and nothing else; EVS raises an event; EVT reads and
consumes the flag. EVW, DSEND, DRECV, WAITT, WAITQ, WAITC and IQRD act and go on where their condition holds, else the
burin waits and nothing else changes; an unrouted DSEND and WAITC never wait. PUT makes the entry with its absolute
release tick and spends a credit, or holds where there is none. REC posts a record of 32 bytes. An opcode that a patch
defines runs the patch's routine instead of its own meaning, by one jump microword to its end or further; a reserved
class ends the run in the reserved-microword fault; an undefined patch opcode does nothing. (R45, R46, R71, R89, R90,
R91, R93, R94, R98, R106, R125, R253) -/
def Obligations.OutsideInstructions : Prop :=
  (∀ (b : BurinId) (g : GReg) (slot : Fin 16) (s : State), Issues (.qfree b g slot) s = true →
    let n := match s.slotQueue b.val slot.val with
      | some r => 256 - ((s.queue r).xbar.length + (s.queue r).entries.length + (s.queue r).returning)
      | none => 256 - ((s.burin b.val).nulls.filter fun e => e.slot == slot.val).length
    Completes (.qfree b g slot) b (fun r => pass (setG g.val (BitVec.ofNat 32 n) r)) s)
  ∧ (∀ (b : BurinId) (g : GReg) (slot : Fin 4) (s : State), Issues (.dpoll b g slot) s = true →
    Completes (.dpoll b g slot) b (fun r => pass (setG g.val (BitVec.ofNat 32 (s.arrivals (s.ep 3 b.val slot.val)).length) r)) s)
  ∧ (∀ (b : BurinId) (g : GReg) (s : State), Issues (.iqpoll b g) s = true →
    Completes (.iqpoll b g) b (fun r => pass (setG g.val (BitVec.ofNat 32 (s.burin b.val).iq.length) r)) s)
  ∧ (∀ (b : BurinId) (g : GReg) (s : State), Issues (.now b g) s = true →
    let t := (((s.now : Int) - ((s.burin b.val).origin : Int)) % 2 ^ 48).toNat
    Completes (.now b g) b (fun r => pass (setG (g.val + 1) (BitVec.ofNat 32 (t / 2 ^ 32)) (setG g.val (BitVec.ofNat 32 t) r))) s)
  ∧ (∀ (b : BurinId) (g : GReg) (sr : Fin 6) (s : State), Issues (.mfs b g sr) s = true →
    let k := s.burin b.val
    let v : Word := match sr with
      | 0 => BitVec.ofNat 32 k.shot
      | 1 => BitVec.ofNat 32 (k.shot / 2 ^ 32)
      | 2 => BitVec.ofNat 32 (b.val + s.sys.devnum * 2 ^ 14)
      | 3 => k.regs.flags
      | 4 => k.regs.ovgctl
      | _ => BitVec.ofNat 32 k.regs.loops.length
    Completes (.mfs b g sr) b (fun r => pass (setG g.val v r)) s)
  ∧ (∀ (b : BurinId) (sr : Fin 6) (g : GReg) (s : State), Issues (.mts b sr g) s = true →
    Completes (.mts b sr g) b (fun r => pass { r with
      flags := if sr = 3 then r.flags &&& ~~~(gr r g.val &&& 31#32) else r.flags
      ovgctl := if sr = 4 then gr r g.val &&& 15#32 else r.ovgctl }) s)
  ∧ (∀ (b : BurinId) (slot : Fin 8) (s : State), Issues (.evs b slot) s = true →
    CompletesFrom (.evs b slot) b pass s (raiseEp (s.ep 0 b.val slot.val) s))
  ∧ (∀ (b : BurinId) (g : GReg) (slot : Fin 8) (s : State), Issues (.evt b g slot) s = true →
    let e := s.ep 1 b.val slot.val
    CompletesFrom (.evt b g slot) b (fun r => pass (setG g.val (if s.flagged e = true then 1 else 0) r)) s (consume e s))
  ∧ (∀ (b : BurinId) (slot : Fin 8) (s : State), Issues (.evw b slot) s = true →
    let e := s.ep 1 b.val slot.val
    (s.flagged e = true → CompletesFrom (.evw b slot) b pass s (consume e s))
    ∧ (s.flagged e = false → exec (.evw b slot) s = .next (Sys2Proof.Claims.waits b (.evw slot.val) s)))
  ∧ (∀ (b : BurinId) (slot : Fin 4) (g : GReg) (s : State), Issues (.dsend b slot g) s = true →
    let e := s.ep 2 b.val slot.val
    let r := (s.burin b.val).regs
    (s.chanOfProd e = none → Completes (.dsend b slot g) b pass s)
    ∧ ∀ ch, s.chanOfProd e = some ch →
      ((s.chan ch).credits = 0 → exec (.dsend b slot g) s = .next (Sys2Proof.Claims.waits b (.dsend slot.val g.val) s))
      ∧ ((s.chan ch).credits ≠ 0 → CompletesFrom (.dsend b slot g) b pass s (sendEp e
        (if (s.chan ch).wide = true ∧ g.val ≠ 15 then gr r (g.val + 1) ++ gr r g.val else (0 : Word) ++ gr r g.val) s)))
  ∧ (∀ (b : BurinId) (g : GReg) (slot : Fin 4) (s : State), Issues (.drecv b g slot) s = true →
    let e := s.ep 3 b.val slot.val
    (s.arrivals e = [] → exec (.drecv b g slot) s = .next (Sys2Proof.Claims.waits b (.drecv g.val slot.val) s))
    ∧ ∀ v rest, s.arrivals e = v :: rest → CompletesFrom (.drecv b g slot) b (fun r => pass
      (if s.wideIn e = true ∧ g.val ≠ 15 then setG (g.val + 1) (v.extractLsb' 32 32) (setG g.val (v.extractLsb' 0 32) r)
        else setG g.val (v.extractLsb' 0 32) r)) s (takeArrival e s))
  ∧ (∀ (b : BurinId) (g : GReg) (s : State), Issues (.waitt b g) s = true →
    let r := (s.burin b.val).regs
    let t := (s.burin b.val).origin + (gr r (g.val + 1) ++ gr r g.val).toNat % 2 ^ 48
    ((t + 15) / 16 * 16 ≤ s.now → Completes (.waitt b g) b pass s)
    ∧ (s.now < (t + 15) / 16 * 16 → exec (.waitt b g) s = .next (Sys2Proof.Claims.waits b (.waitt g.val) s)))
  ∧ (∀ (b : BurinId) (slot : Fin 16) (g : GReg) (s : State), Issues (.waitq b slot g) s = true →
    let near := ∀ q t, s.slotQueue b.val slot.val = some q → (s.queue q).lastPlaced = some t →
      t - (s.now : Int) ≤ ((gr (s.burin b.val).regs g.val).toNat : Int)
    (near → Completes (.waitq b slot g) b pass s)
    ∧ (¬near → exec (.waitq b slot g) s = .next (Sys2Proof.Claims.waits b (.waitq slot.val g.val) s)))
  ∧ (∀ (b : BurinId) (slot : Fin 4) (s : State), Issues (.waitc b slot) s = true →
    let dry := ∃ ch, s.chanOfProd (s.ep 2 b.val slot.val) = some ch ∧ (s.chan ch).credits = 0
    (¬dry → Completes (.waitc b slot) b pass s)
    ∧ (dry → exec (.waitc b slot) s = .next (Sys2Proof.Claims.waits b (.waitc slot.val) s)))
  ∧ (∀ (b : BurinId) (g : GReg) (s : State), Issues (.iqrd b g) s = true →
    let k := s.burin b.val
    (k.iq = [] → exec (.iqrd b g) s = .next (Sys2Proof.Claims.waits b (.iqrd g.val) s))
    ∧ ∀ p rest, k.iq = p :: rest →
      let t := ((p.tick - (k.origin : Int)) % 2 ^ 48).toNat
      CompletesFrom (.iqrd b g) b (fun r => pass (setG (g.val + 2)
          (BitVec.ofNat 32 (t / 2 ^ 32 + p.slot * 2 ^ 16 + p.window % 256 * 2 ^ 24))
          (setG (g.val + 1) (BitVec.ofNat 32 t) (setG g.val p.pt r)))) s
        (s.setBurin b.val { k with iq := rest, lastPoint := some (p.flags, p.window % 256) }))
  ∧ (∀ (b : BurinId) (slot : Fin 16) (g : GReg) (pa : PReg) (ma : Option MReg) (s : State), Issues (.put b slot g pa ma) s = true →
    let k := s.burin b.val
    let r := k.regs
    let rel := (gr r (g.val + 1) ++ gr r g.val).toNat % 2 ^ 48
    let a := (pr r pa.val).toNat
    let e : Entry := { release := (k.origin + rel : Nat), rel48 := rel, shot := k.shot, burin := b.val,
                       words := [dm r a, dm r (a + 1), dm r (a + 2), dm r (a + 3)] }
    (s.slotCredits b.val slot.val = 0 → exec (.put b slot g pa ma) s = .next (s.setBurin b.val { k with
      hold := some { slot := slot.val, entry := e, post := ma.map fun m => (pa.val, m.val), micro := false } }))
    ∧ (s.slotCredits b.val slot.val ≠ 0 → CompletesFrom (.put b slot g pa ma) b (fun r => pass (Sys2Proof.Claims.movePtr pa ma r)) s
      (match s.slotQueue b.val slot.val with
        | some q => s.setQueue q { s.queue q with xbar := (s.queue q).xbar ++ [e], lastPlaced := some e.release }
        | none => s.setBurin b.val { k with nulls := k.nulls ++ [{ slot := slot.val, release := e.release }] })))
  ∧ (∀ (b : BurinId) (m : Mem) (s : State), Issues (.rec_ b m) s = true →
    let a := Sys2Proof.Claims.place m (s.burin b.val).regs
    exec (.rec_ b m) s = .next (finish b.val (modRegs b.val (Sys2Proof.Claims.moved m) (postResult b.val a s)))
    ∧ (s.resultRec b.val a).length = 32
    ∧ (s.resultRec b.val a).drop 16 = le 4 (dm (s.burin b.val).regs (a + 4)).toNat ++ le 4 (dm (s.burin b.val).regs (a + 5)).toNat
      ++ le 4 (dm (s.burin b.val).regs (a + 6)).toNat ++ le 4 (dm (s.burin b.val).regs (a + 7)).toNat)
  ∧ (∀ (b : BurinId) (s : State), (s.burin b.val).running = true → Turns b pass s (finish b.val s))
  ∧ (∀ (i : Instr) (b : BurinId) (w a : Nat) (s : State), wordOf i = some (b, w) → s.fetched b.val w = true →
    tget none s.patches.dispatch (w / 2 ^ 24) = some a → a < 4096 →
    let m := s.microword a
    let u := { s with free := s.free + 6 }.setBurin b.val { s.burin b.val with micro := {} }
    (bits m 20 4 = 0 → bits m 16 3 = 0 → bits m 19 1 = 1 → exec i s = .next (finish b.val u))
    ∧ (11 ≤ bits m 20 4 → exec i s = .fault .reservedMicroword))
  ∧ ∀ (b : BurinId) (op : Fin 32) (fields : BitVec 24) (s : State), Issues (.patchOpcode b op fields) s = true →
    exec (.patchOpcode b op fields) s = .next s

/-- Tone and Z entries at their release ticks, playlists, settling and over-current. An entry acts when it is the head
of its queue and its release tick has come; then it leaves the queue, its credit returns and the meter counts it. An
ill-formed head is discarded and counted by any of the queue's rows, with no other effect; a head of another kind
leaves the row without effect. SEG_PLAY plays a defined segment or step from its bank in play, from its release tick,
and leaves the tone silent where it is undefined; the frequency word stays. TONE_SET sets only the fields it names and
leaves the play. STOP ends the play and its request. JUMP sets the pending request where a playlist runs, else it is
counted unused. At a decision point an entry request wins over a trigger flag, which counts if it was latched before
the word of the point. A playlist goes on by repetition, NEXT, LAST or the taken jump; the last segment's end leaves
silence. BIAS loads the ladder after the latency of DG, its deglitcher holding meanwhile, and, while PARKED, re-bases
the switch opening. ZPLAY, ZSTOP, the end of a fast play, the switch, settling and the limiter act as their rules say,
each on its channel. (R50, R153, R160, R161, R164, R170, R172, R175, R176, R193, R195, R199) -/
def Obligations.ToneAndZEvents : Prop :=
  (∀ (res : Nat) (s : State), (s.queue res).entries = [] → releaseHead res s = none)
  ∧ (∀ (res : Nat) (e : Entry) (rest : List Entry) (s : State), (s.queue res).entries = e :: rest →
    ((s.now : Int) < e.release → releaseHead res s = none)
    ∧ (e.release ≤ (s.now : Int) → ∃ m g, releaseHead res s = some (e,
      { s.setQueue res { s.queue res with entries := rest, returning := (s.queue res).returning + 1, meter := m } with
        gov := { s.gov with margin := some g } }) ∧ m.released = (s.queue res).meter.released.bump
        ∧ g ≤ e.margin))
  ∧ (∀ (t : ToneId) (s : State), releaseHead (tnum t) s = none →
    exec (.segPlay t) s = .next s ∧ exec (.toneSet t) s = .next s ∧ exec (.stop t) s = .next s ∧ exec (.jump t) s = .next s)
  ∧ (∀ (t : ToneId) (e : Entry) (u s : State), releaseHead (tnum t) s = some (e, u) →
    let k := tnum t
    let p := tonePort k
    let rel := e.release.toNat
    let dropped := s.setQueue k { s.queue k with entries := (s.queue k).entries.tail, returning := (s.queue k).returning + 1 }
    let bad := dropped.setPort p { s.port p with bad := (s.port p).bad.bump }
    let w := lapse k rel u
    (e.toneKind = none → exec (.segPlay t) s = .next bad ∧ exec (.toneSet t) s = .next bad ∧ exec (.stop t) s = .next bad
      ∧ exec (.jump t) s = .next bad)
    ∧ (∀ n, e.toneKind = some n → (n ≠ 1 → exec (.segPlay t) s = .next s) ∧ (n ≠ 2 → exec (.toneSet t) s = .next s)
      ∧ (n ≠ 3 → exec (.stop t) s = .next s) ∧ (n ≠ 4 → exec (.jump t) s = .next s))
    ∧ (e.toneKind = some 1 → ∃ v, exec (.segPlay t) s = .next v ∧ (v.tone k).ftw = (s.tone k).ftw ∧ (v.tone k).pend = none
      ∧ (let b := (s.port p).banks
        let bank := if b.inPlay = 0 then b.b0 else b.b1
        let id := e.w 0 / 2 ^ 16
        let play (seg len : Nat) (step : Option Nat) : Play :=
          { rel, start := rel, bank := b.inPlay, seg, len, step, rep := 0, evs := (e.w 0).testBit 9, mke := (e.w 0).testBit 10,
            mrk := e.w 3 % 32, amp := e.w 1 % 2 ^ 16, phase := e.w 1 / 2 ^ 16, foff := sgn 32 (e.w 2), decided := false, take := none }
        ((e.w 0).testBit 8 = false → (v.tone k).play =
          if (tget {} bank.segs id).len = 0 then none else some (play id (tget {} bank.segs id).len none))
        ∧ ((e.w 0).testBit 8 = true → tget none bank.steps id = none → (v.tone k).play = none)
        ∧ ∀ x, (e.w 0).testBit 8 = true → tget none bank.steps id = some x → (v.tone k).play =
          if (tget {} bank.segs x.seg).len = 0 then none else some (play x.seg (tget {} bank.segs x.seg).len (some id))))
    ∧ (e.toneKind = some 2 → ∃ v, exec (.toneSet t) s = .next v ∧ (v.tone k).play = (w.tone k).play
      ∧ (v.tone k).ftw = (if (e.w 0).testBit 8 = true then sgn 48 (e.w 1 + e.w 2 % 2 ^ 16 * 2 ^ 32) else (s.tone k).ftw)
      ∧ (v.tone k).phase = (if (e.w 0).testBit 9 = true then e.w 2 / 2 ^ 16 else (s.tone k).phase)
      ∧ (v.tone k).amp = (if (e.w 0).testBit 10 = true then e.w 3 % 2 ^ 16 else (s.tone k).amp)
      ∧ (v.tone k).cont = (if (e.w 0).testBit 11 = true then (e.w 0).testBit 12 else (s.tone k).cont))
    ∧ (e.toneKind = some 3 → exec (.stop t) s = .next (endPlay k w) ∧ ((endPlay k w).tone k).play = none
      ∧ ((endPlay k w).tone k).pend = none)
    ∧ (e.toneKind = some 4 →
      let x := if 0 < rel ∧ w.decisionDue k (rel - 1) = true then decidePlay k w else w
      ((∀ y, (x.tone k).play = some y → y.step = none) → exec (.jump t) s = .next (x.setPort p { x.port p with unused := (x.port p).unused.bump }))
      ∧ ∀ y j, (x.tone k).play = some y → y.step = some j → exec (.jump t) s = .next (x.setTone k { x.tone k with
        pend := some (if (e.w 0).testBit 8 = true then some (e.w 1 % 1024) else none) })))
  ∧ (∀ (t : ToneId) (s : State), (s.tone (tnum t)).play = none →
    exec (.decisionPoint t) s = .next s ∧ exec (.segmentStart t) s = .next s ∧ exec (.playEnd t) s = .next s)
  ∧ (∀ (t : ToneId) (p : Play) (s : State), (s.tone (tnum t)).play = some p →
    let k := tnum t
    let fin := p.start + 8 * p.len
    (p.decided = true ∨ p.step = none ∨ p.len < 64 ∨ s.now + 512 < fin → exec (.decisionPoint t) s = .next s)
    ∧ (∀ e, p.decided = false → s.stepOf k p = some e → 64 ≤ p.len → fin ≤ s.now + 512 →
      let early (x : Nat) : Prop := ∃ l, s.latchTick x = some l ∧ l < (fin - 512) / 16 * 16
      let flag := e.jsrc = 1 ∧ early (s.ep 5 (resUnit k) 0) ∨ e.jsrc = 2 ∧ early (s.ep 5 (resUnit k) 1)
      ∃ v y, exec (.decisionPoint t) s = .next v
        ∧ v.tone k = { s.tone k with pend := none, play := some { p with decided := true, take := y } }
        ∧ (∀ j, (s.tone k).pend = some (some j) → y = some j) ∧ ((s.tone k).pend = some none → y = some e.jump)
        ∧ ((s.tone k).pend = none → flag → y = some e.jump) ∧ ((s.tone k).pend = none → ¬flag → y = none)
        ∧ (v.port (tonePort k)).taken = (if y.isSome = true then (s.port (tonePort k)).taken.bump else (s.port (tonePort k)).taken))
    ∧ (s.now < fin → exec (.segmentStart t) s = .next s ∧ exec (.playEnd t) s = .next s)
    ∧ (p.step = none → fin ≤ s.now → exec (.playEnd t) s = .next (endPlay k s) ∧ exec (.segmentStart t) s = .next s)
    ∧ (∀ i e x g j n, p.step = some i → s.stepOf k p = some e → (p.decided = true ∨ p.len < 64) → fin ≤ s.now →
      (∀ q, p.take = some q → j = q ∧ n = 0)
      → (p.take = none → p.rep < e.rep → j = i ∧ n = p.rep + 1)
      → (p.take = none → e.rep ≤ p.rep → e.last = false ∧ j = e.next ∧ n = 0)
      → tget none (s.playBank k p).steps j = some x → tget {} (s.playBank k p).segs x.seg = g → g.len ≠ 0 →
      ∃ v, exec (.segmentStart t) s = .next v ∧ exec (.playEnd t) s = .next s ∧ (v.tone k).pend = (s.tone k).pend
        ∧ (v.tone k).play = some { p with start := fin, seg := x.seg, len := g.len, step := some j, rep := n, decided := false, take := none })
    ∧ (∀ i e, p.step = some i → s.stepOf k p = some e → (p.decided = true ∨ p.len < 64) → fin ≤ s.now → p.take = none → e.rep ≤ p.rep →
      e.last = true → exec (.playEnd t) s = .next (endPlay k s) ∧ exec (.segmentStart t) s = .next s))
  ∧ (∀ (z : Fin 256) (s : State), releaseHead (0x2000 + z.val) s = none →
    exec (.bias z) s = .next s ∧ exec (.zplay z) s = .next s ∧ exec (.zstop z) s = .next s)
  ∧ (∀ (z : Fin 256) (e : Entry) (u s : State), releaseHead (0x2000 + z.val) s = some (e, u) →
    let c := s.z z.val
    let rel := e.release.toNat
    let q := s.queue (0x2000 + z.val)
    let dropped := s.setQueue (0x2000 + z.val) { q with entries := q.entries.tail, returning := q.returning + 1 }
    let bad := dropped.setZc z.val { s.zc z.val with bad := (s.zc z.val).bad.bump }
    (e.zKind = none → exec (.bias z) s = .next bad ∧ exec (.zplay z) s = .next bad ∧ exec (.zstop z) s = .next bad)
    ∧ (∀ n, e.zKind = some n → (n ≠ 0x11 → exec (.bias z) s = .next s) ∧ (n ≠ 0x12 → exec (.zplay z) s = .next s)
      ∧ (n ≠ 0x13 → exec (.zstop z) s = .next s))
    ∧ (e.zKind = some 0x11 →
      let new := e.w 1
      let step := if c.code ≤ new then new - c.code else c.code - new
      let loaded := { c with
        code := new, settled := false, lastBias := some rel, holdTo := rel + (if c.dg = 1 then 800 else 0)
        settleAt := some (rel + (if c.dg = 1 then 1200 else 400) + (if step * 100 ≤ 2 ^ 18 then 16000 else 38000)) }
      (c.st = .float ∨ s.plausHeld (zDom z.val) = true → exec (.bias z) s = .next u)
      ∧ (c.st = .parked → s.plausHeld (zDom z.val) = false →
        exec (.bias z) s = .next (u.setZ z.val { loaded with openAt := some (rel + 40000), openTo := .driven }))
      ∧ (c.st = .driven ∨ c.st = .safePark → s.plausHeld (zDom z.val) = false → exec (.bias z) s = .next
        (if new = c.code then u.setZ z.val { c with lastBias := some rel } else (zstatCount z.val new u).setZ z.val loaded)))
    ∧ (e.zKind = some 0x12 → ∃ v, exec (.zplay z) s = .next v ∧ (v.z z.val).st = c.st ∧ (v.z z.val).code = c.code
      ∧ (let b := s.zbank (z.val / 64)
        let seg := e.w 0 / 2 ^ 16
        let g := tget {} (if b.inPlay = 0 then b.b0 else b.b1).segs seg
        (g.len = 0 → (v.z z.val).fast = none ∧ (v.zc z.val).missing = (s.zc z.val).missing.bump)
        ∧ (g.len ≠ 0 → (v.z z.val).fast = some { rel, seg, bank := b.inPlay, amp := e.w 1 % 2 ^ 16, len := g.len,
                                                 hold := (e.w 0).testBit 8, held := false }
          ∧ (v.zc z.val).parkedPlays = (if c.st = .parked then (s.zc z.val).parkedPlays.bump else (s.zc z.val).parkedPlays))))
    ∧ (e.zKind = some 0x13 → ∃ v, exec (.zstop z) s = .next v ∧ (v.z z.val).fast = none ∧ (v.z z.val).st = c.st
      ∧ (v.z z.val).code = c.code ∧ ∀ y, y ≠ z.val → v.z y = s.z y))
  ∧ (∀ (z : Fin 256) (s : State), ((s.z z.val).fast = none → exec (.fastPlayEnd z) s = .next s)
    ∧ ((s.z z.val).openAt = none → exec (.parkSwitchOpen z) s = .next s)
    ∧ ((s.z z.val).settleAt = none → exec (.biasSettled z) s = .next s)
    ∧ ((s.z z.val).st = .float ∨ (s.z z.val).st = .parked → exec (.overCurrent z) s = .next s))
  ∧ (∀ (z : Fin 256) (f : Fast) (s : State), (s.z z.val).fast = some f →
    (f.held = true ∨ s.now < f.rel + 16 * f.len → exec (.fastPlayEnd z) s = .next s)
    ∧ (f.held = false → f.rel + 16 * f.len ≤ s.now → ∃ v, exec (.fastPlayEnd z) s = .next v
      ∧ (v.z z.val).fast = (if f.hold = true then some { f with held := true, code := (s.fastSample z.val f (f.len - 1)).1 } else none) ∧ (v.z z.val).code = (s.z z.val).code))
  ∧ (∀ (z : Fin 256) (t : Nat) (s : State),
    ((s.z z.val).openAt = some t → exec (.parkSwitchOpen z) s = .next (if s.now < t then s else
      s.setZ z.val { s.z z.val with st := (s.z z.val).openTo, openAt := none, lastBias := some t }))
    ∧ ((s.z z.val).settleAt = some t → exec (.biasSettled z) s = .next (if s.now < t then s else
      s.setZ z.val { s.z z.val with settled := true, settleAt := none })))
  ∧ ∀ (z : Fin 256) (s : State), (s.z z.val).st = .driven ∨ (s.z z.val).st = .safePark →
    ∃ v, exec (.overCurrent z) s = .next v ∧ (v.z z.val).ovc = true ∧ (v.z z.val).ovcPend = true
      ∧ (v.zc z.val).overcurrents = (s.zc z.val).overcurrents.bump
      ∧ ((s.owner (0x2000 + z.val)).isSome = true → (v.z z.val).st = (s.z z.val).st ∧ v.host = s.host)
      ∧ ((s.owner (0x2000 + z.val)).isNone = true → (v.z z.val).st = .parked ∧ (v.z z.val).unownedLatch = true
        ∧ v.host.faultsum.getLsbD 10 = true)

/-- Read-out samples, points and alignment; events, payloads and credits of the Hatch. An alignment event restarts
every chain and phase track at its tick and counts at each port; before its tick nothing happens. The converter of a
port whose domain is On takes its codes in order, one per tick and none of a tick to come, counting those at an end of
the range; a chain takes each sample once, in order; a window that is complete delivers its point to the IQ FIFO of
the burin that owns the tone and runs that shot, else the point is lost and counted; lost samples advance a chain and
mark it. A due centroid step of an idle burin writes data memory alone. On a bound channel an event or payload that is
spaced from the one before goes on to the gate, else it is held, events merging, payloads in order; when RS has passed
the held one goes on. At the gate a disabled channel discards and returns the credit; more than STMAX in STWIN
disables the channel; an open gate passes, a closed one discards events and holds payloads. An event reaches each
consumer's flag once; an arrival less than 0.4 ns after the one before belongs to its wavefront, one 1.2 ns or more
after it does not, and between the row tells: such a one is coalesced, another on a latched flag overlaid. A payload
joins a queue of four; a fifth disables the channel. Credits come back one by one, to four at most. The SOFT consumer
takes an arrival once its ring has a slot. (R92, R228, R235, R246, R247, R251, R271, R276, R280, R283, R284, R285) -/
def Obligations.ReadoutAndHatchEvents : Prop :=
  (∀ s : State, (∀ t n, s.alignArm = some (.at t n) → s.now < t) → exec .alignmentEvent s = .next s)
  ∧ (∀ (s : State) (t : Nat) (n : Bool), s.alignArm = some (.at t n) → t ≤ s.now → ∃ v, exec .alignmentEvent s = .next v ∧ v.epoch = t
    ∧ v.alignArm = none ∧ (∀ e ∈ v.tones, e.2.track = 0 ∧ e.2.trackAt = t)
    ∧ (∀ i, i < 256 → (v.rot i).chain.n = 0 ∧ (v.rot i).chain.hist = [] ∧ (v.rot i).chain.dly = [])
    ∧ (∀ n, n < 16 → (v.acqPort n).alignments = (s.acqPort n).alignments.bump ∧ (0, t) ∈ (v.acqPort n).fills)
    ∧ v.burins = s.burins ∧ v.now = s.now)
  ∧ (∀ (nn : Nat) (xs : List Int) (s : State),
    let fed := if s.isOn (inDom nn) = true then each (convert nn) (xs.take (s.now + 1 - (s.acqPort nn).conv)) s else s
    (∀ i : Fin 256, i.val / 16 = nn → exec (.pointFormed i xs) s = .next fed ∧ exec (.streamBlock (.tone i) xs) s = .next fed)
    ∧ ∀ (p : Fin 16) (t : Fin 128), p.val = nn → exec (.streamBlock (.stip p t) xs) s = .next fed)
  ∧ (∀ (nn : Nat) (code : Int) (s : State),
    let v := convert nn code s
    (v.acqPort nn).conv = (s.acqPort nn).conv + 1 ∧ v.now = s.now
    ∧ (v.acqPort nn).overranges = if (s.calI nn).st ≠ 3 ∧ (code ≤ -2048 ∨ 2047 ≤ code) then (s.acqPort nn).overranges.bump
        else (s.acqPort nn).overranges)
  ∧ (∀ (i k : Nat) (x : Int × Int × Bool) (s : State),
    (k < (s.rot i).chain.n → toneInput i k x s = (s, none))
    ∧ ((s.rot i).chain.n ≤ k → ((toneInput i k x s).1.rot i).chain.n = k + 1))
  ∧ (∀ (nn t k : Nat) (x : Int × Int × Bool) (s : State),
    (k < (s.stipChain (nn * 128 + t)).n → stipInput nn t k x s = s)
    ∧ ((s.stipChain (nn * 128 + t)).n ≤ k → ((stipInput nn t k x s).stipChain (nn * 128 + t)).n = k + 1))
  ∧ (∀ (i b : Nat) (w : Window) (s : State), (s.rot i).wins = [w] → w.done = true ∨ w.skipped = true →
    s.owner (0x1000 + i) = some b →
    let u := s.setRot i { s.rot i with wins := [] }
    let k := s.burin b
    (k.running = true → k.shot = w.shot → k.iq.length < 32 → deliverReady i 1 s = u.setBurin b { k with
      iq := k.iq ++ [{ pt := ((s.rot i).point w).1, tick := w.endTick, slot := (s.slotOf b (0x1000 + i)).getD 0,
                       window := w.idx, flags := ((s.rot i).point w).2, shot := w.shot }] })
    ∧ (k.running = false ∨ k.shot ≠ w.shot ∨ 32 ≤ k.iq.length → deliverReady i 1 s = u.setBurin b { k with
      iqOverruns := k.iqOverruns.bump, iqLost := true }))
  ∧ (∀ (src : SrcId) (lost : Nat) (s : State), match src with
    | .tone i =>
      (s.toneRuns i.val = false → exec (.chainOverrun src lost) s = .next s)
      ∧ (s.toneRuns i.val = true → ∃ v, exec (.chainOverrun src lost) s = .next v
        ∧ (v.rot i.val).chain.n = (s.rot i.val).chain.n + lost ∧ (v.rot i.val).chain.overrun = true
        ∧ (v.acqPort (i.val / 16)).chainOverruns = (s.acqPort (i.val / 16)).chainOverruns.add lost)
    | .stip nn t =>
      (s.stipRuns nn.val t.val = false → exec (.chainOverrun src lost) s = .next s)
      ∧ (s.stipRuns nn.val t.val = true → ∃ v, exec (.chainOverrun src lost) s = .next v
        ∧ (v.stipChain (nn.val * 128 + t.val)).n = (s.stipChain (nn.val * 128 + t.val)).n + lost
        ∧ (v.acqPort nn.val).chainOverruns = (s.acqPort nn.val).chainOverruns.add lost))
  ∧ (∀ (b : BurinId) (s : State), (s.cent b.val).due = false ∨ (s.cent b.val).ramp = none ∨ (s.burin b.val).running = true
      ∨ (s.burin b.val).held ≠ [] ∨ s.proofCovers b.val = true ∨ s.isOn (folioDom b.val) = false
      → exec (.centroidUpdate b) s = .next s)
  ∧ (∀ (b : BurinId) (p : Ramp) (tab : Nat × Nat × Nat) (s : State), (s.cent b.val).ramp = some p → (s.burin b.val).ctab = some tab →
    (s.cent b.val).due = true → (s.burin b.val).running = false → (s.burin b.val).held = [] → s.proofCovers b.val = false →
    s.cellPending b.val = false → s.isOn (folioDom b.val) = true →
    ∃ m, exec (.centroidUpdate b) s = .next ((s.setCent b.val { s.cent b.val with ramp := p.step.2, due := false }).setBurin b.val
      { s.burin b.val with regs := { (s.burin b.val).regs with dmem := m } }))
  ∧ (∀ (ch i : Nat) (pay : BitVec 64) (s : State),
    let c := s.chan ch
    let j := tget {} c.inj i
    let free := (∀ t, j.last = some t → t + c.rs * 16 ≤ s.now) ∧ j.heldEv = false ∧ j.heldPay = []
    (free → inject ch i pay s = s.setChan ch { c with
      inj := tset {} c.inj i { j with last := some s.now }, toGate := c.toGate ++ [pay] })
    ∧ (¬free →
      let held := if c.kind = 1 then { j with heldEv := true } else { j with heldPay := j.heldPay ++ [pay] }
      inject ch i pay s = (s.setChan ch { c with inj := tset {} c.inj i held }).setChCtr ch
        { s.chCtr ch with spaced := (s.chCtr ch).spaced.bump }))
  ∧ (∀ (ch : Fin 4096) (i : Fin 8) (s : State),
    let c := s.chan ch.val
    let j := tget {} c.inj i.val
    let due := ∀ t, j.last = some t → t + c.rs * 16 ≤ s.now
    let go (j : Inject) (pay : BitVec 64) : State := s.setChan ch.val { c with
      inj := tset {} c.inj i.val { j with last := some s.now }, toGate := c.toGate ++ [pay] }
    (c.bound = false ∨ ¬due ∨ j.heldEv = false ∧ j.heldPay = [] → exec (.spacingEnd ch i) s = .next s)
    ∧ (c.bound = true → due → j.heldEv = true → exec (.spacingEnd ch i) s = .next (go { j with heldEv := false } 0))
    ∧ ∀ v rest, c.bound = true → due → j.heldEv = false → j.heldPay = v :: rest →
      exec (.spacingEnd ch i) s = .next (go { j with heldPay := rest } v))
  ∧ (∀ (ch : Fin 4096) (s : State), ((s.chan ch.val).toGate = [] → exec (.gatePointArrival ch) s = .next s)
    ∧ ((s.chan ch.val).atGate = [] → exec (.gateOpenRelease ch) s = .next s)
    ∧ ((s.chan ch.val).inFlight = [] → exec (.payloadArrival ch) s = .next s)
    ∧ ((tget {} (s.chan ch.val).con 0).arrivals = [] → exec (.softConsumerTake ch) s = .next s)
    ∧ exec (.hatchCreditArrival ch) s = .next (if (s.chan ch.val).credFlight = 0 then s else s.setChan ch.val { s.chan ch.val with
      credFlight := (s.chan ch.val).credFlight - 1, credits := Nat.min 4 ((s.chan ch.val).credits + 1) }))
  ∧ (∀ (ch : Fin 4096) (pay : BitVec 64) (rest : List (BitVec 64)) (s : State), (s.chan ch.val).toGate = pay :: rest →
    let c := s.chan ch.val
    let k := s.chCtr ch.val
    let l := s.now :: c.storm.filter fun t => decide (s.now < t + c.stwin * 20000)
    let u := (s.setChan ch.val { c with toGate := rest, storm := l }).setChCtr ch.val { k with peak := max k.peak l.length }
    let out := (s.setChan ch.val { c with toGate := rest }).setChCtr ch.val { k with discarded := k.discarded.bump }
    (c.stormFlag = true ∨ c.ovfFlag = true → exec (.gatePointArrival ch) s = .next (if c.kind = 2 then returnCredits ch.val 1 out else out))
    ∧ (c.stormFlag = false → c.ovfFlag = false → c.stmax ≠ 0 → c.stmax < l.length → ∃ t, exec (.gatePointArrival ch) s = .next t
      ∧ (t.chan ch.val).stormFlag = true ∧ t.host.faultsum.getLsbD 6 = true)
    ∧ (c.stormFlag = false → c.ovfFlag = false → (c.stmax = 0 ∨ l.length ≤ c.stmax) →
      (s.gateOpen c = true → (c.kind = 1 ∨ c.atGate = []) → exec (.gatePointArrival ch) s = .next (passGate ch.val pay u))
      ∧ (s.gateOpen c = false → c.kind = 1 → exec (.gatePointArrival ch) s = .next (u.setChCtr ch.val
        { k with peak := max k.peak l.length, gated := k.gated.bump }))
      ∧ (s.gateOpen c = false ∨ c.atGate ≠ [] → c.kind ≠ 1 → exec (.gatePointArrival ch) s = .next (u.setChan ch.val
        { c with toGate := rest, storm := l, atGate := c.atGate ++ [pay] }))))
  ∧ (∀ (ch : Fin 4096) (pay : BitVec 64) (rest : List (BitVec 64)) (s : State), (s.chan ch.val).atGate = pay :: rest →
    exec (.gateOpenRelease ch) s = .next (if s.gateOpen (s.chan ch.val) = true then
      passGate ch.val pay (s.setChan ch.val { s.chan ch.val with atGate := rest }) else s))
  ∧ (∀ (ch : Nat) (pay : BitVec 64) (s : State),
    ((s.chan ch).kind = 1 → ∃ u, passGate ch pay s = hatchWake ch u ∧ (u.chCtr ch).forwarded = (s.chCtr ch).forwarded.bump
      ∧ u.burins = s.burins ∧ (u.chan ch).toLatch = (s.chan ch).toLatch ++ (List.range (s.chan ch).cons.length).filter
        fun i => epClass ((s.chan ch).cons.getD i 0) != 12)
    ∧ ((s.chan ch).kind ≠ 1 → ∃ u, passGate ch pay s = u ∧ (u.chCtr ch).forwarded = (s.chCtr ch).forwarded.bump
      ∧ u.burins = s.burins ∧ (u.chan ch).inFlight = (s.chan ch).inFlight ++ [pay])
    ∧ ((∀ d, (s.dom d).wakeCh ≠ some ch) → hatchWake ch s = s))
  ∧ (∀ (ch : Fin 4096) (i : Fin 256) (merged : Bool) (s : State),
    let c := s.chan ch.val
    let k := s.chCtr ch.val
    let f := tget {} c.con i.val
    let put (k : Consumer) : State := s.setChan ch.val { c with
      toLatch := c.toLatch.erase i.val, con := tset {} c.con i.val { k with lastWave := some s.now } }
    let wave : Prop := ∃ t, f.lastWave = some t ∧ (s.now < t + 8 ∨ s.now < t + 24 ∧ merged = true)
    (i.val ∉ c.toLatch → exec (.triggerLatch ch i merged) s = .next s)
    ∧ (i.val ∈ c.toLatch → wave → exec (.triggerLatch ch i merged) s =
      .next ((put f).setChCtr ch.val { k with coalesced := k.coalesced.bump }))
    ∧ (i.val ∈ c.toLatch → ¬wave → f.flag = true → exec (.triggerLatch ch i merged) s =
      .next ((put f).setChCtr ch.val { k with overlaid := k.overlaid.bump }))
    ∧ (i.val ∈ c.toLatch → ¬wave → f.flag = false → exec (.triggerLatch ch i merged) s =
      .next (put { f with flag := true, latched := s.now })))
  ∧ (∀ (ch : Fin 4096) (pay : BitVec 64) (rest : List (BitVec 64)) (s : State), (s.chan ch.val).inFlight = pay :: rest →
    let c := s.chan ch.val
    let f := tget {} c.con 0
    (s.consFar c = true → exec (.payloadArrival ch) s = .next s)
    ∧ (s.consFar c = false → f.arrivals.length < 4 → exec (.payloadArrival ch) s = .next (watch ch.val
      ((s.setChan ch.val { c with inFlight := rest }).setChan ch.val { c with
        inFlight := rest, con := tset {} c.con 0 { f with arrivals := f.arrivals ++ [pay], times := f.times ++ [s.now] } })))
    ∧ (s.consFar c = false → 4 ≤ f.arrivals.length → ∃ t, exec (.payloadArrival ch) s = .next t ∧ (t.chan ch.val).ovfFlag = true
      ∧ (t.chan ch.val).inFlight = rest ∧ (t.chan ch.val).con = c.con ∧ t.host.faultsum.getLsbD 6 = true))
  ∧ ∀ (ch : Fin 4096) (v : BitVec 64) (rest : List (BitVec 64)) (s : State), (tget {} (s.chan ch.val).con 0).arrivals = v :: rest →
    let c := s.chan ch.val
    (c.kind ≠ 2 ∨ c.soft = false → exec (.softConsumerTake ch) s = .next s)
    ∧ (c.kind = 2 → c.soft = true → ∃ bytes, bytes.length = 32 ∧ bytes.take 4 = le 2 0x0041 ++ le 2 ch.val
      ∧ (bytes.drop 8).take 8 = le 8 v.toNat
      ∧ (ringPut c.ring bytes none s = none → exec (.softConsumerTake ch) s = .next s)
      ∧ ∀ t, ringPut c.ring bytes none s = some t → exec (.softConsumerTake ch) s = .next (takeArrival (c.cons.getD 0 0)
        (t.setChan ch.val { t.chan ch.val with seq := (c.seq + 1) % 65536 })))

/-- Capture, playback, pulse and time element events. A PRIMED engine whose arm flag is latched begins to fill,
writing from the first word boundary at least 1 µs ahead; with PRE samples written it waits. A trigger counts early
while it fills or before PRE, starts the capture in WAITING with its instant, sample and forced flag, its event raised
as it is due, and is counted and ignored while capturing, where one of an earlier instant in the same word takes its
place, or rearming; a force consumes its flag in every state. A flag is present from the word after its latch tick. A
capture whose POST samples are written completes at the next word boundary, owes its record and re-arms after 64 words
and once no record is owed, into the next segment or DONE. An armed playback starts at its tick, a shot playback at
its origin, cutting one in play; repetitions and segments follow without a gap; a playback ends after LAST, at an
undefined segment, counted, or at its stop with the outputs IDLE. The TRIG events of a repetition are raised as its
tick ends. A FOLLOW pulse's end shows 6 ns after its tick. A time element's event comes at its tick, is raised where
its root runs, and an element with none left is inactive; a TIME_OUT stays low under a device fault. Each does nothing
before its time. (R296, R297, R298, R302, R304, R306, R312, R316, R318, R321, R347, R348) -/
def Obligations.AcquisitionMarkerAndTimerEvents : Prop :=
  (∀ (x : Nat) (s : State), (s.latchTick x = none → s.present x = none)
    ∧ ∀ t, s.latchTick x = some t → s.present x = if s.now < t / 16 * 16 + 16 then none else some (t / 16 * 16 + 16))
  ∧ (∀ (e : Fin 16) (s : State),
    let k := s.engine e.val
    let x := s.ep 8 e.val 1
    (k.st ≠ .primed ∨ s.present x = none → exec (.armEvent e) s = .next s)
    ∧ ∀ t, k.st = .primed → s.present x = some t → exec (.armEvent e) s = .next ((consume x s).setEngine e.val { k with
      st := .filling, seg := 0, writing := false, writeAt := some ((s.now + 20000 + 15) / 16 * 16), count := 0, overs := []
      aligned := none, trig := none, det := {}, edges := [] }))
  ∧ (∀ (e : Fin 16) (s : State),
    let k := s.engine e.val
    (k.writeAt = none ∨ k.st ≠ .filling → exec (.writingBegins e) s = .next s ∧ exec (.preTriggerFull e) s = .next s)
    ∧ ∀ t, k.writeAt = some t → k.st = .filling →
      (k.writing = true ∨ s.now < t → exec (.writingBegins e) s = .next s)
      ∧ (k.writing = false → t ≤ s.now → ∃ v, exec (.writingBegins e) s = .next v ∧ v.engine e.val = { k with writing := true }
        ∧ v.burins = s.burins ∧ v.now = s.now)
      ∧ (k.writing = false ∨ s.now < t ∨ k.count < k.lat.pre → exec (.preTriggerFull e) s = .next s)
      ∧ (k.writing = true → t ≤ s.now → k.lat.pre ≤ k.count → ∃ r, exec (.preTriggerFull e) s = .next (s.setEngine e.val { k with
        st := .waiting, det := { k.det with ref := some r } })))
  ∧ (∀ (e : Nat) (s : State), ((∀ t, (s.engine e).evAt = some t → s.now < t) → raiseCapture e s = s)
    ∧ ∀ t, (s.engine e).evAt = some t → t ≤ s.now →
      raiseCapture e s = raiseEp (s.ep 8 e 0) (s.setEngine e { s.engine e with evAt := none }))
  ∧ (∀ (e idx : Nat) (instant label : Int) (forced : Bool) (s : State),
    let k := s.engine e
    let p : Int := s.sampleTicks e k.lat
    let back := (fineTick label - instant + fineTick p - 1) / fineTick p
    let ts := (idx : Int) - back
    let comp := if ts < 0 then 0 else ts.toNat + (if fineTick (label - back * p) = instant then 0 else 1)
    let at_ := label - (idx - comp : Nat) * p
    let new : Trig := { instant, stamp := s.fineStamp instant, idx := ts.toNat, label := label - back * p, word := at_ / 16, forced }
    let ev := some (k.eventTick s.now instant at_)
    (k.st = .filling ∨ k.st = .waiting ∧ (ts < 0 ∨ comp < k.lat.pre) →
      trigger e instant forced idx label s = s.setEngine e { k with early := k.early.bump })
    ∧ (k.st = .waiting → 0 ≤ ts → k.lat.pre ≤ comp → trigger e instant forced idx label s = raiseCapture e (s.setEngine e { k with
      st := .capturing, trig := some new, evAt := ev, forced := if forced = true then k.forced.bump else k.forced }))
    ∧ (∀ t, k.st = .capturing → k.trig = some t → instant < t.instant → t.word = at_ / 16 → 0 ≤ ts →
      trigger e instant forced idx label s = raiseCapture e (s.setEngine e { k with
        st := .capturing, trig := some new, evAt := if k.evAt.isSome = true then ev else none, busyIgn := k.busyIgn.bump
        forced := if forced = true ∧ t.forced = false then k.forced.bump else k.forced }))
    ∧ (∀ t, k.st = .capturing → k.trig = some t → t.instant ≤ instant ∨ t.word ≠ at_ / 16 ∨ ts < 0 →
      trigger e instant forced idx label s = s.setEngine e { k with busyIgn := k.busyIgn.bump })
    ∧ (k.st = .rearming → trigger e instant forced idx label s = s.setEngine e { k with rearmIgn := k.rearmIgn.bump })
    ∧ (k.st = .idle ∨ k.st = .primed ∨ k.st = .done → trigger e instant forced idx label s = s))
  ∧ (∀ (e idx : Nat) (label t : Int) (rest : List (Int × Option Bool)) (s : State),
    let k := s.engine e
    (k.edges = [] → takeEdges e idx label 1 s = s)
    ∧ (∀ dir, k.edges = (t, dir) :: rest → fineTick label < t → takeEdges e idx label 1 s = s)
    ∧ (k.edges = (t, none) :: rest → t ≤ fineTick label →
      takeEdges e idx label 1 s = trigger e t true idx label (s.setEngine e { k with edges := rest })))
  ∧ (∀ (e : Fin 16) (xs : List Int) (s : State),
    let fed (s : State) : State :=
      if s.isOn (inDom e.val) = true then each (convert e.val) (xs.take (s.now + 1 - (s.acqPort e.val).conv)) s else s
    let x := s.ep 8 e.val 2
    let u := consume x s
    let k := s.engine e.val
    exec (.triggerAccept e xs) s = .next (engineSettle e.val (fed s))
    ∧ (s.present x = none → exec (.forceTrigger e xs) s = .next (engineSettle e.val (fed s)))
    ∧ ∀ t, s.present x = some t → (k.st = .idle ∨ k.st = .done ∨ k.st = .primed → exec (.forceTrigger e xs) s =
        .next (engineSettle e.val (fed (u.setEngine e.val k))))
      ∧ (k.st ≠ .idle → k.st ≠ .done → k.st ≠ .primed → exec (.forceTrigger e xs) s =
        .next (engineSettle e.val (fed (u.setEngine e.val { k with edges := k.edges ++ [(fineTick t, none)] })))))
  ∧ (∀ (e : Fin 16) (xs : List Int) (s : State),
    let u := feed e.val xs s
    let k := u.engine e.val
    (k.st ≠ .capturing → exec (.captureComplete e xs) s = .next u)
    ∧ ∀ t, k.st = .capturing → k.trig = some t →
      let last := t.label + ((t.idx + k.lat.post : Nat) - 1 - (t.idx : Int)) * (u.sampleTicks e.val k.lat : Int)
      let edge := (last / 16 + 1) * 16
      (k.count < t.idx + k.lat.post ∨ (u.now : Int) < edge → exec (.captureComplete e xs) s = .next u)
      ∧ (t.idx + k.lat.post ≤ k.count → edge ≤ u.now → ∃ v, exec (.captureComplete e xs) s = .next v
        ∧ (v.engine e.val).st = .rearming ∧ (v.engine e.val).captures = k.captures.bump
        ∧ (v.engine e.val).rearmAt = edge.toNat + 1024 ∧ (v.engine e.val).seq = (k.seq + 1) % 65536
        ∧ (v.engine e.val).seg = k.seg ∧ v.burins = u.burins ∧ v.chans = u.chans))
  ∧ (∀ (e : Fin 16) (s : State), (s.engine e.val).owed = [] →
    let k := s.engine e.val
    let begin_ := if k.freed ≤ k.rearmAt then k.rearmAt else (k.freed + 15) / 16 * 16
    (k.st ≠ .rearming ∨ s.now < begin_ → exec (.rearmEnd e) s = .next s)
    ∧ (k.st = .rearming → begin_ ≤ s.now → k.lat.nseg ≤ k.seg + 1 → exec (.rearmEnd e) s = .next (s.setEngine e.val { k with
      st := .done, seg := k.seg + 1, writing := false, writeAt := none, trig := none, edges := [], overs := [], aligned := none, det := {} }))
    ∧ (k.st = .rearming → begin_ ≤ s.now → k.seg + 1 < k.lat.nseg → exec (.rearmEnd e) s = .next (s.setEngine e.val { k with
      st := .filling, seg := k.seg + 1, writing := false, writeAt := some begin_, count := 0, overs := [], aligned := none, trig := none })))
  ∧ (∀ (seg rep tick : Nat) (s : State),
    let m := s.mark
    beginRep seg rep tick s = { s with mark := { m with
      gen := .playing, seg, rep, segStart := tick, done := 0, upTo := 4 * (tick : Int), segments := m.segments.bump
      trigDue := m.trigDue ++ (List.range 32).filter (tget {} m.segs seg).trig.testBit } })
  ∧ (∀ s : State, raiseTrigs s =
    each (fun k x => raiseEp (x.ep 6 k 0) x) s.mark.trigDue { s with mark := { s.mark with trigDue := [] } })
  ∧ (∀ s : State,
    let m := s.mark
    (∀ t, m.gen = .armed t → exec .playbackStart s = .next (if s.now < t then s else
      beginRep m.first 0 t { s with mark := { m with
        named := false, synced := false, stopping := m.stopping.map fun b => max b (t / 16 * 16 + 16) } }))
    ∧ (∀ t, m.gen = .shot → m.shotAt = some t → exec .playbackStart s = .next (beginRep m.first 0 t { s with mark := { m with shotAt := none } }))
    ∧ (∀ t, m.gen = .playing → m.shotAt = some t → ∃ u, u = { s with mark := advanceMarks t m }
      ∧ exec .playbackStart s = .next (beginRep u.mark.first 0 t { u with mark := { u.mark with shotAt := none, cuts := u.mark.cuts.bump } }))
    ∧ ((m.gen = .shot ∨ m.gen = .playing) → m.shotAt = none → exec .playbackStart s = .next s)
    ∧ (∀ d, m.gen = .sync d → exec .playbackStart s = .next s)
    ∧ (m.gen = .idle → exec .playbackStart s = .next s ∧ exec .markerSegmentStart s = .next s ∧ exec .playbackEnd s = .next s))
  ∧ (∀ s : State, s.mark.gen = .playing →
    let m := s.mark
    let g := tget {} m.segs m.seg
    let fin := m.segStart + 16 * g.len
    let u : State := { s with mark := advanceMarks fin m }
    let stopAt (t : Nat) : State :=
      let v := patternIdle (genIdle { s with mark := advanceMarks t m })
      { v with mark := { v.mark with root := none } }
    (s.now < fin → exec .markerSegmentStart s = .next s ∧ (m.stopping = none → exec .playbackEnd s = .next s))
    ∧ (∀ t, m.stopping = some t → t ≤ fin → exec .markerSegmentStart s = .next s
      ∧ exec .playbackEnd s = .next (if s.now < t then s else stopAt t))
    ∧ (fin ≤ s.now → (∀ t, m.stopping = some t → fin < t) →
      (m.rep < g.rep → exec .markerSegmentStart s = .next (beginRep m.seg (m.rep + 1) fin u) ∧ exec .playbackEnd s = .next s)
      ∧ (g.rep ≤ m.rep → g.last = false → (tget {} m.segs g.next).len ≠ 0 →
        exec .markerSegmentStart s = .next (beginRep g.next 0 fin u) ∧ exec .playbackEnd s = .next s)
      ∧ (g.rep ≤ m.rep → g.last = true ∨ (tget {} m.segs g.next).len = 0 → exec .markerSegmentStart s = .next s
        ∧ ∀ t, m.stopping = some t → exec .playbackEnd s = .next (stopAt fin))
      ∧ (g.rep ≤ m.rep → g.last = true → m.stopping = none → exec .playbackEnd s = .next (endPlayback u))
      ∧ (g.rep ≤ m.rep → g.last = false → (tget {} m.segs g.next).len = 0 → m.stopping = none →
        ∃ v, exec .playbackEnd s = .next (endPlayback v) ∧ v.mark.missing = u.mark.missing.bump ∧ v.mark.outs = u.mark.outs)))
  ∧ (∀ s : State, endPlayback s = if s.mark.shotSrc = true then { s with mark := { s.mark with gen := .shot } } else genIdle s)
  ∧ (∀ (k : Fin 32) (s : State), (tget {} s.mark.outs k.val).pulseEnd = none → exec (.followPulseEnd k) s = .next s)
  ∧ (∀ (k : Fin 32) (t : Nat) (s : State), (tget {} s.mark.outs k.val).pulseEnd = some t →
    (s.now < t + 120 → exec (.followPulseEnd k) s = .next s)
    ∧ (t + 120 ≤ s.now → ∃ v, exec (.followPulseEnd k) s = .next v ∧ (tget {} v.mark.outs k.val).pulseEnd = none
      ∧ (tget {} v.mark.outs k.val).pulseRoot = none ∧ v.burins = s.burins ∧ v.ports = s.ports
      ∧ ∀ j, j ≠ k.val → tget {} v.mark.outs j = tget {} s.mark.outs j))
  ∧ (∀ (n : Fin 64) (s : State),
    let e := s.elem 0 n.val
    let after : Elem := { e with
      next := e.next + e.period, left := e.left.map (· - 1), active := e.active && (e.high || decide (e.left ≠ some 1)) }
    (e.active = false ∨ e.left = some 0 ∨ s.now < e.next → exec (.timerEvent n) s = .next s)
    ∧ (e.active = true → e.left ≠ some 0 → e.next ≤ s.now → exec (.timerEvent n) s =
      .next (if s.elemRuns e = true then raiseEp (s.ep 9 n.val 0) (s.setElem 0 n.val after) else s.setElem 0 n.val after)))
  ∧ (∀ (el k : Nat) (s : State),
    let e := s.elem el k
    let next : Elem := { e with next := e.next + e.period, left := e.left.map (· - 1) }
    (e.active = false → elemEdge el k s = s)
    ∧ (e.active = true → e.high = true → elemEdge el k s =
      if e.highEnd ≤ s.now then s.setElem el k { e with high := false, active := decide (e.left ≠ some 0) } else s)
    ∧ (e.active = true → e.high = false → e.left = some 0 ∨ s.now < e.next → elemEdge el k s = s)
    ∧ (e.active = true → e.high = false → e.left ≠ some 0 → e.next ≤ s.now → elemEdge el k s = s.setElem el k
      (if s.elemRuns e = true ∧ (el = 2 → s.devFault.codes = []) then { next with high := true, highEnd := e.next + e.len }
        else { next with active := decide (e.left ≠ some 1) })))
  ∧ (∀ (n : Fin 16) (s : State), exec (.windowEdge n) s = .next (elemEdge 1 n.val s))
  ∧ (∀ (n : Fin 4) (s : State), exec (.timeOutPulse n) s = .next (elemEdge 2 n.val s))

/-- Timing inputs, stamps, gates, PTP and reference domains, losses and holdover. An edge at TRIG_IN sets the pin's
level and raises its event at the next word; a REFCLK edge that samples SYNC_IN high, with the reference present, arms
what waits for it, and raises the event where it was low before. A channel locks where its domain is On and a
reference is there, and each core calibrates in its turn. A stamp is taken by the lowest core that is neither busy nor
calibrating, as the tick edge less the vernier interval of R352, and goes to the engines that trigger on its pin; with
none the edge is merged, unlocked it is not stamped. A gate that has ended writes its record and the next opens there.
A PTP message that the domain does not hear does nothing, one malformed or outside R336 is rejected and counted. SYNC
and FOLLOW_UP of the followed master measure origin + path + asymmetry − reception; DELAY_REQ, when due, and
DELAY_RESP give the path; the masters heard stay in the order of R336, the first followed; a PPS edge measures against
the nearest second, rejected when more than 100 ns off, and the third missing or rejected in a row loses the domain. A
lost domain, if device time followed it, hands over to the other that tracks or begins holdover toward its last rate;
the steering moves by SLEWACC at most; AUTO reverts to A after 60 s; beyond HLIMIT the holdover doubt latches. (R329,
R332, R335, R336, R338, R342, R343, R344, R351, R352, R353, R358) -/
def Obligations.TimingEvents : Prop :=
  (∀ (pin : Fin 8) (rising : Bool) (s : State), exec (.trigInEdge pin rising) s = .next { s with sys := { s.sys with
    trigPins := tset false s.sys.trigPins pin.val rising, trigDue := s.sys.trigDue ++ [(s.now / 16 * 16 + 16, pin.val, rising)] } })
  ∧ (∀ s : State, ((∀ e ∈ s.sys.trigDue, s.now < e.1) → trigEvents s = s)
    ∧ ∀ t pin rising, s.sys.trigDue = [(t, pin, rising)] → t ≤ s.now → trigEvents s =
      raiseEp (s.ep 7 pin (if rising = true then 0 else 1)) { s with sys := { s.sys with trigDue := [] } })
  ∧ (∀ s : State, s.sys.refclk = false → exec .syncInEdge s = .next s)
  ∧ (∀ s : State, s.sys.refclk = true → ∃ t, exec .syncInEdge s = .next t
    ∧ (∀ d, s.stamps 1 = true → s.alignArm = some (.sync d) → t.alignArm = some (.at (s.now + d) false))
    ∧ (s.stamps 1 = false ∨ (∀ d, s.alignArm ≠ some (.sync d)) → t.alignArm = s.alignArm)
    ∧ (∀ d, s.stamps 1 = true → s.mark.gen = .sync d → t.mark = { s.mark with gen := .armed (s.now + d), synced := true })
    ∧ (s.stamps 1 = false ∨ (∀ d, s.mark.gen ≠ .sync d) → t.mark = s.mark) ∧ t.sys.syncHigh = some s.now
    ∧ ((∀ h, s.sys.syncHigh = some h → h + 300 ≤ s.now) → t.chans = (raiseEp (s.ep 10 0 0) s).chans)
    ∧ (∀ h, s.sys.syncHigh = some h → s.now < h + 300 → t.chans = s.chans) ∧ t.burins = s.burins)
  ∧ (∀ (chan : Fin 3) (s : State), exec (.loopLock chan) s = .next (if s.isOn (stampDom chan.val) = true ∧ s.sys.refclk = true then
    s.setStampChan chan.val { s.stampChan chan.val with locked := true } else s))
  ∧ (∀ (chan : Fin 3) (core : Fin 5) (hits : List Nat) (s : State),
    let c := s.stampChan chan.val
    exec (.coreCalibration chan core hits) s = .next (if s.isOn (stampDom chan.val) = true ∧ c.locked = true ∧ c.calCore = core.val ∧ hits.sum = 65536 then
      s.setStampChan chan.val { c with w := tset [] c.w core.val hits, cald := c.cald ||| 2 ^ core.val, calCore := (core.val + 1) % 5 } else s))
  ∧ (∀ (src : Fin 11) (falling : Bool) (c2 n : Nat) (s : State),
    let ch := if src.val < 8 then 0 else 1
    let c := s.stampChan ch
    let idle (k : Nat) : Prop := k ≠ c.calCore ∧ tget 0 c.busy k ≤ c2
    (s.stamps ch = false → exec (.stamp src falling c2 n) s = .next (unstamped src.val c2 s))
    ∧ (s.stamps ch = true → (∀ k, k < 5 → ¬idle k) → exec (.stamp src falling c2 n) s = .next (mergeEdge src.val c2 s))
    ∧ ∀ k, s.stamps ch = true → k < 5 → idle k → (∀ j, j < k → ¬idle j) →
      let ps : Int := (c2 * 50 : Nat) - ((min n 50 + (50 * ((tget [] c.w k).take (n - 50)).sum + 32768) / 65536 : Nat) : Int)
      let u := s.setStampChan ch { c with busy := tset 0 c.busy k (c2 + (51 * n + 49) / 50 + 30) }
      exec (.stamp src falling c2 n) s = .next (each (tiuTake src.val falling ps) (List.range 4)
        (if src.val < 8 then pinEdge src.val (!falling) ps u else u)))
  ∧ (∀ (src e : Nat) (falling : Bool) (ps : Int) (s : State),
    let k := s.tiuEng e
    let fits := k.set.edge = 2 ∨ k.set.edge = 0 ∧ falling = false ∨ k.set.edge = 1 ∧ falling = true
    (k.running = false ∨ (ps / 50).toNat < k.gateOpen → tiuTake src falling ps e s = s)
    ∧ (k.running = true → fits → k.gateOpen ≤ (ps / 50).toNat → k.set.mode = 1 →
      tiuTake src falling ps e s = if k.set.srca = src then stampRecord e src falling ps s else s)
    ∧ (k.running = true → fits → k.gateOpen ≤ (ps / 50).toNat → (ps / 50).toNat < k.gateOpen + k.set.gate → k.set.mode = 3 →
      tiuTake src falling ps e s = if k.set.srca ≠ src then s else s.setTiuEng e
        (if 0 < k.skip then { k with skip := k.skip - 1 } else { k with vals := ps :: k.vals, skip := k.set.div - 1 })))
  ∧ (∀ (e : Fin 4) (s : State),
    let k := s.tiuEng e.val
    let gated := k.running = true ∧ (k.set.mode = 2 ∨ k.set.mode = 3) ∧ k.gateOpen + k.set.gate ≤ s.now
    (¬gated → exec (.gateEnd e) s = .next s)
    ∧ (gated → ∃ t, exec (.gateEnd e) s = .next t ∧ (t.tiuEng e.val).gateOpen = k.gateOpen + k.set.gate ∧ (t.tiuEng e.val).vals = []
      ∧ (t.tiuEng e.val).gatesLeft = k.gatesLeft.map (· - 1) ∧ ((t.tiuEng e.val).running = true ↔ k.gatesLeft.map (· - 1) ≠ some 0)
      ∧ (t.tiuEng e.val).seq = (k.seq + 1) % 65536 ∧ (s.gateRec e.val).length = 32
      ∧ ((t.tiuEng e.val).loss = true ↔ ringPut k.set.ring (s.gateRec e.val) none s = none)))
  ∧ (∀ (h : PtpHdr) (s : State), (s.ptpHears h = true ↔ h.dom < 2 ∧ (s.tdom h.dom).set.source = 1 ∧ s.isOn 3 = true ∧ s.timePort.up = true
      ∧ (s.tdom h.dom).set.ptpdom = h.number ∧ ((s.tdom h.dom).set.transport = 1 ↔ h.udp = true))
    ∧ (s.ptpOk h = true ↔ h.wellFormed = true ∧ h.version = 2 ∧ (h.minor = 1 ∨ h.minor = 0 ∧ (s.tdom h.dom).set.profile = 1)))
  ∧ (∀ (h : PtpHdr) (f : State → State) (s : State), (s.ptpHears h = false → ptpTake h f s = s)
    ∧ (s.ptpHears h = true → s.ptpOk h = false → ptpTake h f s = { s with time := { s.time with rejects := s.time.rejects.bump } })
    ∧ (s.ptpHears h = true → s.ptpOk h = true → ptpTake h f s = f s))
  ∧ (∀ (h : PtpHdr) (s : State), s.ptpHears h = false ∨ s.ptpOk h = false →
    let u := if s.ptpHears h = true then { s with time := { s.time with rejects := s.time.rejects.bump } } else s
    (∀ seq two l1 rx origin, exec (.sync ⟨h, seq, two, l1, rx, origin⟩) s = .next u)
    ∧ (∀ seq t, exec (.followUp h seq t) s = .next u ∧ exec (.delayResp h seq t) s = .next u)
    ∧ ∀ g rank utc valid dl sy, exec (.announce h g rank utc valid dl sy) s = .next u)
  ∧ (∀ (h : PtpHdr) (seq : Nat) (two l1 : Bool) (rx origin : Int) (s : State), s.ptpHears h = true → s.ptpOk h = true →
    let d := { s.tdom h.dom with noL1 := (s.tdom h.dom).set.profile == 0 && !l1 }
    (s.ptpMaster h = false ∨ s.stamps 2 = false → exec (.sync ⟨h, seq, two, l1, rx, origin⟩) s = .next s)
    ∧ (s.ptpMaster h = true → s.stamps 2 = true → two = true → exec (.sync ⟨h, seq, two, l1, rx, origin⟩) s =
      .next (s.setTdom h.dom { d with syncWait := some (seq, rx) }))
    ∧ (s.ptpMaster h = true → s.stamps 2 = true → two = false → exec (.sync ⟨h, seq, two, l1, rx, origin⟩) s =
      .next (measure h.dom (origin + d.path + d.set.delay - rx) false
        (s.setTdom h.dom { d with lastSync := some (origin, rx), syncWait := none }))))
  ∧ (∀ (h : PtpHdr) (seq : Nat) (origin : Int) (s : State), s.ptpHears h = true → s.ptpOk h = true →
    let d := s.tdom h.dom
    (s.ptpMaster h = false ∨ (∀ rx, d.syncWait ≠ some (seq, rx)) → exec (.followUp h seq origin) s = .next s)
    ∧ ∀ rx, s.ptpMaster h = true → d.syncWait = some (seq, rx) → exec (.followUp h seq origin) s =
      .next (measure h.dom (origin + d.path + d.set.delay - rx) false
        (s.setTdom h.dom { d with lastSync := some (origin, rx), syncWait := none })))
  ∧ (∀ (dom : Fin 2) (s : State),
    let d := s.tdom dom.val
    let due := d.lastSync ≠ none ∧ ∃ m l, d.masters = m :: l ∧ ∀ t, d.delayAt = some t → t + m.delayTicks ≤ s.now
    (s.ptpUp dom.val = false ∨ s.stamps 2 = false ∨ ¬due → exec (.delayReq dom) s = .next s)
    ∧ (s.ptpUp dom.val = true → s.stamps 2 = true → due → ∃ v : Int, 0 ≤ v ∧ v < 50 ∧ exec (.delayReq dom) s =
      .next ({ s with free := s.free + 1 }.setTdom dom.val { d with
        delaySeq := (d.delaySeq + 1) % 65536, delayAt := some s.now, delayTx := some ((s.devTicks : Int) * 50 + v) })))
  ∧ (∀ (h : PtpHdr) (seq : Nat) (t4 : Int) (s : State), s.ptpHears h = true → s.ptpOk h = true →
    let d := s.tdom h.dom
    (s.ptpMaster h = false ∨ d.delayTx = none ∨ d.lastSync = none ∨ d.delaySeq ≠ seq → exec (.delayResp h seq t4) s = .next s)
    ∧ ∀ t1 t2 t3, s.ptpMaster h = true → d.delayTx = some t3 → d.lastSync = some (t1, t2) → d.delaySeq = seq →
      exec (.delayResp h seq t4) s = .next (s.setTdom h.dom { d with delayTx := none, path := ((t2 - t1) + (t4 - t3)) / 2 }))
  ∧ (∀ (h : PtpHdr) (g : Nat) (r : PtpRank) (utc : Int) (valid : Bool) (dl sy : Int) (s : State), s.ptpHears h = true → s.ptpOk h = true →
    let d := s.tdom h.dom
    let inRange := -7 ≤ sy ∧ sy ≤ 1 ∧ -7 ≤ dl ∧ dl ≤ 7
    let m : PtpMaster :=
      { source := h.source, rank := [r.priority1, r.clockClass, r.accuracy, r.variance, r.priority2, g, r.steps, h.source]
        utc := if valid = true then some utc else none, delayInt := dl }
    let l := insertMaster m (d.masters.filter fun x => x.source != h.source)
    let same := (l.head?.map PtpMaster.source) = d.masters.head?.map PtpMaster.source
    (¬inRange → exec (.announce h g r utc valid dl sy) s = .next { s with time := { s.time with rejects := s.time.rejects.bump } })
    ∧ (inRange → same → exec (.announce h g r utc valid dl sy) s = .next (s.setTdom h.dom { d with masters := l }))
    ∧ (inRange → ¬same → exec (.announce h g r utc valid dl sy) s = .next (s.setTdom h.dom { d with
      masters := l, syncWait := none, lastSync := none, delayTx := none, delayAt := none })))
  ∧ (∀ (m : PtpMaster) (l : List PtpMaster), (∀ x, x ∈ insertMaster m l ↔ x = m ∨ x ∈ l)
    ∧ (l.Pairwise (fun a b => lexLt b.rank a.rank = false) → (insertMaster m l).Pairwise fun a b => lexLt b.rank a.rank = false))
  ∧ (∀ (dom : Fin 2) (ps : Int) (s : State),
    let k := dom.val
    let d := s.tdom k
    let x := ps - d.set.delay
    let off := (x + 500000000000) / 1000000000000 * 1000000000000 - x
    let missed := match d.lastPps with | some t => (s.now - t + 10000000000) / 20000000000 - 1 | none => 0
    let u := badEdges k missed (s.setTdom k { d with lastPps := some s.now })
    let far := (u.tdom k).meas ≠ [] ∧ 100000 < (off - (u.tdom k).off).natAbs
    let seen := d.set.source = 2 ∧ s.sys.refclk = true ∧ s.stamps 1 = true
    (¬seen → exec (.ppsEdge dom ps) s = .next s)
    ∧ (seen → ¬far → exec (.ppsEdge dom ps) s =
      .next (measure k off (decide (u.time.st = .unset)) (u.setTdom k { u.tdom k with badPps := 0 })))
    ∧ (seen → far → exec (.ppsEdge dom ps) s =
      .next (badEdges k 1 { u with time := { u.time with rejects := u.time.rejects.bump } })))
  ∧ (∀ (dom : Fin 2) (n : Nat) (s : State),
    let k := dom.val
    let d := s.tdom k
    (d.badPps + n < 3 → badEdges k n s = s.setTdom k { d with badPps := d.badPps + n })
    ∧ (3 ≤ d.badPps + n → badEdges k n s = loseDom k (fun d => { d with missing := true }) (s.setTdom k { d with badPps := 0 })))
  ∧ (∀ (k : Fin 2) (off : Int) (s : State),
    let d := s.tdom k.val
    let l := (((s.now : Int), off) :: d.meas).take 16
    (d.st = .disabled → measure k.val off false s = s)
    ∧ (d.st = .acquiring → l.length < 16 → (rateOf l).natAbs ≤ 100000000000 → measure k.val off false s = s.setTdom k.val { d with
      meas := l, off, y := rateOf l, missing := false, loop := false, range_ := false }))
  ∧ (∀ (dom : Fin 2) (s : State),
    let heard := (s.tdom dom.val).set.source = 3 ∧ s.now < (s.tdom dom.val).exchAt + 20000 * 10000
    (heard → exec (.domainLoss dom) s = .next s)
    ∧ (¬heard → exec (.domainLoss dom) s = .next (loseDom dom.val (fun d => { d with missing := d.set.source == 2 })
      (s.setTdom dom.val ((s.tdom dom.val).follow (s.tdom dom.val).masters.tail)))))
  ∧ (∀ (dom : Fin 2) (f : TimeDom → TimeDom) (s : State),
    let k := dom.val
    let d := s.tdom k
    let o := s.tdom (1 - k)
    let d' := f { d with st := .lost, meas := [] }
    let followed := s.time.sel = k ∧ s.time.st = .tracking
    let other := s.time.servo.selmode = 1 ∧ o.st = .tracking ∧ o.far = false
    (d.st = .disabled ∨ d.st = .lost → loseDom k f s = s)
    ∧ (d.st ≠ .disabled → d.st ≠ .lost → ¬followed → loseDom k f s = s.setTdom k d')
    ∧ (d.st ≠ .disabled → d.st ≠ .lost → followed → other → loseDom k f s = selectDom (1 - k) (s.setTdom k d'))
    ∧ (d.st ≠ .disabled → d.st ≠ .lost → followed → ¬other → loseDom k f s = holdover d' (s.setTdom k d')))
  ∧ (∀ (d : TimeDom) (s : State), ∃ e0 sy : Int, (d.off.natAbs : Int) ≤ e0 ∧ 0 ≤ sy ∧ holdover d s = { s with free := s.free + 2, time := { s.time with
    steer := s.time.steerNow s.now, steerAt := s.now, steerTo := max (-100000000000) (min 100000000000 d.y)
    st := .holdover, slewing := false, holdMs := 0, holdAt := s.now, herr := 0, e0 := e0, sigmaY := sy } })
  ∧ (∀ (t : TimeKeeper) (now : Nat),
    (t.steerNow now - t.steer).natAbs ≤ t.servo.slewacc * 10 * (now - t.steerAt) / 20000000
    ∧ ((t.steerTo - t.steer).natAbs ≤ t.servo.slewacc * 10 * (now - t.steerAt) / 20000000 → t.steerNow now = t.steerTo))
  ∧ (∀ s : State, s.time.servo.selmode = 1 ∧ s.time.servo.revert = 1 ∧ s.time.sel = 1 ∧ s.time.domA.st = .tracking ∧ s.time.domA.far = false
      ∧ s.time.domA.trackSince + 60 * 20000000000 ≤ s.now → exec .revert s = .next (selectDom 0 s))
  ∧ (∀ s : State, s.time.servo.selmode ≠ 1 ∨ s.time.servo.revert ≠ 1 ∨ s.time.sel ≠ 1 ∨ s.time.domA.st ≠ .tracking ∨ s.time.domA.far = true
      ∨ s.now < s.time.domA.trackSince + 60 * 20000000000 → exec .revert s = .next s)
  ∧ (∀ (k : Nat) (s : State), ∃ t, selectDom k s = t ∧ t.time.sel = k ∧ t.time.st = .tracking ∧ t.time.holdMs = 0 ∧ t.time.herr = 0
    ∧ (t.time.switches = if s.time.sel ≠ k ∧ s.time.sel ≠ 0xFF then s.time.switches.bump else s.time.switches)
    ∧ t.now = s.now ∧ t.devTicks = s.devTicks ∧ t.tiu = s.tiu)
  ∧ (∀ s : State, s.time.st ≠ .holdover ∨ s.now < s.time.holdAt + 20000 * 1000 → exec .holdoverEvaluation s = .next s)
  ∧ ∀ s : State, s.time.st = .holdover → s.time.holdAt + 20000 * 1000 ≤ s.now →
    let ms : Int := (s.time.holdMs + 1 : Nat)
    let e : Int := s.time.e0 * 2000000000 + s.time.sigmaY * ms * 2000 + (s.time.servo.hwander : Int) * ms * ms
    let t := { s.time with holdMs := s.time.holdMs + 1, holdAt := s.time.holdAt + 20000 * 1000, herr := ((e + 1000000000) / 2000000000).toNat }
    let over_ := t.servo.hlimit ≠ 0 ∧ (t.servo.hlimit : Int) * 2000000000 < e ∧ t.holdLatch = false
    (¬over_ → exec .holdoverEvaluation s = .next { s with time := t })
    ∧ (over_ → exec .holdoverEvaluation s = .next (doubtDevice 7 (le 4 t.herr ++ le 4 (t.holdMs / 1000) ++ pad 24)
      (setSum 8 { s with time := { t with holdLatch := true } })))

/-- Training and loss of a link, its rows without frames, and the time port. A port trains where PD03 is On, it is
enabled and in no loopback. Signal takes it from DETECT to LOCK; each lane locks once; a training set on a locked lane
teaches it lane numbers, polarity, the peer and its advertised credits, and takes it from LOCK to CONFIG once lane 0
or 3 has locked; with every lane in use acknowledged and configured it goes to SPEED where both ends support
generation 2, else to ACTIVE with the common features and the peer's credits, unless both ends carry one number, which
shows. A timeout returns it to DETECT. A training set or a loss in ACTIVE takes the port down: counted, flagged,
crossing channels cut, phases ended, its LINK domains lost, spanning roots in doubt. In ACTIVE, ALIGN and IDLE rows
and link blocks join what goes out, the latter returning at most 63 credits a lane. The time port alternates its two
codings until one comes up, answers ARP for its address, counts other frames, and retrains when it goes down, its PTP
domains lost. Each does nothing elsewhere. (R360, R362, R367, R369, R370, R371, R372, R378, R383, R387, R546,
15_serial_lanes.md) -/
def Obligations.LinkTraining : Prop :=
  (∀ (p : JvlPort) (lane : Fin 4) (s : State),
    let j := s.jport p.val
    let on := s.isOn 3 = true ∧ j.enabled = true ∧ j.loopback = 0
    (¬on ∨ j.st ≠ .detect → exec (.signalDetect p lane) s = .next s)
    ∧ (on → j.st = .detect → exec (.signalDetect p lane) s = .next (s.setJport p.val { j.clear with st := .lock, since := s.now }))
    ∧ (¬on ∨ lane.val ∈ j.lockedLanes ∨ j.st = .disabled ∨ j.st = .detect ∨ j.st = .active → exec (.blockLock p lane) s = .next s)
    ∧ (on → lane.val ∉ j.lockedLanes → j.st = .lock ∨ j.st = .config ∨ j.st = .speed → exec (.blockLock p lane) s =
      .next (s.setJport p.val { j with lockedLanes := j.lockedLanes ++ [lane.val] })))
  ∧ (∀ j : Jvl, ∃ k, j.clear = k ∧ k.p = {} ∧ k.q = {} ∧ k.credits = j.advert ∧ k.txq = [] ∧ k.freed = [] ∧ k.lockedLanes = []
    ∧ k.laneIds = [] ∧ k.acks = [] ∧ k.cfgs = [] ∧ k.idRun = [] ∧ k.lanes = 0 ∧ k.feat = 0 ∧ k.gen = 1 ∧ k.enabled = j.enabled ∧ k.st = j.st)
  ∧ (∀ (j : Jvl) (lane l port dev gens feat st : Nat) (inv ack dnv : Bool), ∃ k, j.learn lane inv (.tsId l port dev gens feat st ack dnv) = k
    ∧ (lane, l) ∈ k.laneIds ∧ (∀ e ∈ j.laneIds, e.1 ≠ lane → e ∈ k.laneIds) ∧ k.peerDev = dev ∧ k.peerDnv = dnv ∧ k.peerGens = gens
    ∧ k.peerFeat = feat ∧ (lane ∈ k.acks ↔ ack = true ∨ lane ∈ j.acks) ∧ (inv = true → k.polarity = j.polarity ||| 2 ^ lane) ∧ k.st = j.st
    ∧ tget (none, 0) k.idRun lane = (some (.tsId l port dev gens feat st ack dnv),
      if (tget (none, 0) j.idRun lane).1 = some (.tsId l port dev gens feat st ack dnv) then (tget (none, 0) j.idRun lane).2 + 1 else 1))
  ∧ (∀ (j : Jvl) (lane a b c d : Nat) (inv : Bool),
    let adv := tset 0 (tset 0 (tset 0 (tset 0 [] 0 a) 1 b) 2 c) 3 d
    j.learn lane inv (.tsCfg a b c d) = { j with
      advert := adv, cfgs := if j.advert = adv then tset 0 j.cfgs lane (tget 0 j.cfgs lane + 1) else tset 0 [] lane 1 })
  ∧ (∀ (p : JvlPort) (lane : Fin 4) (inv : Bool) (ts : TrainSet) (s : State),
    let j := s.jport p.val
    let on := s.isOn 3 = true ∧ j.enabled = true ∧ j.loopback = 0
    let k := j.learn lane.val inv ts
    let st := if j.st = .lock ∧ ∃ e ∈ k.laneIds, e.1 = 0 ∨ e.1 = 3 then .config else j.st
    let clash := s.sys.dnv = true ∧ k.peerDnv = true ∧ k.peerDev = s.sys.devnum
    (¬on → exec (.train p lane inv ts) s = .next s)
    ∧ (on → j.st = .active → exec (.train p lane inv ts) s = .next (portLoss p.val 4 .lock s))
    ∧ (on → j.st ≠ .active → lane.val ∉ j.lockedLanes ∨ j.st = .disabled ∨ j.st = .detect → exec (.train p lane inv ts) s = .next s)
    ∧ (on → j.st = .lock ∨ j.st = .config ∨ j.st = .speed → lane.val ∈ j.lockedLanes →
      let k' := { k with st, since := if st = j.st then j.since else s.now }
      let speeds := k.gen = 1 ∧ k.genMax = 2 ∧ k.peerGens.testBit 1 = true
      (st = .lock ∨ k.configured = false → exec (.train p lane inv ts) s = .next (s.setJport p.val k'))
      ∧ (st ≠ .lock → k.configured = true → clash → ∃ t, exec (.train p lane inv ts) s = .next t ∧ t.jport p.val = k'
        ∧ (∀ q, q ≠ p.val → t.jport q = s.jport q) ∧ t.boot = { s.boot with dupSeen := true, dupPorts := s.boot.dupPorts ||| 2 ^ p.val })
      ∧ (st ≠ .lock → k.configured = true → ¬clash → speeds → ∃ t, exec (.train p lane inv ts) s = .next t ∧ (∀ q, q ≠ p.val → t.jport q = s.jport q)
        ∧ t.jport p.val = { k with st := .speed, since := s.now, gen := 2, lockedLanes := [], laneIds := [], acks := [], cfgs := [] })
      ∧ (st ≠ .lock → k.configured = true → ¬clash → ¬speeds → ∃ t, exec (.train p lane inv ts) s = .next (linkBack p.val t)
        ∧ (∀ q, q ≠ p.val → t.jport q = s.jport q)
        ∧ t.jport p.val = { k with
                                   st := .active, since := s.now, lanes := k.width, reversed := k.isReversed, feat := k.peerFeat &&& 7
                                   p := {}, q := {}, credits := k.advert, freed := [], txq := []
                                   line := { nextQ := k.line.nextQ, scr := k.line.scr } })))
  ∧ (∀ j : Jvl, (j.isReversed = true ↔ j.laneIds ≠ [] ∧ ∀ e ∈ j.laneIds, e.1 + e.2 = 3)
    ∧ ∀ l, l ∈ j.logical ↔ ∃ n, (n, l) ∈ j.laneIds ∧ n ∈ j.lockedLanes ∧ (if j.isReversed = true then n + l = 3 else n = l))
  ∧ (∀ (p : Nat) (s : State),
    let there := (tkeys s.sys.routes).filter fun d => tget 0xFF s.sys.routes d == p
    let away := (tkeys s.sys.routes).filter fun d => tget 0xFF s.sys.routes d != p && !s.reaches d
    (there = [] → away = [] → linkBack p s = s) ∧ (there ≠ [] → away = [] → linkBack p s = tellPeers p (.back there) s))
  ∧ (∀ (p : JvlPort) (s : State),
    let j := s.jport p.val
    let over_ := (j.st = .lock ∧ j.since + 20000 * 11000 ≤ s.now) ∨ (j.st = .config ∧ j.since + 20000 * 12000 ≤ s.now)
      ∨ (j.st = .speed ∧ j.since + 20000 * 14000 ≤ s.now)
    (¬over_ → exec (.trainingTimeout p) s = .next s)
    ∧ (over_ → exec (.trainingTimeout p) s = .next (s.setJport p.val { j.clear with st := .detect, since := s.now })))
  ∧ (∀ (p : JvlPort) (cause : Fin 6) (s : State),
    let j := s.jport p.val
    let comes := cause.val = 1 ∨ cause.val = 2 ∨ cause.val = 4 ∨ (cause.val = 3 ∧ ∃ n ∈ j.p.tried ++ j.q.tried, 8 ≤ n)
    (j.st = .active → comes → exec (.linkLoss p cause) s = .next (portLoss p.val cause.val .lock s))
    ∧ (j.st ≠ .active ∨ ¬comes → exec (.linkLoss p cause) s = .next s))
  ∧ (∀ (p cause : Nat) (after : JvlSt) (s : State),
    let j := s.jport p
    let gone (d : Nat) : Bool := tget 0xFF s.sys.routes d == p
    let u := (s.setJport p { j.clear with st := after, since := s.now, cause }).setJctr p { s.jctr p with retrains := (s.jctr p).retrains.bump }
    (j.st ≠ .active → portLoss p cause after s = s.setJport p { j with st := after, since := s.now })
    ∧ (j.st = .active → portLoss p cause after s = each (fun k s => doubtPlate k 3 (le 1 p ++ le 1 cause ++ le 2 j.peerDev ++ pad 28) s)
      (s.spanRoots.filter fun k => (s.remoteDevs k).any gone) (tellLost p ((tkeys s.sys.routes).filter gone) (forgetCut gone
        (loseSources (fun a => a.source == 3 && a.port == p) id
          (cutPhases gone (each cutChan ((s.chans.filter fun e => s.crosses p e.2).map Prod.fst) (setSum 7 u))))))))
  ∧ (∀ (ch : Nat) (s : State), ∃ t, cutChan ch s = t ∧ (t.chan ch).ovfFlag = true ∧ (t.chan ch).cut = true ∧ (t.chan ch).con = []
    ∧ (t.chan ch).inFlight = [] ∧ (t.chan ch).bound = (s.chan ch).bound ∧ t.burins = s.burins)
  ∧ (∀ (p : JvlPort) (s : State),
    let j := s.jport p.val
    let due := 16383 ≤ j.line.sinceAlign ∧ true ∉ j.line.whole
    (j.st ≠ .active → exec (.linkBlockSend p) s = .next s ∧ exec (.alignRowSend p) s = .next s ∧ exec (.idleRowSend p) s = .next s)
    ∧ (j.st = .active →
      exec (.linkBlockSend p) s = .next (s.setJport p.val { j with
        linkBlocks := j.linkBlocks + 1, freed := tmap 0 (fun _ k => k - min k 63) j.freed
        line := { j.line with links := j.line.links ++ [j.linkBlock] }
        p := { j.p with nakSent := j.p.nak }, q := { j.q with nakSent := j.q.nak } })
      ∧ (¬due → exec (.alignRowSend p) s = .next s)
      ∧ (due → exec (.alignRowSend p) s = .next (s.setJport p.val { j with
        alignRows := j.alignRows + 1, line := { j.line with whole := j.line.whole ++ [true] } }))
      ∧ exec (.idleRowSend p) s = .next (s.setJport p.val { j with
        idleRows := j.idleRows + 1, line := { j.line with whole := j.line.whole ++ [false] } })))
  ∧ (∀ (tenG up : Bool) (s : State),
    let t := s.timePort
    let tries := s.isOn 3 = true ∧ t.enabled = true ∧ t.loopback = 0 ∧ t.up = false ∧ t.trying10 = tenG
    (¬tries → exec (.timePortBringup tenG up) s = .next s)
    ∧ (tries → up = true → exec (.timePortBringup tenG up) s = .next { s with timePort := { t with up := true, tenG } })
    ∧ (tries → up = false → tenG = true → s.now < t.tryAt + 20000 * 50000 → exec (.timePortBringup tenG up) s = .next s)
    ∧ (tries → up = false → tenG = false ∨ t.tryAt + 20000 * 50000 ≤ s.now → exec (.timePortBringup tenG up) s =
      .next { s with timePort := { t with trying10 := !tenG, tryAt := s.now } }))
  ∧ ∀ (ip : Nat) (s : State),
    let t := s.timePort
    (t.up = false → exec .timePortDown s = .next s ∧ exec (.arpRequest ip) s = .next s ∧ exec .otherFrame s = .next s)
    ∧ (t.up = true → exec .timePortDown s = .next (loseSources (fun a => a.source == 1) id
        { s with timePort := { t with up := false, trying10 := true, tryAt := s.now, retrains := t.retrains.bump } })
      ∧ exec .otherFrame s = .next { s with timePort := { t with misrouted := t.misrouted.bump } }
      ∧ exec (.arpRequest ip) s = .next (if t.ip = ip then { s with timePort := { t with arpReplies := t.arpReplies + 1 } } else s))

/-- Frames of a link: acceptance and retry, payloads, credits, doubts, times and control. A frame does nothing at a
port that is not ACTIVE; its coding errors are counted; one that is not well formed or whose type the port does not
carry is discarded, counted and asked for again; one out of order is asked for again; the next in order is accepted,
its buffer owed back, and then does what its lane carries. A frame for another device goes on by its route or is
counted misrouted; here a payload spends a credit and reaches its channel or is misrouted, and a credit returns one of
four. BULK for this device does nothing the spec states. DOUBT of a spanning root stops it here. A T_REQ is answered
with a T_RESP, whose departure sends the T_FOLLOW; the departure of a T_REQ is stamped; T_RESP stores the reception;
T_FOLLOW completes the exchange as half the difference, or loses the domain where the peer follows this device. A
CONTROL frame acts as its message says: a question is judged, answered and held, a part applied and confirmed, an
abort or stop ends the part here, a vote or confirmation that nothing waits for does nothing. A link block
acknowledges, has frames sent again and returns credits up to what was advertised. (R138, R142, R277, R339, R374,
R376, R377, R378, R379, R381, R384, R545) -/
def Obligations.LinkFrames : Prop :=
  (∀ (p vl : Nat) (tag : FrameTag) (b : FrameBody) (known : Bool) (f : State → State) (s : State),
    let j := s.jport p
    let r := if vl < 2 then j.p else j.q
    let put (x : Retry) : Jvl := if vl < 2 then { j with p := x } else { j with q := x }
    let u := if codeErrors tag = 0 then s else s.setJctr p { s.jctr p with code := (s.jctr p).code.add (codeErrors tag) }
    let nak := u.setJport p (put { r with nak := true })
    let v := u.setJport p (put { r with rxNext := (r.rxNext + 1) % 4096, nak := false, nakSent := false })
    let owed := tget 0 j.freed vl + 1
    (j.st ≠ .active → recvFrame p vl tag b known f s = s)
    ∧ (j.st = .active → frameOk b tag = false ∨ known = false → recvFrame p vl tag b known f s =
      nak.setJctr p { u.jctr p with crc := (u.jctr p).crc.bump })
    ∧ (j.st = .active → frameOk b tag = true → known = true → frameSeq tag ≠ r.rxNext → recvFrame p vl tag b known f s = nak)
    ∧ (j.st = .active → frameOk b tag = true → known = true → frameSeq tag = r.rxNext → recvFrame p vl tag b known f s =
      f (if ownAdvert vl < owed then v.setJctr p { v.jctr p with credViol := (v.jctr p).credViol.bump }
        else v.setJport p { v.jport p with freed := tset 0 j.freed vl owed })))
  ∧ (∀ (p dest vl : Nat) (b : FrameBody) (s : State),
    (∀ q, s.route dest = some q → relay p dest vl b s = s.setJport q { s.jport q with txq := (s.jport q).txq ++ [{ vl, body := b }] })
    ∧ (s.route dest = none → relay p dest vl b s = s.setJctr p { s.jctr p with misrouted := (s.jctr p).misrouted.bump }))
  ∧ (∀ (p : JvlPort) (tag : FrameTag) (f : HatchFrame) (s : State),
    exec (.hatchData p tag f) s = .next (recvFrame p.val 0 tag (.hatchData f) (!f.w64 || (s.jport p.val).feat.testBit 2) (fun s =>
      let c := s.chan f.channel
      if f.dest ≠ s.sys.devnum then relay p.val f.dest 0 (.hatchData f) s
      else if c.bound = true ∧ c.kind = 2 ∧ s.endsVia c.prods p.val = true ∧ c.wide = f.w64 then
        (if s.linkPort c ≠ some p.val then arrive f.channel f.payload (some p.val) (s.setChan f.channel { c with credits := c.credits - 1 })
        else if c.stormFlag = true ∨ c.ovfFlag = true then creditFrames f.channel 1
          (s.setChCtr f.channel { s.chCtr f.channel with discarded := (s.chCtr f.channel).discarded.bump })
        else inject f.channel 0 f.payload (s.setChan f.channel { c with credits := c.credits - 1 }))
      else misroute p.val s) s)
    ∧ exec (.hatchCredit p tag f) s = .next (recvFrame p.val 0 tag (.hatchCredit f.dest f.channel) true (fun s =>
      let c := s.chan f.channel
      let u := s.setChan f.channel { c with credits := min 4 (c.credits + 1), inFlight := c.inFlight.tail }
      if f.dest ≠ s.sys.devnum then relay p.val f.dest 0 (.hatchCredit f.dest f.channel) s
      else if c.bound = true ∧ c.kind = 2 ∧ s.endsVia c.cons p.val = true then
        (if s.prodFar c = true then creditFrames f.channel 1 u else u)
      else misroute p.val s) s))
  ∧ (∀ (p : JvlPort) (tag : FrameTag) (dest root len : Nat) (s : State),
    exec (.doubt p tag dest root) s = .next (recvFrame p.val 0 tag (.doubt dest root) ((s.jport p.val).feat.testBit 0) (fun s =>
      if dest ≠ s.sys.devnum then relay p.val dest 0 (.doubt dest root) s else remoteDoubt (s.jport p.val).peerDev root s) s)
    ∧ exec (.bulkFrame p tag dest len) s = .next (recvFrame p.val 3 tag (bulkOf dest tag)
      ((s.jport p.val).feat.testBit 0 && frameLen tag == len && decide (1 ≤ len ∧ len ≤ 8))
      (fun s => if dest = s.sys.devnum then s else relay p.val dest 3 (bulkOf dest tag) s) s))
  ∧ (∀ (src root : Nat) (s : State), s.keyOf root ∉ s.spanRoots → remoteDoubt src root s = s)
  ∧ (∀ (src root : Nat) (s : State), s.keyOf root ∈ s.spanRoots → 2 ^ 32 ≤ s.keyOf root →
    remoteDoubt src root s = pump (stopRoot (s.keyOf root) 2 true (setSum 1 (s.modFault (s.keyOf root)
      fun r => r.note 13 s.coarse src (le 2 src ++ pad 30) true))))
  ∧ (∀ (dom : Fin 2) (s : State),
    let d := s.tdom dom.val
    let up := d.set.source = 3 ∧ (s.jport d.set.port).st = .active ∧ (s.jport d.set.port).feat.testBit 1 = true ∧ s.stamps 2 = true
      ∧ ∀ t, d.reqAt = some t → t + 20000 * 1000 ≤ s.now
    (¬up → exec (.tReqSend dom) s = .next s)
    ∧ (up → exec (.tReqSend dom) s = .next (sendFrame d.set.port 1 (.tReq ((d.exch + 1) % 65536))
      (s.setTdom dom.val { d with exch := (d.exch + 1) % 65536, reqAt := some s.now, t1 := none, t2 := none }))))
  ∧ (∀ (p exch : Nat) (ps t2 : Int) (s : State),
    let take (k : Nat) (d : TimeDom) : TimeDom := if s.linkDom k p = true ∧ d.exch = exch then { d with t1 := some ps } else d
    timeDeparts p ps (.tReq exch) s = (s.setTdom 0 (take 0 (s.tdom 0))).setTdom 1 (take 1 (s.tdom 1))
    ∧ timeDeparts p ps (.tResp exch t2) s = sendFrame p 1 (.tFollow exch s.sys.devnum s.timeParent s.hops s.time.st.code ps) s)
  ∧ (∀ (p : JvlPort) (tag : FrameTag) (exch : Nat) (t2 : Int) (s : State),
    (∃ v : Int, 0 ≤ v ∧ v < 50 ∧ exec (.tReq p tag exch) s =
      .next (recvFrame p.val 1 tag (.tReq exch) (s.timeUp p.val && decide (exch < 65536))
        (timeFrame p.val tag fun s => sendFrame p.val 1 (.tResp exch ((s.devTicks : Int) * 50 + v)) { s with free := s.free + 1 }) s))
    ∧ exec (.tResp p tag exch t2) s = .next (recvFrame p.val 1 tag (.tResp exch t2) (s.timeUp p.val) (timeFrame p.val tag fun s =>
      let take (k : Nat) (d : TimeDom) : TimeDom :=
        if s.linkDom k p.val = true ∧ d.exch = exch ∧ d.t1.isSome = true then { d with t2 := some t2 } else d
      (s.setTdom 0 (take 0 (s.tdom 0))).setTdom 1 (take 1 (s.tdom 1))) s))
  ∧ (∀ (p : JvlPort) (tag : FrameTag) (exch dev hops tstate : Nat) (parent : Option Nat) (t3 t4 : Int) (s : State),
    exec (.tFollow p tag exch dev parent hops tstate t3 t4) s =
      .next (recvFrame p.val 1 tag (.tFollow exch dev parent hops tstate t3) (s.timeUp p.val) (timeFrame p.val tag fun s =>
        each (fun k s => if s.linkDom k p.val = true ∧ (s.tdom k).exch = exch then exchangeDone k dev parent hops tstate t3 t4 s else s)
          [0, 1] s) s))
  ∧ (∀ (p : Nat) (tag : FrameTag) (f : State → State) (s : State),
    (frameDest tag = s.sys.devnum ∨ s.route (frameDest tag) ≠ none → timeFrame p tag f s = f s)
    ∧ (frameDest tag ≠ s.sys.devnum → s.route (frameDest tag) = none →
      timeFrame p tag f s = s.setJctr p { s.jctr p with misrouted := (s.jctr p).misrouted.bump }))
  ∧ (∀ (k dev hops tstate : Nat) (parent : Option Nat) (t1 t2 t3 t4 : Int) (s : State),
    let d := s.tdom k
    let u := s.setTdom k { d with t1 := none, t2 := none, hops := hops + 1, parent := some dev, exchAt := s.now }
    (d.t1 = none ∨ d.t2 = none → exchangeDone k dev parent hops tstate t3 t4 s = s)
    ∧ (d.t1 = some t1 → d.t2 = some t2 → parent = some s.sys.devnum → exchangeDone k dev parent hops tstate t3 t4 s =
      loseDom k (fun d => { d with loop := true }) u)
    ∧ (d.t1 = some t1 → d.t2 = some t2 → parent ≠ some s.sys.devnum → exchangeDone k dev parent hops tstate t3 t4 s =
      measure k (((t2 - t1) - (t4 - t3)) / 2 + d.set.delay) (decide (tstate < 2)) u))
  ∧ (∀ (p : JvlPort) (tag : FrameTag) (src len : Nat) (m : ControlBody) (s : State),
    exec (.controlFrame p tag src len m) s = .next (recvFrame p.val 2 tag (.control src m)
      ((s.jport p.val).feat.testBit 0 && frameLen tag == len && decide (1 ≤ len ∧ len ≤ 8))
      (fun s => if m.dest ≠ s.sys.devnum then relay p.val m.dest 2 (.control src m) s else pump (hear src m.msg s)) s))
  ∧ (∀ (src id : Nat) (t : Task) (s : State),
    let r := partReply src id t s
    let up := s.treesUp (taskRoots t)
    let v := { s with promises := s.promises.filter fun p => !(p.src == src && p.id == id) }
    let q := partReply src id t v
    (s.sys.mode ∉ taskModes t → hear src (.ask id t) s = tell src (.vote id 5 up) s
      ∧ hear src (.apply id t) s = tell src (.confirm id) (announce v))
    ∧ (s.sys.mode ∈ taskModes t →
      (failing r.status = true → hear src (.ask id t) s = tell src (.vote id r.status up) r.s)
      ∧ (failing r.status = false → hear src (.ask id t) s = tell src (.vote id 0 up) { s with promises := s.promises ++ [s.promiseOf src id t] })
      ∧ (failing q.status = true → hear src (.apply id t) s = tell src (.confirm id) (announce v))
      ∧ (failing q.status = false → hear src (.apply id t) s = tell src (.confirm id) (announce q.s)))
    ∧ hear src (.drop id) s = v)
  ∧ (∀ (src id : Nat) (s : State),
    ((∀ e ∈ s.host.sqs, ∀ f ∈ e.2.flight, ∀ l owed w t, f.wait = .votes id l owed w t → src ∉ owed) →
      ∀ status up, hear src (.vote id status up) s = s)
    ∧ ((∀ e ∈ s.host.sqs, ∀ f ∈ e.2.flight, ∀ owed r, f.wait = .confirms id owed r → src ∉ owed) → hear src (.confirm id) s = s)
    ∧ (∀ root, s.running (s.keyOf root) = false → (partReply src id (.abort root) s).s = s)
    ∧ (∀ root, s.running (s.keyOf root) = true → (partReply src id (.abort root) s).s = stopRoot (s.keyOf root) 3 false s)
    ∧ (∀ root first count period origin, (partReply src id (.series root first count period origin) s).s = addSeries (s.keyOf root)
        { next := first, left := if count = 0 then none else some count, numbered := decide (count ≠ 0), fresh := decide (count = 0)
          origin := (s.coarseOf (stampTicks origin)).toNat, period } ((first + (count - 1)) % 2 ^ 64) s)
    ∧ (∀ root first, s.running (s.keyOf root) = false → hear src (.halt root first) s = tell src (.stopped root) s)
    ∧ (∀ plate r, s.shadowOf plate = none → hear src (.rootIs plate r) s = s)
    ∧ (∀ plate t, s.parentHere plate = none → hear src (.treeIs plate t) s = s)
    ∧ ∀ root code tick detail, s.keyOf root ∉ s.spanRoots → hear src (.doubtReport root code tick detail) s = s)
  ∧ (∀ (src p : Nat) (devs : List Nat) (s : State), s.peerPort src = some p →
    let l := devs.filter fun d => tget 0xFF s.sys.routes d == p && !s.sys.cutDevs.contains d
    let k := devs.filter fun d => tget 0xFF s.sys.routes d == p && s.sys.cutDevs.contains d
    let cross (c : Channel) : Bool := c.bound && c.kind == 2 && (c.prods ++ c.cons).any fun x => epDev x != s.sys.devnum && l.contains (epDev x)
    (l = [] → hear src (.lost devs) s = s) ∧ (k = [] → hear src (.back devs) s = s)
    ∧ (k ≠ [] → hear src (.back devs) s = tellPeers p (.back k) (forgetCut k.contains s))
    ∧ (l ≠ [] → ∃ t, hear src (.lost devs) s = each (fun r u => doubtPlate r 3 (le 1 p ++ le 1 0 ++ le 2 (t.jport p).peerDev ++ pad 28) u)
        (s.spanRoots.filter fun r => (s.remoteDevs r).any l.contains) t
      ∧ t = tellLost p l (cutPhases l.contains (each cutChan ((s.chans.filter fun e => cross e.2).map Prod.fst)
        { s with sys := { s.sys with cutDevs := s.sys.cutDevs ++ l } }))))
  ∧ (∀ j : Jvl, j.again true true = j.p.numbered ++ j.q.numbered)
  ∧ ∀ (p : JvlPort) (b : LinkBlock) (s : State),
    let j := s.jport p.val
    let kept (r : Retry) (seq : Nat) : Retry :=
      let n := (seq + 1 + 4096 - (r.txSeq + 4096 - r.unacked.length) % 4096) % 4096
      if n ≤ r.unacked.length then { r with unacked := r.unacked.drop n, tried := r.tried.drop n } else r
    let sent (r : Retry) (nak : Bool) : Retry := if nak = true then { r with tried := r.tried.map (· + 1) } else r
    let back (c : Tab Nat) (vl n : Nat) : Tab Nat := tset 0 c vl (min (tget 0 j.advert vl) (tget 0 c vl + n))
    let again := (if b.nakp = true then (kept j.p b.ackp).unacked.length else 0) + (if b.nakq = true then (kept j.q b.ackq).unacked.length else 0)
    let k := { j with
      p := sent (kept j.p b.ackp) b.nakp, q := sent (kept j.q b.ackq) b.nakq
      credits := back (back (back (back j.credits 0 b.rdec) 1 b.rtime) 2 b.rctrl) 3 b.rbulk }
    (j.st ≠ .active → exec (.linkBlock p b) s = .next s)
    ∧ (j.st = .active → exec (.linkBlock p b) s =
      .next ((s.setJport p.val { k with line := { k.line with redo := k.again b.nakp b.nakq } }).setJctr p.val
      { s.jctr p.val with replays := (s.jctr p.val).replays.add again }))

/-- Ring transfer, scrub, wakes, slow rounds, run and trim ends, store writes, proof run ends. The oldest record of a
ring moves to the host part, behind the PADs it needs there, once that part has room, and the PADs, the record and
then written are written to host memory; the device reads consumed first where it has none, at most once a µs, and
ignores a bad value, counted once. The interrupt timer raises the ring's vector itime after the first unsignalled
record. The scrub counts corrected errors on their die; a granule it cannot correct reads as bad and sets MEM. A wake
runs regulator, oscillator, isolation and restore, each within its maximum; a step that takes longer, a time-out, or
training that fails, leaves the domain Off, counted. An entry ends Off or in Retention. A slow round starts once due,
with the pending slots in force; its end counts it, latches the converters that the check DAC fails and counts a
disagreement. An injected sequence counts and takes what waits; one reading beyond ZTOL is a mismatch there, in a
round the second in a row is. The shut-down action takes its domains Off in descending order. A run ends once it has
its samples; a starved one changes only its counters; another aims a ramp at the clamped estimates. A trim's end sets
its values in force, makes the store write due and starts the next. A store write gives both copies the next
generation, the older first, and stops at a copy that fails. A proof run's end resets what it covered and completes
its request; an abandoned run reports nothing. (R430, R439, R440, R456, R457, R469, R472, R474, R484, R493, R504,
R529) -/
def Obligations.RingPowerHousekeepingAndCalibrationEvents : Prop :=
  (∀ (k : Fin 64) (v : Nat) (ue : Bool) (s : State),
    let r := s.ring k.val
    let reach := r.host = true ∧ s.isOn 4 = true ∧ s.isOn 2 = true ∧ s.host.linkUp = true
    (r.recs = [] ∨ ¬reach → exec (.ringTransfer k v ue) s = .next s)
    ∧ ∀ rec_ rest, r.recs = rec_ :: rest → reach →
      let n := rec_.bytes.length / 32
      let full (q : Ring) := q.hlen < q.written - q.consumed + 32 * (padSlots (q.written / 32 % (q.hlen / 32)) n + n)
      let may := ∀ t, r.readAt = some t → t + 20000 ≤ s.now
      let seen : Ring := if r.written < v ∨ v < r.consumed then
          (if r.lastBad = some v then r else { r with lastBad := some v, bad := r.bad.bump })
        else { r with consumed := v, lastBad := none }
      let q := if full r ∧ may then { seen with readAt := some s.now } else r
      let addr := r.dbase + 32 * ((r.woff + r.dlen / 32 - r.used + rec_.pads) % (r.dlen / 32))
      let pads := padSlots (r.written / 32 % (r.hlen / 32)) n
      (full q → exec (.ringTransfer k v ue) s = .next (s.setRing k.val q))
      ∧ (¬full q → ∃ t, exec (.ringTransfer k v ue) s = .next t ∧ (t.ring k.val).consumed = q.consumed
        ∧ (ue = false → s.poisoned addr (32 * n) = false → (t.ring k.val).written = r.written + 32 * pads + rec_.bytes.length
          ∧ tget [] t.out.ring k.val = q.hostWrites pads rec_.bytes)))
  ∧ (∀ (r : Ring) (pads : Nat) (bytes : List Byte), (r.hostWrites pads bytes).length = pads + 2
    ∧ (r.ctrl, le 8 (r.written + 32 * pads + bytes.length)) ∈ r.hostWrites pads bytes
    ∧ (r.hbase + (r.written + 32 * pads) % r.hlen, bytes) ∈ r.hostWrites pads bytes)
  ∧ (∀ (k : Fin 64) (s : State),
    let r := s.ring k.val
    let due := r.ien = true ∧ r.itime ≠ 0 ∧ ∃ t, r.unsigAt = some t ∧ t + 20000 * r.itime ≤ s.now
    (due → exec (.ringInterruptTimer k) s = .next (raiseVec r.vec (s.setRing k.val { r with unsigAt := none, unsig := 0 })))
    ∧ (¬due → exec (.ringInterruptTimer k) s = .next s))
  ∧ (∀ (good bad : List Nat) (s : State), (s.isOn 4 = false → exec (.patrolScrub good bad) s = .next s)
    ∧ (s.isOn 4 = true → ∃ t, exec (.patrolScrub good bad) s = .next t ∧ t.mem.bytes = s.mem.bytes
      ∧ (∀ g, g ∈ t.mem.poison ↔ g ∈ s.mem.poison ∨ g ∈ bad ∧ g < 2 ^ 25)
      ∧ ((∃ g ∈ bad, g < 2 ^ 25) → t.host.faultsum.getLsbD 9 = true)
      ∧ ∀ g, good = [g] → g < 2 ^ 25 →
        t.mem.corrected = tset {} s.mem.corrected (g / 8 % 8) (tget {} s.mem.corrected (g / 8 % 8)).bump))
  ∧ (∀ (d : Fin 24) (s : State),
    let k := s.dom d.val
    let row (i : Instr) (step next : WakeStep) : Prop :=
      (k.st ≠ .waking ∨ k.step ≠ step → exec i s = .next s)
      ∧ (k.st = .waking → k.step = step → s.now ≤ k.stepStart + stepMax d.val k.fromOff false step * 20000 →
        exec i s = .next (s.setDom d.val { k with step := next, stepStart := s.now }))
      ∧ (k.st = .waking → k.step = step → k.stepStart + stepMax d.val k.fromOff false step * 20000 < s.now →
        exec i s = .next (failWake d.val s))
    row (.regulatorReady d) .regulator .oscillator ∧ row (.oscillatorReady d) .oscillator .isolation
    ∧ row (.isolationRelease d) .isolation .restore)
  ∧ (∀ (d : Nat) (s : State), (failWake d s).dom d =
    { s.dom d with st := .off, failedStep := (s.dom d).step.code, wakeFailed := true, failed := (s.dom d).failed.bump })
  ∧ (∀ (d : Fin 24) (i : RestoreInfo) (s : State),
    let k := s.dom d.val
    let pass := ∀ x ∈ i.dies, x.1 = 0 ∧ 13 ≤ x.2.1 ∧ 13 ≤ x.2.2
    let clean := s.setDom d.val { k with retLost := false, lostBanks := 0 }
    let last := k.stepStart + stepMax d.val k.fromOff (decide (lostBanks i.banks ≠ 0)) .restore * 20000
    (k.st ≠ .waking ∨ k.step ≠ .restore → exec (.restore d i) s = .next s)
    ∧ (k.st = .waking → k.step = .restore → last < s.now → exec (.restore d i) s = .next (failWake d.val s))
    ∧ (k.st = .waking → k.step = .restore → s.now ≤ last →
      (k.fromOff = true → d.val ≠ 4 → exec (.restore d i) s = .next (nowOn d.val (freshDomain d.val i clean)))
      ∧ (k.fromOff = true → d.val = 4 → pass → exec (.restore d i) s = .next (nowOn 4 (freshDomain 4 i (trainDies i.dies s))))
      ∧ (k.fromOff = true → d.val = 4 → ¬pass → ∃ t, exec (.restore d i) s = .next t ∧ t.host.faultsum.getLsbD 9 = true
        ∧ t.dom 4 = { k with st := .off, failedStep := 4, wakeFailed := true, failed := k.failed.bump })
      ∧ (k.fromOff = false → (lostBanks i.banks = 0 ∨ d.val = 4) → exec (.restore d i) s =
        .next (nowOn d.val (each clearChains (domAcqs d.val) (calWake d.val true i clean))))
      ∧ (k.fromOff = false → lostBanks i.banks ≠ 0 → d.val ≠ 4 → exec (.restore d i) s = .next (nowOn d.val (freshDomain d.val i
        (s.setDom d.val { k with retLost := true, lostBanks := lostBanks i.banks, lostCtr := k.lostCtr.bump }))))))
  ∧ (∀ (d : Nat) (s : State), (nowOn d s).dom d = { s.dom d with
      st := .on, wakeFailed := false, wakes := (s.dom d).wakes.bump, wakeUs := (s.now - (s.dom d).wakeStart) / 20000 })
  ∧ (∀ (d : Nat) (i : RestoreInfo) (s : State), i.badTiles = 0 →
    freshDomain d i s = calWake d false i (flushEnds (s.domEnd d) true (resetDomain d s)))
  ∧ (∀ (d : Fin 24) (s : State),
    let k := s.dom d.val
    (k.st ≠ .waking ∨ s.now < k.stepStart + stepMax d.val k.fromOff false k.step * 20000 → exec (.wakeTimeout d) s = .next s)
    ∧ (k.st = .waking → k.stepStart + stepMax d.val k.fromOff false k.step * 20000 ≤ s.now →
      exec (.wakeTimeout d) s = .next (failWake d.val s))
    ∧ (k.st ≠ .entering → exec (.entryComplete d) s = .next s)
    ∧ (k.st = .entering → ∃ t, exec (.entryComplete d) s = .next t
      ∧ t.dom d.val = { k with st := if k.target = 2 then .off else .retention }))
  ∧ (∀ (z : List Slot) (s : State),
    let h := s.house
    (h.inRound = true ∨ s.now < h.roundDue → exec (.slowRound z) s = .next s)
    ∧ (h.inRound = false → h.roundDue ≤ s.now → ∃ t, exec (.slowRound z) s = .next t ∧ t.house.inRound = true
      ∧ t.house.roundDue = (if h.lateEnd = true then h.roundDue + 20000000 else (s.now / 20000000 + 1) * 20000000)
      ∧ t.house.overruns = (if h.lateEnd = true then h.overruns.bump else h.overruns)
      ∧ (h.slotsPend = none → t.house.dislim = h.dislim ∧ t.house.slots = h.slots)
      ∧ (∀ x l, h.slotsPend = some (x, l) → t.house.dislim = x ∧ t.house.slots = l)
      ∧ t.house.slotsPend = none ∧ t.house.zread.map (fun r => (r.chan, r.uv)) = (List.range 256).map fun k => (k, (z.getD k {}).mean)))
  ∧ (∀ (a b c : Int), let m := ({ a, b, c } : Slot).mean
    6 * m ≤ 2 * (a + b + c) + 3 ∧ 2 * (a + b + c) < 6 * m + 3)
  ∧ (∀ (l : RoundSlots) (s : State),
    let r := l.readings
    let h := s.house
    let c := h.check r.chkA r.chkB
    (h.inRound = false → exec (.roundEnd l) s = .next s)
    ∧ (h.inRound = true → ∃ t, exec (.roundEnd l) s = .next t ∧ t.house.inRound = false ∧ t.house.rounds = h.rounds + 1
      ∧ t.house.roundUs = r.lengthUs ∧ (t.house.lateEnd = true ↔ h.roundDue < s.now)
      ∧ t.house.disagree = (if c.pass = true then h.disagree else h.disagree.bump)
      ∧ (h.failA = false → t.house.failA = c.badA) ∧ (h.failB = false → t.house.failB = c.badB)
      ∧ (h.failA = true → h.clearA = false → t.house.failA = true) ∧ (h.failB = true → h.clearB = false → t.house.failB = true)))
  ∧ (∀ (h : House) (a b : Nat), h.failA = false → h.failB = false →
    let e := (0x80 + 0x100 * (h.rounds % 16)) * 16
    let farA := 48 < Sys2Proof.Machine.dist a e
    let farB := 48 < Sys2Proof.Machine.dist b e
    (Sys2Proof.Machine.dist a b ≤ h.dislim → h.check a b = { pass := true, badA := false, badB := false })
    ∧ (h.dislim < Sys2Proof.Machine.dist a b → farA → ¬farB → h.check a b = { pass := false, badA := true, badB := false })
    ∧ (h.dislim < Sys2Proof.Machine.dist a b → ¬farA → farB → h.check a b = { pass := false, badA := false, badB := true })
    ∧ (h.dislim < Sys2Proof.Machine.dist a b → (farA ↔ farB) → h.check a b = { pass := false, badA := true, badB := true }))
  ∧ (∀ (z : List ZReading) (s : State),
    let waiting := tkeys (s.zch.filter fun e => e.2.ovcPend)
    let safe := ∃ t, s.house.injSafe = some t ∧ t ≤ s.now
    (waiting = [] → ¬safe → s.house.injDue = [] → exec (.injectedSequence z) s = .next s)
    ∧ (waiting ≠ [] ∨ safe ∨ s.house.injDue ≠ [] → ∃ t, exec (.injectedSequence z) s = .next t
      ∧ t.house.injected = s.house.injected.bump ∧ t.house.rounds = s.house.rounds
      ∧ (waiting = [] → ¬safe → t = { s with house := { s.house with
        injected := s.house.injected.bump, injDue := s.house.injDue.drop 32 } })
      ∧ (waiting = [] → safe → t = { s with house := { s.house with
        injected := s.house.injected.bump, injDue := s.house.injDue.drop 24, injSafe := none } })))
  ∧ (∀ (z : Nat) (uv want : Int) (once : Bool) (s : State),
    let c := s.z z
    let far := c.ztol * 1000 * 262144 < (uv * 262144 - want).natAbs
    let u := s.modZ z fun c => { c with
      readback := uv, expected := toUv want, skips := 0, unchecked := false, fails := if far then c.fails + 1 else 0 }
    (¬far → zCompare z uv want once s = u)
    ∧ (far → once = false → c.fails = 0 → zCompare z uv want once s = u.modZc z fun k => { k with mismatches := k.mismatches.bump })
    ∧ (far → once = true ∨ c.fails ≠ 0 →
      zCompare z uv want once s = zMismatch z (u.modZc z fun k => { k with mismatches := k.mismatches.bump })))
  ∧ (∀ s : State, ((∀ t, s.house.shutAt = some t → s.now < t) → exec .shutdownAction s = .next s)
    ∧ ∀ t, s.house.shutAt = some t → t ≤ s.now → exec .shutdownAction s =
      .next (each shutDomain ((List.range 24).filter fun d => s.house.shutDoms.contains d).reverse
        { s with house := { s.house with shutAt := none, shutDoms := [] } }))
  ∧ (∀ (d : Nat) (s : State),
    let k := s.dom d
    (k.st = .off → shutDomain d s = s) ∧ (k.st = .on → shutDomain d s = beginEntry d 2 s)
    ∧ (k.st = .retention ∨ k.st = .entering → shutDomain d s = enter d 2 s)
    ∧ (k.st ≠ .off → k.st ≠ .on → (shutDomain d s).dom d = { k with st := .entering, target := 2, isolated := k.st == .retention }))
  ∧ (∀ (d target : Nat) (s : State),
    let k := s.dom d
    (enter d target s).dom d = { k with st := .entering, target, isolated := k.st == .retention }
    ∧ (target ≠ 2 → (enter d target s).zch = s.zch)
    ∧ (target = 2 → 20 ≤ d → ∀ z ∈ quadChans (d - 20), ((enter d target s).z z).st = .float))
  ∧ (∀ (p : Fin 16) (low : Bool) (extremes : Nat) (stats : List (Int × Int × Int)) (s : State),
    let c := s.calI p.val
    let starved := low = true ∨ 536870912 < 100 * extremes
    let v := adcValues (adcEstimates 16777216 stats)
    let go (c : CalInst) : Host.Outcome State Fault Refusal := .next (settleCal (s.modCal p.val fun _ => c))
    (c.st ≠ 1 ∨ s.now < c.runAt + 536870912 → exec (.adcBlindRunEnd p low extremes stats) s = .next s)
    ∧ (c.st = 1 → c.runAt + 536870912 ≤ s.now → starved → exec (.adcBlindRunEnd p low extremes stats) s =
      go { c with runs := c.runs.bump, starved := c.starved.bump, st := if c.ramp = none then 0 else 2 })
    ∧ (c.st = 1 → c.runAt + 536870912 ≤ s.now → ¬starved → exec (.adcBlindRunEnd p low extremes stats) s = go { c with
      runs := c.runs.bump, st := 2, tjRun := s.tj16 (18 + p.val / 8), tjMeas := s.tj16 (18 + p.val / 8), trimDue := c.trimDue || v.2
      ramp := some { r := c.rampLen, k := 0, vals := (fromStart p.val c.vals v.1).map fun e => (e.1, tget 0 c.vals.dev e.1, e.2) } }))
  ∧ (∀ (n : Nat) (sum sq skew : Int), 0 < n → (∀ e ∈ adcEstimates n (List.replicate 32 (sum, sq, skew)), e.1 = 0 ∧ e.2.2 = skew)
    ∧ (0 < (n : Int) * sq - sum * sum →
      ∀ e ∈ adcEstimates n (List.replicate 32 (sum, sq, skew)), e.2.1 = 2 ^ 20))
  ∧ (∀ o g k : Int, (adcValues [(o, g, k)]).1 =
    [(0, max (-1024) (min 1024 o)), (1, max 996148 (min 1101004 g) - 1048576), (2, max (-200) (min 200 k))])
  ∧ (∀ (q : Fin 4) (est : List (Nat × Nat × Int)) (s : State),
    let i := 64 + q.val
    let c := s.calI i
    let go (c : CalInst) : Host.Outcome State Fault Refusal := .next (settleCal (s.modCal i fun _ => c))
    let seen := est.filter fun e => decide (4096 ≤ tget 0 c.crossed (64 * (e.1 % 64) + e.2.1 % 64))
    (c.st ≠ 1 → exec (.zstatRunEnd q est) s = .next s)
    ∧ (c.st = 1 → seen = [] → exec (.zstatRunEnd q est) s =
      go { c with runs := c.runs.bump, starved := c.starved.bump, st := if c.ramp = none then 0 else 2 })
    ∧ (c.st = 1 → seen ≠ [] → exec (.zstatRunEnd q est) s = go { c with
      runs := c.runs.bump, st := 2, tjRun := s.tj16 (20 + q.val), tjMeas := s.tj16 (20 + q.val), trimDue := c.trimDue || (zValues seen).2
      ramp := some { r := c.rampLen, k := 0, vals := (fromStart i c.vals (zValues seen).1).map fun e => (e.1, tget 0 c.vals.dev e.1, e.2) } }))
  ∧ (∀ (scope target : Nat) (est : List (Int × Int × Int)) (zest : List (Nat × Nat × Int)) (s : State),
    let q := tget [] s.calib.trimQ scope
    ((∀ i, instOf scope target = some i → analogue scope = true → q.head? ≠ some i) → exec (.trimEnd scope target est zest) s = .next s)
    ∧ ∀ i rest, instOf scope target = some i → analogue scope = true → q = i :: rest → ∃ t, exec (.trimEnd scope target est zest) s = .next t
      ∧ tget [] t.calib.trimQ scope = rest ∧ (t.calI i).trimDue = false ∧ (t.calI i).runs = (s.calI i).runs.bump
      ∧ (t.calI i).writeDue = true ∧ (t.calI i).tjTrim = s.tj16 (instDom i) ∧ (t.calI i).tjMeas = s.tj16 (instDom i))
  ∧ (∀ (i : Fin 68) (up1 up2 : List (Nat × Byte)) (s : State),
    let c := s.calI i.val
    let late := ∃ t, c.lastWrite = some t ∧ s.now < t + 10 * ticksPerSec
    let due := c.writeDue = true ∧ s.windowOpen i.val = true ∧ (¬late ∨ c.commit = true)
    let g := max c.genA c.genB + 1
    let whole := s.storeRecord i.val g c.tjMeas (if c.commit = true then c.target else c.vals)
    let one := upset up1 whole
    let two := upset up2 whole
    let gen (img : List Byte) := if recordOk i.val img = true then g else 0
    (¬due → exec (.storeWrite i up1 up2) s = .next s)
    ∧ (due → ∃ t, exec (.storeWrite i up1 up2) s = .next t ∧ (t.calI i.val).writeDue = false ∧ (t.calI i.val).commit = false
      ∧ (t.calI i.val).lastWrite = some s.now ∧ (t.calI i.val).vals = c.vals
      ∧ (t.calI i.val).storeErrs = (if recordOk i.val one = true ∧ recordOk i.val two = true then c.storeErrs else c.storeErrs.bump)
      ∧ (c.genA ≤ c.genB → (t.calI i.val).imgA = one ∧ (t.calI i.val).genA = gen one
        ∧ (recordOk i.val one = true → (t.calI i.val).imgB = two ∧ (t.calI i.val).genB = gen two)
        ∧ (recordOk i.val one = false → (t.calI i.val).imgB = c.imgB ∧ (t.calI i.val).genB = c.genB))
      ∧ (c.genB < c.genA → (t.calI i.val).imgB = one ∧ (t.calI i.val).genB = gen one
        ∧ (recordOk i.val one = true → (t.calI i.val).imgA = two ∧ (t.calI i.val).genA = gen two)
        ∧ (recordOk i.val one = false → (t.calI i.val).imgA = c.imgA ∧ (t.calI i.val).genA = c.genA))))
  ∧ (∀ (run : Fin 4) (g e : ProofSigs) (tiles : Nat) (s : State),
    let p := s.proof run.val
    let sig := p.fold s g
    let want := p.fold s e
    let u := proofReset p tiles (s.setProof run.val {})
    let v := match p.home with
      | some d => tell d (.proofResult p.id (some (sig, want))) u
      | none => addResult p.id u.sys.devnum (some (sig, want)) u
    (p.active = false → exec (.proofRunEnd run g e tiles) s = .next s)
    ∧ (p.active = true →
      (p.abandoned = true → exec (.proofRunEnd run g e tiles) s = .next u)
      ∧ (p.abandoned = false → sig = want → exec (.proofRunEnd run g e tiles) s = .next v)
      ∧ (p.abandoned = false → sig ≠ want → exec (.proofRunEnd run g e tiles) s = .next (proofMismatch p sig want (p.failing s g e) v)))
    ∧ (p.kind = 0 → sig = g.dom))
  ∧ (∀ (id dev : Nat) (s : State),
    let done (st sig : Nat) (s : State) : State := pump (decideFlights (fun f => f.wait == .proof id) st (fun _ => sig) .doubt s)
    ((∀ j ∈ s.joins, j.id ≠ id) → ∀ r, addResult id dev r s = s)
    ∧ ∀ j, s.joins = [j] → j.id = id →
      let k (x : BitVec 64 × BitVec 64) : ProofJoin := { j with owed := j.owed.filter (· != dev), results := insertResult (dev, x) j.results }
      addResult id dev none s = done 7 0 { s with joins := [] }
      ∧ ∀ x, ((k x).owed ≠ [] → addResult id dev (some x) s = { s with joins := [k x] })
        ∧ ((k x).owed = [] → addResult id dev (some x) s =
          done (if (k x).outcome.1 = (k x).outcome.2 then 0 else 7) (k x).outcome.1.toNat { s with joins := [] }))
  ∧ ∀ (p : ProofRun) (tiles : Nat) (s : State), p.kind = 0 → proofReset p tiles s =
    freshDomain p.domain { banks := [], dies := [], badTiles := tiles, upA := [], upB := [], badF := [] } s
end

