-- ==== Sys2Proof/Laws/Tab.lean ====
section
/-! SUPPORT. Sparse tables: a read after a write, and the canonical form. -/

namespace Sys2Proof.Machine

theorem tget_tins_self {α : Type} (d : α) (m : Tab α) (k : Nat) (v : α) : tget d (tins k v m) k = v := by
  induction m with
  | nil => simp [tins, tget]
  | cons e m ih =>
    obtain ⟨j, w⟩ := e
    by_cases h1 : k < j
    · simp [tins, tget, h1]
    · by_cases h2 : j = k
      · simp [tins, tget, h2]
      · simpa [tins, tget, h1, h2] using ih

theorem tget_tins_ne {α : Type} (d : α) (m : Tab α) (k j : Nat) (v : α) (h : j ≠ k) :
    tget d (tins k v m) j = tget d m j := by
  induction m with
  | nil => simp [tins, tget, Ne.symm h]
  | cons e m ih =>
    obtain ⟨i, w⟩ := e
    by_cases h1 : k < i
    · simp [tins, tget, h1, Ne.symm h]
    · by_cases h2 : i = k
      · simp [tins, tget, h2, Ne.symm h]
      · by_cases h3 : i = j
        · subst h3; simp [tins, tget, h1, h2]
        · simpa [tins, tget, h1, h2, h3] using ih

theorem tget_tdel_self {α : Type} (d : α) (m : Tab α) (k : Nat) : tget d (tdel k m) k = d := by
  induction m with
  | nil => rfl
  | cons e m ih =>
    obtain ⟨j, w⟩ := e
    by_cases h : j = k
    · simpa [tdel, h] using ih
    · simpa [tdel, tget, h] using ih

theorem tget_tdel_ne {α : Type} (d : α) (m : Tab α) (k j : Nat) (h : j ≠ k) : tget d (tdel k m) j = tget d m j := by
  induction m with
  | nil => rfl
  | cons e m ih =>
    obtain ⟨i, w⟩ := e
    by_cases h1 : i = k
    · have h2 : i ≠ j := fun hc => h (hc ▸ h1)
      simpa [tdel, tget, h1, Ne.symm h] using ih
    · by_cases h2 : i = j
      · subst h2; simp [tdel, tget, h1]
      · simpa [tdel, tget, h1, h2] using ih

/-- A read after a write to the same key gives the value written. -/
theorem tget_tset_self {α : Type} [DecidableEq α] (d : α) (m : Tab α) (k : Nat) (v : α) :
    tget d (tset d m k v) k = v := by
  by_cases h : v = d
  · simp [tset, h, tget_tdel_self]
  · simp [tset, h, tget_tins_self]

/-- A write leaves every other key alone. -/
theorem tget_tset_ne {α : Type} [DecidableEq α] (d : α) (m : Tab α) (k j : Nat) (v : α) (h : j ≠ k) :
    tget d (tset d m k v) j = tget d m j := by
  by_cases hv : v = d
  · simp [tset, hv, tget_tdel_ne d m k j h]
  · simp [tset, hv, tget_tins_ne d m k j v h]

/-! ### The canonical form -/

theorem tsorted_mono {α : Type} (lo lo' : Nat) (m : Tab α) (h : lo' ≤ lo) (hs : tsorted lo m = true) :
    tsorted lo' m = true := by
  cases m with
  | nil => rfl
  | cons e m =>
    obtain ⟨j, w⟩ := e
    simp only [tsorted, Bool.and_eq_true, decide_eq_true_eq] at hs ⊢
    exact ⟨by omega, hs.2⟩

theorem tsorted_tins {α : Type} (lo k : Nat) (v : α) (m : Tab α) (h : lo ≤ k) (hs : tsorted lo m = true) :
    tsorted lo (tins k v m) = true := by
  induction m generalizing lo with
  | nil => simpa [tins, tsorted] using h
  | cons e m ih =>
    obtain ⟨j, w⟩ := e
    simp only [tsorted, Bool.and_eq_true, decide_eq_true_eq] at hs
    by_cases h1 : k < j
    · simp only [tins, h1, if_true, tsorted, Bool.and_eq_true, decide_eq_true_eq]
      exact ⟨h, by omega, hs.2⟩
    · by_cases h2 : j = k
      · subst h2; simpa [tins, tsorted, h] using hs.2
      · simp only [tins, h1, h2, if_false, tsorted, Bool.and_eq_true, decide_eq_true_eq]
        exact ⟨hs.1, ih (j + 1) (by omega) hs.2⟩

theorem tsorted_tdel {α : Type} (lo k : Nat) (m : Tab α) (hs : tsorted lo m = true) : tsorted lo (tdel k m) = true := by
  induction m generalizing lo with
  | nil => rfl
  | cons e m ih =>
    obtain ⟨j, w⟩ := e
    simp only [tsorted, Bool.and_eq_true, decide_eq_true_eq] at hs
    by_cases h : j = k
    · simpa [tdel, h] using ih lo (tsorted_mono (j + 1) lo m (by omega) hs.2)
    · simp only [tdel, h, if_false, tsorted, Bool.and_eq_true, decide_eq_true_eq]
      exact ⟨hs.1, ih (j + 1) hs.2⟩

theorem all_tins {α : Type} (p : Nat × α → Bool) (k : Nat) (v : α) (m : Tab α) (hv : p (k, v) = true)
    (hm : m.all p = true) : (tins k v m).all p = true := by
  induction m with
  | nil => simpa [tins] using hv
  | cons e m ih =>
    obtain ⟨j, w⟩ := e
    simp only [List.all_cons, Bool.and_eq_true] at hm
    by_cases h1 : k < j
    · simp only [tins, h1, if_true, List.all_cons, Bool.and_eq_true]
      exact ⟨hv, hm⟩
    · by_cases h2 : j = k
      · simp only [tins, h1, h2, if_true, if_false, List.all_cons, Bool.and_eq_true]
        simpa using ⟨hv, by simpa using hm.2⟩
      · simp only [tins, h1, h2, if_false, List.all_cons, Bool.and_eq_true]
        exact ⟨hm.1, ih hm.2⟩

theorem all_tdel {α : Type} (p : Nat × α → Bool) (k : Nat) (m : Tab α) (hm : m.all p = true) :
    (tdel k m).all p = true := by
  induction m with
  | nil => rfl
  | cons e m ih =>
    obtain ⟨j, w⟩ := e
    simp only [List.all_cons, Bool.and_eq_true] at hm
    by_cases h : j = k
    · simpa [tdel, h] using ih hm.2
    · simp only [tdel, h, if_false, List.all_cons, Bool.and_eq_true]
      exact ⟨hm.1, ih hm.2⟩

/-- A write keeps the canonical form. -/
theorem twf_tset {α : Type} [DecidableEq α] (d : α) (m : Tab α) (k : Nat) (v : α) (h : twf d m = true) :
    twf d (tset d m k v) = true := by
  simp only [twf, Bool.and_eq_true] at h ⊢
  by_cases hv : v = d
  · simp only [tset, hv, if_true]
    exact ⟨tsorted_tdel 0 k m h.1, all_tdel _ k m h.2⟩
  · simp only [tset, hv, if_false]
    exact ⟨tsorted_tins 0 k v m (by omega) h.1, all_tins _ k v m (by simpa using hv) h.2⟩

/-- A run of writes keeps the canonical form. -/
theorem twf_tsetRun {α : Type} [DecidableEq α] (d : α) (vs : List α) (m : Tab α) (k : Nat) (h : twf d m = true) :
    twf d (tsetRun d m k vs) = true := by
  induction vs generalizing m k with
  | nil => exact h
  | cons v vs ih => exact ih _ _ (twf_tset d m k v h)

/-- A run of writes leaves every key outside it alone. -/
theorem tget_tsetRun_ne {α : Type} [DecidableEq α] (d : α) (vs : List α) (m : Tab α) (k j : Nat)
    (h : j < k ∨ k + vs.length ≤ j) : tget d (tsetRun d m k vs) j = tget d m j := by
  induction vs generalizing m k with
  | nil => rfl
  | cons v vs ih =>
    simp only [List.length_cons] at h
    rw [tsetRun, ih _ _ (by omega), tget_tset_ne d m k j v (by omega)]

end Sys2Proof.Machine
end

