-- ==== Sys2Proof/Laws/State.lean ====
section
/-! SUPPORT. Reading a field of the state after an update of another: one lemma per field per update. -/

namespace Sys2Proof.Machine

/-! ### Reading back an element -/

@[simp] theorem State.burin_setBurin (s : State) (k : Nat) (v : Burin) : (s.setBurin k v).burin k = v := tget_tset_self ({} : Burin) s.burins k v
theorem State.burin_setBurin_ne (s : State) (k j : Nat) (v : Burin) (h : j ≠ k) : (s.setBurin k v).burin j = s.burin j :=
  tget_tset_ne ({} : Burin) s.burins k j v h
@[simp] theorem State.burin_modBurin (s : State) (k : Nat) (f : Burin → Burin) : (s.modBurin k f).burin k = f (s.burin k) := tget_tset_self ({} : Burin) s.burins k _
theorem State.burin_modBurin_ne (s : State) (k j : Nat) (f : Burin → Burin) (h : j ≠ k) : (s.modBurin k f).burin j = s.burin j :=
  tget_tset_ne ({} : Burin) s.burins k j _ h
@[simp] theorem State.cell_setCell (s : State) (k : Nat) (v : CellSt) : (s.setCell k v).cell k = v := tget_tset_self ({} : CellSt) s.cells k v
theorem State.cell_setCell_ne (s : State) (k j : Nat) (v : CellSt) (h : j ≠ k) : (s.setCell k v).cell j = s.cell j :=
  tget_tset_ne ({} : CellSt) s.cells k j v h
@[simp] theorem State.cell_modCell (s : State) (k : Nat) (f : CellSt → CellSt) : (s.modCell k f).cell k = f (s.cell k) := tget_tset_self ({} : CellSt) s.cells k _
theorem State.cell_modCell_ne (s : State) (k j : Nat) (f : CellSt → CellSt) (h : j ≠ k) : (s.modCell k f).cell j = s.cell j :=
  tget_tset_ne ({} : CellSt) s.cells k j _ h
@[simp] theorem State.plate_setPlate (s : State) (k : Nat) (v : Plate) : (s.setPlate k v).plate k = v := tget_tset_self ({} : Plate) s.plates k v
theorem State.plate_setPlate_ne (s : State) (k j : Nat) (v : Plate) (h : j ≠ k) : (s.setPlate k v).plate j = s.plate j :=
  tget_tset_ne ({} : Plate) s.plates k j v h
@[simp] theorem State.plate_modPlate (s : State) (k : Nat) (f : Plate → Plate) : (s.modPlate k f).plate k = f (s.plate k) := tget_tset_self ({} : Plate) s.plates k _
theorem State.plate_modPlate_ne (s : State) (k j : Nat) (f : Plate → Plate) (h : j ≠ k) : (s.modPlate k f).plate j = s.plate j :=
  tget_tset_ne ({} : Plate) s.plates k j _ h
@[simp] theorem State.root_setRoot (s : State) (k : Nat) (v : RootRun) : (s.setRoot k v).root k = v := tget_tset_self ({} : RootRun) s.roots k v
theorem State.root_setRoot_ne (s : State) (k j : Nat) (v : RootRun) (h : j ≠ k) : (s.setRoot k v).root j = s.root j :=
  tget_tset_ne ({} : RootRun) s.roots k j v h
@[simp] theorem State.root_modRoot (s : State) (k : Nat) (f : RootRun → RootRun) : (s.modRoot k f).root k = f (s.root k) := tget_tset_self ({} : RootRun) s.roots k _
theorem State.root_modRoot_ne (s : State) (k j : Nat) (f : RootRun → RootRun) (h : j ≠ k) : (s.modRoot k f).root j = s.root j :=
  tget_tset_ne ({} : RootRun) s.roots k j _ h
@[simp] theorem State.fault_setFault (s : State) (k : Nat) (v : FaultRec) : (s.setFault k v).fault k = v := tget_tset_self ({} : FaultRec) s.faults k v
theorem State.fault_setFault_ne (s : State) (k j : Nat) (v : FaultRec) (h : j ≠ k) : (s.setFault k v).fault j = s.fault j :=
  tget_tset_ne ({} : FaultRec) s.faults k j v h
@[simp] theorem State.fault_modFault (s : State) (k : Nat) (f : FaultRec → FaultRec) : (s.modFault k f).fault k = f (s.fault k) := tget_tset_self ({} : FaultRec) s.faults k _
theorem State.fault_modFault_ne (s : State) (k j : Nat) (f : FaultRec → FaultRec) (h : j ≠ k) : (s.modFault k f).fault j = s.fault j :=
  tget_tset_ne ({} : FaultRec) s.faults k j _ h
@[simp] theorem State.queue_setQueue (s : State) (k : Nat) (v : PlayQ) : (s.setQueue k v).queue k = v := tget_tset_self ({} : PlayQ) s.queues k v
theorem State.queue_setQueue_ne (s : State) (k j : Nat) (v : PlayQ) (h : j ≠ k) : (s.setQueue k v).queue j = s.queue j :=
  tget_tset_ne ({} : PlayQ) s.queues k j v h
@[simp] theorem State.queue_modQueue (s : State) (k : Nat) (f : PlayQ → PlayQ) : (s.modQueue k f).queue k = f (s.queue k) := tget_tset_self ({} : PlayQ) s.queues k _
theorem State.queue_modQueue_ne (s : State) (k j : Nat) (f : PlayQ → PlayQ) (h : j ≠ k) : (s.modQueue k f).queue j = s.queue j :=
  tget_tset_ne ({} : PlayQ) s.queues k j _ h
@[simp] theorem State.tone_setTone (s : State) (k : Nat) (v : Tone) : (s.setTone k v).tone k = v := tget_tset_self ({} : Tone) s.tones k v
theorem State.tone_setTone_ne (s : State) (k j : Nat) (v : Tone) (h : j ≠ k) : (s.setTone k v).tone j = s.tone j :=
  tget_tset_ne ({} : Tone) s.tones k j v h
@[simp] theorem State.tone_modTone (s : State) (k : Nat) (f : Tone → Tone) : (s.modTone k f).tone k = f (s.tone k) := tget_tset_self ({} : Tone) s.tones k _
theorem State.tone_modTone_ne (s : State) (k j : Nat) (f : Tone → Tone) (h : j ≠ k) : (s.modTone k f).tone j = s.tone j :=
  tget_tset_ne ({} : Tone) s.tones k j _ h
@[simp] theorem State.port_setPort (s : State) (k : Nat) (v : Port) : (s.setPort k v).port k = v := tget_tset_self ({} : Port) s.ports k v
theorem State.port_setPort_ne (s : State) (k j : Nat) (v : Port) (h : j ≠ k) : (s.setPort k v).port j = s.port j :=
  tget_tset_ne ({} : Port) s.ports k j v h
@[simp] theorem State.port_modPort (s : State) (k : Nat) (f : Port → Port) : (s.modPort k f).port k = f (s.port k) := tget_tset_self ({} : Port) s.ports k _
theorem State.port_modPort_ne (s : State) (k j : Nat) (f : Port → Port) (h : j ≠ k) : (s.modPort k f).port j = s.port j :=
  tget_tset_ne ({} : Port) s.ports k j _ h
@[simp] theorem State.z_setZ (s : State) (k : Nat) (v : ZChan) : (s.setZ k v).z k = v := tget_tset_self ({} : ZChan) s.zch k v
theorem State.z_setZ_ne (s : State) (k j : Nat) (v : ZChan) (h : j ≠ k) : (s.setZ k v).z j = s.z j :=
  tget_tset_ne ({} : ZChan) s.zch k j v h
@[simp] theorem State.z_modZ (s : State) (k : Nat) (f : ZChan → ZChan) : (s.modZ k f).z k = f (s.z k) := tget_tset_self ({} : ZChan) s.zch k _
theorem State.z_modZ_ne (s : State) (k j : Nat) (f : ZChan → ZChan) (h : j ≠ k) : (s.modZ k f).z j = s.z j :=
  tget_tset_ne ({} : ZChan) s.zch k j _ h
@[simp] theorem State.zc_setZc (s : State) (k : Nat) (v : ZCtrs) : (s.setZc k v).zc k = v := tget_tset_self ({} : ZCtrs) s.zctr k v
theorem State.zc_setZc_ne (s : State) (k j : Nat) (v : ZCtrs) (h : j ≠ k) : (s.setZc k v).zc j = s.zc j :=
  tget_tset_ne ({} : ZCtrs) s.zctr k j v h
@[simp] theorem State.zc_modZc (s : State) (k : Nat) (f : ZCtrs → ZCtrs) : (s.modZc k f).zc k = f (s.zc k) := tget_tset_self ({} : ZCtrs) s.zctr k _
theorem State.zc_modZc_ne (s : State) (k j : Nat) (f : ZCtrs → ZCtrs) (h : j ≠ k) : (s.modZc k f).zc j = s.zc j :=
  tget_tset_ne ({} : ZCtrs) s.zctr k j _ h
@[simp] theorem State.zbank_setZbank (s : State) (k : Nat) (v : Banks) : (s.setZbank k v).zbank k = v := tget_tset_self ({} : Banks) s.zbanks k v
theorem State.zbank_setZbank_ne (s : State) (k j : Nat) (v : Banks) (h : j ≠ k) : (s.setZbank k v).zbank j = s.zbank j :=
  tget_tset_ne ({} : Banks) s.zbanks k j v h
@[simp] theorem State.zbank_modZbank (s : State) (k : Nat) (f : Banks → Banks) : (s.modZbank k f).zbank k = f (s.zbank k) := tget_tset_self ({} : Banks) s.zbanks k _
theorem State.zbank_modZbank_ne (s : State) (k j : Nat) (f : Banks → Banks) (h : j ≠ k) : (s.modZbank k f).zbank j = s.zbank j :=
  tget_tset_ne ({} : Banks) s.zbanks k j _ h
@[simp] theorem State.rot_setRot (s : State) (k : Nat) (v : RoTone) : (s.setRot k v).rot k = v := tget_tset_self ({} : RoTone) s.ro k v
theorem State.rot_setRot_ne (s : State) (k j : Nat) (v : RoTone) (h : j ≠ k) : (s.setRot k v).rot j = s.rot j :=
  tget_tset_ne ({} : RoTone) s.ro k j v h
@[simp] theorem State.rot_modRot (s : State) (k : Nat) (f : RoTone → RoTone) : (s.modRot k f).rot k = f (s.rot k) := tget_tset_self ({} : RoTone) s.ro k _
theorem State.rot_modRot_ne (s : State) (k j : Nat) (f : RoTone → RoTone) (h : j ≠ k) : (s.modRot k f).rot j = s.rot j :=
  tget_tset_ne ({} : RoTone) s.ro k j _ h
@[simp] theorem State.stipChain_setStipChain (s : State) (k : Nat) (v : Chain) : (s.setStipChain k v).stipChain k = v := tget_tset_self ({} : Chain) s.stipChains k v
theorem State.stipChain_setStipChain_ne (s : State) (k j : Nat) (v : Chain) (h : j ≠ k) : (s.setStipChain k v).stipChain j = s.stipChain j :=
  tget_tset_ne ({} : Chain) s.stipChains k j v h
@[simp] theorem State.stipChain_modStipChain (s : State) (k : Nat) (f : Chain → Chain) : (s.modStipChain k f).stipChain k = f (s.stipChain k) := tget_tset_self ({} : Chain) s.stipChains k _
theorem State.stipChain_modStipChain_ne (s : State) (k j : Nat) (f : Chain → Chain) (h : j ≠ k) : (s.modStipChain k f).stipChain j = s.stipChain j :=
  tget_tset_ne ({} : Chain) s.stipChains k j _ h
@[simp] theorem State.acqPort_setAcqPort (s : State) (k : Nat) (v : AcqPort) : (s.setAcqPort k v).acqPort k = v := tget_tset_self ({} : AcqPort) s.acqPorts k v
theorem State.acqPort_setAcqPort_ne (s : State) (k j : Nat) (v : AcqPort) (h : j ≠ k) : (s.setAcqPort k v).acqPort j = s.acqPort j :=
  tget_tset_ne ({} : AcqPort) s.acqPorts k j v h
@[simp] theorem State.acqPort_modAcqPort (s : State) (k : Nat) (f : AcqPort → AcqPort) : (s.modAcqPort k f).acqPort k = f (s.acqPort k) := tget_tset_self ({} : AcqPort) s.acqPorts k _
theorem State.acqPort_modAcqPort_ne (s : State) (k j : Nat) (f : AcqPort → AcqPort) (h : j ≠ k) : (s.modAcqPort k f).acqPort j = s.acqPort j :=
  tget_tset_ne ({} : AcqPort) s.acqPorts k j _ h
@[simp] theorem State.stream_setStream (s : State) (k : Nat) (v : Stream) : (s.setStream k v).stream k = v := tget_tset_self ({} : Stream) s.streams k v
theorem State.stream_setStream_ne (s : State) (k j : Nat) (v : Stream) (h : j ≠ k) : (s.setStream k v).stream j = s.stream j :=
  tget_tset_ne ({} : Stream) s.streams k j v h
@[simp] theorem State.stream_modStream (s : State) (k : Nat) (f : Stream → Stream) : (s.modStream k f).stream k = f (s.stream k) := tget_tset_self ({} : Stream) s.streams k _
theorem State.stream_modStream_ne (s : State) (k j : Nat) (f : Stream → Stream) (h : j ≠ k) : (s.modStream k f).stream j = s.stream j :=
  tget_tset_ne ({} : Stream) s.streams k j _ h
@[simp] theorem State.chan_setChan (s : State) (k : Nat) (v : Channel) : (s.setChan k v).chan k = v := tget_tset_self ({} : Channel) s.chans k v
theorem State.chan_setChan_ne (s : State) (k j : Nat) (v : Channel) (h : j ≠ k) : (s.setChan k v).chan j = s.chan j :=
  tget_tset_ne ({} : Channel) s.chans k j v h
@[simp] theorem State.chan_modChan (s : State) (k : Nat) (f : Channel → Channel) : (s.modChan k f).chan k = f (s.chan k) := tget_tset_self ({} : Channel) s.chans k _
theorem State.chan_modChan_ne (s : State) (k j : Nat) (f : Channel → Channel) (h : j ≠ k) : (s.modChan k f).chan j = s.chan j :=
  tget_tset_ne ({} : Channel) s.chans k j _ h
@[simp] theorem State.chCtr_setChCtr (s : State) (k : Nat) (v : ChCtrs) : (s.setChCtr k v).chCtr k = v := tget_tset_self ({} : ChCtrs) s.chCtrs k v
theorem State.chCtr_setChCtr_ne (s : State) (k j : Nat) (v : ChCtrs) (h : j ≠ k) : (s.setChCtr k v).chCtr j = s.chCtr j :=
  tget_tset_ne ({} : ChCtrs) s.chCtrs k j v h
@[simp] theorem State.chCtr_modChCtr (s : State) (k : Nat) (f : ChCtrs → ChCtrs) : (s.modChCtr k f).chCtr k = f (s.chCtr k) := tget_tset_self ({} : ChCtrs) s.chCtrs k _
theorem State.chCtr_modChCtr_ne (s : State) (k j : Nat) (f : ChCtrs → ChCtrs) (h : j ≠ k) : (s.modChCtr k f).chCtr j = s.chCtr j :=
  tget_tset_ne ({} : ChCtrs) s.chCtrs k j _ h
@[simp] theorem State.engine_setEngine (s : State) (k : Nat) (v : Engine) : (s.setEngine k v).engine k = v := tget_tset_self ({} : Engine) s.engines k v
theorem State.engine_setEngine_ne (s : State) (k j : Nat) (v : Engine) (h : j ≠ k) : (s.setEngine k v).engine j = s.engine j :=
  tget_tset_ne ({} : Engine) s.engines k j v h
@[simp] theorem State.engine_modEngine (s : State) (k : Nat) (f : Engine → Engine) : (s.modEngine k f).engine k = f (s.engine k) := tget_tset_self ({} : Engine) s.engines k _
theorem State.engine_modEngine_ne (s : State) (k j : Nat) (f : Engine → Engine) (h : j ≠ k) : (s.modEngine k f).engine j = s.engine j :=
  tget_tset_ne ({} : Engine) s.engines k j _ h
@[simp] theorem State.stampChan_setStampChan (s : State) (k : Nat) (v : StampChan) : (s.setStampChan k v).stampChan k = v := tget_tset_self ({} : StampChan) s.stampCh k v
theorem State.stampChan_setStampChan_ne (s : State) (k j : Nat) (v : StampChan) (h : j ≠ k) : (s.setStampChan k v).stampChan j = s.stampChan j :=
  tget_tset_ne ({} : StampChan) s.stampCh k j v h
@[simp] theorem State.stampChan_modStampChan (s : State) (k : Nat) (f : StampChan → StampChan) : (s.modStampChan k f).stampChan k = f (s.stampChan k) := tget_tset_self ({} : StampChan) s.stampCh k _
theorem State.stampChan_modStampChan_ne (s : State) (k j : Nat) (f : StampChan → StampChan) (h : j ≠ k) : (s.modStampChan k f).stampChan j = s.stampChan j :=
  tget_tset_ne ({} : StampChan) s.stampCh k j _ h
@[simp] theorem State.tiuEng_setTiuEng (s : State) (k : Nat) (v : TiuEng) : (s.setTiuEng k v).tiuEng k = v := tget_tset_self ({} : TiuEng) s.tiu k v
theorem State.tiuEng_setTiuEng_ne (s : State) (k j : Nat) (v : TiuEng) (h : j ≠ k) : (s.setTiuEng k v).tiuEng j = s.tiuEng j :=
  tget_tset_ne ({} : TiuEng) s.tiu k j v h
@[simp] theorem State.tiuEng_modTiuEng (s : State) (k : Nat) (f : TiuEng → TiuEng) : (s.modTiuEng k f).tiuEng k = f (s.tiuEng k) := tget_tset_self ({} : TiuEng) s.tiu k _
theorem State.tiuEng_modTiuEng_ne (s : State) (k j : Nat) (f : TiuEng → TiuEng) (h : j ≠ k) : (s.modTiuEng k f).tiuEng j = s.tiuEng j :=
  tget_tset_ne ({} : TiuEng) s.tiu k j _ h
@[simp] theorem State.jport_setJport (s : State) (k : Nat) (v : Jvl) : (s.setJport k v).jport k = v := tget_tset_self ({} : Jvl) s.jvl k v
theorem State.jport_setJport_ne (s : State) (k j : Nat) (v : Jvl) (h : j ≠ k) : (s.setJport k v).jport j = s.jport j :=
  tget_tset_ne ({} : Jvl) s.jvl k j v h
@[simp] theorem State.jport_modJport (s : State) (k : Nat) (f : Jvl → Jvl) : (s.modJport k f).jport k = f (s.jport k) := tget_tset_self ({} : Jvl) s.jvl k _
theorem State.jport_modJport_ne (s : State) (k j : Nat) (f : Jvl → Jvl) (h : j ≠ k) : (s.modJport k f).jport j = s.jport j :=
  tget_tset_ne ({} : Jvl) s.jvl k j _ h
@[simp] theorem State.jctr_setJctr (s : State) (k : Nat) (v : JvlCtrs) : (s.setJctr k v).jctr k = v := tget_tset_self ({} : JvlCtrs) s.jvlCtr k v
theorem State.jctr_setJctr_ne (s : State) (k j : Nat) (v : JvlCtrs) (h : j ≠ k) : (s.setJctr k v).jctr j = s.jctr j :=
  tget_tset_ne ({} : JvlCtrs) s.jvlCtr k j v h
@[simp] theorem State.jctr_modJctr (s : State) (k : Nat) (f : JvlCtrs → JvlCtrs) : (s.modJctr k f).jctr k = f (s.jctr k) := tget_tset_self ({} : JvlCtrs) s.jvlCtr k _
theorem State.jctr_modJctr_ne (s : State) (k j : Nat) (f : JvlCtrs → JvlCtrs) (h : j ≠ k) : (s.modJctr k f).jctr j = s.jctr j :=
  tget_tset_ne ({} : JvlCtrs) s.jvlCtr k j _ h
@[simp] theorem State.ring_setRing (s : State) (k : Nat) (v : Ring) : (s.setRing k v).ring k = v := tget_tset_self ({} : Ring) s.rings k v
theorem State.ring_setRing_ne (s : State) (k j : Nat) (v : Ring) (h : j ≠ k) : (s.setRing k v).ring j = s.ring j :=
  tget_tset_ne ({} : Ring) s.rings k j v h
@[simp] theorem State.ring_modRing (s : State) (k : Nat) (f : Ring → Ring) : (s.modRing k f).ring k = f (s.ring k) := tget_tset_self ({} : Ring) s.rings k _
theorem State.ring_modRing_ne (s : State) (k j : Nat) (f : Ring → Ring) (h : j ≠ k) : (s.modRing k f).ring j = s.ring j :=
  tget_tset_ne ({} : Ring) s.rings k j _ h
@[simp] theorem State.dom_setDom (s : State) (k : Nat) (v : Domain) : (s.setDom k v).dom k = v := tget_tset_self ({} : Domain) s.domains k v
theorem State.dom_setDom_ne (s : State) (k j : Nat) (v : Domain) (h : j ≠ k) : (s.setDom k v).dom j = s.dom j :=
  tget_tset_ne ({} : Domain) s.domains k j v h
@[simp] theorem State.dom_modDom (s : State) (k : Nat) (f : Domain → Domain) : (s.modDom k f).dom k = f (s.dom k) := tget_tset_self ({} : Domain) s.domains k _
theorem State.dom_modDom_ne (s : State) (k j : Nat) (f : Domain → Domain) (h : j ≠ k) : (s.modDom k f).dom j = s.dom j :=
  tget_tset_ne ({} : Domain) s.domains k j _ h
@[simp] theorem State.proof_setProof (s : State) (k : Nat) (v : ProofRun) : (s.setProof k v).proof k = v := tget_tset_self ({} : ProofRun) s.proofs k v
theorem State.proof_setProof_ne (s : State) (k j : Nat) (v : ProofRun) (h : j ≠ k) : (s.setProof k v).proof j = s.proof j :=
  tget_tset_ne ({} : ProofRun) s.proofs k j v h
@[simp] theorem State.proof_modProof (s : State) (k : Nat) (f : ProofRun → ProofRun) : (s.modProof k f).proof k = f (s.proof k) := tget_tset_self ({} : ProofRun) s.proofs k _
theorem State.proof_modProof_ne (s : State) (k j : Nat) (f : ProofRun → ProofRun) (h : j ≠ k) : (s.modProof k f).proof j = s.proof j :=
  tget_tset_ne ({} : ProofRun) s.proofs k j _ h
@[simp] theorem State.sq_setSq (s : State) (k : Nat) (v : SQ) : (s.setSq k v).sq k = v := tget_tset_self ({} : SQ) s.host.sqs k v
theorem State.sq_setSq_ne (s : State) (k j : Nat) (v : SQ) (h : j ≠ k) : (s.setSq k v).sq j = s.sq j :=
  tget_tset_ne ({} : SQ) s.host.sqs k j v h
@[simp] theorem State.sq_modSq (s : State) (k : Nat) (f : SQ → SQ) : (s.modSq k f).sq k = f (s.sq k) := tget_tset_self ({} : SQ) s.host.sqs k _
theorem State.sq_modSq_ne (s : State) (k j : Nat) (f : SQ → SQ) (h : j ≠ k) : (s.modSq k f).sq j = s.sq j :=
  tget_tset_ne ({} : SQ) s.host.sqs k j _ h
@[simp] theorem State.cq_setCq (s : State) (k : Nat) (v : CQ) : (s.setCq k v).cq k = v := tget_tset_self ({} : CQ) s.host.cqs k v
theorem State.cq_setCq_ne (s : State) (k j : Nat) (v : CQ) (h : j ≠ k) : (s.setCq k v).cq j = s.cq j :=
  tget_tset_ne ({} : CQ) s.host.cqs k j v h
@[simp] theorem State.cq_modCq (s : State) (k : Nat) (f : CQ → CQ) : (s.modCq k f).cq k = f (s.cq k) := tget_tset_self ({} : CQ) s.host.cqs k _
theorem State.cq_modCq_ne (s : State) (k j : Nat) (f : CQ → CQ) (h : j ≠ k) : (s.modCq k f).cq j = s.cq j :=
  tget_tset_ne ({} : CQ) s.host.cqs k j _ h

/-! ### Other fields -/

@[simp] theorem State.setBurin_pending (s : State) (k : Nat) (v : Burin) : (s.setBurin k v).pending = s.pending := rfl
@[simp] theorem State.modBurin_pending (s : State) (k : Nat) (g : Burin → Burin) : (s.modBurin k g).pending = s.pending := rfl
@[simp] theorem State.setBurin_now (s : State) (k : Nat) (v : Burin) : (s.setBurin k v).now = s.now := rfl
@[simp] theorem State.modBurin_now (s : State) (k : Nat) (g : Burin → Burin) : (s.modBurin k g).now = s.now := rfl
@[simp] theorem State.setBurin_sys (s : State) (k : Nat) (v : Burin) : (s.setBurin k v).sys = s.sys := rfl
@[simp] theorem State.modBurin_sys (s : State) (k : Nat) (g : Burin → Burin) : (s.modBurin k g).sys = s.sys := rfl
@[simp] theorem State.setBurin_time (s : State) (k : Nat) (v : Burin) : (s.setBurin k v).time = s.time := rfl
@[simp] theorem State.modBurin_time (s : State) (k : Nat) (g : Burin → Burin) : (s.modBurin k g).time = s.time := rfl
@[simp] theorem State.setBurin_gov (s : State) (k : Nat) (v : Burin) : (s.setBurin k v).gov = s.gov := rfl
@[simp] theorem State.modBurin_gov (s : State) (k : Nat) (g : Burin → Burin) : (s.modBurin k g).gov = s.gov := rfl
@[simp] theorem State.setBurin_host (s : State) (k : Nat) (v : Burin) : (s.setBurin k v).host = s.host := rfl
@[simp] theorem State.modBurin_host (s : State) (k : Nat) (g : Burin → Burin) : (s.modBurin k g).host = s.host := rfl
@[simp] theorem State.setBurin_out (s : State) (k : Nat) (v : Burin) : (s.setBurin k v).out = s.out := rfl
@[simp] theorem State.modBurin_out (s : State) (k : Nat) (g : Burin → Burin) : (s.modBurin k g).out = s.out := rfl
@[simp] theorem State.setBurin_cells (s : State) (k : Nat) (v : Burin) : (s.setBurin k v).cells = s.cells := rfl
@[simp] theorem State.modBurin_cells (s : State) (k : Nat) (g : Burin → Burin) : (s.modBurin k g).cells = s.cells := rfl
@[simp] theorem State.setBurin_plates (s : State) (k : Nat) (v : Burin) : (s.setBurin k v).plates = s.plates := rfl
@[simp] theorem State.modBurin_plates (s : State) (k : Nat) (g : Burin → Burin) : (s.modBurin k g).plates = s.plates := rfl
@[simp] theorem State.setBurin_roots (s : State) (k : Nat) (v : Burin) : (s.setBurin k v).roots = s.roots := rfl
@[simp] theorem State.modBurin_roots (s : State) (k : Nat) (g : Burin → Burin) : (s.modBurin k g).roots = s.roots := rfl
@[simp] theorem State.setBurin_faults (s : State) (k : Nat) (v : Burin) : (s.setBurin k v).faults = s.faults := rfl
@[simp] theorem State.modBurin_faults (s : State) (k : Nat) (g : Burin → Burin) : (s.modBurin k g).faults = s.faults := rfl
@[simp] theorem State.setBurin_devFault (s : State) (k : Nat) (v : Burin) : (s.setBurin k v).devFault = s.devFault := rfl
@[simp] theorem State.modBurin_devFault (s : State) (k : Nat) (g : Burin → Burin) : (s.modBurin k g).devFault = s.devFault := rfl
@[simp] theorem State.setBurin_queues (s : State) (k : Nat) (v : Burin) : (s.setBurin k v).queues = s.queues := rfl
@[simp] theorem State.modBurin_queues (s : State) (k : Nat) (g : Burin → Burin) : (s.modBurin k g).queues = s.queues := rfl
@[simp] theorem State.setBurin_tones (s : State) (k : Nat) (v : Burin) : (s.setBurin k v).tones = s.tones := rfl
@[simp] theorem State.modBurin_tones (s : State) (k : Nat) (g : Burin → Burin) : (s.modBurin k g).tones = s.tones := rfl
@[simp] theorem State.setBurin_ports (s : State) (k : Nat) (v : Burin) : (s.setBurin k v).ports = s.ports := rfl
@[simp] theorem State.modBurin_ports (s : State) (k : Nat) (g : Burin → Burin) : (s.modBurin k g).ports = s.ports := rfl
@[simp] theorem State.setBurin_zch (s : State) (k : Nat) (v : Burin) : (s.setBurin k v).zch = s.zch := rfl
@[simp] theorem State.modBurin_zch (s : State) (k : Nat) (g : Burin → Burin) : (s.modBurin k g).zch = s.zch := rfl
@[simp] theorem State.setBurin_zctr (s : State) (k : Nat) (v : Burin) : (s.setBurin k v).zctr = s.zctr := rfl
@[simp] theorem State.modBurin_zctr (s : State) (k : Nat) (g : Burin → Burin) : (s.modBurin k g).zctr = s.zctr := rfl
@[simp] theorem State.setBurin_zbanks (s : State) (k : Nat) (v : Burin) : (s.setBurin k v).zbanks = s.zbanks := rfl
@[simp] theorem State.modBurin_zbanks (s : State) (k : Nat) (g : Burin → Burin) : (s.modBurin k g).zbanks = s.zbanks := rfl
@[simp] theorem State.setBurin_ro (s : State) (k : Nat) (v : Burin) : (s.setBurin k v).ro = s.ro := rfl
@[simp] theorem State.modBurin_ro (s : State) (k : Nat) (g : Burin → Burin) : (s.modBurin k g).ro = s.ro := rfl
@[simp] theorem State.setBurin_stipChains (s : State) (k : Nat) (v : Burin) : (s.setBurin k v).stipChains = s.stipChains := rfl
@[simp] theorem State.modBurin_stipChains (s : State) (k : Nat) (g : Burin → Burin) : (s.modBurin k g).stipChains = s.stipChains := rfl
@[simp] theorem State.setBurin_acqPorts (s : State) (k : Nat) (v : Burin) : (s.setBurin k v).acqPorts = s.acqPorts := rfl
@[simp] theorem State.modBurin_acqPorts (s : State) (k : Nat) (g : Burin → Burin) : (s.modBurin k g).acqPorts = s.acqPorts := rfl
@[simp] theorem State.setBurin_streams (s : State) (k : Nat) (v : Burin) : (s.setBurin k v).streams = s.streams := rfl
@[simp] theorem State.modBurin_streams (s : State) (k : Nat) (g : Burin → Burin) : (s.modBurin k g).streams = s.streams := rfl
@[simp] theorem State.setBurin_epoch (s : State) (k : Nat) (v : Burin) : (s.setBurin k v).epoch = s.epoch := rfl
@[simp] theorem State.modBurin_epoch (s : State) (k : Nat) (g : Burin → Burin) : (s.modBurin k g).epoch = s.epoch := rfl
@[simp] theorem State.setBurin_epochPrev (s : State) (k : Nat) (v : Burin) : (s.setBurin k v).epochPrev = s.epochPrev := rfl
@[simp] theorem State.modBurin_epochPrev (s : State) (k : Nat) (g : Burin → Burin) : (s.modBurin k g).epochPrev = s.epochPrev := rfl
@[simp] theorem State.setBurin_alignArm (s : State) (k : Nat) (v : Burin) : (s.setBurin k v).alignArm = s.alignArm := rfl
@[simp] theorem State.modBurin_alignArm (s : State) (k : Nat) (g : Burin → Burin) : (s.modBurin k g).alignArm = s.alignArm := rfl
@[simp] theorem State.setBurin_chans (s : State) (k : Nat) (v : Burin) : (s.setBurin k v).chans = s.chans := rfl
@[simp] theorem State.modBurin_chans (s : State) (k : Nat) (g : Burin → Burin) : (s.modBurin k g).chans = s.chans := rfl
@[simp] theorem State.setBurin_chCtrs (s : State) (k : Nat) (v : Burin) : (s.setBurin k v).chCtrs = s.chCtrs := rfl
@[simp] theorem State.modBurin_chCtrs (s : State) (k : Nat) (g : Burin → Burin) : (s.modBurin k g).chCtrs = s.chCtrs := rfl
@[simp] theorem State.setBurin_gates (s : State) (k : Nat) (v : Burin) : (s.setBurin k v).gates = s.gates := rfl
@[simp] theorem State.modBurin_gates (s : State) (k : Nat) (g : Burin → Burin) : (s.modBurin k g).gates = s.gates := rfl
@[simp] theorem State.setBurin_gatePend (s : State) (k : Nat) (v : Burin) : (s.setBurin k v).gatePend = s.gatePend := rfl
@[simp] theorem State.modBurin_gatePend (s : State) (k : Nat) (g : Burin → Burin) : (s.modBurin k g).gatePend = s.gatePend := rfl
@[simp] theorem State.setBurin_engines (s : State) (k : Nat) (v : Burin) : (s.setBurin k v).engines = s.engines := rfl
@[simp] theorem State.modBurin_engines (s : State) (k : Nat) (g : Burin → Burin) : (s.modBurin k g).engines = s.engines := rfl
@[simp] theorem State.setBurin_mark (s : State) (k : Nat) (v : Burin) : (s.setBurin k v).mark = s.mark := rfl
@[simp] theorem State.modBurin_mark (s : State) (k : Nat) (g : Burin → Burin) : (s.modBurin k g).mark = s.mark := rfl
@[simp] theorem State.setBurin_stampCh (s : State) (k : Nat) (v : Burin) : (s.setBurin k v).stampCh = s.stampCh := rfl
@[simp] theorem State.modBurin_stampCh (s : State) (k : Nat) (g : Burin → Burin) : (s.modBurin k g).stampCh = s.stampCh := rfl
@[simp] theorem State.setBurin_tiu (s : State) (k : Nat) (v : Burin) : (s.setBurin k v).tiu = s.tiu := rfl
@[simp] theorem State.modBurin_tiu (s : State) (k : Nat) (g : Burin → Burin) : (s.modBurin k g).tiu = s.tiu := rfl
@[simp] theorem State.setBurin_jvl (s : State) (k : Nat) (v : Burin) : (s.setBurin k v).jvl = s.jvl := rfl
@[simp] theorem State.modBurin_jvl (s : State) (k : Nat) (g : Burin → Burin) : (s.modBurin k g).jvl = s.jvl := rfl
@[simp] theorem State.setBurin_jvlCtr (s : State) (k : Nat) (v : Burin) : (s.setBurin k v).jvlCtr = s.jvlCtr := rfl
@[simp] theorem State.modBurin_jvlCtr (s : State) (k : Nat) (g : Burin → Burin) : (s.modBurin k g).jvlCtr = s.jvlCtr := rfl
@[simp] theorem State.setBurin_timePort (s : State) (k : Nat) (v : Burin) : (s.setBurin k v).timePort = s.timePort := rfl
@[simp] theorem State.modBurin_timePort (s : State) (k : Nat) (g : Burin → Burin) : (s.modBurin k g).timePort = s.timePort := rfl
@[simp] theorem State.setBurin_mem (s : State) (k : Nat) (v : Burin) : (s.setBurin k v).mem = s.mem := rfl
@[simp] theorem State.modBurin_mem (s : State) (k : Nat) (g : Burin → Burin) : (s.modBurin k g).mem = s.mem := rfl
@[simp] theorem State.setBurin_rings (s : State) (k : Nat) (v : Burin) : (s.setBurin k v).rings = s.rings := rfl
@[simp] theorem State.modBurin_rings (s : State) (k : Nat) (g : Burin → Burin) : (s.modBurin k g).rings = s.rings := rfl
@[simp] theorem State.setBurin_domains (s : State) (k : Nat) (v : Burin) : (s.setBurin k v).domains = s.domains := rfl
@[simp] theorem State.modBurin_domains (s : State) (k : Nat) (g : Burin → Burin) : (s.modBurin k g).domains = s.domains := rfl
@[simp] theorem State.setBurin_refLog (s : State) (k : Nat) (v : Burin) : (s.setBurin k v).refLog = s.refLog := rfl
@[simp] theorem State.modBurin_refLog (s : State) (k : Nat) (g : Burin → Burin) : (s.modBurin k g).refLog = s.refLog := rfl
@[simp] theorem State.setBurin_house (s : State) (k : Nat) (v : Burin) : (s.setBurin k v).house = s.house := rfl
@[simp] theorem State.modBurin_house (s : State) (k : Nat) (g : Burin → Burin) : (s.modBurin k g).house = s.house := rfl
@[simp] theorem State.setBurin_calib (s : State) (k : Nat) (v : Burin) : (s.setBurin k v).calib = s.calib := rfl
@[simp] theorem State.modBurin_calib (s : State) (k : Nat) (g : Burin → Burin) : (s.modBurin k g).calib = s.calib := rfl
@[simp] theorem State.setBurin_proofs (s : State) (k : Nat) (v : Burin) : (s.setBurin k v).proofs = s.proofs := rfl
@[simp] theorem State.modBurin_proofs (s : State) (k : Nat) (g : Burin → Burin) : (s.modBurin k g).proofs = s.proofs := rfl
@[simp] theorem State.setBurin_joins (s : State) (k : Nat) (v : Burin) : (s.setBurin k v).joins = s.joins := rfl
@[simp] theorem State.modBurin_joins (s : State) (k : Nat) (g : Burin → Burin) : (s.modBurin k g).joins = s.joins := rfl
@[simp] theorem State.setBurin_promises (s : State) (k : Nat) (v : Burin) : (s.setBurin k v).promises = s.promises := rfl
@[simp] theorem State.modBurin_promises (s : State) (k : Nat) (g : Burin → Burin) : (s.modBurin k g).promises = s.promises := rfl
@[simp] theorem State.setBurin_nextId (s : State) (k : Nat) (v : Burin) : (s.setBurin k v).nextId = s.nextId := rfl
@[simp] theorem State.modBurin_nextId (s : State) (k : Nat) (g : Burin → Burin) : (s.modBurin k g).nextId = s.nextId := rfl
@[simp] theorem State.setBurin_boot (s : State) (k : Nat) (v : Burin) : (s.setBurin k v).boot = s.boot := rfl
@[simp] theorem State.modBurin_boot (s : State) (k : Nat) (g : Burin → Burin) : (s.modBurin k g).boot = s.boot := rfl
@[simp] theorem State.setBurin_patches (s : State) (k : Nat) (v : Burin) : (s.setBurin k v).patches = s.patches := rfl
@[simp] theorem State.modBurin_patches (s : State) (k : Nat) (g : Burin → Burin) : (s.modBurin k g).patches = s.patches := rfl
@[simp] theorem State.setBurin_side (s : State) (k : Nat) (v : Burin) : (s.setBurin k v).side = s.side := rfl
@[simp] theorem State.modBurin_side (s : State) (k : Nat) (g : Burin → Burin) : (s.modBurin k g).side = s.side := rfl
@[simp] theorem State.setBurin_free (s : State) (k : Nat) (v : Burin) : (s.setBurin k v).free = s.free := rfl
@[simp] theorem State.modBurin_free (s : State) (k : Nat) (g : Burin → Burin) : (s.modBurin k g).free = s.free := rfl
@[simp] theorem State.setCell_pending (s : State) (k : Nat) (v : CellSt) : (s.setCell k v).pending = s.pending := rfl
@[simp] theorem State.modCell_pending (s : State) (k : Nat) (g : CellSt → CellSt) : (s.modCell k g).pending = s.pending := rfl
@[simp] theorem State.setCell_now (s : State) (k : Nat) (v : CellSt) : (s.setCell k v).now = s.now := rfl
@[simp] theorem State.modCell_now (s : State) (k : Nat) (g : CellSt → CellSt) : (s.modCell k g).now = s.now := rfl
@[simp] theorem State.setCell_sys (s : State) (k : Nat) (v : CellSt) : (s.setCell k v).sys = s.sys := rfl
@[simp] theorem State.modCell_sys (s : State) (k : Nat) (g : CellSt → CellSt) : (s.modCell k g).sys = s.sys := rfl
@[simp] theorem State.setCell_time (s : State) (k : Nat) (v : CellSt) : (s.setCell k v).time = s.time := rfl
@[simp] theorem State.modCell_time (s : State) (k : Nat) (g : CellSt → CellSt) : (s.modCell k g).time = s.time := rfl
@[simp] theorem State.setCell_gov (s : State) (k : Nat) (v : CellSt) : (s.setCell k v).gov = s.gov := rfl
@[simp] theorem State.modCell_gov (s : State) (k : Nat) (g : CellSt → CellSt) : (s.modCell k g).gov = s.gov := rfl
@[simp] theorem State.setCell_host (s : State) (k : Nat) (v : CellSt) : (s.setCell k v).host = s.host := rfl
@[simp] theorem State.modCell_host (s : State) (k : Nat) (g : CellSt → CellSt) : (s.modCell k g).host = s.host := rfl
@[simp] theorem State.setCell_out (s : State) (k : Nat) (v : CellSt) : (s.setCell k v).out = s.out := rfl
@[simp] theorem State.modCell_out (s : State) (k : Nat) (g : CellSt → CellSt) : (s.modCell k g).out = s.out := rfl
@[simp] theorem State.setCell_burins (s : State) (k : Nat) (v : CellSt) : (s.setCell k v).burins = s.burins := rfl
@[simp] theorem State.modCell_burins (s : State) (k : Nat) (g : CellSt → CellSt) : (s.modCell k g).burins = s.burins := rfl
@[simp] theorem State.setCell_plates (s : State) (k : Nat) (v : CellSt) : (s.setCell k v).plates = s.plates := rfl
@[simp] theorem State.modCell_plates (s : State) (k : Nat) (g : CellSt → CellSt) : (s.modCell k g).plates = s.plates := rfl
@[simp] theorem State.setCell_roots (s : State) (k : Nat) (v : CellSt) : (s.setCell k v).roots = s.roots := rfl
@[simp] theorem State.modCell_roots (s : State) (k : Nat) (g : CellSt → CellSt) : (s.modCell k g).roots = s.roots := rfl
@[simp] theorem State.setCell_faults (s : State) (k : Nat) (v : CellSt) : (s.setCell k v).faults = s.faults := rfl
@[simp] theorem State.modCell_faults (s : State) (k : Nat) (g : CellSt → CellSt) : (s.modCell k g).faults = s.faults := rfl
@[simp] theorem State.setCell_devFault (s : State) (k : Nat) (v : CellSt) : (s.setCell k v).devFault = s.devFault := rfl
@[simp] theorem State.modCell_devFault (s : State) (k : Nat) (g : CellSt → CellSt) : (s.modCell k g).devFault = s.devFault := rfl
@[simp] theorem State.setCell_queues (s : State) (k : Nat) (v : CellSt) : (s.setCell k v).queues = s.queues := rfl
@[simp] theorem State.modCell_queues (s : State) (k : Nat) (g : CellSt → CellSt) : (s.modCell k g).queues = s.queues := rfl
@[simp] theorem State.setCell_tones (s : State) (k : Nat) (v : CellSt) : (s.setCell k v).tones = s.tones := rfl
@[simp] theorem State.modCell_tones (s : State) (k : Nat) (g : CellSt → CellSt) : (s.modCell k g).tones = s.tones := rfl
@[simp] theorem State.setCell_ports (s : State) (k : Nat) (v : CellSt) : (s.setCell k v).ports = s.ports := rfl
@[simp] theorem State.modCell_ports (s : State) (k : Nat) (g : CellSt → CellSt) : (s.modCell k g).ports = s.ports := rfl
@[simp] theorem State.setCell_zch (s : State) (k : Nat) (v : CellSt) : (s.setCell k v).zch = s.zch := rfl
@[simp] theorem State.modCell_zch (s : State) (k : Nat) (g : CellSt → CellSt) : (s.modCell k g).zch = s.zch := rfl
@[simp] theorem State.setCell_zctr (s : State) (k : Nat) (v : CellSt) : (s.setCell k v).zctr = s.zctr := rfl
@[simp] theorem State.modCell_zctr (s : State) (k : Nat) (g : CellSt → CellSt) : (s.modCell k g).zctr = s.zctr := rfl
@[simp] theorem State.setCell_zbanks (s : State) (k : Nat) (v : CellSt) : (s.setCell k v).zbanks = s.zbanks := rfl
@[simp] theorem State.modCell_zbanks (s : State) (k : Nat) (g : CellSt → CellSt) : (s.modCell k g).zbanks = s.zbanks := rfl
@[simp] theorem State.setCell_ro (s : State) (k : Nat) (v : CellSt) : (s.setCell k v).ro = s.ro := rfl
@[simp] theorem State.modCell_ro (s : State) (k : Nat) (g : CellSt → CellSt) : (s.modCell k g).ro = s.ro := rfl
@[simp] theorem State.setCell_stipChains (s : State) (k : Nat) (v : CellSt) : (s.setCell k v).stipChains = s.stipChains := rfl
@[simp] theorem State.modCell_stipChains (s : State) (k : Nat) (g : CellSt → CellSt) : (s.modCell k g).stipChains = s.stipChains := rfl
@[simp] theorem State.setCell_acqPorts (s : State) (k : Nat) (v : CellSt) : (s.setCell k v).acqPorts = s.acqPorts := rfl
@[simp] theorem State.modCell_acqPorts (s : State) (k : Nat) (g : CellSt → CellSt) : (s.modCell k g).acqPorts = s.acqPorts := rfl
@[simp] theorem State.setCell_streams (s : State) (k : Nat) (v : CellSt) : (s.setCell k v).streams = s.streams := rfl
@[simp] theorem State.modCell_streams (s : State) (k : Nat) (g : CellSt → CellSt) : (s.modCell k g).streams = s.streams := rfl
@[simp] theorem State.setCell_epoch (s : State) (k : Nat) (v : CellSt) : (s.setCell k v).epoch = s.epoch := rfl
@[simp] theorem State.modCell_epoch (s : State) (k : Nat) (g : CellSt → CellSt) : (s.modCell k g).epoch = s.epoch := rfl
@[simp] theorem State.setCell_epochPrev (s : State) (k : Nat) (v : CellSt) : (s.setCell k v).epochPrev = s.epochPrev := rfl
@[simp] theorem State.modCell_epochPrev (s : State) (k : Nat) (g : CellSt → CellSt) : (s.modCell k g).epochPrev = s.epochPrev := rfl
@[simp] theorem State.setCell_alignArm (s : State) (k : Nat) (v : CellSt) : (s.setCell k v).alignArm = s.alignArm := rfl
@[simp] theorem State.modCell_alignArm (s : State) (k : Nat) (g : CellSt → CellSt) : (s.modCell k g).alignArm = s.alignArm := rfl
@[simp] theorem State.setCell_chans (s : State) (k : Nat) (v : CellSt) : (s.setCell k v).chans = s.chans := rfl
@[simp] theorem State.modCell_chans (s : State) (k : Nat) (g : CellSt → CellSt) : (s.modCell k g).chans = s.chans := rfl
@[simp] theorem State.setCell_chCtrs (s : State) (k : Nat) (v : CellSt) : (s.setCell k v).chCtrs = s.chCtrs := rfl
@[simp] theorem State.modCell_chCtrs (s : State) (k : Nat) (g : CellSt → CellSt) : (s.modCell k g).chCtrs = s.chCtrs := rfl
@[simp] theorem State.setCell_gates (s : State) (k : Nat) (v : CellSt) : (s.setCell k v).gates = s.gates := rfl
@[simp] theorem State.modCell_gates (s : State) (k : Nat) (g : CellSt → CellSt) : (s.modCell k g).gates = s.gates := rfl
@[simp] theorem State.setCell_gatePend (s : State) (k : Nat) (v : CellSt) : (s.setCell k v).gatePend = s.gatePend := rfl
@[simp] theorem State.modCell_gatePend (s : State) (k : Nat) (g : CellSt → CellSt) : (s.modCell k g).gatePend = s.gatePend := rfl
@[simp] theorem State.setCell_engines (s : State) (k : Nat) (v : CellSt) : (s.setCell k v).engines = s.engines := rfl
@[simp] theorem State.modCell_engines (s : State) (k : Nat) (g : CellSt → CellSt) : (s.modCell k g).engines = s.engines := rfl
@[simp] theorem State.setCell_mark (s : State) (k : Nat) (v : CellSt) : (s.setCell k v).mark = s.mark := rfl
@[simp] theorem State.modCell_mark (s : State) (k : Nat) (g : CellSt → CellSt) : (s.modCell k g).mark = s.mark := rfl
@[simp] theorem State.setCell_stampCh (s : State) (k : Nat) (v : CellSt) : (s.setCell k v).stampCh = s.stampCh := rfl
@[simp] theorem State.modCell_stampCh (s : State) (k : Nat) (g : CellSt → CellSt) : (s.modCell k g).stampCh = s.stampCh := rfl
@[simp] theorem State.setCell_tiu (s : State) (k : Nat) (v : CellSt) : (s.setCell k v).tiu = s.tiu := rfl
@[simp] theorem State.modCell_tiu (s : State) (k : Nat) (g : CellSt → CellSt) : (s.modCell k g).tiu = s.tiu := rfl
@[simp] theorem State.setCell_jvl (s : State) (k : Nat) (v : CellSt) : (s.setCell k v).jvl = s.jvl := rfl
@[simp] theorem State.modCell_jvl (s : State) (k : Nat) (g : CellSt → CellSt) : (s.modCell k g).jvl = s.jvl := rfl
@[simp] theorem State.setCell_jvlCtr (s : State) (k : Nat) (v : CellSt) : (s.setCell k v).jvlCtr = s.jvlCtr := rfl
@[simp] theorem State.modCell_jvlCtr (s : State) (k : Nat) (g : CellSt → CellSt) : (s.modCell k g).jvlCtr = s.jvlCtr := rfl
@[simp] theorem State.setCell_timePort (s : State) (k : Nat) (v : CellSt) : (s.setCell k v).timePort = s.timePort := rfl
@[simp] theorem State.modCell_timePort (s : State) (k : Nat) (g : CellSt → CellSt) : (s.modCell k g).timePort = s.timePort := rfl
@[simp] theorem State.setCell_mem (s : State) (k : Nat) (v : CellSt) : (s.setCell k v).mem = s.mem := rfl
@[simp] theorem State.modCell_mem (s : State) (k : Nat) (g : CellSt → CellSt) : (s.modCell k g).mem = s.mem := rfl
@[simp] theorem State.setCell_rings (s : State) (k : Nat) (v : CellSt) : (s.setCell k v).rings = s.rings := rfl
@[simp] theorem State.modCell_rings (s : State) (k : Nat) (g : CellSt → CellSt) : (s.modCell k g).rings = s.rings := rfl
@[simp] theorem State.setCell_domains (s : State) (k : Nat) (v : CellSt) : (s.setCell k v).domains = s.domains := rfl
@[simp] theorem State.modCell_domains (s : State) (k : Nat) (g : CellSt → CellSt) : (s.modCell k g).domains = s.domains := rfl
@[simp] theorem State.setCell_refLog (s : State) (k : Nat) (v : CellSt) : (s.setCell k v).refLog = s.refLog := rfl
@[simp] theorem State.modCell_refLog (s : State) (k : Nat) (g : CellSt → CellSt) : (s.modCell k g).refLog = s.refLog := rfl
@[simp] theorem State.setCell_house (s : State) (k : Nat) (v : CellSt) : (s.setCell k v).house = s.house := rfl
@[simp] theorem State.modCell_house (s : State) (k : Nat) (g : CellSt → CellSt) : (s.modCell k g).house = s.house := rfl
@[simp] theorem State.setCell_calib (s : State) (k : Nat) (v : CellSt) : (s.setCell k v).calib = s.calib := rfl
@[simp] theorem State.modCell_calib (s : State) (k : Nat) (g : CellSt → CellSt) : (s.modCell k g).calib = s.calib := rfl
@[simp] theorem State.setCell_proofs (s : State) (k : Nat) (v : CellSt) : (s.setCell k v).proofs = s.proofs := rfl
@[simp] theorem State.modCell_proofs (s : State) (k : Nat) (g : CellSt → CellSt) : (s.modCell k g).proofs = s.proofs := rfl
@[simp] theorem State.setCell_joins (s : State) (k : Nat) (v : CellSt) : (s.setCell k v).joins = s.joins := rfl
@[simp] theorem State.modCell_joins (s : State) (k : Nat) (g : CellSt → CellSt) : (s.modCell k g).joins = s.joins := rfl
@[simp] theorem State.setCell_promises (s : State) (k : Nat) (v : CellSt) : (s.setCell k v).promises = s.promises := rfl
@[simp] theorem State.modCell_promises (s : State) (k : Nat) (g : CellSt → CellSt) : (s.modCell k g).promises = s.promises := rfl
@[simp] theorem State.setCell_nextId (s : State) (k : Nat) (v : CellSt) : (s.setCell k v).nextId = s.nextId := rfl
@[simp] theorem State.modCell_nextId (s : State) (k : Nat) (g : CellSt → CellSt) : (s.modCell k g).nextId = s.nextId := rfl
@[simp] theorem State.setCell_boot (s : State) (k : Nat) (v : CellSt) : (s.setCell k v).boot = s.boot := rfl
@[simp] theorem State.modCell_boot (s : State) (k : Nat) (g : CellSt → CellSt) : (s.modCell k g).boot = s.boot := rfl
@[simp] theorem State.setCell_patches (s : State) (k : Nat) (v : CellSt) : (s.setCell k v).patches = s.patches := rfl
@[simp] theorem State.modCell_patches (s : State) (k : Nat) (g : CellSt → CellSt) : (s.modCell k g).patches = s.patches := rfl
@[simp] theorem State.setCell_side (s : State) (k : Nat) (v : CellSt) : (s.setCell k v).side = s.side := rfl
@[simp] theorem State.modCell_side (s : State) (k : Nat) (g : CellSt → CellSt) : (s.modCell k g).side = s.side := rfl
@[simp] theorem State.setCell_free (s : State) (k : Nat) (v : CellSt) : (s.setCell k v).free = s.free := rfl
@[simp] theorem State.modCell_free (s : State) (k : Nat) (g : CellSt → CellSt) : (s.modCell k g).free = s.free := rfl
@[simp] theorem State.setPlate_pending (s : State) (k : Nat) (v : Plate) : (s.setPlate k v).pending = s.pending := rfl
@[simp] theorem State.modPlate_pending (s : State) (k : Nat) (g : Plate → Plate) : (s.modPlate k g).pending = s.pending := rfl
@[simp] theorem State.setPlate_now (s : State) (k : Nat) (v : Plate) : (s.setPlate k v).now = s.now := rfl
@[simp] theorem State.modPlate_now (s : State) (k : Nat) (g : Plate → Plate) : (s.modPlate k g).now = s.now := rfl
@[simp] theorem State.setPlate_sys (s : State) (k : Nat) (v : Plate) : (s.setPlate k v).sys = s.sys := rfl
@[simp] theorem State.modPlate_sys (s : State) (k : Nat) (g : Plate → Plate) : (s.modPlate k g).sys = s.sys := rfl
@[simp] theorem State.setPlate_time (s : State) (k : Nat) (v : Plate) : (s.setPlate k v).time = s.time := rfl
@[simp] theorem State.modPlate_time (s : State) (k : Nat) (g : Plate → Plate) : (s.modPlate k g).time = s.time := rfl
@[simp] theorem State.setPlate_gov (s : State) (k : Nat) (v : Plate) : (s.setPlate k v).gov = s.gov := rfl
@[simp] theorem State.modPlate_gov (s : State) (k : Nat) (g : Plate → Plate) : (s.modPlate k g).gov = s.gov := rfl
@[simp] theorem State.setPlate_host (s : State) (k : Nat) (v : Plate) : (s.setPlate k v).host = s.host := rfl
@[simp] theorem State.modPlate_host (s : State) (k : Nat) (g : Plate → Plate) : (s.modPlate k g).host = s.host := rfl
@[simp] theorem State.setPlate_out (s : State) (k : Nat) (v : Plate) : (s.setPlate k v).out = s.out := rfl
@[simp] theorem State.modPlate_out (s : State) (k : Nat) (g : Plate → Plate) : (s.modPlate k g).out = s.out := rfl
@[simp] theorem State.setPlate_burins (s : State) (k : Nat) (v : Plate) : (s.setPlate k v).burins = s.burins := rfl
@[simp] theorem State.modPlate_burins (s : State) (k : Nat) (g : Plate → Plate) : (s.modPlate k g).burins = s.burins := rfl
@[simp] theorem State.setPlate_cells (s : State) (k : Nat) (v : Plate) : (s.setPlate k v).cells = s.cells := rfl
@[simp] theorem State.modPlate_cells (s : State) (k : Nat) (g : Plate → Plate) : (s.modPlate k g).cells = s.cells := rfl
@[simp] theorem State.setPlate_roots (s : State) (k : Nat) (v : Plate) : (s.setPlate k v).roots = s.roots := rfl
@[simp] theorem State.modPlate_roots (s : State) (k : Nat) (g : Plate → Plate) : (s.modPlate k g).roots = s.roots := rfl
@[simp] theorem State.setPlate_faults (s : State) (k : Nat) (v : Plate) : (s.setPlate k v).faults = s.faults := rfl
@[simp] theorem State.modPlate_faults (s : State) (k : Nat) (g : Plate → Plate) : (s.modPlate k g).faults = s.faults := rfl
@[simp] theorem State.setPlate_devFault (s : State) (k : Nat) (v : Plate) : (s.setPlate k v).devFault = s.devFault := rfl
@[simp] theorem State.modPlate_devFault (s : State) (k : Nat) (g : Plate → Plate) : (s.modPlate k g).devFault = s.devFault := rfl
@[simp] theorem State.setPlate_queues (s : State) (k : Nat) (v : Plate) : (s.setPlate k v).queues = s.queues := rfl
@[simp] theorem State.modPlate_queues (s : State) (k : Nat) (g : Plate → Plate) : (s.modPlate k g).queues = s.queues := rfl
@[simp] theorem State.setPlate_tones (s : State) (k : Nat) (v : Plate) : (s.setPlate k v).tones = s.tones := rfl
@[simp] theorem State.modPlate_tones (s : State) (k : Nat) (g : Plate → Plate) : (s.modPlate k g).tones = s.tones := rfl
@[simp] theorem State.setPlate_ports (s : State) (k : Nat) (v : Plate) : (s.setPlate k v).ports = s.ports := rfl
@[simp] theorem State.modPlate_ports (s : State) (k : Nat) (g : Plate → Plate) : (s.modPlate k g).ports = s.ports := rfl
@[simp] theorem State.setPlate_zch (s : State) (k : Nat) (v : Plate) : (s.setPlate k v).zch = s.zch := rfl
@[simp] theorem State.modPlate_zch (s : State) (k : Nat) (g : Plate → Plate) : (s.modPlate k g).zch = s.zch := rfl
@[simp] theorem State.setPlate_zctr (s : State) (k : Nat) (v : Plate) : (s.setPlate k v).zctr = s.zctr := rfl
@[simp] theorem State.modPlate_zctr (s : State) (k : Nat) (g : Plate → Plate) : (s.modPlate k g).zctr = s.zctr := rfl
@[simp] theorem State.setPlate_zbanks (s : State) (k : Nat) (v : Plate) : (s.setPlate k v).zbanks = s.zbanks := rfl
@[simp] theorem State.modPlate_zbanks (s : State) (k : Nat) (g : Plate → Plate) : (s.modPlate k g).zbanks = s.zbanks := rfl
@[simp] theorem State.setPlate_ro (s : State) (k : Nat) (v : Plate) : (s.setPlate k v).ro = s.ro := rfl
@[simp] theorem State.modPlate_ro (s : State) (k : Nat) (g : Plate → Plate) : (s.modPlate k g).ro = s.ro := rfl
@[simp] theorem State.setPlate_stipChains (s : State) (k : Nat) (v : Plate) : (s.setPlate k v).stipChains = s.stipChains := rfl
@[simp] theorem State.modPlate_stipChains (s : State) (k : Nat) (g : Plate → Plate) : (s.modPlate k g).stipChains = s.stipChains := rfl
@[simp] theorem State.setPlate_acqPorts (s : State) (k : Nat) (v : Plate) : (s.setPlate k v).acqPorts = s.acqPorts := rfl
@[simp] theorem State.modPlate_acqPorts (s : State) (k : Nat) (g : Plate → Plate) : (s.modPlate k g).acqPorts = s.acqPorts := rfl
@[simp] theorem State.setPlate_streams (s : State) (k : Nat) (v : Plate) : (s.setPlate k v).streams = s.streams := rfl
@[simp] theorem State.modPlate_streams (s : State) (k : Nat) (g : Plate → Plate) : (s.modPlate k g).streams = s.streams := rfl
@[simp] theorem State.setPlate_epoch (s : State) (k : Nat) (v : Plate) : (s.setPlate k v).epoch = s.epoch := rfl
@[simp] theorem State.modPlate_epoch (s : State) (k : Nat) (g : Plate → Plate) : (s.modPlate k g).epoch = s.epoch := rfl
@[simp] theorem State.setPlate_epochPrev (s : State) (k : Nat) (v : Plate) : (s.setPlate k v).epochPrev = s.epochPrev := rfl
@[simp] theorem State.modPlate_epochPrev (s : State) (k : Nat) (g : Plate → Plate) : (s.modPlate k g).epochPrev = s.epochPrev := rfl
@[simp] theorem State.setPlate_alignArm (s : State) (k : Nat) (v : Plate) : (s.setPlate k v).alignArm = s.alignArm := rfl
@[simp] theorem State.modPlate_alignArm (s : State) (k : Nat) (g : Plate → Plate) : (s.modPlate k g).alignArm = s.alignArm := rfl
@[simp] theorem State.setPlate_chans (s : State) (k : Nat) (v : Plate) : (s.setPlate k v).chans = s.chans := rfl
@[simp] theorem State.modPlate_chans (s : State) (k : Nat) (g : Plate → Plate) : (s.modPlate k g).chans = s.chans := rfl
@[simp] theorem State.setPlate_chCtrs (s : State) (k : Nat) (v : Plate) : (s.setPlate k v).chCtrs = s.chCtrs := rfl
@[simp] theorem State.modPlate_chCtrs (s : State) (k : Nat) (g : Plate → Plate) : (s.modPlate k g).chCtrs = s.chCtrs := rfl
@[simp] theorem State.setPlate_gates (s : State) (k : Nat) (v : Plate) : (s.setPlate k v).gates = s.gates := rfl
@[simp] theorem State.modPlate_gates (s : State) (k : Nat) (g : Plate → Plate) : (s.modPlate k g).gates = s.gates := rfl
@[simp] theorem State.setPlate_gatePend (s : State) (k : Nat) (v : Plate) : (s.setPlate k v).gatePend = s.gatePend := rfl
@[simp] theorem State.modPlate_gatePend (s : State) (k : Nat) (g : Plate → Plate) : (s.modPlate k g).gatePend = s.gatePend := rfl
@[simp] theorem State.setPlate_engines (s : State) (k : Nat) (v : Plate) : (s.setPlate k v).engines = s.engines := rfl
@[simp] theorem State.modPlate_engines (s : State) (k : Nat) (g : Plate → Plate) : (s.modPlate k g).engines = s.engines := rfl
@[simp] theorem State.setPlate_mark (s : State) (k : Nat) (v : Plate) : (s.setPlate k v).mark = s.mark := rfl
@[simp] theorem State.modPlate_mark (s : State) (k : Nat) (g : Plate → Plate) : (s.modPlate k g).mark = s.mark := rfl
@[simp] theorem State.setPlate_stampCh (s : State) (k : Nat) (v : Plate) : (s.setPlate k v).stampCh = s.stampCh := rfl
@[simp] theorem State.modPlate_stampCh (s : State) (k : Nat) (g : Plate → Plate) : (s.modPlate k g).stampCh = s.stampCh := rfl
@[simp] theorem State.setPlate_tiu (s : State) (k : Nat) (v : Plate) : (s.setPlate k v).tiu = s.tiu := rfl
@[simp] theorem State.modPlate_tiu (s : State) (k : Nat) (g : Plate → Plate) : (s.modPlate k g).tiu = s.tiu := rfl
@[simp] theorem State.setPlate_jvl (s : State) (k : Nat) (v : Plate) : (s.setPlate k v).jvl = s.jvl := rfl
@[simp] theorem State.modPlate_jvl (s : State) (k : Nat) (g : Plate → Plate) : (s.modPlate k g).jvl = s.jvl := rfl
@[simp] theorem State.setPlate_jvlCtr (s : State) (k : Nat) (v : Plate) : (s.setPlate k v).jvlCtr = s.jvlCtr := rfl
@[simp] theorem State.modPlate_jvlCtr (s : State) (k : Nat) (g : Plate → Plate) : (s.modPlate k g).jvlCtr = s.jvlCtr := rfl
@[simp] theorem State.setPlate_timePort (s : State) (k : Nat) (v : Plate) : (s.setPlate k v).timePort = s.timePort := rfl
@[simp] theorem State.modPlate_timePort (s : State) (k : Nat) (g : Plate → Plate) : (s.modPlate k g).timePort = s.timePort := rfl
@[simp] theorem State.setPlate_mem (s : State) (k : Nat) (v : Plate) : (s.setPlate k v).mem = s.mem := rfl
@[simp] theorem State.modPlate_mem (s : State) (k : Nat) (g : Plate → Plate) : (s.modPlate k g).mem = s.mem := rfl
@[simp] theorem State.setPlate_rings (s : State) (k : Nat) (v : Plate) : (s.setPlate k v).rings = s.rings := rfl
@[simp] theorem State.modPlate_rings (s : State) (k : Nat) (g : Plate → Plate) : (s.modPlate k g).rings = s.rings := rfl
@[simp] theorem State.setPlate_domains (s : State) (k : Nat) (v : Plate) : (s.setPlate k v).domains = s.domains := rfl
@[simp] theorem State.modPlate_domains (s : State) (k : Nat) (g : Plate → Plate) : (s.modPlate k g).domains = s.domains := rfl
@[simp] theorem State.setPlate_refLog (s : State) (k : Nat) (v : Plate) : (s.setPlate k v).refLog = s.refLog := rfl
@[simp] theorem State.modPlate_refLog (s : State) (k : Nat) (g : Plate → Plate) : (s.modPlate k g).refLog = s.refLog := rfl
@[simp] theorem State.setPlate_house (s : State) (k : Nat) (v : Plate) : (s.setPlate k v).house = s.house := rfl
@[simp] theorem State.modPlate_house (s : State) (k : Nat) (g : Plate → Plate) : (s.modPlate k g).house = s.house := rfl
@[simp] theorem State.setPlate_calib (s : State) (k : Nat) (v : Plate) : (s.setPlate k v).calib = s.calib := rfl
@[simp] theorem State.modPlate_calib (s : State) (k : Nat) (g : Plate → Plate) : (s.modPlate k g).calib = s.calib := rfl
@[simp] theorem State.setPlate_proofs (s : State) (k : Nat) (v : Plate) : (s.setPlate k v).proofs = s.proofs := rfl
@[simp] theorem State.modPlate_proofs (s : State) (k : Nat) (g : Plate → Plate) : (s.modPlate k g).proofs = s.proofs := rfl
@[simp] theorem State.setPlate_joins (s : State) (k : Nat) (v : Plate) : (s.setPlate k v).joins = s.joins := rfl
@[simp] theorem State.modPlate_joins (s : State) (k : Nat) (g : Plate → Plate) : (s.modPlate k g).joins = s.joins := rfl
@[simp] theorem State.setPlate_promises (s : State) (k : Nat) (v : Plate) : (s.setPlate k v).promises = s.promises := rfl
@[simp] theorem State.modPlate_promises (s : State) (k : Nat) (g : Plate → Plate) : (s.modPlate k g).promises = s.promises := rfl
@[simp] theorem State.setPlate_nextId (s : State) (k : Nat) (v : Plate) : (s.setPlate k v).nextId = s.nextId := rfl
@[simp] theorem State.modPlate_nextId (s : State) (k : Nat) (g : Plate → Plate) : (s.modPlate k g).nextId = s.nextId := rfl
@[simp] theorem State.setPlate_boot (s : State) (k : Nat) (v : Plate) : (s.setPlate k v).boot = s.boot := rfl
@[simp] theorem State.modPlate_boot (s : State) (k : Nat) (g : Plate → Plate) : (s.modPlate k g).boot = s.boot := rfl
@[simp] theorem State.setPlate_patches (s : State) (k : Nat) (v : Plate) : (s.setPlate k v).patches = s.patches := rfl
@[simp] theorem State.modPlate_patches (s : State) (k : Nat) (g : Plate → Plate) : (s.modPlate k g).patches = s.patches := rfl
@[simp] theorem State.setPlate_side (s : State) (k : Nat) (v : Plate) : (s.setPlate k v).side = s.side := rfl
@[simp] theorem State.modPlate_side (s : State) (k : Nat) (g : Plate → Plate) : (s.modPlate k g).side = s.side := rfl
@[simp] theorem State.setPlate_free (s : State) (k : Nat) (v : Plate) : (s.setPlate k v).free = s.free := rfl
@[simp] theorem State.modPlate_free (s : State) (k : Nat) (g : Plate → Plate) : (s.modPlate k g).free = s.free := rfl
@[simp] theorem State.setRoot_pending (s : State) (k : Nat) (v : RootRun) : (s.setRoot k v).pending = s.pending := rfl
@[simp] theorem State.modRoot_pending (s : State) (k : Nat) (g : RootRun → RootRun) : (s.modRoot k g).pending = s.pending := rfl
@[simp] theorem State.setRoot_now (s : State) (k : Nat) (v : RootRun) : (s.setRoot k v).now = s.now := rfl
@[simp] theorem State.modRoot_now (s : State) (k : Nat) (g : RootRun → RootRun) : (s.modRoot k g).now = s.now := rfl
@[simp] theorem State.setRoot_sys (s : State) (k : Nat) (v : RootRun) : (s.setRoot k v).sys = s.sys := rfl
@[simp] theorem State.modRoot_sys (s : State) (k : Nat) (g : RootRun → RootRun) : (s.modRoot k g).sys = s.sys := rfl
@[simp] theorem State.setRoot_time (s : State) (k : Nat) (v : RootRun) : (s.setRoot k v).time = s.time := rfl
@[simp] theorem State.modRoot_time (s : State) (k : Nat) (g : RootRun → RootRun) : (s.modRoot k g).time = s.time := rfl
@[simp] theorem State.setRoot_gov (s : State) (k : Nat) (v : RootRun) : (s.setRoot k v).gov = s.gov := rfl
@[simp] theorem State.modRoot_gov (s : State) (k : Nat) (g : RootRun → RootRun) : (s.modRoot k g).gov = s.gov := rfl
@[simp] theorem State.setRoot_host (s : State) (k : Nat) (v : RootRun) : (s.setRoot k v).host = s.host := rfl
@[simp] theorem State.modRoot_host (s : State) (k : Nat) (g : RootRun → RootRun) : (s.modRoot k g).host = s.host := rfl
@[simp] theorem State.setRoot_out (s : State) (k : Nat) (v : RootRun) : (s.setRoot k v).out = s.out := rfl
@[simp] theorem State.modRoot_out (s : State) (k : Nat) (g : RootRun → RootRun) : (s.modRoot k g).out = s.out := rfl
@[simp] theorem State.setRoot_burins (s : State) (k : Nat) (v : RootRun) : (s.setRoot k v).burins = s.burins := rfl
@[simp] theorem State.modRoot_burins (s : State) (k : Nat) (g : RootRun → RootRun) : (s.modRoot k g).burins = s.burins := rfl
@[simp] theorem State.setRoot_cells (s : State) (k : Nat) (v : RootRun) : (s.setRoot k v).cells = s.cells := rfl
@[simp] theorem State.modRoot_cells (s : State) (k : Nat) (g : RootRun → RootRun) : (s.modRoot k g).cells = s.cells := rfl
@[simp] theorem State.setRoot_plates (s : State) (k : Nat) (v : RootRun) : (s.setRoot k v).plates = s.plates := rfl
@[simp] theorem State.modRoot_plates (s : State) (k : Nat) (g : RootRun → RootRun) : (s.modRoot k g).plates = s.plates := rfl
@[simp] theorem State.setRoot_faults (s : State) (k : Nat) (v : RootRun) : (s.setRoot k v).faults = s.faults := rfl
@[simp] theorem State.modRoot_faults (s : State) (k : Nat) (g : RootRun → RootRun) : (s.modRoot k g).faults = s.faults := rfl
@[simp] theorem State.setRoot_devFault (s : State) (k : Nat) (v : RootRun) : (s.setRoot k v).devFault = s.devFault := rfl
@[simp] theorem State.modRoot_devFault (s : State) (k : Nat) (g : RootRun → RootRun) : (s.modRoot k g).devFault = s.devFault := rfl
@[simp] theorem State.setRoot_queues (s : State) (k : Nat) (v : RootRun) : (s.setRoot k v).queues = s.queues := rfl
@[simp] theorem State.modRoot_queues (s : State) (k : Nat) (g : RootRun → RootRun) : (s.modRoot k g).queues = s.queues := rfl
@[simp] theorem State.setRoot_tones (s : State) (k : Nat) (v : RootRun) : (s.setRoot k v).tones = s.tones := rfl
@[simp] theorem State.modRoot_tones (s : State) (k : Nat) (g : RootRun → RootRun) : (s.modRoot k g).tones = s.tones := rfl
@[simp] theorem State.setRoot_ports (s : State) (k : Nat) (v : RootRun) : (s.setRoot k v).ports = s.ports := rfl
@[simp] theorem State.modRoot_ports (s : State) (k : Nat) (g : RootRun → RootRun) : (s.modRoot k g).ports = s.ports := rfl
@[simp] theorem State.setRoot_zch (s : State) (k : Nat) (v : RootRun) : (s.setRoot k v).zch = s.zch := rfl
@[simp] theorem State.modRoot_zch (s : State) (k : Nat) (g : RootRun → RootRun) : (s.modRoot k g).zch = s.zch := rfl
@[simp] theorem State.setRoot_zctr (s : State) (k : Nat) (v : RootRun) : (s.setRoot k v).zctr = s.zctr := rfl
@[simp] theorem State.modRoot_zctr (s : State) (k : Nat) (g : RootRun → RootRun) : (s.modRoot k g).zctr = s.zctr := rfl
@[simp] theorem State.setRoot_zbanks (s : State) (k : Nat) (v : RootRun) : (s.setRoot k v).zbanks = s.zbanks := rfl
@[simp] theorem State.modRoot_zbanks (s : State) (k : Nat) (g : RootRun → RootRun) : (s.modRoot k g).zbanks = s.zbanks := rfl
@[simp] theorem State.setRoot_ro (s : State) (k : Nat) (v : RootRun) : (s.setRoot k v).ro = s.ro := rfl
@[simp] theorem State.modRoot_ro (s : State) (k : Nat) (g : RootRun → RootRun) : (s.modRoot k g).ro = s.ro := rfl
@[simp] theorem State.setRoot_stipChains (s : State) (k : Nat) (v : RootRun) : (s.setRoot k v).stipChains = s.stipChains := rfl
@[simp] theorem State.modRoot_stipChains (s : State) (k : Nat) (g : RootRun → RootRun) : (s.modRoot k g).stipChains = s.stipChains := rfl
@[simp] theorem State.setRoot_acqPorts (s : State) (k : Nat) (v : RootRun) : (s.setRoot k v).acqPorts = s.acqPorts := rfl
@[simp] theorem State.modRoot_acqPorts (s : State) (k : Nat) (g : RootRun → RootRun) : (s.modRoot k g).acqPorts = s.acqPorts := rfl
@[simp] theorem State.setRoot_streams (s : State) (k : Nat) (v : RootRun) : (s.setRoot k v).streams = s.streams := rfl
@[simp] theorem State.modRoot_streams (s : State) (k : Nat) (g : RootRun → RootRun) : (s.modRoot k g).streams = s.streams := rfl
@[simp] theorem State.setRoot_epoch (s : State) (k : Nat) (v : RootRun) : (s.setRoot k v).epoch = s.epoch := rfl
@[simp] theorem State.modRoot_epoch (s : State) (k : Nat) (g : RootRun → RootRun) : (s.modRoot k g).epoch = s.epoch := rfl
@[simp] theorem State.setRoot_epochPrev (s : State) (k : Nat) (v : RootRun) : (s.setRoot k v).epochPrev = s.epochPrev := rfl
@[simp] theorem State.modRoot_epochPrev (s : State) (k : Nat) (g : RootRun → RootRun) : (s.modRoot k g).epochPrev = s.epochPrev := rfl
@[simp] theorem State.setRoot_alignArm (s : State) (k : Nat) (v : RootRun) : (s.setRoot k v).alignArm = s.alignArm := rfl
@[simp] theorem State.modRoot_alignArm (s : State) (k : Nat) (g : RootRun → RootRun) : (s.modRoot k g).alignArm = s.alignArm := rfl
@[simp] theorem State.setRoot_chans (s : State) (k : Nat) (v : RootRun) : (s.setRoot k v).chans = s.chans := rfl
@[simp] theorem State.modRoot_chans (s : State) (k : Nat) (g : RootRun → RootRun) : (s.modRoot k g).chans = s.chans := rfl
@[simp] theorem State.setRoot_chCtrs (s : State) (k : Nat) (v : RootRun) : (s.setRoot k v).chCtrs = s.chCtrs := rfl
@[simp] theorem State.modRoot_chCtrs (s : State) (k : Nat) (g : RootRun → RootRun) : (s.modRoot k g).chCtrs = s.chCtrs := rfl
@[simp] theorem State.setRoot_gates (s : State) (k : Nat) (v : RootRun) : (s.setRoot k v).gates = s.gates := rfl
@[simp] theorem State.modRoot_gates (s : State) (k : Nat) (g : RootRun → RootRun) : (s.modRoot k g).gates = s.gates := rfl
@[simp] theorem State.setRoot_gatePend (s : State) (k : Nat) (v : RootRun) : (s.setRoot k v).gatePend = s.gatePend := rfl
@[simp] theorem State.modRoot_gatePend (s : State) (k : Nat) (g : RootRun → RootRun) : (s.modRoot k g).gatePend = s.gatePend := rfl
@[simp] theorem State.setRoot_engines (s : State) (k : Nat) (v : RootRun) : (s.setRoot k v).engines = s.engines := rfl
@[simp] theorem State.modRoot_engines (s : State) (k : Nat) (g : RootRun → RootRun) : (s.modRoot k g).engines = s.engines := rfl
@[simp] theorem State.setRoot_mark (s : State) (k : Nat) (v : RootRun) : (s.setRoot k v).mark = s.mark := rfl
@[simp] theorem State.modRoot_mark (s : State) (k : Nat) (g : RootRun → RootRun) : (s.modRoot k g).mark = s.mark := rfl
@[simp] theorem State.setRoot_stampCh (s : State) (k : Nat) (v : RootRun) : (s.setRoot k v).stampCh = s.stampCh := rfl
@[simp] theorem State.modRoot_stampCh (s : State) (k : Nat) (g : RootRun → RootRun) : (s.modRoot k g).stampCh = s.stampCh := rfl
@[simp] theorem State.setRoot_tiu (s : State) (k : Nat) (v : RootRun) : (s.setRoot k v).tiu = s.tiu := rfl
@[simp] theorem State.modRoot_tiu (s : State) (k : Nat) (g : RootRun → RootRun) : (s.modRoot k g).tiu = s.tiu := rfl
@[simp] theorem State.setRoot_jvl (s : State) (k : Nat) (v : RootRun) : (s.setRoot k v).jvl = s.jvl := rfl
@[simp] theorem State.modRoot_jvl (s : State) (k : Nat) (g : RootRun → RootRun) : (s.modRoot k g).jvl = s.jvl := rfl
@[simp] theorem State.setRoot_jvlCtr (s : State) (k : Nat) (v : RootRun) : (s.setRoot k v).jvlCtr = s.jvlCtr := rfl
@[simp] theorem State.modRoot_jvlCtr (s : State) (k : Nat) (g : RootRun → RootRun) : (s.modRoot k g).jvlCtr = s.jvlCtr := rfl
@[simp] theorem State.setRoot_timePort (s : State) (k : Nat) (v : RootRun) : (s.setRoot k v).timePort = s.timePort := rfl
@[simp] theorem State.modRoot_timePort (s : State) (k : Nat) (g : RootRun → RootRun) : (s.modRoot k g).timePort = s.timePort := rfl
@[simp] theorem State.setRoot_mem (s : State) (k : Nat) (v : RootRun) : (s.setRoot k v).mem = s.mem := rfl
@[simp] theorem State.modRoot_mem (s : State) (k : Nat) (g : RootRun → RootRun) : (s.modRoot k g).mem = s.mem := rfl
@[simp] theorem State.setRoot_rings (s : State) (k : Nat) (v : RootRun) : (s.setRoot k v).rings = s.rings := rfl
@[simp] theorem State.modRoot_rings (s : State) (k : Nat) (g : RootRun → RootRun) : (s.modRoot k g).rings = s.rings := rfl
@[simp] theorem State.setRoot_domains (s : State) (k : Nat) (v : RootRun) : (s.setRoot k v).domains = s.domains := rfl
@[simp] theorem State.modRoot_domains (s : State) (k : Nat) (g : RootRun → RootRun) : (s.modRoot k g).domains = s.domains := rfl
@[simp] theorem State.setRoot_refLog (s : State) (k : Nat) (v : RootRun) : (s.setRoot k v).refLog = s.refLog := rfl
@[simp] theorem State.modRoot_refLog (s : State) (k : Nat) (g : RootRun → RootRun) : (s.modRoot k g).refLog = s.refLog := rfl
@[simp] theorem State.setRoot_house (s : State) (k : Nat) (v : RootRun) : (s.setRoot k v).house = s.house := rfl
@[simp] theorem State.modRoot_house (s : State) (k : Nat) (g : RootRun → RootRun) : (s.modRoot k g).house = s.house := rfl
@[simp] theorem State.setRoot_calib (s : State) (k : Nat) (v : RootRun) : (s.setRoot k v).calib = s.calib := rfl
@[simp] theorem State.modRoot_calib (s : State) (k : Nat) (g : RootRun → RootRun) : (s.modRoot k g).calib = s.calib := rfl
@[simp] theorem State.setRoot_proofs (s : State) (k : Nat) (v : RootRun) : (s.setRoot k v).proofs = s.proofs := rfl
@[simp] theorem State.modRoot_proofs (s : State) (k : Nat) (g : RootRun → RootRun) : (s.modRoot k g).proofs = s.proofs := rfl
@[simp] theorem State.setRoot_joins (s : State) (k : Nat) (v : RootRun) : (s.setRoot k v).joins = s.joins := rfl
@[simp] theorem State.modRoot_joins (s : State) (k : Nat) (g : RootRun → RootRun) : (s.modRoot k g).joins = s.joins := rfl
@[simp] theorem State.setRoot_promises (s : State) (k : Nat) (v : RootRun) : (s.setRoot k v).promises = s.promises := rfl
@[simp] theorem State.modRoot_promises (s : State) (k : Nat) (g : RootRun → RootRun) : (s.modRoot k g).promises = s.promises := rfl
@[simp] theorem State.setRoot_nextId (s : State) (k : Nat) (v : RootRun) : (s.setRoot k v).nextId = s.nextId := rfl
@[simp] theorem State.modRoot_nextId (s : State) (k : Nat) (g : RootRun → RootRun) : (s.modRoot k g).nextId = s.nextId := rfl
@[simp] theorem State.setRoot_boot (s : State) (k : Nat) (v : RootRun) : (s.setRoot k v).boot = s.boot := rfl
@[simp] theorem State.modRoot_boot (s : State) (k : Nat) (g : RootRun → RootRun) : (s.modRoot k g).boot = s.boot := rfl
@[simp] theorem State.setRoot_patches (s : State) (k : Nat) (v : RootRun) : (s.setRoot k v).patches = s.patches := rfl
@[simp] theorem State.modRoot_patches (s : State) (k : Nat) (g : RootRun → RootRun) : (s.modRoot k g).patches = s.patches := rfl
@[simp] theorem State.setRoot_side (s : State) (k : Nat) (v : RootRun) : (s.setRoot k v).side = s.side := rfl
@[simp] theorem State.modRoot_side (s : State) (k : Nat) (g : RootRun → RootRun) : (s.modRoot k g).side = s.side := rfl
@[simp] theorem State.setRoot_free (s : State) (k : Nat) (v : RootRun) : (s.setRoot k v).free = s.free := rfl
@[simp] theorem State.modRoot_free (s : State) (k : Nat) (g : RootRun → RootRun) : (s.modRoot k g).free = s.free := rfl
@[simp] theorem State.setFault_pending (s : State) (k : Nat) (v : FaultRec) : (s.setFault k v).pending = s.pending := rfl
@[simp] theorem State.modFault_pending (s : State) (k : Nat) (g : FaultRec → FaultRec) : (s.modFault k g).pending = s.pending := rfl
@[simp] theorem State.setFault_now (s : State) (k : Nat) (v : FaultRec) : (s.setFault k v).now = s.now := rfl
@[simp] theorem State.modFault_now (s : State) (k : Nat) (g : FaultRec → FaultRec) : (s.modFault k g).now = s.now := rfl
@[simp] theorem State.setFault_sys (s : State) (k : Nat) (v : FaultRec) : (s.setFault k v).sys = s.sys := rfl
@[simp] theorem State.modFault_sys (s : State) (k : Nat) (g : FaultRec → FaultRec) : (s.modFault k g).sys = s.sys := rfl
@[simp] theorem State.setFault_time (s : State) (k : Nat) (v : FaultRec) : (s.setFault k v).time = s.time := rfl
@[simp] theorem State.modFault_time (s : State) (k : Nat) (g : FaultRec → FaultRec) : (s.modFault k g).time = s.time := rfl
@[simp] theorem State.setFault_gov (s : State) (k : Nat) (v : FaultRec) : (s.setFault k v).gov = s.gov := rfl
@[simp] theorem State.modFault_gov (s : State) (k : Nat) (g : FaultRec → FaultRec) : (s.modFault k g).gov = s.gov := rfl
@[simp] theorem State.setFault_host (s : State) (k : Nat) (v : FaultRec) : (s.setFault k v).host = s.host := rfl
@[simp] theorem State.modFault_host (s : State) (k : Nat) (g : FaultRec → FaultRec) : (s.modFault k g).host = s.host := rfl
@[simp] theorem State.setFault_out (s : State) (k : Nat) (v : FaultRec) : (s.setFault k v).out = s.out := rfl
@[simp] theorem State.modFault_out (s : State) (k : Nat) (g : FaultRec → FaultRec) : (s.modFault k g).out = s.out := rfl
@[simp] theorem State.setFault_burins (s : State) (k : Nat) (v : FaultRec) : (s.setFault k v).burins = s.burins := rfl
@[simp] theorem State.modFault_burins (s : State) (k : Nat) (g : FaultRec → FaultRec) : (s.modFault k g).burins = s.burins := rfl
@[simp] theorem State.setFault_cells (s : State) (k : Nat) (v : FaultRec) : (s.setFault k v).cells = s.cells := rfl
@[simp] theorem State.modFault_cells (s : State) (k : Nat) (g : FaultRec → FaultRec) : (s.modFault k g).cells = s.cells := rfl
@[simp] theorem State.setFault_plates (s : State) (k : Nat) (v : FaultRec) : (s.setFault k v).plates = s.plates := rfl
@[simp] theorem State.modFault_plates (s : State) (k : Nat) (g : FaultRec → FaultRec) : (s.modFault k g).plates = s.plates := rfl
@[simp] theorem State.setFault_roots (s : State) (k : Nat) (v : FaultRec) : (s.setFault k v).roots = s.roots := rfl
@[simp] theorem State.modFault_roots (s : State) (k : Nat) (g : FaultRec → FaultRec) : (s.modFault k g).roots = s.roots := rfl
@[simp] theorem State.setFault_devFault (s : State) (k : Nat) (v : FaultRec) : (s.setFault k v).devFault = s.devFault := rfl
@[simp] theorem State.modFault_devFault (s : State) (k : Nat) (g : FaultRec → FaultRec) : (s.modFault k g).devFault = s.devFault := rfl
@[simp] theorem State.setFault_queues (s : State) (k : Nat) (v : FaultRec) : (s.setFault k v).queues = s.queues := rfl
@[simp] theorem State.modFault_queues (s : State) (k : Nat) (g : FaultRec → FaultRec) : (s.modFault k g).queues = s.queues := rfl
@[simp] theorem State.setFault_tones (s : State) (k : Nat) (v : FaultRec) : (s.setFault k v).tones = s.tones := rfl
@[simp] theorem State.modFault_tones (s : State) (k : Nat) (g : FaultRec → FaultRec) : (s.modFault k g).tones = s.tones := rfl
@[simp] theorem State.setFault_ports (s : State) (k : Nat) (v : FaultRec) : (s.setFault k v).ports = s.ports := rfl
@[simp] theorem State.modFault_ports (s : State) (k : Nat) (g : FaultRec → FaultRec) : (s.modFault k g).ports = s.ports := rfl
@[simp] theorem State.setFault_zch (s : State) (k : Nat) (v : FaultRec) : (s.setFault k v).zch = s.zch := rfl
@[simp] theorem State.modFault_zch (s : State) (k : Nat) (g : FaultRec → FaultRec) : (s.modFault k g).zch = s.zch := rfl
@[simp] theorem State.setFault_zctr (s : State) (k : Nat) (v : FaultRec) : (s.setFault k v).zctr = s.zctr := rfl
@[simp] theorem State.modFault_zctr (s : State) (k : Nat) (g : FaultRec → FaultRec) : (s.modFault k g).zctr = s.zctr := rfl
@[simp] theorem State.setFault_zbanks (s : State) (k : Nat) (v : FaultRec) : (s.setFault k v).zbanks = s.zbanks := rfl
@[simp] theorem State.modFault_zbanks (s : State) (k : Nat) (g : FaultRec → FaultRec) : (s.modFault k g).zbanks = s.zbanks := rfl
@[simp] theorem State.setFault_ro (s : State) (k : Nat) (v : FaultRec) : (s.setFault k v).ro = s.ro := rfl
@[simp] theorem State.modFault_ro (s : State) (k : Nat) (g : FaultRec → FaultRec) : (s.modFault k g).ro = s.ro := rfl
@[simp] theorem State.setFault_stipChains (s : State) (k : Nat) (v : FaultRec) : (s.setFault k v).stipChains = s.stipChains := rfl
@[simp] theorem State.modFault_stipChains (s : State) (k : Nat) (g : FaultRec → FaultRec) : (s.modFault k g).stipChains = s.stipChains := rfl
@[simp] theorem State.setFault_acqPorts (s : State) (k : Nat) (v : FaultRec) : (s.setFault k v).acqPorts = s.acqPorts := rfl
@[simp] theorem State.modFault_acqPorts (s : State) (k : Nat) (g : FaultRec → FaultRec) : (s.modFault k g).acqPorts = s.acqPorts := rfl
@[simp] theorem State.setFault_streams (s : State) (k : Nat) (v : FaultRec) : (s.setFault k v).streams = s.streams := rfl
@[simp] theorem State.modFault_streams (s : State) (k : Nat) (g : FaultRec → FaultRec) : (s.modFault k g).streams = s.streams := rfl
@[simp] theorem State.setFault_epoch (s : State) (k : Nat) (v : FaultRec) : (s.setFault k v).epoch = s.epoch := rfl
@[simp] theorem State.modFault_epoch (s : State) (k : Nat) (g : FaultRec → FaultRec) : (s.modFault k g).epoch = s.epoch := rfl
@[simp] theorem State.setFault_epochPrev (s : State) (k : Nat) (v : FaultRec) : (s.setFault k v).epochPrev = s.epochPrev := rfl
@[simp] theorem State.modFault_epochPrev (s : State) (k : Nat) (g : FaultRec → FaultRec) : (s.modFault k g).epochPrev = s.epochPrev := rfl
@[simp] theorem State.setFault_alignArm (s : State) (k : Nat) (v : FaultRec) : (s.setFault k v).alignArm = s.alignArm := rfl
@[simp] theorem State.modFault_alignArm (s : State) (k : Nat) (g : FaultRec → FaultRec) : (s.modFault k g).alignArm = s.alignArm := rfl
@[simp] theorem State.setFault_chans (s : State) (k : Nat) (v : FaultRec) : (s.setFault k v).chans = s.chans := rfl
@[simp] theorem State.modFault_chans (s : State) (k : Nat) (g : FaultRec → FaultRec) : (s.modFault k g).chans = s.chans := rfl
@[simp] theorem State.setFault_chCtrs (s : State) (k : Nat) (v : FaultRec) : (s.setFault k v).chCtrs = s.chCtrs := rfl
@[simp] theorem State.modFault_chCtrs (s : State) (k : Nat) (g : FaultRec → FaultRec) : (s.modFault k g).chCtrs = s.chCtrs := rfl
@[simp] theorem State.setFault_gates (s : State) (k : Nat) (v : FaultRec) : (s.setFault k v).gates = s.gates := rfl
@[simp] theorem State.modFault_gates (s : State) (k : Nat) (g : FaultRec → FaultRec) : (s.modFault k g).gates = s.gates := rfl
@[simp] theorem State.setFault_gatePend (s : State) (k : Nat) (v : FaultRec) : (s.setFault k v).gatePend = s.gatePend := rfl
@[simp] theorem State.modFault_gatePend (s : State) (k : Nat) (g : FaultRec → FaultRec) : (s.modFault k g).gatePend = s.gatePend := rfl
@[simp] theorem State.setFault_engines (s : State) (k : Nat) (v : FaultRec) : (s.setFault k v).engines = s.engines := rfl
@[simp] theorem State.modFault_engines (s : State) (k : Nat) (g : FaultRec → FaultRec) : (s.modFault k g).engines = s.engines := rfl
@[simp] theorem State.setFault_mark (s : State) (k : Nat) (v : FaultRec) : (s.setFault k v).mark = s.mark := rfl
@[simp] theorem State.modFault_mark (s : State) (k : Nat) (g : FaultRec → FaultRec) : (s.modFault k g).mark = s.mark := rfl
@[simp] theorem State.setFault_stampCh (s : State) (k : Nat) (v : FaultRec) : (s.setFault k v).stampCh = s.stampCh := rfl
@[simp] theorem State.modFault_stampCh (s : State) (k : Nat) (g : FaultRec → FaultRec) : (s.modFault k g).stampCh = s.stampCh := rfl
@[simp] theorem State.setFault_tiu (s : State) (k : Nat) (v : FaultRec) : (s.setFault k v).tiu = s.tiu := rfl
@[simp] theorem State.modFault_tiu (s : State) (k : Nat) (g : FaultRec → FaultRec) : (s.modFault k g).tiu = s.tiu := rfl
@[simp] theorem State.setFault_jvl (s : State) (k : Nat) (v : FaultRec) : (s.setFault k v).jvl = s.jvl := rfl
@[simp] theorem State.modFault_jvl (s : State) (k : Nat) (g : FaultRec → FaultRec) : (s.modFault k g).jvl = s.jvl := rfl
@[simp] theorem State.setFault_jvlCtr (s : State) (k : Nat) (v : FaultRec) : (s.setFault k v).jvlCtr = s.jvlCtr := rfl
@[simp] theorem State.modFault_jvlCtr (s : State) (k : Nat) (g : FaultRec → FaultRec) : (s.modFault k g).jvlCtr = s.jvlCtr := rfl
@[simp] theorem State.setFault_timePort (s : State) (k : Nat) (v : FaultRec) : (s.setFault k v).timePort = s.timePort := rfl
@[simp] theorem State.modFault_timePort (s : State) (k : Nat) (g : FaultRec → FaultRec) : (s.modFault k g).timePort = s.timePort := rfl
@[simp] theorem State.setFault_mem (s : State) (k : Nat) (v : FaultRec) : (s.setFault k v).mem = s.mem := rfl
@[simp] theorem State.modFault_mem (s : State) (k : Nat) (g : FaultRec → FaultRec) : (s.modFault k g).mem = s.mem := rfl
@[simp] theorem State.setFault_rings (s : State) (k : Nat) (v : FaultRec) : (s.setFault k v).rings = s.rings := rfl
@[simp] theorem State.modFault_rings (s : State) (k : Nat) (g : FaultRec → FaultRec) : (s.modFault k g).rings = s.rings := rfl
@[simp] theorem State.setFault_domains (s : State) (k : Nat) (v : FaultRec) : (s.setFault k v).domains = s.domains := rfl
@[simp] theorem State.modFault_domains (s : State) (k : Nat) (g : FaultRec → FaultRec) : (s.modFault k g).domains = s.domains := rfl
@[simp] theorem State.setFault_refLog (s : State) (k : Nat) (v : FaultRec) : (s.setFault k v).refLog = s.refLog := rfl
@[simp] theorem State.modFault_refLog (s : State) (k : Nat) (g : FaultRec → FaultRec) : (s.modFault k g).refLog = s.refLog := rfl
@[simp] theorem State.setFault_house (s : State) (k : Nat) (v : FaultRec) : (s.setFault k v).house = s.house := rfl
@[simp] theorem State.modFault_house (s : State) (k : Nat) (g : FaultRec → FaultRec) : (s.modFault k g).house = s.house := rfl
@[simp] theorem State.setFault_calib (s : State) (k : Nat) (v : FaultRec) : (s.setFault k v).calib = s.calib := rfl
@[simp] theorem State.modFault_calib (s : State) (k : Nat) (g : FaultRec → FaultRec) : (s.modFault k g).calib = s.calib := rfl
@[simp] theorem State.setFault_proofs (s : State) (k : Nat) (v : FaultRec) : (s.setFault k v).proofs = s.proofs := rfl
@[simp] theorem State.modFault_proofs (s : State) (k : Nat) (g : FaultRec → FaultRec) : (s.modFault k g).proofs = s.proofs := rfl
@[simp] theorem State.setFault_joins (s : State) (k : Nat) (v : FaultRec) : (s.setFault k v).joins = s.joins := rfl
@[simp] theorem State.modFault_joins (s : State) (k : Nat) (g : FaultRec → FaultRec) : (s.modFault k g).joins = s.joins := rfl
@[simp] theorem State.setFault_promises (s : State) (k : Nat) (v : FaultRec) : (s.setFault k v).promises = s.promises := rfl
@[simp] theorem State.modFault_promises (s : State) (k : Nat) (g : FaultRec → FaultRec) : (s.modFault k g).promises = s.promises := rfl
@[simp] theorem State.setFault_nextId (s : State) (k : Nat) (v : FaultRec) : (s.setFault k v).nextId = s.nextId := rfl
@[simp] theorem State.modFault_nextId (s : State) (k : Nat) (g : FaultRec → FaultRec) : (s.modFault k g).nextId = s.nextId := rfl
@[simp] theorem State.setFault_boot (s : State) (k : Nat) (v : FaultRec) : (s.setFault k v).boot = s.boot := rfl
@[simp] theorem State.modFault_boot (s : State) (k : Nat) (g : FaultRec → FaultRec) : (s.modFault k g).boot = s.boot := rfl
@[simp] theorem State.setFault_patches (s : State) (k : Nat) (v : FaultRec) : (s.setFault k v).patches = s.patches := rfl
@[simp] theorem State.modFault_patches (s : State) (k : Nat) (g : FaultRec → FaultRec) : (s.modFault k g).patches = s.patches := rfl
@[simp] theorem State.setFault_side (s : State) (k : Nat) (v : FaultRec) : (s.setFault k v).side = s.side := rfl
@[simp] theorem State.modFault_side (s : State) (k : Nat) (g : FaultRec → FaultRec) : (s.modFault k g).side = s.side := rfl
@[simp] theorem State.setFault_free (s : State) (k : Nat) (v : FaultRec) : (s.setFault k v).free = s.free := rfl
@[simp] theorem State.modFault_free (s : State) (k : Nat) (g : FaultRec → FaultRec) : (s.modFault k g).free = s.free := rfl
@[simp] theorem State.setQueue_pending (s : State) (k : Nat) (v : PlayQ) : (s.setQueue k v).pending = s.pending := rfl
@[simp] theorem State.modQueue_pending (s : State) (k : Nat) (g : PlayQ → PlayQ) : (s.modQueue k g).pending = s.pending := rfl
@[simp] theorem State.setQueue_now (s : State) (k : Nat) (v : PlayQ) : (s.setQueue k v).now = s.now := rfl
@[simp] theorem State.modQueue_now (s : State) (k : Nat) (g : PlayQ → PlayQ) : (s.modQueue k g).now = s.now := rfl
@[simp] theorem State.setQueue_sys (s : State) (k : Nat) (v : PlayQ) : (s.setQueue k v).sys = s.sys := rfl
@[simp] theorem State.modQueue_sys (s : State) (k : Nat) (g : PlayQ → PlayQ) : (s.modQueue k g).sys = s.sys := rfl
@[simp] theorem State.setQueue_time (s : State) (k : Nat) (v : PlayQ) : (s.setQueue k v).time = s.time := rfl
@[simp] theorem State.modQueue_time (s : State) (k : Nat) (g : PlayQ → PlayQ) : (s.modQueue k g).time = s.time := rfl
@[simp] theorem State.setQueue_gov (s : State) (k : Nat) (v : PlayQ) : (s.setQueue k v).gov = s.gov := rfl
@[simp] theorem State.modQueue_gov (s : State) (k : Nat) (g : PlayQ → PlayQ) : (s.modQueue k g).gov = s.gov := rfl
@[simp] theorem State.setQueue_host (s : State) (k : Nat) (v : PlayQ) : (s.setQueue k v).host = s.host := rfl
@[simp] theorem State.modQueue_host (s : State) (k : Nat) (g : PlayQ → PlayQ) : (s.modQueue k g).host = s.host := rfl
@[simp] theorem State.setQueue_out (s : State) (k : Nat) (v : PlayQ) : (s.setQueue k v).out = s.out := rfl
@[simp] theorem State.modQueue_out (s : State) (k : Nat) (g : PlayQ → PlayQ) : (s.modQueue k g).out = s.out := rfl
@[simp] theorem State.setQueue_burins (s : State) (k : Nat) (v : PlayQ) : (s.setQueue k v).burins = s.burins := rfl
@[simp] theorem State.modQueue_burins (s : State) (k : Nat) (g : PlayQ → PlayQ) : (s.modQueue k g).burins = s.burins := rfl
@[simp] theorem State.setQueue_cells (s : State) (k : Nat) (v : PlayQ) : (s.setQueue k v).cells = s.cells := rfl
@[simp] theorem State.modQueue_cells (s : State) (k : Nat) (g : PlayQ → PlayQ) : (s.modQueue k g).cells = s.cells := rfl
@[simp] theorem State.setQueue_plates (s : State) (k : Nat) (v : PlayQ) : (s.setQueue k v).plates = s.plates := rfl
@[simp] theorem State.modQueue_plates (s : State) (k : Nat) (g : PlayQ → PlayQ) : (s.modQueue k g).plates = s.plates := rfl
@[simp] theorem State.setQueue_roots (s : State) (k : Nat) (v : PlayQ) : (s.setQueue k v).roots = s.roots := rfl
@[simp] theorem State.modQueue_roots (s : State) (k : Nat) (g : PlayQ → PlayQ) : (s.modQueue k g).roots = s.roots := rfl
@[simp] theorem State.setQueue_faults (s : State) (k : Nat) (v : PlayQ) : (s.setQueue k v).faults = s.faults := rfl
@[simp] theorem State.modQueue_faults (s : State) (k : Nat) (g : PlayQ → PlayQ) : (s.modQueue k g).faults = s.faults := rfl
@[simp] theorem State.setQueue_devFault (s : State) (k : Nat) (v : PlayQ) : (s.setQueue k v).devFault = s.devFault := rfl
@[simp] theorem State.modQueue_devFault (s : State) (k : Nat) (g : PlayQ → PlayQ) : (s.modQueue k g).devFault = s.devFault := rfl
@[simp] theorem State.setQueue_tones (s : State) (k : Nat) (v : PlayQ) : (s.setQueue k v).tones = s.tones := rfl
@[simp] theorem State.modQueue_tones (s : State) (k : Nat) (g : PlayQ → PlayQ) : (s.modQueue k g).tones = s.tones := rfl
@[simp] theorem State.setQueue_ports (s : State) (k : Nat) (v : PlayQ) : (s.setQueue k v).ports = s.ports := rfl
@[simp] theorem State.modQueue_ports (s : State) (k : Nat) (g : PlayQ → PlayQ) : (s.modQueue k g).ports = s.ports := rfl
@[simp] theorem State.setQueue_zch (s : State) (k : Nat) (v : PlayQ) : (s.setQueue k v).zch = s.zch := rfl
@[simp] theorem State.modQueue_zch (s : State) (k : Nat) (g : PlayQ → PlayQ) : (s.modQueue k g).zch = s.zch := rfl
@[simp] theorem State.setQueue_zctr (s : State) (k : Nat) (v : PlayQ) : (s.setQueue k v).zctr = s.zctr := rfl
@[simp] theorem State.modQueue_zctr (s : State) (k : Nat) (g : PlayQ → PlayQ) : (s.modQueue k g).zctr = s.zctr := rfl
@[simp] theorem State.setQueue_zbanks (s : State) (k : Nat) (v : PlayQ) : (s.setQueue k v).zbanks = s.zbanks := rfl
@[simp] theorem State.modQueue_zbanks (s : State) (k : Nat) (g : PlayQ → PlayQ) : (s.modQueue k g).zbanks = s.zbanks := rfl
@[simp] theorem State.setQueue_ro (s : State) (k : Nat) (v : PlayQ) : (s.setQueue k v).ro = s.ro := rfl
@[simp] theorem State.modQueue_ro (s : State) (k : Nat) (g : PlayQ → PlayQ) : (s.modQueue k g).ro = s.ro := rfl
@[simp] theorem State.setQueue_stipChains (s : State) (k : Nat) (v : PlayQ) : (s.setQueue k v).stipChains = s.stipChains := rfl
@[simp] theorem State.modQueue_stipChains (s : State) (k : Nat) (g : PlayQ → PlayQ) : (s.modQueue k g).stipChains = s.stipChains := rfl
@[simp] theorem State.setQueue_acqPorts (s : State) (k : Nat) (v : PlayQ) : (s.setQueue k v).acqPorts = s.acqPorts := rfl
@[simp] theorem State.modQueue_acqPorts (s : State) (k : Nat) (g : PlayQ → PlayQ) : (s.modQueue k g).acqPorts = s.acqPorts := rfl
@[simp] theorem State.setQueue_streams (s : State) (k : Nat) (v : PlayQ) : (s.setQueue k v).streams = s.streams := rfl
@[simp] theorem State.modQueue_streams (s : State) (k : Nat) (g : PlayQ → PlayQ) : (s.modQueue k g).streams = s.streams := rfl
@[simp] theorem State.setQueue_epoch (s : State) (k : Nat) (v : PlayQ) : (s.setQueue k v).epoch = s.epoch := rfl
@[simp] theorem State.modQueue_epoch (s : State) (k : Nat) (g : PlayQ → PlayQ) : (s.modQueue k g).epoch = s.epoch := rfl
@[simp] theorem State.setQueue_epochPrev (s : State) (k : Nat) (v : PlayQ) : (s.setQueue k v).epochPrev = s.epochPrev := rfl
@[simp] theorem State.modQueue_epochPrev (s : State) (k : Nat) (g : PlayQ → PlayQ) : (s.modQueue k g).epochPrev = s.epochPrev := rfl
@[simp] theorem State.setQueue_alignArm (s : State) (k : Nat) (v : PlayQ) : (s.setQueue k v).alignArm = s.alignArm := rfl
@[simp] theorem State.modQueue_alignArm (s : State) (k : Nat) (g : PlayQ → PlayQ) : (s.modQueue k g).alignArm = s.alignArm := rfl
@[simp] theorem State.setQueue_chans (s : State) (k : Nat) (v : PlayQ) : (s.setQueue k v).chans = s.chans := rfl
@[simp] theorem State.modQueue_chans (s : State) (k : Nat) (g : PlayQ → PlayQ) : (s.modQueue k g).chans = s.chans := rfl
@[simp] theorem State.setQueue_chCtrs (s : State) (k : Nat) (v : PlayQ) : (s.setQueue k v).chCtrs = s.chCtrs := rfl
@[simp] theorem State.modQueue_chCtrs (s : State) (k : Nat) (g : PlayQ → PlayQ) : (s.modQueue k g).chCtrs = s.chCtrs := rfl
@[simp] theorem State.setQueue_gates (s : State) (k : Nat) (v : PlayQ) : (s.setQueue k v).gates = s.gates := rfl
@[simp] theorem State.modQueue_gates (s : State) (k : Nat) (g : PlayQ → PlayQ) : (s.modQueue k g).gates = s.gates := rfl
@[simp] theorem State.setQueue_gatePend (s : State) (k : Nat) (v : PlayQ) : (s.setQueue k v).gatePend = s.gatePend := rfl
@[simp] theorem State.modQueue_gatePend (s : State) (k : Nat) (g : PlayQ → PlayQ) : (s.modQueue k g).gatePend = s.gatePend := rfl
@[simp] theorem State.setQueue_engines (s : State) (k : Nat) (v : PlayQ) : (s.setQueue k v).engines = s.engines := rfl
@[simp] theorem State.modQueue_engines (s : State) (k : Nat) (g : PlayQ → PlayQ) : (s.modQueue k g).engines = s.engines := rfl
@[simp] theorem State.setQueue_mark (s : State) (k : Nat) (v : PlayQ) : (s.setQueue k v).mark = s.mark := rfl
@[simp] theorem State.modQueue_mark (s : State) (k : Nat) (g : PlayQ → PlayQ) : (s.modQueue k g).mark = s.mark := rfl
@[simp] theorem State.setQueue_stampCh (s : State) (k : Nat) (v : PlayQ) : (s.setQueue k v).stampCh = s.stampCh := rfl
@[simp] theorem State.modQueue_stampCh (s : State) (k : Nat) (g : PlayQ → PlayQ) : (s.modQueue k g).stampCh = s.stampCh := rfl
@[simp] theorem State.setQueue_tiu (s : State) (k : Nat) (v : PlayQ) : (s.setQueue k v).tiu = s.tiu := rfl
@[simp] theorem State.modQueue_tiu (s : State) (k : Nat) (g : PlayQ → PlayQ) : (s.modQueue k g).tiu = s.tiu := rfl
@[simp] theorem State.setQueue_jvl (s : State) (k : Nat) (v : PlayQ) : (s.setQueue k v).jvl = s.jvl := rfl
@[simp] theorem State.modQueue_jvl (s : State) (k : Nat) (g : PlayQ → PlayQ) : (s.modQueue k g).jvl = s.jvl := rfl
@[simp] theorem State.setQueue_jvlCtr (s : State) (k : Nat) (v : PlayQ) : (s.setQueue k v).jvlCtr = s.jvlCtr := rfl
@[simp] theorem State.modQueue_jvlCtr (s : State) (k : Nat) (g : PlayQ → PlayQ) : (s.modQueue k g).jvlCtr = s.jvlCtr := rfl
@[simp] theorem State.setQueue_timePort (s : State) (k : Nat) (v : PlayQ) : (s.setQueue k v).timePort = s.timePort := rfl
@[simp] theorem State.modQueue_timePort (s : State) (k : Nat) (g : PlayQ → PlayQ) : (s.modQueue k g).timePort = s.timePort := rfl
@[simp] theorem State.setQueue_mem (s : State) (k : Nat) (v : PlayQ) : (s.setQueue k v).mem = s.mem := rfl
@[simp] theorem State.modQueue_mem (s : State) (k : Nat) (g : PlayQ → PlayQ) : (s.modQueue k g).mem = s.mem := rfl
@[simp] theorem State.setQueue_rings (s : State) (k : Nat) (v : PlayQ) : (s.setQueue k v).rings = s.rings := rfl
@[simp] theorem State.modQueue_rings (s : State) (k : Nat) (g : PlayQ → PlayQ) : (s.modQueue k g).rings = s.rings := rfl
@[simp] theorem State.setQueue_domains (s : State) (k : Nat) (v : PlayQ) : (s.setQueue k v).domains = s.domains := rfl
@[simp] theorem State.modQueue_domains (s : State) (k : Nat) (g : PlayQ → PlayQ) : (s.modQueue k g).domains = s.domains := rfl
@[simp] theorem State.setQueue_refLog (s : State) (k : Nat) (v : PlayQ) : (s.setQueue k v).refLog = s.refLog := rfl
@[simp] theorem State.modQueue_refLog (s : State) (k : Nat) (g : PlayQ → PlayQ) : (s.modQueue k g).refLog = s.refLog := rfl
@[simp] theorem State.setQueue_house (s : State) (k : Nat) (v : PlayQ) : (s.setQueue k v).house = s.house := rfl
@[simp] theorem State.modQueue_house (s : State) (k : Nat) (g : PlayQ → PlayQ) : (s.modQueue k g).house = s.house := rfl
@[simp] theorem State.setQueue_calib (s : State) (k : Nat) (v : PlayQ) : (s.setQueue k v).calib = s.calib := rfl
@[simp] theorem State.modQueue_calib (s : State) (k : Nat) (g : PlayQ → PlayQ) : (s.modQueue k g).calib = s.calib := rfl
@[simp] theorem State.setQueue_proofs (s : State) (k : Nat) (v : PlayQ) : (s.setQueue k v).proofs = s.proofs := rfl
@[simp] theorem State.modQueue_proofs (s : State) (k : Nat) (g : PlayQ → PlayQ) : (s.modQueue k g).proofs = s.proofs := rfl
@[simp] theorem State.setQueue_joins (s : State) (k : Nat) (v : PlayQ) : (s.setQueue k v).joins = s.joins := rfl
@[simp] theorem State.modQueue_joins (s : State) (k : Nat) (g : PlayQ → PlayQ) : (s.modQueue k g).joins = s.joins := rfl
@[simp] theorem State.setQueue_promises (s : State) (k : Nat) (v : PlayQ) : (s.setQueue k v).promises = s.promises := rfl
@[simp] theorem State.modQueue_promises (s : State) (k : Nat) (g : PlayQ → PlayQ) : (s.modQueue k g).promises = s.promises := rfl
@[simp] theorem State.setQueue_nextId (s : State) (k : Nat) (v : PlayQ) : (s.setQueue k v).nextId = s.nextId := rfl
@[simp] theorem State.modQueue_nextId (s : State) (k : Nat) (g : PlayQ → PlayQ) : (s.modQueue k g).nextId = s.nextId := rfl
@[simp] theorem State.setQueue_boot (s : State) (k : Nat) (v : PlayQ) : (s.setQueue k v).boot = s.boot := rfl
@[simp] theorem State.modQueue_boot (s : State) (k : Nat) (g : PlayQ → PlayQ) : (s.modQueue k g).boot = s.boot := rfl
@[simp] theorem State.setQueue_patches (s : State) (k : Nat) (v : PlayQ) : (s.setQueue k v).patches = s.patches := rfl
@[simp] theorem State.modQueue_patches (s : State) (k : Nat) (g : PlayQ → PlayQ) : (s.modQueue k g).patches = s.patches := rfl
@[simp] theorem State.setQueue_side (s : State) (k : Nat) (v : PlayQ) : (s.setQueue k v).side = s.side := rfl
@[simp] theorem State.modQueue_side (s : State) (k : Nat) (g : PlayQ → PlayQ) : (s.modQueue k g).side = s.side := rfl
@[simp] theorem State.setQueue_free (s : State) (k : Nat) (v : PlayQ) : (s.setQueue k v).free = s.free := rfl
@[simp] theorem State.modQueue_free (s : State) (k : Nat) (g : PlayQ → PlayQ) : (s.modQueue k g).free = s.free := rfl
@[simp] theorem State.setTone_pending (s : State) (k : Nat) (v : Tone) : (s.setTone k v).pending = s.pending := rfl
@[simp] theorem State.modTone_pending (s : State) (k : Nat) (g : Tone → Tone) : (s.modTone k g).pending = s.pending := rfl
@[simp] theorem State.setTone_now (s : State) (k : Nat) (v : Tone) : (s.setTone k v).now = s.now := rfl
@[simp] theorem State.modTone_now (s : State) (k : Nat) (g : Tone → Tone) : (s.modTone k g).now = s.now := rfl
@[simp] theorem State.setTone_sys (s : State) (k : Nat) (v : Tone) : (s.setTone k v).sys = s.sys := rfl
@[simp] theorem State.modTone_sys (s : State) (k : Nat) (g : Tone → Tone) : (s.modTone k g).sys = s.sys := rfl
@[simp] theorem State.setTone_time (s : State) (k : Nat) (v : Tone) : (s.setTone k v).time = s.time := rfl
@[simp] theorem State.modTone_time (s : State) (k : Nat) (g : Tone → Tone) : (s.modTone k g).time = s.time := rfl
@[simp] theorem State.setTone_gov (s : State) (k : Nat) (v : Tone) : (s.setTone k v).gov = s.gov := rfl
@[simp] theorem State.modTone_gov (s : State) (k : Nat) (g : Tone → Tone) : (s.modTone k g).gov = s.gov := rfl
@[simp] theorem State.setTone_host (s : State) (k : Nat) (v : Tone) : (s.setTone k v).host = s.host := rfl
@[simp] theorem State.modTone_host (s : State) (k : Nat) (g : Tone → Tone) : (s.modTone k g).host = s.host := rfl
@[simp] theorem State.setTone_out (s : State) (k : Nat) (v : Tone) : (s.setTone k v).out = s.out := rfl
@[simp] theorem State.modTone_out (s : State) (k : Nat) (g : Tone → Tone) : (s.modTone k g).out = s.out := rfl
@[simp] theorem State.setTone_burins (s : State) (k : Nat) (v : Tone) : (s.setTone k v).burins = s.burins := rfl
@[simp] theorem State.modTone_burins (s : State) (k : Nat) (g : Tone → Tone) : (s.modTone k g).burins = s.burins := rfl
@[simp] theorem State.setTone_cells (s : State) (k : Nat) (v : Tone) : (s.setTone k v).cells = s.cells := rfl
@[simp] theorem State.modTone_cells (s : State) (k : Nat) (g : Tone → Tone) : (s.modTone k g).cells = s.cells := rfl
@[simp] theorem State.setTone_plates (s : State) (k : Nat) (v : Tone) : (s.setTone k v).plates = s.plates := rfl
@[simp] theorem State.modTone_plates (s : State) (k : Nat) (g : Tone → Tone) : (s.modTone k g).plates = s.plates := rfl
@[simp] theorem State.setTone_roots (s : State) (k : Nat) (v : Tone) : (s.setTone k v).roots = s.roots := rfl
@[simp] theorem State.modTone_roots (s : State) (k : Nat) (g : Tone → Tone) : (s.modTone k g).roots = s.roots := rfl
@[simp] theorem State.setTone_faults (s : State) (k : Nat) (v : Tone) : (s.setTone k v).faults = s.faults := rfl
@[simp] theorem State.modTone_faults (s : State) (k : Nat) (g : Tone → Tone) : (s.modTone k g).faults = s.faults := rfl
@[simp] theorem State.setTone_devFault (s : State) (k : Nat) (v : Tone) : (s.setTone k v).devFault = s.devFault := rfl
@[simp] theorem State.modTone_devFault (s : State) (k : Nat) (g : Tone → Tone) : (s.modTone k g).devFault = s.devFault := rfl
@[simp] theorem State.setTone_queues (s : State) (k : Nat) (v : Tone) : (s.setTone k v).queues = s.queues := rfl
@[simp] theorem State.modTone_queues (s : State) (k : Nat) (g : Tone → Tone) : (s.modTone k g).queues = s.queues := rfl
@[simp] theorem State.setTone_ports (s : State) (k : Nat) (v : Tone) : (s.setTone k v).ports = s.ports := rfl
@[simp] theorem State.modTone_ports (s : State) (k : Nat) (g : Tone → Tone) : (s.modTone k g).ports = s.ports := rfl
@[simp] theorem State.setTone_zch (s : State) (k : Nat) (v : Tone) : (s.setTone k v).zch = s.zch := rfl
@[simp] theorem State.modTone_zch (s : State) (k : Nat) (g : Tone → Tone) : (s.modTone k g).zch = s.zch := rfl
@[simp] theorem State.setTone_zctr (s : State) (k : Nat) (v : Tone) : (s.setTone k v).zctr = s.zctr := rfl
@[simp] theorem State.modTone_zctr (s : State) (k : Nat) (g : Tone → Tone) : (s.modTone k g).zctr = s.zctr := rfl
@[simp] theorem State.setTone_zbanks (s : State) (k : Nat) (v : Tone) : (s.setTone k v).zbanks = s.zbanks := rfl
@[simp] theorem State.modTone_zbanks (s : State) (k : Nat) (g : Tone → Tone) : (s.modTone k g).zbanks = s.zbanks := rfl
@[simp] theorem State.setTone_ro (s : State) (k : Nat) (v : Tone) : (s.setTone k v).ro = s.ro := rfl
@[simp] theorem State.modTone_ro (s : State) (k : Nat) (g : Tone → Tone) : (s.modTone k g).ro = s.ro := rfl
@[simp] theorem State.setTone_stipChains (s : State) (k : Nat) (v : Tone) : (s.setTone k v).stipChains = s.stipChains := rfl
@[simp] theorem State.modTone_stipChains (s : State) (k : Nat) (g : Tone → Tone) : (s.modTone k g).stipChains = s.stipChains := rfl
@[simp] theorem State.setTone_acqPorts (s : State) (k : Nat) (v : Tone) : (s.setTone k v).acqPorts = s.acqPorts := rfl
@[simp] theorem State.modTone_acqPorts (s : State) (k : Nat) (g : Tone → Tone) : (s.modTone k g).acqPorts = s.acqPorts := rfl
@[simp] theorem State.setTone_streams (s : State) (k : Nat) (v : Tone) : (s.setTone k v).streams = s.streams := rfl
@[simp] theorem State.modTone_streams (s : State) (k : Nat) (g : Tone → Tone) : (s.modTone k g).streams = s.streams := rfl
@[simp] theorem State.setTone_epoch (s : State) (k : Nat) (v : Tone) : (s.setTone k v).epoch = s.epoch := rfl
@[simp] theorem State.modTone_epoch (s : State) (k : Nat) (g : Tone → Tone) : (s.modTone k g).epoch = s.epoch := rfl
@[simp] theorem State.setTone_epochPrev (s : State) (k : Nat) (v : Tone) : (s.setTone k v).epochPrev = s.epochPrev := rfl
@[simp] theorem State.modTone_epochPrev (s : State) (k : Nat) (g : Tone → Tone) : (s.modTone k g).epochPrev = s.epochPrev := rfl
@[simp] theorem State.setTone_alignArm (s : State) (k : Nat) (v : Tone) : (s.setTone k v).alignArm = s.alignArm := rfl
@[simp] theorem State.modTone_alignArm (s : State) (k : Nat) (g : Tone → Tone) : (s.modTone k g).alignArm = s.alignArm := rfl
@[simp] theorem State.setTone_chans (s : State) (k : Nat) (v : Tone) : (s.setTone k v).chans = s.chans := rfl
@[simp] theorem State.modTone_chans (s : State) (k : Nat) (g : Tone → Tone) : (s.modTone k g).chans = s.chans := rfl
@[simp] theorem State.setTone_chCtrs (s : State) (k : Nat) (v : Tone) : (s.setTone k v).chCtrs = s.chCtrs := rfl
@[simp] theorem State.modTone_chCtrs (s : State) (k : Nat) (g : Tone → Tone) : (s.modTone k g).chCtrs = s.chCtrs := rfl
@[simp] theorem State.setTone_gates (s : State) (k : Nat) (v : Tone) : (s.setTone k v).gates = s.gates := rfl
@[simp] theorem State.modTone_gates (s : State) (k : Nat) (g : Tone → Tone) : (s.modTone k g).gates = s.gates := rfl
@[simp] theorem State.setTone_gatePend (s : State) (k : Nat) (v : Tone) : (s.setTone k v).gatePend = s.gatePend := rfl
@[simp] theorem State.modTone_gatePend (s : State) (k : Nat) (g : Tone → Tone) : (s.modTone k g).gatePend = s.gatePend := rfl
@[simp] theorem State.setTone_engines (s : State) (k : Nat) (v : Tone) : (s.setTone k v).engines = s.engines := rfl
@[simp] theorem State.modTone_engines (s : State) (k : Nat) (g : Tone → Tone) : (s.modTone k g).engines = s.engines := rfl
@[simp] theorem State.setTone_mark (s : State) (k : Nat) (v : Tone) : (s.setTone k v).mark = s.mark := rfl
@[simp] theorem State.modTone_mark (s : State) (k : Nat) (g : Tone → Tone) : (s.modTone k g).mark = s.mark := rfl
@[simp] theorem State.setTone_stampCh (s : State) (k : Nat) (v : Tone) : (s.setTone k v).stampCh = s.stampCh := rfl
@[simp] theorem State.modTone_stampCh (s : State) (k : Nat) (g : Tone → Tone) : (s.modTone k g).stampCh = s.stampCh := rfl
@[simp] theorem State.setTone_tiu (s : State) (k : Nat) (v : Tone) : (s.setTone k v).tiu = s.tiu := rfl
@[simp] theorem State.modTone_tiu (s : State) (k : Nat) (g : Tone → Tone) : (s.modTone k g).tiu = s.tiu := rfl
@[simp] theorem State.setTone_jvl (s : State) (k : Nat) (v : Tone) : (s.setTone k v).jvl = s.jvl := rfl
@[simp] theorem State.modTone_jvl (s : State) (k : Nat) (g : Tone → Tone) : (s.modTone k g).jvl = s.jvl := rfl
@[simp] theorem State.setTone_jvlCtr (s : State) (k : Nat) (v : Tone) : (s.setTone k v).jvlCtr = s.jvlCtr := rfl
@[simp] theorem State.modTone_jvlCtr (s : State) (k : Nat) (g : Tone → Tone) : (s.modTone k g).jvlCtr = s.jvlCtr := rfl
@[simp] theorem State.setTone_timePort (s : State) (k : Nat) (v : Tone) : (s.setTone k v).timePort = s.timePort := rfl
@[simp] theorem State.modTone_timePort (s : State) (k : Nat) (g : Tone → Tone) : (s.modTone k g).timePort = s.timePort := rfl
@[simp] theorem State.setTone_mem (s : State) (k : Nat) (v : Tone) : (s.setTone k v).mem = s.mem := rfl
@[simp] theorem State.modTone_mem (s : State) (k : Nat) (g : Tone → Tone) : (s.modTone k g).mem = s.mem := rfl
@[simp] theorem State.setTone_rings (s : State) (k : Nat) (v : Tone) : (s.setTone k v).rings = s.rings := rfl
@[simp] theorem State.modTone_rings (s : State) (k : Nat) (g : Tone → Tone) : (s.modTone k g).rings = s.rings := rfl
@[simp] theorem State.setTone_domains (s : State) (k : Nat) (v : Tone) : (s.setTone k v).domains = s.domains := rfl
@[simp] theorem State.modTone_domains (s : State) (k : Nat) (g : Tone → Tone) : (s.modTone k g).domains = s.domains := rfl
@[simp] theorem State.setTone_refLog (s : State) (k : Nat) (v : Tone) : (s.setTone k v).refLog = s.refLog := rfl
@[simp] theorem State.modTone_refLog (s : State) (k : Nat) (g : Tone → Tone) : (s.modTone k g).refLog = s.refLog := rfl
@[simp] theorem State.setTone_house (s : State) (k : Nat) (v : Tone) : (s.setTone k v).house = s.house := rfl
@[simp] theorem State.modTone_house (s : State) (k : Nat) (g : Tone → Tone) : (s.modTone k g).house = s.house := rfl
@[simp] theorem State.setTone_calib (s : State) (k : Nat) (v : Tone) : (s.setTone k v).calib = s.calib := rfl
@[simp] theorem State.modTone_calib (s : State) (k : Nat) (g : Tone → Tone) : (s.modTone k g).calib = s.calib := rfl
@[simp] theorem State.setTone_proofs (s : State) (k : Nat) (v : Tone) : (s.setTone k v).proofs = s.proofs := rfl
@[simp] theorem State.modTone_proofs (s : State) (k : Nat) (g : Tone → Tone) : (s.modTone k g).proofs = s.proofs := rfl
@[simp] theorem State.setTone_joins (s : State) (k : Nat) (v : Tone) : (s.setTone k v).joins = s.joins := rfl
@[simp] theorem State.modTone_joins (s : State) (k : Nat) (g : Tone → Tone) : (s.modTone k g).joins = s.joins := rfl
@[simp] theorem State.setTone_promises (s : State) (k : Nat) (v : Tone) : (s.setTone k v).promises = s.promises := rfl
@[simp] theorem State.modTone_promises (s : State) (k : Nat) (g : Tone → Tone) : (s.modTone k g).promises = s.promises := rfl
@[simp] theorem State.setTone_nextId (s : State) (k : Nat) (v : Tone) : (s.setTone k v).nextId = s.nextId := rfl
@[simp] theorem State.modTone_nextId (s : State) (k : Nat) (g : Tone → Tone) : (s.modTone k g).nextId = s.nextId := rfl
@[simp] theorem State.setTone_boot (s : State) (k : Nat) (v : Tone) : (s.setTone k v).boot = s.boot := rfl
@[simp] theorem State.modTone_boot (s : State) (k : Nat) (g : Tone → Tone) : (s.modTone k g).boot = s.boot := rfl
@[simp] theorem State.setTone_patches (s : State) (k : Nat) (v : Tone) : (s.setTone k v).patches = s.patches := rfl
@[simp] theorem State.modTone_patches (s : State) (k : Nat) (g : Tone → Tone) : (s.modTone k g).patches = s.patches := rfl
@[simp] theorem State.setTone_side (s : State) (k : Nat) (v : Tone) : (s.setTone k v).side = s.side := rfl
@[simp] theorem State.modTone_side (s : State) (k : Nat) (g : Tone → Tone) : (s.modTone k g).side = s.side := rfl
@[simp] theorem State.setTone_free (s : State) (k : Nat) (v : Tone) : (s.setTone k v).free = s.free := rfl
@[simp] theorem State.modTone_free (s : State) (k : Nat) (g : Tone → Tone) : (s.modTone k g).free = s.free := rfl
@[simp] theorem State.setPort_pending (s : State) (k : Nat) (v : Port) : (s.setPort k v).pending = s.pending := rfl
@[simp] theorem State.modPort_pending (s : State) (k : Nat) (g : Port → Port) : (s.modPort k g).pending = s.pending := rfl
@[simp] theorem State.setPort_now (s : State) (k : Nat) (v : Port) : (s.setPort k v).now = s.now := rfl
@[simp] theorem State.modPort_now (s : State) (k : Nat) (g : Port → Port) : (s.modPort k g).now = s.now := rfl
@[simp] theorem State.setPort_sys (s : State) (k : Nat) (v : Port) : (s.setPort k v).sys = s.sys := rfl
@[simp] theorem State.modPort_sys (s : State) (k : Nat) (g : Port → Port) : (s.modPort k g).sys = s.sys := rfl
@[simp] theorem State.setPort_time (s : State) (k : Nat) (v : Port) : (s.setPort k v).time = s.time := rfl
@[simp] theorem State.modPort_time (s : State) (k : Nat) (g : Port → Port) : (s.modPort k g).time = s.time := rfl
@[simp] theorem State.setPort_gov (s : State) (k : Nat) (v : Port) : (s.setPort k v).gov = s.gov := rfl
@[simp] theorem State.modPort_gov (s : State) (k : Nat) (g : Port → Port) : (s.modPort k g).gov = s.gov := rfl
@[simp] theorem State.setPort_host (s : State) (k : Nat) (v : Port) : (s.setPort k v).host = s.host := rfl
@[simp] theorem State.modPort_host (s : State) (k : Nat) (g : Port → Port) : (s.modPort k g).host = s.host := rfl
@[simp] theorem State.setPort_out (s : State) (k : Nat) (v : Port) : (s.setPort k v).out = s.out := rfl
@[simp] theorem State.modPort_out (s : State) (k : Nat) (g : Port → Port) : (s.modPort k g).out = s.out := rfl
@[simp] theorem State.setPort_burins (s : State) (k : Nat) (v : Port) : (s.setPort k v).burins = s.burins := rfl
@[simp] theorem State.modPort_burins (s : State) (k : Nat) (g : Port → Port) : (s.modPort k g).burins = s.burins := rfl
@[simp] theorem State.setPort_cells (s : State) (k : Nat) (v : Port) : (s.setPort k v).cells = s.cells := rfl
@[simp] theorem State.modPort_cells (s : State) (k : Nat) (g : Port → Port) : (s.modPort k g).cells = s.cells := rfl
@[simp] theorem State.setPort_plates (s : State) (k : Nat) (v : Port) : (s.setPort k v).plates = s.plates := rfl
@[simp] theorem State.modPort_plates (s : State) (k : Nat) (g : Port → Port) : (s.modPort k g).plates = s.plates := rfl
@[simp] theorem State.setPort_roots (s : State) (k : Nat) (v : Port) : (s.setPort k v).roots = s.roots := rfl
@[simp] theorem State.modPort_roots (s : State) (k : Nat) (g : Port → Port) : (s.modPort k g).roots = s.roots := rfl
@[simp] theorem State.setPort_faults (s : State) (k : Nat) (v : Port) : (s.setPort k v).faults = s.faults := rfl
@[simp] theorem State.modPort_faults (s : State) (k : Nat) (g : Port → Port) : (s.modPort k g).faults = s.faults := rfl
@[simp] theorem State.setPort_devFault (s : State) (k : Nat) (v : Port) : (s.setPort k v).devFault = s.devFault := rfl
@[simp] theorem State.modPort_devFault (s : State) (k : Nat) (g : Port → Port) : (s.modPort k g).devFault = s.devFault := rfl
@[simp] theorem State.setPort_queues (s : State) (k : Nat) (v : Port) : (s.setPort k v).queues = s.queues := rfl
@[simp] theorem State.modPort_queues (s : State) (k : Nat) (g : Port → Port) : (s.modPort k g).queues = s.queues := rfl
@[simp] theorem State.setPort_tones (s : State) (k : Nat) (v : Port) : (s.setPort k v).tones = s.tones := rfl
@[simp] theorem State.modPort_tones (s : State) (k : Nat) (g : Port → Port) : (s.modPort k g).tones = s.tones := rfl
@[simp] theorem State.setPort_zch (s : State) (k : Nat) (v : Port) : (s.setPort k v).zch = s.zch := rfl
@[simp] theorem State.modPort_zch (s : State) (k : Nat) (g : Port → Port) : (s.modPort k g).zch = s.zch := rfl
@[simp] theorem State.setPort_zctr (s : State) (k : Nat) (v : Port) : (s.setPort k v).zctr = s.zctr := rfl
@[simp] theorem State.modPort_zctr (s : State) (k : Nat) (g : Port → Port) : (s.modPort k g).zctr = s.zctr := rfl
@[simp] theorem State.setPort_zbanks (s : State) (k : Nat) (v : Port) : (s.setPort k v).zbanks = s.zbanks := rfl
@[simp] theorem State.modPort_zbanks (s : State) (k : Nat) (g : Port → Port) : (s.modPort k g).zbanks = s.zbanks := rfl
@[simp] theorem State.setPort_ro (s : State) (k : Nat) (v : Port) : (s.setPort k v).ro = s.ro := rfl
@[simp] theorem State.modPort_ro (s : State) (k : Nat) (g : Port → Port) : (s.modPort k g).ro = s.ro := rfl
@[simp] theorem State.setPort_stipChains (s : State) (k : Nat) (v : Port) : (s.setPort k v).stipChains = s.stipChains := rfl
@[simp] theorem State.modPort_stipChains (s : State) (k : Nat) (g : Port → Port) : (s.modPort k g).stipChains = s.stipChains := rfl
@[simp] theorem State.setPort_acqPorts (s : State) (k : Nat) (v : Port) : (s.setPort k v).acqPorts = s.acqPorts := rfl
@[simp] theorem State.modPort_acqPorts (s : State) (k : Nat) (g : Port → Port) : (s.modPort k g).acqPorts = s.acqPorts := rfl
@[simp] theorem State.setPort_streams (s : State) (k : Nat) (v : Port) : (s.setPort k v).streams = s.streams := rfl
@[simp] theorem State.modPort_streams (s : State) (k : Nat) (g : Port → Port) : (s.modPort k g).streams = s.streams := rfl
@[simp] theorem State.setPort_epoch (s : State) (k : Nat) (v : Port) : (s.setPort k v).epoch = s.epoch := rfl
@[simp] theorem State.modPort_epoch (s : State) (k : Nat) (g : Port → Port) : (s.modPort k g).epoch = s.epoch := rfl
@[simp] theorem State.setPort_epochPrev (s : State) (k : Nat) (v : Port) : (s.setPort k v).epochPrev = s.epochPrev := rfl
@[simp] theorem State.modPort_epochPrev (s : State) (k : Nat) (g : Port → Port) : (s.modPort k g).epochPrev = s.epochPrev := rfl
@[simp] theorem State.setPort_alignArm (s : State) (k : Nat) (v : Port) : (s.setPort k v).alignArm = s.alignArm := rfl
@[simp] theorem State.modPort_alignArm (s : State) (k : Nat) (g : Port → Port) : (s.modPort k g).alignArm = s.alignArm := rfl
@[simp] theorem State.setPort_chans (s : State) (k : Nat) (v : Port) : (s.setPort k v).chans = s.chans := rfl
@[simp] theorem State.modPort_chans (s : State) (k : Nat) (g : Port → Port) : (s.modPort k g).chans = s.chans := rfl
@[simp] theorem State.setPort_chCtrs (s : State) (k : Nat) (v : Port) : (s.setPort k v).chCtrs = s.chCtrs := rfl
@[simp] theorem State.modPort_chCtrs (s : State) (k : Nat) (g : Port → Port) : (s.modPort k g).chCtrs = s.chCtrs := rfl
@[simp] theorem State.setPort_gates (s : State) (k : Nat) (v : Port) : (s.setPort k v).gates = s.gates := rfl
@[simp] theorem State.modPort_gates (s : State) (k : Nat) (g : Port → Port) : (s.modPort k g).gates = s.gates := rfl
@[simp] theorem State.setPort_gatePend (s : State) (k : Nat) (v : Port) : (s.setPort k v).gatePend = s.gatePend := rfl
@[simp] theorem State.modPort_gatePend (s : State) (k : Nat) (g : Port → Port) : (s.modPort k g).gatePend = s.gatePend := rfl
@[simp] theorem State.setPort_engines (s : State) (k : Nat) (v : Port) : (s.setPort k v).engines = s.engines := rfl
@[simp] theorem State.modPort_engines (s : State) (k : Nat) (g : Port → Port) : (s.modPort k g).engines = s.engines := rfl
@[simp] theorem State.setPort_mark (s : State) (k : Nat) (v : Port) : (s.setPort k v).mark = s.mark := rfl
@[simp] theorem State.modPort_mark (s : State) (k : Nat) (g : Port → Port) : (s.modPort k g).mark = s.mark := rfl
@[simp] theorem State.setPort_stampCh (s : State) (k : Nat) (v : Port) : (s.setPort k v).stampCh = s.stampCh := rfl
@[simp] theorem State.modPort_stampCh (s : State) (k : Nat) (g : Port → Port) : (s.modPort k g).stampCh = s.stampCh := rfl
@[simp] theorem State.setPort_tiu (s : State) (k : Nat) (v : Port) : (s.setPort k v).tiu = s.tiu := rfl
@[simp] theorem State.modPort_tiu (s : State) (k : Nat) (g : Port → Port) : (s.modPort k g).tiu = s.tiu := rfl
@[simp] theorem State.setPort_jvl (s : State) (k : Nat) (v : Port) : (s.setPort k v).jvl = s.jvl := rfl
@[simp] theorem State.modPort_jvl (s : State) (k : Nat) (g : Port → Port) : (s.modPort k g).jvl = s.jvl := rfl
@[simp] theorem State.setPort_jvlCtr (s : State) (k : Nat) (v : Port) : (s.setPort k v).jvlCtr = s.jvlCtr := rfl
@[simp] theorem State.modPort_jvlCtr (s : State) (k : Nat) (g : Port → Port) : (s.modPort k g).jvlCtr = s.jvlCtr := rfl
@[simp] theorem State.setPort_timePort (s : State) (k : Nat) (v : Port) : (s.setPort k v).timePort = s.timePort := rfl
@[simp] theorem State.modPort_timePort (s : State) (k : Nat) (g : Port → Port) : (s.modPort k g).timePort = s.timePort := rfl
@[simp] theorem State.setPort_mem (s : State) (k : Nat) (v : Port) : (s.setPort k v).mem = s.mem := rfl
@[simp] theorem State.modPort_mem (s : State) (k : Nat) (g : Port → Port) : (s.modPort k g).mem = s.mem := rfl
@[simp] theorem State.setPort_rings (s : State) (k : Nat) (v : Port) : (s.setPort k v).rings = s.rings := rfl
@[simp] theorem State.modPort_rings (s : State) (k : Nat) (g : Port → Port) : (s.modPort k g).rings = s.rings := rfl
@[simp] theorem State.setPort_domains (s : State) (k : Nat) (v : Port) : (s.setPort k v).domains = s.domains := rfl
@[simp] theorem State.modPort_domains (s : State) (k : Nat) (g : Port → Port) : (s.modPort k g).domains = s.domains := rfl
@[simp] theorem State.setPort_refLog (s : State) (k : Nat) (v : Port) : (s.setPort k v).refLog = s.refLog := rfl
@[simp] theorem State.modPort_refLog (s : State) (k : Nat) (g : Port → Port) : (s.modPort k g).refLog = s.refLog := rfl
@[simp] theorem State.setPort_house (s : State) (k : Nat) (v : Port) : (s.setPort k v).house = s.house := rfl
@[simp] theorem State.modPort_house (s : State) (k : Nat) (g : Port → Port) : (s.modPort k g).house = s.house := rfl
@[simp] theorem State.setPort_calib (s : State) (k : Nat) (v : Port) : (s.setPort k v).calib = s.calib := rfl
@[simp] theorem State.modPort_calib (s : State) (k : Nat) (g : Port → Port) : (s.modPort k g).calib = s.calib := rfl
@[simp] theorem State.setPort_proofs (s : State) (k : Nat) (v : Port) : (s.setPort k v).proofs = s.proofs := rfl
@[simp] theorem State.modPort_proofs (s : State) (k : Nat) (g : Port → Port) : (s.modPort k g).proofs = s.proofs := rfl
@[simp] theorem State.setPort_joins (s : State) (k : Nat) (v : Port) : (s.setPort k v).joins = s.joins := rfl
@[simp] theorem State.modPort_joins (s : State) (k : Nat) (g : Port → Port) : (s.modPort k g).joins = s.joins := rfl
@[simp] theorem State.setPort_promises (s : State) (k : Nat) (v : Port) : (s.setPort k v).promises = s.promises := rfl
@[simp] theorem State.modPort_promises (s : State) (k : Nat) (g : Port → Port) : (s.modPort k g).promises = s.promises := rfl
@[simp] theorem State.setPort_nextId (s : State) (k : Nat) (v : Port) : (s.setPort k v).nextId = s.nextId := rfl
@[simp] theorem State.modPort_nextId (s : State) (k : Nat) (g : Port → Port) : (s.modPort k g).nextId = s.nextId := rfl
@[simp] theorem State.setPort_boot (s : State) (k : Nat) (v : Port) : (s.setPort k v).boot = s.boot := rfl
@[simp] theorem State.modPort_boot (s : State) (k : Nat) (g : Port → Port) : (s.modPort k g).boot = s.boot := rfl
@[simp] theorem State.setPort_patches (s : State) (k : Nat) (v : Port) : (s.setPort k v).patches = s.patches := rfl
@[simp] theorem State.modPort_patches (s : State) (k : Nat) (g : Port → Port) : (s.modPort k g).patches = s.patches := rfl
@[simp] theorem State.setPort_side (s : State) (k : Nat) (v : Port) : (s.setPort k v).side = s.side := rfl
@[simp] theorem State.modPort_side (s : State) (k : Nat) (g : Port → Port) : (s.modPort k g).side = s.side := rfl
@[simp] theorem State.setPort_free (s : State) (k : Nat) (v : Port) : (s.setPort k v).free = s.free := rfl
@[simp] theorem State.modPort_free (s : State) (k : Nat) (g : Port → Port) : (s.modPort k g).free = s.free := rfl
@[simp] theorem State.setZ_pending (s : State) (k : Nat) (v : ZChan) : (s.setZ k v).pending = s.pending := rfl
@[simp] theorem State.modZ_pending (s : State) (k : Nat) (g : ZChan → ZChan) : (s.modZ k g).pending = s.pending := rfl
@[simp] theorem State.setZ_now (s : State) (k : Nat) (v : ZChan) : (s.setZ k v).now = s.now := rfl
@[simp] theorem State.modZ_now (s : State) (k : Nat) (g : ZChan → ZChan) : (s.modZ k g).now = s.now := rfl
@[simp] theorem State.setZ_sys (s : State) (k : Nat) (v : ZChan) : (s.setZ k v).sys = s.sys := rfl
@[simp] theorem State.modZ_sys (s : State) (k : Nat) (g : ZChan → ZChan) : (s.modZ k g).sys = s.sys := rfl
@[simp] theorem State.setZ_time (s : State) (k : Nat) (v : ZChan) : (s.setZ k v).time = s.time := rfl
@[simp] theorem State.modZ_time (s : State) (k : Nat) (g : ZChan → ZChan) : (s.modZ k g).time = s.time := rfl
@[simp] theorem State.setZ_gov (s : State) (k : Nat) (v : ZChan) : (s.setZ k v).gov = s.gov := rfl
@[simp] theorem State.modZ_gov (s : State) (k : Nat) (g : ZChan → ZChan) : (s.modZ k g).gov = s.gov := rfl
@[simp] theorem State.setZ_host (s : State) (k : Nat) (v : ZChan) : (s.setZ k v).host = s.host := rfl
@[simp] theorem State.modZ_host (s : State) (k : Nat) (g : ZChan → ZChan) : (s.modZ k g).host = s.host := rfl
@[simp] theorem State.setZ_out (s : State) (k : Nat) (v : ZChan) : (s.setZ k v).out = s.out := rfl
@[simp] theorem State.modZ_out (s : State) (k : Nat) (g : ZChan → ZChan) : (s.modZ k g).out = s.out := rfl
@[simp] theorem State.setZ_burins (s : State) (k : Nat) (v : ZChan) : (s.setZ k v).burins = s.burins := rfl
@[simp] theorem State.modZ_burins (s : State) (k : Nat) (g : ZChan → ZChan) : (s.modZ k g).burins = s.burins := rfl
@[simp] theorem State.setZ_cells (s : State) (k : Nat) (v : ZChan) : (s.setZ k v).cells = s.cells := rfl
@[simp] theorem State.modZ_cells (s : State) (k : Nat) (g : ZChan → ZChan) : (s.modZ k g).cells = s.cells := rfl
@[simp] theorem State.setZ_plates (s : State) (k : Nat) (v : ZChan) : (s.setZ k v).plates = s.plates := rfl
@[simp] theorem State.modZ_plates (s : State) (k : Nat) (g : ZChan → ZChan) : (s.modZ k g).plates = s.plates := rfl
@[simp] theorem State.setZ_roots (s : State) (k : Nat) (v : ZChan) : (s.setZ k v).roots = s.roots := rfl
@[simp] theorem State.modZ_roots (s : State) (k : Nat) (g : ZChan → ZChan) : (s.modZ k g).roots = s.roots := rfl
@[simp] theorem State.setZ_faults (s : State) (k : Nat) (v : ZChan) : (s.setZ k v).faults = s.faults := rfl
@[simp] theorem State.modZ_faults (s : State) (k : Nat) (g : ZChan → ZChan) : (s.modZ k g).faults = s.faults := rfl
@[simp] theorem State.setZ_devFault (s : State) (k : Nat) (v : ZChan) : (s.setZ k v).devFault = s.devFault := rfl
@[simp] theorem State.modZ_devFault (s : State) (k : Nat) (g : ZChan → ZChan) : (s.modZ k g).devFault = s.devFault := rfl
@[simp] theorem State.setZ_queues (s : State) (k : Nat) (v : ZChan) : (s.setZ k v).queues = s.queues := rfl
@[simp] theorem State.modZ_queues (s : State) (k : Nat) (g : ZChan → ZChan) : (s.modZ k g).queues = s.queues := rfl
@[simp] theorem State.setZ_tones (s : State) (k : Nat) (v : ZChan) : (s.setZ k v).tones = s.tones := rfl
@[simp] theorem State.modZ_tones (s : State) (k : Nat) (g : ZChan → ZChan) : (s.modZ k g).tones = s.tones := rfl
@[simp] theorem State.setZ_ports (s : State) (k : Nat) (v : ZChan) : (s.setZ k v).ports = s.ports := rfl
@[simp] theorem State.modZ_ports (s : State) (k : Nat) (g : ZChan → ZChan) : (s.modZ k g).ports = s.ports := rfl
@[simp] theorem State.setZ_zctr (s : State) (k : Nat) (v : ZChan) : (s.setZ k v).zctr = s.zctr := rfl
@[simp] theorem State.modZ_zctr (s : State) (k : Nat) (g : ZChan → ZChan) : (s.modZ k g).zctr = s.zctr := rfl
@[simp] theorem State.setZ_zbanks (s : State) (k : Nat) (v : ZChan) : (s.setZ k v).zbanks = s.zbanks := rfl
@[simp] theorem State.modZ_zbanks (s : State) (k : Nat) (g : ZChan → ZChan) : (s.modZ k g).zbanks = s.zbanks := rfl
@[simp] theorem State.setZ_ro (s : State) (k : Nat) (v : ZChan) : (s.setZ k v).ro = s.ro := rfl
@[simp] theorem State.modZ_ro (s : State) (k : Nat) (g : ZChan → ZChan) : (s.modZ k g).ro = s.ro := rfl
@[simp] theorem State.setZ_stipChains (s : State) (k : Nat) (v : ZChan) : (s.setZ k v).stipChains = s.stipChains := rfl
@[simp] theorem State.modZ_stipChains (s : State) (k : Nat) (g : ZChan → ZChan) : (s.modZ k g).stipChains = s.stipChains := rfl
@[simp] theorem State.setZ_acqPorts (s : State) (k : Nat) (v : ZChan) : (s.setZ k v).acqPorts = s.acqPorts := rfl
@[simp] theorem State.modZ_acqPorts (s : State) (k : Nat) (g : ZChan → ZChan) : (s.modZ k g).acqPorts = s.acqPorts := rfl
@[simp] theorem State.setZ_streams (s : State) (k : Nat) (v : ZChan) : (s.setZ k v).streams = s.streams := rfl
@[simp] theorem State.modZ_streams (s : State) (k : Nat) (g : ZChan → ZChan) : (s.modZ k g).streams = s.streams := rfl
@[simp] theorem State.setZ_epoch (s : State) (k : Nat) (v : ZChan) : (s.setZ k v).epoch = s.epoch := rfl
@[simp] theorem State.modZ_epoch (s : State) (k : Nat) (g : ZChan → ZChan) : (s.modZ k g).epoch = s.epoch := rfl
@[simp] theorem State.setZ_epochPrev (s : State) (k : Nat) (v : ZChan) : (s.setZ k v).epochPrev = s.epochPrev := rfl
@[simp] theorem State.modZ_epochPrev (s : State) (k : Nat) (g : ZChan → ZChan) : (s.modZ k g).epochPrev = s.epochPrev := rfl
@[simp] theorem State.setZ_alignArm (s : State) (k : Nat) (v : ZChan) : (s.setZ k v).alignArm = s.alignArm := rfl
@[simp] theorem State.modZ_alignArm (s : State) (k : Nat) (g : ZChan → ZChan) : (s.modZ k g).alignArm = s.alignArm := rfl
@[simp] theorem State.setZ_chans (s : State) (k : Nat) (v : ZChan) : (s.setZ k v).chans = s.chans := rfl
@[simp] theorem State.modZ_chans (s : State) (k : Nat) (g : ZChan → ZChan) : (s.modZ k g).chans = s.chans := rfl
@[simp] theorem State.setZ_chCtrs (s : State) (k : Nat) (v : ZChan) : (s.setZ k v).chCtrs = s.chCtrs := rfl
@[simp] theorem State.modZ_chCtrs (s : State) (k : Nat) (g : ZChan → ZChan) : (s.modZ k g).chCtrs = s.chCtrs := rfl
@[simp] theorem State.setZ_gates (s : State) (k : Nat) (v : ZChan) : (s.setZ k v).gates = s.gates := rfl
@[simp] theorem State.modZ_gates (s : State) (k : Nat) (g : ZChan → ZChan) : (s.modZ k g).gates = s.gates := rfl
@[simp] theorem State.setZ_gatePend (s : State) (k : Nat) (v : ZChan) : (s.setZ k v).gatePend = s.gatePend := rfl
@[simp] theorem State.modZ_gatePend (s : State) (k : Nat) (g : ZChan → ZChan) : (s.modZ k g).gatePend = s.gatePend := rfl
@[simp] theorem State.setZ_engines (s : State) (k : Nat) (v : ZChan) : (s.setZ k v).engines = s.engines := rfl
@[simp] theorem State.modZ_engines (s : State) (k : Nat) (g : ZChan → ZChan) : (s.modZ k g).engines = s.engines := rfl
@[simp] theorem State.setZ_mark (s : State) (k : Nat) (v : ZChan) : (s.setZ k v).mark = s.mark := rfl
@[simp] theorem State.modZ_mark (s : State) (k : Nat) (g : ZChan → ZChan) : (s.modZ k g).mark = s.mark := rfl
@[simp] theorem State.setZ_stampCh (s : State) (k : Nat) (v : ZChan) : (s.setZ k v).stampCh = s.stampCh := rfl
@[simp] theorem State.modZ_stampCh (s : State) (k : Nat) (g : ZChan → ZChan) : (s.modZ k g).stampCh = s.stampCh := rfl
@[simp] theorem State.setZ_tiu (s : State) (k : Nat) (v : ZChan) : (s.setZ k v).tiu = s.tiu := rfl
@[simp] theorem State.modZ_tiu (s : State) (k : Nat) (g : ZChan → ZChan) : (s.modZ k g).tiu = s.tiu := rfl
@[simp] theorem State.setZ_jvl (s : State) (k : Nat) (v : ZChan) : (s.setZ k v).jvl = s.jvl := rfl
@[simp] theorem State.modZ_jvl (s : State) (k : Nat) (g : ZChan → ZChan) : (s.modZ k g).jvl = s.jvl := rfl
@[simp] theorem State.setZ_jvlCtr (s : State) (k : Nat) (v : ZChan) : (s.setZ k v).jvlCtr = s.jvlCtr := rfl
@[simp] theorem State.modZ_jvlCtr (s : State) (k : Nat) (g : ZChan → ZChan) : (s.modZ k g).jvlCtr = s.jvlCtr := rfl
@[simp] theorem State.setZ_timePort (s : State) (k : Nat) (v : ZChan) : (s.setZ k v).timePort = s.timePort := rfl
@[simp] theorem State.modZ_timePort (s : State) (k : Nat) (g : ZChan → ZChan) : (s.modZ k g).timePort = s.timePort := rfl
@[simp] theorem State.setZ_mem (s : State) (k : Nat) (v : ZChan) : (s.setZ k v).mem = s.mem := rfl
@[simp] theorem State.modZ_mem (s : State) (k : Nat) (g : ZChan → ZChan) : (s.modZ k g).mem = s.mem := rfl
@[simp] theorem State.setZ_rings (s : State) (k : Nat) (v : ZChan) : (s.setZ k v).rings = s.rings := rfl
@[simp] theorem State.modZ_rings (s : State) (k : Nat) (g : ZChan → ZChan) : (s.modZ k g).rings = s.rings := rfl
@[simp] theorem State.setZ_domains (s : State) (k : Nat) (v : ZChan) : (s.setZ k v).domains = s.domains := rfl
@[simp] theorem State.modZ_domains (s : State) (k : Nat) (g : ZChan → ZChan) : (s.modZ k g).domains = s.domains := rfl
@[simp] theorem State.setZ_refLog (s : State) (k : Nat) (v : ZChan) : (s.setZ k v).refLog = s.refLog := rfl
@[simp] theorem State.modZ_refLog (s : State) (k : Nat) (g : ZChan → ZChan) : (s.modZ k g).refLog = s.refLog := rfl
@[simp] theorem State.setZ_house (s : State) (k : Nat) (v : ZChan) : (s.setZ k v).house = s.house := rfl
@[simp] theorem State.modZ_house (s : State) (k : Nat) (g : ZChan → ZChan) : (s.modZ k g).house = s.house := rfl
@[simp] theorem State.setZ_calib (s : State) (k : Nat) (v : ZChan) : (s.setZ k v).calib = s.calib := rfl
@[simp] theorem State.modZ_calib (s : State) (k : Nat) (g : ZChan → ZChan) : (s.modZ k g).calib = s.calib := rfl
@[simp] theorem State.setZ_proofs (s : State) (k : Nat) (v : ZChan) : (s.setZ k v).proofs = s.proofs := rfl
@[simp] theorem State.modZ_proofs (s : State) (k : Nat) (g : ZChan → ZChan) : (s.modZ k g).proofs = s.proofs := rfl
@[simp] theorem State.setZ_joins (s : State) (k : Nat) (v : ZChan) : (s.setZ k v).joins = s.joins := rfl
@[simp] theorem State.modZ_joins (s : State) (k : Nat) (g : ZChan → ZChan) : (s.modZ k g).joins = s.joins := rfl
@[simp] theorem State.setZ_promises (s : State) (k : Nat) (v : ZChan) : (s.setZ k v).promises = s.promises := rfl
@[simp] theorem State.modZ_promises (s : State) (k : Nat) (g : ZChan → ZChan) : (s.modZ k g).promises = s.promises := rfl
@[simp] theorem State.setZ_nextId (s : State) (k : Nat) (v : ZChan) : (s.setZ k v).nextId = s.nextId := rfl
@[simp] theorem State.modZ_nextId (s : State) (k : Nat) (g : ZChan → ZChan) : (s.modZ k g).nextId = s.nextId := rfl
@[simp] theorem State.setZ_boot (s : State) (k : Nat) (v : ZChan) : (s.setZ k v).boot = s.boot := rfl
@[simp] theorem State.modZ_boot (s : State) (k : Nat) (g : ZChan → ZChan) : (s.modZ k g).boot = s.boot := rfl
@[simp] theorem State.setZ_patches (s : State) (k : Nat) (v : ZChan) : (s.setZ k v).patches = s.patches := rfl
@[simp] theorem State.modZ_patches (s : State) (k : Nat) (g : ZChan → ZChan) : (s.modZ k g).patches = s.patches := rfl
@[simp] theorem State.setZ_side (s : State) (k : Nat) (v : ZChan) : (s.setZ k v).side = s.side := rfl
@[simp] theorem State.modZ_side (s : State) (k : Nat) (g : ZChan → ZChan) : (s.modZ k g).side = s.side := rfl
@[simp] theorem State.setZ_free (s : State) (k : Nat) (v : ZChan) : (s.setZ k v).free = s.free := rfl
@[simp] theorem State.modZ_free (s : State) (k : Nat) (g : ZChan → ZChan) : (s.modZ k g).free = s.free := rfl
@[simp] theorem State.setZc_pending (s : State) (k : Nat) (v : ZCtrs) : (s.setZc k v).pending = s.pending := rfl
@[simp] theorem State.modZc_pending (s : State) (k : Nat) (g : ZCtrs → ZCtrs) : (s.modZc k g).pending = s.pending := rfl
@[simp] theorem State.setZc_now (s : State) (k : Nat) (v : ZCtrs) : (s.setZc k v).now = s.now := rfl
@[simp] theorem State.modZc_now (s : State) (k : Nat) (g : ZCtrs → ZCtrs) : (s.modZc k g).now = s.now := rfl
@[simp] theorem State.setZc_sys (s : State) (k : Nat) (v : ZCtrs) : (s.setZc k v).sys = s.sys := rfl
@[simp] theorem State.modZc_sys (s : State) (k : Nat) (g : ZCtrs → ZCtrs) : (s.modZc k g).sys = s.sys := rfl
@[simp] theorem State.setZc_time (s : State) (k : Nat) (v : ZCtrs) : (s.setZc k v).time = s.time := rfl
@[simp] theorem State.modZc_time (s : State) (k : Nat) (g : ZCtrs → ZCtrs) : (s.modZc k g).time = s.time := rfl
@[simp] theorem State.setZc_gov (s : State) (k : Nat) (v : ZCtrs) : (s.setZc k v).gov = s.gov := rfl
@[simp] theorem State.modZc_gov (s : State) (k : Nat) (g : ZCtrs → ZCtrs) : (s.modZc k g).gov = s.gov := rfl
@[simp] theorem State.setZc_host (s : State) (k : Nat) (v : ZCtrs) : (s.setZc k v).host = s.host := rfl
@[simp] theorem State.modZc_host (s : State) (k : Nat) (g : ZCtrs → ZCtrs) : (s.modZc k g).host = s.host := rfl
@[simp] theorem State.setZc_out (s : State) (k : Nat) (v : ZCtrs) : (s.setZc k v).out = s.out := rfl
@[simp] theorem State.modZc_out (s : State) (k : Nat) (g : ZCtrs → ZCtrs) : (s.modZc k g).out = s.out := rfl
@[simp] theorem State.setZc_burins (s : State) (k : Nat) (v : ZCtrs) : (s.setZc k v).burins = s.burins := rfl
@[simp] theorem State.modZc_burins (s : State) (k : Nat) (g : ZCtrs → ZCtrs) : (s.modZc k g).burins = s.burins := rfl
@[simp] theorem State.setZc_cells (s : State) (k : Nat) (v : ZCtrs) : (s.setZc k v).cells = s.cells := rfl
@[simp] theorem State.modZc_cells (s : State) (k : Nat) (g : ZCtrs → ZCtrs) : (s.modZc k g).cells = s.cells := rfl
@[simp] theorem State.setZc_plates (s : State) (k : Nat) (v : ZCtrs) : (s.setZc k v).plates = s.plates := rfl
@[simp] theorem State.modZc_plates (s : State) (k : Nat) (g : ZCtrs → ZCtrs) : (s.modZc k g).plates = s.plates := rfl
@[simp] theorem State.setZc_roots (s : State) (k : Nat) (v : ZCtrs) : (s.setZc k v).roots = s.roots := rfl
@[simp] theorem State.modZc_roots (s : State) (k : Nat) (g : ZCtrs → ZCtrs) : (s.modZc k g).roots = s.roots := rfl
@[simp] theorem State.setZc_faults (s : State) (k : Nat) (v : ZCtrs) : (s.setZc k v).faults = s.faults := rfl
@[simp] theorem State.modZc_faults (s : State) (k : Nat) (g : ZCtrs → ZCtrs) : (s.modZc k g).faults = s.faults := rfl
@[simp] theorem State.setZc_devFault (s : State) (k : Nat) (v : ZCtrs) : (s.setZc k v).devFault = s.devFault := rfl
@[simp] theorem State.modZc_devFault (s : State) (k : Nat) (g : ZCtrs → ZCtrs) : (s.modZc k g).devFault = s.devFault := rfl
@[simp] theorem State.setZc_queues (s : State) (k : Nat) (v : ZCtrs) : (s.setZc k v).queues = s.queues := rfl
@[simp] theorem State.modZc_queues (s : State) (k : Nat) (g : ZCtrs → ZCtrs) : (s.modZc k g).queues = s.queues := rfl
@[simp] theorem State.setZc_tones (s : State) (k : Nat) (v : ZCtrs) : (s.setZc k v).tones = s.tones := rfl
@[simp] theorem State.modZc_tones (s : State) (k : Nat) (g : ZCtrs → ZCtrs) : (s.modZc k g).tones = s.tones := rfl
@[simp] theorem State.setZc_ports (s : State) (k : Nat) (v : ZCtrs) : (s.setZc k v).ports = s.ports := rfl
@[simp] theorem State.modZc_ports (s : State) (k : Nat) (g : ZCtrs → ZCtrs) : (s.modZc k g).ports = s.ports := rfl
@[simp] theorem State.setZc_zch (s : State) (k : Nat) (v : ZCtrs) : (s.setZc k v).zch = s.zch := rfl
@[simp] theorem State.modZc_zch (s : State) (k : Nat) (g : ZCtrs → ZCtrs) : (s.modZc k g).zch = s.zch := rfl
@[simp] theorem State.setZc_zbanks (s : State) (k : Nat) (v : ZCtrs) : (s.setZc k v).zbanks = s.zbanks := rfl
@[simp] theorem State.modZc_zbanks (s : State) (k : Nat) (g : ZCtrs → ZCtrs) : (s.modZc k g).zbanks = s.zbanks := rfl
@[simp] theorem State.setZc_ro (s : State) (k : Nat) (v : ZCtrs) : (s.setZc k v).ro = s.ro := rfl
@[simp] theorem State.modZc_ro (s : State) (k : Nat) (g : ZCtrs → ZCtrs) : (s.modZc k g).ro = s.ro := rfl
@[simp] theorem State.setZc_stipChains (s : State) (k : Nat) (v : ZCtrs) : (s.setZc k v).stipChains = s.stipChains := rfl
@[simp] theorem State.modZc_stipChains (s : State) (k : Nat) (g : ZCtrs → ZCtrs) : (s.modZc k g).stipChains = s.stipChains := rfl
@[simp] theorem State.setZc_acqPorts (s : State) (k : Nat) (v : ZCtrs) : (s.setZc k v).acqPorts = s.acqPorts := rfl
@[simp] theorem State.modZc_acqPorts (s : State) (k : Nat) (g : ZCtrs → ZCtrs) : (s.modZc k g).acqPorts = s.acqPorts := rfl
@[simp] theorem State.setZc_streams (s : State) (k : Nat) (v : ZCtrs) : (s.setZc k v).streams = s.streams := rfl
@[simp] theorem State.modZc_streams (s : State) (k : Nat) (g : ZCtrs → ZCtrs) : (s.modZc k g).streams = s.streams := rfl
@[simp] theorem State.setZc_epoch (s : State) (k : Nat) (v : ZCtrs) : (s.setZc k v).epoch = s.epoch := rfl
@[simp] theorem State.modZc_epoch (s : State) (k : Nat) (g : ZCtrs → ZCtrs) : (s.modZc k g).epoch = s.epoch := rfl
@[simp] theorem State.setZc_epochPrev (s : State) (k : Nat) (v : ZCtrs) : (s.setZc k v).epochPrev = s.epochPrev := rfl
@[simp] theorem State.modZc_epochPrev (s : State) (k : Nat) (g : ZCtrs → ZCtrs) : (s.modZc k g).epochPrev = s.epochPrev := rfl
@[simp] theorem State.setZc_alignArm (s : State) (k : Nat) (v : ZCtrs) : (s.setZc k v).alignArm = s.alignArm := rfl
@[simp] theorem State.modZc_alignArm (s : State) (k : Nat) (g : ZCtrs → ZCtrs) : (s.modZc k g).alignArm = s.alignArm := rfl
@[simp] theorem State.setZc_chans (s : State) (k : Nat) (v : ZCtrs) : (s.setZc k v).chans = s.chans := rfl
@[simp] theorem State.modZc_chans (s : State) (k : Nat) (g : ZCtrs → ZCtrs) : (s.modZc k g).chans = s.chans := rfl
@[simp] theorem State.setZc_chCtrs (s : State) (k : Nat) (v : ZCtrs) : (s.setZc k v).chCtrs = s.chCtrs := rfl
@[simp] theorem State.modZc_chCtrs (s : State) (k : Nat) (g : ZCtrs → ZCtrs) : (s.modZc k g).chCtrs = s.chCtrs := rfl
@[simp] theorem State.setZc_gates (s : State) (k : Nat) (v : ZCtrs) : (s.setZc k v).gates = s.gates := rfl
@[simp] theorem State.modZc_gates (s : State) (k : Nat) (g : ZCtrs → ZCtrs) : (s.modZc k g).gates = s.gates := rfl
@[simp] theorem State.setZc_gatePend (s : State) (k : Nat) (v : ZCtrs) : (s.setZc k v).gatePend = s.gatePend := rfl
@[simp] theorem State.modZc_gatePend (s : State) (k : Nat) (g : ZCtrs → ZCtrs) : (s.modZc k g).gatePend = s.gatePend := rfl
@[simp] theorem State.setZc_engines (s : State) (k : Nat) (v : ZCtrs) : (s.setZc k v).engines = s.engines := rfl
@[simp] theorem State.modZc_engines (s : State) (k : Nat) (g : ZCtrs → ZCtrs) : (s.modZc k g).engines = s.engines := rfl
@[simp] theorem State.setZc_mark (s : State) (k : Nat) (v : ZCtrs) : (s.setZc k v).mark = s.mark := rfl
@[simp] theorem State.modZc_mark (s : State) (k : Nat) (g : ZCtrs → ZCtrs) : (s.modZc k g).mark = s.mark := rfl
@[simp] theorem State.setZc_stampCh (s : State) (k : Nat) (v : ZCtrs) : (s.setZc k v).stampCh = s.stampCh := rfl
@[simp] theorem State.modZc_stampCh (s : State) (k : Nat) (g : ZCtrs → ZCtrs) : (s.modZc k g).stampCh = s.stampCh := rfl
@[simp] theorem State.setZc_tiu (s : State) (k : Nat) (v : ZCtrs) : (s.setZc k v).tiu = s.tiu := rfl
@[simp] theorem State.modZc_tiu (s : State) (k : Nat) (g : ZCtrs → ZCtrs) : (s.modZc k g).tiu = s.tiu := rfl
@[simp] theorem State.setZc_jvl (s : State) (k : Nat) (v : ZCtrs) : (s.setZc k v).jvl = s.jvl := rfl
@[simp] theorem State.modZc_jvl (s : State) (k : Nat) (g : ZCtrs → ZCtrs) : (s.modZc k g).jvl = s.jvl := rfl
@[simp] theorem State.setZc_jvlCtr (s : State) (k : Nat) (v : ZCtrs) : (s.setZc k v).jvlCtr = s.jvlCtr := rfl
@[simp] theorem State.modZc_jvlCtr (s : State) (k : Nat) (g : ZCtrs → ZCtrs) : (s.modZc k g).jvlCtr = s.jvlCtr := rfl
@[simp] theorem State.setZc_timePort (s : State) (k : Nat) (v : ZCtrs) : (s.setZc k v).timePort = s.timePort := rfl
@[simp] theorem State.modZc_timePort (s : State) (k : Nat) (g : ZCtrs → ZCtrs) : (s.modZc k g).timePort = s.timePort := rfl
@[simp] theorem State.setZc_mem (s : State) (k : Nat) (v : ZCtrs) : (s.setZc k v).mem = s.mem := rfl
@[simp] theorem State.modZc_mem (s : State) (k : Nat) (g : ZCtrs → ZCtrs) : (s.modZc k g).mem = s.mem := rfl
@[simp] theorem State.setZc_rings (s : State) (k : Nat) (v : ZCtrs) : (s.setZc k v).rings = s.rings := rfl
@[simp] theorem State.modZc_rings (s : State) (k : Nat) (g : ZCtrs → ZCtrs) : (s.modZc k g).rings = s.rings := rfl
@[simp] theorem State.setZc_domains (s : State) (k : Nat) (v : ZCtrs) : (s.setZc k v).domains = s.domains := rfl
@[simp] theorem State.modZc_domains (s : State) (k : Nat) (g : ZCtrs → ZCtrs) : (s.modZc k g).domains = s.domains := rfl
@[simp] theorem State.setZc_refLog (s : State) (k : Nat) (v : ZCtrs) : (s.setZc k v).refLog = s.refLog := rfl
@[simp] theorem State.modZc_refLog (s : State) (k : Nat) (g : ZCtrs → ZCtrs) : (s.modZc k g).refLog = s.refLog := rfl
@[simp] theorem State.setZc_house (s : State) (k : Nat) (v : ZCtrs) : (s.setZc k v).house = s.house := rfl
@[simp] theorem State.modZc_house (s : State) (k : Nat) (g : ZCtrs → ZCtrs) : (s.modZc k g).house = s.house := rfl
@[simp] theorem State.setZc_calib (s : State) (k : Nat) (v : ZCtrs) : (s.setZc k v).calib = s.calib := rfl
@[simp] theorem State.modZc_calib (s : State) (k : Nat) (g : ZCtrs → ZCtrs) : (s.modZc k g).calib = s.calib := rfl
@[simp] theorem State.setZc_proofs (s : State) (k : Nat) (v : ZCtrs) : (s.setZc k v).proofs = s.proofs := rfl
@[simp] theorem State.modZc_proofs (s : State) (k : Nat) (g : ZCtrs → ZCtrs) : (s.modZc k g).proofs = s.proofs := rfl
@[simp] theorem State.setZc_joins (s : State) (k : Nat) (v : ZCtrs) : (s.setZc k v).joins = s.joins := rfl
@[simp] theorem State.modZc_joins (s : State) (k : Nat) (g : ZCtrs → ZCtrs) : (s.modZc k g).joins = s.joins := rfl
@[simp] theorem State.setZc_promises (s : State) (k : Nat) (v : ZCtrs) : (s.setZc k v).promises = s.promises := rfl
@[simp] theorem State.modZc_promises (s : State) (k : Nat) (g : ZCtrs → ZCtrs) : (s.modZc k g).promises = s.promises := rfl
@[simp] theorem State.setZc_nextId (s : State) (k : Nat) (v : ZCtrs) : (s.setZc k v).nextId = s.nextId := rfl
@[simp] theorem State.modZc_nextId (s : State) (k : Nat) (g : ZCtrs → ZCtrs) : (s.modZc k g).nextId = s.nextId := rfl
@[simp] theorem State.setZc_boot (s : State) (k : Nat) (v : ZCtrs) : (s.setZc k v).boot = s.boot := rfl
@[simp] theorem State.modZc_boot (s : State) (k : Nat) (g : ZCtrs → ZCtrs) : (s.modZc k g).boot = s.boot := rfl
@[simp] theorem State.setZc_patches (s : State) (k : Nat) (v : ZCtrs) : (s.setZc k v).patches = s.patches := rfl
@[simp] theorem State.modZc_patches (s : State) (k : Nat) (g : ZCtrs → ZCtrs) : (s.modZc k g).patches = s.patches := rfl
@[simp] theorem State.setZc_side (s : State) (k : Nat) (v : ZCtrs) : (s.setZc k v).side = s.side := rfl
@[simp] theorem State.modZc_side (s : State) (k : Nat) (g : ZCtrs → ZCtrs) : (s.modZc k g).side = s.side := rfl
@[simp] theorem State.setZc_free (s : State) (k : Nat) (v : ZCtrs) : (s.setZc k v).free = s.free := rfl
@[simp] theorem State.modZc_free (s : State) (k : Nat) (g : ZCtrs → ZCtrs) : (s.modZc k g).free = s.free := rfl
@[simp] theorem State.setZbank_pending (s : State) (k : Nat) (v : Banks) : (s.setZbank k v).pending = s.pending := rfl
@[simp] theorem State.modZbank_pending (s : State) (k : Nat) (g : Banks → Banks) : (s.modZbank k g).pending = s.pending := rfl
@[simp] theorem State.setZbank_now (s : State) (k : Nat) (v : Banks) : (s.setZbank k v).now = s.now := rfl
@[simp] theorem State.modZbank_now (s : State) (k : Nat) (g : Banks → Banks) : (s.modZbank k g).now = s.now := rfl
@[simp] theorem State.setZbank_sys (s : State) (k : Nat) (v : Banks) : (s.setZbank k v).sys = s.sys := rfl
@[simp] theorem State.modZbank_sys (s : State) (k : Nat) (g : Banks → Banks) : (s.modZbank k g).sys = s.sys := rfl
@[simp] theorem State.setZbank_time (s : State) (k : Nat) (v : Banks) : (s.setZbank k v).time = s.time := rfl
@[simp] theorem State.modZbank_time (s : State) (k : Nat) (g : Banks → Banks) : (s.modZbank k g).time = s.time := rfl
@[simp] theorem State.setZbank_gov (s : State) (k : Nat) (v : Banks) : (s.setZbank k v).gov = s.gov := rfl
@[simp] theorem State.modZbank_gov (s : State) (k : Nat) (g : Banks → Banks) : (s.modZbank k g).gov = s.gov := rfl
@[simp] theorem State.setZbank_host (s : State) (k : Nat) (v : Banks) : (s.setZbank k v).host = s.host := rfl
@[simp] theorem State.modZbank_host (s : State) (k : Nat) (g : Banks → Banks) : (s.modZbank k g).host = s.host := rfl
@[simp] theorem State.setZbank_out (s : State) (k : Nat) (v : Banks) : (s.setZbank k v).out = s.out := rfl
@[simp] theorem State.modZbank_out (s : State) (k : Nat) (g : Banks → Banks) : (s.modZbank k g).out = s.out := rfl
@[simp] theorem State.setZbank_burins (s : State) (k : Nat) (v : Banks) : (s.setZbank k v).burins = s.burins := rfl
@[simp] theorem State.modZbank_burins (s : State) (k : Nat) (g : Banks → Banks) : (s.modZbank k g).burins = s.burins := rfl
@[simp] theorem State.setZbank_cells (s : State) (k : Nat) (v : Banks) : (s.setZbank k v).cells = s.cells := rfl
@[simp] theorem State.modZbank_cells (s : State) (k : Nat) (g : Banks → Banks) : (s.modZbank k g).cells = s.cells := rfl
@[simp] theorem State.setZbank_plates (s : State) (k : Nat) (v : Banks) : (s.setZbank k v).plates = s.plates := rfl
@[simp] theorem State.modZbank_plates (s : State) (k : Nat) (g : Banks → Banks) : (s.modZbank k g).plates = s.plates := rfl
@[simp] theorem State.setZbank_roots (s : State) (k : Nat) (v : Banks) : (s.setZbank k v).roots = s.roots := rfl
@[simp] theorem State.modZbank_roots (s : State) (k : Nat) (g : Banks → Banks) : (s.modZbank k g).roots = s.roots := rfl
@[simp] theorem State.setZbank_faults (s : State) (k : Nat) (v : Banks) : (s.setZbank k v).faults = s.faults := rfl
@[simp] theorem State.modZbank_faults (s : State) (k : Nat) (g : Banks → Banks) : (s.modZbank k g).faults = s.faults := rfl
@[simp] theorem State.setZbank_devFault (s : State) (k : Nat) (v : Banks) : (s.setZbank k v).devFault = s.devFault := rfl
@[simp] theorem State.modZbank_devFault (s : State) (k : Nat) (g : Banks → Banks) : (s.modZbank k g).devFault = s.devFault := rfl
@[simp] theorem State.setZbank_queues (s : State) (k : Nat) (v : Banks) : (s.setZbank k v).queues = s.queues := rfl
@[simp] theorem State.modZbank_queues (s : State) (k : Nat) (g : Banks → Banks) : (s.modZbank k g).queues = s.queues := rfl
@[simp] theorem State.setZbank_tones (s : State) (k : Nat) (v : Banks) : (s.setZbank k v).tones = s.tones := rfl
@[simp] theorem State.modZbank_tones (s : State) (k : Nat) (g : Banks → Banks) : (s.modZbank k g).tones = s.tones := rfl
@[simp] theorem State.setZbank_ports (s : State) (k : Nat) (v : Banks) : (s.setZbank k v).ports = s.ports := rfl
@[simp] theorem State.modZbank_ports (s : State) (k : Nat) (g : Banks → Banks) : (s.modZbank k g).ports = s.ports := rfl
@[simp] theorem State.setZbank_zch (s : State) (k : Nat) (v : Banks) : (s.setZbank k v).zch = s.zch := rfl
@[simp] theorem State.modZbank_zch (s : State) (k : Nat) (g : Banks → Banks) : (s.modZbank k g).zch = s.zch := rfl
@[simp] theorem State.setZbank_zctr (s : State) (k : Nat) (v : Banks) : (s.setZbank k v).zctr = s.zctr := rfl
@[simp] theorem State.modZbank_zctr (s : State) (k : Nat) (g : Banks → Banks) : (s.modZbank k g).zctr = s.zctr := rfl
@[simp] theorem State.setZbank_ro (s : State) (k : Nat) (v : Banks) : (s.setZbank k v).ro = s.ro := rfl
@[simp] theorem State.modZbank_ro (s : State) (k : Nat) (g : Banks → Banks) : (s.modZbank k g).ro = s.ro := rfl
@[simp] theorem State.setZbank_stipChains (s : State) (k : Nat) (v : Banks) : (s.setZbank k v).stipChains = s.stipChains := rfl
@[simp] theorem State.modZbank_stipChains (s : State) (k : Nat) (g : Banks → Banks) : (s.modZbank k g).stipChains = s.stipChains := rfl
@[simp] theorem State.setZbank_acqPorts (s : State) (k : Nat) (v : Banks) : (s.setZbank k v).acqPorts = s.acqPorts := rfl
@[simp] theorem State.modZbank_acqPorts (s : State) (k : Nat) (g : Banks → Banks) : (s.modZbank k g).acqPorts = s.acqPorts := rfl
@[simp] theorem State.setZbank_streams (s : State) (k : Nat) (v : Banks) : (s.setZbank k v).streams = s.streams := rfl
@[simp] theorem State.modZbank_streams (s : State) (k : Nat) (g : Banks → Banks) : (s.modZbank k g).streams = s.streams := rfl
@[simp] theorem State.setZbank_epoch (s : State) (k : Nat) (v : Banks) : (s.setZbank k v).epoch = s.epoch := rfl
@[simp] theorem State.modZbank_epoch (s : State) (k : Nat) (g : Banks → Banks) : (s.modZbank k g).epoch = s.epoch := rfl
@[simp] theorem State.setZbank_epochPrev (s : State) (k : Nat) (v : Banks) : (s.setZbank k v).epochPrev = s.epochPrev := rfl
@[simp] theorem State.modZbank_epochPrev (s : State) (k : Nat) (g : Banks → Banks) : (s.modZbank k g).epochPrev = s.epochPrev := rfl
@[simp] theorem State.setZbank_alignArm (s : State) (k : Nat) (v : Banks) : (s.setZbank k v).alignArm = s.alignArm := rfl
@[simp] theorem State.modZbank_alignArm (s : State) (k : Nat) (g : Banks → Banks) : (s.modZbank k g).alignArm = s.alignArm := rfl
@[simp] theorem State.setZbank_chans (s : State) (k : Nat) (v : Banks) : (s.setZbank k v).chans = s.chans := rfl
@[simp] theorem State.modZbank_chans (s : State) (k : Nat) (g : Banks → Banks) : (s.modZbank k g).chans = s.chans := rfl
@[simp] theorem State.setZbank_chCtrs (s : State) (k : Nat) (v : Banks) : (s.setZbank k v).chCtrs = s.chCtrs := rfl
@[simp] theorem State.modZbank_chCtrs (s : State) (k : Nat) (g : Banks → Banks) : (s.modZbank k g).chCtrs = s.chCtrs := rfl
@[simp] theorem State.setZbank_gates (s : State) (k : Nat) (v : Banks) : (s.setZbank k v).gates = s.gates := rfl
@[simp] theorem State.modZbank_gates (s : State) (k : Nat) (g : Banks → Banks) : (s.modZbank k g).gates = s.gates := rfl
@[simp] theorem State.setZbank_gatePend (s : State) (k : Nat) (v : Banks) : (s.setZbank k v).gatePend = s.gatePend := rfl
@[simp] theorem State.modZbank_gatePend (s : State) (k : Nat) (g : Banks → Banks) : (s.modZbank k g).gatePend = s.gatePend := rfl
@[simp] theorem State.setZbank_engines (s : State) (k : Nat) (v : Banks) : (s.setZbank k v).engines = s.engines := rfl
@[simp] theorem State.modZbank_engines (s : State) (k : Nat) (g : Banks → Banks) : (s.modZbank k g).engines = s.engines := rfl
@[simp] theorem State.setZbank_mark (s : State) (k : Nat) (v : Banks) : (s.setZbank k v).mark = s.mark := rfl
@[simp] theorem State.modZbank_mark (s : State) (k : Nat) (g : Banks → Banks) : (s.modZbank k g).mark = s.mark := rfl
@[simp] theorem State.setZbank_stampCh (s : State) (k : Nat) (v : Banks) : (s.setZbank k v).stampCh = s.stampCh := rfl
@[simp] theorem State.modZbank_stampCh (s : State) (k : Nat) (g : Banks → Banks) : (s.modZbank k g).stampCh = s.stampCh := rfl
@[simp] theorem State.setZbank_tiu (s : State) (k : Nat) (v : Banks) : (s.setZbank k v).tiu = s.tiu := rfl
@[simp] theorem State.modZbank_tiu (s : State) (k : Nat) (g : Banks → Banks) : (s.modZbank k g).tiu = s.tiu := rfl
@[simp] theorem State.setZbank_jvl (s : State) (k : Nat) (v : Banks) : (s.setZbank k v).jvl = s.jvl := rfl
@[simp] theorem State.modZbank_jvl (s : State) (k : Nat) (g : Banks → Banks) : (s.modZbank k g).jvl = s.jvl := rfl
@[simp] theorem State.setZbank_jvlCtr (s : State) (k : Nat) (v : Banks) : (s.setZbank k v).jvlCtr = s.jvlCtr := rfl
@[simp] theorem State.modZbank_jvlCtr (s : State) (k : Nat) (g : Banks → Banks) : (s.modZbank k g).jvlCtr = s.jvlCtr := rfl
@[simp] theorem State.setZbank_timePort (s : State) (k : Nat) (v : Banks) : (s.setZbank k v).timePort = s.timePort := rfl
@[simp] theorem State.modZbank_timePort (s : State) (k : Nat) (g : Banks → Banks) : (s.modZbank k g).timePort = s.timePort := rfl
@[simp] theorem State.setZbank_mem (s : State) (k : Nat) (v : Banks) : (s.setZbank k v).mem = s.mem := rfl
@[simp] theorem State.modZbank_mem (s : State) (k : Nat) (g : Banks → Banks) : (s.modZbank k g).mem = s.mem := rfl
@[simp] theorem State.setZbank_rings (s : State) (k : Nat) (v : Banks) : (s.setZbank k v).rings = s.rings := rfl
@[simp] theorem State.modZbank_rings (s : State) (k : Nat) (g : Banks → Banks) : (s.modZbank k g).rings = s.rings := rfl
@[simp] theorem State.setZbank_domains (s : State) (k : Nat) (v : Banks) : (s.setZbank k v).domains = s.domains := rfl
@[simp] theorem State.modZbank_domains (s : State) (k : Nat) (g : Banks → Banks) : (s.modZbank k g).domains = s.domains := rfl
@[simp] theorem State.setZbank_refLog (s : State) (k : Nat) (v : Banks) : (s.setZbank k v).refLog = s.refLog := rfl
@[simp] theorem State.modZbank_refLog (s : State) (k : Nat) (g : Banks → Banks) : (s.modZbank k g).refLog = s.refLog := rfl
@[simp] theorem State.setZbank_house (s : State) (k : Nat) (v : Banks) : (s.setZbank k v).house = s.house := rfl
@[simp] theorem State.modZbank_house (s : State) (k : Nat) (g : Banks → Banks) : (s.modZbank k g).house = s.house := rfl
@[simp] theorem State.setZbank_calib (s : State) (k : Nat) (v : Banks) : (s.setZbank k v).calib = s.calib := rfl
@[simp] theorem State.modZbank_calib (s : State) (k : Nat) (g : Banks → Banks) : (s.modZbank k g).calib = s.calib := rfl
@[simp] theorem State.setZbank_proofs (s : State) (k : Nat) (v : Banks) : (s.setZbank k v).proofs = s.proofs := rfl
@[simp] theorem State.modZbank_proofs (s : State) (k : Nat) (g : Banks → Banks) : (s.modZbank k g).proofs = s.proofs := rfl
@[simp] theorem State.setZbank_joins (s : State) (k : Nat) (v : Banks) : (s.setZbank k v).joins = s.joins := rfl
@[simp] theorem State.modZbank_joins (s : State) (k : Nat) (g : Banks → Banks) : (s.modZbank k g).joins = s.joins := rfl
@[simp] theorem State.setZbank_promises (s : State) (k : Nat) (v : Banks) : (s.setZbank k v).promises = s.promises := rfl
@[simp] theorem State.modZbank_promises (s : State) (k : Nat) (g : Banks → Banks) : (s.modZbank k g).promises = s.promises := rfl
@[simp] theorem State.setZbank_nextId (s : State) (k : Nat) (v : Banks) : (s.setZbank k v).nextId = s.nextId := rfl
@[simp] theorem State.modZbank_nextId (s : State) (k : Nat) (g : Banks → Banks) : (s.modZbank k g).nextId = s.nextId := rfl
@[simp] theorem State.setZbank_boot (s : State) (k : Nat) (v : Banks) : (s.setZbank k v).boot = s.boot := rfl
@[simp] theorem State.modZbank_boot (s : State) (k : Nat) (g : Banks → Banks) : (s.modZbank k g).boot = s.boot := rfl
@[simp] theorem State.setZbank_patches (s : State) (k : Nat) (v : Banks) : (s.setZbank k v).patches = s.patches := rfl
@[simp] theorem State.modZbank_patches (s : State) (k : Nat) (g : Banks → Banks) : (s.modZbank k g).patches = s.patches := rfl
@[simp] theorem State.setZbank_side (s : State) (k : Nat) (v : Banks) : (s.setZbank k v).side = s.side := rfl
@[simp] theorem State.modZbank_side (s : State) (k : Nat) (g : Banks → Banks) : (s.modZbank k g).side = s.side := rfl
@[simp] theorem State.setZbank_free (s : State) (k : Nat) (v : Banks) : (s.setZbank k v).free = s.free := rfl
@[simp] theorem State.modZbank_free (s : State) (k : Nat) (g : Banks → Banks) : (s.modZbank k g).free = s.free := rfl
@[simp] theorem State.setRot_pending (s : State) (k : Nat) (v : RoTone) : (s.setRot k v).pending = s.pending := rfl
@[simp] theorem State.modRot_pending (s : State) (k : Nat) (g : RoTone → RoTone) : (s.modRot k g).pending = s.pending := rfl
@[simp] theorem State.setRot_now (s : State) (k : Nat) (v : RoTone) : (s.setRot k v).now = s.now := rfl
@[simp] theorem State.modRot_now (s : State) (k : Nat) (g : RoTone → RoTone) : (s.modRot k g).now = s.now := rfl
@[simp] theorem State.setRot_sys (s : State) (k : Nat) (v : RoTone) : (s.setRot k v).sys = s.sys := rfl
@[simp] theorem State.modRot_sys (s : State) (k : Nat) (g : RoTone → RoTone) : (s.modRot k g).sys = s.sys := rfl
@[simp] theorem State.setRot_time (s : State) (k : Nat) (v : RoTone) : (s.setRot k v).time = s.time := rfl
@[simp] theorem State.modRot_time (s : State) (k : Nat) (g : RoTone → RoTone) : (s.modRot k g).time = s.time := rfl
@[simp] theorem State.setRot_gov (s : State) (k : Nat) (v : RoTone) : (s.setRot k v).gov = s.gov := rfl
@[simp] theorem State.modRot_gov (s : State) (k : Nat) (g : RoTone → RoTone) : (s.modRot k g).gov = s.gov := rfl
@[simp] theorem State.setRot_host (s : State) (k : Nat) (v : RoTone) : (s.setRot k v).host = s.host := rfl
@[simp] theorem State.modRot_host (s : State) (k : Nat) (g : RoTone → RoTone) : (s.modRot k g).host = s.host := rfl
@[simp] theorem State.setRot_out (s : State) (k : Nat) (v : RoTone) : (s.setRot k v).out = s.out := rfl
@[simp] theorem State.modRot_out (s : State) (k : Nat) (g : RoTone → RoTone) : (s.modRot k g).out = s.out := rfl
@[simp] theorem State.setRot_burins (s : State) (k : Nat) (v : RoTone) : (s.setRot k v).burins = s.burins := rfl
@[simp] theorem State.modRot_burins (s : State) (k : Nat) (g : RoTone → RoTone) : (s.modRot k g).burins = s.burins := rfl
@[simp] theorem State.setRot_cells (s : State) (k : Nat) (v : RoTone) : (s.setRot k v).cells = s.cells := rfl
@[simp] theorem State.modRot_cells (s : State) (k : Nat) (g : RoTone → RoTone) : (s.modRot k g).cells = s.cells := rfl
@[simp] theorem State.setRot_plates (s : State) (k : Nat) (v : RoTone) : (s.setRot k v).plates = s.plates := rfl
@[simp] theorem State.modRot_plates (s : State) (k : Nat) (g : RoTone → RoTone) : (s.modRot k g).plates = s.plates := rfl
@[simp] theorem State.setRot_roots (s : State) (k : Nat) (v : RoTone) : (s.setRot k v).roots = s.roots := rfl
@[simp] theorem State.modRot_roots (s : State) (k : Nat) (g : RoTone → RoTone) : (s.modRot k g).roots = s.roots := rfl
@[simp] theorem State.setRot_faults (s : State) (k : Nat) (v : RoTone) : (s.setRot k v).faults = s.faults := rfl
@[simp] theorem State.modRot_faults (s : State) (k : Nat) (g : RoTone → RoTone) : (s.modRot k g).faults = s.faults := rfl
@[simp] theorem State.setRot_devFault (s : State) (k : Nat) (v : RoTone) : (s.setRot k v).devFault = s.devFault := rfl
@[simp] theorem State.modRot_devFault (s : State) (k : Nat) (g : RoTone → RoTone) : (s.modRot k g).devFault = s.devFault := rfl
@[simp] theorem State.setRot_queues (s : State) (k : Nat) (v : RoTone) : (s.setRot k v).queues = s.queues := rfl
@[simp] theorem State.modRot_queues (s : State) (k : Nat) (g : RoTone → RoTone) : (s.modRot k g).queues = s.queues := rfl
@[simp] theorem State.setRot_tones (s : State) (k : Nat) (v : RoTone) : (s.setRot k v).tones = s.tones := rfl
@[simp] theorem State.modRot_tones (s : State) (k : Nat) (g : RoTone → RoTone) : (s.modRot k g).tones = s.tones := rfl
@[simp] theorem State.setRot_ports (s : State) (k : Nat) (v : RoTone) : (s.setRot k v).ports = s.ports := rfl
@[simp] theorem State.modRot_ports (s : State) (k : Nat) (g : RoTone → RoTone) : (s.modRot k g).ports = s.ports := rfl
@[simp] theorem State.setRot_zch (s : State) (k : Nat) (v : RoTone) : (s.setRot k v).zch = s.zch := rfl
@[simp] theorem State.modRot_zch (s : State) (k : Nat) (g : RoTone → RoTone) : (s.modRot k g).zch = s.zch := rfl
@[simp] theorem State.setRot_zctr (s : State) (k : Nat) (v : RoTone) : (s.setRot k v).zctr = s.zctr := rfl
@[simp] theorem State.modRot_zctr (s : State) (k : Nat) (g : RoTone → RoTone) : (s.modRot k g).zctr = s.zctr := rfl
@[simp] theorem State.setRot_zbanks (s : State) (k : Nat) (v : RoTone) : (s.setRot k v).zbanks = s.zbanks := rfl
@[simp] theorem State.modRot_zbanks (s : State) (k : Nat) (g : RoTone → RoTone) : (s.modRot k g).zbanks = s.zbanks := rfl
@[simp] theorem State.setRot_stipChains (s : State) (k : Nat) (v : RoTone) : (s.setRot k v).stipChains = s.stipChains := rfl
@[simp] theorem State.modRot_stipChains (s : State) (k : Nat) (g : RoTone → RoTone) : (s.modRot k g).stipChains = s.stipChains := rfl
@[simp] theorem State.setRot_acqPorts (s : State) (k : Nat) (v : RoTone) : (s.setRot k v).acqPorts = s.acqPorts := rfl
@[simp] theorem State.modRot_acqPorts (s : State) (k : Nat) (g : RoTone → RoTone) : (s.modRot k g).acqPorts = s.acqPorts := rfl
@[simp] theorem State.setRot_streams (s : State) (k : Nat) (v : RoTone) : (s.setRot k v).streams = s.streams := rfl
@[simp] theorem State.modRot_streams (s : State) (k : Nat) (g : RoTone → RoTone) : (s.modRot k g).streams = s.streams := rfl
@[simp] theorem State.setRot_epoch (s : State) (k : Nat) (v : RoTone) : (s.setRot k v).epoch = s.epoch := rfl
@[simp] theorem State.modRot_epoch (s : State) (k : Nat) (g : RoTone → RoTone) : (s.modRot k g).epoch = s.epoch := rfl
@[simp] theorem State.setRot_epochPrev (s : State) (k : Nat) (v : RoTone) : (s.setRot k v).epochPrev = s.epochPrev := rfl
@[simp] theorem State.modRot_epochPrev (s : State) (k : Nat) (g : RoTone → RoTone) : (s.modRot k g).epochPrev = s.epochPrev := rfl
@[simp] theorem State.setRot_alignArm (s : State) (k : Nat) (v : RoTone) : (s.setRot k v).alignArm = s.alignArm := rfl
@[simp] theorem State.modRot_alignArm (s : State) (k : Nat) (g : RoTone → RoTone) : (s.modRot k g).alignArm = s.alignArm := rfl
@[simp] theorem State.setRot_chans (s : State) (k : Nat) (v : RoTone) : (s.setRot k v).chans = s.chans := rfl
@[simp] theorem State.modRot_chans (s : State) (k : Nat) (g : RoTone → RoTone) : (s.modRot k g).chans = s.chans := rfl
@[simp] theorem State.setRot_chCtrs (s : State) (k : Nat) (v : RoTone) : (s.setRot k v).chCtrs = s.chCtrs := rfl
@[simp] theorem State.modRot_chCtrs (s : State) (k : Nat) (g : RoTone → RoTone) : (s.modRot k g).chCtrs = s.chCtrs := rfl
@[simp] theorem State.setRot_gates (s : State) (k : Nat) (v : RoTone) : (s.setRot k v).gates = s.gates := rfl
@[simp] theorem State.modRot_gates (s : State) (k : Nat) (g : RoTone → RoTone) : (s.modRot k g).gates = s.gates := rfl
@[simp] theorem State.setRot_gatePend (s : State) (k : Nat) (v : RoTone) : (s.setRot k v).gatePend = s.gatePend := rfl
@[simp] theorem State.modRot_gatePend (s : State) (k : Nat) (g : RoTone → RoTone) : (s.modRot k g).gatePend = s.gatePend := rfl
@[simp] theorem State.setRot_engines (s : State) (k : Nat) (v : RoTone) : (s.setRot k v).engines = s.engines := rfl
@[simp] theorem State.modRot_engines (s : State) (k : Nat) (g : RoTone → RoTone) : (s.modRot k g).engines = s.engines := rfl
@[simp] theorem State.setRot_mark (s : State) (k : Nat) (v : RoTone) : (s.setRot k v).mark = s.mark := rfl
@[simp] theorem State.modRot_mark (s : State) (k : Nat) (g : RoTone → RoTone) : (s.modRot k g).mark = s.mark := rfl
@[simp] theorem State.setRot_stampCh (s : State) (k : Nat) (v : RoTone) : (s.setRot k v).stampCh = s.stampCh := rfl
@[simp] theorem State.modRot_stampCh (s : State) (k : Nat) (g : RoTone → RoTone) : (s.modRot k g).stampCh = s.stampCh := rfl
@[simp] theorem State.setRot_tiu (s : State) (k : Nat) (v : RoTone) : (s.setRot k v).tiu = s.tiu := rfl
@[simp] theorem State.modRot_tiu (s : State) (k : Nat) (g : RoTone → RoTone) : (s.modRot k g).tiu = s.tiu := rfl
@[simp] theorem State.setRot_jvl (s : State) (k : Nat) (v : RoTone) : (s.setRot k v).jvl = s.jvl := rfl
@[simp] theorem State.modRot_jvl (s : State) (k : Nat) (g : RoTone → RoTone) : (s.modRot k g).jvl = s.jvl := rfl
@[simp] theorem State.setRot_jvlCtr (s : State) (k : Nat) (v : RoTone) : (s.setRot k v).jvlCtr = s.jvlCtr := rfl
@[simp] theorem State.modRot_jvlCtr (s : State) (k : Nat) (g : RoTone → RoTone) : (s.modRot k g).jvlCtr = s.jvlCtr := rfl
@[simp] theorem State.setRot_timePort (s : State) (k : Nat) (v : RoTone) : (s.setRot k v).timePort = s.timePort := rfl
@[simp] theorem State.modRot_timePort (s : State) (k : Nat) (g : RoTone → RoTone) : (s.modRot k g).timePort = s.timePort := rfl
@[simp] theorem State.setRot_mem (s : State) (k : Nat) (v : RoTone) : (s.setRot k v).mem = s.mem := rfl
@[simp] theorem State.modRot_mem (s : State) (k : Nat) (g : RoTone → RoTone) : (s.modRot k g).mem = s.mem := rfl
@[simp] theorem State.setRot_rings (s : State) (k : Nat) (v : RoTone) : (s.setRot k v).rings = s.rings := rfl
@[simp] theorem State.modRot_rings (s : State) (k : Nat) (g : RoTone → RoTone) : (s.modRot k g).rings = s.rings := rfl
@[simp] theorem State.setRot_domains (s : State) (k : Nat) (v : RoTone) : (s.setRot k v).domains = s.domains := rfl
@[simp] theorem State.modRot_domains (s : State) (k : Nat) (g : RoTone → RoTone) : (s.modRot k g).domains = s.domains := rfl
@[simp] theorem State.setRot_refLog (s : State) (k : Nat) (v : RoTone) : (s.setRot k v).refLog = s.refLog := rfl
@[simp] theorem State.modRot_refLog (s : State) (k : Nat) (g : RoTone → RoTone) : (s.modRot k g).refLog = s.refLog := rfl
@[simp] theorem State.setRot_house (s : State) (k : Nat) (v : RoTone) : (s.setRot k v).house = s.house := rfl
@[simp] theorem State.modRot_house (s : State) (k : Nat) (g : RoTone → RoTone) : (s.modRot k g).house = s.house := rfl
@[simp] theorem State.setRot_calib (s : State) (k : Nat) (v : RoTone) : (s.setRot k v).calib = s.calib := rfl
@[simp] theorem State.modRot_calib (s : State) (k : Nat) (g : RoTone → RoTone) : (s.modRot k g).calib = s.calib := rfl
@[simp] theorem State.setRot_proofs (s : State) (k : Nat) (v : RoTone) : (s.setRot k v).proofs = s.proofs := rfl
@[simp] theorem State.modRot_proofs (s : State) (k : Nat) (g : RoTone → RoTone) : (s.modRot k g).proofs = s.proofs := rfl
@[simp] theorem State.setRot_joins (s : State) (k : Nat) (v : RoTone) : (s.setRot k v).joins = s.joins := rfl
@[simp] theorem State.modRot_joins (s : State) (k : Nat) (g : RoTone → RoTone) : (s.modRot k g).joins = s.joins := rfl
@[simp] theorem State.setRot_promises (s : State) (k : Nat) (v : RoTone) : (s.setRot k v).promises = s.promises := rfl
@[simp] theorem State.modRot_promises (s : State) (k : Nat) (g : RoTone → RoTone) : (s.modRot k g).promises = s.promises := rfl
@[simp] theorem State.setRot_nextId (s : State) (k : Nat) (v : RoTone) : (s.setRot k v).nextId = s.nextId := rfl
@[simp] theorem State.modRot_nextId (s : State) (k : Nat) (g : RoTone → RoTone) : (s.modRot k g).nextId = s.nextId := rfl
@[simp] theorem State.setRot_boot (s : State) (k : Nat) (v : RoTone) : (s.setRot k v).boot = s.boot := rfl
@[simp] theorem State.modRot_boot (s : State) (k : Nat) (g : RoTone → RoTone) : (s.modRot k g).boot = s.boot := rfl
@[simp] theorem State.setRot_patches (s : State) (k : Nat) (v : RoTone) : (s.setRot k v).patches = s.patches := rfl
@[simp] theorem State.modRot_patches (s : State) (k : Nat) (g : RoTone → RoTone) : (s.modRot k g).patches = s.patches := rfl
@[simp] theorem State.setRot_side (s : State) (k : Nat) (v : RoTone) : (s.setRot k v).side = s.side := rfl
@[simp] theorem State.modRot_side (s : State) (k : Nat) (g : RoTone → RoTone) : (s.modRot k g).side = s.side := rfl
@[simp] theorem State.setRot_free (s : State) (k : Nat) (v : RoTone) : (s.setRot k v).free = s.free := rfl
@[simp] theorem State.modRot_free (s : State) (k : Nat) (g : RoTone → RoTone) : (s.modRot k g).free = s.free := rfl
@[simp] theorem State.setStipChain_pending (s : State) (k : Nat) (v : Chain) : (s.setStipChain k v).pending = s.pending := rfl
@[simp] theorem State.modStipChain_pending (s : State) (k : Nat) (g : Chain → Chain) : (s.modStipChain k g).pending = s.pending := rfl
@[simp] theorem State.setStipChain_now (s : State) (k : Nat) (v : Chain) : (s.setStipChain k v).now = s.now := rfl
@[simp] theorem State.modStipChain_now (s : State) (k : Nat) (g : Chain → Chain) : (s.modStipChain k g).now = s.now := rfl
@[simp] theorem State.setStipChain_sys (s : State) (k : Nat) (v : Chain) : (s.setStipChain k v).sys = s.sys := rfl
@[simp] theorem State.modStipChain_sys (s : State) (k : Nat) (g : Chain → Chain) : (s.modStipChain k g).sys = s.sys := rfl
@[simp] theorem State.setStipChain_time (s : State) (k : Nat) (v : Chain) : (s.setStipChain k v).time = s.time := rfl
@[simp] theorem State.modStipChain_time (s : State) (k : Nat) (g : Chain → Chain) : (s.modStipChain k g).time = s.time := rfl
@[simp] theorem State.setStipChain_gov (s : State) (k : Nat) (v : Chain) : (s.setStipChain k v).gov = s.gov := rfl
@[simp] theorem State.modStipChain_gov (s : State) (k : Nat) (g : Chain → Chain) : (s.modStipChain k g).gov = s.gov := rfl
@[simp] theorem State.setStipChain_host (s : State) (k : Nat) (v : Chain) : (s.setStipChain k v).host = s.host := rfl
@[simp] theorem State.modStipChain_host (s : State) (k : Nat) (g : Chain → Chain) : (s.modStipChain k g).host = s.host := rfl
@[simp] theorem State.setStipChain_out (s : State) (k : Nat) (v : Chain) : (s.setStipChain k v).out = s.out := rfl
@[simp] theorem State.modStipChain_out (s : State) (k : Nat) (g : Chain → Chain) : (s.modStipChain k g).out = s.out := rfl
@[simp] theorem State.setStipChain_burins (s : State) (k : Nat) (v : Chain) : (s.setStipChain k v).burins = s.burins := rfl
@[simp] theorem State.modStipChain_burins (s : State) (k : Nat) (g : Chain → Chain) : (s.modStipChain k g).burins = s.burins := rfl
@[simp] theorem State.setStipChain_cells (s : State) (k : Nat) (v : Chain) : (s.setStipChain k v).cells = s.cells := rfl
@[simp] theorem State.modStipChain_cells (s : State) (k : Nat) (g : Chain → Chain) : (s.modStipChain k g).cells = s.cells := rfl
@[simp] theorem State.setStipChain_plates (s : State) (k : Nat) (v : Chain) : (s.setStipChain k v).plates = s.plates := rfl
@[simp] theorem State.modStipChain_plates (s : State) (k : Nat) (g : Chain → Chain) : (s.modStipChain k g).plates = s.plates := rfl
@[simp] theorem State.setStipChain_roots (s : State) (k : Nat) (v : Chain) : (s.setStipChain k v).roots = s.roots := rfl
@[simp] theorem State.modStipChain_roots (s : State) (k : Nat) (g : Chain → Chain) : (s.modStipChain k g).roots = s.roots := rfl
@[simp] theorem State.setStipChain_faults (s : State) (k : Nat) (v : Chain) : (s.setStipChain k v).faults = s.faults := rfl
@[simp] theorem State.modStipChain_faults (s : State) (k : Nat) (g : Chain → Chain) : (s.modStipChain k g).faults = s.faults := rfl
@[simp] theorem State.setStipChain_devFault (s : State) (k : Nat) (v : Chain) : (s.setStipChain k v).devFault = s.devFault := rfl
@[simp] theorem State.modStipChain_devFault (s : State) (k : Nat) (g : Chain → Chain) : (s.modStipChain k g).devFault = s.devFault := rfl
@[simp] theorem State.setStipChain_queues (s : State) (k : Nat) (v : Chain) : (s.setStipChain k v).queues = s.queues := rfl
@[simp] theorem State.modStipChain_queues (s : State) (k : Nat) (g : Chain → Chain) : (s.modStipChain k g).queues = s.queues := rfl
@[simp] theorem State.setStipChain_tones (s : State) (k : Nat) (v : Chain) : (s.setStipChain k v).tones = s.tones := rfl
@[simp] theorem State.modStipChain_tones (s : State) (k : Nat) (g : Chain → Chain) : (s.modStipChain k g).tones = s.tones := rfl
@[simp] theorem State.setStipChain_ports (s : State) (k : Nat) (v : Chain) : (s.setStipChain k v).ports = s.ports := rfl
@[simp] theorem State.modStipChain_ports (s : State) (k : Nat) (g : Chain → Chain) : (s.modStipChain k g).ports = s.ports := rfl
@[simp] theorem State.setStipChain_zch (s : State) (k : Nat) (v : Chain) : (s.setStipChain k v).zch = s.zch := rfl
@[simp] theorem State.modStipChain_zch (s : State) (k : Nat) (g : Chain → Chain) : (s.modStipChain k g).zch = s.zch := rfl
@[simp] theorem State.setStipChain_zctr (s : State) (k : Nat) (v : Chain) : (s.setStipChain k v).zctr = s.zctr := rfl
@[simp] theorem State.modStipChain_zctr (s : State) (k : Nat) (g : Chain → Chain) : (s.modStipChain k g).zctr = s.zctr := rfl
@[simp] theorem State.setStipChain_zbanks (s : State) (k : Nat) (v : Chain) : (s.setStipChain k v).zbanks = s.zbanks := rfl
@[simp] theorem State.modStipChain_zbanks (s : State) (k : Nat) (g : Chain → Chain) : (s.modStipChain k g).zbanks = s.zbanks := rfl
@[simp] theorem State.setStipChain_ro (s : State) (k : Nat) (v : Chain) : (s.setStipChain k v).ro = s.ro := rfl
@[simp] theorem State.modStipChain_ro (s : State) (k : Nat) (g : Chain → Chain) : (s.modStipChain k g).ro = s.ro := rfl
@[simp] theorem State.setStipChain_acqPorts (s : State) (k : Nat) (v : Chain) : (s.setStipChain k v).acqPorts = s.acqPorts := rfl
@[simp] theorem State.modStipChain_acqPorts (s : State) (k : Nat) (g : Chain → Chain) : (s.modStipChain k g).acqPorts = s.acqPorts := rfl
@[simp] theorem State.setStipChain_streams (s : State) (k : Nat) (v : Chain) : (s.setStipChain k v).streams = s.streams := rfl
@[simp] theorem State.modStipChain_streams (s : State) (k : Nat) (g : Chain → Chain) : (s.modStipChain k g).streams = s.streams := rfl
@[simp] theorem State.setStipChain_epoch (s : State) (k : Nat) (v : Chain) : (s.setStipChain k v).epoch = s.epoch := rfl
@[simp] theorem State.modStipChain_epoch (s : State) (k : Nat) (g : Chain → Chain) : (s.modStipChain k g).epoch = s.epoch := rfl
@[simp] theorem State.setStipChain_epochPrev (s : State) (k : Nat) (v : Chain) : (s.setStipChain k v).epochPrev = s.epochPrev := rfl
@[simp] theorem State.modStipChain_epochPrev (s : State) (k : Nat) (g : Chain → Chain) : (s.modStipChain k g).epochPrev = s.epochPrev := rfl
@[simp] theorem State.setStipChain_alignArm (s : State) (k : Nat) (v : Chain) : (s.setStipChain k v).alignArm = s.alignArm := rfl
@[simp] theorem State.modStipChain_alignArm (s : State) (k : Nat) (g : Chain → Chain) : (s.modStipChain k g).alignArm = s.alignArm := rfl
@[simp] theorem State.setStipChain_chans (s : State) (k : Nat) (v : Chain) : (s.setStipChain k v).chans = s.chans := rfl
@[simp] theorem State.modStipChain_chans (s : State) (k : Nat) (g : Chain → Chain) : (s.modStipChain k g).chans = s.chans := rfl
@[simp] theorem State.setStipChain_chCtrs (s : State) (k : Nat) (v : Chain) : (s.setStipChain k v).chCtrs = s.chCtrs := rfl
@[simp] theorem State.modStipChain_chCtrs (s : State) (k : Nat) (g : Chain → Chain) : (s.modStipChain k g).chCtrs = s.chCtrs := rfl
@[simp] theorem State.setStipChain_gates (s : State) (k : Nat) (v : Chain) : (s.setStipChain k v).gates = s.gates := rfl
@[simp] theorem State.modStipChain_gates (s : State) (k : Nat) (g : Chain → Chain) : (s.modStipChain k g).gates = s.gates := rfl
@[simp] theorem State.setStipChain_gatePend (s : State) (k : Nat) (v : Chain) : (s.setStipChain k v).gatePend = s.gatePend := rfl
@[simp] theorem State.modStipChain_gatePend (s : State) (k : Nat) (g : Chain → Chain) : (s.modStipChain k g).gatePend = s.gatePend := rfl
@[simp] theorem State.setStipChain_engines (s : State) (k : Nat) (v : Chain) : (s.setStipChain k v).engines = s.engines := rfl
@[simp] theorem State.modStipChain_engines (s : State) (k : Nat) (g : Chain → Chain) : (s.modStipChain k g).engines = s.engines := rfl
@[simp] theorem State.setStipChain_mark (s : State) (k : Nat) (v : Chain) : (s.setStipChain k v).mark = s.mark := rfl
@[simp] theorem State.modStipChain_mark (s : State) (k : Nat) (g : Chain → Chain) : (s.modStipChain k g).mark = s.mark := rfl
@[simp] theorem State.setStipChain_stampCh (s : State) (k : Nat) (v : Chain) : (s.setStipChain k v).stampCh = s.stampCh := rfl
@[simp] theorem State.modStipChain_stampCh (s : State) (k : Nat) (g : Chain → Chain) : (s.modStipChain k g).stampCh = s.stampCh := rfl
@[simp] theorem State.setStipChain_tiu (s : State) (k : Nat) (v : Chain) : (s.setStipChain k v).tiu = s.tiu := rfl
@[simp] theorem State.modStipChain_tiu (s : State) (k : Nat) (g : Chain → Chain) : (s.modStipChain k g).tiu = s.tiu := rfl
@[simp] theorem State.setStipChain_jvl (s : State) (k : Nat) (v : Chain) : (s.setStipChain k v).jvl = s.jvl := rfl
@[simp] theorem State.modStipChain_jvl (s : State) (k : Nat) (g : Chain → Chain) : (s.modStipChain k g).jvl = s.jvl := rfl
@[simp] theorem State.setStipChain_jvlCtr (s : State) (k : Nat) (v : Chain) : (s.setStipChain k v).jvlCtr = s.jvlCtr := rfl
@[simp] theorem State.modStipChain_jvlCtr (s : State) (k : Nat) (g : Chain → Chain) : (s.modStipChain k g).jvlCtr = s.jvlCtr := rfl
@[simp] theorem State.setStipChain_timePort (s : State) (k : Nat) (v : Chain) : (s.setStipChain k v).timePort = s.timePort := rfl
@[simp] theorem State.modStipChain_timePort (s : State) (k : Nat) (g : Chain → Chain) : (s.modStipChain k g).timePort = s.timePort := rfl
@[simp] theorem State.setStipChain_mem (s : State) (k : Nat) (v : Chain) : (s.setStipChain k v).mem = s.mem := rfl
@[simp] theorem State.modStipChain_mem (s : State) (k : Nat) (g : Chain → Chain) : (s.modStipChain k g).mem = s.mem := rfl
@[simp] theorem State.setStipChain_rings (s : State) (k : Nat) (v : Chain) : (s.setStipChain k v).rings = s.rings := rfl
@[simp] theorem State.modStipChain_rings (s : State) (k : Nat) (g : Chain → Chain) : (s.modStipChain k g).rings = s.rings := rfl
@[simp] theorem State.setStipChain_domains (s : State) (k : Nat) (v : Chain) : (s.setStipChain k v).domains = s.domains := rfl
@[simp] theorem State.modStipChain_domains (s : State) (k : Nat) (g : Chain → Chain) : (s.modStipChain k g).domains = s.domains := rfl
@[simp] theorem State.setStipChain_refLog (s : State) (k : Nat) (v : Chain) : (s.setStipChain k v).refLog = s.refLog := rfl
@[simp] theorem State.modStipChain_refLog (s : State) (k : Nat) (g : Chain → Chain) : (s.modStipChain k g).refLog = s.refLog := rfl
@[simp] theorem State.setStipChain_house (s : State) (k : Nat) (v : Chain) : (s.setStipChain k v).house = s.house := rfl
@[simp] theorem State.modStipChain_house (s : State) (k : Nat) (g : Chain → Chain) : (s.modStipChain k g).house = s.house := rfl
@[simp] theorem State.setStipChain_calib (s : State) (k : Nat) (v : Chain) : (s.setStipChain k v).calib = s.calib := rfl
@[simp] theorem State.modStipChain_calib (s : State) (k : Nat) (g : Chain → Chain) : (s.modStipChain k g).calib = s.calib := rfl
@[simp] theorem State.setStipChain_proofs (s : State) (k : Nat) (v : Chain) : (s.setStipChain k v).proofs = s.proofs := rfl
@[simp] theorem State.modStipChain_proofs (s : State) (k : Nat) (g : Chain → Chain) : (s.modStipChain k g).proofs = s.proofs := rfl
@[simp] theorem State.setStipChain_joins (s : State) (k : Nat) (v : Chain) : (s.setStipChain k v).joins = s.joins := rfl
@[simp] theorem State.modStipChain_joins (s : State) (k : Nat) (g : Chain → Chain) : (s.modStipChain k g).joins = s.joins := rfl
@[simp] theorem State.setStipChain_promises (s : State) (k : Nat) (v : Chain) : (s.setStipChain k v).promises = s.promises := rfl
@[simp] theorem State.modStipChain_promises (s : State) (k : Nat) (g : Chain → Chain) : (s.modStipChain k g).promises = s.promises := rfl
@[simp] theorem State.setStipChain_nextId (s : State) (k : Nat) (v : Chain) : (s.setStipChain k v).nextId = s.nextId := rfl
@[simp] theorem State.modStipChain_nextId (s : State) (k : Nat) (g : Chain → Chain) : (s.modStipChain k g).nextId = s.nextId := rfl
@[simp] theorem State.setStipChain_boot (s : State) (k : Nat) (v : Chain) : (s.setStipChain k v).boot = s.boot := rfl
@[simp] theorem State.modStipChain_boot (s : State) (k : Nat) (g : Chain → Chain) : (s.modStipChain k g).boot = s.boot := rfl
@[simp] theorem State.setStipChain_patches (s : State) (k : Nat) (v : Chain) : (s.setStipChain k v).patches = s.patches := rfl
@[simp] theorem State.modStipChain_patches (s : State) (k : Nat) (g : Chain → Chain) : (s.modStipChain k g).patches = s.patches := rfl
@[simp] theorem State.setStipChain_side (s : State) (k : Nat) (v : Chain) : (s.setStipChain k v).side = s.side := rfl
@[simp] theorem State.modStipChain_side (s : State) (k : Nat) (g : Chain → Chain) : (s.modStipChain k g).side = s.side := rfl
@[simp] theorem State.setStipChain_free (s : State) (k : Nat) (v : Chain) : (s.setStipChain k v).free = s.free := rfl
@[simp] theorem State.modStipChain_free (s : State) (k : Nat) (g : Chain → Chain) : (s.modStipChain k g).free = s.free := rfl
@[simp] theorem State.setAcqPort_pending (s : State) (k : Nat) (v : AcqPort) : (s.setAcqPort k v).pending = s.pending := rfl
@[simp] theorem State.modAcqPort_pending (s : State) (k : Nat) (g : AcqPort → AcqPort) : (s.modAcqPort k g).pending = s.pending := rfl
@[simp] theorem State.setAcqPort_now (s : State) (k : Nat) (v : AcqPort) : (s.setAcqPort k v).now = s.now := rfl
@[simp] theorem State.modAcqPort_now (s : State) (k : Nat) (g : AcqPort → AcqPort) : (s.modAcqPort k g).now = s.now := rfl
@[simp] theorem State.setAcqPort_sys (s : State) (k : Nat) (v : AcqPort) : (s.setAcqPort k v).sys = s.sys := rfl
@[simp] theorem State.modAcqPort_sys (s : State) (k : Nat) (g : AcqPort → AcqPort) : (s.modAcqPort k g).sys = s.sys := rfl
@[simp] theorem State.setAcqPort_time (s : State) (k : Nat) (v : AcqPort) : (s.setAcqPort k v).time = s.time := rfl
@[simp] theorem State.modAcqPort_time (s : State) (k : Nat) (g : AcqPort → AcqPort) : (s.modAcqPort k g).time = s.time := rfl
@[simp] theorem State.setAcqPort_gov (s : State) (k : Nat) (v : AcqPort) : (s.setAcqPort k v).gov = s.gov := rfl
@[simp] theorem State.modAcqPort_gov (s : State) (k : Nat) (g : AcqPort → AcqPort) : (s.modAcqPort k g).gov = s.gov := rfl
@[simp] theorem State.setAcqPort_host (s : State) (k : Nat) (v : AcqPort) : (s.setAcqPort k v).host = s.host := rfl
@[simp] theorem State.modAcqPort_host (s : State) (k : Nat) (g : AcqPort → AcqPort) : (s.modAcqPort k g).host = s.host := rfl
@[simp] theorem State.setAcqPort_out (s : State) (k : Nat) (v : AcqPort) : (s.setAcqPort k v).out = s.out := rfl
@[simp] theorem State.modAcqPort_out (s : State) (k : Nat) (g : AcqPort → AcqPort) : (s.modAcqPort k g).out = s.out := rfl
@[simp] theorem State.setAcqPort_burins (s : State) (k : Nat) (v : AcqPort) : (s.setAcqPort k v).burins = s.burins := rfl
@[simp] theorem State.modAcqPort_burins (s : State) (k : Nat) (g : AcqPort → AcqPort) : (s.modAcqPort k g).burins = s.burins := rfl
@[simp] theorem State.setAcqPort_cells (s : State) (k : Nat) (v : AcqPort) : (s.setAcqPort k v).cells = s.cells := rfl
@[simp] theorem State.modAcqPort_cells (s : State) (k : Nat) (g : AcqPort → AcqPort) : (s.modAcqPort k g).cells = s.cells := rfl
@[simp] theorem State.setAcqPort_plates (s : State) (k : Nat) (v : AcqPort) : (s.setAcqPort k v).plates = s.plates := rfl
@[simp] theorem State.modAcqPort_plates (s : State) (k : Nat) (g : AcqPort → AcqPort) : (s.modAcqPort k g).plates = s.plates := rfl
@[simp] theorem State.setAcqPort_roots (s : State) (k : Nat) (v : AcqPort) : (s.setAcqPort k v).roots = s.roots := rfl
@[simp] theorem State.modAcqPort_roots (s : State) (k : Nat) (g : AcqPort → AcqPort) : (s.modAcqPort k g).roots = s.roots := rfl
@[simp] theorem State.setAcqPort_faults (s : State) (k : Nat) (v : AcqPort) : (s.setAcqPort k v).faults = s.faults := rfl
@[simp] theorem State.modAcqPort_faults (s : State) (k : Nat) (g : AcqPort → AcqPort) : (s.modAcqPort k g).faults = s.faults := rfl
@[simp] theorem State.setAcqPort_devFault (s : State) (k : Nat) (v : AcqPort) : (s.setAcqPort k v).devFault = s.devFault := rfl
@[simp] theorem State.modAcqPort_devFault (s : State) (k : Nat) (g : AcqPort → AcqPort) : (s.modAcqPort k g).devFault = s.devFault := rfl
@[simp] theorem State.setAcqPort_queues (s : State) (k : Nat) (v : AcqPort) : (s.setAcqPort k v).queues = s.queues := rfl
@[simp] theorem State.modAcqPort_queues (s : State) (k : Nat) (g : AcqPort → AcqPort) : (s.modAcqPort k g).queues = s.queues := rfl
@[simp] theorem State.setAcqPort_tones (s : State) (k : Nat) (v : AcqPort) : (s.setAcqPort k v).tones = s.tones := rfl
@[simp] theorem State.modAcqPort_tones (s : State) (k : Nat) (g : AcqPort → AcqPort) : (s.modAcqPort k g).tones = s.tones := rfl
@[simp] theorem State.setAcqPort_ports (s : State) (k : Nat) (v : AcqPort) : (s.setAcqPort k v).ports = s.ports := rfl
@[simp] theorem State.modAcqPort_ports (s : State) (k : Nat) (g : AcqPort → AcqPort) : (s.modAcqPort k g).ports = s.ports := rfl
@[simp] theorem State.setAcqPort_zch (s : State) (k : Nat) (v : AcqPort) : (s.setAcqPort k v).zch = s.zch := rfl
@[simp] theorem State.modAcqPort_zch (s : State) (k : Nat) (g : AcqPort → AcqPort) : (s.modAcqPort k g).zch = s.zch := rfl
@[simp] theorem State.setAcqPort_zctr (s : State) (k : Nat) (v : AcqPort) : (s.setAcqPort k v).zctr = s.zctr := rfl
@[simp] theorem State.modAcqPort_zctr (s : State) (k : Nat) (g : AcqPort → AcqPort) : (s.modAcqPort k g).zctr = s.zctr := rfl
@[simp] theorem State.setAcqPort_zbanks (s : State) (k : Nat) (v : AcqPort) : (s.setAcqPort k v).zbanks = s.zbanks := rfl
@[simp] theorem State.modAcqPort_zbanks (s : State) (k : Nat) (g : AcqPort → AcqPort) : (s.modAcqPort k g).zbanks = s.zbanks := rfl
@[simp] theorem State.setAcqPort_ro (s : State) (k : Nat) (v : AcqPort) : (s.setAcqPort k v).ro = s.ro := rfl
@[simp] theorem State.modAcqPort_ro (s : State) (k : Nat) (g : AcqPort → AcqPort) : (s.modAcqPort k g).ro = s.ro := rfl
@[simp] theorem State.setAcqPort_stipChains (s : State) (k : Nat) (v : AcqPort) : (s.setAcqPort k v).stipChains = s.stipChains := rfl
@[simp] theorem State.modAcqPort_stipChains (s : State) (k : Nat) (g : AcqPort → AcqPort) : (s.modAcqPort k g).stipChains = s.stipChains := rfl
@[simp] theorem State.setAcqPort_streams (s : State) (k : Nat) (v : AcqPort) : (s.setAcqPort k v).streams = s.streams := rfl
@[simp] theorem State.modAcqPort_streams (s : State) (k : Nat) (g : AcqPort → AcqPort) : (s.modAcqPort k g).streams = s.streams := rfl
@[simp] theorem State.setAcqPort_epoch (s : State) (k : Nat) (v : AcqPort) : (s.setAcqPort k v).epoch = s.epoch := rfl
@[simp] theorem State.modAcqPort_epoch (s : State) (k : Nat) (g : AcqPort → AcqPort) : (s.modAcqPort k g).epoch = s.epoch := rfl
@[simp] theorem State.setAcqPort_epochPrev (s : State) (k : Nat) (v : AcqPort) : (s.setAcqPort k v).epochPrev = s.epochPrev := rfl
@[simp] theorem State.modAcqPort_epochPrev (s : State) (k : Nat) (g : AcqPort → AcqPort) : (s.modAcqPort k g).epochPrev = s.epochPrev := rfl
@[simp] theorem State.setAcqPort_alignArm (s : State) (k : Nat) (v : AcqPort) : (s.setAcqPort k v).alignArm = s.alignArm := rfl
@[simp] theorem State.modAcqPort_alignArm (s : State) (k : Nat) (g : AcqPort → AcqPort) : (s.modAcqPort k g).alignArm = s.alignArm := rfl
@[simp] theorem State.setAcqPort_chans (s : State) (k : Nat) (v : AcqPort) : (s.setAcqPort k v).chans = s.chans := rfl
@[simp] theorem State.modAcqPort_chans (s : State) (k : Nat) (g : AcqPort → AcqPort) : (s.modAcqPort k g).chans = s.chans := rfl
@[simp] theorem State.setAcqPort_chCtrs (s : State) (k : Nat) (v : AcqPort) : (s.setAcqPort k v).chCtrs = s.chCtrs := rfl
@[simp] theorem State.modAcqPort_chCtrs (s : State) (k : Nat) (g : AcqPort → AcqPort) : (s.modAcqPort k g).chCtrs = s.chCtrs := rfl
@[simp] theorem State.setAcqPort_gates (s : State) (k : Nat) (v : AcqPort) : (s.setAcqPort k v).gates = s.gates := rfl
@[simp] theorem State.modAcqPort_gates (s : State) (k : Nat) (g : AcqPort → AcqPort) : (s.modAcqPort k g).gates = s.gates := rfl
@[simp] theorem State.setAcqPort_gatePend (s : State) (k : Nat) (v : AcqPort) : (s.setAcqPort k v).gatePend = s.gatePend := rfl
@[simp] theorem State.modAcqPort_gatePend (s : State) (k : Nat) (g : AcqPort → AcqPort) : (s.modAcqPort k g).gatePend = s.gatePend := rfl
@[simp] theorem State.setAcqPort_engines (s : State) (k : Nat) (v : AcqPort) : (s.setAcqPort k v).engines = s.engines := rfl
@[simp] theorem State.modAcqPort_engines (s : State) (k : Nat) (g : AcqPort → AcqPort) : (s.modAcqPort k g).engines = s.engines := rfl
@[simp] theorem State.setAcqPort_mark (s : State) (k : Nat) (v : AcqPort) : (s.setAcqPort k v).mark = s.mark := rfl
@[simp] theorem State.modAcqPort_mark (s : State) (k : Nat) (g : AcqPort → AcqPort) : (s.modAcqPort k g).mark = s.mark := rfl
@[simp] theorem State.setAcqPort_stampCh (s : State) (k : Nat) (v : AcqPort) : (s.setAcqPort k v).stampCh = s.stampCh := rfl
@[simp] theorem State.modAcqPort_stampCh (s : State) (k : Nat) (g : AcqPort → AcqPort) : (s.modAcqPort k g).stampCh = s.stampCh := rfl
@[simp] theorem State.setAcqPort_tiu (s : State) (k : Nat) (v : AcqPort) : (s.setAcqPort k v).tiu = s.tiu := rfl
@[simp] theorem State.modAcqPort_tiu (s : State) (k : Nat) (g : AcqPort → AcqPort) : (s.modAcqPort k g).tiu = s.tiu := rfl
@[simp] theorem State.setAcqPort_jvl (s : State) (k : Nat) (v : AcqPort) : (s.setAcqPort k v).jvl = s.jvl := rfl
@[simp] theorem State.modAcqPort_jvl (s : State) (k : Nat) (g : AcqPort → AcqPort) : (s.modAcqPort k g).jvl = s.jvl := rfl
@[simp] theorem State.setAcqPort_jvlCtr (s : State) (k : Nat) (v : AcqPort) : (s.setAcqPort k v).jvlCtr = s.jvlCtr := rfl
@[simp] theorem State.modAcqPort_jvlCtr (s : State) (k : Nat) (g : AcqPort → AcqPort) : (s.modAcqPort k g).jvlCtr = s.jvlCtr := rfl
@[simp] theorem State.setAcqPort_timePort (s : State) (k : Nat) (v : AcqPort) : (s.setAcqPort k v).timePort = s.timePort := rfl
@[simp] theorem State.modAcqPort_timePort (s : State) (k : Nat) (g : AcqPort → AcqPort) : (s.modAcqPort k g).timePort = s.timePort := rfl
@[simp] theorem State.setAcqPort_mem (s : State) (k : Nat) (v : AcqPort) : (s.setAcqPort k v).mem = s.mem := rfl
@[simp] theorem State.modAcqPort_mem (s : State) (k : Nat) (g : AcqPort → AcqPort) : (s.modAcqPort k g).mem = s.mem := rfl
@[simp] theorem State.setAcqPort_rings (s : State) (k : Nat) (v : AcqPort) : (s.setAcqPort k v).rings = s.rings := rfl
@[simp] theorem State.modAcqPort_rings (s : State) (k : Nat) (g : AcqPort → AcqPort) : (s.modAcqPort k g).rings = s.rings := rfl
@[simp] theorem State.setAcqPort_domains (s : State) (k : Nat) (v : AcqPort) : (s.setAcqPort k v).domains = s.domains := rfl
@[simp] theorem State.modAcqPort_domains (s : State) (k : Nat) (g : AcqPort → AcqPort) : (s.modAcqPort k g).domains = s.domains := rfl
@[simp] theorem State.setAcqPort_refLog (s : State) (k : Nat) (v : AcqPort) : (s.setAcqPort k v).refLog = s.refLog := rfl
@[simp] theorem State.modAcqPort_refLog (s : State) (k : Nat) (g : AcqPort → AcqPort) : (s.modAcqPort k g).refLog = s.refLog := rfl
@[simp] theorem State.setAcqPort_house (s : State) (k : Nat) (v : AcqPort) : (s.setAcqPort k v).house = s.house := rfl
@[simp] theorem State.modAcqPort_house (s : State) (k : Nat) (g : AcqPort → AcqPort) : (s.modAcqPort k g).house = s.house := rfl
@[simp] theorem State.setAcqPort_calib (s : State) (k : Nat) (v : AcqPort) : (s.setAcqPort k v).calib = s.calib := rfl
@[simp] theorem State.modAcqPort_calib (s : State) (k : Nat) (g : AcqPort → AcqPort) : (s.modAcqPort k g).calib = s.calib := rfl
@[simp] theorem State.setAcqPort_proofs (s : State) (k : Nat) (v : AcqPort) : (s.setAcqPort k v).proofs = s.proofs := rfl
@[simp] theorem State.modAcqPort_proofs (s : State) (k : Nat) (g : AcqPort → AcqPort) : (s.modAcqPort k g).proofs = s.proofs := rfl
@[simp] theorem State.setAcqPort_joins (s : State) (k : Nat) (v : AcqPort) : (s.setAcqPort k v).joins = s.joins := rfl
@[simp] theorem State.modAcqPort_joins (s : State) (k : Nat) (g : AcqPort → AcqPort) : (s.modAcqPort k g).joins = s.joins := rfl
@[simp] theorem State.setAcqPort_promises (s : State) (k : Nat) (v : AcqPort) : (s.setAcqPort k v).promises = s.promises := rfl
@[simp] theorem State.modAcqPort_promises (s : State) (k : Nat) (g : AcqPort → AcqPort) : (s.modAcqPort k g).promises = s.promises := rfl
@[simp] theorem State.setAcqPort_nextId (s : State) (k : Nat) (v : AcqPort) : (s.setAcqPort k v).nextId = s.nextId := rfl
@[simp] theorem State.modAcqPort_nextId (s : State) (k : Nat) (g : AcqPort → AcqPort) : (s.modAcqPort k g).nextId = s.nextId := rfl
@[simp] theorem State.setAcqPort_boot (s : State) (k : Nat) (v : AcqPort) : (s.setAcqPort k v).boot = s.boot := rfl
@[simp] theorem State.modAcqPort_boot (s : State) (k : Nat) (g : AcqPort → AcqPort) : (s.modAcqPort k g).boot = s.boot := rfl
@[simp] theorem State.setAcqPort_patches (s : State) (k : Nat) (v : AcqPort) : (s.setAcqPort k v).patches = s.patches := rfl
@[simp] theorem State.modAcqPort_patches (s : State) (k : Nat) (g : AcqPort → AcqPort) : (s.modAcqPort k g).patches = s.patches := rfl
@[simp] theorem State.setAcqPort_side (s : State) (k : Nat) (v : AcqPort) : (s.setAcqPort k v).side = s.side := rfl
@[simp] theorem State.modAcqPort_side (s : State) (k : Nat) (g : AcqPort → AcqPort) : (s.modAcqPort k g).side = s.side := rfl
@[simp] theorem State.setAcqPort_free (s : State) (k : Nat) (v : AcqPort) : (s.setAcqPort k v).free = s.free := rfl
@[simp] theorem State.modAcqPort_free (s : State) (k : Nat) (g : AcqPort → AcqPort) : (s.modAcqPort k g).free = s.free := rfl
@[simp] theorem State.setStream_pending (s : State) (k : Nat) (v : Stream) : (s.setStream k v).pending = s.pending := rfl
@[simp] theorem State.modStream_pending (s : State) (k : Nat) (g : Stream → Stream) : (s.modStream k g).pending = s.pending := rfl
@[simp] theorem State.setStream_now (s : State) (k : Nat) (v : Stream) : (s.setStream k v).now = s.now := rfl
@[simp] theorem State.modStream_now (s : State) (k : Nat) (g : Stream → Stream) : (s.modStream k g).now = s.now := rfl
@[simp] theorem State.setStream_sys (s : State) (k : Nat) (v : Stream) : (s.setStream k v).sys = s.sys := rfl
@[simp] theorem State.modStream_sys (s : State) (k : Nat) (g : Stream → Stream) : (s.modStream k g).sys = s.sys := rfl
@[simp] theorem State.setStream_time (s : State) (k : Nat) (v : Stream) : (s.setStream k v).time = s.time := rfl
@[simp] theorem State.modStream_time (s : State) (k : Nat) (g : Stream → Stream) : (s.modStream k g).time = s.time := rfl
@[simp] theorem State.setStream_gov (s : State) (k : Nat) (v : Stream) : (s.setStream k v).gov = s.gov := rfl
@[simp] theorem State.modStream_gov (s : State) (k : Nat) (g : Stream → Stream) : (s.modStream k g).gov = s.gov := rfl
@[simp] theorem State.setStream_host (s : State) (k : Nat) (v : Stream) : (s.setStream k v).host = s.host := rfl
@[simp] theorem State.modStream_host (s : State) (k : Nat) (g : Stream → Stream) : (s.modStream k g).host = s.host := rfl
@[simp] theorem State.setStream_out (s : State) (k : Nat) (v : Stream) : (s.setStream k v).out = s.out := rfl
@[simp] theorem State.modStream_out (s : State) (k : Nat) (g : Stream → Stream) : (s.modStream k g).out = s.out := rfl
@[simp] theorem State.setStream_burins (s : State) (k : Nat) (v : Stream) : (s.setStream k v).burins = s.burins := rfl
@[simp] theorem State.modStream_burins (s : State) (k : Nat) (g : Stream → Stream) : (s.modStream k g).burins = s.burins := rfl
@[simp] theorem State.setStream_cells (s : State) (k : Nat) (v : Stream) : (s.setStream k v).cells = s.cells := rfl
@[simp] theorem State.modStream_cells (s : State) (k : Nat) (g : Stream → Stream) : (s.modStream k g).cells = s.cells := rfl
@[simp] theorem State.setStream_plates (s : State) (k : Nat) (v : Stream) : (s.setStream k v).plates = s.plates := rfl
@[simp] theorem State.modStream_plates (s : State) (k : Nat) (g : Stream → Stream) : (s.modStream k g).plates = s.plates := rfl
@[simp] theorem State.setStream_roots (s : State) (k : Nat) (v : Stream) : (s.setStream k v).roots = s.roots := rfl
@[simp] theorem State.modStream_roots (s : State) (k : Nat) (g : Stream → Stream) : (s.modStream k g).roots = s.roots := rfl
@[simp] theorem State.setStream_faults (s : State) (k : Nat) (v : Stream) : (s.setStream k v).faults = s.faults := rfl
@[simp] theorem State.modStream_faults (s : State) (k : Nat) (g : Stream → Stream) : (s.modStream k g).faults = s.faults := rfl
@[simp] theorem State.setStream_devFault (s : State) (k : Nat) (v : Stream) : (s.setStream k v).devFault = s.devFault := rfl
@[simp] theorem State.modStream_devFault (s : State) (k : Nat) (g : Stream → Stream) : (s.modStream k g).devFault = s.devFault := rfl
@[simp] theorem State.setStream_queues (s : State) (k : Nat) (v : Stream) : (s.setStream k v).queues = s.queues := rfl
@[simp] theorem State.modStream_queues (s : State) (k : Nat) (g : Stream → Stream) : (s.modStream k g).queues = s.queues := rfl
@[simp] theorem State.setStream_tones (s : State) (k : Nat) (v : Stream) : (s.setStream k v).tones = s.tones := rfl
@[simp] theorem State.modStream_tones (s : State) (k : Nat) (g : Stream → Stream) : (s.modStream k g).tones = s.tones := rfl
@[simp] theorem State.setStream_ports (s : State) (k : Nat) (v : Stream) : (s.setStream k v).ports = s.ports := rfl
@[simp] theorem State.modStream_ports (s : State) (k : Nat) (g : Stream → Stream) : (s.modStream k g).ports = s.ports := rfl
@[simp] theorem State.setStream_zch (s : State) (k : Nat) (v : Stream) : (s.setStream k v).zch = s.zch := rfl
@[simp] theorem State.modStream_zch (s : State) (k : Nat) (g : Stream → Stream) : (s.modStream k g).zch = s.zch := rfl
@[simp] theorem State.setStream_zctr (s : State) (k : Nat) (v : Stream) : (s.setStream k v).zctr = s.zctr := rfl
@[simp] theorem State.modStream_zctr (s : State) (k : Nat) (g : Stream → Stream) : (s.modStream k g).zctr = s.zctr := rfl
@[simp] theorem State.setStream_zbanks (s : State) (k : Nat) (v : Stream) : (s.setStream k v).zbanks = s.zbanks := rfl
@[simp] theorem State.modStream_zbanks (s : State) (k : Nat) (g : Stream → Stream) : (s.modStream k g).zbanks = s.zbanks := rfl
@[simp] theorem State.setStream_ro (s : State) (k : Nat) (v : Stream) : (s.setStream k v).ro = s.ro := rfl
@[simp] theorem State.modStream_ro (s : State) (k : Nat) (g : Stream → Stream) : (s.modStream k g).ro = s.ro := rfl
@[simp] theorem State.setStream_stipChains (s : State) (k : Nat) (v : Stream) : (s.setStream k v).stipChains = s.stipChains := rfl
@[simp] theorem State.modStream_stipChains (s : State) (k : Nat) (g : Stream → Stream) : (s.modStream k g).stipChains = s.stipChains := rfl
@[simp] theorem State.setStream_acqPorts (s : State) (k : Nat) (v : Stream) : (s.setStream k v).acqPorts = s.acqPorts := rfl
@[simp] theorem State.modStream_acqPorts (s : State) (k : Nat) (g : Stream → Stream) : (s.modStream k g).acqPorts = s.acqPorts := rfl
@[simp] theorem State.setStream_epoch (s : State) (k : Nat) (v : Stream) : (s.setStream k v).epoch = s.epoch := rfl
@[simp] theorem State.modStream_epoch (s : State) (k : Nat) (g : Stream → Stream) : (s.modStream k g).epoch = s.epoch := rfl
@[simp] theorem State.setStream_epochPrev (s : State) (k : Nat) (v : Stream) : (s.setStream k v).epochPrev = s.epochPrev := rfl
@[simp] theorem State.modStream_epochPrev (s : State) (k : Nat) (g : Stream → Stream) : (s.modStream k g).epochPrev = s.epochPrev := rfl
@[simp] theorem State.setStream_alignArm (s : State) (k : Nat) (v : Stream) : (s.setStream k v).alignArm = s.alignArm := rfl
@[simp] theorem State.modStream_alignArm (s : State) (k : Nat) (g : Stream → Stream) : (s.modStream k g).alignArm = s.alignArm := rfl
@[simp] theorem State.setStream_chans (s : State) (k : Nat) (v : Stream) : (s.setStream k v).chans = s.chans := rfl
@[simp] theorem State.modStream_chans (s : State) (k : Nat) (g : Stream → Stream) : (s.modStream k g).chans = s.chans := rfl
@[simp] theorem State.setStream_chCtrs (s : State) (k : Nat) (v : Stream) : (s.setStream k v).chCtrs = s.chCtrs := rfl
@[simp] theorem State.modStream_chCtrs (s : State) (k : Nat) (g : Stream → Stream) : (s.modStream k g).chCtrs = s.chCtrs := rfl
@[simp] theorem State.setStream_gates (s : State) (k : Nat) (v : Stream) : (s.setStream k v).gates = s.gates := rfl
@[simp] theorem State.modStream_gates (s : State) (k : Nat) (g : Stream → Stream) : (s.modStream k g).gates = s.gates := rfl
@[simp] theorem State.setStream_gatePend (s : State) (k : Nat) (v : Stream) : (s.setStream k v).gatePend = s.gatePend := rfl
@[simp] theorem State.modStream_gatePend (s : State) (k : Nat) (g : Stream → Stream) : (s.modStream k g).gatePend = s.gatePend := rfl
@[simp] theorem State.setStream_engines (s : State) (k : Nat) (v : Stream) : (s.setStream k v).engines = s.engines := rfl
@[simp] theorem State.modStream_engines (s : State) (k : Nat) (g : Stream → Stream) : (s.modStream k g).engines = s.engines := rfl
@[simp] theorem State.setStream_mark (s : State) (k : Nat) (v : Stream) : (s.setStream k v).mark = s.mark := rfl
@[simp] theorem State.modStream_mark (s : State) (k : Nat) (g : Stream → Stream) : (s.modStream k g).mark = s.mark := rfl
@[simp] theorem State.setStream_stampCh (s : State) (k : Nat) (v : Stream) : (s.setStream k v).stampCh = s.stampCh := rfl
@[simp] theorem State.modStream_stampCh (s : State) (k : Nat) (g : Stream → Stream) : (s.modStream k g).stampCh = s.stampCh := rfl
@[simp] theorem State.setStream_tiu (s : State) (k : Nat) (v : Stream) : (s.setStream k v).tiu = s.tiu := rfl
@[simp] theorem State.modStream_tiu (s : State) (k : Nat) (g : Stream → Stream) : (s.modStream k g).tiu = s.tiu := rfl
@[simp] theorem State.setStream_jvl (s : State) (k : Nat) (v : Stream) : (s.setStream k v).jvl = s.jvl := rfl
@[simp] theorem State.modStream_jvl (s : State) (k : Nat) (g : Stream → Stream) : (s.modStream k g).jvl = s.jvl := rfl
@[simp] theorem State.setStream_jvlCtr (s : State) (k : Nat) (v : Stream) : (s.setStream k v).jvlCtr = s.jvlCtr := rfl
@[simp] theorem State.modStream_jvlCtr (s : State) (k : Nat) (g : Stream → Stream) : (s.modStream k g).jvlCtr = s.jvlCtr := rfl
@[simp] theorem State.setStream_timePort (s : State) (k : Nat) (v : Stream) : (s.setStream k v).timePort = s.timePort := rfl
@[simp] theorem State.modStream_timePort (s : State) (k : Nat) (g : Stream → Stream) : (s.modStream k g).timePort = s.timePort := rfl
@[simp] theorem State.setStream_mem (s : State) (k : Nat) (v : Stream) : (s.setStream k v).mem = s.mem := rfl
@[simp] theorem State.modStream_mem (s : State) (k : Nat) (g : Stream → Stream) : (s.modStream k g).mem = s.mem := rfl
@[simp] theorem State.setStream_rings (s : State) (k : Nat) (v : Stream) : (s.setStream k v).rings = s.rings := rfl
@[simp] theorem State.modStream_rings (s : State) (k : Nat) (g : Stream → Stream) : (s.modStream k g).rings = s.rings := rfl
@[simp] theorem State.setStream_domains (s : State) (k : Nat) (v : Stream) : (s.setStream k v).domains = s.domains := rfl
@[simp] theorem State.modStream_domains (s : State) (k : Nat) (g : Stream → Stream) : (s.modStream k g).domains = s.domains := rfl
@[simp] theorem State.setStream_refLog (s : State) (k : Nat) (v : Stream) : (s.setStream k v).refLog = s.refLog := rfl
@[simp] theorem State.modStream_refLog (s : State) (k : Nat) (g : Stream → Stream) : (s.modStream k g).refLog = s.refLog := rfl
@[simp] theorem State.setStream_house (s : State) (k : Nat) (v : Stream) : (s.setStream k v).house = s.house := rfl
@[simp] theorem State.modStream_house (s : State) (k : Nat) (g : Stream → Stream) : (s.modStream k g).house = s.house := rfl
@[simp] theorem State.setStream_calib (s : State) (k : Nat) (v : Stream) : (s.setStream k v).calib = s.calib := rfl
@[simp] theorem State.modStream_calib (s : State) (k : Nat) (g : Stream → Stream) : (s.modStream k g).calib = s.calib := rfl
@[simp] theorem State.setStream_proofs (s : State) (k : Nat) (v : Stream) : (s.setStream k v).proofs = s.proofs := rfl
@[simp] theorem State.modStream_proofs (s : State) (k : Nat) (g : Stream → Stream) : (s.modStream k g).proofs = s.proofs := rfl
@[simp] theorem State.setStream_joins (s : State) (k : Nat) (v : Stream) : (s.setStream k v).joins = s.joins := rfl
@[simp] theorem State.modStream_joins (s : State) (k : Nat) (g : Stream → Stream) : (s.modStream k g).joins = s.joins := rfl
@[simp] theorem State.setStream_promises (s : State) (k : Nat) (v : Stream) : (s.setStream k v).promises = s.promises := rfl
@[simp] theorem State.modStream_promises (s : State) (k : Nat) (g : Stream → Stream) : (s.modStream k g).promises = s.promises := rfl
@[simp] theorem State.setStream_nextId (s : State) (k : Nat) (v : Stream) : (s.setStream k v).nextId = s.nextId := rfl
@[simp] theorem State.modStream_nextId (s : State) (k : Nat) (g : Stream → Stream) : (s.modStream k g).nextId = s.nextId := rfl
@[simp] theorem State.setStream_boot (s : State) (k : Nat) (v : Stream) : (s.setStream k v).boot = s.boot := rfl
@[simp] theorem State.modStream_boot (s : State) (k : Nat) (g : Stream → Stream) : (s.modStream k g).boot = s.boot := rfl
@[simp] theorem State.setStream_patches (s : State) (k : Nat) (v : Stream) : (s.setStream k v).patches = s.patches := rfl
@[simp] theorem State.modStream_patches (s : State) (k : Nat) (g : Stream → Stream) : (s.modStream k g).patches = s.patches := rfl
@[simp] theorem State.setStream_side (s : State) (k : Nat) (v : Stream) : (s.setStream k v).side = s.side := rfl
@[simp] theorem State.modStream_side (s : State) (k : Nat) (g : Stream → Stream) : (s.modStream k g).side = s.side := rfl
@[simp] theorem State.setStream_free (s : State) (k : Nat) (v : Stream) : (s.setStream k v).free = s.free := rfl
@[simp] theorem State.modStream_free (s : State) (k : Nat) (g : Stream → Stream) : (s.modStream k g).free = s.free := rfl
@[simp] theorem State.setChan_pending (s : State) (k : Nat) (v : Channel) : (s.setChan k v).pending = s.pending := rfl
@[simp] theorem State.modChan_pending (s : State) (k : Nat) (g : Channel → Channel) : (s.modChan k g).pending = s.pending := rfl
@[simp] theorem State.setChan_now (s : State) (k : Nat) (v : Channel) : (s.setChan k v).now = s.now := rfl
@[simp] theorem State.modChan_now (s : State) (k : Nat) (g : Channel → Channel) : (s.modChan k g).now = s.now := rfl
@[simp] theorem State.setChan_sys (s : State) (k : Nat) (v : Channel) : (s.setChan k v).sys = s.sys := rfl
@[simp] theorem State.modChan_sys (s : State) (k : Nat) (g : Channel → Channel) : (s.modChan k g).sys = s.sys := rfl
@[simp] theorem State.setChan_time (s : State) (k : Nat) (v : Channel) : (s.setChan k v).time = s.time := rfl
@[simp] theorem State.modChan_time (s : State) (k : Nat) (g : Channel → Channel) : (s.modChan k g).time = s.time := rfl
@[simp] theorem State.setChan_gov (s : State) (k : Nat) (v : Channel) : (s.setChan k v).gov = s.gov := rfl
@[simp] theorem State.modChan_gov (s : State) (k : Nat) (g : Channel → Channel) : (s.modChan k g).gov = s.gov := rfl
@[simp] theorem State.setChan_host (s : State) (k : Nat) (v : Channel) : (s.setChan k v).host = s.host := rfl
@[simp] theorem State.modChan_host (s : State) (k : Nat) (g : Channel → Channel) : (s.modChan k g).host = s.host := rfl
@[simp] theorem State.setChan_out (s : State) (k : Nat) (v : Channel) : (s.setChan k v).out = s.out := rfl
@[simp] theorem State.modChan_out (s : State) (k : Nat) (g : Channel → Channel) : (s.modChan k g).out = s.out := rfl
@[simp] theorem State.setChan_burins (s : State) (k : Nat) (v : Channel) : (s.setChan k v).burins = s.burins := rfl
@[simp] theorem State.modChan_burins (s : State) (k : Nat) (g : Channel → Channel) : (s.modChan k g).burins = s.burins := rfl
@[simp] theorem State.setChan_cells (s : State) (k : Nat) (v : Channel) : (s.setChan k v).cells = s.cells := rfl
@[simp] theorem State.modChan_cells (s : State) (k : Nat) (g : Channel → Channel) : (s.modChan k g).cells = s.cells := rfl
@[simp] theorem State.setChan_plates (s : State) (k : Nat) (v : Channel) : (s.setChan k v).plates = s.plates := rfl
@[simp] theorem State.modChan_plates (s : State) (k : Nat) (g : Channel → Channel) : (s.modChan k g).plates = s.plates := rfl
@[simp] theorem State.setChan_roots (s : State) (k : Nat) (v : Channel) : (s.setChan k v).roots = s.roots := rfl
@[simp] theorem State.modChan_roots (s : State) (k : Nat) (g : Channel → Channel) : (s.modChan k g).roots = s.roots := rfl
@[simp] theorem State.setChan_faults (s : State) (k : Nat) (v : Channel) : (s.setChan k v).faults = s.faults := rfl
@[simp] theorem State.modChan_faults (s : State) (k : Nat) (g : Channel → Channel) : (s.modChan k g).faults = s.faults := rfl
@[simp] theorem State.setChan_devFault (s : State) (k : Nat) (v : Channel) : (s.setChan k v).devFault = s.devFault := rfl
@[simp] theorem State.modChan_devFault (s : State) (k : Nat) (g : Channel → Channel) : (s.modChan k g).devFault = s.devFault := rfl
@[simp] theorem State.setChan_queues (s : State) (k : Nat) (v : Channel) : (s.setChan k v).queues = s.queues := rfl
@[simp] theorem State.modChan_queues (s : State) (k : Nat) (g : Channel → Channel) : (s.modChan k g).queues = s.queues := rfl
@[simp] theorem State.setChan_tones (s : State) (k : Nat) (v : Channel) : (s.setChan k v).tones = s.tones := rfl
@[simp] theorem State.modChan_tones (s : State) (k : Nat) (g : Channel → Channel) : (s.modChan k g).tones = s.tones := rfl
@[simp] theorem State.setChan_ports (s : State) (k : Nat) (v : Channel) : (s.setChan k v).ports = s.ports := rfl
@[simp] theorem State.modChan_ports (s : State) (k : Nat) (g : Channel → Channel) : (s.modChan k g).ports = s.ports := rfl
@[simp] theorem State.setChan_zch (s : State) (k : Nat) (v : Channel) : (s.setChan k v).zch = s.zch := rfl
@[simp] theorem State.modChan_zch (s : State) (k : Nat) (g : Channel → Channel) : (s.modChan k g).zch = s.zch := rfl
@[simp] theorem State.setChan_zctr (s : State) (k : Nat) (v : Channel) : (s.setChan k v).zctr = s.zctr := rfl
@[simp] theorem State.modChan_zctr (s : State) (k : Nat) (g : Channel → Channel) : (s.modChan k g).zctr = s.zctr := rfl
@[simp] theorem State.setChan_zbanks (s : State) (k : Nat) (v : Channel) : (s.setChan k v).zbanks = s.zbanks := rfl
@[simp] theorem State.modChan_zbanks (s : State) (k : Nat) (g : Channel → Channel) : (s.modChan k g).zbanks = s.zbanks := rfl
@[simp] theorem State.setChan_ro (s : State) (k : Nat) (v : Channel) : (s.setChan k v).ro = s.ro := rfl
@[simp] theorem State.modChan_ro (s : State) (k : Nat) (g : Channel → Channel) : (s.modChan k g).ro = s.ro := rfl
@[simp] theorem State.setChan_stipChains (s : State) (k : Nat) (v : Channel) : (s.setChan k v).stipChains = s.stipChains := rfl
@[simp] theorem State.modChan_stipChains (s : State) (k : Nat) (g : Channel → Channel) : (s.modChan k g).stipChains = s.stipChains := rfl
@[simp] theorem State.setChan_acqPorts (s : State) (k : Nat) (v : Channel) : (s.setChan k v).acqPorts = s.acqPorts := rfl
@[simp] theorem State.modChan_acqPorts (s : State) (k : Nat) (g : Channel → Channel) : (s.modChan k g).acqPorts = s.acqPorts := rfl
@[simp] theorem State.setChan_streams (s : State) (k : Nat) (v : Channel) : (s.setChan k v).streams = s.streams := rfl
@[simp] theorem State.modChan_streams (s : State) (k : Nat) (g : Channel → Channel) : (s.modChan k g).streams = s.streams := rfl
@[simp] theorem State.setChan_epoch (s : State) (k : Nat) (v : Channel) : (s.setChan k v).epoch = s.epoch := rfl
@[simp] theorem State.modChan_epoch (s : State) (k : Nat) (g : Channel → Channel) : (s.modChan k g).epoch = s.epoch := rfl
@[simp] theorem State.setChan_epochPrev (s : State) (k : Nat) (v : Channel) : (s.setChan k v).epochPrev = s.epochPrev := rfl
@[simp] theorem State.modChan_epochPrev (s : State) (k : Nat) (g : Channel → Channel) : (s.modChan k g).epochPrev = s.epochPrev := rfl
@[simp] theorem State.setChan_alignArm (s : State) (k : Nat) (v : Channel) : (s.setChan k v).alignArm = s.alignArm := rfl
@[simp] theorem State.modChan_alignArm (s : State) (k : Nat) (g : Channel → Channel) : (s.modChan k g).alignArm = s.alignArm := rfl
@[simp] theorem State.setChan_chCtrs (s : State) (k : Nat) (v : Channel) : (s.setChan k v).chCtrs = s.chCtrs := rfl
@[simp] theorem State.modChan_chCtrs (s : State) (k : Nat) (g : Channel → Channel) : (s.modChan k g).chCtrs = s.chCtrs := rfl
@[simp] theorem State.setChan_gates (s : State) (k : Nat) (v : Channel) : (s.setChan k v).gates = s.gates := rfl
@[simp] theorem State.modChan_gates (s : State) (k : Nat) (g : Channel → Channel) : (s.modChan k g).gates = s.gates := rfl
@[simp] theorem State.setChan_gatePend (s : State) (k : Nat) (v : Channel) : (s.setChan k v).gatePend = s.gatePend := rfl
@[simp] theorem State.modChan_gatePend (s : State) (k : Nat) (g : Channel → Channel) : (s.modChan k g).gatePend = s.gatePend := rfl
@[simp] theorem State.setChan_engines (s : State) (k : Nat) (v : Channel) : (s.setChan k v).engines = s.engines := rfl
@[simp] theorem State.modChan_engines (s : State) (k : Nat) (g : Channel → Channel) : (s.modChan k g).engines = s.engines := rfl
@[simp] theorem State.setChan_mark (s : State) (k : Nat) (v : Channel) : (s.setChan k v).mark = s.mark := rfl
@[simp] theorem State.modChan_mark (s : State) (k : Nat) (g : Channel → Channel) : (s.modChan k g).mark = s.mark := rfl
@[simp] theorem State.setChan_stampCh (s : State) (k : Nat) (v : Channel) : (s.setChan k v).stampCh = s.stampCh := rfl
@[simp] theorem State.modChan_stampCh (s : State) (k : Nat) (g : Channel → Channel) : (s.modChan k g).stampCh = s.stampCh := rfl
@[simp] theorem State.setChan_tiu (s : State) (k : Nat) (v : Channel) : (s.setChan k v).tiu = s.tiu := rfl
@[simp] theorem State.modChan_tiu (s : State) (k : Nat) (g : Channel → Channel) : (s.modChan k g).tiu = s.tiu := rfl
@[simp] theorem State.setChan_jvl (s : State) (k : Nat) (v : Channel) : (s.setChan k v).jvl = s.jvl := rfl
@[simp] theorem State.modChan_jvl (s : State) (k : Nat) (g : Channel → Channel) : (s.modChan k g).jvl = s.jvl := rfl
@[simp] theorem State.setChan_jvlCtr (s : State) (k : Nat) (v : Channel) : (s.setChan k v).jvlCtr = s.jvlCtr := rfl
@[simp] theorem State.modChan_jvlCtr (s : State) (k : Nat) (g : Channel → Channel) : (s.modChan k g).jvlCtr = s.jvlCtr := rfl
@[simp] theorem State.setChan_timePort (s : State) (k : Nat) (v : Channel) : (s.setChan k v).timePort = s.timePort := rfl
@[simp] theorem State.modChan_timePort (s : State) (k : Nat) (g : Channel → Channel) : (s.modChan k g).timePort = s.timePort := rfl
@[simp] theorem State.setChan_mem (s : State) (k : Nat) (v : Channel) : (s.setChan k v).mem = s.mem := rfl
@[simp] theorem State.modChan_mem (s : State) (k : Nat) (g : Channel → Channel) : (s.modChan k g).mem = s.mem := rfl
@[simp] theorem State.setChan_rings (s : State) (k : Nat) (v : Channel) : (s.setChan k v).rings = s.rings := rfl
@[simp] theorem State.modChan_rings (s : State) (k : Nat) (g : Channel → Channel) : (s.modChan k g).rings = s.rings := rfl
@[simp] theorem State.setChan_domains (s : State) (k : Nat) (v : Channel) : (s.setChan k v).domains = s.domains := rfl
@[simp] theorem State.modChan_domains (s : State) (k : Nat) (g : Channel → Channel) : (s.modChan k g).domains = s.domains := rfl
@[simp] theorem State.setChan_refLog (s : State) (k : Nat) (v : Channel) : (s.setChan k v).refLog = s.refLog := rfl
@[simp] theorem State.modChan_refLog (s : State) (k : Nat) (g : Channel → Channel) : (s.modChan k g).refLog = s.refLog := rfl
@[simp] theorem State.setChan_house (s : State) (k : Nat) (v : Channel) : (s.setChan k v).house = s.house := rfl
@[simp] theorem State.modChan_house (s : State) (k : Nat) (g : Channel → Channel) : (s.modChan k g).house = s.house := rfl
@[simp] theorem State.setChan_calib (s : State) (k : Nat) (v : Channel) : (s.setChan k v).calib = s.calib := rfl
@[simp] theorem State.modChan_calib (s : State) (k : Nat) (g : Channel → Channel) : (s.modChan k g).calib = s.calib := rfl
@[simp] theorem State.setChan_proofs (s : State) (k : Nat) (v : Channel) : (s.setChan k v).proofs = s.proofs := rfl
@[simp] theorem State.modChan_proofs (s : State) (k : Nat) (g : Channel → Channel) : (s.modChan k g).proofs = s.proofs := rfl
@[simp] theorem State.setChan_joins (s : State) (k : Nat) (v : Channel) : (s.setChan k v).joins = s.joins := rfl
@[simp] theorem State.modChan_joins (s : State) (k : Nat) (g : Channel → Channel) : (s.modChan k g).joins = s.joins := rfl
@[simp] theorem State.setChan_promises (s : State) (k : Nat) (v : Channel) : (s.setChan k v).promises = s.promises := rfl
@[simp] theorem State.modChan_promises (s : State) (k : Nat) (g : Channel → Channel) : (s.modChan k g).promises = s.promises := rfl
@[simp] theorem State.setChan_nextId (s : State) (k : Nat) (v : Channel) : (s.setChan k v).nextId = s.nextId := rfl
@[simp] theorem State.modChan_nextId (s : State) (k : Nat) (g : Channel → Channel) : (s.modChan k g).nextId = s.nextId := rfl
@[simp] theorem State.setChan_boot (s : State) (k : Nat) (v : Channel) : (s.setChan k v).boot = s.boot := rfl
@[simp] theorem State.modChan_boot (s : State) (k : Nat) (g : Channel → Channel) : (s.modChan k g).boot = s.boot := rfl
@[simp] theorem State.setChan_patches (s : State) (k : Nat) (v : Channel) : (s.setChan k v).patches = s.patches := rfl
@[simp] theorem State.modChan_patches (s : State) (k : Nat) (g : Channel → Channel) : (s.modChan k g).patches = s.patches := rfl
@[simp] theorem State.setChan_side (s : State) (k : Nat) (v : Channel) : (s.setChan k v).side = s.side := rfl
@[simp] theorem State.modChan_side (s : State) (k : Nat) (g : Channel → Channel) : (s.modChan k g).side = s.side := rfl
@[simp] theorem State.setChan_free (s : State) (k : Nat) (v : Channel) : (s.setChan k v).free = s.free := rfl
@[simp] theorem State.modChan_free (s : State) (k : Nat) (g : Channel → Channel) : (s.modChan k g).free = s.free := rfl
@[simp] theorem State.setChCtr_pending (s : State) (k : Nat) (v : ChCtrs) : (s.setChCtr k v).pending = s.pending := rfl
@[simp] theorem State.modChCtr_pending (s : State) (k : Nat) (g : ChCtrs → ChCtrs) : (s.modChCtr k g).pending = s.pending := rfl
@[simp] theorem State.setChCtr_now (s : State) (k : Nat) (v : ChCtrs) : (s.setChCtr k v).now = s.now := rfl
@[simp] theorem State.modChCtr_now (s : State) (k : Nat) (g : ChCtrs → ChCtrs) : (s.modChCtr k g).now = s.now := rfl
@[simp] theorem State.setChCtr_sys (s : State) (k : Nat) (v : ChCtrs) : (s.setChCtr k v).sys = s.sys := rfl
@[simp] theorem State.modChCtr_sys (s : State) (k : Nat) (g : ChCtrs → ChCtrs) : (s.modChCtr k g).sys = s.sys := rfl
@[simp] theorem State.setChCtr_time (s : State) (k : Nat) (v : ChCtrs) : (s.setChCtr k v).time = s.time := rfl
@[simp] theorem State.modChCtr_time (s : State) (k : Nat) (g : ChCtrs → ChCtrs) : (s.modChCtr k g).time = s.time := rfl
@[simp] theorem State.setChCtr_gov (s : State) (k : Nat) (v : ChCtrs) : (s.setChCtr k v).gov = s.gov := rfl
@[simp] theorem State.modChCtr_gov (s : State) (k : Nat) (g : ChCtrs → ChCtrs) : (s.modChCtr k g).gov = s.gov := rfl
@[simp] theorem State.setChCtr_host (s : State) (k : Nat) (v : ChCtrs) : (s.setChCtr k v).host = s.host := rfl
@[simp] theorem State.modChCtr_host (s : State) (k : Nat) (g : ChCtrs → ChCtrs) : (s.modChCtr k g).host = s.host := rfl
@[simp] theorem State.setChCtr_out (s : State) (k : Nat) (v : ChCtrs) : (s.setChCtr k v).out = s.out := rfl
@[simp] theorem State.modChCtr_out (s : State) (k : Nat) (g : ChCtrs → ChCtrs) : (s.modChCtr k g).out = s.out := rfl
@[simp] theorem State.setChCtr_burins (s : State) (k : Nat) (v : ChCtrs) : (s.setChCtr k v).burins = s.burins := rfl
@[simp] theorem State.modChCtr_burins (s : State) (k : Nat) (g : ChCtrs → ChCtrs) : (s.modChCtr k g).burins = s.burins := rfl
@[simp] theorem State.setChCtr_cells (s : State) (k : Nat) (v : ChCtrs) : (s.setChCtr k v).cells = s.cells := rfl
@[simp] theorem State.modChCtr_cells (s : State) (k : Nat) (g : ChCtrs → ChCtrs) : (s.modChCtr k g).cells = s.cells := rfl
@[simp] theorem State.setChCtr_plates (s : State) (k : Nat) (v : ChCtrs) : (s.setChCtr k v).plates = s.plates := rfl
@[simp] theorem State.modChCtr_plates (s : State) (k : Nat) (g : ChCtrs → ChCtrs) : (s.modChCtr k g).plates = s.plates := rfl
@[simp] theorem State.setChCtr_roots (s : State) (k : Nat) (v : ChCtrs) : (s.setChCtr k v).roots = s.roots := rfl
@[simp] theorem State.modChCtr_roots (s : State) (k : Nat) (g : ChCtrs → ChCtrs) : (s.modChCtr k g).roots = s.roots := rfl
@[simp] theorem State.setChCtr_faults (s : State) (k : Nat) (v : ChCtrs) : (s.setChCtr k v).faults = s.faults := rfl
@[simp] theorem State.modChCtr_faults (s : State) (k : Nat) (g : ChCtrs → ChCtrs) : (s.modChCtr k g).faults = s.faults := rfl
@[simp] theorem State.setChCtr_devFault (s : State) (k : Nat) (v : ChCtrs) : (s.setChCtr k v).devFault = s.devFault := rfl
@[simp] theorem State.modChCtr_devFault (s : State) (k : Nat) (g : ChCtrs → ChCtrs) : (s.modChCtr k g).devFault = s.devFault := rfl
@[simp] theorem State.setChCtr_queues (s : State) (k : Nat) (v : ChCtrs) : (s.setChCtr k v).queues = s.queues := rfl
@[simp] theorem State.modChCtr_queues (s : State) (k : Nat) (g : ChCtrs → ChCtrs) : (s.modChCtr k g).queues = s.queues := rfl
@[simp] theorem State.setChCtr_tones (s : State) (k : Nat) (v : ChCtrs) : (s.setChCtr k v).tones = s.tones := rfl
@[simp] theorem State.modChCtr_tones (s : State) (k : Nat) (g : ChCtrs → ChCtrs) : (s.modChCtr k g).tones = s.tones := rfl
@[simp] theorem State.setChCtr_ports (s : State) (k : Nat) (v : ChCtrs) : (s.setChCtr k v).ports = s.ports := rfl
@[simp] theorem State.modChCtr_ports (s : State) (k : Nat) (g : ChCtrs → ChCtrs) : (s.modChCtr k g).ports = s.ports := rfl
@[simp] theorem State.setChCtr_zch (s : State) (k : Nat) (v : ChCtrs) : (s.setChCtr k v).zch = s.zch := rfl
@[simp] theorem State.modChCtr_zch (s : State) (k : Nat) (g : ChCtrs → ChCtrs) : (s.modChCtr k g).zch = s.zch := rfl
@[simp] theorem State.setChCtr_zctr (s : State) (k : Nat) (v : ChCtrs) : (s.setChCtr k v).zctr = s.zctr := rfl
@[simp] theorem State.modChCtr_zctr (s : State) (k : Nat) (g : ChCtrs → ChCtrs) : (s.modChCtr k g).zctr = s.zctr := rfl
@[simp] theorem State.setChCtr_zbanks (s : State) (k : Nat) (v : ChCtrs) : (s.setChCtr k v).zbanks = s.zbanks := rfl
@[simp] theorem State.modChCtr_zbanks (s : State) (k : Nat) (g : ChCtrs → ChCtrs) : (s.modChCtr k g).zbanks = s.zbanks := rfl
@[simp] theorem State.setChCtr_ro (s : State) (k : Nat) (v : ChCtrs) : (s.setChCtr k v).ro = s.ro := rfl
@[simp] theorem State.modChCtr_ro (s : State) (k : Nat) (g : ChCtrs → ChCtrs) : (s.modChCtr k g).ro = s.ro := rfl
@[simp] theorem State.setChCtr_stipChains (s : State) (k : Nat) (v : ChCtrs) : (s.setChCtr k v).stipChains = s.stipChains := rfl
@[simp] theorem State.modChCtr_stipChains (s : State) (k : Nat) (g : ChCtrs → ChCtrs) : (s.modChCtr k g).stipChains = s.stipChains := rfl
@[simp] theorem State.setChCtr_acqPorts (s : State) (k : Nat) (v : ChCtrs) : (s.setChCtr k v).acqPorts = s.acqPorts := rfl
@[simp] theorem State.modChCtr_acqPorts (s : State) (k : Nat) (g : ChCtrs → ChCtrs) : (s.modChCtr k g).acqPorts = s.acqPorts := rfl
@[simp] theorem State.setChCtr_streams (s : State) (k : Nat) (v : ChCtrs) : (s.setChCtr k v).streams = s.streams := rfl
@[simp] theorem State.modChCtr_streams (s : State) (k : Nat) (g : ChCtrs → ChCtrs) : (s.modChCtr k g).streams = s.streams := rfl
@[simp] theorem State.setChCtr_epoch (s : State) (k : Nat) (v : ChCtrs) : (s.setChCtr k v).epoch = s.epoch := rfl
@[simp] theorem State.modChCtr_epoch (s : State) (k : Nat) (g : ChCtrs → ChCtrs) : (s.modChCtr k g).epoch = s.epoch := rfl
@[simp] theorem State.setChCtr_epochPrev (s : State) (k : Nat) (v : ChCtrs) : (s.setChCtr k v).epochPrev = s.epochPrev := rfl
@[simp] theorem State.modChCtr_epochPrev (s : State) (k : Nat) (g : ChCtrs → ChCtrs) : (s.modChCtr k g).epochPrev = s.epochPrev := rfl
@[simp] theorem State.setChCtr_alignArm (s : State) (k : Nat) (v : ChCtrs) : (s.setChCtr k v).alignArm = s.alignArm := rfl
@[simp] theorem State.modChCtr_alignArm (s : State) (k : Nat) (g : ChCtrs → ChCtrs) : (s.modChCtr k g).alignArm = s.alignArm := rfl
@[simp] theorem State.setChCtr_chans (s : State) (k : Nat) (v : ChCtrs) : (s.setChCtr k v).chans = s.chans := rfl
@[simp] theorem State.modChCtr_chans (s : State) (k : Nat) (g : ChCtrs → ChCtrs) : (s.modChCtr k g).chans = s.chans := rfl
@[simp] theorem State.setChCtr_gates (s : State) (k : Nat) (v : ChCtrs) : (s.setChCtr k v).gates = s.gates := rfl
@[simp] theorem State.modChCtr_gates (s : State) (k : Nat) (g : ChCtrs → ChCtrs) : (s.modChCtr k g).gates = s.gates := rfl
@[simp] theorem State.setChCtr_gatePend (s : State) (k : Nat) (v : ChCtrs) : (s.setChCtr k v).gatePend = s.gatePend := rfl
@[simp] theorem State.modChCtr_gatePend (s : State) (k : Nat) (g : ChCtrs → ChCtrs) : (s.modChCtr k g).gatePend = s.gatePend := rfl
@[simp] theorem State.setChCtr_engines (s : State) (k : Nat) (v : ChCtrs) : (s.setChCtr k v).engines = s.engines := rfl
@[simp] theorem State.modChCtr_engines (s : State) (k : Nat) (g : ChCtrs → ChCtrs) : (s.modChCtr k g).engines = s.engines := rfl
@[simp] theorem State.setChCtr_mark (s : State) (k : Nat) (v : ChCtrs) : (s.setChCtr k v).mark = s.mark := rfl
@[simp] theorem State.modChCtr_mark (s : State) (k : Nat) (g : ChCtrs → ChCtrs) : (s.modChCtr k g).mark = s.mark := rfl
@[simp] theorem State.setChCtr_stampCh (s : State) (k : Nat) (v : ChCtrs) : (s.setChCtr k v).stampCh = s.stampCh := rfl
@[simp] theorem State.modChCtr_stampCh (s : State) (k : Nat) (g : ChCtrs → ChCtrs) : (s.modChCtr k g).stampCh = s.stampCh := rfl
@[simp] theorem State.setChCtr_tiu (s : State) (k : Nat) (v : ChCtrs) : (s.setChCtr k v).tiu = s.tiu := rfl
@[simp] theorem State.modChCtr_tiu (s : State) (k : Nat) (g : ChCtrs → ChCtrs) : (s.modChCtr k g).tiu = s.tiu := rfl
@[simp] theorem State.setChCtr_jvl (s : State) (k : Nat) (v : ChCtrs) : (s.setChCtr k v).jvl = s.jvl := rfl
@[simp] theorem State.modChCtr_jvl (s : State) (k : Nat) (g : ChCtrs → ChCtrs) : (s.modChCtr k g).jvl = s.jvl := rfl
@[simp] theorem State.setChCtr_jvlCtr (s : State) (k : Nat) (v : ChCtrs) : (s.setChCtr k v).jvlCtr = s.jvlCtr := rfl
@[simp] theorem State.modChCtr_jvlCtr (s : State) (k : Nat) (g : ChCtrs → ChCtrs) : (s.modChCtr k g).jvlCtr = s.jvlCtr := rfl
@[simp] theorem State.setChCtr_timePort (s : State) (k : Nat) (v : ChCtrs) : (s.setChCtr k v).timePort = s.timePort := rfl
@[simp] theorem State.modChCtr_timePort (s : State) (k : Nat) (g : ChCtrs → ChCtrs) : (s.modChCtr k g).timePort = s.timePort := rfl
@[simp] theorem State.setChCtr_mem (s : State) (k : Nat) (v : ChCtrs) : (s.setChCtr k v).mem = s.mem := rfl
@[simp] theorem State.modChCtr_mem (s : State) (k : Nat) (g : ChCtrs → ChCtrs) : (s.modChCtr k g).mem = s.mem := rfl
@[simp] theorem State.setChCtr_rings (s : State) (k : Nat) (v : ChCtrs) : (s.setChCtr k v).rings = s.rings := rfl
@[simp] theorem State.modChCtr_rings (s : State) (k : Nat) (g : ChCtrs → ChCtrs) : (s.modChCtr k g).rings = s.rings := rfl
@[simp] theorem State.setChCtr_domains (s : State) (k : Nat) (v : ChCtrs) : (s.setChCtr k v).domains = s.domains := rfl
@[simp] theorem State.modChCtr_domains (s : State) (k : Nat) (g : ChCtrs → ChCtrs) : (s.modChCtr k g).domains = s.domains := rfl
@[simp] theorem State.setChCtr_refLog (s : State) (k : Nat) (v : ChCtrs) : (s.setChCtr k v).refLog = s.refLog := rfl
@[simp] theorem State.modChCtr_refLog (s : State) (k : Nat) (g : ChCtrs → ChCtrs) : (s.modChCtr k g).refLog = s.refLog := rfl
@[simp] theorem State.setChCtr_house (s : State) (k : Nat) (v : ChCtrs) : (s.setChCtr k v).house = s.house := rfl
@[simp] theorem State.modChCtr_house (s : State) (k : Nat) (g : ChCtrs → ChCtrs) : (s.modChCtr k g).house = s.house := rfl
@[simp] theorem State.setChCtr_calib (s : State) (k : Nat) (v : ChCtrs) : (s.setChCtr k v).calib = s.calib := rfl
@[simp] theorem State.modChCtr_calib (s : State) (k : Nat) (g : ChCtrs → ChCtrs) : (s.modChCtr k g).calib = s.calib := rfl
@[simp] theorem State.setChCtr_proofs (s : State) (k : Nat) (v : ChCtrs) : (s.setChCtr k v).proofs = s.proofs := rfl
@[simp] theorem State.modChCtr_proofs (s : State) (k : Nat) (g : ChCtrs → ChCtrs) : (s.modChCtr k g).proofs = s.proofs := rfl
@[simp] theorem State.setChCtr_joins (s : State) (k : Nat) (v : ChCtrs) : (s.setChCtr k v).joins = s.joins := rfl
@[simp] theorem State.modChCtr_joins (s : State) (k : Nat) (g : ChCtrs → ChCtrs) : (s.modChCtr k g).joins = s.joins := rfl
@[simp] theorem State.setChCtr_promises (s : State) (k : Nat) (v : ChCtrs) : (s.setChCtr k v).promises = s.promises := rfl
@[simp] theorem State.modChCtr_promises (s : State) (k : Nat) (g : ChCtrs → ChCtrs) : (s.modChCtr k g).promises = s.promises := rfl
@[simp] theorem State.setChCtr_nextId (s : State) (k : Nat) (v : ChCtrs) : (s.setChCtr k v).nextId = s.nextId := rfl
@[simp] theorem State.modChCtr_nextId (s : State) (k : Nat) (g : ChCtrs → ChCtrs) : (s.modChCtr k g).nextId = s.nextId := rfl
@[simp] theorem State.setChCtr_boot (s : State) (k : Nat) (v : ChCtrs) : (s.setChCtr k v).boot = s.boot := rfl
@[simp] theorem State.modChCtr_boot (s : State) (k : Nat) (g : ChCtrs → ChCtrs) : (s.modChCtr k g).boot = s.boot := rfl
@[simp] theorem State.setChCtr_patches (s : State) (k : Nat) (v : ChCtrs) : (s.setChCtr k v).patches = s.patches := rfl
@[simp] theorem State.modChCtr_patches (s : State) (k : Nat) (g : ChCtrs → ChCtrs) : (s.modChCtr k g).patches = s.patches := rfl
@[simp] theorem State.setChCtr_side (s : State) (k : Nat) (v : ChCtrs) : (s.setChCtr k v).side = s.side := rfl
@[simp] theorem State.modChCtr_side (s : State) (k : Nat) (g : ChCtrs → ChCtrs) : (s.modChCtr k g).side = s.side := rfl
@[simp] theorem State.setChCtr_free (s : State) (k : Nat) (v : ChCtrs) : (s.setChCtr k v).free = s.free := rfl
@[simp] theorem State.modChCtr_free (s : State) (k : Nat) (g : ChCtrs → ChCtrs) : (s.modChCtr k g).free = s.free := rfl
@[simp] theorem State.setEngine_pending (s : State) (k : Nat) (v : Engine) : (s.setEngine k v).pending = s.pending := rfl
@[simp] theorem State.modEngine_pending (s : State) (k : Nat) (g : Engine → Engine) : (s.modEngine k g).pending = s.pending := rfl
@[simp] theorem State.setEngine_now (s : State) (k : Nat) (v : Engine) : (s.setEngine k v).now = s.now := rfl
@[simp] theorem State.modEngine_now (s : State) (k : Nat) (g : Engine → Engine) : (s.modEngine k g).now = s.now := rfl
@[simp] theorem State.setEngine_sys (s : State) (k : Nat) (v : Engine) : (s.setEngine k v).sys = s.sys := rfl
@[simp] theorem State.modEngine_sys (s : State) (k : Nat) (g : Engine → Engine) : (s.modEngine k g).sys = s.sys := rfl
@[simp] theorem State.setEngine_time (s : State) (k : Nat) (v : Engine) : (s.setEngine k v).time = s.time := rfl
@[simp] theorem State.modEngine_time (s : State) (k : Nat) (g : Engine → Engine) : (s.modEngine k g).time = s.time := rfl
@[simp] theorem State.setEngine_gov (s : State) (k : Nat) (v : Engine) : (s.setEngine k v).gov = s.gov := rfl
@[simp] theorem State.modEngine_gov (s : State) (k : Nat) (g : Engine → Engine) : (s.modEngine k g).gov = s.gov := rfl
@[simp] theorem State.setEngine_host (s : State) (k : Nat) (v : Engine) : (s.setEngine k v).host = s.host := rfl
@[simp] theorem State.modEngine_host (s : State) (k : Nat) (g : Engine → Engine) : (s.modEngine k g).host = s.host := rfl
@[simp] theorem State.setEngine_out (s : State) (k : Nat) (v : Engine) : (s.setEngine k v).out = s.out := rfl
@[simp] theorem State.modEngine_out (s : State) (k : Nat) (g : Engine → Engine) : (s.modEngine k g).out = s.out := rfl
@[simp] theorem State.setEngine_burins (s : State) (k : Nat) (v : Engine) : (s.setEngine k v).burins = s.burins := rfl
@[simp] theorem State.modEngine_burins (s : State) (k : Nat) (g : Engine → Engine) : (s.modEngine k g).burins = s.burins := rfl
@[simp] theorem State.setEngine_cells (s : State) (k : Nat) (v : Engine) : (s.setEngine k v).cells = s.cells := rfl
@[simp] theorem State.modEngine_cells (s : State) (k : Nat) (g : Engine → Engine) : (s.modEngine k g).cells = s.cells := rfl
@[simp] theorem State.setEngine_plates (s : State) (k : Nat) (v : Engine) : (s.setEngine k v).plates = s.plates := rfl
@[simp] theorem State.modEngine_plates (s : State) (k : Nat) (g : Engine → Engine) : (s.modEngine k g).plates = s.plates := rfl
@[simp] theorem State.setEngine_roots (s : State) (k : Nat) (v : Engine) : (s.setEngine k v).roots = s.roots := rfl
@[simp] theorem State.modEngine_roots (s : State) (k : Nat) (g : Engine → Engine) : (s.modEngine k g).roots = s.roots := rfl
@[simp] theorem State.setEngine_faults (s : State) (k : Nat) (v : Engine) : (s.setEngine k v).faults = s.faults := rfl
@[simp] theorem State.modEngine_faults (s : State) (k : Nat) (g : Engine → Engine) : (s.modEngine k g).faults = s.faults := rfl
@[simp] theorem State.setEngine_devFault (s : State) (k : Nat) (v : Engine) : (s.setEngine k v).devFault = s.devFault := rfl
@[simp] theorem State.modEngine_devFault (s : State) (k : Nat) (g : Engine → Engine) : (s.modEngine k g).devFault = s.devFault := rfl
@[simp] theorem State.setEngine_queues (s : State) (k : Nat) (v : Engine) : (s.setEngine k v).queues = s.queues := rfl
@[simp] theorem State.modEngine_queues (s : State) (k : Nat) (g : Engine → Engine) : (s.modEngine k g).queues = s.queues := rfl
@[simp] theorem State.setEngine_tones (s : State) (k : Nat) (v : Engine) : (s.setEngine k v).tones = s.tones := rfl
@[simp] theorem State.modEngine_tones (s : State) (k : Nat) (g : Engine → Engine) : (s.modEngine k g).tones = s.tones := rfl
@[simp] theorem State.setEngine_ports (s : State) (k : Nat) (v : Engine) : (s.setEngine k v).ports = s.ports := rfl
@[simp] theorem State.modEngine_ports (s : State) (k : Nat) (g : Engine → Engine) : (s.modEngine k g).ports = s.ports := rfl
@[simp] theorem State.setEngine_zch (s : State) (k : Nat) (v : Engine) : (s.setEngine k v).zch = s.zch := rfl
@[simp] theorem State.modEngine_zch (s : State) (k : Nat) (g : Engine → Engine) : (s.modEngine k g).zch = s.zch := rfl
@[simp] theorem State.setEngine_zctr (s : State) (k : Nat) (v : Engine) : (s.setEngine k v).zctr = s.zctr := rfl
@[simp] theorem State.modEngine_zctr (s : State) (k : Nat) (g : Engine → Engine) : (s.modEngine k g).zctr = s.zctr := rfl
@[simp] theorem State.setEngine_zbanks (s : State) (k : Nat) (v : Engine) : (s.setEngine k v).zbanks = s.zbanks := rfl
@[simp] theorem State.modEngine_zbanks (s : State) (k : Nat) (g : Engine → Engine) : (s.modEngine k g).zbanks = s.zbanks := rfl
@[simp] theorem State.setEngine_ro (s : State) (k : Nat) (v : Engine) : (s.setEngine k v).ro = s.ro := rfl
@[simp] theorem State.modEngine_ro (s : State) (k : Nat) (g : Engine → Engine) : (s.modEngine k g).ro = s.ro := rfl
@[simp] theorem State.setEngine_stipChains (s : State) (k : Nat) (v : Engine) : (s.setEngine k v).stipChains = s.stipChains := rfl
@[simp] theorem State.modEngine_stipChains (s : State) (k : Nat) (g : Engine → Engine) : (s.modEngine k g).stipChains = s.stipChains := rfl
@[simp] theorem State.setEngine_acqPorts (s : State) (k : Nat) (v : Engine) : (s.setEngine k v).acqPorts = s.acqPorts := rfl
@[simp] theorem State.modEngine_acqPorts (s : State) (k : Nat) (g : Engine → Engine) : (s.modEngine k g).acqPorts = s.acqPorts := rfl
@[simp] theorem State.setEngine_streams (s : State) (k : Nat) (v : Engine) : (s.setEngine k v).streams = s.streams := rfl
@[simp] theorem State.modEngine_streams (s : State) (k : Nat) (g : Engine → Engine) : (s.modEngine k g).streams = s.streams := rfl
@[simp] theorem State.setEngine_epoch (s : State) (k : Nat) (v : Engine) : (s.setEngine k v).epoch = s.epoch := rfl
@[simp] theorem State.modEngine_epoch (s : State) (k : Nat) (g : Engine → Engine) : (s.modEngine k g).epoch = s.epoch := rfl
@[simp] theorem State.setEngine_epochPrev (s : State) (k : Nat) (v : Engine) : (s.setEngine k v).epochPrev = s.epochPrev := rfl
@[simp] theorem State.modEngine_epochPrev (s : State) (k : Nat) (g : Engine → Engine) : (s.modEngine k g).epochPrev = s.epochPrev := rfl
@[simp] theorem State.setEngine_alignArm (s : State) (k : Nat) (v : Engine) : (s.setEngine k v).alignArm = s.alignArm := rfl
@[simp] theorem State.modEngine_alignArm (s : State) (k : Nat) (g : Engine → Engine) : (s.modEngine k g).alignArm = s.alignArm := rfl
@[simp] theorem State.setEngine_chans (s : State) (k : Nat) (v : Engine) : (s.setEngine k v).chans = s.chans := rfl
@[simp] theorem State.modEngine_chans (s : State) (k : Nat) (g : Engine → Engine) : (s.modEngine k g).chans = s.chans := rfl
@[simp] theorem State.setEngine_chCtrs (s : State) (k : Nat) (v : Engine) : (s.setEngine k v).chCtrs = s.chCtrs := rfl
@[simp] theorem State.modEngine_chCtrs (s : State) (k : Nat) (g : Engine → Engine) : (s.modEngine k g).chCtrs = s.chCtrs := rfl
@[simp] theorem State.setEngine_gates (s : State) (k : Nat) (v : Engine) : (s.setEngine k v).gates = s.gates := rfl
@[simp] theorem State.modEngine_gates (s : State) (k : Nat) (g : Engine → Engine) : (s.modEngine k g).gates = s.gates := rfl
@[simp] theorem State.setEngine_gatePend (s : State) (k : Nat) (v : Engine) : (s.setEngine k v).gatePend = s.gatePend := rfl
@[simp] theorem State.modEngine_gatePend (s : State) (k : Nat) (g : Engine → Engine) : (s.modEngine k g).gatePend = s.gatePend := rfl
@[simp] theorem State.setEngine_mark (s : State) (k : Nat) (v : Engine) : (s.setEngine k v).mark = s.mark := rfl
@[simp] theorem State.modEngine_mark (s : State) (k : Nat) (g : Engine → Engine) : (s.modEngine k g).mark = s.mark := rfl
@[simp] theorem State.setEngine_stampCh (s : State) (k : Nat) (v : Engine) : (s.setEngine k v).stampCh = s.stampCh := rfl
@[simp] theorem State.modEngine_stampCh (s : State) (k : Nat) (g : Engine → Engine) : (s.modEngine k g).stampCh = s.stampCh := rfl
@[simp] theorem State.setEngine_tiu (s : State) (k : Nat) (v : Engine) : (s.setEngine k v).tiu = s.tiu := rfl
@[simp] theorem State.modEngine_tiu (s : State) (k : Nat) (g : Engine → Engine) : (s.modEngine k g).tiu = s.tiu := rfl
@[simp] theorem State.setEngine_jvl (s : State) (k : Nat) (v : Engine) : (s.setEngine k v).jvl = s.jvl := rfl
@[simp] theorem State.modEngine_jvl (s : State) (k : Nat) (g : Engine → Engine) : (s.modEngine k g).jvl = s.jvl := rfl
@[simp] theorem State.setEngine_jvlCtr (s : State) (k : Nat) (v : Engine) : (s.setEngine k v).jvlCtr = s.jvlCtr := rfl
@[simp] theorem State.modEngine_jvlCtr (s : State) (k : Nat) (g : Engine → Engine) : (s.modEngine k g).jvlCtr = s.jvlCtr := rfl
@[simp] theorem State.setEngine_timePort (s : State) (k : Nat) (v : Engine) : (s.setEngine k v).timePort = s.timePort := rfl
@[simp] theorem State.modEngine_timePort (s : State) (k : Nat) (g : Engine → Engine) : (s.modEngine k g).timePort = s.timePort := rfl
@[simp] theorem State.setEngine_mem (s : State) (k : Nat) (v : Engine) : (s.setEngine k v).mem = s.mem := rfl
@[simp] theorem State.modEngine_mem (s : State) (k : Nat) (g : Engine → Engine) : (s.modEngine k g).mem = s.mem := rfl
@[simp] theorem State.setEngine_rings (s : State) (k : Nat) (v : Engine) : (s.setEngine k v).rings = s.rings := rfl
@[simp] theorem State.modEngine_rings (s : State) (k : Nat) (g : Engine → Engine) : (s.modEngine k g).rings = s.rings := rfl
@[simp] theorem State.setEngine_domains (s : State) (k : Nat) (v : Engine) : (s.setEngine k v).domains = s.domains := rfl
@[simp] theorem State.modEngine_domains (s : State) (k : Nat) (g : Engine → Engine) : (s.modEngine k g).domains = s.domains := rfl
@[simp] theorem State.setEngine_refLog (s : State) (k : Nat) (v : Engine) : (s.setEngine k v).refLog = s.refLog := rfl
@[simp] theorem State.modEngine_refLog (s : State) (k : Nat) (g : Engine → Engine) : (s.modEngine k g).refLog = s.refLog := rfl
@[simp] theorem State.setEngine_house (s : State) (k : Nat) (v : Engine) : (s.setEngine k v).house = s.house := rfl
@[simp] theorem State.modEngine_house (s : State) (k : Nat) (g : Engine → Engine) : (s.modEngine k g).house = s.house := rfl
@[simp] theorem State.setEngine_calib (s : State) (k : Nat) (v : Engine) : (s.setEngine k v).calib = s.calib := rfl
@[simp] theorem State.modEngine_calib (s : State) (k : Nat) (g : Engine → Engine) : (s.modEngine k g).calib = s.calib := rfl
@[simp] theorem State.setEngine_proofs (s : State) (k : Nat) (v : Engine) : (s.setEngine k v).proofs = s.proofs := rfl
@[simp] theorem State.modEngine_proofs (s : State) (k : Nat) (g : Engine → Engine) : (s.modEngine k g).proofs = s.proofs := rfl
@[simp] theorem State.setEngine_joins (s : State) (k : Nat) (v : Engine) : (s.setEngine k v).joins = s.joins := rfl
@[simp] theorem State.modEngine_joins (s : State) (k : Nat) (g : Engine → Engine) : (s.modEngine k g).joins = s.joins := rfl
@[simp] theorem State.setEngine_promises (s : State) (k : Nat) (v : Engine) : (s.setEngine k v).promises = s.promises := rfl
@[simp] theorem State.modEngine_promises (s : State) (k : Nat) (g : Engine → Engine) : (s.modEngine k g).promises = s.promises := rfl
@[simp] theorem State.setEngine_nextId (s : State) (k : Nat) (v : Engine) : (s.setEngine k v).nextId = s.nextId := rfl
@[simp] theorem State.modEngine_nextId (s : State) (k : Nat) (g : Engine → Engine) : (s.modEngine k g).nextId = s.nextId := rfl
@[simp] theorem State.setEngine_boot (s : State) (k : Nat) (v : Engine) : (s.setEngine k v).boot = s.boot := rfl
@[simp] theorem State.modEngine_boot (s : State) (k : Nat) (g : Engine → Engine) : (s.modEngine k g).boot = s.boot := rfl
@[simp] theorem State.setEngine_patches (s : State) (k : Nat) (v : Engine) : (s.setEngine k v).patches = s.patches := rfl
@[simp] theorem State.modEngine_patches (s : State) (k : Nat) (g : Engine → Engine) : (s.modEngine k g).patches = s.patches := rfl
@[simp] theorem State.setEngine_side (s : State) (k : Nat) (v : Engine) : (s.setEngine k v).side = s.side := rfl
@[simp] theorem State.modEngine_side (s : State) (k : Nat) (g : Engine → Engine) : (s.modEngine k g).side = s.side := rfl
@[simp] theorem State.setEngine_free (s : State) (k : Nat) (v : Engine) : (s.setEngine k v).free = s.free := rfl
@[simp] theorem State.modEngine_free (s : State) (k : Nat) (g : Engine → Engine) : (s.modEngine k g).free = s.free := rfl
@[simp] theorem State.setStampChan_pending (s : State) (k : Nat) (v : StampChan) : (s.setStampChan k v).pending = s.pending := rfl
@[simp] theorem State.modStampChan_pending (s : State) (k : Nat) (g : StampChan → StampChan) : (s.modStampChan k g).pending = s.pending := rfl
@[simp] theorem State.setStampChan_now (s : State) (k : Nat) (v : StampChan) : (s.setStampChan k v).now = s.now := rfl
@[simp] theorem State.modStampChan_now (s : State) (k : Nat) (g : StampChan → StampChan) : (s.modStampChan k g).now = s.now := rfl
@[simp] theorem State.setStampChan_sys (s : State) (k : Nat) (v : StampChan) : (s.setStampChan k v).sys = s.sys := rfl
@[simp] theorem State.modStampChan_sys (s : State) (k : Nat) (g : StampChan → StampChan) : (s.modStampChan k g).sys = s.sys := rfl
@[simp] theorem State.setStampChan_time (s : State) (k : Nat) (v : StampChan) : (s.setStampChan k v).time = s.time := rfl
@[simp] theorem State.modStampChan_time (s : State) (k : Nat) (g : StampChan → StampChan) : (s.modStampChan k g).time = s.time := rfl
@[simp] theorem State.setStampChan_gov (s : State) (k : Nat) (v : StampChan) : (s.setStampChan k v).gov = s.gov := rfl
@[simp] theorem State.modStampChan_gov (s : State) (k : Nat) (g : StampChan → StampChan) : (s.modStampChan k g).gov = s.gov := rfl
@[simp] theorem State.setStampChan_host (s : State) (k : Nat) (v : StampChan) : (s.setStampChan k v).host = s.host := rfl
@[simp] theorem State.modStampChan_host (s : State) (k : Nat) (g : StampChan → StampChan) : (s.modStampChan k g).host = s.host := rfl
@[simp] theorem State.setStampChan_out (s : State) (k : Nat) (v : StampChan) : (s.setStampChan k v).out = s.out := rfl
@[simp] theorem State.modStampChan_out (s : State) (k : Nat) (g : StampChan → StampChan) : (s.modStampChan k g).out = s.out := rfl
@[simp] theorem State.setStampChan_burins (s : State) (k : Nat) (v : StampChan) : (s.setStampChan k v).burins = s.burins := rfl
@[simp] theorem State.modStampChan_burins (s : State) (k : Nat) (g : StampChan → StampChan) : (s.modStampChan k g).burins = s.burins := rfl
@[simp] theorem State.setStampChan_cells (s : State) (k : Nat) (v : StampChan) : (s.setStampChan k v).cells = s.cells := rfl
@[simp] theorem State.modStampChan_cells (s : State) (k : Nat) (g : StampChan → StampChan) : (s.modStampChan k g).cells = s.cells := rfl
@[simp] theorem State.setStampChan_plates (s : State) (k : Nat) (v : StampChan) : (s.setStampChan k v).plates = s.plates := rfl
@[simp] theorem State.modStampChan_plates (s : State) (k : Nat) (g : StampChan → StampChan) : (s.modStampChan k g).plates = s.plates := rfl
@[simp] theorem State.setStampChan_roots (s : State) (k : Nat) (v : StampChan) : (s.setStampChan k v).roots = s.roots := rfl
@[simp] theorem State.modStampChan_roots (s : State) (k : Nat) (g : StampChan → StampChan) : (s.modStampChan k g).roots = s.roots := rfl
@[simp] theorem State.setStampChan_faults (s : State) (k : Nat) (v : StampChan) : (s.setStampChan k v).faults = s.faults := rfl
@[simp] theorem State.modStampChan_faults (s : State) (k : Nat) (g : StampChan → StampChan) : (s.modStampChan k g).faults = s.faults := rfl
@[simp] theorem State.setStampChan_devFault (s : State) (k : Nat) (v : StampChan) : (s.setStampChan k v).devFault = s.devFault := rfl
@[simp] theorem State.modStampChan_devFault (s : State) (k : Nat) (g : StampChan → StampChan) : (s.modStampChan k g).devFault = s.devFault := rfl
@[simp] theorem State.setStampChan_queues (s : State) (k : Nat) (v : StampChan) : (s.setStampChan k v).queues = s.queues := rfl
@[simp] theorem State.modStampChan_queues (s : State) (k : Nat) (g : StampChan → StampChan) : (s.modStampChan k g).queues = s.queues := rfl
@[simp] theorem State.setStampChan_tones (s : State) (k : Nat) (v : StampChan) : (s.setStampChan k v).tones = s.tones := rfl
@[simp] theorem State.modStampChan_tones (s : State) (k : Nat) (g : StampChan → StampChan) : (s.modStampChan k g).tones = s.tones := rfl
@[simp] theorem State.setStampChan_ports (s : State) (k : Nat) (v : StampChan) : (s.setStampChan k v).ports = s.ports := rfl
@[simp] theorem State.modStampChan_ports (s : State) (k : Nat) (g : StampChan → StampChan) : (s.modStampChan k g).ports = s.ports := rfl
@[simp] theorem State.setStampChan_zch (s : State) (k : Nat) (v : StampChan) : (s.setStampChan k v).zch = s.zch := rfl
@[simp] theorem State.modStampChan_zch (s : State) (k : Nat) (g : StampChan → StampChan) : (s.modStampChan k g).zch = s.zch := rfl
@[simp] theorem State.setStampChan_zctr (s : State) (k : Nat) (v : StampChan) : (s.setStampChan k v).zctr = s.zctr := rfl
@[simp] theorem State.modStampChan_zctr (s : State) (k : Nat) (g : StampChan → StampChan) : (s.modStampChan k g).zctr = s.zctr := rfl
@[simp] theorem State.setStampChan_zbanks (s : State) (k : Nat) (v : StampChan) : (s.setStampChan k v).zbanks = s.zbanks := rfl
@[simp] theorem State.modStampChan_zbanks (s : State) (k : Nat) (g : StampChan → StampChan) : (s.modStampChan k g).zbanks = s.zbanks := rfl
@[simp] theorem State.setStampChan_ro (s : State) (k : Nat) (v : StampChan) : (s.setStampChan k v).ro = s.ro := rfl
@[simp] theorem State.modStampChan_ro (s : State) (k : Nat) (g : StampChan → StampChan) : (s.modStampChan k g).ro = s.ro := rfl
@[simp] theorem State.setStampChan_stipChains (s : State) (k : Nat) (v : StampChan) : (s.setStampChan k v).stipChains = s.stipChains := rfl
@[simp] theorem State.modStampChan_stipChains (s : State) (k : Nat) (g : StampChan → StampChan) : (s.modStampChan k g).stipChains = s.stipChains := rfl
@[simp] theorem State.setStampChan_acqPorts (s : State) (k : Nat) (v : StampChan) : (s.setStampChan k v).acqPorts = s.acqPorts := rfl
@[simp] theorem State.modStampChan_acqPorts (s : State) (k : Nat) (g : StampChan → StampChan) : (s.modStampChan k g).acqPorts = s.acqPorts := rfl
@[simp] theorem State.setStampChan_streams (s : State) (k : Nat) (v : StampChan) : (s.setStampChan k v).streams = s.streams := rfl
@[simp] theorem State.modStampChan_streams (s : State) (k : Nat) (g : StampChan → StampChan) : (s.modStampChan k g).streams = s.streams := rfl
@[simp] theorem State.setStampChan_epoch (s : State) (k : Nat) (v : StampChan) : (s.setStampChan k v).epoch = s.epoch := rfl
@[simp] theorem State.modStampChan_epoch (s : State) (k : Nat) (g : StampChan → StampChan) : (s.modStampChan k g).epoch = s.epoch := rfl
@[simp] theorem State.setStampChan_epochPrev (s : State) (k : Nat) (v : StampChan) : (s.setStampChan k v).epochPrev = s.epochPrev := rfl
@[simp] theorem State.modStampChan_epochPrev (s : State) (k : Nat) (g : StampChan → StampChan) : (s.modStampChan k g).epochPrev = s.epochPrev := rfl
@[simp] theorem State.setStampChan_alignArm (s : State) (k : Nat) (v : StampChan) : (s.setStampChan k v).alignArm = s.alignArm := rfl
@[simp] theorem State.modStampChan_alignArm (s : State) (k : Nat) (g : StampChan → StampChan) : (s.modStampChan k g).alignArm = s.alignArm := rfl
@[simp] theorem State.setStampChan_chans (s : State) (k : Nat) (v : StampChan) : (s.setStampChan k v).chans = s.chans := rfl
@[simp] theorem State.modStampChan_chans (s : State) (k : Nat) (g : StampChan → StampChan) : (s.modStampChan k g).chans = s.chans := rfl
@[simp] theorem State.setStampChan_chCtrs (s : State) (k : Nat) (v : StampChan) : (s.setStampChan k v).chCtrs = s.chCtrs := rfl
@[simp] theorem State.modStampChan_chCtrs (s : State) (k : Nat) (g : StampChan → StampChan) : (s.modStampChan k g).chCtrs = s.chCtrs := rfl
@[simp] theorem State.setStampChan_gates (s : State) (k : Nat) (v : StampChan) : (s.setStampChan k v).gates = s.gates := rfl
@[simp] theorem State.modStampChan_gates (s : State) (k : Nat) (g : StampChan → StampChan) : (s.modStampChan k g).gates = s.gates := rfl
@[simp] theorem State.setStampChan_gatePend (s : State) (k : Nat) (v : StampChan) : (s.setStampChan k v).gatePend = s.gatePend := rfl
@[simp] theorem State.modStampChan_gatePend (s : State) (k : Nat) (g : StampChan → StampChan) : (s.modStampChan k g).gatePend = s.gatePend := rfl
@[simp] theorem State.setStampChan_engines (s : State) (k : Nat) (v : StampChan) : (s.setStampChan k v).engines = s.engines := rfl
@[simp] theorem State.modStampChan_engines (s : State) (k : Nat) (g : StampChan → StampChan) : (s.modStampChan k g).engines = s.engines := rfl
@[simp] theorem State.setStampChan_mark (s : State) (k : Nat) (v : StampChan) : (s.setStampChan k v).mark = s.mark := rfl
@[simp] theorem State.modStampChan_mark (s : State) (k : Nat) (g : StampChan → StampChan) : (s.modStampChan k g).mark = s.mark := rfl
@[simp] theorem State.setStampChan_tiu (s : State) (k : Nat) (v : StampChan) : (s.setStampChan k v).tiu = s.tiu := rfl
@[simp] theorem State.modStampChan_tiu (s : State) (k : Nat) (g : StampChan → StampChan) : (s.modStampChan k g).tiu = s.tiu := rfl
@[simp] theorem State.setStampChan_jvl (s : State) (k : Nat) (v : StampChan) : (s.setStampChan k v).jvl = s.jvl := rfl
@[simp] theorem State.modStampChan_jvl (s : State) (k : Nat) (g : StampChan → StampChan) : (s.modStampChan k g).jvl = s.jvl := rfl
@[simp] theorem State.setStampChan_jvlCtr (s : State) (k : Nat) (v : StampChan) : (s.setStampChan k v).jvlCtr = s.jvlCtr := rfl
@[simp] theorem State.modStampChan_jvlCtr (s : State) (k : Nat) (g : StampChan → StampChan) : (s.modStampChan k g).jvlCtr = s.jvlCtr := rfl
@[simp] theorem State.setStampChan_timePort (s : State) (k : Nat) (v : StampChan) : (s.setStampChan k v).timePort = s.timePort := rfl
@[simp] theorem State.modStampChan_timePort (s : State) (k : Nat) (g : StampChan → StampChan) : (s.modStampChan k g).timePort = s.timePort := rfl
@[simp] theorem State.setStampChan_mem (s : State) (k : Nat) (v : StampChan) : (s.setStampChan k v).mem = s.mem := rfl
@[simp] theorem State.modStampChan_mem (s : State) (k : Nat) (g : StampChan → StampChan) : (s.modStampChan k g).mem = s.mem := rfl
@[simp] theorem State.setStampChan_rings (s : State) (k : Nat) (v : StampChan) : (s.setStampChan k v).rings = s.rings := rfl
@[simp] theorem State.modStampChan_rings (s : State) (k : Nat) (g : StampChan → StampChan) : (s.modStampChan k g).rings = s.rings := rfl
@[simp] theorem State.setStampChan_domains (s : State) (k : Nat) (v : StampChan) : (s.setStampChan k v).domains = s.domains := rfl
@[simp] theorem State.modStampChan_domains (s : State) (k : Nat) (g : StampChan → StampChan) : (s.modStampChan k g).domains = s.domains := rfl
@[simp] theorem State.setStampChan_refLog (s : State) (k : Nat) (v : StampChan) : (s.setStampChan k v).refLog = s.refLog := rfl
@[simp] theorem State.modStampChan_refLog (s : State) (k : Nat) (g : StampChan → StampChan) : (s.modStampChan k g).refLog = s.refLog := rfl
@[simp] theorem State.setStampChan_house (s : State) (k : Nat) (v : StampChan) : (s.setStampChan k v).house = s.house := rfl
@[simp] theorem State.modStampChan_house (s : State) (k : Nat) (g : StampChan → StampChan) : (s.modStampChan k g).house = s.house := rfl
@[simp] theorem State.setStampChan_calib (s : State) (k : Nat) (v : StampChan) : (s.setStampChan k v).calib = s.calib := rfl
@[simp] theorem State.modStampChan_calib (s : State) (k : Nat) (g : StampChan → StampChan) : (s.modStampChan k g).calib = s.calib := rfl
@[simp] theorem State.setStampChan_proofs (s : State) (k : Nat) (v : StampChan) : (s.setStampChan k v).proofs = s.proofs := rfl
@[simp] theorem State.modStampChan_proofs (s : State) (k : Nat) (g : StampChan → StampChan) : (s.modStampChan k g).proofs = s.proofs := rfl
@[simp] theorem State.setStampChan_joins (s : State) (k : Nat) (v : StampChan) : (s.setStampChan k v).joins = s.joins := rfl
@[simp] theorem State.modStampChan_joins (s : State) (k : Nat) (g : StampChan → StampChan) : (s.modStampChan k g).joins = s.joins := rfl
@[simp] theorem State.setStampChan_promises (s : State) (k : Nat) (v : StampChan) : (s.setStampChan k v).promises = s.promises := rfl
@[simp] theorem State.modStampChan_promises (s : State) (k : Nat) (g : StampChan → StampChan) : (s.modStampChan k g).promises = s.promises := rfl
@[simp] theorem State.setStampChan_nextId (s : State) (k : Nat) (v : StampChan) : (s.setStampChan k v).nextId = s.nextId := rfl
@[simp] theorem State.modStampChan_nextId (s : State) (k : Nat) (g : StampChan → StampChan) : (s.modStampChan k g).nextId = s.nextId := rfl
@[simp] theorem State.setStampChan_boot (s : State) (k : Nat) (v : StampChan) : (s.setStampChan k v).boot = s.boot := rfl
@[simp] theorem State.modStampChan_boot (s : State) (k : Nat) (g : StampChan → StampChan) : (s.modStampChan k g).boot = s.boot := rfl
@[simp] theorem State.setStampChan_patches (s : State) (k : Nat) (v : StampChan) : (s.setStampChan k v).patches = s.patches := rfl
@[simp] theorem State.modStampChan_patches (s : State) (k : Nat) (g : StampChan → StampChan) : (s.modStampChan k g).patches = s.patches := rfl
@[simp] theorem State.setStampChan_side (s : State) (k : Nat) (v : StampChan) : (s.setStampChan k v).side = s.side := rfl
@[simp] theorem State.modStampChan_side (s : State) (k : Nat) (g : StampChan → StampChan) : (s.modStampChan k g).side = s.side := rfl
@[simp] theorem State.setStampChan_free (s : State) (k : Nat) (v : StampChan) : (s.setStampChan k v).free = s.free := rfl
@[simp] theorem State.modStampChan_free (s : State) (k : Nat) (g : StampChan → StampChan) : (s.modStampChan k g).free = s.free := rfl
@[simp] theorem State.setTiuEng_pending (s : State) (k : Nat) (v : TiuEng) : (s.setTiuEng k v).pending = s.pending := rfl
@[simp] theorem State.modTiuEng_pending (s : State) (k : Nat) (g : TiuEng → TiuEng) : (s.modTiuEng k g).pending = s.pending := rfl
@[simp] theorem State.setTiuEng_now (s : State) (k : Nat) (v : TiuEng) : (s.setTiuEng k v).now = s.now := rfl
@[simp] theorem State.modTiuEng_now (s : State) (k : Nat) (g : TiuEng → TiuEng) : (s.modTiuEng k g).now = s.now := rfl
@[simp] theorem State.setTiuEng_sys (s : State) (k : Nat) (v : TiuEng) : (s.setTiuEng k v).sys = s.sys := rfl
@[simp] theorem State.modTiuEng_sys (s : State) (k : Nat) (g : TiuEng → TiuEng) : (s.modTiuEng k g).sys = s.sys := rfl
@[simp] theorem State.setTiuEng_time (s : State) (k : Nat) (v : TiuEng) : (s.setTiuEng k v).time = s.time := rfl
@[simp] theorem State.modTiuEng_time (s : State) (k : Nat) (g : TiuEng → TiuEng) : (s.modTiuEng k g).time = s.time := rfl
@[simp] theorem State.setTiuEng_gov (s : State) (k : Nat) (v : TiuEng) : (s.setTiuEng k v).gov = s.gov := rfl
@[simp] theorem State.modTiuEng_gov (s : State) (k : Nat) (g : TiuEng → TiuEng) : (s.modTiuEng k g).gov = s.gov := rfl
@[simp] theorem State.setTiuEng_host (s : State) (k : Nat) (v : TiuEng) : (s.setTiuEng k v).host = s.host := rfl
@[simp] theorem State.modTiuEng_host (s : State) (k : Nat) (g : TiuEng → TiuEng) : (s.modTiuEng k g).host = s.host := rfl
@[simp] theorem State.setTiuEng_out (s : State) (k : Nat) (v : TiuEng) : (s.setTiuEng k v).out = s.out := rfl
@[simp] theorem State.modTiuEng_out (s : State) (k : Nat) (g : TiuEng → TiuEng) : (s.modTiuEng k g).out = s.out := rfl
@[simp] theorem State.setTiuEng_burins (s : State) (k : Nat) (v : TiuEng) : (s.setTiuEng k v).burins = s.burins := rfl
@[simp] theorem State.modTiuEng_burins (s : State) (k : Nat) (g : TiuEng → TiuEng) : (s.modTiuEng k g).burins = s.burins := rfl
@[simp] theorem State.setTiuEng_cells (s : State) (k : Nat) (v : TiuEng) : (s.setTiuEng k v).cells = s.cells := rfl
@[simp] theorem State.modTiuEng_cells (s : State) (k : Nat) (g : TiuEng → TiuEng) : (s.modTiuEng k g).cells = s.cells := rfl
@[simp] theorem State.setTiuEng_plates (s : State) (k : Nat) (v : TiuEng) : (s.setTiuEng k v).plates = s.plates := rfl
@[simp] theorem State.modTiuEng_plates (s : State) (k : Nat) (g : TiuEng → TiuEng) : (s.modTiuEng k g).plates = s.plates := rfl
@[simp] theorem State.setTiuEng_roots (s : State) (k : Nat) (v : TiuEng) : (s.setTiuEng k v).roots = s.roots := rfl
@[simp] theorem State.modTiuEng_roots (s : State) (k : Nat) (g : TiuEng → TiuEng) : (s.modTiuEng k g).roots = s.roots := rfl
@[simp] theorem State.setTiuEng_faults (s : State) (k : Nat) (v : TiuEng) : (s.setTiuEng k v).faults = s.faults := rfl
@[simp] theorem State.modTiuEng_faults (s : State) (k : Nat) (g : TiuEng → TiuEng) : (s.modTiuEng k g).faults = s.faults := rfl
@[simp] theorem State.setTiuEng_devFault (s : State) (k : Nat) (v : TiuEng) : (s.setTiuEng k v).devFault = s.devFault := rfl
@[simp] theorem State.modTiuEng_devFault (s : State) (k : Nat) (g : TiuEng → TiuEng) : (s.modTiuEng k g).devFault = s.devFault := rfl
@[simp] theorem State.setTiuEng_queues (s : State) (k : Nat) (v : TiuEng) : (s.setTiuEng k v).queues = s.queues := rfl
@[simp] theorem State.modTiuEng_queues (s : State) (k : Nat) (g : TiuEng → TiuEng) : (s.modTiuEng k g).queues = s.queues := rfl
@[simp] theorem State.setTiuEng_tones (s : State) (k : Nat) (v : TiuEng) : (s.setTiuEng k v).tones = s.tones := rfl
@[simp] theorem State.modTiuEng_tones (s : State) (k : Nat) (g : TiuEng → TiuEng) : (s.modTiuEng k g).tones = s.tones := rfl
@[simp] theorem State.setTiuEng_ports (s : State) (k : Nat) (v : TiuEng) : (s.setTiuEng k v).ports = s.ports := rfl
@[simp] theorem State.modTiuEng_ports (s : State) (k : Nat) (g : TiuEng → TiuEng) : (s.modTiuEng k g).ports = s.ports := rfl
@[simp] theorem State.setTiuEng_zch (s : State) (k : Nat) (v : TiuEng) : (s.setTiuEng k v).zch = s.zch := rfl
@[simp] theorem State.modTiuEng_zch (s : State) (k : Nat) (g : TiuEng → TiuEng) : (s.modTiuEng k g).zch = s.zch := rfl
@[simp] theorem State.setTiuEng_zctr (s : State) (k : Nat) (v : TiuEng) : (s.setTiuEng k v).zctr = s.zctr := rfl
@[simp] theorem State.modTiuEng_zctr (s : State) (k : Nat) (g : TiuEng → TiuEng) : (s.modTiuEng k g).zctr = s.zctr := rfl
@[simp] theorem State.setTiuEng_zbanks (s : State) (k : Nat) (v : TiuEng) : (s.setTiuEng k v).zbanks = s.zbanks := rfl
@[simp] theorem State.modTiuEng_zbanks (s : State) (k : Nat) (g : TiuEng → TiuEng) : (s.modTiuEng k g).zbanks = s.zbanks := rfl
@[simp] theorem State.setTiuEng_ro (s : State) (k : Nat) (v : TiuEng) : (s.setTiuEng k v).ro = s.ro := rfl
@[simp] theorem State.modTiuEng_ro (s : State) (k : Nat) (g : TiuEng → TiuEng) : (s.modTiuEng k g).ro = s.ro := rfl
@[simp] theorem State.setTiuEng_stipChains (s : State) (k : Nat) (v : TiuEng) : (s.setTiuEng k v).stipChains = s.stipChains := rfl
@[simp] theorem State.modTiuEng_stipChains (s : State) (k : Nat) (g : TiuEng → TiuEng) : (s.modTiuEng k g).stipChains = s.stipChains := rfl
@[simp] theorem State.setTiuEng_acqPorts (s : State) (k : Nat) (v : TiuEng) : (s.setTiuEng k v).acqPorts = s.acqPorts := rfl
@[simp] theorem State.modTiuEng_acqPorts (s : State) (k : Nat) (g : TiuEng → TiuEng) : (s.modTiuEng k g).acqPorts = s.acqPorts := rfl
@[simp] theorem State.setTiuEng_streams (s : State) (k : Nat) (v : TiuEng) : (s.setTiuEng k v).streams = s.streams := rfl
@[simp] theorem State.modTiuEng_streams (s : State) (k : Nat) (g : TiuEng → TiuEng) : (s.modTiuEng k g).streams = s.streams := rfl
@[simp] theorem State.setTiuEng_epoch (s : State) (k : Nat) (v : TiuEng) : (s.setTiuEng k v).epoch = s.epoch := rfl
@[simp] theorem State.modTiuEng_epoch (s : State) (k : Nat) (g : TiuEng → TiuEng) : (s.modTiuEng k g).epoch = s.epoch := rfl
@[simp] theorem State.setTiuEng_epochPrev (s : State) (k : Nat) (v : TiuEng) : (s.setTiuEng k v).epochPrev = s.epochPrev := rfl
@[simp] theorem State.modTiuEng_epochPrev (s : State) (k : Nat) (g : TiuEng → TiuEng) : (s.modTiuEng k g).epochPrev = s.epochPrev := rfl
@[simp] theorem State.setTiuEng_alignArm (s : State) (k : Nat) (v : TiuEng) : (s.setTiuEng k v).alignArm = s.alignArm := rfl
@[simp] theorem State.modTiuEng_alignArm (s : State) (k : Nat) (g : TiuEng → TiuEng) : (s.modTiuEng k g).alignArm = s.alignArm := rfl
@[simp] theorem State.setTiuEng_chans (s : State) (k : Nat) (v : TiuEng) : (s.setTiuEng k v).chans = s.chans := rfl
@[simp] theorem State.modTiuEng_chans (s : State) (k : Nat) (g : TiuEng → TiuEng) : (s.modTiuEng k g).chans = s.chans := rfl
@[simp] theorem State.setTiuEng_chCtrs (s : State) (k : Nat) (v : TiuEng) : (s.setTiuEng k v).chCtrs = s.chCtrs := rfl
@[simp] theorem State.modTiuEng_chCtrs (s : State) (k : Nat) (g : TiuEng → TiuEng) : (s.modTiuEng k g).chCtrs = s.chCtrs := rfl
@[simp] theorem State.setTiuEng_gates (s : State) (k : Nat) (v : TiuEng) : (s.setTiuEng k v).gates = s.gates := rfl
@[simp] theorem State.modTiuEng_gates (s : State) (k : Nat) (g : TiuEng → TiuEng) : (s.modTiuEng k g).gates = s.gates := rfl
@[simp] theorem State.setTiuEng_gatePend (s : State) (k : Nat) (v : TiuEng) : (s.setTiuEng k v).gatePend = s.gatePend := rfl
@[simp] theorem State.modTiuEng_gatePend (s : State) (k : Nat) (g : TiuEng → TiuEng) : (s.modTiuEng k g).gatePend = s.gatePend := rfl
@[simp] theorem State.setTiuEng_engines (s : State) (k : Nat) (v : TiuEng) : (s.setTiuEng k v).engines = s.engines := rfl
@[simp] theorem State.modTiuEng_engines (s : State) (k : Nat) (g : TiuEng → TiuEng) : (s.modTiuEng k g).engines = s.engines := rfl
@[simp] theorem State.setTiuEng_mark (s : State) (k : Nat) (v : TiuEng) : (s.setTiuEng k v).mark = s.mark := rfl
@[simp] theorem State.modTiuEng_mark (s : State) (k : Nat) (g : TiuEng → TiuEng) : (s.modTiuEng k g).mark = s.mark := rfl
@[simp] theorem State.setTiuEng_stampCh (s : State) (k : Nat) (v : TiuEng) : (s.setTiuEng k v).stampCh = s.stampCh := rfl
@[simp] theorem State.modTiuEng_stampCh (s : State) (k : Nat) (g : TiuEng → TiuEng) : (s.modTiuEng k g).stampCh = s.stampCh := rfl
@[simp] theorem State.setTiuEng_jvl (s : State) (k : Nat) (v : TiuEng) : (s.setTiuEng k v).jvl = s.jvl := rfl
@[simp] theorem State.modTiuEng_jvl (s : State) (k : Nat) (g : TiuEng → TiuEng) : (s.modTiuEng k g).jvl = s.jvl := rfl
@[simp] theorem State.setTiuEng_jvlCtr (s : State) (k : Nat) (v : TiuEng) : (s.setTiuEng k v).jvlCtr = s.jvlCtr := rfl
@[simp] theorem State.modTiuEng_jvlCtr (s : State) (k : Nat) (g : TiuEng → TiuEng) : (s.modTiuEng k g).jvlCtr = s.jvlCtr := rfl
@[simp] theorem State.setTiuEng_timePort (s : State) (k : Nat) (v : TiuEng) : (s.setTiuEng k v).timePort = s.timePort := rfl
@[simp] theorem State.modTiuEng_timePort (s : State) (k : Nat) (g : TiuEng → TiuEng) : (s.modTiuEng k g).timePort = s.timePort := rfl
@[simp] theorem State.setTiuEng_mem (s : State) (k : Nat) (v : TiuEng) : (s.setTiuEng k v).mem = s.mem := rfl
@[simp] theorem State.modTiuEng_mem (s : State) (k : Nat) (g : TiuEng → TiuEng) : (s.modTiuEng k g).mem = s.mem := rfl
@[simp] theorem State.setTiuEng_rings (s : State) (k : Nat) (v : TiuEng) : (s.setTiuEng k v).rings = s.rings := rfl
@[simp] theorem State.modTiuEng_rings (s : State) (k : Nat) (g : TiuEng → TiuEng) : (s.modTiuEng k g).rings = s.rings := rfl
@[simp] theorem State.setTiuEng_domains (s : State) (k : Nat) (v : TiuEng) : (s.setTiuEng k v).domains = s.domains := rfl
@[simp] theorem State.modTiuEng_domains (s : State) (k : Nat) (g : TiuEng → TiuEng) : (s.modTiuEng k g).domains = s.domains := rfl
@[simp] theorem State.setTiuEng_refLog (s : State) (k : Nat) (v : TiuEng) : (s.setTiuEng k v).refLog = s.refLog := rfl
@[simp] theorem State.modTiuEng_refLog (s : State) (k : Nat) (g : TiuEng → TiuEng) : (s.modTiuEng k g).refLog = s.refLog := rfl
@[simp] theorem State.setTiuEng_house (s : State) (k : Nat) (v : TiuEng) : (s.setTiuEng k v).house = s.house := rfl
@[simp] theorem State.modTiuEng_house (s : State) (k : Nat) (g : TiuEng → TiuEng) : (s.modTiuEng k g).house = s.house := rfl
@[simp] theorem State.setTiuEng_calib (s : State) (k : Nat) (v : TiuEng) : (s.setTiuEng k v).calib = s.calib := rfl
@[simp] theorem State.modTiuEng_calib (s : State) (k : Nat) (g : TiuEng → TiuEng) : (s.modTiuEng k g).calib = s.calib := rfl
@[simp] theorem State.setTiuEng_proofs (s : State) (k : Nat) (v : TiuEng) : (s.setTiuEng k v).proofs = s.proofs := rfl
@[simp] theorem State.modTiuEng_proofs (s : State) (k : Nat) (g : TiuEng → TiuEng) : (s.modTiuEng k g).proofs = s.proofs := rfl
@[simp] theorem State.setTiuEng_joins (s : State) (k : Nat) (v : TiuEng) : (s.setTiuEng k v).joins = s.joins := rfl
@[simp] theorem State.modTiuEng_joins (s : State) (k : Nat) (g : TiuEng → TiuEng) : (s.modTiuEng k g).joins = s.joins := rfl
@[simp] theorem State.setTiuEng_promises (s : State) (k : Nat) (v : TiuEng) : (s.setTiuEng k v).promises = s.promises := rfl
@[simp] theorem State.modTiuEng_promises (s : State) (k : Nat) (g : TiuEng → TiuEng) : (s.modTiuEng k g).promises = s.promises := rfl
@[simp] theorem State.setTiuEng_nextId (s : State) (k : Nat) (v : TiuEng) : (s.setTiuEng k v).nextId = s.nextId := rfl
@[simp] theorem State.modTiuEng_nextId (s : State) (k : Nat) (g : TiuEng → TiuEng) : (s.modTiuEng k g).nextId = s.nextId := rfl
@[simp] theorem State.setTiuEng_boot (s : State) (k : Nat) (v : TiuEng) : (s.setTiuEng k v).boot = s.boot := rfl
@[simp] theorem State.modTiuEng_boot (s : State) (k : Nat) (g : TiuEng → TiuEng) : (s.modTiuEng k g).boot = s.boot := rfl
@[simp] theorem State.setTiuEng_patches (s : State) (k : Nat) (v : TiuEng) : (s.setTiuEng k v).patches = s.patches := rfl
@[simp] theorem State.modTiuEng_patches (s : State) (k : Nat) (g : TiuEng → TiuEng) : (s.modTiuEng k g).patches = s.patches := rfl
@[simp] theorem State.setTiuEng_side (s : State) (k : Nat) (v : TiuEng) : (s.setTiuEng k v).side = s.side := rfl
@[simp] theorem State.modTiuEng_side (s : State) (k : Nat) (g : TiuEng → TiuEng) : (s.modTiuEng k g).side = s.side := rfl
@[simp] theorem State.setTiuEng_free (s : State) (k : Nat) (v : TiuEng) : (s.setTiuEng k v).free = s.free := rfl
@[simp] theorem State.modTiuEng_free (s : State) (k : Nat) (g : TiuEng → TiuEng) : (s.modTiuEng k g).free = s.free := rfl
@[simp] theorem State.setJport_pending (s : State) (k : Nat) (v : Jvl) : (s.setJport k v).pending = s.pending := rfl
@[simp] theorem State.modJport_pending (s : State) (k : Nat) (g : Jvl → Jvl) : (s.modJport k g).pending = s.pending := rfl
@[simp] theorem State.setJport_now (s : State) (k : Nat) (v : Jvl) : (s.setJport k v).now = s.now := rfl
@[simp] theorem State.modJport_now (s : State) (k : Nat) (g : Jvl → Jvl) : (s.modJport k g).now = s.now := rfl
@[simp] theorem State.setJport_sys (s : State) (k : Nat) (v : Jvl) : (s.setJport k v).sys = s.sys := rfl
@[simp] theorem State.modJport_sys (s : State) (k : Nat) (g : Jvl → Jvl) : (s.modJport k g).sys = s.sys := rfl
@[simp] theorem State.setJport_time (s : State) (k : Nat) (v : Jvl) : (s.setJport k v).time = s.time := rfl
@[simp] theorem State.modJport_time (s : State) (k : Nat) (g : Jvl → Jvl) : (s.modJport k g).time = s.time := rfl
@[simp] theorem State.setJport_gov (s : State) (k : Nat) (v : Jvl) : (s.setJport k v).gov = s.gov := rfl
@[simp] theorem State.modJport_gov (s : State) (k : Nat) (g : Jvl → Jvl) : (s.modJport k g).gov = s.gov := rfl
@[simp] theorem State.setJport_host (s : State) (k : Nat) (v : Jvl) : (s.setJport k v).host = s.host := rfl
@[simp] theorem State.modJport_host (s : State) (k : Nat) (g : Jvl → Jvl) : (s.modJport k g).host = s.host := rfl
@[simp] theorem State.setJport_out (s : State) (k : Nat) (v : Jvl) : (s.setJport k v).out = s.out := rfl
@[simp] theorem State.modJport_out (s : State) (k : Nat) (g : Jvl → Jvl) : (s.modJport k g).out = s.out := rfl
@[simp] theorem State.setJport_burins (s : State) (k : Nat) (v : Jvl) : (s.setJport k v).burins = s.burins := rfl
@[simp] theorem State.modJport_burins (s : State) (k : Nat) (g : Jvl → Jvl) : (s.modJport k g).burins = s.burins := rfl
@[simp] theorem State.setJport_cells (s : State) (k : Nat) (v : Jvl) : (s.setJport k v).cells = s.cells := rfl
@[simp] theorem State.modJport_cells (s : State) (k : Nat) (g : Jvl → Jvl) : (s.modJport k g).cells = s.cells := rfl
@[simp] theorem State.setJport_plates (s : State) (k : Nat) (v : Jvl) : (s.setJport k v).plates = s.plates := rfl
@[simp] theorem State.modJport_plates (s : State) (k : Nat) (g : Jvl → Jvl) : (s.modJport k g).plates = s.plates := rfl
@[simp] theorem State.setJport_roots (s : State) (k : Nat) (v : Jvl) : (s.setJport k v).roots = s.roots := rfl
@[simp] theorem State.modJport_roots (s : State) (k : Nat) (g : Jvl → Jvl) : (s.modJport k g).roots = s.roots := rfl
@[simp] theorem State.setJport_faults (s : State) (k : Nat) (v : Jvl) : (s.setJport k v).faults = s.faults := rfl
@[simp] theorem State.modJport_faults (s : State) (k : Nat) (g : Jvl → Jvl) : (s.modJport k g).faults = s.faults := rfl
@[simp] theorem State.setJport_devFault (s : State) (k : Nat) (v : Jvl) : (s.setJport k v).devFault = s.devFault := rfl
@[simp] theorem State.modJport_devFault (s : State) (k : Nat) (g : Jvl → Jvl) : (s.modJport k g).devFault = s.devFault := rfl
@[simp] theorem State.setJport_queues (s : State) (k : Nat) (v : Jvl) : (s.setJport k v).queues = s.queues := rfl
@[simp] theorem State.modJport_queues (s : State) (k : Nat) (g : Jvl → Jvl) : (s.modJport k g).queues = s.queues := rfl
@[simp] theorem State.setJport_tones (s : State) (k : Nat) (v : Jvl) : (s.setJport k v).tones = s.tones := rfl
@[simp] theorem State.modJport_tones (s : State) (k : Nat) (g : Jvl → Jvl) : (s.modJport k g).tones = s.tones := rfl
@[simp] theorem State.setJport_ports (s : State) (k : Nat) (v : Jvl) : (s.setJport k v).ports = s.ports := rfl
@[simp] theorem State.modJport_ports (s : State) (k : Nat) (g : Jvl → Jvl) : (s.modJport k g).ports = s.ports := rfl
@[simp] theorem State.setJport_zch (s : State) (k : Nat) (v : Jvl) : (s.setJport k v).zch = s.zch := rfl
@[simp] theorem State.modJport_zch (s : State) (k : Nat) (g : Jvl → Jvl) : (s.modJport k g).zch = s.zch := rfl
@[simp] theorem State.setJport_zctr (s : State) (k : Nat) (v : Jvl) : (s.setJport k v).zctr = s.zctr := rfl
@[simp] theorem State.modJport_zctr (s : State) (k : Nat) (g : Jvl → Jvl) : (s.modJport k g).zctr = s.zctr := rfl
@[simp] theorem State.setJport_zbanks (s : State) (k : Nat) (v : Jvl) : (s.setJport k v).zbanks = s.zbanks := rfl
@[simp] theorem State.modJport_zbanks (s : State) (k : Nat) (g : Jvl → Jvl) : (s.modJport k g).zbanks = s.zbanks := rfl
@[simp] theorem State.setJport_ro (s : State) (k : Nat) (v : Jvl) : (s.setJport k v).ro = s.ro := rfl
@[simp] theorem State.modJport_ro (s : State) (k : Nat) (g : Jvl → Jvl) : (s.modJport k g).ro = s.ro := rfl
@[simp] theorem State.setJport_stipChains (s : State) (k : Nat) (v : Jvl) : (s.setJport k v).stipChains = s.stipChains := rfl
@[simp] theorem State.modJport_stipChains (s : State) (k : Nat) (g : Jvl → Jvl) : (s.modJport k g).stipChains = s.stipChains := rfl
@[simp] theorem State.setJport_acqPorts (s : State) (k : Nat) (v : Jvl) : (s.setJport k v).acqPorts = s.acqPorts := rfl
@[simp] theorem State.modJport_acqPorts (s : State) (k : Nat) (g : Jvl → Jvl) : (s.modJport k g).acqPorts = s.acqPorts := rfl
@[simp] theorem State.setJport_streams (s : State) (k : Nat) (v : Jvl) : (s.setJport k v).streams = s.streams := rfl
@[simp] theorem State.modJport_streams (s : State) (k : Nat) (g : Jvl → Jvl) : (s.modJport k g).streams = s.streams := rfl
@[simp] theorem State.setJport_epoch (s : State) (k : Nat) (v : Jvl) : (s.setJport k v).epoch = s.epoch := rfl
@[simp] theorem State.modJport_epoch (s : State) (k : Nat) (g : Jvl → Jvl) : (s.modJport k g).epoch = s.epoch := rfl
@[simp] theorem State.setJport_epochPrev (s : State) (k : Nat) (v : Jvl) : (s.setJport k v).epochPrev = s.epochPrev := rfl
@[simp] theorem State.modJport_epochPrev (s : State) (k : Nat) (g : Jvl → Jvl) : (s.modJport k g).epochPrev = s.epochPrev := rfl
@[simp] theorem State.setJport_alignArm (s : State) (k : Nat) (v : Jvl) : (s.setJport k v).alignArm = s.alignArm := rfl
@[simp] theorem State.modJport_alignArm (s : State) (k : Nat) (g : Jvl → Jvl) : (s.modJport k g).alignArm = s.alignArm := rfl
@[simp] theorem State.setJport_chans (s : State) (k : Nat) (v : Jvl) : (s.setJport k v).chans = s.chans := rfl
@[simp] theorem State.modJport_chans (s : State) (k : Nat) (g : Jvl → Jvl) : (s.modJport k g).chans = s.chans := rfl
@[simp] theorem State.setJport_chCtrs (s : State) (k : Nat) (v : Jvl) : (s.setJport k v).chCtrs = s.chCtrs := rfl
@[simp] theorem State.modJport_chCtrs (s : State) (k : Nat) (g : Jvl → Jvl) : (s.modJport k g).chCtrs = s.chCtrs := rfl
@[simp] theorem State.setJport_gates (s : State) (k : Nat) (v : Jvl) : (s.setJport k v).gates = s.gates := rfl
@[simp] theorem State.modJport_gates (s : State) (k : Nat) (g : Jvl → Jvl) : (s.modJport k g).gates = s.gates := rfl
@[simp] theorem State.setJport_gatePend (s : State) (k : Nat) (v : Jvl) : (s.setJport k v).gatePend = s.gatePend := rfl
@[simp] theorem State.modJport_gatePend (s : State) (k : Nat) (g : Jvl → Jvl) : (s.modJport k g).gatePend = s.gatePend := rfl
@[simp] theorem State.setJport_engines (s : State) (k : Nat) (v : Jvl) : (s.setJport k v).engines = s.engines := rfl
@[simp] theorem State.modJport_engines (s : State) (k : Nat) (g : Jvl → Jvl) : (s.modJport k g).engines = s.engines := rfl
@[simp] theorem State.setJport_mark (s : State) (k : Nat) (v : Jvl) : (s.setJport k v).mark = s.mark := rfl
@[simp] theorem State.modJport_mark (s : State) (k : Nat) (g : Jvl → Jvl) : (s.modJport k g).mark = s.mark := rfl
@[simp] theorem State.setJport_stampCh (s : State) (k : Nat) (v : Jvl) : (s.setJport k v).stampCh = s.stampCh := rfl
@[simp] theorem State.modJport_stampCh (s : State) (k : Nat) (g : Jvl → Jvl) : (s.modJport k g).stampCh = s.stampCh := rfl
@[simp] theorem State.setJport_tiu (s : State) (k : Nat) (v : Jvl) : (s.setJport k v).tiu = s.tiu := rfl
@[simp] theorem State.modJport_tiu (s : State) (k : Nat) (g : Jvl → Jvl) : (s.modJport k g).tiu = s.tiu := rfl
@[simp] theorem State.setJport_jvlCtr (s : State) (k : Nat) (v : Jvl) : (s.setJport k v).jvlCtr = s.jvlCtr := rfl
@[simp] theorem State.modJport_jvlCtr (s : State) (k : Nat) (g : Jvl → Jvl) : (s.modJport k g).jvlCtr = s.jvlCtr := rfl
@[simp] theorem State.setJport_timePort (s : State) (k : Nat) (v : Jvl) : (s.setJport k v).timePort = s.timePort := rfl
@[simp] theorem State.modJport_timePort (s : State) (k : Nat) (g : Jvl → Jvl) : (s.modJport k g).timePort = s.timePort := rfl
@[simp] theorem State.setJport_mem (s : State) (k : Nat) (v : Jvl) : (s.setJport k v).mem = s.mem := rfl
@[simp] theorem State.modJport_mem (s : State) (k : Nat) (g : Jvl → Jvl) : (s.modJport k g).mem = s.mem := rfl
@[simp] theorem State.setJport_rings (s : State) (k : Nat) (v : Jvl) : (s.setJport k v).rings = s.rings := rfl
@[simp] theorem State.modJport_rings (s : State) (k : Nat) (g : Jvl → Jvl) : (s.modJport k g).rings = s.rings := rfl
@[simp] theorem State.setJport_domains (s : State) (k : Nat) (v : Jvl) : (s.setJport k v).domains = s.domains := rfl
@[simp] theorem State.modJport_domains (s : State) (k : Nat) (g : Jvl → Jvl) : (s.modJport k g).domains = s.domains := rfl
@[simp] theorem State.setJport_refLog (s : State) (k : Nat) (v : Jvl) : (s.setJport k v).refLog = s.refLog := rfl
@[simp] theorem State.modJport_refLog (s : State) (k : Nat) (g : Jvl → Jvl) : (s.modJport k g).refLog = s.refLog := rfl
@[simp] theorem State.setJport_house (s : State) (k : Nat) (v : Jvl) : (s.setJport k v).house = s.house := rfl
@[simp] theorem State.modJport_house (s : State) (k : Nat) (g : Jvl → Jvl) : (s.modJport k g).house = s.house := rfl
@[simp] theorem State.setJport_calib (s : State) (k : Nat) (v : Jvl) : (s.setJport k v).calib = s.calib := rfl
@[simp] theorem State.modJport_calib (s : State) (k : Nat) (g : Jvl → Jvl) : (s.modJport k g).calib = s.calib := rfl
@[simp] theorem State.setJport_proofs (s : State) (k : Nat) (v : Jvl) : (s.setJport k v).proofs = s.proofs := rfl
@[simp] theorem State.modJport_proofs (s : State) (k : Nat) (g : Jvl → Jvl) : (s.modJport k g).proofs = s.proofs := rfl
@[simp] theorem State.setJport_joins (s : State) (k : Nat) (v : Jvl) : (s.setJport k v).joins = s.joins := rfl
@[simp] theorem State.modJport_joins (s : State) (k : Nat) (g : Jvl → Jvl) : (s.modJport k g).joins = s.joins := rfl
@[simp] theorem State.setJport_promises (s : State) (k : Nat) (v : Jvl) : (s.setJport k v).promises = s.promises := rfl
@[simp] theorem State.modJport_promises (s : State) (k : Nat) (g : Jvl → Jvl) : (s.modJport k g).promises = s.promises := rfl
@[simp] theorem State.setJport_nextId (s : State) (k : Nat) (v : Jvl) : (s.setJport k v).nextId = s.nextId := rfl
@[simp] theorem State.modJport_nextId (s : State) (k : Nat) (g : Jvl → Jvl) : (s.modJport k g).nextId = s.nextId := rfl
@[simp] theorem State.setJport_boot (s : State) (k : Nat) (v : Jvl) : (s.setJport k v).boot = s.boot := rfl
@[simp] theorem State.modJport_boot (s : State) (k : Nat) (g : Jvl → Jvl) : (s.modJport k g).boot = s.boot := rfl
@[simp] theorem State.setJport_patches (s : State) (k : Nat) (v : Jvl) : (s.setJport k v).patches = s.patches := rfl
@[simp] theorem State.modJport_patches (s : State) (k : Nat) (g : Jvl → Jvl) : (s.modJport k g).patches = s.patches := rfl
@[simp] theorem State.setJport_side (s : State) (k : Nat) (v : Jvl) : (s.setJport k v).side = s.side := rfl
@[simp] theorem State.modJport_side (s : State) (k : Nat) (g : Jvl → Jvl) : (s.modJport k g).side = s.side := rfl
@[simp] theorem State.setJport_free (s : State) (k : Nat) (v : Jvl) : (s.setJport k v).free = s.free := rfl
@[simp] theorem State.modJport_free (s : State) (k : Nat) (g : Jvl → Jvl) : (s.modJport k g).free = s.free := rfl
@[simp] theorem State.setJctr_pending (s : State) (k : Nat) (v : JvlCtrs) : (s.setJctr k v).pending = s.pending := rfl
@[simp] theorem State.modJctr_pending (s : State) (k : Nat) (g : JvlCtrs → JvlCtrs) : (s.modJctr k g).pending = s.pending := rfl
@[simp] theorem State.setJctr_now (s : State) (k : Nat) (v : JvlCtrs) : (s.setJctr k v).now = s.now := rfl
@[simp] theorem State.modJctr_now (s : State) (k : Nat) (g : JvlCtrs → JvlCtrs) : (s.modJctr k g).now = s.now := rfl
@[simp] theorem State.setJctr_sys (s : State) (k : Nat) (v : JvlCtrs) : (s.setJctr k v).sys = s.sys := rfl
@[simp] theorem State.modJctr_sys (s : State) (k : Nat) (g : JvlCtrs → JvlCtrs) : (s.modJctr k g).sys = s.sys := rfl
@[simp] theorem State.setJctr_time (s : State) (k : Nat) (v : JvlCtrs) : (s.setJctr k v).time = s.time := rfl
@[simp] theorem State.modJctr_time (s : State) (k : Nat) (g : JvlCtrs → JvlCtrs) : (s.modJctr k g).time = s.time := rfl
@[simp] theorem State.setJctr_gov (s : State) (k : Nat) (v : JvlCtrs) : (s.setJctr k v).gov = s.gov := rfl
@[simp] theorem State.modJctr_gov (s : State) (k : Nat) (g : JvlCtrs → JvlCtrs) : (s.modJctr k g).gov = s.gov := rfl
@[simp] theorem State.setJctr_host (s : State) (k : Nat) (v : JvlCtrs) : (s.setJctr k v).host = s.host := rfl
@[simp] theorem State.modJctr_host (s : State) (k : Nat) (g : JvlCtrs → JvlCtrs) : (s.modJctr k g).host = s.host := rfl
@[simp] theorem State.setJctr_out (s : State) (k : Nat) (v : JvlCtrs) : (s.setJctr k v).out = s.out := rfl
@[simp] theorem State.modJctr_out (s : State) (k : Nat) (g : JvlCtrs → JvlCtrs) : (s.modJctr k g).out = s.out := rfl
@[simp] theorem State.setJctr_burins (s : State) (k : Nat) (v : JvlCtrs) : (s.setJctr k v).burins = s.burins := rfl
@[simp] theorem State.modJctr_burins (s : State) (k : Nat) (g : JvlCtrs → JvlCtrs) : (s.modJctr k g).burins = s.burins := rfl
@[simp] theorem State.setJctr_cells (s : State) (k : Nat) (v : JvlCtrs) : (s.setJctr k v).cells = s.cells := rfl
@[simp] theorem State.modJctr_cells (s : State) (k : Nat) (g : JvlCtrs → JvlCtrs) : (s.modJctr k g).cells = s.cells := rfl
@[simp] theorem State.setJctr_plates (s : State) (k : Nat) (v : JvlCtrs) : (s.setJctr k v).plates = s.plates := rfl
@[simp] theorem State.modJctr_plates (s : State) (k : Nat) (g : JvlCtrs → JvlCtrs) : (s.modJctr k g).plates = s.plates := rfl
@[simp] theorem State.setJctr_roots (s : State) (k : Nat) (v : JvlCtrs) : (s.setJctr k v).roots = s.roots := rfl
@[simp] theorem State.modJctr_roots (s : State) (k : Nat) (g : JvlCtrs → JvlCtrs) : (s.modJctr k g).roots = s.roots := rfl
@[simp] theorem State.setJctr_faults (s : State) (k : Nat) (v : JvlCtrs) : (s.setJctr k v).faults = s.faults := rfl
@[simp] theorem State.modJctr_faults (s : State) (k : Nat) (g : JvlCtrs → JvlCtrs) : (s.modJctr k g).faults = s.faults := rfl
@[simp] theorem State.setJctr_devFault (s : State) (k : Nat) (v : JvlCtrs) : (s.setJctr k v).devFault = s.devFault := rfl
@[simp] theorem State.modJctr_devFault (s : State) (k : Nat) (g : JvlCtrs → JvlCtrs) : (s.modJctr k g).devFault = s.devFault := rfl
@[simp] theorem State.setJctr_queues (s : State) (k : Nat) (v : JvlCtrs) : (s.setJctr k v).queues = s.queues := rfl
@[simp] theorem State.modJctr_queues (s : State) (k : Nat) (g : JvlCtrs → JvlCtrs) : (s.modJctr k g).queues = s.queues := rfl
@[simp] theorem State.setJctr_tones (s : State) (k : Nat) (v : JvlCtrs) : (s.setJctr k v).tones = s.tones := rfl
@[simp] theorem State.modJctr_tones (s : State) (k : Nat) (g : JvlCtrs → JvlCtrs) : (s.modJctr k g).tones = s.tones := rfl
@[simp] theorem State.setJctr_ports (s : State) (k : Nat) (v : JvlCtrs) : (s.setJctr k v).ports = s.ports := rfl
@[simp] theorem State.modJctr_ports (s : State) (k : Nat) (g : JvlCtrs → JvlCtrs) : (s.modJctr k g).ports = s.ports := rfl
@[simp] theorem State.setJctr_zch (s : State) (k : Nat) (v : JvlCtrs) : (s.setJctr k v).zch = s.zch := rfl
@[simp] theorem State.modJctr_zch (s : State) (k : Nat) (g : JvlCtrs → JvlCtrs) : (s.modJctr k g).zch = s.zch := rfl
@[simp] theorem State.setJctr_zctr (s : State) (k : Nat) (v : JvlCtrs) : (s.setJctr k v).zctr = s.zctr := rfl
@[simp] theorem State.modJctr_zctr (s : State) (k : Nat) (g : JvlCtrs → JvlCtrs) : (s.modJctr k g).zctr = s.zctr := rfl
@[simp] theorem State.setJctr_zbanks (s : State) (k : Nat) (v : JvlCtrs) : (s.setJctr k v).zbanks = s.zbanks := rfl
@[simp] theorem State.modJctr_zbanks (s : State) (k : Nat) (g : JvlCtrs → JvlCtrs) : (s.modJctr k g).zbanks = s.zbanks := rfl
@[simp] theorem State.setJctr_ro (s : State) (k : Nat) (v : JvlCtrs) : (s.setJctr k v).ro = s.ro := rfl
@[simp] theorem State.modJctr_ro (s : State) (k : Nat) (g : JvlCtrs → JvlCtrs) : (s.modJctr k g).ro = s.ro := rfl
@[simp] theorem State.setJctr_stipChains (s : State) (k : Nat) (v : JvlCtrs) : (s.setJctr k v).stipChains = s.stipChains := rfl
@[simp] theorem State.modJctr_stipChains (s : State) (k : Nat) (g : JvlCtrs → JvlCtrs) : (s.modJctr k g).stipChains = s.stipChains := rfl
@[simp] theorem State.setJctr_acqPorts (s : State) (k : Nat) (v : JvlCtrs) : (s.setJctr k v).acqPorts = s.acqPorts := rfl
@[simp] theorem State.modJctr_acqPorts (s : State) (k : Nat) (g : JvlCtrs → JvlCtrs) : (s.modJctr k g).acqPorts = s.acqPorts := rfl
@[simp] theorem State.setJctr_streams (s : State) (k : Nat) (v : JvlCtrs) : (s.setJctr k v).streams = s.streams := rfl
@[simp] theorem State.modJctr_streams (s : State) (k : Nat) (g : JvlCtrs → JvlCtrs) : (s.modJctr k g).streams = s.streams := rfl
@[simp] theorem State.setJctr_epoch (s : State) (k : Nat) (v : JvlCtrs) : (s.setJctr k v).epoch = s.epoch := rfl
@[simp] theorem State.modJctr_epoch (s : State) (k : Nat) (g : JvlCtrs → JvlCtrs) : (s.modJctr k g).epoch = s.epoch := rfl
@[simp] theorem State.setJctr_epochPrev (s : State) (k : Nat) (v : JvlCtrs) : (s.setJctr k v).epochPrev = s.epochPrev := rfl
@[simp] theorem State.modJctr_epochPrev (s : State) (k : Nat) (g : JvlCtrs → JvlCtrs) : (s.modJctr k g).epochPrev = s.epochPrev := rfl
@[simp] theorem State.setJctr_alignArm (s : State) (k : Nat) (v : JvlCtrs) : (s.setJctr k v).alignArm = s.alignArm := rfl
@[simp] theorem State.modJctr_alignArm (s : State) (k : Nat) (g : JvlCtrs → JvlCtrs) : (s.modJctr k g).alignArm = s.alignArm := rfl
@[simp] theorem State.setJctr_chans (s : State) (k : Nat) (v : JvlCtrs) : (s.setJctr k v).chans = s.chans := rfl
@[simp] theorem State.modJctr_chans (s : State) (k : Nat) (g : JvlCtrs → JvlCtrs) : (s.modJctr k g).chans = s.chans := rfl
@[simp] theorem State.setJctr_chCtrs (s : State) (k : Nat) (v : JvlCtrs) : (s.setJctr k v).chCtrs = s.chCtrs := rfl
@[simp] theorem State.modJctr_chCtrs (s : State) (k : Nat) (g : JvlCtrs → JvlCtrs) : (s.modJctr k g).chCtrs = s.chCtrs := rfl
@[simp] theorem State.setJctr_gates (s : State) (k : Nat) (v : JvlCtrs) : (s.setJctr k v).gates = s.gates := rfl
@[simp] theorem State.modJctr_gates (s : State) (k : Nat) (g : JvlCtrs → JvlCtrs) : (s.modJctr k g).gates = s.gates := rfl
@[simp] theorem State.setJctr_gatePend (s : State) (k : Nat) (v : JvlCtrs) : (s.setJctr k v).gatePend = s.gatePend := rfl
@[simp] theorem State.modJctr_gatePend (s : State) (k : Nat) (g : JvlCtrs → JvlCtrs) : (s.modJctr k g).gatePend = s.gatePend := rfl
@[simp] theorem State.setJctr_engines (s : State) (k : Nat) (v : JvlCtrs) : (s.setJctr k v).engines = s.engines := rfl
@[simp] theorem State.modJctr_engines (s : State) (k : Nat) (g : JvlCtrs → JvlCtrs) : (s.modJctr k g).engines = s.engines := rfl
@[simp] theorem State.setJctr_mark (s : State) (k : Nat) (v : JvlCtrs) : (s.setJctr k v).mark = s.mark := rfl
@[simp] theorem State.modJctr_mark (s : State) (k : Nat) (g : JvlCtrs → JvlCtrs) : (s.modJctr k g).mark = s.mark := rfl
@[simp] theorem State.setJctr_stampCh (s : State) (k : Nat) (v : JvlCtrs) : (s.setJctr k v).stampCh = s.stampCh := rfl
@[simp] theorem State.modJctr_stampCh (s : State) (k : Nat) (g : JvlCtrs → JvlCtrs) : (s.modJctr k g).stampCh = s.stampCh := rfl
@[simp] theorem State.setJctr_tiu (s : State) (k : Nat) (v : JvlCtrs) : (s.setJctr k v).tiu = s.tiu := rfl
@[simp] theorem State.modJctr_tiu (s : State) (k : Nat) (g : JvlCtrs → JvlCtrs) : (s.modJctr k g).tiu = s.tiu := rfl
@[simp] theorem State.setJctr_jvl (s : State) (k : Nat) (v : JvlCtrs) : (s.setJctr k v).jvl = s.jvl := rfl
@[simp] theorem State.modJctr_jvl (s : State) (k : Nat) (g : JvlCtrs → JvlCtrs) : (s.modJctr k g).jvl = s.jvl := rfl
@[simp] theorem State.setJctr_timePort (s : State) (k : Nat) (v : JvlCtrs) : (s.setJctr k v).timePort = s.timePort := rfl
@[simp] theorem State.modJctr_timePort (s : State) (k : Nat) (g : JvlCtrs → JvlCtrs) : (s.modJctr k g).timePort = s.timePort := rfl
@[simp] theorem State.setJctr_mem (s : State) (k : Nat) (v : JvlCtrs) : (s.setJctr k v).mem = s.mem := rfl
@[simp] theorem State.modJctr_mem (s : State) (k : Nat) (g : JvlCtrs → JvlCtrs) : (s.modJctr k g).mem = s.mem := rfl
@[simp] theorem State.setJctr_rings (s : State) (k : Nat) (v : JvlCtrs) : (s.setJctr k v).rings = s.rings := rfl
@[simp] theorem State.modJctr_rings (s : State) (k : Nat) (g : JvlCtrs → JvlCtrs) : (s.modJctr k g).rings = s.rings := rfl
@[simp] theorem State.setJctr_domains (s : State) (k : Nat) (v : JvlCtrs) : (s.setJctr k v).domains = s.domains := rfl
@[simp] theorem State.modJctr_domains (s : State) (k : Nat) (g : JvlCtrs → JvlCtrs) : (s.modJctr k g).domains = s.domains := rfl
@[simp] theorem State.setJctr_refLog (s : State) (k : Nat) (v : JvlCtrs) : (s.setJctr k v).refLog = s.refLog := rfl
@[simp] theorem State.modJctr_refLog (s : State) (k : Nat) (g : JvlCtrs → JvlCtrs) : (s.modJctr k g).refLog = s.refLog := rfl
@[simp] theorem State.setJctr_house (s : State) (k : Nat) (v : JvlCtrs) : (s.setJctr k v).house = s.house := rfl
@[simp] theorem State.modJctr_house (s : State) (k : Nat) (g : JvlCtrs → JvlCtrs) : (s.modJctr k g).house = s.house := rfl
@[simp] theorem State.setJctr_calib (s : State) (k : Nat) (v : JvlCtrs) : (s.setJctr k v).calib = s.calib := rfl
@[simp] theorem State.modJctr_calib (s : State) (k : Nat) (g : JvlCtrs → JvlCtrs) : (s.modJctr k g).calib = s.calib := rfl
@[simp] theorem State.setJctr_proofs (s : State) (k : Nat) (v : JvlCtrs) : (s.setJctr k v).proofs = s.proofs := rfl
@[simp] theorem State.modJctr_proofs (s : State) (k : Nat) (g : JvlCtrs → JvlCtrs) : (s.modJctr k g).proofs = s.proofs := rfl
@[simp] theorem State.setJctr_joins (s : State) (k : Nat) (v : JvlCtrs) : (s.setJctr k v).joins = s.joins := rfl
@[simp] theorem State.modJctr_joins (s : State) (k : Nat) (g : JvlCtrs → JvlCtrs) : (s.modJctr k g).joins = s.joins := rfl
@[simp] theorem State.setJctr_promises (s : State) (k : Nat) (v : JvlCtrs) : (s.setJctr k v).promises = s.promises := rfl
@[simp] theorem State.modJctr_promises (s : State) (k : Nat) (g : JvlCtrs → JvlCtrs) : (s.modJctr k g).promises = s.promises := rfl
@[simp] theorem State.setJctr_nextId (s : State) (k : Nat) (v : JvlCtrs) : (s.setJctr k v).nextId = s.nextId := rfl
@[simp] theorem State.modJctr_nextId (s : State) (k : Nat) (g : JvlCtrs → JvlCtrs) : (s.modJctr k g).nextId = s.nextId := rfl
@[simp] theorem State.setJctr_boot (s : State) (k : Nat) (v : JvlCtrs) : (s.setJctr k v).boot = s.boot := rfl
@[simp] theorem State.modJctr_boot (s : State) (k : Nat) (g : JvlCtrs → JvlCtrs) : (s.modJctr k g).boot = s.boot := rfl
@[simp] theorem State.setJctr_patches (s : State) (k : Nat) (v : JvlCtrs) : (s.setJctr k v).patches = s.patches := rfl
@[simp] theorem State.modJctr_patches (s : State) (k : Nat) (g : JvlCtrs → JvlCtrs) : (s.modJctr k g).patches = s.patches := rfl
@[simp] theorem State.setJctr_side (s : State) (k : Nat) (v : JvlCtrs) : (s.setJctr k v).side = s.side := rfl
@[simp] theorem State.modJctr_side (s : State) (k : Nat) (g : JvlCtrs → JvlCtrs) : (s.modJctr k g).side = s.side := rfl
@[simp] theorem State.setJctr_free (s : State) (k : Nat) (v : JvlCtrs) : (s.setJctr k v).free = s.free := rfl
@[simp] theorem State.modJctr_free (s : State) (k : Nat) (g : JvlCtrs → JvlCtrs) : (s.modJctr k g).free = s.free := rfl
@[simp] theorem State.setRing_pending (s : State) (k : Nat) (v : Ring) : (s.setRing k v).pending = s.pending := rfl
@[simp] theorem State.modRing_pending (s : State) (k : Nat) (g : Ring → Ring) : (s.modRing k g).pending = s.pending := rfl
@[simp] theorem State.setRing_now (s : State) (k : Nat) (v : Ring) : (s.setRing k v).now = s.now := rfl
@[simp] theorem State.modRing_now (s : State) (k : Nat) (g : Ring → Ring) : (s.modRing k g).now = s.now := rfl
@[simp] theorem State.setRing_sys (s : State) (k : Nat) (v : Ring) : (s.setRing k v).sys = s.sys := rfl
@[simp] theorem State.modRing_sys (s : State) (k : Nat) (g : Ring → Ring) : (s.modRing k g).sys = s.sys := rfl
@[simp] theorem State.setRing_time (s : State) (k : Nat) (v : Ring) : (s.setRing k v).time = s.time := rfl
@[simp] theorem State.modRing_time (s : State) (k : Nat) (g : Ring → Ring) : (s.modRing k g).time = s.time := rfl
@[simp] theorem State.setRing_gov (s : State) (k : Nat) (v : Ring) : (s.setRing k v).gov = s.gov := rfl
@[simp] theorem State.modRing_gov (s : State) (k : Nat) (g : Ring → Ring) : (s.modRing k g).gov = s.gov := rfl
@[simp] theorem State.setRing_host (s : State) (k : Nat) (v : Ring) : (s.setRing k v).host = s.host := rfl
@[simp] theorem State.modRing_host (s : State) (k : Nat) (g : Ring → Ring) : (s.modRing k g).host = s.host := rfl
@[simp] theorem State.setRing_out (s : State) (k : Nat) (v : Ring) : (s.setRing k v).out = s.out := rfl
@[simp] theorem State.modRing_out (s : State) (k : Nat) (g : Ring → Ring) : (s.modRing k g).out = s.out := rfl
@[simp] theorem State.setRing_burins (s : State) (k : Nat) (v : Ring) : (s.setRing k v).burins = s.burins := rfl
@[simp] theorem State.modRing_burins (s : State) (k : Nat) (g : Ring → Ring) : (s.modRing k g).burins = s.burins := rfl
@[simp] theorem State.setRing_cells (s : State) (k : Nat) (v : Ring) : (s.setRing k v).cells = s.cells := rfl
@[simp] theorem State.modRing_cells (s : State) (k : Nat) (g : Ring → Ring) : (s.modRing k g).cells = s.cells := rfl
@[simp] theorem State.setRing_plates (s : State) (k : Nat) (v : Ring) : (s.setRing k v).plates = s.plates := rfl
@[simp] theorem State.modRing_plates (s : State) (k : Nat) (g : Ring → Ring) : (s.modRing k g).plates = s.plates := rfl
@[simp] theorem State.setRing_roots (s : State) (k : Nat) (v : Ring) : (s.setRing k v).roots = s.roots := rfl
@[simp] theorem State.modRing_roots (s : State) (k : Nat) (g : Ring → Ring) : (s.modRing k g).roots = s.roots := rfl
@[simp] theorem State.setRing_faults (s : State) (k : Nat) (v : Ring) : (s.setRing k v).faults = s.faults := rfl
@[simp] theorem State.modRing_faults (s : State) (k : Nat) (g : Ring → Ring) : (s.modRing k g).faults = s.faults := rfl
@[simp] theorem State.setRing_devFault (s : State) (k : Nat) (v : Ring) : (s.setRing k v).devFault = s.devFault := rfl
@[simp] theorem State.modRing_devFault (s : State) (k : Nat) (g : Ring → Ring) : (s.modRing k g).devFault = s.devFault := rfl
@[simp] theorem State.setRing_queues (s : State) (k : Nat) (v : Ring) : (s.setRing k v).queues = s.queues := rfl
@[simp] theorem State.modRing_queues (s : State) (k : Nat) (g : Ring → Ring) : (s.modRing k g).queues = s.queues := rfl
@[simp] theorem State.setRing_tones (s : State) (k : Nat) (v : Ring) : (s.setRing k v).tones = s.tones := rfl
@[simp] theorem State.modRing_tones (s : State) (k : Nat) (g : Ring → Ring) : (s.modRing k g).tones = s.tones := rfl
@[simp] theorem State.setRing_ports (s : State) (k : Nat) (v : Ring) : (s.setRing k v).ports = s.ports := rfl
@[simp] theorem State.modRing_ports (s : State) (k : Nat) (g : Ring → Ring) : (s.modRing k g).ports = s.ports := rfl
@[simp] theorem State.setRing_zch (s : State) (k : Nat) (v : Ring) : (s.setRing k v).zch = s.zch := rfl
@[simp] theorem State.modRing_zch (s : State) (k : Nat) (g : Ring → Ring) : (s.modRing k g).zch = s.zch := rfl
@[simp] theorem State.setRing_zctr (s : State) (k : Nat) (v : Ring) : (s.setRing k v).zctr = s.zctr := rfl
@[simp] theorem State.modRing_zctr (s : State) (k : Nat) (g : Ring → Ring) : (s.modRing k g).zctr = s.zctr := rfl
@[simp] theorem State.setRing_zbanks (s : State) (k : Nat) (v : Ring) : (s.setRing k v).zbanks = s.zbanks := rfl
@[simp] theorem State.modRing_zbanks (s : State) (k : Nat) (g : Ring → Ring) : (s.modRing k g).zbanks = s.zbanks := rfl
@[simp] theorem State.setRing_ro (s : State) (k : Nat) (v : Ring) : (s.setRing k v).ro = s.ro := rfl
@[simp] theorem State.modRing_ro (s : State) (k : Nat) (g : Ring → Ring) : (s.modRing k g).ro = s.ro := rfl
@[simp] theorem State.setRing_stipChains (s : State) (k : Nat) (v : Ring) : (s.setRing k v).stipChains = s.stipChains := rfl
@[simp] theorem State.modRing_stipChains (s : State) (k : Nat) (g : Ring → Ring) : (s.modRing k g).stipChains = s.stipChains := rfl
@[simp] theorem State.setRing_acqPorts (s : State) (k : Nat) (v : Ring) : (s.setRing k v).acqPorts = s.acqPorts := rfl
@[simp] theorem State.modRing_acqPorts (s : State) (k : Nat) (g : Ring → Ring) : (s.modRing k g).acqPorts = s.acqPorts := rfl
@[simp] theorem State.setRing_streams (s : State) (k : Nat) (v : Ring) : (s.setRing k v).streams = s.streams := rfl
@[simp] theorem State.modRing_streams (s : State) (k : Nat) (g : Ring → Ring) : (s.modRing k g).streams = s.streams := rfl
@[simp] theorem State.setRing_epoch (s : State) (k : Nat) (v : Ring) : (s.setRing k v).epoch = s.epoch := rfl
@[simp] theorem State.modRing_epoch (s : State) (k : Nat) (g : Ring → Ring) : (s.modRing k g).epoch = s.epoch := rfl
@[simp] theorem State.setRing_epochPrev (s : State) (k : Nat) (v : Ring) : (s.setRing k v).epochPrev = s.epochPrev := rfl
@[simp] theorem State.modRing_epochPrev (s : State) (k : Nat) (g : Ring → Ring) : (s.modRing k g).epochPrev = s.epochPrev := rfl
@[simp] theorem State.setRing_alignArm (s : State) (k : Nat) (v : Ring) : (s.setRing k v).alignArm = s.alignArm := rfl
@[simp] theorem State.modRing_alignArm (s : State) (k : Nat) (g : Ring → Ring) : (s.modRing k g).alignArm = s.alignArm := rfl
@[simp] theorem State.setRing_chans (s : State) (k : Nat) (v : Ring) : (s.setRing k v).chans = s.chans := rfl
@[simp] theorem State.modRing_chans (s : State) (k : Nat) (g : Ring → Ring) : (s.modRing k g).chans = s.chans := rfl
@[simp] theorem State.setRing_chCtrs (s : State) (k : Nat) (v : Ring) : (s.setRing k v).chCtrs = s.chCtrs := rfl
@[simp] theorem State.modRing_chCtrs (s : State) (k : Nat) (g : Ring → Ring) : (s.modRing k g).chCtrs = s.chCtrs := rfl
@[simp] theorem State.setRing_gates (s : State) (k : Nat) (v : Ring) : (s.setRing k v).gates = s.gates := rfl
@[simp] theorem State.modRing_gates (s : State) (k : Nat) (g : Ring → Ring) : (s.modRing k g).gates = s.gates := rfl
@[simp] theorem State.setRing_gatePend (s : State) (k : Nat) (v : Ring) : (s.setRing k v).gatePend = s.gatePend := rfl
@[simp] theorem State.modRing_gatePend (s : State) (k : Nat) (g : Ring → Ring) : (s.modRing k g).gatePend = s.gatePend := rfl
@[simp] theorem State.setRing_engines (s : State) (k : Nat) (v : Ring) : (s.setRing k v).engines = s.engines := rfl
@[simp] theorem State.modRing_engines (s : State) (k : Nat) (g : Ring → Ring) : (s.modRing k g).engines = s.engines := rfl
@[simp] theorem State.setRing_mark (s : State) (k : Nat) (v : Ring) : (s.setRing k v).mark = s.mark := rfl
@[simp] theorem State.modRing_mark (s : State) (k : Nat) (g : Ring → Ring) : (s.modRing k g).mark = s.mark := rfl
@[simp] theorem State.setRing_stampCh (s : State) (k : Nat) (v : Ring) : (s.setRing k v).stampCh = s.stampCh := rfl
@[simp] theorem State.modRing_stampCh (s : State) (k : Nat) (g : Ring → Ring) : (s.modRing k g).stampCh = s.stampCh := rfl
@[simp] theorem State.setRing_tiu (s : State) (k : Nat) (v : Ring) : (s.setRing k v).tiu = s.tiu := rfl
@[simp] theorem State.modRing_tiu (s : State) (k : Nat) (g : Ring → Ring) : (s.modRing k g).tiu = s.tiu := rfl
@[simp] theorem State.setRing_jvl (s : State) (k : Nat) (v : Ring) : (s.setRing k v).jvl = s.jvl := rfl
@[simp] theorem State.modRing_jvl (s : State) (k : Nat) (g : Ring → Ring) : (s.modRing k g).jvl = s.jvl := rfl
@[simp] theorem State.setRing_jvlCtr (s : State) (k : Nat) (v : Ring) : (s.setRing k v).jvlCtr = s.jvlCtr := rfl
@[simp] theorem State.modRing_jvlCtr (s : State) (k : Nat) (g : Ring → Ring) : (s.modRing k g).jvlCtr = s.jvlCtr := rfl
@[simp] theorem State.setRing_timePort (s : State) (k : Nat) (v : Ring) : (s.setRing k v).timePort = s.timePort := rfl
@[simp] theorem State.modRing_timePort (s : State) (k : Nat) (g : Ring → Ring) : (s.modRing k g).timePort = s.timePort := rfl
@[simp] theorem State.setRing_mem (s : State) (k : Nat) (v : Ring) : (s.setRing k v).mem = s.mem := rfl
@[simp] theorem State.modRing_mem (s : State) (k : Nat) (g : Ring → Ring) : (s.modRing k g).mem = s.mem := rfl
@[simp] theorem State.setRing_domains (s : State) (k : Nat) (v : Ring) : (s.setRing k v).domains = s.domains := rfl
@[simp] theorem State.modRing_domains (s : State) (k : Nat) (g : Ring → Ring) : (s.modRing k g).domains = s.domains := rfl
@[simp] theorem State.setRing_refLog (s : State) (k : Nat) (v : Ring) : (s.setRing k v).refLog = s.refLog := rfl
@[simp] theorem State.modRing_refLog (s : State) (k : Nat) (g : Ring → Ring) : (s.modRing k g).refLog = s.refLog := rfl
@[simp] theorem State.setRing_house (s : State) (k : Nat) (v : Ring) : (s.setRing k v).house = s.house := rfl
@[simp] theorem State.modRing_house (s : State) (k : Nat) (g : Ring → Ring) : (s.modRing k g).house = s.house := rfl
@[simp] theorem State.setRing_calib (s : State) (k : Nat) (v : Ring) : (s.setRing k v).calib = s.calib := rfl
@[simp] theorem State.modRing_calib (s : State) (k : Nat) (g : Ring → Ring) : (s.modRing k g).calib = s.calib := rfl
@[simp] theorem State.setRing_proofs (s : State) (k : Nat) (v : Ring) : (s.setRing k v).proofs = s.proofs := rfl
@[simp] theorem State.modRing_proofs (s : State) (k : Nat) (g : Ring → Ring) : (s.modRing k g).proofs = s.proofs := rfl
@[simp] theorem State.setRing_joins (s : State) (k : Nat) (v : Ring) : (s.setRing k v).joins = s.joins := rfl
@[simp] theorem State.modRing_joins (s : State) (k : Nat) (g : Ring → Ring) : (s.modRing k g).joins = s.joins := rfl
@[simp] theorem State.setRing_promises (s : State) (k : Nat) (v : Ring) : (s.setRing k v).promises = s.promises := rfl
@[simp] theorem State.modRing_promises (s : State) (k : Nat) (g : Ring → Ring) : (s.modRing k g).promises = s.promises := rfl
@[simp] theorem State.setRing_nextId (s : State) (k : Nat) (v : Ring) : (s.setRing k v).nextId = s.nextId := rfl
@[simp] theorem State.modRing_nextId (s : State) (k : Nat) (g : Ring → Ring) : (s.modRing k g).nextId = s.nextId := rfl
@[simp] theorem State.setRing_boot (s : State) (k : Nat) (v : Ring) : (s.setRing k v).boot = s.boot := rfl
@[simp] theorem State.modRing_boot (s : State) (k : Nat) (g : Ring → Ring) : (s.modRing k g).boot = s.boot := rfl
@[simp] theorem State.setRing_patches (s : State) (k : Nat) (v : Ring) : (s.setRing k v).patches = s.patches := rfl
@[simp] theorem State.modRing_patches (s : State) (k : Nat) (g : Ring → Ring) : (s.modRing k g).patches = s.patches := rfl
@[simp] theorem State.setRing_side (s : State) (k : Nat) (v : Ring) : (s.setRing k v).side = s.side := rfl
@[simp] theorem State.modRing_side (s : State) (k : Nat) (g : Ring → Ring) : (s.modRing k g).side = s.side := rfl
@[simp] theorem State.setRing_free (s : State) (k : Nat) (v : Ring) : (s.setRing k v).free = s.free := rfl
@[simp] theorem State.modRing_free (s : State) (k : Nat) (g : Ring → Ring) : (s.modRing k g).free = s.free := rfl
@[simp] theorem State.setDom_pending (s : State) (k : Nat) (v : Domain) : (s.setDom k v).pending = s.pending := rfl
@[simp] theorem State.modDom_pending (s : State) (k : Nat) (g : Domain → Domain) : (s.modDom k g).pending = s.pending := rfl
@[simp] theorem State.setDom_now (s : State) (k : Nat) (v : Domain) : (s.setDom k v).now = s.now := rfl
@[simp] theorem State.modDom_now (s : State) (k : Nat) (g : Domain → Domain) : (s.modDom k g).now = s.now := rfl
@[simp] theorem State.setDom_sys (s : State) (k : Nat) (v : Domain) : (s.setDom k v).sys = s.sys := rfl
@[simp] theorem State.modDom_sys (s : State) (k : Nat) (g : Domain → Domain) : (s.modDom k g).sys = s.sys := rfl
@[simp] theorem State.setDom_time (s : State) (k : Nat) (v : Domain) : (s.setDom k v).time = s.time := rfl
@[simp] theorem State.modDom_time (s : State) (k : Nat) (g : Domain → Domain) : (s.modDom k g).time = s.time := rfl
@[simp] theorem State.setDom_gov (s : State) (k : Nat) (v : Domain) : (s.setDom k v).gov = s.gov := rfl
@[simp] theorem State.modDom_gov (s : State) (k : Nat) (g : Domain → Domain) : (s.modDom k g).gov = s.gov := rfl
@[simp] theorem State.setDom_host (s : State) (k : Nat) (v : Domain) : (s.setDom k v).host = s.host := rfl
@[simp] theorem State.modDom_host (s : State) (k : Nat) (g : Domain → Domain) : (s.modDom k g).host = s.host := rfl
@[simp] theorem State.setDom_out (s : State) (k : Nat) (v : Domain) : (s.setDom k v).out = s.out := rfl
@[simp] theorem State.modDom_out (s : State) (k : Nat) (g : Domain → Domain) : (s.modDom k g).out = s.out := rfl
@[simp] theorem State.setDom_burins (s : State) (k : Nat) (v : Domain) : (s.setDom k v).burins = s.burins := rfl
@[simp] theorem State.modDom_burins (s : State) (k : Nat) (g : Domain → Domain) : (s.modDom k g).burins = s.burins := rfl
@[simp] theorem State.setDom_cells (s : State) (k : Nat) (v : Domain) : (s.setDom k v).cells = s.cells := rfl
@[simp] theorem State.modDom_cells (s : State) (k : Nat) (g : Domain → Domain) : (s.modDom k g).cells = s.cells := rfl
@[simp] theorem State.setDom_plates (s : State) (k : Nat) (v : Domain) : (s.setDom k v).plates = s.plates := rfl
@[simp] theorem State.modDom_plates (s : State) (k : Nat) (g : Domain → Domain) : (s.modDom k g).plates = s.plates := rfl
@[simp] theorem State.setDom_roots (s : State) (k : Nat) (v : Domain) : (s.setDom k v).roots = s.roots := rfl
@[simp] theorem State.modDom_roots (s : State) (k : Nat) (g : Domain → Domain) : (s.modDom k g).roots = s.roots := rfl
@[simp] theorem State.setDom_faults (s : State) (k : Nat) (v : Domain) : (s.setDom k v).faults = s.faults := rfl
@[simp] theorem State.modDom_faults (s : State) (k : Nat) (g : Domain → Domain) : (s.modDom k g).faults = s.faults := rfl
@[simp] theorem State.setDom_devFault (s : State) (k : Nat) (v : Domain) : (s.setDom k v).devFault = s.devFault := rfl
@[simp] theorem State.modDom_devFault (s : State) (k : Nat) (g : Domain → Domain) : (s.modDom k g).devFault = s.devFault := rfl
@[simp] theorem State.setDom_queues (s : State) (k : Nat) (v : Domain) : (s.setDom k v).queues = s.queues := rfl
@[simp] theorem State.modDom_queues (s : State) (k : Nat) (g : Domain → Domain) : (s.modDom k g).queues = s.queues := rfl
@[simp] theorem State.setDom_tones (s : State) (k : Nat) (v : Domain) : (s.setDom k v).tones = s.tones := rfl
@[simp] theorem State.modDom_tones (s : State) (k : Nat) (g : Domain → Domain) : (s.modDom k g).tones = s.tones := rfl
@[simp] theorem State.setDom_ports (s : State) (k : Nat) (v : Domain) : (s.setDom k v).ports = s.ports := rfl
@[simp] theorem State.modDom_ports (s : State) (k : Nat) (g : Domain → Domain) : (s.modDom k g).ports = s.ports := rfl
@[simp] theorem State.setDom_zch (s : State) (k : Nat) (v : Domain) : (s.setDom k v).zch = s.zch := rfl
@[simp] theorem State.modDom_zch (s : State) (k : Nat) (g : Domain → Domain) : (s.modDom k g).zch = s.zch := rfl
@[simp] theorem State.setDom_zctr (s : State) (k : Nat) (v : Domain) : (s.setDom k v).zctr = s.zctr := rfl
@[simp] theorem State.modDom_zctr (s : State) (k : Nat) (g : Domain → Domain) : (s.modDom k g).zctr = s.zctr := rfl
@[simp] theorem State.setDom_zbanks (s : State) (k : Nat) (v : Domain) : (s.setDom k v).zbanks = s.zbanks := rfl
@[simp] theorem State.modDom_zbanks (s : State) (k : Nat) (g : Domain → Domain) : (s.modDom k g).zbanks = s.zbanks := rfl
@[simp] theorem State.setDom_ro (s : State) (k : Nat) (v : Domain) : (s.setDom k v).ro = s.ro := rfl
@[simp] theorem State.modDom_ro (s : State) (k : Nat) (g : Domain → Domain) : (s.modDom k g).ro = s.ro := rfl
@[simp] theorem State.setDom_stipChains (s : State) (k : Nat) (v : Domain) : (s.setDom k v).stipChains = s.stipChains := rfl
@[simp] theorem State.modDom_stipChains (s : State) (k : Nat) (g : Domain → Domain) : (s.modDom k g).stipChains = s.stipChains := rfl
@[simp] theorem State.setDom_acqPorts (s : State) (k : Nat) (v : Domain) : (s.setDom k v).acqPorts = s.acqPorts := rfl
@[simp] theorem State.modDom_acqPorts (s : State) (k : Nat) (g : Domain → Domain) : (s.modDom k g).acqPorts = s.acqPorts := rfl
@[simp] theorem State.setDom_streams (s : State) (k : Nat) (v : Domain) : (s.setDom k v).streams = s.streams := rfl
@[simp] theorem State.modDom_streams (s : State) (k : Nat) (g : Domain → Domain) : (s.modDom k g).streams = s.streams := rfl
@[simp] theorem State.setDom_epoch (s : State) (k : Nat) (v : Domain) : (s.setDom k v).epoch = s.epoch := rfl
@[simp] theorem State.modDom_epoch (s : State) (k : Nat) (g : Domain → Domain) : (s.modDom k g).epoch = s.epoch := rfl
@[simp] theorem State.setDom_epochPrev (s : State) (k : Nat) (v : Domain) : (s.setDom k v).epochPrev = s.epochPrev := rfl
@[simp] theorem State.modDom_epochPrev (s : State) (k : Nat) (g : Domain → Domain) : (s.modDom k g).epochPrev = s.epochPrev := rfl
@[simp] theorem State.setDom_alignArm (s : State) (k : Nat) (v : Domain) : (s.setDom k v).alignArm = s.alignArm := rfl
@[simp] theorem State.modDom_alignArm (s : State) (k : Nat) (g : Domain → Domain) : (s.modDom k g).alignArm = s.alignArm := rfl
@[simp] theorem State.setDom_chans (s : State) (k : Nat) (v : Domain) : (s.setDom k v).chans = s.chans := rfl
@[simp] theorem State.modDom_chans (s : State) (k : Nat) (g : Domain → Domain) : (s.modDom k g).chans = s.chans := rfl
@[simp] theorem State.setDom_chCtrs (s : State) (k : Nat) (v : Domain) : (s.setDom k v).chCtrs = s.chCtrs := rfl
@[simp] theorem State.modDom_chCtrs (s : State) (k : Nat) (g : Domain → Domain) : (s.modDom k g).chCtrs = s.chCtrs := rfl
@[simp] theorem State.setDom_gates (s : State) (k : Nat) (v : Domain) : (s.setDom k v).gates = s.gates := rfl
@[simp] theorem State.modDom_gates (s : State) (k : Nat) (g : Domain → Domain) : (s.modDom k g).gates = s.gates := rfl
@[simp] theorem State.setDom_gatePend (s : State) (k : Nat) (v : Domain) : (s.setDom k v).gatePend = s.gatePend := rfl
@[simp] theorem State.modDom_gatePend (s : State) (k : Nat) (g : Domain → Domain) : (s.modDom k g).gatePend = s.gatePend := rfl
@[simp] theorem State.setDom_engines (s : State) (k : Nat) (v : Domain) : (s.setDom k v).engines = s.engines := rfl
@[simp] theorem State.modDom_engines (s : State) (k : Nat) (g : Domain → Domain) : (s.modDom k g).engines = s.engines := rfl
@[simp] theorem State.setDom_mark (s : State) (k : Nat) (v : Domain) : (s.setDom k v).mark = s.mark := rfl
@[simp] theorem State.modDom_mark (s : State) (k : Nat) (g : Domain → Domain) : (s.modDom k g).mark = s.mark := rfl
@[simp] theorem State.setDom_stampCh (s : State) (k : Nat) (v : Domain) : (s.setDom k v).stampCh = s.stampCh := rfl
@[simp] theorem State.modDom_stampCh (s : State) (k : Nat) (g : Domain → Domain) : (s.modDom k g).stampCh = s.stampCh := rfl
@[simp] theorem State.setDom_tiu (s : State) (k : Nat) (v : Domain) : (s.setDom k v).tiu = s.tiu := rfl
@[simp] theorem State.modDom_tiu (s : State) (k : Nat) (g : Domain → Domain) : (s.modDom k g).tiu = s.tiu := rfl
@[simp] theorem State.setDom_jvl (s : State) (k : Nat) (v : Domain) : (s.setDom k v).jvl = s.jvl := rfl
@[simp] theorem State.modDom_jvl (s : State) (k : Nat) (g : Domain → Domain) : (s.modDom k g).jvl = s.jvl := rfl
@[simp] theorem State.setDom_jvlCtr (s : State) (k : Nat) (v : Domain) : (s.setDom k v).jvlCtr = s.jvlCtr := rfl
@[simp] theorem State.modDom_jvlCtr (s : State) (k : Nat) (g : Domain → Domain) : (s.modDom k g).jvlCtr = s.jvlCtr := rfl
@[simp] theorem State.setDom_timePort (s : State) (k : Nat) (v : Domain) : (s.setDom k v).timePort = s.timePort := rfl
@[simp] theorem State.modDom_timePort (s : State) (k : Nat) (g : Domain → Domain) : (s.modDom k g).timePort = s.timePort := rfl
@[simp] theorem State.setDom_mem (s : State) (k : Nat) (v : Domain) : (s.setDom k v).mem = s.mem := rfl
@[simp] theorem State.modDom_mem (s : State) (k : Nat) (g : Domain → Domain) : (s.modDom k g).mem = s.mem := rfl
@[simp] theorem State.setDom_rings (s : State) (k : Nat) (v : Domain) : (s.setDom k v).rings = s.rings := rfl
@[simp] theorem State.modDom_rings (s : State) (k : Nat) (g : Domain → Domain) : (s.modDom k g).rings = s.rings := rfl
@[simp] theorem State.setDom_refLog (s : State) (k : Nat) (v : Domain) : (s.setDom k v).refLog = s.refLog := rfl
@[simp] theorem State.modDom_refLog (s : State) (k : Nat) (g : Domain → Domain) : (s.modDom k g).refLog = s.refLog := rfl
@[simp] theorem State.setDom_house (s : State) (k : Nat) (v : Domain) : (s.setDom k v).house = s.house := rfl
@[simp] theorem State.modDom_house (s : State) (k : Nat) (g : Domain → Domain) : (s.modDom k g).house = s.house := rfl
@[simp] theorem State.setDom_calib (s : State) (k : Nat) (v : Domain) : (s.setDom k v).calib = s.calib := rfl
@[simp] theorem State.modDom_calib (s : State) (k : Nat) (g : Domain → Domain) : (s.modDom k g).calib = s.calib := rfl
@[simp] theorem State.setDom_proofs (s : State) (k : Nat) (v : Domain) : (s.setDom k v).proofs = s.proofs := rfl
@[simp] theorem State.modDom_proofs (s : State) (k : Nat) (g : Domain → Domain) : (s.modDom k g).proofs = s.proofs := rfl
@[simp] theorem State.setDom_joins (s : State) (k : Nat) (v : Domain) : (s.setDom k v).joins = s.joins := rfl
@[simp] theorem State.modDom_joins (s : State) (k : Nat) (g : Domain → Domain) : (s.modDom k g).joins = s.joins := rfl
@[simp] theorem State.setDom_promises (s : State) (k : Nat) (v : Domain) : (s.setDom k v).promises = s.promises := rfl
@[simp] theorem State.modDom_promises (s : State) (k : Nat) (g : Domain → Domain) : (s.modDom k g).promises = s.promises := rfl
@[simp] theorem State.setDom_nextId (s : State) (k : Nat) (v : Domain) : (s.setDom k v).nextId = s.nextId := rfl
@[simp] theorem State.modDom_nextId (s : State) (k : Nat) (g : Domain → Domain) : (s.modDom k g).nextId = s.nextId := rfl
@[simp] theorem State.setDom_boot (s : State) (k : Nat) (v : Domain) : (s.setDom k v).boot = s.boot := rfl
@[simp] theorem State.modDom_boot (s : State) (k : Nat) (g : Domain → Domain) : (s.modDom k g).boot = s.boot := rfl
@[simp] theorem State.setDom_patches (s : State) (k : Nat) (v : Domain) : (s.setDom k v).patches = s.patches := rfl
@[simp] theorem State.modDom_patches (s : State) (k : Nat) (g : Domain → Domain) : (s.modDom k g).patches = s.patches := rfl
@[simp] theorem State.setDom_side (s : State) (k : Nat) (v : Domain) : (s.setDom k v).side = s.side := rfl
@[simp] theorem State.modDom_side (s : State) (k : Nat) (g : Domain → Domain) : (s.modDom k g).side = s.side := rfl
@[simp] theorem State.setDom_free (s : State) (k : Nat) (v : Domain) : (s.setDom k v).free = s.free := rfl
@[simp] theorem State.modDom_free (s : State) (k : Nat) (g : Domain → Domain) : (s.modDom k g).free = s.free := rfl
@[simp] theorem State.setProof_pending (s : State) (k : Nat) (v : ProofRun) : (s.setProof k v).pending = s.pending := rfl
@[simp] theorem State.modProof_pending (s : State) (k : Nat) (g : ProofRun → ProofRun) : (s.modProof k g).pending = s.pending := rfl
@[simp] theorem State.setProof_now (s : State) (k : Nat) (v : ProofRun) : (s.setProof k v).now = s.now := rfl
@[simp] theorem State.modProof_now (s : State) (k : Nat) (g : ProofRun → ProofRun) : (s.modProof k g).now = s.now := rfl
@[simp] theorem State.setProof_sys (s : State) (k : Nat) (v : ProofRun) : (s.setProof k v).sys = s.sys := rfl
@[simp] theorem State.modProof_sys (s : State) (k : Nat) (g : ProofRun → ProofRun) : (s.modProof k g).sys = s.sys := rfl
@[simp] theorem State.setProof_time (s : State) (k : Nat) (v : ProofRun) : (s.setProof k v).time = s.time := rfl
@[simp] theorem State.modProof_time (s : State) (k : Nat) (g : ProofRun → ProofRun) : (s.modProof k g).time = s.time := rfl
@[simp] theorem State.setProof_gov (s : State) (k : Nat) (v : ProofRun) : (s.setProof k v).gov = s.gov := rfl
@[simp] theorem State.modProof_gov (s : State) (k : Nat) (g : ProofRun → ProofRun) : (s.modProof k g).gov = s.gov := rfl
@[simp] theorem State.setProof_host (s : State) (k : Nat) (v : ProofRun) : (s.setProof k v).host = s.host := rfl
@[simp] theorem State.modProof_host (s : State) (k : Nat) (g : ProofRun → ProofRun) : (s.modProof k g).host = s.host := rfl
@[simp] theorem State.setProof_out (s : State) (k : Nat) (v : ProofRun) : (s.setProof k v).out = s.out := rfl
@[simp] theorem State.modProof_out (s : State) (k : Nat) (g : ProofRun → ProofRun) : (s.modProof k g).out = s.out := rfl
@[simp] theorem State.setProof_burins (s : State) (k : Nat) (v : ProofRun) : (s.setProof k v).burins = s.burins := rfl
@[simp] theorem State.modProof_burins (s : State) (k : Nat) (g : ProofRun → ProofRun) : (s.modProof k g).burins = s.burins := rfl
@[simp] theorem State.setProof_cells (s : State) (k : Nat) (v : ProofRun) : (s.setProof k v).cells = s.cells := rfl
@[simp] theorem State.modProof_cells (s : State) (k : Nat) (g : ProofRun → ProofRun) : (s.modProof k g).cells = s.cells := rfl
@[simp] theorem State.setProof_plates (s : State) (k : Nat) (v : ProofRun) : (s.setProof k v).plates = s.plates := rfl
@[simp] theorem State.modProof_plates (s : State) (k : Nat) (g : ProofRun → ProofRun) : (s.modProof k g).plates = s.plates := rfl
@[simp] theorem State.setProof_roots (s : State) (k : Nat) (v : ProofRun) : (s.setProof k v).roots = s.roots := rfl
@[simp] theorem State.modProof_roots (s : State) (k : Nat) (g : ProofRun → ProofRun) : (s.modProof k g).roots = s.roots := rfl
@[simp] theorem State.setProof_faults (s : State) (k : Nat) (v : ProofRun) : (s.setProof k v).faults = s.faults := rfl
@[simp] theorem State.modProof_faults (s : State) (k : Nat) (g : ProofRun → ProofRun) : (s.modProof k g).faults = s.faults := rfl
@[simp] theorem State.setProof_devFault (s : State) (k : Nat) (v : ProofRun) : (s.setProof k v).devFault = s.devFault := rfl
@[simp] theorem State.modProof_devFault (s : State) (k : Nat) (g : ProofRun → ProofRun) : (s.modProof k g).devFault = s.devFault := rfl
@[simp] theorem State.setProof_queues (s : State) (k : Nat) (v : ProofRun) : (s.setProof k v).queues = s.queues := rfl
@[simp] theorem State.modProof_queues (s : State) (k : Nat) (g : ProofRun → ProofRun) : (s.modProof k g).queues = s.queues := rfl
@[simp] theorem State.setProof_tones (s : State) (k : Nat) (v : ProofRun) : (s.setProof k v).tones = s.tones := rfl
@[simp] theorem State.modProof_tones (s : State) (k : Nat) (g : ProofRun → ProofRun) : (s.modProof k g).tones = s.tones := rfl
@[simp] theorem State.setProof_ports (s : State) (k : Nat) (v : ProofRun) : (s.setProof k v).ports = s.ports := rfl
@[simp] theorem State.modProof_ports (s : State) (k : Nat) (g : ProofRun → ProofRun) : (s.modProof k g).ports = s.ports := rfl
@[simp] theorem State.setProof_zch (s : State) (k : Nat) (v : ProofRun) : (s.setProof k v).zch = s.zch := rfl
@[simp] theorem State.modProof_zch (s : State) (k : Nat) (g : ProofRun → ProofRun) : (s.modProof k g).zch = s.zch := rfl
@[simp] theorem State.setProof_zctr (s : State) (k : Nat) (v : ProofRun) : (s.setProof k v).zctr = s.zctr := rfl
@[simp] theorem State.modProof_zctr (s : State) (k : Nat) (g : ProofRun → ProofRun) : (s.modProof k g).zctr = s.zctr := rfl
@[simp] theorem State.setProof_zbanks (s : State) (k : Nat) (v : ProofRun) : (s.setProof k v).zbanks = s.zbanks := rfl
@[simp] theorem State.modProof_zbanks (s : State) (k : Nat) (g : ProofRun → ProofRun) : (s.modProof k g).zbanks = s.zbanks := rfl
@[simp] theorem State.setProof_ro (s : State) (k : Nat) (v : ProofRun) : (s.setProof k v).ro = s.ro := rfl
@[simp] theorem State.modProof_ro (s : State) (k : Nat) (g : ProofRun → ProofRun) : (s.modProof k g).ro = s.ro := rfl
@[simp] theorem State.setProof_stipChains (s : State) (k : Nat) (v : ProofRun) : (s.setProof k v).stipChains = s.stipChains := rfl
@[simp] theorem State.modProof_stipChains (s : State) (k : Nat) (g : ProofRun → ProofRun) : (s.modProof k g).stipChains = s.stipChains := rfl
@[simp] theorem State.setProof_acqPorts (s : State) (k : Nat) (v : ProofRun) : (s.setProof k v).acqPorts = s.acqPorts := rfl
@[simp] theorem State.modProof_acqPorts (s : State) (k : Nat) (g : ProofRun → ProofRun) : (s.modProof k g).acqPorts = s.acqPorts := rfl
@[simp] theorem State.setProof_streams (s : State) (k : Nat) (v : ProofRun) : (s.setProof k v).streams = s.streams := rfl
@[simp] theorem State.modProof_streams (s : State) (k : Nat) (g : ProofRun → ProofRun) : (s.modProof k g).streams = s.streams := rfl
@[simp] theorem State.setProof_epoch (s : State) (k : Nat) (v : ProofRun) : (s.setProof k v).epoch = s.epoch := rfl
@[simp] theorem State.modProof_epoch (s : State) (k : Nat) (g : ProofRun → ProofRun) : (s.modProof k g).epoch = s.epoch := rfl
@[simp] theorem State.setProof_epochPrev (s : State) (k : Nat) (v : ProofRun) : (s.setProof k v).epochPrev = s.epochPrev := rfl
@[simp] theorem State.modProof_epochPrev (s : State) (k : Nat) (g : ProofRun → ProofRun) : (s.modProof k g).epochPrev = s.epochPrev := rfl
@[simp] theorem State.setProof_alignArm (s : State) (k : Nat) (v : ProofRun) : (s.setProof k v).alignArm = s.alignArm := rfl
@[simp] theorem State.modProof_alignArm (s : State) (k : Nat) (g : ProofRun → ProofRun) : (s.modProof k g).alignArm = s.alignArm := rfl
@[simp] theorem State.setProof_chans (s : State) (k : Nat) (v : ProofRun) : (s.setProof k v).chans = s.chans := rfl
@[simp] theorem State.modProof_chans (s : State) (k : Nat) (g : ProofRun → ProofRun) : (s.modProof k g).chans = s.chans := rfl
@[simp] theorem State.setProof_chCtrs (s : State) (k : Nat) (v : ProofRun) : (s.setProof k v).chCtrs = s.chCtrs := rfl
@[simp] theorem State.modProof_chCtrs (s : State) (k : Nat) (g : ProofRun → ProofRun) : (s.modProof k g).chCtrs = s.chCtrs := rfl
@[simp] theorem State.setProof_gates (s : State) (k : Nat) (v : ProofRun) : (s.setProof k v).gates = s.gates := rfl
@[simp] theorem State.modProof_gates (s : State) (k : Nat) (g : ProofRun → ProofRun) : (s.modProof k g).gates = s.gates := rfl
@[simp] theorem State.setProof_gatePend (s : State) (k : Nat) (v : ProofRun) : (s.setProof k v).gatePend = s.gatePend := rfl
@[simp] theorem State.modProof_gatePend (s : State) (k : Nat) (g : ProofRun → ProofRun) : (s.modProof k g).gatePend = s.gatePend := rfl
@[simp] theorem State.setProof_engines (s : State) (k : Nat) (v : ProofRun) : (s.setProof k v).engines = s.engines := rfl
@[simp] theorem State.modProof_engines (s : State) (k : Nat) (g : ProofRun → ProofRun) : (s.modProof k g).engines = s.engines := rfl
@[simp] theorem State.setProof_mark (s : State) (k : Nat) (v : ProofRun) : (s.setProof k v).mark = s.mark := rfl
@[simp] theorem State.modProof_mark (s : State) (k : Nat) (g : ProofRun → ProofRun) : (s.modProof k g).mark = s.mark := rfl
@[simp] theorem State.setProof_stampCh (s : State) (k : Nat) (v : ProofRun) : (s.setProof k v).stampCh = s.stampCh := rfl
@[simp] theorem State.modProof_stampCh (s : State) (k : Nat) (g : ProofRun → ProofRun) : (s.modProof k g).stampCh = s.stampCh := rfl
@[simp] theorem State.setProof_tiu (s : State) (k : Nat) (v : ProofRun) : (s.setProof k v).tiu = s.tiu := rfl
@[simp] theorem State.modProof_tiu (s : State) (k : Nat) (g : ProofRun → ProofRun) : (s.modProof k g).tiu = s.tiu := rfl
@[simp] theorem State.setProof_jvl (s : State) (k : Nat) (v : ProofRun) : (s.setProof k v).jvl = s.jvl := rfl
@[simp] theorem State.modProof_jvl (s : State) (k : Nat) (g : ProofRun → ProofRun) : (s.modProof k g).jvl = s.jvl := rfl
@[simp] theorem State.setProof_jvlCtr (s : State) (k : Nat) (v : ProofRun) : (s.setProof k v).jvlCtr = s.jvlCtr := rfl
@[simp] theorem State.modProof_jvlCtr (s : State) (k : Nat) (g : ProofRun → ProofRun) : (s.modProof k g).jvlCtr = s.jvlCtr := rfl
@[simp] theorem State.setProof_timePort (s : State) (k : Nat) (v : ProofRun) : (s.setProof k v).timePort = s.timePort := rfl
@[simp] theorem State.modProof_timePort (s : State) (k : Nat) (g : ProofRun → ProofRun) : (s.modProof k g).timePort = s.timePort := rfl
@[simp] theorem State.setProof_mem (s : State) (k : Nat) (v : ProofRun) : (s.setProof k v).mem = s.mem := rfl
@[simp] theorem State.modProof_mem (s : State) (k : Nat) (g : ProofRun → ProofRun) : (s.modProof k g).mem = s.mem := rfl
@[simp] theorem State.setProof_rings (s : State) (k : Nat) (v : ProofRun) : (s.setProof k v).rings = s.rings := rfl
@[simp] theorem State.modProof_rings (s : State) (k : Nat) (g : ProofRun → ProofRun) : (s.modProof k g).rings = s.rings := rfl
@[simp] theorem State.setProof_domains (s : State) (k : Nat) (v : ProofRun) : (s.setProof k v).domains = s.domains := rfl
@[simp] theorem State.modProof_domains (s : State) (k : Nat) (g : ProofRun → ProofRun) : (s.modProof k g).domains = s.domains := rfl
@[simp] theorem State.setProof_refLog (s : State) (k : Nat) (v : ProofRun) : (s.setProof k v).refLog = s.refLog := rfl
@[simp] theorem State.modProof_refLog (s : State) (k : Nat) (g : ProofRun → ProofRun) : (s.modProof k g).refLog = s.refLog := rfl
@[simp] theorem State.setProof_house (s : State) (k : Nat) (v : ProofRun) : (s.setProof k v).house = s.house := rfl
@[simp] theorem State.modProof_house (s : State) (k : Nat) (g : ProofRun → ProofRun) : (s.modProof k g).house = s.house := rfl
@[simp] theorem State.setProof_calib (s : State) (k : Nat) (v : ProofRun) : (s.setProof k v).calib = s.calib := rfl
@[simp] theorem State.modProof_calib (s : State) (k : Nat) (g : ProofRun → ProofRun) : (s.modProof k g).calib = s.calib := rfl
@[simp] theorem State.setProof_joins (s : State) (k : Nat) (v : ProofRun) : (s.setProof k v).joins = s.joins := rfl
@[simp] theorem State.modProof_joins (s : State) (k : Nat) (g : ProofRun → ProofRun) : (s.modProof k g).joins = s.joins := rfl
@[simp] theorem State.setProof_promises (s : State) (k : Nat) (v : ProofRun) : (s.setProof k v).promises = s.promises := rfl
@[simp] theorem State.modProof_promises (s : State) (k : Nat) (g : ProofRun → ProofRun) : (s.modProof k g).promises = s.promises := rfl
@[simp] theorem State.setProof_nextId (s : State) (k : Nat) (v : ProofRun) : (s.setProof k v).nextId = s.nextId := rfl
@[simp] theorem State.modProof_nextId (s : State) (k : Nat) (g : ProofRun → ProofRun) : (s.modProof k g).nextId = s.nextId := rfl
@[simp] theorem State.setProof_boot (s : State) (k : Nat) (v : ProofRun) : (s.setProof k v).boot = s.boot := rfl
@[simp] theorem State.modProof_boot (s : State) (k : Nat) (g : ProofRun → ProofRun) : (s.modProof k g).boot = s.boot := rfl
@[simp] theorem State.setProof_patches (s : State) (k : Nat) (v : ProofRun) : (s.setProof k v).patches = s.patches := rfl
@[simp] theorem State.modProof_patches (s : State) (k : Nat) (g : ProofRun → ProofRun) : (s.modProof k g).patches = s.patches := rfl
@[simp] theorem State.setProof_side (s : State) (k : Nat) (v : ProofRun) : (s.setProof k v).side = s.side := rfl
@[simp] theorem State.modProof_side (s : State) (k : Nat) (g : ProofRun → ProofRun) : (s.modProof k g).side = s.side := rfl
@[simp] theorem State.setProof_free (s : State) (k : Nat) (v : ProofRun) : (s.setProof k v).free = s.free := rfl
@[simp] theorem State.modProof_free (s : State) (k : Nat) (g : ProofRun → ProofRun) : (s.modProof k g).free = s.free := rfl
@[simp] theorem State.setSq_pending (s : State) (k : Nat) (v : SQ) : (s.setSq k v).pending = s.pending := rfl
@[simp] theorem State.modSq_pending (s : State) (k : Nat) (g : SQ → SQ) : (s.modSq k g).pending = s.pending := rfl
@[simp] theorem State.setSq_now (s : State) (k : Nat) (v : SQ) : (s.setSq k v).now = s.now := rfl
@[simp] theorem State.modSq_now (s : State) (k : Nat) (g : SQ → SQ) : (s.modSq k g).now = s.now := rfl
@[simp] theorem State.setSq_sys (s : State) (k : Nat) (v : SQ) : (s.setSq k v).sys = s.sys := rfl
@[simp] theorem State.modSq_sys (s : State) (k : Nat) (g : SQ → SQ) : (s.modSq k g).sys = s.sys := rfl
@[simp] theorem State.setSq_time (s : State) (k : Nat) (v : SQ) : (s.setSq k v).time = s.time := rfl
@[simp] theorem State.modSq_time (s : State) (k : Nat) (g : SQ → SQ) : (s.modSq k g).time = s.time := rfl
@[simp] theorem State.setSq_gov (s : State) (k : Nat) (v : SQ) : (s.setSq k v).gov = s.gov := rfl
@[simp] theorem State.modSq_gov (s : State) (k : Nat) (g : SQ → SQ) : (s.modSq k g).gov = s.gov := rfl
@[simp] theorem State.setSq_out (s : State) (k : Nat) (v : SQ) : (s.setSq k v).out = s.out := rfl
@[simp] theorem State.modSq_out (s : State) (k : Nat) (g : SQ → SQ) : (s.modSq k g).out = s.out := rfl
@[simp] theorem State.setSq_burins (s : State) (k : Nat) (v : SQ) : (s.setSq k v).burins = s.burins := rfl
@[simp] theorem State.modSq_burins (s : State) (k : Nat) (g : SQ → SQ) : (s.modSq k g).burins = s.burins := rfl
@[simp] theorem State.setSq_cells (s : State) (k : Nat) (v : SQ) : (s.setSq k v).cells = s.cells := rfl
@[simp] theorem State.modSq_cells (s : State) (k : Nat) (g : SQ → SQ) : (s.modSq k g).cells = s.cells := rfl
@[simp] theorem State.setSq_plates (s : State) (k : Nat) (v : SQ) : (s.setSq k v).plates = s.plates := rfl
@[simp] theorem State.modSq_plates (s : State) (k : Nat) (g : SQ → SQ) : (s.modSq k g).plates = s.plates := rfl
@[simp] theorem State.setSq_roots (s : State) (k : Nat) (v : SQ) : (s.setSq k v).roots = s.roots := rfl
@[simp] theorem State.modSq_roots (s : State) (k : Nat) (g : SQ → SQ) : (s.modSq k g).roots = s.roots := rfl
@[simp] theorem State.setSq_faults (s : State) (k : Nat) (v : SQ) : (s.setSq k v).faults = s.faults := rfl
@[simp] theorem State.modSq_faults (s : State) (k : Nat) (g : SQ → SQ) : (s.modSq k g).faults = s.faults := rfl
@[simp] theorem State.setSq_devFault (s : State) (k : Nat) (v : SQ) : (s.setSq k v).devFault = s.devFault := rfl
@[simp] theorem State.modSq_devFault (s : State) (k : Nat) (g : SQ → SQ) : (s.modSq k g).devFault = s.devFault := rfl
@[simp] theorem State.setSq_queues (s : State) (k : Nat) (v : SQ) : (s.setSq k v).queues = s.queues := rfl
@[simp] theorem State.modSq_queues (s : State) (k : Nat) (g : SQ → SQ) : (s.modSq k g).queues = s.queues := rfl
@[simp] theorem State.setSq_tones (s : State) (k : Nat) (v : SQ) : (s.setSq k v).tones = s.tones := rfl
@[simp] theorem State.modSq_tones (s : State) (k : Nat) (g : SQ → SQ) : (s.modSq k g).tones = s.tones := rfl
@[simp] theorem State.setSq_ports (s : State) (k : Nat) (v : SQ) : (s.setSq k v).ports = s.ports := rfl
@[simp] theorem State.modSq_ports (s : State) (k : Nat) (g : SQ → SQ) : (s.modSq k g).ports = s.ports := rfl
@[simp] theorem State.setSq_zch (s : State) (k : Nat) (v : SQ) : (s.setSq k v).zch = s.zch := rfl
@[simp] theorem State.modSq_zch (s : State) (k : Nat) (g : SQ → SQ) : (s.modSq k g).zch = s.zch := rfl
@[simp] theorem State.setSq_zctr (s : State) (k : Nat) (v : SQ) : (s.setSq k v).zctr = s.zctr := rfl
@[simp] theorem State.modSq_zctr (s : State) (k : Nat) (g : SQ → SQ) : (s.modSq k g).zctr = s.zctr := rfl
@[simp] theorem State.setSq_zbanks (s : State) (k : Nat) (v : SQ) : (s.setSq k v).zbanks = s.zbanks := rfl
@[simp] theorem State.modSq_zbanks (s : State) (k : Nat) (g : SQ → SQ) : (s.modSq k g).zbanks = s.zbanks := rfl
@[simp] theorem State.setSq_ro (s : State) (k : Nat) (v : SQ) : (s.setSq k v).ro = s.ro := rfl
@[simp] theorem State.modSq_ro (s : State) (k : Nat) (g : SQ → SQ) : (s.modSq k g).ro = s.ro := rfl
@[simp] theorem State.setSq_stipChains (s : State) (k : Nat) (v : SQ) : (s.setSq k v).stipChains = s.stipChains := rfl
@[simp] theorem State.modSq_stipChains (s : State) (k : Nat) (g : SQ → SQ) : (s.modSq k g).stipChains = s.stipChains := rfl
@[simp] theorem State.setSq_acqPorts (s : State) (k : Nat) (v : SQ) : (s.setSq k v).acqPorts = s.acqPorts := rfl
@[simp] theorem State.modSq_acqPorts (s : State) (k : Nat) (g : SQ → SQ) : (s.modSq k g).acqPorts = s.acqPorts := rfl
@[simp] theorem State.setSq_streams (s : State) (k : Nat) (v : SQ) : (s.setSq k v).streams = s.streams := rfl
@[simp] theorem State.modSq_streams (s : State) (k : Nat) (g : SQ → SQ) : (s.modSq k g).streams = s.streams := rfl
@[simp] theorem State.setSq_epoch (s : State) (k : Nat) (v : SQ) : (s.setSq k v).epoch = s.epoch := rfl
@[simp] theorem State.modSq_epoch (s : State) (k : Nat) (g : SQ → SQ) : (s.modSq k g).epoch = s.epoch := rfl
@[simp] theorem State.setSq_epochPrev (s : State) (k : Nat) (v : SQ) : (s.setSq k v).epochPrev = s.epochPrev := rfl
@[simp] theorem State.modSq_epochPrev (s : State) (k : Nat) (g : SQ → SQ) : (s.modSq k g).epochPrev = s.epochPrev := rfl
@[simp] theorem State.setSq_alignArm (s : State) (k : Nat) (v : SQ) : (s.setSq k v).alignArm = s.alignArm := rfl
@[simp] theorem State.modSq_alignArm (s : State) (k : Nat) (g : SQ → SQ) : (s.modSq k g).alignArm = s.alignArm := rfl
@[simp] theorem State.setSq_chans (s : State) (k : Nat) (v : SQ) : (s.setSq k v).chans = s.chans := rfl
@[simp] theorem State.modSq_chans (s : State) (k : Nat) (g : SQ → SQ) : (s.modSq k g).chans = s.chans := rfl
@[simp] theorem State.setSq_chCtrs (s : State) (k : Nat) (v : SQ) : (s.setSq k v).chCtrs = s.chCtrs := rfl
@[simp] theorem State.modSq_chCtrs (s : State) (k : Nat) (g : SQ → SQ) : (s.modSq k g).chCtrs = s.chCtrs := rfl
@[simp] theorem State.setSq_gates (s : State) (k : Nat) (v : SQ) : (s.setSq k v).gates = s.gates := rfl
@[simp] theorem State.modSq_gates (s : State) (k : Nat) (g : SQ → SQ) : (s.modSq k g).gates = s.gates := rfl
@[simp] theorem State.setSq_gatePend (s : State) (k : Nat) (v : SQ) : (s.setSq k v).gatePend = s.gatePend := rfl
@[simp] theorem State.modSq_gatePend (s : State) (k : Nat) (g : SQ → SQ) : (s.modSq k g).gatePend = s.gatePend := rfl
@[simp] theorem State.setSq_engines (s : State) (k : Nat) (v : SQ) : (s.setSq k v).engines = s.engines := rfl
@[simp] theorem State.modSq_engines (s : State) (k : Nat) (g : SQ → SQ) : (s.modSq k g).engines = s.engines := rfl
@[simp] theorem State.setSq_mark (s : State) (k : Nat) (v : SQ) : (s.setSq k v).mark = s.mark := rfl
@[simp] theorem State.modSq_mark (s : State) (k : Nat) (g : SQ → SQ) : (s.modSq k g).mark = s.mark := rfl
@[simp] theorem State.setSq_stampCh (s : State) (k : Nat) (v : SQ) : (s.setSq k v).stampCh = s.stampCh := rfl
@[simp] theorem State.modSq_stampCh (s : State) (k : Nat) (g : SQ → SQ) : (s.modSq k g).stampCh = s.stampCh := rfl
@[simp] theorem State.setSq_tiu (s : State) (k : Nat) (v : SQ) : (s.setSq k v).tiu = s.tiu := rfl
@[simp] theorem State.modSq_tiu (s : State) (k : Nat) (g : SQ → SQ) : (s.modSq k g).tiu = s.tiu := rfl
@[simp] theorem State.setSq_jvl (s : State) (k : Nat) (v : SQ) : (s.setSq k v).jvl = s.jvl := rfl
@[simp] theorem State.modSq_jvl (s : State) (k : Nat) (g : SQ → SQ) : (s.modSq k g).jvl = s.jvl := rfl
@[simp] theorem State.setSq_jvlCtr (s : State) (k : Nat) (v : SQ) : (s.setSq k v).jvlCtr = s.jvlCtr := rfl
@[simp] theorem State.modSq_jvlCtr (s : State) (k : Nat) (g : SQ → SQ) : (s.modSq k g).jvlCtr = s.jvlCtr := rfl
@[simp] theorem State.setSq_timePort (s : State) (k : Nat) (v : SQ) : (s.setSq k v).timePort = s.timePort := rfl
@[simp] theorem State.modSq_timePort (s : State) (k : Nat) (g : SQ → SQ) : (s.modSq k g).timePort = s.timePort := rfl
@[simp] theorem State.setSq_mem (s : State) (k : Nat) (v : SQ) : (s.setSq k v).mem = s.mem := rfl
@[simp] theorem State.modSq_mem (s : State) (k : Nat) (g : SQ → SQ) : (s.modSq k g).mem = s.mem := rfl
@[simp] theorem State.setSq_rings (s : State) (k : Nat) (v : SQ) : (s.setSq k v).rings = s.rings := rfl
@[simp] theorem State.modSq_rings (s : State) (k : Nat) (g : SQ → SQ) : (s.modSq k g).rings = s.rings := rfl
@[simp] theorem State.setSq_domains (s : State) (k : Nat) (v : SQ) : (s.setSq k v).domains = s.domains := rfl
@[simp] theorem State.modSq_domains (s : State) (k : Nat) (g : SQ → SQ) : (s.modSq k g).domains = s.domains := rfl
@[simp] theorem State.setSq_refLog (s : State) (k : Nat) (v : SQ) : (s.setSq k v).refLog = s.refLog := rfl
@[simp] theorem State.modSq_refLog (s : State) (k : Nat) (g : SQ → SQ) : (s.modSq k g).refLog = s.refLog := rfl
@[simp] theorem State.setSq_house (s : State) (k : Nat) (v : SQ) : (s.setSq k v).house = s.house := rfl
@[simp] theorem State.modSq_house (s : State) (k : Nat) (g : SQ → SQ) : (s.modSq k g).house = s.house := rfl
@[simp] theorem State.setSq_calib (s : State) (k : Nat) (v : SQ) : (s.setSq k v).calib = s.calib := rfl
@[simp] theorem State.modSq_calib (s : State) (k : Nat) (g : SQ → SQ) : (s.modSq k g).calib = s.calib := rfl
@[simp] theorem State.setSq_proofs (s : State) (k : Nat) (v : SQ) : (s.setSq k v).proofs = s.proofs := rfl
@[simp] theorem State.modSq_proofs (s : State) (k : Nat) (g : SQ → SQ) : (s.modSq k g).proofs = s.proofs := rfl
@[simp] theorem State.setSq_joins (s : State) (k : Nat) (v : SQ) : (s.setSq k v).joins = s.joins := rfl
@[simp] theorem State.modSq_joins (s : State) (k : Nat) (g : SQ → SQ) : (s.modSq k g).joins = s.joins := rfl
@[simp] theorem State.setSq_promises (s : State) (k : Nat) (v : SQ) : (s.setSq k v).promises = s.promises := rfl
@[simp] theorem State.modSq_promises (s : State) (k : Nat) (g : SQ → SQ) : (s.modSq k g).promises = s.promises := rfl
@[simp] theorem State.setSq_nextId (s : State) (k : Nat) (v : SQ) : (s.setSq k v).nextId = s.nextId := rfl
@[simp] theorem State.modSq_nextId (s : State) (k : Nat) (g : SQ → SQ) : (s.modSq k g).nextId = s.nextId := rfl
@[simp] theorem State.setSq_boot (s : State) (k : Nat) (v : SQ) : (s.setSq k v).boot = s.boot := rfl
@[simp] theorem State.modSq_boot (s : State) (k : Nat) (g : SQ → SQ) : (s.modSq k g).boot = s.boot := rfl
@[simp] theorem State.setSq_patches (s : State) (k : Nat) (v : SQ) : (s.setSq k v).patches = s.patches := rfl
@[simp] theorem State.modSq_patches (s : State) (k : Nat) (g : SQ → SQ) : (s.modSq k g).patches = s.patches := rfl
@[simp] theorem State.setSq_side (s : State) (k : Nat) (v : SQ) : (s.setSq k v).side = s.side := rfl
@[simp] theorem State.modSq_side (s : State) (k : Nat) (g : SQ → SQ) : (s.modSq k g).side = s.side := rfl
@[simp] theorem State.setSq_free (s : State) (k : Nat) (v : SQ) : (s.setSq k v).free = s.free := rfl
@[simp] theorem State.modSq_free (s : State) (k : Nat) (g : SQ → SQ) : (s.modSq k g).free = s.free := rfl
@[simp] theorem State.setCq_pending (s : State) (k : Nat) (v : CQ) : (s.setCq k v).pending = s.pending := rfl
@[simp] theorem State.modCq_pending (s : State) (k : Nat) (g : CQ → CQ) : (s.modCq k g).pending = s.pending := rfl
@[simp] theorem State.setCq_now (s : State) (k : Nat) (v : CQ) : (s.setCq k v).now = s.now := rfl
@[simp] theorem State.modCq_now (s : State) (k : Nat) (g : CQ → CQ) : (s.modCq k g).now = s.now := rfl
@[simp] theorem State.setCq_sys (s : State) (k : Nat) (v : CQ) : (s.setCq k v).sys = s.sys := rfl
@[simp] theorem State.modCq_sys (s : State) (k : Nat) (g : CQ → CQ) : (s.modCq k g).sys = s.sys := rfl
@[simp] theorem State.setCq_time (s : State) (k : Nat) (v : CQ) : (s.setCq k v).time = s.time := rfl
@[simp] theorem State.modCq_time (s : State) (k : Nat) (g : CQ → CQ) : (s.modCq k g).time = s.time := rfl
@[simp] theorem State.setCq_gov (s : State) (k : Nat) (v : CQ) : (s.setCq k v).gov = s.gov := rfl
@[simp] theorem State.modCq_gov (s : State) (k : Nat) (g : CQ → CQ) : (s.modCq k g).gov = s.gov := rfl
@[simp] theorem State.setCq_out (s : State) (k : Nat) (v : CQ) : (s.setCq k v).out = s.out := rfl
@[simp] theorem State.modCq_out (s : State) (k : Nat) (g : CQ → CQ) : (s.modCq k g).out = s.out := rfl
@[simp] theorem State.setCq_burins (s : State) (k : Nat) (v : CQ) : (s.setCq k v).burins = s.burins := rfl
@[simp] theorem State.modCq_burins (s : State) (k : Nat) (g : CQ → CQ) : (s.modCq k g).burins = s.burins := rfl
@[simp] theorem State.setCq_cells (s : State) (k : Nat) (v : CQ) : (s.setCq k v).cells = s.cells := rfl
@[simp] theorem State.modCq_cells (s : State) (k : Nat) (g : CQ → CQ) : (s.modCq k g).cells = s.cells := rfl
@[simp] theorem State.setCq_plates (s : State) (k : Nat) (v : CQ) : (s.setCq k v).plates = s.plates := rfl
@[simp] theorem State.modCq_plates (s : State) (k : Nat) (g : CQ → CQ) : (s.modCq k g).plates = s.plates := rfl
@[simp] theorem State.setCq_roots (s : State) (k : Nat) (v : CQ) : (s.setCq k v).roots = s.roots := rfl
@[simp] theorem State.modCq_roots (s : State) (k : Nat) (g : CQ → CQ) : (s.modCq k g).roots = s.roots := rfl
@[simp] theorem State.setCq_faults (s : State) (k : Nat) (v : CQ) : (s.setCq k v).faults = s.faults := rfl
@[simp] theorem State.modCq_faults (s : State) (k : Nat) (g : CQ → CQ) : (s.modCq k g).faults = s.faults := rfl
@[simp] theorem State.setCq_devFault (s : State) (k : Nat) (v : CQ) : (s.setCq k v).devFault = s.devFault := rfl
@[simp] theorem State.modCq_devFault (s : State) (k : Nat) (g : CQ → CQ) : (s.modCq k g).devFault = s.devFault := rfl
@[simp] theorem State.setCq_queues (s : State) (k : Nat) (v : CQ) : (s.setCq k v).queues = s.queues := rfl
@[simp] theorem State.modCq_queues (s : State) (k : Nat) (g : CQ → CQ) : (s.modCq k g).queues = s.queues := rfl
@[simp] theorem State.setCq_tones (s : State) (k : Nat) (v : CQ) : (s.setCq k v).tones = s.tones := rfl
@[simp] theorem State.modCq_tones (s : State) (k : Nat) (g : CQ → CQ) : (s.modCq k g).tones = s.tones := rfl
@[simp] theorem State.setCq_ports (s : State) (k : Nat) (v : CQ) : (s.setCq k v).ports = s.ports := rfl
@[simp] theorem State.modCq_ports (s : State) (k : Nat) (g : CQ → CQ) : (s.modCq k g).ports = s.ports := rfl
@[simp] theorem State.setCq_zch (s : State) (k : Nat) (v : CQ) : (s.setCq k v).zch = s.zch := rfl
@[simp] theorem State.modCq_zch (s : State) (k : Nat) (g : CQ → CQ) : (s.modCq k g).zch = s.zch := rfl
@[simp] theorem State.setCq_zctr (s : State) (k : Nat) (v : CQ) : (s.setCq k v).zctr = s.zctr := rfl
@[simp] theorem State.modCq_zctr (s : State) (k : Nat) (g : CQ → CQ) : (s.modCq k g).zctr = s.zctr := rfl
@[simp] theorem State.setCq_zbanks (s : State) (k : Nat) (v : CQ) : (s.setCq k v).zbanks = s.zbanks := rfl
@[simp] theorem State.modCq_zbanks (s : State) (k : Nat) (g : CQ → CQ) : (s.modCq k g).zbanks = s.zbanks := rfl
@[simp] theorem State.setCq_ro (s : State) (k : Nat) (v : CQ) : (s.setCq k v).ro = s.ro := rfl
@[simp] theorem State.modCq_ro (s : State) (k : Nat) (g : CQ → CQ) : (s.modCq k g).ro = s.ro := rfl
@[simp] theorem State.setCq_stipChains (s : State) (k : Nat) (v : CQ) : (s.setCq k v).stipChains = s.stipChains := rfl
@[simp] theorem State.modCq_stipChains (s : State) (k : Nat) (g : CQ → CQ) : (s.modCq k g).stipChains = s.stipChains := rfl
@[simp] theorem State.setCq_acqPorts (s : State) (k : Nat) (v : CQ) : (s.setCq k v).acqPorts = s.acqPorts := rfl
@[simp] theorem State.modCq_acqPorts (s : State) (k : Nat) (g : CQ → CQ) : (s.modCq k g).acqPorts = s.acqPorts := rfl
@[simp] theorem State.setCq_streams (s : State) (k : Nat) (v : CQ) : (s.setCq k v).streams = s.streams := rfl
@[simp] theorem State.modCq_streams (s : State) (k : Nat) (g : CQ → CQ) : (s.modCq k g).streams = s.streams := rfl
@[simp] theorem State.setCq_epoch (s : State) (k : Nat) (v : CQ) : (s.setCq k v).epoch = s.epoch := rfl
@[simp] theorem State.modCq_epoch (s : State) (k : Nat) (g : CQ → CQ) : (s.modCq k g).epoch = s.epoch := rfl
@[simp] theorem State.setCq_epochPrev (s : State) (k : Nat) (v : CQ) : (s.setCq k v).epochPrev = s.epochPrev := rfl
@[simp] theorem State.modCq_epochPrev (s : State) (k : Nat) (g : CQ → CQ) : (s.modCq k g).epochPrev = s.epochPrev := rfl
@[simp] theorem State.setCq_alignArm (s : State) (k : Nat) (v : CQ) : (s.setCq k v).alignArm = s.alignArm := rfl
@[simp] theorem State.modCq_alignArm (s : State) (k : Nat) (g : CQ → CQ) : (s.modCq k g).alignArm = s.alignArm := rfl
@[simp] theorem State.setCq_chans (s : State) (k : Nat) (v : CQ) : (s.setCq k v).chans = s.chans := rfl
@[simp] theorem State.modCq_chans (s : State) (k : Nat) (g : CQ → CQ) : (s.modCq k g).chans = s.chans := rfl
@[simp] theorem State.setCq_chCtrs (s : State) (k : Nat) (v : CQ) : (s.setCq k v).chCtrs = s.chCtrs := rfl
@[simp] theorem State.modCq_chCtrs (s : State) (k : Nat) (g : CQ → CQ) : (s.modCq k g).chCtrs = s.chCtrs := rfl
@[simp] theorem State.setCq_gates (s : State) (k : Nat) (v : CQ) : (s.setCq k v).gates = s.gates := rfl
@[simp] theorem State.modCq_gates (s : State) (k : Nat) (g : CQ → CQ) : (s.modCq k g).gates = s.gates := rfl
@[simp] theorem State.setCq_gatePend (s : State) (k : Nat) (v : CQ) : (s.setCq k v).gatePend = s.gatePend := rfl
@[simp] theorem State.modCq_gatePend (s : State) (k : Nat) (g : CQ → CQ) : (s.modCq k g).gatePend = s.gatePend := rfl
@[simp] theorem State.setCq_engines (s : State) (k : Nat) (v : CQ) : (s.setCq k v).engines = s.engines := rfl
@[simp] theorem State.modCq_engines (s : State) (k : Nat) (g : CQ → CQ) : (s.modCq k g).engines = s.engines := rfl
@[simp] theorem State.setCq_mark (s : State) (k : Nat) (v : CQ) : (s.setCq k v).mark = s.mark := rfl
@[simp] theorem State.modCq_mark (s : State) (k : Nat) (g : CQ → CQ) : (s.modCq k g).mark = s.mark := rfl
@[simp] theorem State.setCq_stampCh (s : State) (k : Nat) (v : CQ) : (s.setCq k v).stampCh = s.stampCh := rfl
@[simp] theorem State.modCq_stampCh (s : State) (k : Nat) (g : CQ → CQ) : (s.modCq k g).stampCh = s.stampCh := rfl
@[simp] theorem State.setCq_tiu (s : State) (k : Nat) (v : CQ) : (s.setCq k v).tiu = s.tiu := rfl
@[simp] theorem State.modCq_tiu (s : State) (k : Nat) (g : CQ → CQ) : (s.modCq k g).tiu = s.tiu := rfl
@[simp] theorem State.setCq_jvl (s : State) (k : Nat) (v : CQ) : (s.setCq k v).jvl = s.jvl := rfl
@[simp] theorem State.modCq_jvl (s : State) (k : Nat) (g : CQ → CQ) : (s.modCq k g).jvl = s.jvl := rfl
@[simp] theorem State.setCq_jvlCtr (s : State) (k : Nat) (v : CQ) : (s.setCq k v).jvlCtr = s.jvlCtr := rfl
@[simp] theorem State.modCq_jvlCtr (s : State) (k : Nat) (g : CQ → CQ) : (s.modCq k g).jvlCtr = s.jvlCtr := rfl
@[simp] theorem State.setCq_timePort (s : State) (k : Nat) (v : CQ) : (s.setCq k v).timePort = s.timePort := rfl
@[simp] theorem State.modCq_timePort (s : State) (k : Nat) (g : CQ → CQ) : (s.modCq k g).timePort = s.timePort := rfl
@[simp] theorem State.setCq_mem (s : State) (k : Nat) (v : CQ) : (s.setCq k v).mem = s.mem := rfl
@[simp] theorem State.modCq_mem (s : State) (k : Nat) (g : CQ → CQ) : (s.modCq k g).mem = s.mem := rfl
@[simp] theorem State.setCq_rings (s : State) (k : Nat) (v : CQ) : (s.setCq k v).rings = s.rings := rfl
@[simp] theorem State.modCq_rings (s : State) (k : Nat) (g : CQ → CQ) : (s.modCq k g).rings = s.rings := rfl
@[simp] theorem State.setCq_domains (s : State) (k : Nat) (v : CQ) : (s.setCq k v).domains = s.domains := rfl
@[simp] theorem State.modCq_domains (s : State) (k : Nat) (g : CQ → CQ) : (s.modCq k g).domains = s.domains := rfl
@[simp] theorem State.setCq_refLog (s : State) (k : Nat) (v : CQ) : (s.setCq k v).refLog = s.refLog := rfl
@[simp] theorem State.modCq_refLog (s : State) (k : Nat) (g : CQ → CQ) : (s.modCq k g).refLog = s.refLog := rfl
@[simp] theorem State.setCq_house (s : State) (k : Nat) (v : CQ) : (s.setCq k v).house = s.house := rfl
@[simp] theorem State.modCq_house (s : State) (k : Nat) (g : CQ → CQ) : (s.modCq k g).house = s.house := rfl
@[simp] theorem State.setCq_calib (s : State) (k : Nat) (v : CQ) : (s.setCq k v).calib = s.calib := rfl
@[simp] theorem State.modCq_calib (s : State) (k : Nat) (g : CQ → CQ) : (s.modCq k g).calib = s.calib := rfl
@[simp] theorem State.setCq_proofs (s : State) (k : Nat) (v : CQ) : (s.setCq k v).proofs = s.proofs := rfl
@[simp] theorem State.modCq_proofs (s : State) (k : Nat) (g : CQ → CQ) : (s.modCq k g).proofs = s.proofs := rfl
@[simp] theorem State.setCq_joins (s : State) (k : Nat) (v : CQ) : (s.setCq k v).joins = s.joins := rfl
@[simp] theorem State.modCq_joins (s : State) (k : Nat) (g : CQ → CQ) : (s.modCq k g).joins = s.joins := rfl
@[simp] theorem State.setCq_promises (s : State) (k : Nat) (v : CQ) : (s.setCq k v).promises = s.promises := rfl
@[simp] theorem State.modCq_promises (s : State) (k : Nat) (g : CQ → CQ) : (s.modCq k g).promises = s.promises := rfl
@[simp] theorem State.setCq_nextId (s : State) (k : Nat) (v : CQ) : (s.setCq k v).nextId = s.nextId := rfl
@[simp] theorem State.modCq_nextId (s : State) (k : Nat) (g : CQ → CQ) : (s.modCq k g).nextId = s.nextId := rfl
@[simp] theorem State.setCq_boot (s : State) (k : Nat) (v : CQ) : (s.setCq k v).boot = s.boot := rfl
@[simp] theorem State.modCq_boot (s : State) (k : Nat) (g : CQ → CQ) : (s.modCq k g).boot = s.boot := rfl
@[simp] theorem State.setCq_patches (s : State) (k : Nat) (v : CQ) : (s.setCq k v).patches = s.patches := rfl
@[simp] theorem State.modCq_patches (s : State) (k : Nat) (g : CQ → CQ) : (s.modCq k g).patches = s.patches := rfl
@[simp] theorem State.setCq_side (s : State) (k : Nat) (v : CQ) : (s.setCq k v).side = s.side := rfl
@[simp] theorem State.modCq_side (s : State) (k : Nat) (g : CQ → CQ) : (s.modCq k g).side = s.side := rfl
@[simp] theorem State.setCq_free (s : State) (k : Nat) (v : CQ) : (s.setCq k v).free = s.free := rfl
@[simp] theorem State.modCq_free (s : State) (k : Nat) (g : CQ → CQ) : (s.modCq k g).free = s.free := rfl

end Sys2Proof.Machine
end

