-- ==== Sys2Proof/Laws/KeptOps.lean ====
section
/-! SUPPORT. Memory keeps its canonical form and the queue is left alone
(the shared operations: memory, plates and trees, records, hatch, outputs, queues). -/

namespace Sys2Proof.Machine

variable {p : List Instr}

/-- Memory is in canonical form, and the queue of waiting commands is `p`. -/
abbrev Kept (p : List Instr) (s : State) : Prop := Memory.wf s.mem.bytes = true ∧ s.pending = p

/-- The same of the state that an outcome, a microword, an item or a wake request leaves, where it leaves one. -/
abbrev keptOut (p : List Instr) : Host.Outcome State Fault Refusal → Prop
  | .next t => Kept p t
  | _ => True
abbrev keptMicro (p : List Instr) : MicroOut → Prop
  | .go t _ => Kept p t
  | .rest t => Kept p t
  | .bad => True
abbrev keptItem (p : List Instr) : ItemOut → Prop
  | .ok t => Kept p t
  | .no _ _ => True
abbrev keptWake (p : List Instr) : WakeOut → Prop
  | .refused _ t => Kept p t
  | .taken t => Kept p t
  | .ignored => True

theorem foldl_kept {α : Type} : ∀ (f : State → α → State) (l : List α) (s : State),
    (∀ s a, Kept p s → Kept p (f s a)) → Kept p s → Kept p (l.foldl f s) := by
  intro f l
  induction l with
  | nil => intro s _ h; exact h
  | cons a l ih => intro s hf h; exact ih _ hf (hf s a h)

theorem times_kept : ∀ (f : State → State) (n : Nat) (s : State), (∀ s, Kept p s → Kept p (f s)) → Kept p s →
    Kept p (times f n s) := by
  intro f n
  induction n with
  | zero => intro s _ h; exact h
  | succ n ih => intro s hf h; exact ih _ hf (hf s h)

theorem each_kept {α : Type} : ∀ (f : α → State → State) (l : List α) (s : State),
    (∀ a s, Kept p s → Kept p (f a s)) → Kept p s → Kept p (each f l s) := by
  intro f l
  induction l with
  | nil => intro s _ h; exact h
  | cons a l ih => intro s hf h; exact ih _ hf (hf a s h)

theorem ite_kept {c : Prop} {_ : Decidable c} {a b : State} : Kept p a → Kept p b → Kept p (if c then a else b) := by
  intro ha hb
  split <;> assumption

theorem ite_reply {c : Prop} {_ : Decidable c} {a b : Reply} : Kept p a.s → Kept p b.s →
    Kept p (if c then a else b).s := by
  intro ha hb
  split <;> assumption

theorem ite_item {c : Prop} {_ : Decidable c} {a b : ItemOut} : keptItem p a → keptItem p b →
    keptItem p (if c then a else b) := by
  intro ha hb
  split <;> assumption

theorem itemBad_kept : keptItem p itemBad := True.intro

theorem State.setAcqPort_kept : ∀ s x1 x2, Kept p s → Kept p (State.setAcqPort s x1 x2) :=
  fun _ _ _ h => h

theorem State.modAcqPort_kept : ∀ s x1 x2, Kept p s → Kept p (State.modAcqPort s x1 x2) := by
  intros s x1 x2 h
  unfold State.modAcqPort
  repeat' first
    | (with_reducible assumption)
    | intro _
    | (with_reducible apply State.setAcqPort_kept)

theorem State.setBurin_kept : ∀ s x1 x2, Kept p s → Kept p (State.setBurin s x1 x2) :=
  fun _ _ _ h => h

theorem State.modBurin_kept : ∀ s x1 x2, Kept p s → Kept p (State.modBurin s x1 x2) := by
  intros s x1 x2 h
  unfold State.modBurin
  repeat' first
    | (with_reducible assumption)
    | intro _
    | (with_reducible apply State.setBurin_kept)

theorem State.setCell_kept : ∀ s x1 x2, Kept p s → Kept p (State.setCell s x1 x2) :=
  fun _ _ _ h => h

theorem State.modCell_kept : ∀ s x1 x2, Kept p s → Kept p (State.modCell s x1 x2) := by
  intros s x1 x2 h
  unfold State.modCell
  repeat' first
    | (with_reducible assumption)
    | intro _
    | (with_reducible apply State.setCell_kept)

theorem State.setChCtr_kept : ∀ s x1 x2, Kept p s → Kept p (State.setChCtr s x1 x2) :=
  fun _ _ _ h => h

theorem State.modChCtr_kept : ∀ s x1 x2, Kept p s → Kept p (State.modChCtr s x1 x2) := by
  intros s x1 x2 h
  unfold State.modChCtr
  repeat' first
    | (with_reducible assumption)
    | intro _
    | (with_reducible apply State.setChCtr_kept)

theorem State.setChan_kept : ∀ s x1 x2, Kept p s → Kept p (State.setChan s x1 x2) :=
  fun _ _ _ h => h

theorem State.modChan_kept : ∀ s x1 x2, Kept p s → Kept p (State.modChan s x1 x2) := by
  intros s x1 x2 h
  unfold State.modChan
  repeat' first
    | (with_reducible assumption)
    | intro _
    | (with_reducible apply State.setChan_kept)

theorem State.setCq_kept : ∀ s x1 x2, Kept p s → Kept p (State.setCq s x1 x2) :=
  fun _ _ _ h => h

theorem State.modCq_kept : ∀ s x1 x2, Kept p s → Kept p (State.modCq s x1 x2) := by
  intros s x1 x2 h
  unfold State.modCq
  repeat' first
    | (with_reducible assumption)
    | intro _
    | (with_reducible apply State.setCq_kept)

theorem State.setDom_kept : ∀ s x1 x2, Kept p s → Kept p (State.setDom s x1 x2) :=
  fun _ _ _ h => h

theorem State.modDom_kept : ∀ s x1 x2, Kept p s → Kept p (State.modDom s x1 x2) := by
  intros s x1 x2 h
  unfold State.modDom
  repeat' first
    | (with_reducible assumption)
    | intro _
    | (with_reducible apply State.setDom_kept)

theorem State.setEngine_kept : ∀ s x1 x2, Kept p s → Kept p (State.setEngine s x1 x2) :=
  fun _ _ _ h => h

theorem State.modEngine_kept : ∀ s x1 x2, Kept p s → Kept p (State.modEngine s x1 x2) := by
  intros s x1 x2 h
  unfold State.modEngine
  repeat' first
    | (with_reducible assumption)
    | intro _
    | (with_reducible apply State.setEngine_kept)

theorem State.setFault_kept : ∀ s x1 x2, Kept p s → Kept p (State.setFault s x1 x2) :=
  fun _ _ _ h => h

theorem State.modFault_kept : ∀ s x1 x2, Kept p s → Kept p (State.modFault s x1 x2) := by
  intros s x1 x2 h
  unfold State.modFault
  repeat' first
    | (with_reducible assumption)
    | intro _
    | (with_reducible apply State.setFault_kept)

theorem State.setJctr_kept : ∀ s x1 x2, Kept p s → Kept p (State.setJctr s x1 x2) :=
  fun _ _ _ h => h

theorem State.modJctr_kept : ∀ s x1 x2, Kept p s → Kept p (State.modJctr s x1 x2) := by
  intros s x1 x2 h
  unfold State.modJctr
  repeat' first
    | (with_reducible assumption)
    | intro _
    | (with_reducible apply State.setJctr_kept)

theorem State.setJport_kept : ∀ s x1 x2, Kept p s → Kept p (State.setJport s x1 x2) :=
  fun _ _ _ h => h

theorem State.modJport_kept : ∀ s x1 x2, Kept p s → Kept p (State.modJport s x1 x2) := by
  intros s x1 x2 h
  unfold State.modJport
  repeat' first
    | (with_reducible assumption)
    | intro _
    | (with_reducible apply State.setJport_kept)

theorem State.setPlate_kept : ∀ s x1 x2, Kept p s → Kept p (State.setPlate s x1 x2) :=
  fun _ _ _ h => h

theorem State.modPlate_kept : ∀ s x1 x2, Kept p s → Kept p (State.modPlate s x1 x2) := by
  intros s x1 x2 h
  unfold State.modPlate
  repeat' first
    | (with_reducible assumption)
    | intro _
    | (with_reducible apply State.setPlate_kept)

theorem State.setPort_kept : ∀ s x1 x2, Kept p s → Kept p (State.setPort s x1 x2) :=
  fun _ _ _ h => h

theorem State.modPort_kept : ∀ s x1 x2, Kept p s → Kept p (State.modPort s x1 x2) := by
  intros s x1 x2 h
  unfold State.modPort
  repeat' first
    | (with_reducible assumption)
    | intro _
    | (with_reducible apply State.setPort_kept)

theorem State.setProof_kept : ∀ s x1 x2, Kept p s → Kept p (State.setProof s x1 x2) :=
  fun _ _ _ h => h

theorem State.modProof_kept : ∀ s x1 x2, Kept p s → Kept p (State.modProof s x1 x2) := by
  intros s x1 x2 h
  unfold State.modProof
  repeat' first
    | (with_reducible assumption)
    | intro _
    | (with_reducible apply State.setProof_kept)

theorem State.setQueue_kept : ∀ s x1 x2, Kept p s → Kept p (State.setQueue s x1 x2) :=
  fun _ _ _ h => h

theorem State.modQueue_kept : ∀ s x1 x2, Kept p s → Kept p (State.modQueue s x1 x2) := by
  intros s x1 x2 h
  unfold State.modQueue
  repeat' first
    | (with_reducible assumption)
    | intro _
    | (with_reducible apply State.setQueue_kept)

theorem State.setRing_kept : ∀ s x1 x2, Kept p s → Kept p (State.setRing s x1 x2) :=
  fun _ _ _ h => h

theorem State.modRing_kept : ∀ s x1 x2, Kept p s → Kept p (State.modRing s x1 x2) := by
  intros s x1 x2 h
  unfold State.modRing
  repeat' first
    | (with_reducible assumption)
    | intro _
    | (with_reducible apply State.setRing_kept)

theorem State.setRoot_kept : ∀ s x1 x2, Kept p s → Kept p (State.setRoot s x1 x2) :=
  fun _ _ _ h => h

theorem State.modRoot_kept : ∀ s x1 x2, Kept p s → Kept p (State.modRoot s x1 x2) := by
  intros s x1 x2 h
  unfold State.modRoot
  repeat' first
    | (with_reducible assumption)
    | intro _
    | (with_reducible apply State.setRoot_kept)

theorem State.setRot_kept : ∀ s x1 x2, Kept p s → Kept p (State.setRot s x1 x2) :=
  fun _ _ _ h => h

theorem State.modRot_kept : ∀ s x1 x2, Kept p s → Kept p (State.modRot s x1 x2) := by
  intros s x1 x2 h
  unfold State.modRot
  repeat' first
    | (with_reducible assumption)
    | intro _
    | (with_reducible apply State.setRot_kept)

theorem State.setSq_kept : ∀ s x1 x2, Kept p s → Kept p (State.setSq s x1 x2) :=
  fun _ _ _ h => h

theorem State.modSq_kept : ∀ s x1 x2, Kept p s → Kept p (State.modSq s x1 x2) := by
  intros s x1 x2 h
  unfold State.modSq
  repeat' first
    | (with_reducible assumption)
    | intro _
    | (with_reducible apply State.setSq_kept)

theorem State.setStampChan_kept : ∀ s x1 x2, Kept p s → Kept p (State.setStampChan s x1 x2) :=
  fun _ _ _ h => h

theorem State.modStampChan_kept : ∀ s x1 x2, Kept p s → Kept p (State.modStampChan s x1 x2) := by
  intros s x1 x2 h
  unfold State.modStampChan
  repeat' first
    | (with_reducible assumption)
    | intro _
    | (with_reducible apply State.setStampChan_kept)

theorem State.setStipChain_kept : ∀ s x1 x2, Kept p s → Kept p (State.setStipChain s x1 x2) :=
  fun _ _ _ h => h

theorem State.modStipChain_kept : ∀ s x1 x2, Kept p s → Kept p (State.modStipChain s x1 x2) := by
  intros s x1 x2 h
  unfold State.modStipChain
  repeat' first
    | (with_reducible assumption)
    | intro _
    | (with_reducible apply State.setStipChain_kept)

theorem State.setStream_kept : ∀ s x1 x2, Kept p s → Kept p (State.setStream s x1 x2) :=
  fun _ _ _ h => h

theorem State.modStream_kept : ∀ s x1 x2, Kept p s → Kept p (State.modStream s x1 x2) := by
  intros s x1 x2 h
  unfold State.modStream
  repeat' first
    | (with_reducible assumption)
    | intro _
    | (with_reducible apply State.setStream_kept)

theorem State.setTiuEng_kept : ∀ s x1 x2, Kept p s → Kept p (State.setTiuEng s x1 x2) :=
  fun _ _ _ h => h

theorem State.modTiuEng_kept : ∀ s x1 x2, Kept p s → Kept p (State.modTiuEng s x1 x2) := by
  intros s x1 x2 h
  unfold State.modTiuEng
  repeat' first
    | (with_reducible assumption)
    | intro _
    | (with_reducible apply State.setTiuEng_kept)

theorem State.setTone_kept : ∀ s x1 x2, Kept p s → Kept p (State.setTone s x1 x2) :=
  fun _ _ _ h => h

theorem State.modTone_kept : ∀ s x1 x2, Kept p s → Kept p (State.modTone s x1 x2) := by
  intros s x1 x2 h
  unfold State.modTone
  repeat' first
    | (with_reducible assumption)
    | intro _
    | (with_reducible apply State.setTone_kept)

theorem State.setZ_kept : ∀ s x1 x2, Kept p s → Kept p (State.setZ s x1 x2) :=
  fun _ _ _ h => h

theorem State.modZ_kept : ∀ s x1 x2, Kept p s → Kept p (State.modZ s x1 x2) := by
  intros s x1 x2 h
  unfold State.modZ
  repeat' first
    | (with_reducible assumption)
    | intro _
    | (with_reducible apply State.setZ_kept)

theorem State.setZbank_kept : ∀ s x1 x2, Kept p s → Kept p (State.setZbank s x1 x2) :=
  fun _ _ _ h => h

theorem State.modZbank_kept : ∀ s x1 x2, Kept p s → Kept p (State.modZbank s x1 x2) := by
  intros s x1 x2 h
  unfold State.modZbank
  repeat' first
    | (with_reducible assumption)
    | intro _
    | (with_reducible apply State.setZbank_kept)

theorem State.setZc_kept : ∀ s x1 x2, Kept p s → Kept p (State.setZc s x1 x2) :=
  fun _ _ _ h => h

theorem State.modZc_kept : ∀ s x1 x2, Kept p s → Kept p (State.modZc s x1 x2) := by
  intros s x1 x2 h
  unfold State.modZc
  repeat' first
    | (with_reducible assumption)
    | intro _
    | (with_reducible apply State.setZc_kept)

theorem logRefusal_kept : ∀ x0 x1 x2 x3 s, Kept p s → Kept p (logRefusal x0 x1 x2 x3 s) := by
  intros x0 x1 x2 x3 s h
  unfold logRefusal
  repeat' first
    | (with_reducible assumption)
    | intro _
    | (dsimp only)
    | split

theorem raiseVec_kept : ∀ x0 s, Kept p s → Kept p (raiseVec x0 s) := by
  intros x0 s h
  unfold raiseVec
  repeat' first
    | (with_reducible assumption)
    | intro _
    | (dsimp only)
    | split

theorem raiseFault_kept : ∀ s, Kept p s → Kept p (raiseFault s) := by
  intros s h
  unfold raiseFault
  repeat' first
    | (with_reducible assumption)
    | intro _
    | (with_reducible apply raiseVec_kept)
    | (dsimp only)
    | split

theorem raiseWatch_kept : ∀ s, Kept p s → Kept p (raiseWatch s) := by
  intros s h
  unfold raiseWatch
  repeat' first
    | (with_reducible assumption)
    | intro _
    | (with_reducible apply raiseVec_kept)
    | (dsimp only)
    | split

theorem setMode_kept : ∀ x0 s, Kept p s → Kept p (setMode x0 s) := by
  intros x0 s h
  unfold setMode
  repeat' first
    | (with_reducible assumption)
    | intro _
    | (with_reducible apply raiseFault_kept)
    | (dsimp only)
    | split

theorem setSum_kept : ∀ x0 s, Kept p s → Kept p (setSum x0 s) := by
  intros x0 s h
  unfold setSum
  repeat' first
    | (with_reducible assumption)
    | intro _
    | (with_reducible apply raiseFault_kept)
    | (dsimp only)
    | split

theorem followRequest_kept : ∀ x0 x1 x2 s, Kept p s → Kept p (followRequest x0 x1 x2 s) := by
  intros x0 x1 x2 s h
  unfold followRequest
  repeat' first
    | (with_reducible assumption)
    | intro _
    | (dsimp only)
    | split

theorem markUpTo_kept : ∀ x0 s, Kept p s → Kept p (markUpTo x0 s) :=
  fun _ _ h => h

theorem mrkPass_kept : ∀ x0 x1 s, Kept p s → Kept p (mrkPass x0 x1 s) :=
  fun _ _ _ h => h

theorem markCaptured_kept : ∀ x0 x1 s, Kept p s → Kept p (markCaptured x0 x1 s) :=
  fun _ _ _ h => h

theorem noteUe_kept : ∀ x0 s, Kept p s → Kept p (noteUe x0 s) := by
  intros x0 s h
  unfold noteUe
  repeat' first
    | (with_reducible assumption)
    | intro _
    | (with_reducible apply setSum_kept)

theorem putBytes_kept : ∀ (a : Nat) (bs : List Byte) (s : State), Kept p s → Kept p (putBytes a bs s) :=
  fun a bs s h => ⟨twf_tsetRun 0 bs s.mem.bytes a h.1, h.2⟩

theorem putWhole_kept : ∀ x0 x1 s, Kept p s → Kept p (putWhole x0 x1 s) := by
  intros x0 x1 s h
  unfold putWhole
  repeat' first
    | (with_reducible assumption)
    | intro _
    | (with_reducible apply putBytes_kept)

theorem writeGranule_kept : ∀ x0 x1 x2 s, Kept p s → Kept p (writeGranule x0 x1 x2 s) := by
  intros x0 x1 x2 s h
  unfold writeGranule
  repeat' first
    | (with_reducible assumption)
    | intro _
    | (with_reducible apply noteUe_kept)
    | (with_reducible apply putBytes_kept)
    | (dsimp only)
    | split

theorem sendFrame_kept : ∀ x0 x1 x2 s, Kept p s → Kept p (sendFrame x0 x1 x2 s) := by
  intros x0 x1 x2 s h
  unfold sendFrame
  repeat' first
    | (with_reducible assumption)
    | intro _
    | (with_reducible apply State.modJport_kept)
    | (dsimp only)
    | split

theorem sendTo_kept : ∀ x0 x1 x2 s, Kept p s → Kept p (sendTo x0 x1 x2 s) := by
  intros x0 x1 x2 s h
  unfold sendTo
  repeat' first
    | (with_reducible assumption)
    | intro _
    | (with_reducible apply sendFrame_kept)
    | (dsimp only)
    | split

theorem tell_kept : ∀ x0 x1 s, Kept p s → Kept p (tell x0 x1 s) := by
  intros x0 x1 s h
  unfold tell
  repeat' first
    | (with_reducible assumption)
    | intro _
    | (with_reducible apply sendTo_kept)

theorem announcePlate_kept : ∀ x0 s, Kept p s → Kept p (announcePlate x0 s) := by
  intros x0 s h
  unfold announcePlate
  repeat' first
    | (with_reducible assumption)
    | intro _
    | (with_reducible apply tell_kept)
    | (with_reducible apply State.modPlate_kept)
    | (with_reducible apply each_kept)
    | (dsimp only)
    | split

theorem announce_kept : ∀ s, Kept p s → Kept p (announce s) := by
  intros s h
  unfold announce
  repeat' first
    | (with_reducible assumption)
    | intro _
    | (with_reducible apply each_kept)
    | (with_reducible apply announcePlate_kept)

theorem ringPut_kept : ∀ {x0 x1 x2 s} t, ringPut x0 x1 x2 s = some t → Kept p s → Kept p t := by
  intros x0 x1 x2 s t heq h
  unfold ringPut at heq
  repeat' first
    | (with_reducible assumption)
    | contradiction
    | (injection heq with heq; subst heq)
    | intro _
    | (with_reducible apply putWhole_kept)
    | (with_reducible apply State.setRing_kept)
    | (dsimp only)
    | (dsimp only at heq)
    | split at heq

theorem streamWrite_kept : ∀ x0 x1 x2 s, Kept p s → Kept p (streamWrite x0 x1 x2 s) := by
  intros x0 x1 x2 s h
  unfold streamWrite
  repeat' first
    | (with_reducible assumption)
    | intro _
    | (with_reducible apply State.setRoot_kept)
    | (with_reducible refine ringPut_kept _ (by assumption) ?_)
    | (with_reducible apply State.modRoot_kept)
    | (dsimp only)
    | split

theorem flushHeld_kept : ∀ (key n : Nat) (s : State), Kept p s → Kept p (flushHeld key n s) := by
  intro key n
  induction n with
  | zero => intro s h; exact h
  | succ n ih =>
    intro s h
    unfold flushHeld
    repeat' first
      | (with_reducible assumption)
      | (with_reducible apply ih)
      | (with_reducible apply streamWrite_kept)
      | (with_reducible apply State.modRoot_kept)
      | intro _
      | (dsimp only)
      | split

theorem flush_kept : ∀ x0 s, Kept p s → Kept p (flush x0 s) := by
  intros x0 s h
  unfold flush
  repeat' first
    | (with_reducible assumption)
    | intro _
    | (with_reducible apply flushHeld_kept)

theorem post_kept : ∀ x0 x1 x2 s, Kept p s → Kept p (post x0 x1 x2 s) := by
  intros x0 x1 x2 s h
  unfold post
  repeat' first
    | (with_reducible assumption)
    | intro _
    | (with_reducible apply State.modRoot_kept)
    | (with_reducible apply flush_kept)
    | (dsimp only)
    | split

theorem postGap_kept : ∀ x0 x1 x2 x3 s, Kept p s → Kept p (postGap x0 x1 x2 x3 s) := by
  intros x0 x1 x2 x3 s h
  unfold postGap
  repeat' first
    | (with_reducible assumption)
    | intro _
    | (with_reducible apply post_kept)
    | (dsimp only)
    | split

theorem cancelUnstarted_kept : ∀ x0 s, Kept p s → Kept p (cancelUnstarted x0 s) := by
  intros x0 s h
  unfold cancelUnstarted
  repeat' first
    | (with_reducible assumption)
    | intro _
    | (with_reducible apply postGap_kept)
    | (with_reducible apply State.modRoot_kept)

theorem closeBlock_kept : ∀ x0 s, Kept p s → Kept p (closeBlock x0 s) := by
  intros x0 s h
  unfold closeBlock
  repeat' first
    | (with_reducible assumption)
    | intro _
    | (with_reducible refine ringPut_kept _ (by assumption) ?_)
    | (with_reducible apply State.modStream_kept)
    | (dsimp only)
    | split

theorem closeStream_kept : ∀ x0 s, Kept p s → Kept p (closeStream x0 s) := by
  intros x0 s h
  unfold closeStream
  repeat' first
    | (with_reducible assumption)
    | intro _
    | (with_reducible apply State.modStream_kept)
    | (with_reducible apply closeBlock_kept)

theorem consume_kept : ∀ x0 s, Kept p s → Kept p (consume x0 s) := by
  intros x0 s h
  unfold consume
  repeat' first
    | (with_reducible assumption)
    | intro _
    | (with_reducible apply State.modChan_kept)
    | (dsimp only)
    | split

theorem sendHatch_kept : ∀ x0 x1 s, Kept p s → Kept p (sendHatch x0 x1 s) := by
  intros x0 x1 s h
  unfold sendHatch
  repeat' first
    | (with_reducible assumption)
    | intro _
    | (with_reducible apply sendFrame_kept)
    | (with_reducible apply sendTo_kept)
    | (dsimp only)
    | split

theorem creditFrames_kept : ∀ x0 x1 s, Kept p s → Kept p (creditFrames x0 x1 s) := by
  intros x0 x1 s h
  unfold creditFrames
  repeat' first
    | (with_reducible assumption)
    | intro _
    | (with_reducible apply times_kept)
    | (with_reducible apply sendHatch_kept)
    | (dsimp only)
    | split

theorem returnCredits_kept : ∀ x0 x1 s, Kept p s → Kept p (returnCredits x0 x1 s) := by
  intros x0 x1 s h
  unfold returnCredits
  repeat' first
    | (with_reducible assumption)
    | intro _
    | (with_reducible apply creditFrames_kept)
    | (with_reducible apply State.setChan_kept)
    | (dsimp only)
    | split

theorem flushEnds_kept : ∀ x0 x1 s, Kept p s → Kept p (flushEnds x0 x1 s) := by
  intros x0 x1 s h
  unfold flushEnds
  repeat' first
    | (with_reducible assumption)
    | intro _
    | (with_reducible apply each_kept)
    | (with_reducible apply foldl_kept)
    | (with_reducible apply returnCredits_kept)
    | (with_reducible apply State.modChCtr_kept)
    | (with_reducible apply State.setChan_kept)
    | (dsimp only)
    | split

theorem inject_kept : ∀ x0 x1 x2 s, Kept p s → Kept p (inject x0 x1 x2 s) := by
  intros x0 x1 x2 s h
  unfold inject
  repeat' first
    | (with_reducible assumption)
    | intro _
    | (with_reducible apply State.setChan_kept)
    | (with_reducible apply State.modChCtr_kept)
    | (dsimp only)
    | split

theorem raiseEp_kept : ∀ x0 s, Kept p s → Kept p (raiseEp x0 s) := by
  intros x0 s h
  unfold raiseEp
  repeat' first
    | (with_reducible assumption)
    | intro _
    | (with_reducible apply inject_kept)
    | (dsimp only)
    | split

theorem sendEp_kept : ∀ x0 x1 s, Kept p s → Kept p (sendEp x0 x1 s) := by
  intros x0 x1 s h
  unfold sendEp
  repeat' first
    | (with_reducible assumption)
    | intro _
    | (with_reducible apply State.modChCtr_kept)
    | (with_reducible apply inject_kept)
    | (with_reducible apply State.modChan_kept)
    | (dsimp only)
    | split

theorem takeArrival_kept : ∀ x0 s, Kept p s → Kept p (takeArrival x0 s) := by
  intros x0 s h
  unfold takeArrival
  repeat' first
    | (with_reducible assumption)
    | intro _
    | (with_reducible apply returnCredits_kept)
    | (with_reducible apply State.modChan_kept)
    | (dsimp only)
    | split

theorem watch_kept : ∀ x0 s, Kept p s → Kept p (watch x0 s) := by
  intros x0 s h
  unfold watch
  repeat' first
    | (with_reducible assumption)
    | intro _
    | (with_reducible apply raiseWatch_kept)
    | (with_reducible apply State.setChan_kept)
    | (dsimp only)
    | split

theorem discardQueue_kept : ∀ x0 s, Kept p s → Kept p (discardQueue x0 s) := by
  intros x0 s h
  unfold discardQueue
  repeat' first
    | (with_reducible assumption)
    | intro _
    | (with_reducible apply State.modQueue_kept)

theorem drainPort_kept : ∀ x0 s, Kept p s → Kept p (drainPort x0 s) := by
  intros x0 s h
  unfold drainPort
  repeat' first
    | (with_reducible assumption)
    | intro _
    | (with_reducible apply State.modPort_kept)
    | (dsimp only)
    | split

theorem drainZ_kept : ∀ x0 s, Kept p s → Kept p (drainZ x0 s) := by
  intros x0 s h
  unfold drainZ
  repeat' first
    | (with_reducible assumption)
    | intro _
    | (with_reducible apply State.modZbank_kept)
    | (dsimp only)
    | split

theorem elemsRoot_kept : ∀ x0 s, Kept p s → Kept p (elemsRoot x0 s) :=
  fun _ _ h => h

theorem elemsSafe_kept : ∀ s, Kept p s → Kept p (elemsSafe s) :=
  fun _ h => h

theorem endFastAt_kept : ∀ x0 x1 s, Kept p s → Kept p (endFastAt x0 x1 s) := by
  intros x0 x1 s h
  unfold endFastAt
  repeat' first
    | (with_reducible assumption)
    | intro _
    | (with_reducible apply drainZ_kept)
    | (with_reducible apply State.modZ_kept)

theorem endFast_kept : ∀ x0 s, Kept p s → Kept p (endFast x0 s) := by
  intros x0 s h
  unfold endFast
  repeat' first
    | (with_reducible assumption)
    | intro _
    | (with_reducible apply endFastAt_kept)

theorem endPlay_kept : ∀ x0 s, Kept p s → Kept p (endPlay x0 s) := by
  intros x0 s h
  unfold endPlay
  repeat' first
    | (with_reducible assumption)
    | intro _
    | (with_reducible apply State.modPort_kept)
    | (with_reducible apply drainPort_kept)
    | (with_reducible apply State.setTone_kept)
    | (dsimp only)
    | split

theorem fixSwaps_kept : ∀ x0 x1 x2 s, Kept p s → Kept p (fixSwaps x0 x1 x2 s) :=
  fun _ _ _ _ h => h

theorem flagShared_kept : ∀ x0 x1 s, Kept p s → Kept p (flagShared x0 x1 s) := by
  intros x0 x1 s h
  unfold flagShared
  repeat' first
    | (with_reducible assumption)
    | intro _
    | (with_reducible apply State.modPort_kept)
    | (dsimp only)
    | split

theorem followEnd_kept : ∀ x0 s, Kept p s → Kept p (followEnd x0 s) :=
  fun _ _ h => h

theorem genIdle_kept : ∀ s, Kept p s → Kept p (genIdle s) := by
  intros s h
  unfold genIdle
  repeat' first
    | (with_reducible assumption)
    | intro _
    | (with_reducible apply markUpTo_kept)

theorem injectDom_kept : ∀ x0 s, Kept p s → Kept p (injectDom x0 s) := by
  intros x0 s h
  unfold injectDom
  repeat' first
    | (with_reducible assumption)
    | intro _
    | (dsimp only)
    | split

theorem injectSafe_kept : ∀ s, Kept p s → Kept p (injectSafe s) :=
  fun _ h => h

theorem patternIdle_kept : ∀ s, Kept p s → Kept p (patternIdle s) :=
  fun _ h => h

theorem markRoot_kept : ∀ x0 x1 s, Kept p s → Kept p (markRoot x0 x1 s) := by
  intros x0 x1 s h
  unfold markRoot
  repeat' first
    | (with_reducible assumption)
    | intro _
    | (with_reducible apply followEnd_kept)
    | (with_reducible apply patternIdle_kept)
    | (with_reducible apply genIdle_kept)
    | (dsimp only)
    | split

theorem markSafe_kept : ∀ s, Kept p s → Kept p (markSafe s) := by
  intros s h
  unfold markSafe
  repeat' first
    | (with_reducible assumption)
    | intro _
    | (with_reducible apply genIdle_kept)

theorem mute_kept : ∀ x0 s, Kept p s → Kept p (mute x0 s) := by
  intros x0 s h
  unfold mute
  repeat' first
    | (with_reducible assumption)
    | intro _
    | (with_reducible apply State.modPort_kept)

theorem safeTone_kept : ∀ x0 s, Kept p s → Kept p (safeTone x0 s) := by
  intros x0 s h
  unfold safeTone
  repeat' first
    | (with_reducible assumption)
    | intro _
    | (with_reducible apply discardQueue_kept)
    | (with_reducible apply endPlay_kept)
    | (with_reducible apply mute_kept)

theorem zLoadAt_kept : ∀ x0 x1 x2 s, Kept p s → Kept p (zLoadAt x0 x1 x2 s) := by
  intros x0 x1 x2 s h
  unfold zLoadAt
  repeat' first
    | (with_reducible assumption)
    | intro _
    | (with_reducible apply State.modZ_kept)

theorem zLoad_kept : ∀ x0 x1 s, Kept p s → Kept p (zLoad x0 x1 s) := by
  intros x0 x1 s h
  unfold zLoad
  repeat' first
    | (with_reducible assumption)
    | intro _
    | (with_reducible apply zLoadAt_kept)

theorem zSafe_kept : ∀ x0 s, Kept p s → Kept p (zSafe x0 s) := by
  intros x0 s h
  unfold zSafe
  repeat' first
    | (with_reducible assumption)
    | intro _
    | (with_reducible apply endFast_kept)
    | (with_reducible apply State.modZ_kept)
    | (with_reducible apply zLoad_kept)
    | (dsimp only)
    | split

theorem safeDevice_kept : ∀ s, Kept p s → Kept p (safeDevice s) := by
  intros s h
  unfold safeDevice
  repeat' first
    | (with_reducible assumption)
    | intro _
    | (with_reducible apply each_kept)
    | (with_reducible apply mute_kept)
    | (with_reducible apply safeTone_kept)
    | (with_reducible apply discardQueue_kept)
    | (with_reducible apply zSafe_kept)
    | (with_reducible apply injectSafe_kept)
    | (with_reducible apply elemsSafe_kept)
    | (with_reducible apply markSafe_kept)

theorem safeRes_kept : ∀ x0 s, Kept p s → Kept p (safeRes x0 s) := by
  intros x0 s h
  unfold safeRes
  repeat' first
    | (with_reducible assumption)
    | intro _
    | (with_reducible apply safeTone_kept)
    | (with_reducible apply State.modRot_kept)
    | (with_reducible apply discardQueue_kept)
    | (with_reducible apply zSafe_kept)
    | (dsimp only)
    | split

theorem safeRoot_kept : ∀ x0 x1 s, Kept p s → Kept p (safeRoot x0 x1 s) := by
  intros x0 x1 s h
  unfold safeRoot
  repeat' first
    | (with_reducible assumption)
    | intro _
    | (with_reducible apply each_kept)
    | (with_reducible apply flagShared_kept)
    | (with_reducible apply safeRes_kept)
    | (with_reducible apply injectSafe_kept)
    | (with_reducible apply elemsRoot_kept)
    | (with_reducible apply markRoot_kept)

theorem swapFir_kept : ∀ x0 s, Kept p s → Kept p (swapFir x0 s) := by
  intros x0 s h
  unfold swapFir
  repeat' first
    | (with_reducible assumption)
    | intro _
    | (with_reducible apply State.modRot_kept)
    | (with_reducible apply State.modAcqPort_kept)
    | (dsimp only)
    | split

theorem swapKernel_kept : ∀ x0 s, Kept p s → Kept p (swapKernel x0 s) := by
  intros x0 s h
  unfold swapKernel
  repeat' first
    | (with_reducible assumption)
    | intro _
    | (with_reducible apply State.modRot_kept)
    | (with_reducible apply State.modAcqPort_kept)

theorem swapPort_kept : ∀ x0 s, Kept p s → Kept p (swapPort x0 s) := by
  intros x0 s h
  unfold swapPort
  repeat' first
    | (with_reducible assumption)
    | intro _
    | (with_reducible apply State.modPort_kept)
    | (with_reducible apply drainPort_kept)

theorem swapZ_kept : ∀ x0 s, Kept p s → Kept p (swapZ x0 s) := by
  intros x0 s h
  unfold swapZ
  repeat' first
    | (with_reducible assumption)
    | intro _
    | (with_reducible apply drainZ_kept)
    | (with_reducible apply State.modZbank_kept)

theorem swapWhere_kept : ∀ x0 s, Kept p s → Kept p (swapWhere x0 s) := by
  intros x0 s h
  unfold swapWhere
  repeat' first
    | (with_reducible assumption)
    | intro _
    | (with_reducible apply each_kept)
    | (with_reducible apply swapPort_kept)
    | (with_reducible apply swapZ_kept)
    | (with_reducible apply swapFir_kept)
    | (with_reducible apply swapKernel_kept)

theorem swapsDue_kept : ∀ s, Kept p s → Kept p (swapsDue s) := by
  intros s h
  unfold swapsDue
  repeat' first
    | (with_reducible assumption)
    | intro _
    | (with_reducible apply swapWhere_kept)

theorem swapsNow_kept : ∀ x0 s, Kept p s → Kept p (swapsNow x0 s) := by
  intros x0 s h
  unfold swapsNow
  repeat' first
    | (with_reducible assumption)
    | intro _
    | (with_reducible apply swapWhere_kept)

theorem zPark_kept : ∀ x0 s, Kept p s → Kept p (zPark x0 s) := by
  intros x0 s h
  unfold zPark
  repeat' first
    | (with_reducible assumption)
    | intro _
    | (with_reducible apply endFast_kept)
    | (with_reducible apply State.modZ_kept)

theorem Reply.no_kept : ∀ s x1 x2, Kept p s → Kept p (Reply.no s x1 x2).s :=
  fun _ _ _ h => h

theorem Reply.bad_kept : ∀ s x1, Kept p s → Kept p (Reply.bad s x1).s := by
  intros s x1 h
  unfold Reply.bad
  repeat' first
    | (with_reducible assumption)
    | intro _
    | (with_reducible apply Reply.no_kept)

theorem Reply.busy_kept : ∀ s, Kept p s → Kept p (Reply.busy s).s := by
  intros s h
  unfold Reply.busy
  repeat' first
    | (with_reducible assumption)
    | intro _
    | (with_reducible apply Reply.no_kept)

theorem Reply.s_kept : ∀ r, Kept p r.s → Kept p (Reply.s r) :=
  fun _ h => h

theorem resetQueues_kept : ∀ x0 x1 s, Kept p s → Kept p (resetQueues x0 x1 s) :=
  fun _ _ _ h => h

theorem stopTransfers_kept : ∀ s, Kept p s → Kept p (stopTransfers s) :=
  fun _ h => h

theorem closeStreams_kept : ∀ s, Kept p s → Kept p (closeStreams s) := by
  intros s h
  unfold closeStreams
  repeat' first
    | (with_reducible assumption)
    | intro _
    | (with_reducible apply each_kept)
    | (with_reducible apply closeStream_kept)

theorem dropAsked_kept : ∀ x0 s, Kept p s → Kept p (dropAsked x0 s) := by
  intros x0 s h
  unfold dropAsked
  repeat' first
    | (with_reducible assumption)
    | intro _
    | (with_reducible apply each_kept)
    | (with_reducible apply tell_kept)
    | (dsimp only)
    | split

theorem closeSession_kept : ∀ s, Kept p s → Kept p (closeSession s) := by
  intros s h
  unfold closeSession
  repeat' first
    | (with_reducible assumption)
    | intro _
    | (with_reducible apply resetQueues_kept)
    | (with_reducible apply stopTransfers_kept)
    | (with_reducible apply closeStreams_kept)
    | (with_reducible apply each_kept)
    | (with_reducible apply dropAsked_kept)
    | (with_reducible apply State.modSq_kept)
    | (dsimp only)
    | split

theorem takeEntry_kept : ∀ x0 s, Kept p s → Kept p (takeEntry x0 s) := by
  intros x0 s h
  unfold takeEntry
  repeat' first
    | (with_reducible assumption)
    | intro _
    | (with_reducible apply State.modSq_kept)

theorem endWaits_kept : ∀ x0 s, Kept p s → Kept p (endWaits x0 s) := by
  intros x0 s h
  unfold endWaits
  repeat' first
    | (with_reducible assumption)

theorem settleModes_kept : ∀ s, Kept p s → Kept p (settleModes s) := by
  intros s h
  unfold settleModes
  repeat' first
    | (with_reducible assumption)
    | intro _
    | (with_reducible apply setMode_kept)
    | (with_reducible apply endWaits_kept)
    | (dsimp only)
    | split

theorem finishGuest_kept : ∀ x0 x1 s, Kept p s → Kept p (finishGuest x0 x1 s) := by
  intros x0 x1 s h
  unfold finishGuest
  repeat' first
    | (with_reducible assumption)
    | intro _
    | (with_reducible apply tell_kept)
    | (dsimp only)
    | split

theorem writeCompletion_kept : ∀ x0 x1 s, Kept p s → Kept p (writeCompletion x0 x1 s) := by
  intros x0 x1 s h
  unfold writeCompletion
  repeat' first
    | (with_reducible assumption)
    | intro _
    | (with_reducible apply State.setCq_kept)
    | (with_reducible apply raiseVec_kept)
    | (dsimp only)
    | split

theorem complete_kept : ∀ x0 x1 s, Kept p s → Kept p (complete x0 x1 s) := by
  intros x0 x1 s h
  unfold complete
  repeat' first
    | (with_reducible assumption)
    | intro _
    | (with_reducible apply writeCompletion_kept)
    | (with_reducible apply State.modCq_kept)
    | (dsimp only)
    | split

theorem finishHead_kept : ∀ x0 s, Kept p s → Kept p (finishHead x0 s) := by
  intros x0 s h
  unfold finishHead
  repeat' first
    | (with_reducible assumption)
    | intro _
    | (with_reducible apply finishGuest_kept)
    | (with_reducible apply State.modSq_kept)
    | (with_reducible apply complete_kept)
    | (with_reducible apply resetQueues_kept)
    | (with_reducible apply closeSession_kept)
    | (dsimp only)
    | split

theorem pumpQueue_kept : ∀ x0 x1 s, Kept p s → Kept p (pumpQueue x0 x1 s) := by
  intro x0 x1
  induction x1 with
  | zero => intro s h; exact h
  | succ n ih =>
    intro s h
    unfold pumpQueue
    repeat' first
      | (with_reducible assumption)
      | (with_reducible apply ih)
      | (with_reducible apply finishHead_kept)
      | intro _
      | (dsimp only)
      | split

theorem pumpRound_kept : ∀ s, Kept p s → Kept p (pumpRound s) := by
  intros s h
  unfold pumpRound
  repeat' first
    | (with_reducible assumption)
    | intro _
    | (with_reducible apply each_kept)
    | (with_reducible apply pumpQueue_kept)

theorem pump_kept : ∀ s, Kept p s → Kept p (pump s) := by
  intros s h
  unfold pump
  repeat' first
    | (with_reducible assumption)
    | intro _
    | (with_reducible apply settleModes_kept)
    | (with_reducible apply times_kept)
    | (with_reducible apply pumpRound_kept)

theorem noteFailure_kept : ∀ x0 x1 x2 x3 x4 s, Kept p s → Kept p (noteFailure x0 x1 x2 x3 x4 s) := by
  intros x0 x1 x2 x3 x4 s h
  unfold noteFailure
  repeat' first
    | (with_reducible assumption)
    | intro _
    | (with_reducible apply logRefusal_kept)
    | (with_reducible apply setSum_kept)
    | (with_reducible apply State.modSq_kept)
    | (dsimp only)
    | split

theorem conclude_kept : ∀ x0 x1 x2 x3 x4 x5 r, Kept p r.s → Kept p (conclude x0 x1 x2 x3 x4 x5 r) := by
  intros x0 x1 x2 x3 x4 x5 r h
  unfold conclude
  repeat' first
    | (with_reducible assumption)
    | intro _
    | (with_reducible apply State.modSq_kept)
    | (with_reducible apply Reply.s_kept)
    | (with_reducible apply pump_kept)
    | (with_reducible apply noteFailure_kept)

theorem mailbox_kept : ∀ x0 x1 x2 x3 x4 x5 f s x8, (∀ s, Kept p s → Kept p (f s).s) → Kept p s →
    Kept p (mailbox x0 x1 x2 x3 x4 x5 f s x8) := by
  intros x0 x1 x2 x3 x4 x5 f s x8 hf h
  unfold mailbox
  repeat' first
    | (with_reducible assumption)
    | intro _
    | (with_reducible apply hf)
    | (with_reducible apply takeEntry_kept)
    | (with_reducible apply Reply.no_kept)
    | (with_reducible apply Reply.bad_kept)
    | (with_reducible apply noteUe_kept)
    | (with_reducible apply conclude_kept)
    | (dsimp only)
    | split

theorem command_kept : ∀ x0 x1 x2 x3 f s x6, (∀ s, Kept p s → Kept p (f s).s) → Kept p s →
    Kept p (command x0 x1 x2 x3 f s x6) := by
  intros x0 x1 x2 x3 f s x6 hf h
  unfold command
  repeat' first
    | (with_reducible assumption)
    | intro _
    | (with_reducible apply hf)
    | (with_reducible apply mailbox_kept)

theorem decideFlights_kept : ∀ x0 x1 x2 x3 s, Kept p s → Kept p (decideFlights x0 x1 x2 x3 s) := by
  intros x0 x1 x2 x3 s h
  unfold decideFlights
  repeat' first
    | (with_reducible assumption)
    | intro _
    | (with_reducible apply each_kept)
    | (with_reducible apply noteFailure_kept)
    | (with_reducible apply State.modSq_kept)

theorem queryReply_kept : ∀ x0 x1 f s, (∀ s, Kept p s → Kept p (f s)) → Kept p s → Kept p (queryReply x0 x1 f s).s := by
  intros x0 x1 f s hf h
  unfold queryReply
  repeat' first
    | (with_reducible assumption)
    | intro _
    | (with_reducible apply hf)
    | (with_reducible apply Reply.bad_kept)
    | (dsimp only)
    | split

end Sys2Proof.Machine
end

