-- ==== Sys2Proof/Laws/KeptBurin.lean ====
section
/-! SUPPORT. Memory keeps its canonical form and the queue is left alone
(acquisition ports, read-out chains, doubt, the burins and their microcode, sessions, cells, the host bus). -/

namespace Sys2Proof.Machine
variable {p : List Instr}

theorem acqArmReply_kept : ∀ x0 s, Kept p s → Kept p (acqArmReply x0 s).s := by
  intros x0 s h
  unfold acqArmReply
  repeat' first
    | (with_reducible assumption)
    | intro _
    | (with_reducible apply Reply.bad_kept)
    | (with_reducible apply Reply.busy_kept)
    | (with_reducible apply Reply.no_kept)
    | (with_reducible apply foldl_kept)
    | (with_reducible apply State.setEngine_kept)
    | (dsimp only)
    | split

theorem flushOwed_kept : ∀ x0 x1 s, Kept p s → Kept p (flushOwed x0 x1 s) := by
  intro x0 x1
  induction x1 with
  | zero => intro s h; exact h
  | succ n ih =>
    intro s h
    unfold flushOwed
    repeat' first
      | (with_reducible assumption)
      | (with_reducible apply ih)
      | (with_reducible refine ringPut_kept _ (by assumption) ?_)
      | (with_reducible apply State.modEngine_kept)
      | intro _
      | (dsimp only)
      | split

theorem flushEngine_kept : ∀ x0 s, Kept p s → Kept p (flushEngine x0 s) := by
  intros x0 s h
  unfold flushEngine
  repeat' first
    | (with_reducible assumption)
    | intro _
    | (with_reducible apply flushOwed_kept)

theorem capRecord_kept : ∀ x0 x1 x2 x3 x4 s, Kept p s → Kept p (capRecord x0 x1 x2 x3 x4 s) := by
  intros x0 x1 x2 x3 x4 s h
  unfold capRecord
  repeat' first
    | (with_reducible assumption)
    | intro _
    | (with_reducible apply State.modEngine_kept)
    | (with_reducible apply flushEngine_kept)
    | (with_reducible apply State.setEngine_kept)

theorem acqDisarmReply_kept : ∀ x0 s, Kept p s → Kept p (acqDisarmReply x0 s).s := by
  intros x0 s h
  unfold acqDisarmReply
  repeat' first
    | (with_reducible assumption)
    | intro _
    | (with_reducible apply Reply.bad_kept)
    | (with_reducible apply capRecord_kept)
    | (with_reducible apply State.modEngine_kept)
    | (dsimp only)
    | split

theorem acqSetReply_kept : ∀ x0 x1 s, Kept p s → Kept p (acqSetReply x0 x1 s).s := by
  intros x0 x1 s h
  unfold acqSetReply
  repeat' first
    | (with_reducible assumption)
    | intro _
    | (with_reducible apply Reply.bad_kept)
    | (with_reducible apply Reply.busy_kept)
    | (with_reducible apply State.setEngine_kept)
    | (dsimp only)
    | split

theorem beginFill_kept : ∀ x0 s, Kept p s → Kept p (beginFill x0 s) := by
  intros x0 s h
  unfold beginFill
  repeat' first
    | (with_reducible assumption)
    | intro _
    | (with_reducible apply State.modEngine_kept)

theorem disarm_kept : ∀ x0 x1 s, Kept p s → Kept p (disarm x0 x1 s) := by
  intros x0 x1 s h
  unfold disarm
  repeat' first
    | (with_reducible assumption)
    | intro _
    | (with_reducible apply capRecord_kept)
    | (with_reducible apply State.setEngine_kept)
    | (with_reducible apply State.modEngine_kept)
    | (dsimp only)
    | split

theorem disarmDomain_kept : ∀ x0 s, Kept p s → Kept p (disarmDomain x0 s) := by
  intros x0 s h
  unfold disarmDomain
  repeat' first
    | (with_reducible assumption)
    | intro _
    | (with_reducible apply each_kept)
    | (with_reducible apply disarm_kept)
    | (dsimp only)
    | split

theorem disarmProof_kept : ∀ x0 s, Kept p s → Kept p (disarmProof x0 s) := by
  intros x0 s h
  unfold disarmProof
  repeat' first
    | (with_reducible assumption)
    | intro _
    | (with_reducible apply each_kept)
    | (with_reducible apply disarm_kept)
    | (dsimp only)
    | split

theorem writeSegment_kept : ∀ x0 s, Kept p s → Kept p (writeSegment x0 s) := by
  intros x0 s h
  unfold writeSegment
  repeat' first
    | (with_reducible assumption)
    | intro _
    | (with_reducible apply State.modEngine_kept)
    | (with_reducible apply markCaptured_kept)
    | (dsimp only)
    | split

theorem engineDue_kept : ∀ x0 x1 s, Kept p s → Kept p (engineDue x0 x1 s) := by
  intros x0 x1 s h
  unfold engineDue
  repeat' first
    | (with_reducible assumption)
    | intro _
    | (with_reducible apply writeSegment_kept)
    | (with_reducible apply State.setEngine_kept)
    | (with_reducible apply capRecord_kept)
    | (with_reducible apply flushEngine_kept)
    | (dsimp only)
    | split

theorem engineTo_kept : ∀ x0 x1 s, Kept p s → Kept p (engineTo x0 x1 s) := by
  intros x0 x1 s h
  unfold engineTo
  repeat' first
    | (with_reducible assumption)
    | intro _
    | (with_reducible apply times_kept)
    | (with_reducible apply engineDue_kept)

theorem raiseCapture_kept : ∀ x0 s, Kept p s → Kept p (raiseCapture x0 s) := by
  intros x0 s h
  unfold raiseCapture
  repeat' first
    | (with_reducible assumption)
    | intro _
    | (with_reducible apply raiseEp_kept)
    | (with_reducible apply State.modEngine_kept)
    | (dsimp only)
    | split

theorem trigger_kept : ∀ x0 x1 x2 x3 x4 s, Kept p s → Kept p (trigger x0 x1 x2 x3 x4 s) := by
  intros x0 x1 x2 x3 x4 s h
  unfold trigger
  repeat' first
    | (with_reducible assumption)
    | intro _
    | (with_reducible apply State.setEngine_kept)
    | (with_reducible apply raiseCapture_kept)
    | (dsimp only)
    | split

theorem takeEdges_kept : ∀ x0 x1 x2 x3 s, Kept p s → Kept p (takeEdges x0 x1 x2 x3 s) := by
  intro x0 x1 x2 x3
  induction x3 with
  | zero => intro s h; exact h
  | succ n ih =>
    intro s h
    unfold takeEdges
    repeat' first
      | (with_reducible assumption)
      | (with_reducible apply ih)
      | (with_reducible apply State.setEngine_kept)
      | (with_reducible apply trigger_kept)
      | (with_reducible apply each_kept)
      | (with_reducible apply State.modEngine_kept)
      | intro _
      | (dsimp only)
      | split

theorem engineSample_kept : ∀ x0 x1 x2 x3 x4 s, Kept p s → Kept p (engineSample x0 x1 x2 x3 x4 s) := by
  intros x0 x1 x2 x3 x4 s h
  unfold engineSample
  repeat' first
    | (with_reducible assumption)
    | intro _
    | (with_reducible apply engineTo_kept)
    | (with_reducible apply State.modEngine_kept)
    | (with_reducible apply putBytes_kept)
    | (with_reducible apply takeEdges_kept)
    | (with_reducible apply each_kept)
    | (with_reducible apply trigger_kept)
    | (with_reducible apply State.setEngine_kept)
    | (dsimp only)
    | split

theorem execAcqArm_kept : ∀ x0 x1 s, Kept p s → keptOut p (execAcqArm x0 x1 s) := by
  intros x0 x1 s h
  unfold execAcqArm
  repeat' first
    | (with_reducible assumption)
    | (with_reducible exact True.intro)
    | intro _
    | (with_reducible apply command_kept)
    | (with_reducible apply acqArmReply_kept)

theorem execAcqDisarm_kept : ∀ x0 x1 s, Kept p s → keptOut p (execAcqDisarm x0 x1 s) := by
  intros x0 x1 s h
  unfold execAcqDisarm
  repeat' first
    | (with_reducible assumption)
    | (with_reducible exact True.intro)
    | intro _
    | (with_reducible apply command_kept)
    | (with_reducible apply acqDisarmReply_kept)

theorem execAcqSet_kept : ∀ x0 x1 x2 s, Kept p s → keptOut p (execAcqSet x0 x1 x2 s) := by
  intros x0 x1 x2 s h
  unfold execAcqSet
  repeat' first
    | (with_reducible assumption)
    | (with_reducible exact True.intro)
    | intro _
    | (with_reducible apply command_kept)
    | (with_reducible apply acqSetReply_kept)

theorem execArmEvent_kept : ∀ x0 s, Kept p s → keptOut p (execArmEvent x0 s) := by
  intros x0 s h
  unfold execArmEvent
  repeat' first
    | (with_reducible assumption)
    | (with_reducible exact True.intro)
    | intro _
    | (with_reducible apply beginFill_kept)
    | (with_reducible apply consume_kept)
    | (dsimp only)
    | split

theorem execPreTriggerFull_kept : ∀ x0 s, Kept p s → keptOut p (execPreTriggerFull x0 s) := by
  intros x0 s h
  unfold execPreTriggerFull
  repeat' first
    | (with_reducible assumption)
    | (with_reducible exact True.intro)
    | intro _
    | (with_reducible apply engineDue_kept)
    | (dsimp only)
    | split

theorem execRearmEnd_kept : ∀ x0 s, Kept p s → keptOut p (execRearmEnd x0 s) := by
  intros x0 s h
  unfold execRearmEnd
  repeat' first
    | (with_reducible assumption)
    | (with_reducible exact True.intro)
    | intro _
    | (with_reducible apply engineDue_kept)
    | (dsimp only)
    | split

theorem execWritingBegins_kept : ∀ x0 s, Kept p s → keptOut p (execWritingBegins x0 s) := by
  intros x0 s h
  unfold execWritingBegins
  repeat' first
    | (with_reducible assumption)
    | (with_reducible exact True.intro)
    | intro _
    | (with_reducible apply engineDue_kept)
    | (dsimp only)
    | split

theorem pinEdge_kept : ∀ x0 x1 x2 s, Kept p s → Kept p (pinEdge x0 x1 x2 s) :=
  fun _ _ _ _ h => h

theorem stipChains_kept : ∀ (s : State) (x : Tab Chain), Kept p s → Kept p ({ s with stipChains := x } : State) :=
  fun _ _ h => h

theorem eachChain_kept : ∀ (f : Nat → Chain → Chain) (nn : Nat) (s : State), Kept p s → Kept p (eachChain f nn s) := by
  intro f nn s h
  unfold eachChain
  extract_lets t
  have ht : Kept p t := each_kept _ _ _ (fun _ _ h => h) h
  clear_value t
  exact stipChains_kept t _ ht

theorem clearChains_kept : ∀ x0 s, Kept p s → Kept p (clearChains x0 s) := by
  intros x0 s h
  unfold clearChains
  repeat' first
    | (with_reducible assumption)
    | intro _
    | (with_reducible apply State.modAcqPort_kept)
    | (with_reducible apply eachChain_kept)

theorem keepTone_kept : ∀ x0 x1 s, Kept p s → Kept p (keepTone x0 x1 s) := by
  intros x0 x1 s h
  unfold keepTone
  repeat' first
    | (with_reducible assumption)
    | intro _
    | (with_reducible apply State.modTone_kept)
    | (dsimp only)
    | split

theorem markFill_kept : ∀ x0 x1 s, Kept p s → Kept p (markFill x0 x1 s) := by
  intros x0 x1 s h
  unfold markFill
  repeat' first
    | (with_reducible assumption)
    | intro _
    | (with_reducible apply State.modAcqPort_kept)

theorem setTrack_kept : ∀ x0 x1 x2 x3 s, Kept p s → Kept p (setTrack x0 x1 x2 x3 s) := by
  intros x0 x1 x2 x3 s h
  unfold setTrack
  repeat' first
    | (with_reducible assumption)
    | intro _
    | (with_reducible apply State.modTone_kept)

theorem startStip_kept : ∀ x0 x1 s, Kept p s → Kept p (startStip x0 x1 s) := by
  intros x0 x1 s h
  unfold startStip
  repeat' first
    | (with_reducible assumption)
    | intro _
    | (with_reducible apply State.modStipChain_kept)

theorem startTone_kept : ∀ x0 s, Kept p s → Kept p (startTone x0 s) := by
  intros x0 s h
  unfold startTone
  repeat' first
    | (with_reducible assumption)
    | intro _
    | (with_reducible apply State.modRot_kept)

theorem abandonProofs_kept : ∀ s, Kept p s → Kept p (abandonProofs s) := by
  intros s h
  unfold abandonProofs
  repeat' first
    | (with_reducible assumption)
    | intro _
    | (with_reducible apply each_kept)
    | (with_reducible apply tell_kept)
    | (with_reducible apply decideFlights_kept)

theorem abandonTrims_kept : ∀ s, Kept p s → Kept p (abandonTrims s) := by
  intros s h
  unfold abandonTrims
  repeat' first
    | (with_reducible assumption)
    | intro _
    | (with_reducible apply each_kept)
    | (with_reducible apply markFill_kept)
    | (with_reducible apply decideFlights_kept)

theorem boundaryPass_kept : ∀ x0 x1 s, Kept p s → Kept p (boundaryPass x0 x1 s) := by
  intros x0 x1 s h
  unfold boundaryPass
  repeat' first
    | (with_reducible assumption)
    | intro _
    | (with_reducible apply mrkPass_kept)

theorem pendingNow_kept : ∀ x0 s, Kept p s → Kept p (pendingNow x0 s) := by
  intros x0 s h
  unfold pendingNow
  repeat' first
    | (with_reducible assumption)
    | intro _
    | (with_reducible apply boundaryPass_kept)

theorem tellStopped_kept : ∀ x0 s, Kept p s → Kept p (tellStopped x0 s) := by
  intros x0 s h
  unfold tellStopped
  repeat' first
    | (with_reducible assumption)
    | intro _
    | (with_reducible apply each_kept)
    | (with_reducible apply tell_kept)
    | (with_reducible apply State.modRoot_kept)

theorem checkStopped_kept : ∀ x0 s, Kept p s → Kept p (checkStopped x0 s) := by
  intros x0 s h
  unfold checkStopped
  repeat' first
    | (with_reducible assumption)
    | intro _
    | (with_reducible apply flush_kept)
    | (with_reducible apply elemsRoot_kept)
    | (with_reducible apply pendingNow_kept)
    | (with_reducible apply tellStopped_kept)
    | (with_reducible apply State.modRoot_kept)
    | (dsimp only)
    | split

theorem reportDoubt_kept : ∀ x0 x1 x2 s, Kept p s → Kept p (reportDoubt x0 x1 x2 s) := by
  intros x0 x1 x2 s h
  unfold reportDoubt
  repeat' first
    | (with_reducible assumption)
    | intro _
    | (with_reducible apply tell_kept)
    | (dsimp only)
    | split

theorem sendDoubt_kept : ∀ x0 s, Kept p s → Kept p (sendDoubt x0 s) := by
  intros x0 s h
  unfold sendDoubt
  repeat' first
    | (with_reducible assumption)
    | intro _
    | (with_reducible apply each_kept)
    | (with_reducible apply sendTo_kept)

theorem haltBurin_kept : ∀ x0 s, Kept p s → Kept p (haltBurin x0 s) := by
  intros x0 s h
  unfold haltBurin
  repeat' first
    | (with_reducible assumption)
    | intro _
    | (with_reducible apply State.modBurin_kept)

theorem gapShots_kept : ∀ x0 x1 x2 s, Kept p s → Kept p (gapShots x0 x1 x2 s) := by
  intros x0 x1 x2 s h
  unfold gapShots
  repeat' first
    | (with_reducible assumption)
    | intro _
    | (with_reducible apply postGap_kept)
    | (with_reducible apply foldl_kept)
    | (with_reducible apply cancelUnstarted_kept)
    | (dsimp only)
    | split

theorem stopRoot_kept : ∀ x0 x1 x2 s, Kept p s → Kept p (stopRoot x0 x1 x2 s) := by
  intros x0 x1 x2 s h
  unfold stopRoot
  repeat' first
    | (with_reducible assumption)
    | intro _
    | (with_reducible apply each_kept)
    | (with_reducible apply haltBurin_kept)
    | (with_reducible apply gapShots_kept)
    | (with_reducible apply pendingNow_kept)
    | (with_reducible apply swapsNow_kept)
    | (with_reducible apply safeRoot_kept)
    | (with_reducible apply tellStopped_kept)
    | (with_reducible apply State.modRoot_kept)

theorem doubtPlate_kept : ∀ x0 x1 x2 s, Kept p s → Kept p (doubtPlate x0 x1 x2 s) := by
  intros x0 x1 x2 s h
  unfold doubtPlate
  repeat' first
    | (with_reducible assumption)
    | intro _
    | (with_reducible apply State.modFault_kept)
    | (with_reducible apply reportDoubt_kept)
    | (with_reducible apply sendDoubt_kept)
    | (with_reducible apply setSum_kept)
    | (with_reducible apply pump_kept)
    | (with_reducible apply stopRoot_kept)

theorem doubtBurin_kept : ∀ x0 x1 x2 s, Kept p s → Kept p (doubtBurin x0 x1 x2 s) := by
  intros x0 x1 x2 s h
  unfold doubtBurin
  repeat' first
    | (with_reducible assumption)
    | intro _
    | (with_reducible apply doubtPlate_kept)

theorem doubtsInSafe_kept : ∀ s, Kept p s → Kept p (doubtsInSafe s) := by
  intros s h
  unfold doubtsInSafe
  repeat' first
    | (with_reducible assumption)
    | intro _
    | (with_reducible apply each_kept)
    | (with_reducible apply sendDoubt_kept)

theorem enterSafe_kept : ∀ s, Kept p s → Kept p (enterSafe s) := by
  intros s h
  unfold enterSafe
  repeat' first
    | (with_reducible assumption)
    | intro _
    | (with_reducible apply each_kept)
    | (with_reducible apply stopRoot_kept)
    | (with_reducible apply doubtsInSafe_kept)
    | (with_reducible apply abandonProofs_kept)
    | (with_reducible apply abandonTrims_kept)
    | (with_reducible apply safeDevice_kept)
    | (with_reducible apply decideFlights_kept)
    | (with_reducible apply pump_kept)
    | (with_reducible apply setMode_kept)

theorem doubtDevice_kept : ∀ x0 x1 s, Kept p s → Kept p (doubtDevice x0 x1 s) := by
  intros x0 x1 s h
  unfold doubtDevice
  repeat' first
    | (with_reducible assumption)
    | intro _
    | (with_reducible apply setSum_kept)
    | (with_reducible apply safeDevice_kept)
    | (with_reducible apply doubtsInSafe_kept)
    | (with_reducible apply enterSafe_kept)
    | (dsimp only)
    | split

theorem State.modCal_kept : ∀ s x1 x2, Kept p s → Kept p (State.modCal s x1 x2) :=
  fun _ _ _ h => h

theorem State.setCent_kept : ∀ s x1 x2, Kept p s → Kept p (State.setCent s x1 x2) :=
  fun _ _ _ h => h

theorem abandonRun_kept : ∀ x0 s, Kept p s → Kept p (abandonRun x0 s) := by
  intros x0 s h
  unfold abandonRun
  repeat' first
    | (with_reducible assumption)
    | intro _
    | (with_reducible apply pump_kept)
    | (with_reducible apply decideFlights_kept)
    | (with_reducible apply State.modCal_kept)
    | (dsimp only)
    | split

theorem dropService_kept : ∀ x0 s, Kept p s → Kept p (dropService x0 s) := by
  intros x0 s h
  unfold dropService
  repeat' first
    | (with_reducible assumption)
    | intro _
    | (with_reducible apply markFill_kept)
    | (with_reducible apply State.modPort_kept)
    | (with_reducible apply each_kept)
    | (with_reducible apply State.modZ_kept)
    | (dsimp only)
    | split

theorem abandonTrim_kept : ∀ x0 s, Kept p s → Kept p (abandonTrim x0 s) := by
  intros x0 s h
  unfold abandonTrim
  repeat' first
    | (with_reducible assumption)
    | intro _
    | (with_reducible apply dropService_kept)
    | (with_reducible apply State.modCal_kept)
    | (with_reducible apply pump_kept)
    | (with_reducible apply decideFlights_kept)
    | (dsimp only)
    | split

theorem beginTrim_kept : ∀ x0 s, Kept p s → Kept p (beginTrim x0 s) := by
  intros x0 s h
  unfold beginTrim
  repeat' first
    | (with_reducible assumption)
    | intro _
    | (with_reducible apply abandonRun_kept)
    | (with_reducible apply State.modCal_kept)
    | (with_reducible apply disarm_kept)
    | (with_reducible apply markFill_kept)
    | (with_reducible apply mute_kept)
    | (with_reducible apply State.modPort_kept)
    | (with_reducible apply each_kept)
    | (with_reducible apply State.modZ_kept)
    | (with_reducible apply zPark_kept)
    | (dsimp only)
    | split

theorem dueWrite_kept : ∀ x0 s, Kept p s → Kept p (dueWrite x0 s) := by
  intros x0 s h
  unfold dueWrite
  repeat' first
    | (with_reducible assumption)
    | intro _
    | (with_reducible apply State.modCal_kept)

theorem burnish_kept : ∀ x0 s, Kept p s → Kept p (burnish x0 s) := by
  intros x0 s h
  unfold burnish
  repeat' first
    | (with_reducible assumption)
    | intro _
    | (with_reducible apply State.modCal_kept)
    | (with_reducible apply dueWrite_kept)
    | (dsimp only)
    | split

theorem burnishAll_kept : ∀ x0 s, Kept p s → Kept p (burnishAll x0 s) := by
  intros x0 s h
  unfold burnishAll
  repeat' first
    | (with_reducible assumption)
    | intro _
    | (with_reducible apply each_kept)
    | (with_reducible apply burnish_kept)
    | (dsimp only)
    | split

theorem nextTrim_kept : ∀ x0 s, Kept p s → Kept p (nextTrim x0 s) := by
  intros x0 s h
  unfold nextTrim
  repeat' first
    | (with_reducible assumption)
    | intro _
    | (with_reducible apply beginTrim_kept)
    | (dsimp only)
    | split

theorem calLeave_kept : ∀ x0 s, Kept p s → Kept p (calLeave x0 s) := by
  intros x0 s h
  unfold calLeave
  repeat' first
    | (with_reducible assumption)
    | intro _
    | (with_reducible apply each_kept)
    | (with_reducible apply abandonTrim_kept)
    | (with_reducible apply abandonRun_kept)
    | (with_reducible apply nextTrim_kept)
    | (with_reducible apply State.modCal_kept)

theorem calWake_kept : ∀ x0 x1 x2 s, Kept p s → Kept p (calWake x0 x1 x2 s) := by
  intros x0 x1 x2 s h
  unfold calWake
  repeat' first
    | (with_reducible assumption)
    | intro _
    | (with_reducible apply each_kept)
    | (with_reducible apply State.modCal_kept)
    | (dsimp only)
    | split

theorem endService_kept : ∀ x0 s, Kept p s → Kept p (endService x0 s) := by
  intros x0 s h
  unfold endService
  repeat' first
    | (with_reducible assumption)
    | intro _
    | (with_reducible apply markFill_kept)
    | (with_reducible apply State.modPort_kept)
    | (with_reducible apply each_kept)
    | (with_reducible apply State.modZ_kept)
    | (with_reducible apply zLoad_kept)
    | (dsimp only)
    | split

theorem settleCal_kept : ∀ s, Kept p s → Kept p (settleCal s) := by
  intros s h
  unfold settleCal
  repeat' first
    | (with_reducible assumption)
    | intro _
    | (with_reducible apply pump_kept)
    | (with_reducible apply decideFlights_kept)

theorem trackRecord_kept : ∀ x0 x1 s, Kept p s → Kept p (trackRecord x0 x1 s) := by
  intros x0 x1 s h
  unfold trackRecord
  repeat' first
    | (with_reducible assumption)
    | intro _
    | (with_reducible apply State.setCent_kept)
    | (with_reducible apply settleCal_kept)
    | (dsimp only)
    | split

theorem fetchOn_kept : ∀ x0 s, Kept p s → Kept p (fetchOn x0 s) := by
  intros x0 s h
  unfold fetchOn
  repeat' first
    | (with_reducible assumption)
    | intro _
    | (with_reducible apply State.modBurin_kept)

theorem ovgEvents_kept : ∀ x0 x1 s, Kept p s → Kept p (ovgEvents x0 x1 s) := by
  intros x0 x1 s h
  unfold ovgEvents
  repeat' first
    | (with_reducible assumption)
    | intro _
    | (with_reducible apply times_kept)
    | (with_reducible apply raiseEp_kept)
    | (dsimp only)
    | split

theorem modRegs_kept : ∀ x0 x1 s, Kept p s → Kept p (modRegs x0 x1 s) := by
  intros x0 x1 s h
  unfold modRegs
  repeat' first
    | (with_reducible assumption)
    | intro _
    | (with_reducible apply ovgEvents_kept)
    | (with_reducible apply State.modBurin_kept)

theorem finish_kept : ∀ x0 s, Kept p s → Kept p (finish x0 s) := by
  intros x0 s h
  unfold finish
  repeat' first
    | (with_reducible assumption)
    | intro _
    | (with_reducible apply fetchOn_kept)
    | (with_reducible apply modRegs_kept)

theorem sendReg_kept : ∀ x0 x1 x2 s, Kept p s → Kept p (sendReg x0 x1 x2 s) := by
  intros x0 x1 x2 s h
  unfold sendReg
  repeat' first
    | (with_reducible assumption)
    | intro _
    | (with_reducible apply sendEp_kept)

theorem recvReg_kept : ∀ x0 x1 x2 s, Kept p s → Kept p (recvReg x0 x1 x2 s) := by
  intros x0 x1 x2 s h
  unfold recvReg
  repeat' first
    | (with_reducible assumption)
    | intro _
    | (with_reducible apply State.modBurin_kept)
    | (with_reducible apply takeArrival_kept)
    | (dsimp only)
    | split

theorem takePoint_kept : ∀ x0 x1 s, Kept p s → Kept p (takePoint x0 x1 s) := by
  intros x0 x1 s h
  unfold takePoint
  repeat' first
    | (with_reducible assumption)
    | intro _
    | (with_reducible apply State.modBurin_kept)

theorem waitEffect_kept : ∀ x0 x1 s, Kept p s → Kept p (waitEffect x0 x1 s) := by
  intros x0 x1 s h
  unfold waitEffect
  repeat' first
    | (with_reducible assumption)
    | intro _
    | (with_reducible apply consume_kept)
    | (with_reducible apply sendReg_kept)
    | (with_reducible apply recvReg_kept)
    | (with_reducible apply takePoint_kept)
    | (dsimp only)
    | split

theorem await_kept : ∀ x0 x1 s, Kept p s → Kept p (await x0 x1 s) := by
  intros x0 x1 s h
  unfold await
  repeat' first
    | (with_reducible assumption)
    | intro _
    | (with_reducible apply finish_kept)
    | (with_reducible apply waitEffect_kept)
    | (with_reducible apply State.modBurin_kept)
    | (dsimp only)
    | split

theorem endShot_kept : ∀ x0 s, Kept p s → Kept p (endShot x0 s) := by
  intros x0 s h
  unfold endShot
  repeat' first
    | (with_reducible assumption)
    | intro _
    | (with_reducible apply State.modBurin_kept)
    | (with_reducible apply State.setCent_kept)
    | (with_reducible apply pump_kept)
    | (with_reducible apply checkStopped_kept)
    | (with_reducible apply flush_kept)
    | (dsimp only)
    | split

theorem launch_kept : ∀ x0 x1 x2 s, Kept p s → Kept p (launch x0 x1 x2 s) := by
  intros x0 x1 x2 s h
  unfold launch
  repeat' first
    | (with_reducible assumption)
    | intro _
    | (with_reducible apply State.modQueue_kept)
    | (with_reducible apply State.modBurin_kept)
    | (dsimp only)
    | split

theorem postResult_kept : ∀ x0 x1 s, Kept p s → Kept p (postResult x0 x1 s) := by
  intros x0 x1 s h
  unfold postResult
  repeat' first
    | (with_reducible assumption)
    | intro _
    | (with_reducible apply State.modBurin_kept)
    | (with_reducible apply trackRecord_kept)
    | (with_reducible apply post_kept)

theorem modMicro_kept : ∀ x0 x1 s, Kept p s → Kept p (modMicro x0 x1 s) := by
  intros x0 x1 s h
  unfold modMicro
  repeat' first
    | (with_reducible assumption)
    | intro _
    | (with_reducible apply State.modBurin_kept)

theorem beginRun_kept : ∀ x0 s, Kept p s → Kept p (beginRun x0 s) := by
  intros x0 s h
  unfold beginRun
  repeat' first
    | (with_reducible assumption)
    | intro _
    | (with_reducible apply foldl_kept)
    | (with_reducible apply modMicro_kept)

theorem endRun_kept : ∀ x0 s, Kept p s → Kept p (endRun x0 s) := by
  intros x0 s h
  unfold endRun
  repeat' first
    | (with_reducible assumption)
    | intro _
    | (with_reducible apply modMicro_kept)
    | (with_reducible apply fetchOn_kept)
    | (with_reducible apply finish_kept)
    | (dsimp only)
    | split

theorem microSeq_kept : ∀ x0 x1 x2 x3 s, Kept p s → keptMicro p (microSeq x0 x1 x2 x3 s) := by
  intros x0 x1 x2 x3 s h
  unfold microSeq
  repeat' first
    | (with_reducible assumption)
    | (with_reducible exact True.intro)
    | intro _
    | (with_reducible apply modMicro_kept)
    | (with_reducible apply modRegs_kept)
    | (dsimp only)
    | split

theorem microAlu_kept : ∀ x0 x1 x2 s, Kept p s → Kept p (microAlu x0 x1 x2 s) := by
  intros x0 x1 x2 s h
  unfold microAlu
  repeat' first
    | (with_reducible assumption)
    | intro _
    | (with_reducible apply State.modBurin_kept)
    | (with_reducible apply modRegs_kept)

theorem microAcc_kept : ∀ x0 x1 x2 s, Kept p s → Kept p (microAcc x0 x1 x2 s) := by
  intros x0 x1 x2 s h
  unfold microAcc
  repeat' first
    | (with_reducible assumption)
    | intro _
    | (with_reducible apply State.modBurin_kept)
    | (with_reducible apply modRegs_kept)

theorem microMemOp_kept : ∀ x0 x1 x2 s, Kept p s → Kept p (microMemOp x0 x1 x2 s) := by
  intros x0 x1 x2 s h
  unfold microMemOp
  repeat' first
    | (with_reducible assumption)
    | intro _
    | (with_reducible apply modRegs_kept)
    | (with_reducible apply State.modBurin_kept)
    | (dsimp only)
    | split

theorem microPtr_kept : ∀ x0 x1 x2 s, Kept p s → keptMicro p (microPtr x0 x1 x2 s) := by
  intros x0 x1 x2 s h
  unfold microPtr
  repeat' first
    | (with_reducible assumption)
    | (with_reducible exact True.intro)
    | intro _
    | (with_reducible apply modRegs_kept)
    | (dsimp only)
    | split

theorem microSel_kept : ∀ x0 x1 x2 s, Kept p s → Kept p (microSel x0 x1 x2 s) := by
  intros x0 x1 x2 s h
  unfold microSel
  repeat' first
    | (with_reducible assumption)
    | intro _
    | (with_reducible apply State.modBurin_kept)

theorem microXbr_kept : ∀ x0 x1 x2 x3 s, Kept p s → keptMicro p (microXbr x0 x1 x2 x3 s) := by
  intros x0 x1 x2 x3 s h
  unfold microXbr
  repeat' first
    | (with_reducible assumption)
    | (with_reducible exact True.intro)
    | intro _
    | (with_reducible apply modMicro_kept)
    | (with_reducible apply State.modBurin_kept)
    | (with_reducible apply launch_kept)
    | (with_reducible apply modRegs_kept)
    | (dsimp only)
    | split

theorem microWait_kept : ∀ x0 x1 x2 s, Kept p s → keptMicro p (microWait x0 x1 x2 s) := by
  intros x0 x1 x2 s h
  unfold microWait
  repeat' first
    | (with_reducible assumption)
    | (with_reducible exact True.intro)
    | intro _
    | (with_reducible apply modMicro_kept)
    | (with_reducible apply State.modBurin_kept)

theorem microHat_kept : ∀ x0 x1 x2 x3 s, Kept p s → keptMicro p (microHat x0 x1 x2 x3 s) := by
  intros x0 x1 x2 x3 s h
  unfold microHat
  repeat' first
    | (with_reducible assumption)
    | (with_reducible exact True.intro)
    | intro _
    | (with_reducible apply raiseEp_kept)
    | (with_reducible apply State.modBurin_kept)
    | (with_reducible apply consume_kept)
    | (with_reducible apply microWait_kept)
    | (with_reducible apply sendEp_kept)
    | (with_reducible apply takeArrival_kept)
    | (dsimp only)
    | split

theorem microTake_kept : ∀ x0 x1 x2 s, Kept p s → Kept p (microTake x0 x1 x2 s) := by
  intros x0 x1 x2 s h
  unfold microTake
  repeat' first
    | (with_reducible assumption)
    | intro _
    | (with_reducible apply takePoint_kept)
    | (with_reducible apply State.modBurin_kept)
    | (dsimp only)
    | split

theorem microIq_kept : ∀ x0 x1 x2 x3 s, Kept p s → keptMicro p (microIq x0 x1 x2 x3 s) := by
  intros x0 x1 x2 x3 s h
  unfold microIq
  repeat' first
    | (with_reducible assumption)
    | (with_reducible exact True.intro)
    | intro _
    | (with_reducible apply State.modBurin_kept)
    | (with_reducible apply microWait_kept)
    | (with_reducible apply microTake_kept)
    | (dsimp only)
    | split

theorem microSpr_kept : ∀ x0 x1 x2 x3 s, Kept p s → keptMicro p (microSpr x0 x1 x2 x3 s) := by
  intros x0 x1 x2 x3 s h
  unfold microSpr
  repeat' first
    | (with_reducible assumption)
    | (with_reducible exact True.intro)
    | intro _
    | (with_reducible apply State.modBurin_kept)
    | (with_reducible apply modRegs_kept)
    | (with_reducible apply postResult_kept)
    | (with_reducible apply endShot_kept)
    | (dsimp only)
    | split

theorem ite_micro (c : Prop) [Decidable c] (a b : MicroOut) (ha : keptMicro p a) (hb : keptMicro p b) :
    keptMicro p (if c then a else b) := by
  split
  · exact ha
  · exact hb

theorem microDo_kept : ∀ (b w m upc : Nat) (s : State), Kept p s → keptMicro p (microDo b w m upc s) := by
  intro b w m upc s h
  have hp := microPtr_kept b w m s h
  unfold microDo
  dsimp only
  repeat' first
    | (with_reducible assumption)
    | (with_reducible exact True.intro)
    | (with_reducible apply ite_micro)
    | (with_reducible apply microSeq_kept)
    | (with_reducible apply microXbr_kept)
    | (with_reducible apply microWait_kept)
    | (with_reducible apply microHat_kept)
    | (with_reducible apply microIq_kept)
    | (with_reducible apply microSpr_kept)
    | (with_reducible apply microAlu_kept)
    | (with_reducible apply microAcc_kept)
    | (with_reducible apply microMemOp_kept)
    | (with_reducible apply microSel_kept)
    | (with_reducible apply waitEffect_kept)
  split
  · next t _ heq => rw [heq] at hp; exact hp
  · exact hp

theorem microRun_kept : ∀ (b w n upc : Nat) (s t : State), microRun b w n upc s = some t → Kept p s → Kept p t := by
  intro b w n
  induction n with
  | zero => intro upc s t e h; unfold microRun at e; injection e with e; subst e; exact h
  | succ n ih =>
    intro upc s t e h
    have hm := microDo_kept b w (s.microword (upc % 4096)) (upc % 4096) s h
    unfold microRun at e
    dsimp only at e
    split at e
    · contradiction
    · next heq => rw [heq] at hm; injection e with e; subst e; exact hm
    · next heq =>
      rw [heq] at hm
      split at e
      · injection e with e; subst e; exact endRun_kept _ _ hm
      · exact ih _ _ _ e hm

theorem runFrom_kept : ∀ x0 x1 s, Kept p s → keptOut p (runFrom x0 x1 s) := by
  intros x0 x1 s h
  unfold runFrom
  repeat' first
    | (with_reducible assumption)
    | (with_reducible exact True.intro)
    | (with_reducible refine microRun_kept _ _ _ _ _ _ (by assumption) ?_)
    | (dsimp only)
    | split

theorem issue_kept : ∀ x0 x1 f s, (∀ s, Kept p s → Kept p (f s)) → Kept p s → keptOut p (issue x0 x1 f s) := by
  intros x0 x1 f s hf h
  unfold issue
  repeat' first
    | (with_reducible assumption)
    | (with_reducible exact True.intro)
    | intro _
    | (with_reducible apply hf)
    | (with_reducible apply runFrom_kept)
    | (with_reducible apply beginRun_kept)
    | (dsimp only)
    | split

theorem execPatchOpcode_kept : ∀ x0 x1 x2 s, Kept p s → keptOut p (execPatchOpcode x0 x1 x2 s) :=
  fun _ _ _ _ h => issue_kept _ _ _ _ (fun _ h => h) h

theorem jumps_kept : ∀ x0 x1 x2 s, Kept p s → keptOut p (jumps x0 x1 x2 s) := by
  intros x0 x1 x2 s h
  unfold jumps
  repeat' first
    | (with_reducible assumption)
    | (with_reducible exact True.intro)
    | intro _
    | (with_reducible apply issue_kept)
    | (with_reducible apply fetchOn_kept)
    | (with_reducible apply modRegs_kept)

theorem plain_kept : ∀ x0 x1 x2 s, Kept p s → keptOut p (plain x0 x1 x2 s) := by
  intros x0 x1 x2 s h
  unfold plain
  repeat' first
    | (with_reducible assumption)
    | (with_reducible exact True.intro)
    | intro _
    | (with_reducible apply issue_kept)
    | (with_reducible apply finish_kept)
    | (with_reducible apply modRegs_kept)

theorem alu_kept : ∀ x0 x1 x2 x3 x4 x5 s, Kept p s → keptOut p (alu x0 x1 x2 x3 x4 x5 s) := by
  intros x0 x1 x2 x3 x4 x5 s h
  unfold alu
  repeat' first
    | (with_reducible assumption)
    | (with_reducible exact True.intro)
    | intro _
    | (with_reducible apply plain_kept)

theorem aluI_kept : ∀ x0 x1 x2 x3 x4 x5 s, Kept p s → keptOut p (aluI x0 x1 x2 x3 x4 x5 s) := by
  intros x0 x1 x2 x3 x4 x5 s h
  unfold aluI
  repeat' first
    | (with_reducible assumption)
    | (with_reducible exact True.intro)
    | intro _
    | (with_reducible apply plain_kept)

theorem aluSat_kept : ∀ x0 x1 x2 x3 x4 x5 s, Kept p s → keptOut p (aluSat x0 x1 x2 x3 x4 x5 s) := by
  intros x0 x1 x2 x3 x4 x5 s h
  unfold aluSat
  repeat' first
    | (with_reducible assumption)
    | (with_reducible exact True.intro)
    | intro _
    | (with_reducible apply plain_kept)

theorem execAdd_kept : ∀ x0 x1 x2 x3 s, Kept p s → keptOut p (execAdd x0 x1 x2 x3 s) := by
  intros x0 x1 x2 x3 s h
  unfold execAdd
  repeat' first
    | (with_reducible assumption)
    | (with_reducible exact True.intro)
    | intro _
    | (with_reducible apply alu_kept)

theorem execAddi_kept : ∀ x0 x1 x2 x3 s, Kept p s → keptOut p (execAddi x0 x1 x2 x3 s) := by
  intros x0 x1 x2 x3 s h
  unfold execAddi
  repeat' first
    | (with_reducible assumption)
    | (with_reducible exact True.intro)
    | intro _
    | (with_reducible apply aluI_kept)

theorem execAddp_kept : ∀ x0 x1 x2 s, Kept p s → keptOut p (execAddp x0 x1 x2 s) := by
  intros x0 x1 x2 s h
  unfold execAddp
  repeat' first
    | (with_reducible assumption)
    | (with_reducible exact True.intro)
    | intro _
    | (with_reducible apply plain_kept)

theorem execAddpi_kept : ∀ x0 x1 x2 s, Kept p s → keptOut p (execAddpi x0 x1 x2 s) := by
  intros x0 x1 x2 s h
  unfold execAddpi
  repeat' first
    | (with_reducible assumption)
    | (with_reducible exact True.intro)
    | intro _
    | (with_reducible apply plain_kept)

theorem execAdds_kept : ∀ x0 x1 x2 x3 s, Kept p s → keptOut p (execAdds x0 x1 x2 x3 s) := by
  intros x0 x1 x2 x3 s h
  unfold execAdds
  repeat' first
    | (with_reducible assumption)
    | (with_reducible exact True.intro)
    | intro _
    | (with_reducible apply aluSat_kept)

theorem execAnd_kept : ∀ x0 x1 x2 x3 s, Kept p s → keptOut p (execAnd x0 x1 x2 x3 s) := by
  intros x0 x1 x2 x3 s h
  unfold execAnd
  repeat' first
    | (with_reducible assumption)
    | (with_reducible exact True.intro)
    | intro _
    | (with_reducible apply alu_kept)

theorem execAndi_kept : ∀ x0 x1 x2 x3 s, Kept p s → keptOut p (execAndi x0 x1 x2 x3 s) := by
  intros x0 x1 x2 x3 s h
  unfold execAndi
  repeat' first
    | (with_reducible assumption)
    | (with_reducible exact True.intro)
    | intro _
    | (with_reducible apply aluI_kept)

theorem execDep_kept : ∀ x0 x1 x2 x3 x4 s, Kept p s → keptOut p (execDep x0 x1 x2 x3 x4 s) := by
  intros x0 x1 x2 x3 x4 s h
  unfold execDep
  repeat' first
    | (with_reducible assumption)
    | (with_reducible exact True.intro)
    | intro _
    | (with_reducible apply plain_kept)

theorem execExts_kept : ∀ x0 x1 x2 x3 x4 s, Kept p s → keptOut p (execExts x0 x1 x2 x3 x4 s) := by
  intros x0 x1 x2 x3 x4 s h
  unfold execExts
  repeat' first
    | (with_reducible assumption)
    | (with_reducible exact True.intro)
    | intro _
    | (with_reducible apply plain_kept)

theorem execExtu_kept : ∀ x0 x1 x2 x3 x4 s, Kept p s → keptOut p (execExtu x0 x1 x2 x3 x4 s) := by
  intros x0 x1 x2 x3 x4 s h
  unfold execExtu
  repeat' first
    | (with_reducible assumption)
    | (with_reducible exact True.intro)
    | intro _
    | (with_reducible apply plain_kept)

theorem execLeap_kept : ∀ x0 x1 x2 x3 x4 s, Kept p s → keptOut p (execLeap x0 x1 x2 x3 x4 s) := by
  intros x0 x1 x2 x3 x4 s h
  unfold execLeap
  repeat' first
    | (with_reducible assumption)
    | (with_reducible exact True.intro)
    | intro _
    | (with_reducible apply plain_kept)

theorem execMax_kept : ∀ x0 x1 x2 x3 s, Kept p s → keptOut p (execMax x0 x1 x2 x3 s) := by
  intros x0 x1 x2 x3 s h
  unfold execMax
  repeat' first
    | (with_reducible assumption)
    | (with_reducible exact True.intro)
    | intro _
    | (with_reducible apply alu_kept)

theorem execMaxu_kept : ∀ x0 x1 x2 x3 s, Kept p s → keptOut p (execMaxu x0 x1 x2 x3 s) := by
  intros x0 x1 x2 x3 s h
  unfold execMaxu
  repeat' first
    | (with_reducible assumption)
    | (with_reducible exact True.intro)
    | intro _
    | (with_reducible apply alu_kept)

theorem execMin_kept : ∀ x0 x1 x2 x3 s, Kept p s → keptOut p (execMin x0 x1 x2 x3 s) := by
  intros x0 x1 x2 x3 s h
  unfold execMin
  repeat' first
    | (with_reducible assumption)
    | (with_reducible exact True.intro)
    | intro _
    | (with_reducible apply alu_kept)

theorem execMinu_kept : ∀ x0 x1 x2 x3 s, Kept p s → keptOut p (execMinu x0 x1 x2 x3 s) := by
  intros x0 x1 x2 x3 s h
  unfold execMinu
  repeat' first
    | (with_reducible assumption)
    | (with_reducible exact True.intro)
    | intro _
    | (with_reducible apply alu_kept)

theorem execModp_kept : ∀ x0 x1 x2 s, Kept p s → keptOut p (execModp x0 x1 x2 s) := by
  intros x0 x1 x2 s h
  unfold execModp
  repeat' first
    | (with_reducible assumption)
    | (with_reducible exact True.intro)
    | intro _
    | (with_reducible apply plain_kept)

theorem execMov_kept : ∀ x0 x1 x2 s, Kept p s → keptOut p (execMov x0 x1 x2 s) := by
  intros x0 x1 x2 s h
  unfold execMov
  repeat' first
    | (with_reducible assumption)
    | (with_reducible exact True.intro)
    | intro _
    | (with_reducible apply plain_kept)

theorem execMovgp_kept : ∀ x0 x1 x2 s, Kept p s → keptOut p (execMovgp x0 x1 x2 s) := by
  intros x0 x1 x2 s h
  unfold execMovgp
  repeat' first
    | (with_reducible assumption)
    | (with_reducible exact True.intro)
    | intro _
    | (with_reducible apply plain_kept)

theorem execMovhi_kept : ∀ x0 x1 x2 s, Kept p s → keptOut p (execMovhi x0 x1 x2 s) := by
  intros x0 x1 x2 s h
  unfold execMovhi
  repeat' first
    | (with_reducible assumption)
    | (with_reducible exact True.intro)
    | intro _
    | (with_reducible apply plain_kept)

theorem execMovi_kept : ∀ x0 x1 x2 s, Kept p s → keptOut p (execMovi x0 x1 x2 s) := by
  intros x0 x1 x2 s h
  unfold execMovi
  repeat' first
    | (with_reducible assumption)
    | (with_reducible exact True.intro)
    | intro _
    | (with_reducible apply plain_kept)

theorem execMovmg_kept : ∀ x0 x1 x2 s, Kept p s → keptOut p (execMovmg x0 x1 x2 s) := by
  intros x0 x1 x2 s h
  unfold execMovmg
  repeat' first
    | (with_reducible assumption)
    | (with_reducible exact True.intro)
    | intro _
    | (with_reducible apply plain_kept)

theorem execMovmi_kept : ∀ x0 x1 x2 s, Kept p s → keptOut p (execMovmi x0 x1 x2 s) := by
  intros x0 x1 x2 s h
  unfold execMovmi
  repeat' first
    | (with_reducible assumption)
    | (with_reducible exact True.intro)
    | intro _
    | (with_reducible apply plain_kept)

theorem execMovpg_kept : ∀ x0 x1 x2 s, Kept p s → keptOut p (execMovpg x0 x1 x2 s) := by
  intros x0 x1 x2 s h
  unfold execMovpg
  repeat' first
    | (with_reducible assumption)
    | (with_reducible exact True.intro)
    | intro _
    | (with_reducible apply plain_kept)

theorem execMovpi_kept : ∀ x0 x1 x2 s, Kept p s → keptOut p (execMovpi x0 x1 x2 s) := by
  intros x0 x1 x2 s h
  unfold execMovpi
  repeat' first
    | (with_reducible assumption)
    | (with_reducible exact True.intro)
    | intro _
    | (with_reducible apply plain_kept)

theorem execMul_kept : ∀ x0 x1 x2 x3 s, Kept p s → keptOut p (execMul x0 x1 x2 x3 s) := by
  intros x0 x1 x2 x3 s h
  unfold execMul
  repeat' first
    | (with_reducible assumption)
    | (with_reducible exact True.intro)
    | intro _
    | (with_reducible apply alu_kept)

theorem execMulh_kept : ∀ x0 x1 x2 x3 s, Kept p s → keptOut p (execMulh x0 x1 x2 x3 s) := by
  intros x0 x1 x2 x3 s h
  unfold execMulh
  repeat' first
    | (with_reducible assumption)
    | (with_reducible exact True.intro)
    | intro _
    | (with_reducible apply alu_kept)

theorem execOr_kept : ∀ x0 x1 x2 x3 s, Kept p s → keptOut p (execOr x0 x1 x2 x3 s) := by
  intros x0 x1 x2 x3 s h
  unfold execOr
  repeat' first
    | (with_reducible assumption)
    | (with_reducible exact True.intro)
    | intro _
    | (with_reducible apply alu_kept)

theorem execOri_kept : ∀ x0 x1 x2 x3 s, Kept p s → keptOut p (execOri x0 x1 x2 x3 s) := by
  intros x0 x1 x2 x3 s h
  unfold execOri
  repeat' first
    | (with_reducible assumption)
    | (with_reducible exact True.intro)
    | intro _
    | (with_reducible apply aluI_kept)

theorem execSar_kept : ∀ x0 x1 x2 x3 s, Kept p s → keptOut p (execSar x0 x1 x2 x3 s) := by
  intros x0 x1 x2 x3 s h
  unfold execSar
  repeat' first
    | (with_reducible assumption)
    | (with_reducible exact True.intro)
    | intro _
    | (with_reducible apply alu_kept)

theorem execSari_kept : ∀ x0 x1 x2 x3 s, Kept p s → keptOut p (execSari x0 x1 x2 x3 s) := by
  intros x0 x1 x2 x3 s h
  unfold execSari
  repeat' first
    | (with_reducible assumption)
    | (with_reducible exact True.intro)
    | intro _
    | (with_reducible apply aluI_kept)

theorem execShin_kept : ∀ x0 x1 x2 x3 s, Kept p s → keptOut p (execShin x0 x1 x2 x3 s) := by
  intros x0 x1 x2 x3 s h
  unfold execShin
  repeat' first
    | (with_reducible assumption)
    | (with_reducible exact True.intro)
    | intro _
    | (with_reducible apply plain_kept)

theorem execShl_kept : ∀ x0 x1 x2 x3 s, Kept p s → keptOut p (execShl x0 x1 x2 x3 s) := by
  intros x0 x1 x2 x3 s h
  unfold execShl
  repeat' first
    | (with_reducible assumption)
    | (with_reducible exact True.intro)
    | intro _
    | (with_reducible apply alu_kept)

theorem execShli_kept : ∀ x0 x1 x2 x3 s, Kept p s → keptOut p (execShli x0 x1 x2 x3 s) := by
  intros x0 x1 x2 x3 s h
  unfold execShli
  repeat' first
    | (with_reducible assumption)
    | (with_reducible exact True.intro)
    | intro _
    | (with_reducible apply aluI_kept)

theorem execShr_kept : ∀ x0 x1 x2 x3 s, Kept p s → keptOut p (execShr x0 x1 x2 x3 s) := by
  intros x0 x1 x2 x3 s h
  unfold execShr
  repeat' first
    | (with_reducible assumption)
    | (with_reducible exact True.intro)
    | intro _
    | (with_reducible apply alu_kept)

theorem execShri_kept : ∀ x0 x1 x2 x3 s, Kept p s → keptOut p (execShri x0 x1 x2 x3 s) := by
  intros x0 x1 x2 x3 s h
  unfold execShri
  repeat' first
    | (with_reducible assumption)
    | (with_reducible exact True.intro)
    | intro _
    | (with_reducible apply aluI_kept)

theorem execSub_kept : ∀ x0 x1 x2 x3 s, Kept p s → keptOut p (execSub x0 x1 x2 x3 s) := by
  intros x0 x1 x2 x3 s h
  unfold execSub
  repeat' first
    | (with_reducible assumption)
    | (with_reducible exact True.intro)
    | intro _
    | (with_reducible apply alu_kept)

theorem execSubs_kept : ∀ x0 x1 x2 x3 s, Kept p s → keptOut p (execSubs x0 x1 x2 x3 s) := by
  intros x0 x1 x2 x3 s h
  unfold execSubs
  repeat' first
    | (with_reducible assumption)
    | (with_reducible exact True.intro)
    | intro _
    | (with_reducible apply aluSat_kept)

theorem execXor_kept : ∀ x0 x1 x2 x3 s, Kept p s → keptOut p (execXor x0 x1 x2 x3 s) := by
  intros x0 x1 x2 x3 s h
  unfold execXor
  repeat' first
    | (with_reducible assumption)
    | (with_reducible exact True.intro)
    | intro _
    | (with_reducible apply alu_kept)

theorem execXori_kept : ∀ x0 x1 x2 x3 s, Kept p s → keptOut p (execXori x0 x1 x2 x3 s) := by
  intros x0 x1 x2 x3 s h
  unfold execXori
  repeat' first
    | (with_reducible assumption)
    | (with_reducible exact True.intro)
    | intro _
    | (with_reducible apply aluI_kept)

theorem haltAt_kept : ∀ x0 x1 x2 s, Kept p s → Kept p (haltAt x0 x1 x2 s).1 := by
  intros x0 x1 x2 s h
  unfold haltAt
  repeat' first
    | (with_reducible assumption)
    | intro _
    | (with_reducible apply foldl_kept)
    | (with_reducible apply State.setRoot_kept)
    | (with_reducible apply postGap_kept)
    | (with_reducible apply checkStopped_kept)
    | (with_reducible apply swapsDue_kept)
    | (with_reducible apply fixSwaps_kept)
    | (dsimp only)
    | split

theorem haltAt_pair {x0 x1 x2 s a b} (heq : haltAt x0 x1 x2 s = (a, b)) : Kept p s → Kept p a := by
  intro h
  have := haltAt_kept x0 x1 x2 s h
  rw [heq] at this
  exact this

theorem beginStop_kept : ∀ x0 s, Kept p s → Kept p (beginStop x0 s).1 := by
  intros x0 s h
  unfold beginStop
  repeat' first
    | (with_reducible assumption)
    | intro _
    | (with_reducible apply haltAt_kept)

theorem beginStop_pair {x0 s a b} (heq : beginStop x0 s = (a, b)) : Kept p s → Kept p a := by
  intro h
  have := beginStop_kept x0 s h
  rw [heq] at this
  exact this

theorem execClose_kept : ∀ x0 s, Kept p s → keptOut p (execClose x0 s) := by
  intros x0 s h
  unfold execClose
  repeat' first
    | (with_reducible assumption)
    | (with_reducible exact True.intro)
    | intro _
    | (with_reducible apply command_kept)

theorem execFence_kept : ∀ x0 x1 s, Kept p s → keptOut p (execFence x0 x1 s) := by
  intros x0 x1 s h
  unfold execFence
  repeat' first
    | (with_reducible assumption)
    | (with_reducible exact True.intro)
    | intro _
    | (with_reducible apply command_kept)

theorem stopAll_kept : ∀ s, Kept p s → Kept p (stopAll s) := by
  intros s h
  unfold stopAll
  repeat' first
    | (with_reducible assumption)
    | intro _
    | (with_reducible apply each_kept)
    | (with_reducible apply tell_kept)
    | (with_reducible apply beginStop_kept)
    | (with_reducible refine beginStop_pair (by assumption) ?_)
    | (dsimp only)
    | split

theorem modeReply_kept : ∀ x0 x1 s, Kept p s → Kept p (modeReply x0 x1 s).s := by
  intros x0 x1 s h
  unfold modeReply
  repeat' first
    | (with_reducible assumption)
    | intro _
    | (with_reducible apply Reply.bad_kept)
    | (with_reducible apply doubtDevice_kept)
    | (with_reducible apply setMode_kept)
    | (with_reducible apply stopAll_kept)
    | (with_reducible apply Reply.no_kept)
    | (with_reducible apply Reply.busy_kept)
    | (dsimp only)
    | split

theorem execModeSet_kept : ∀ x0 x1 s, Kept p s → keptOut p (execModeSet x0 x1 s) := by
  intros x0 x1 s h
  unfold execModeSet
  repeat' first
    | (with_reducible assumption)
    | (with_reducible exact True.intro)
    | intro _
    | (with_reducible apply mailbox_kept)
    | (with_reducible apply modeReply_kept)

theorem execOpen_kept : ∀ x0 x1 x2 s, Kept p s → keptOut p (execOpen x0 x1 x2 s) := by
  intros x0 x1 x2 s h
  unfold execOpen
  repeat' first
    | (with_reducible assumption)
    | (with_reducible exact True.intro)
    | intro _
    | (with_reducible apply command_kept)
    | (with_reducible apply Reply.bad_kept)
    | (with_reducible apply Reply.no_kept)
    | (with_reducible apply Reply.busy_kept)
    | (dsimp only)
    | split

theorem execQueueResume_kept : ∀ x0 s, Kept p s → keptOut p (execQueueResume x0 s) := by
  intros x0 s h
  unfold execQueueResume
  repeat' first
    | (with_reducible assumption)
    | (with_reducible exact True.intro)
    | intro _
    | (with_reducible apply command_kept)
    | (with_reducible apply State.modSq_kept)

theorem execUnknownCommand_kept : ∀ x0 x1 s, Kept p s → keptOut p (execUnknownCommand x0 x1 s) := by
  intros x0 x1 s h
  unfold execUnknownCommand
  repeat' first
    | (with_reducible assumption)
    | (with_reducible exact True.intro)
    | intro _
    | (with_reducible apply command_kept)
    | (with_reducible apply Reply.no_kept)
    | (dsimp only)
    | split

theorem haltPart_kept : ∀ x0 x1 x2 s, Kept p s → Kept p (haltPart x0 x1 x2 s) := by
  intros x0 x1 x2 s h
  unfold haltPart
  repeat' first
    | (with_reducible assumption)
    | intro _
    | (with_reducible apply tell_kept)
    | (with_reducible apply State.modRoot_kept)
    | (with_reducible apply haltAt_kept)
    | (with_reducible refine haltAt_pair (by assumption) ?_)
    | (dsimp only)
    | split

theorem muteHeld_kept : ∀ s, Kept p s → Kept p (muteHeld s) :=
  fun _ h => h

theorem ownerChange_kept : ∀ x0 s, Kept p s → Kept p (ownerChange x0 s) := by
  intros x0 s h
  unfold ownerChange
  repeat' first
    | (with_reducible assumption)
    | intro _
    | (with_reducible apply State.modTone_kept)
    | (with_reducible apply startTone_kept)
    | (with_reducible apply State.modRot_kept)
    | (with_reducible apply eachChain_kept)
    | (dsimp only)
    | split

theorem setOwner_kept : ∀ x0 x1 s, Kept p s → Kept p (setOwner x0 x1 s) := by
  intros x0 x1 s h
  unfold setOwner
  repeat' first
    | (with_reducible assumption)
    | intro _
    | (with_reducible apply State.modQueue_kept)
    | (with_reducible apply State.modAcqPort_kept)
    | (dsimp only)
    | split

theorem setSlot_kept : ∀ x0 x1 x2 s, Kept p s → Kept p (setSlot x0 x1 x2 s) := by
  intros x0 x1 x2 s h
  unfold setSlot
  repeat' first
    | (with_reducible assumption)
    | intro _
    | (with_reducible apply State.modBurin_kept)

theorem becomeOwner_kept : ∀ x0 x1 x2 s, Kept p s → Kept p (becomeOwner x0 x1 x2 s) := by
  intros x0 x1 x2 s h
  unfold becomeOwner
  repeat' first
    | (with_reducible assumption)
    | intro _
    | (with_reducible apply muteHeld_kept)
    | (with_reducible apply ownerChange_kept)
    | (with_reducible apply setOwner_kept)
    | (with_reducible apply setSlot_kept)

theorem setClaims_kept : ∀ x0 x1 s, Kept p s → Kept p (setClaims x0 x1 s) := by
  intros x0 x1 s h
  unfold setClaims
  repeat' first
    | (with_reducible assumption)
    | intro _
    | (with_reducible apply State.modQueue_kept)
    | (with_reducible apply State.modAcqPort_kept)
    | (dsimp only)
    | split

theorem itemOwn_kept : ∀ x0 x1 x2 s, Kept p s → keptItem p (itemOwn x0 x1 x2 s) := by
  intros x0 x1 x2 s h
  unfold itemOwn
  repeat' first
    | (with_reducible assumption)
    | (with_reducible exact True.intro)
    | intro _
    | (with_reducible apply itemBad_kept)
    | (with_reducible apply becomeOwner_kept)
    | (with_reducible apply setClaims_kept)
    | (with_reducible apply setSlot_kept)
    | (dsimp only)
    | split

theorem restRes_kept : ∀ x0 s, Kept p s → Kept p (restRes x0 s) := by
  intros x0 s h
  unfold restRes
  repeat' first
    | (with_reducible assumption)
    | intro _
    | (with_reducible apply discardQueue_kept)
    | (with_reducible apply endPlay_kept)
    | (with_reducible apply State.modRot_kept)
    | (with_reducible apply endFast_kept)
    | (dsimp only)
    | split

theorem releaseOne_kept : ∀ x0 x1 s, Kept p s → Kept p (releaseOne x0 x1 s) := by
  intros x0 x1 s h
  unfold releaseOne
  repeat' first
    | (with_reducible assumption)
    | intro _
    | (with_reducible apply setSlot_kept)
    | (with_reducible apply restRes_kept)
    | (with_reducible apply ownerChange_kept)
    | (with_reducible apply setOwner_kept)
    | (with_reducible apply setClaims_kept)
    | (with_reducible apply becomeOwner_kept)
    | (dsimp only)
    | split

theorem setEach_kept : ∀ x0 x1 x2 x3 f s, (∀ n s, Kept p s → Kept p (f n s)) → Kept p s →
    keptItem p (setEach x0 x1 x2 x3 f s) := by
  intros x0 x1 x2 x3 f s hf h
  unfold setEach
  repeat' first
    | (with_reducible assumption)
    | (with_reducible exact True.intro)
    | intro _
    | (with_reducible apply itemBad_kept)
    | (with_reducible apply hf)
    | (with_reducible apply each_kept)
    | (dsimp only)
    | split

theorem setHostmute_kept : ∀ x0 x1 s, Kept p s → Kept p (setHostmute x0 x1 s) := by
  intros x0 x1 s h
  unfold setHostmute
  repeat' first
    | (with_reducible assumption)
    | intro _
    | (with_reducible apply State.modPort_kept)
    | (dsimp only)
    | split

theorem itemPort_kept : ∀ x0 x1 x2 x3 s, Kept p s → keptItem p (itemPort x0 x1 x2 x3 s) := by
  intros x0 x1 x2 x3 s h
  unfold itemPort
  repeat' first
    | (with_reducible assumption)
    | (with_reducible exact True.intro)
    | intro _
    | (with_reducible apply itemBad_kept)
    | (with_reducible apply each_kept)
    | (with_reducible apply setHostmute_kept)
    | (with_reducible apply State.modPort_kept)
    | (dsimp only)
    | split

theorem itemTone_kept : ∀ x0 x1 x2 x3 s, Kept p s → keptItem p (itemTone x0 x1 x2 x3 s) := by
  intros x0 x1 x2 x3 s h
  unfold itemTone
  repeat' first
    | (with_reducible assumption)
    | (with_reducible exact True.intro)
    | intro _
    | (with_reducible apply setEach_kept)
    | (with_reducible apply setTrack_kept)
    | (with_reducible apply State.modTone_kept)
    | (dsimp only)
    | split

theorem itemZ_kept : ∀ x0 x1 x2 x3 x4 s, Kept p s → keptItem p (itemZ x0 x1 x2 x3 x4 s) := by
  intros x0 x1 x2 x3 x4 s h
  unfold itemZ
  repeat' first
    | (with_reducible assumption)
    | (with_reducible exact True.intro)
    | intro _
    | (with_reducible apply setEach_kept)
    | (with_reducible apply State.modZ_kept)
    | (dsimp only)
    | split

theorem itemRo_kept : ∀ x0 x1 x2 x3 x4 s, Kept p s → keptItem p (itemRo x0 x1 x2 x3 x4 s) := by
  intros x0 x1 x2 x3 x4 s h
  unfold itemRo
  repeat' first
    | (with_reducible assumption)
    | (with_reducible exact True.intro)
    | intro _
    | (with_reducible apply setEach_kept)
    | (with_reducible apply State.modRot_kept)
    | (with_reducible apply startTone_kept)
    | (dsimp only)
    | split

theorem itemStip_kept : ∀ x0 x1 x2 x3 x4 s, Kept p s → keptItem p (itemStip x0 x1 x2 x3 x4 s) := by
  intros x0 x1 x2 x3 x4 s h
  unfold itemStip
  repeat' first
    | (with_reducible assumption)
    | (with_reducible exact True.intro)
    | intro _
    | (with_reducible apply setEach_kept)
    | (with_reducible apply startStip_kept)
    | (with_reducible apply State.modAcqPort_kept)
    | (dsimp only)
    | split

theorem applyItem_kept : ∀ x0 x1 x2 s, Kept p s → keptItem p (applyItem x0 x1 x2 s) := by
  intros x0 x1 x2 s h
  unfold applyItem
  repeat' first
    | (with_reducible assumption)
    | (with_reducible exact True.intro)
    | intro _
    | (with_reducible apply ite_item)
    | (with_reducible apply ite_kept)
    | (with_reducible apply itemBad_kept)
    | (with_reducible apply itemOwn_kept)
    | (with_reducible apply each_kept)
    | (with_reducible apply releaseOne_kept)
    | (with_reducible apply State.modCell_kept)
    | (with_reducible apply setEach_kept)
    | (with_reducible apply State.modQueue_kept)
    | (with_reducible apply State.modBurin_kept)
    | (with_reducible apply itemPort_kept)
    | (with_reducible apply itemTone_kept)
    | (with_reducible apply itemZ_kept)
    | (with_reducible apply itemRo_kept)
    | (with_reducible apply itemStip_kept)
    | (dsimp only)
    | split

theorem applyItems_kept : ∀ (cell : Nat) (all l : List CfgItem) (k : Nat) (s : State), Kept p s →
    Kept p (applyItems cell all l k s).1 := by
  intro cell all l
  induction l with
  | nil => intro k s h; exact h
  | cons c l ih =>
    intro k s h
    have hi := applyItem_kept cell all c s h
    unfold applyItems
    split
    · exact h
    · next heq => rw [heq] at hi; exact ih _ _ hi

theorem applyItems_pair {cell all l k s a b} (heq : applyItems cell all l k s = (a, b)) : Kept p s → Kept p a := by
  intro h
  have := applyItems_kept cell all l k s h
  rw [heq] at this
  exact this

theorem rangeChange_kept : ∀ x0 s, Kept p s → Kept p (rangeChange x0 s) := by
  intros x0 s h
  unfold rangeChange
  repeat' first
    | (with_reducible assumption)
    | intro _
    | (with_reducible apply State.modZ_kept)
    | (with_reducible apply discardQueue_kept)
    | (with_reducible apply zPark_kept)
    | (with_reducible apply zLoad_kept)

theorem parkChange_kept : ∀ x0 s, Kept p s → Kept p (parkChange x0 s) := by
  intros x0 s h
  unfold parkChange
  repeat' first
    | (with_reducible assumption)
    | intro _
    | (with_reducible apply zLoad_kept)

theorem configureReply_kept : ∀ x0 x1 s, Kept p s → Kept p (configureReply x0 x1 s).s := by
  intros x0 x1 s h
  unfold configureReply
  repeat' first
    | (with_reducible assumption)
    | intro _
    | (with_reducible apply Reply.bad_kept)
    | (with_reducible apply Reply.busy_kept)
    | (with_reducible apply applyItems_kept)
    | (with_reducible refine applyItems_pair (by assumption) ?_)
    | (with_reducible apply each_kept)
    | (with_reducible apply rangeChange_kept)
    | (with_reducible apply parkChange_kept)
    | (dsimp only)
    | split

theorem span_kept : ∀ x0 x1 r s, Kept p r.s → Kept p s → Kept p (span x0 x1 r s).s := by
  intro t devs r s hr h
  unfold span
  split
  · exact hr
  · split
    · exact ite_reply hr h
    · extract_lets base own
      have hb : Kept p base := ite_kept hr h
      clear_value base
      exact each_kept _ _ _ (fun _ _ h => tell_kept _ _ _ h) hb

theorem onCell_kept : ∀ x0 x1 x2 r s, Kept p r.s → Kept p s → Kept p (onCell x0 x1 x2 r s).s := by
  intros x0 x1 x2 r s h h
  unfold onCell
  repeat' first
    | (with_reducible assumption)
    | intro _
    | (with_reducible apply span_kept)
    | (with_reducible apply Reply.no_kept)
    | (with_reducible apply tell_kept)
    | (dsimp only)
    | split

theorem execCellConfigure_kept : ∀ x0 x1 x2 s, Kept p s → keptOut p (execCellConfigure x0 x1 x2 s) := by
  intros x0 x1 x2 s h
  unfold execCellConfigure
  repeat' first
    | (with_reducible assumption)
    | (with_reducible exact True.intro)
    | intro _
    | (with_reducible apply command_kept)
    | (with_reducible apply onCell_kept)
    | (with_reducible apply configureReply_kept)

theorem loadBurin_kept : ∀ x0 x1 x2 x3 x4 s, Kept p s → Kept p (loadBurin x0 x1 x2 x3 x4 s) := by
  intros x0 x1 x2 x3 x4 s h
  unfold loadBurin
  repeat' first
    | (with_reducible assumption)
    | intro _
    | (with_reducible apply State.modBurin_kept)
    | (with_reducible apply each_kept)
    | (with_reducible apply State.modQueue_kept)
    | (with_reducible apply flushEnds_kept)
    | (dsimp only)
    | split

theorem loadReply_kept : ∀ x0 x1 x2 x3 x4 x5 x6 x7 s, Kept p s → Kept p (loadReply x0 x1 x2 x3 x4 x5 x6 x7 s).s := by
  intros x0 x1 x2 x3 x4 x5 x6 x7 s h
  unfold loadReply
  repeat' first
    | (with_reducible assumption)
    | intro _
    | (with_reducible apply ite_reply)
    | (with_reducible apply Reply.bad_kept)
    | (with_reducible apply Reply.busy_kept)
    | (with_reducible apply Reply.no_kept)
    | (with_reducible apply noteUe_kept)
    | (with_reducible apply each_kept)
    | (with_reducible apply loadBurin_kept)
    | (dsimp only)
    | split

theorem execCellLoad_kept : ∀ x0 x1 x2 x3 x4 x5 x6 x7 x8 s, Kept p s →
    keptOut p (execCellLoad x0 x1 x2 x3 x4 x5 x6 x7 x8 s) := by
  intros x0 x1 x2 x3 x4 x5 x6 x7 x8 s h
  unfold execCellLoad
  repeat' first
    | (with_reducible assumption)
    | (with_reducible exact True.intro)
    | intro _
    | (with_reducible apply command_kept)
    | (with_reducible apply onCell_kept)
    | (with_reducible apply loadReply_kept)

theorem execBar2Read_kept : ∀ x0 x1 s, Kept p s → keptOut p (execBar2Read x0 x1 s) := by
  intros x0 x1 s h
  unfold execBar2Read
  repeat' first
    | (with_reducible assumption)
    | (with_reducible exact True.intro)
    | intro _
    | (with_reducible apply noteUe_kept)
    | (dsimp only)
    | split

theorem execBar2Write_kept : ∀ x0 x1 s, Kept p s → keptOut p (execBar2Write x0 x1 s) := by
  intros x0 x1 s h
  unfold execBar2Write
  repeat' first
    | (with_reducible assumption)
    | (with_reducible exact True.intro)
    | intro _
    | (with_reducible apply each_kept)
    | (with_reducible apply writeGranule_kept)
    | (dsimp only)
    | split

theorem execCompletionRelease_kept : ∀ x0 s, Kept p s → keptOut p (execCompletionRelease x0 s) := by
  intros x0 s h
  unfold execCompletionRelease
  repeat' first
    | (with_reducible assumption)
    | (with_reducible exact True.intro)
    | intro _
    | (with_reducible apply writeCompletion_kept)
    | (with_reducible apply State.modCq_kept)
    | (dsimp only)
    | split

theorem execCqInterruptTimer_kept : ∀ x0 s, Kept p s → keptOut p (execCqInterruptTimer x0 s) := by
  intros x0 s h
  unfold execCqInterruptTimer
  repeat' first
    | (with_reducible assumption)
    | (with_reducible exact True.intro)
    | intro _
    | (with_reducible apply raiseVec_kept)
    | (with_reducible apply State.setCq_kept)
    | (dsimp only)
    | split

theorem writeCqdb_kept : ∀ x0 x1 s, Kept p s → Kept p (writeCqdb x0 x1 s) := by
  intros x0 x1 s h
  unfold writeCqdb
  repeat' first
    | (with_reducible assumption)
    | intro _
    | (with_reducible apply setSum_kept)
    | (with_reducible apply State.modSq_kept)
    | (with_reducible apply State.setCq_kept)
    | (dsimp only)
    | split

theorem execCqdb_kept : ∀ x0 x1 s, Kept p s → keptOut p (execCqdb x0 x1 s) := by
  intros x0 x1 s h
  unfold execCqdb
  repeat' first
    | (with_reducible assumption)
    | (with_reducible exact True.intro)
    | intro _
    | (with_reducible apply writeCqdb_kept)
    | (dsimp only)
    | split

theorem writeFaultsum_kept : ∀ x0 s, Kept p s → Kept p (writeFaultsum x0 s) := by
  intros x0 s h
  unfold writeFaultsum
  repeat' first
    | (with_reducible assumption)
    | intro _
    | (with_reducible apply each_kept)
    | (with_reducible apply setSum_kept)
    | (dsimp only)
    | split

theorem execFaultsum_kept : ∀ x0 s, Kept p s → keptOut p (execFaultsum x0 s) := by
  intros x0 s h
  unfold execFaultsum
  repeat' first
    | (with_reducible assumption)
    | (with_reducible exact True.intro)
    | intro _
    | (with_reducible apply writeFaultsum_kept)
    | (dsimp only)
    | split

theorem hbRestart_kept : ∀ s, Kept p s → Kept p (hbRestart s) :=
  fun _ h => h

theorem writeHbCtl_kept : ∀ x0 s, Kept p s → Kept p (writeHbCtl x0 s) := by
  intros x0 s h
  unfold writeHbCtl
  repeat' first
    | (with_reducible assumption)
    | intro _
    | (with_reducible apply hbRestart_kept)

theorem execHbCtl_kept : ∀ x0 s, Kept p s → keptOut p (execHbCtl x0 s) := by
  intros x0 s h
  unfold execHbCtl
  repeat' first
    | (with_reducible assumption)
    | (with_reducible exact True.intro)
    | intro _
    | (with_reducible apply writeHbCtl_kept)
    | (dsimp only)
    | split

theorem execHbDevAdvance_kept : ∀ s, Kept p s → keptOut p (execHbDevAdvance s) := by
  intros s h
  unfold execHbDevAdvance
  repeat' first
    | (with_reducible assumption)
    | (with_reducible exact True.intro)
    | intro _
    | (dsimp only)
    | split

theorem writeHbHost_kept : ∀ x0 s, Kept p s → Kept p (writeHbHost x0 s) := by
  intros x0 s h
  unfold writeHbHost
  repeat' first
    | (with_reducible assumption)
    | intro _
    | (with_reducible apply hbRestart_kept)

theorem execHbHost_kept : ∀ x0 s, Kept p s → keptOut p (execHbHost x0 s) := by
  intros x0 s h
  unfold execHbHost
  repeat' first
    | (with_reducible assumption)
    | (with_reducible exact True.intro)
    | intro _
    | (with_reducible apply writeHbHost_kept)
    | (dsimp only)
    | split

theorem execHeartbeatTimeout_kept : ∀ s, Kept p s → keptOut p (execHeartbeatTimeout s) := by
  intros s h
  unfold execHeartbeatTimeout
  repeat' first
    | (with_reducible assumption)
    | (with_reducible exact True.intro)
    | intro _
    | (with_reducible apply doubtDevice_kept)
    | (with_reducible apply setSum_kept)
    | (dsimp only)
    | split

theorem execPcieLinkDown_kept : ∀ s, Kept p s → keptOut p (execPcieLinkDown s) := by
  intros s h
  unfold execPcieLinkDown
  repeat' first
    | (with_reducible assumption)
    | (with_reducible exact True.intro)
    | intro _
    | (with_reducible apply closeSession_kept)

theorem execPcieLinkUp_kept : ∀ x0 x1 s, Kept p s → keptOut p (execPcieLinkUp x0 x1 s) := by
  intros x0 x1 s h
  unfold execPcieLinkUp
  repeat' first
    | (with_reducible assumption)
    | (with_reducible exact True.intro)
    | intro _
    | (dsimp only)
    | split

theorem writeBase_kept : ∀ x0 x1 x2 x3 s, Kept p s → Kept p (writeBase x0 x1 x2 x3 s) := by
  intros x0 x1 x2 x3 s h
  unfold writeBase
  repeat' first
    | (with_reducible assumption)
    | intro _
    | (with_reducible apply State.modSq_kept)
    | (with_reducible apply State.modCq_kept)
    | (dsimp only)
    | split

theorem writeSqctl_kept : ∀ x0 x1 s, Kept p s → Kept p (writeSqctl x0 x1 s) := by
  intros x0 x1 s h
  unfold writeSqctl
  repeat' first
    | (with_reducible assumption)
    | intro _
    | (with_reducible apply State.modSq_kept)

theorem writeCqctl_kept : ∀ x0 x1 s, Kept p s → Kept p (writeCqctl x0 x1 s) := by
  intros x0 x1 s h
  unfold writeCqctl
  repeat' first
    | (with_reducible assumption)
    | intro _
    | (with_reducible apply State.modCq_kept)

theorem writeSqdb_kept : ∀ x0 x1 x2 s, Kept p s → Kept p (writeSqdb x0 x1 x2 s) := by
  intros x0 x1 x2 s h
  unfold writeSqdb
  repeat' first
    | (with_reducible assumption)
    | intro _
    | (with_reducible apply setSum_kept)
    | (with_reducible apply State.setSq_kept)
    | (dsimp only)
    | split

theorem writeMsix_kept : ∀ x0 x1 s, Kept p s → Kept p (writeMsix x0 x1 s) := by
  intros x0 x1 s h
  unfold writeMsix
  repeat' first
    | (with_reducible assumption)
    | intro _
    | (with_reducible apply raiseVec_kept)
    | (dsimp only)
    | split

theorem writeBar0_kept : ∀ x0 x1 s, Kept p s → Kept p (writeBar0 x0 x1 s) := by
  intros x0 x1 s h
  unfold writeBar0
  repeat' first
    | (with_reducible assumption)
    | intro _
    | (with_reducible apply writeFaultsum_kept)
    | (with_reducible apply writeHbHost_kept)
    | (with_reducible apply writeHbCtl_kept)
    | (with_reducible apply writeBase_kept)
    | (with_reducible apply writeSqctl_kept)
    | (with_reducible apply writeCqctl_kept)
    | (with_reducible apply writeSqdb_kept)
    | (with_reducible apply writeCqdb_kept)
    | (with_reducible apply writeMsix_kept)
    | (dsimp only)
    | split

theorem execRegisterWrite_kept : ∀ x0 x1 x2 s, Kept p s → keptOut p (execRegisterWrite x0 x1 x2 s) := by
  intros x0 x1 x2 s h
  unfold execRegisterWrite
  repeat' first
    | (with_reducible assumption)
    | (with_reducible exact True.intro)
    | intro _
    | (with_reducible apply writeBar0_kept)
    | (dsimp only)
    | split

theorem execSqctl_kept : ∀ x0 x1 s, Kept p s → keptOut p (execSqctl x0 x1 s) := by
  intros x0 x1 s h
  unfold execSqctl
  repeat' first
    | (with_reducible assumption)
    | (with_reducible exact True.intro)
    | intro _
    | (with_reducible apply writeSqctl_kept)
    | (dsimp only)
    | split

theorem execSqdb_kept : ∀ x0 x1 x2 s, Kept p s → keptOut p (execSqdb x0 x1 x2 s) := by
  intros x0 x1 x2 s h
  unfold execSqdb
  repeat' first
    | (with_reducible assumption)
    | (with_reducible exact True.intro)
    | intro _
    | (with_reducible apply writeSqdb_kept)
    | (dsimp only)
    | split

end Sys2Proof.Machine
end

