-- ==== Sys2Proof/Laws/KeptTime.lean ====
section
/-! SUPPORT. Memory keeps its canonical form and the queue is left alone
(device time, links, power, clearing faults). -/

namespace Sys2Proof.Machine
variable {p : List Instr}

theorem State.setTdom_kept : ∀ s x1 x2, Kept p s → Kept p (State.setTdom s x1 x2) := by
  intros s x1 x2 h
  unfold State.setTdom
  repeat' first
    | (with_reducible assumption)
    | intro _
    | (dsimp only)
    | split

theorem State.modTdom_kept : ∀ s x1 x2, Kept p s → Kept p (State.modTdom s x1 x2) := by
  intros s x1 x2 h
  unfold State.modTdom
  repeat' first
    | (with_reducible assumption)
    | intro _
    | (with_reducible apply State.setTdom_kept)

theorem selectDom_kept : ∀ x0 s, Kept p s → Kept p (selectDom x0 s) :=
  fun _ _ h => h

theorem noteStep_kept : ∀ s, Kept p s → Kept p (noteStep s) :=
  fun _ h => h

theorem setLabel_kept : ∀ x0 s, Kept p s → Kept p (setLabel x0 s) := by
  intros x0 s h
  unfold setLabel
  repeat' first
    | (with_reducible assumption)
    | intro _
    | (with_reducible apply State.modTdom_kept)
    | (with_reducible apply noteStep_kept)

theorem stepBy_kept : ∀ x0 s, Kept p s → Kept p (stepBy x0 s) := by
  intros x0 s h
  unfold stepBy
  repeat' first
    | (with_reducible assumption)
    | intro _
    | (with_reducible apply setLabel_kept)

theorem stepTo_kept : ∀ x0 s, Kept p s → Kept p (stepTo x0 s) := by
  intros x0 s h
  unfold stepTo
  repeat' first
    | (with_reducible assumption)
    | intro _
    | (with_reducible apply State.modTdom_kept)
    | (with_reducible apply stepBy_kept)

theorem enterTracking_kept : ∀ x0 s, Kept p s → Kept p (enterTracking x0 s) := by
  intros x0 s h
  unfold enterTracking
  repeat' first
    | (with_reducible assumption)
    | intro _
    | (with_reducible apply State.modTdom_kept)
    | (with_reducible apply selectDom_kept)
    | (with_reducible apply stepTo_kept)
    | (dsimp only)
    | split

theorem holdover_kept : ∀ x0 s, Kept p s → Kept p (holdover x0 s) :=
  fun _ _ h => h

theorem leftTracking_kept : ∀ x0 s, Kept p s → Kept p (leftTracking x0 s) := by
  intros x0 s h
  unfold leftTracking
  repeat' first
    | (with_reducible assumption)
    | intro _
    | (with_reducible apply selectDom_kept)
    | (with_reducible apply holdover_kept)
    | (dsimp only)
    | split

theorem loseDom_kept : ∀ x0 x1 s, Kept p s → Kept p (loseDom x0 x1 s) := by
  intros x0 x1 s h
  unfold loseDom
  repeat' first
    | (with_reducible assumption)
    | intro _
    | (with_reducible apply leftTracking_kept)
    | (with_reducible apply State.setTdom_kept)
    | (dsimp only)
    | split

theorem loseSources_kept : ∀ x0 x1 s, Kept p s → Kept p (loseSources x0 x1 s) := by
  intros x0 x1 s h
  unfold loseSources
  repeat' first
    | (with_reducible assumption)
    | intro _
    | (with_reducible apply each_kept)
    | (with_reducible apply loseDom_kept)
    | (dsimp only)
    | split

theorem measure_kept : ∀ x0 x1 x2 s, Kept p s → Kept p (measure x0 x1 x2 s) := by
  intros x0 x1 x2 s h
  unfold measure
  repeat' first
    | (with_reducible assumption)
    | intro _
    | (with_reducible apply State.setTdom_kept)
    | (with_reducible apply loseDom_kept)
    | (with_reducible apply State.modTdom_kept)
    | (with_reducible apply enterTracking_kept)
    | (dsimp only)
    | split

theorem disableChan_kept : ∀ x0 x1 s, Kept p s → Kept p (disableChan x0 x1 s) := by
  intros x0 x1 s h
  unfold disableChan
  repeat' first
    | (with_reducible assumption)
    | intro _
    | (with_reducible apply State.modChCtr_kept)
    | (with_reducible apply State.setChan_kept)
    | (with_reducible apply setSum_kept)
    | (with_reducible apply returnCredits_kept)

theorem cutChan_kept : ∀ x0 s, Kept p s → Kept p (cutChan x0 s) := by
  intros x0 s h
  unfold cutChan
  repeat' first
    | (with_reducible assumption)
    | intro _
    | (with_reducible apply disableChan_kept)
    | (with_reducible apply State.modChCtr_kept)
    | (with_reducible apply State.modChan_kept)

theorem cutPhases_kept : ∀ x0 s, Kept p s → Kept p (cutPhases x0 s) := by
  intros x0 s h
  unfold cutPhases
  repeat' first
    | (with_reducible assumption)
    | intro _
    | (with_reducible apply each_kept)
    | (with_reducible apply dropAsked_kept)
    | (with_reducible apply State.modCell_kept)
    | (with_reducible apply decideFlights_kept)
    | (dsimp only)
    | split

theorem forgetCut_kept : ∀ x0 s, Kept p s → Kept p (forgetCut x0 s) := by
  intros x0 s h
  unfold forgetCut
  repeat' first
    | (with_reducible assumption)

theorem tellPeers_kept : ∀ x0 x1 s, Kept p s → Kept p (tellPeers x0 x1 s) := by
  intros x0 x1 s h
  unfold tellPeers
  repeat' first
    | (with_reducible assumption)
    | intro _
    | (with_reducible apply each_kept)
    | (with_reducible apply sendFrame_kept)
    | (dsimp only)
    | split

theorem foundBeyond_kept : ∀ x0 x1 s, Kept p s → Kept p (foundBeyond x0 x1 s) := by
  intros x0 x1 s h
  unfold foundBeyond
  repeat' first
    | (with_reducible assumption)
    | intro _
    | (with_reducible apply tellPeers_kept)
    | (with_reducible apply forgetCut_kept)
    | (dsimp only)
    | split

theorem linkBack_kept : ∀ x0 s, Kept p s → Kept p (linkBack x0 s) := by
  intros x0 s h
  unfold linkBack
  repeat' first
    | (with_reducible assumption)
    | intro _
    | (with_reducible apply tellPeers_kept)
    | (with_reducible apply sendFrame_kept)
    | (dsimp only)
    | split

theorem tellLost_kept : ∀ x0 x1 s, Kept p s → Kept p (tellLost x0 x1 s) := by
  intros x0 x1 s h
  unfold tellLost
  repeat' first
    | (with_reducible assumption)
    | intro _
    | (with_reducible apply tellPeers_kept)
    | (dsimp only)
    | split

theorem portLoss_kept : ∀ x0 x1 x2 s, Kept p s → Kept p (portLoss x0 x1 x2 s) := by
  intros x0 x1 x2 s h
  unfold portLoss
  repeat' first
    | (with_reducible assumption)
    | intro _
    | (with_reducible apply State.setJport_kept)
    | (with_reducible apply setSum_kept)
    | (with_reducible apply State.modJctr_kept)
    | (with_reducible apply each_kept)
    | (with_reducible apply cutChan_kept)
    | (with_reducible apply loseSources_kept)
    | (with_reducible apply cutPhases_kept)
    | (with_reducible apply tellLost_kept)
    | (with_reducible apply forgetCut_kept)
    | (with_reducible apply doubtPlate_kept)
    | (dsimp only)
    | split

theorem linksDown_kept : ∀ s, Kept p s → Kept p (linksDown s) := by
  intros s h
  unfold linksDown
  repeat' first
    | (with_reducible assumption)
    | intro _
    | (with_reducible apply each_kept)
    | (with_reducible apply portLoss_kept)
    | (with_reducible apply loseSources_kept)
    | (dsimp only)
    | split

theorem loseBeyond_kept : ∀ x0 x1 s, Kept p s → Kept p (loseBeyond x0 x1 s) := by
  intros x0 x1 s h
  unfold loseBeyond
  repeat' first
    | (with_reducible assumption)
    | intro _
    | (with_reducible apply each_kept)
    | (with_reducible apply cutChan_kept)
    | (with_reducible apply tellLost_kept)
    | (with_reducible apply cutPhases_kept)
    | (with_reducible apply doubtPlate_kept)
    | (dsimp only)
    | split

theorem standZ_kept : ∀ x0 x1 s, Kept p s → Kept p (standZ x0 x1 s) := by
  intros x0 x1 s h
  unfold standZ
  repeat' first
    | (with_reducible assumption)
    | intro _
    | (with_reducible apply each_kept)
    | (with_reducible apply State.modZ_kept)
    | (dsimp only)
    | split

theorem enter_kept : ∀ x0 x1 s, Kept p s → Kept p (enter x0 x1 s) := by
  intros x0 x1 s h
  unfold enter
  repeat' first
    | (with_reducible assumption)
    | intro _
    | (with_reducible apply standZ_kept)
    | (with_reducible apply State.modDom_kept)
    | (dsimp only)
    | split

theorem tiuUnlock_kept : ∀ x0 s, Kept p s → Kept p (tiuUnlock x0 s) :=
  fun _ _ h => h

theorem leaveOn_kept : ∀ x0 s, Kept p s → Kept p (leaveOn x0 s) := by
  intros x0 s h
  unfold leaveOn
  repeat' first
    | (with_reducible assumption)
    | intro _
    | (with_reducible apply injectDom_kept)
    | (with_reducible apply each_kept)
    | (with_reducible apply discardQueue_kept)
    | (with_reducible apply endPlay_kept)
    | (with_reducible apply zPark_kept)
    | (with_reducible apply mute_kept)
    | (with_reducible apply calLeave_kept)
    | (with_reducible apply disarmDomain_kept)
    | (with_reducible apply closeSession_kept)
    | (with_reducible apply loseSources_kept)
    | (with_reducible apply linksDown_kept)
    | (with_reducible apply State.modStampChan_kept)
    | (with_reducible apply genIdle_kept)
    | (with_reducible apply tiuUnlock_kept)
    | (dsimp only)
    | split

theorem beginEntry_kept : ∀ x0 x1 s, Kept p s → Kept p (beginEntry x0 x1 s) := by
  intros x0 x1 s h
  unfold beginEntry
  repeat' first
    | (with_reducible assumption)
    | intro _
    | (with_reducible apply enter_kept)
    | (with_reducible apply leaveOn_kept)

theorem beginWake_kept : ∀ x0 x1 x2 s, Kept p s → Kept p (beginWake x0 x1 x2 s) := by
  intros x0 x1 x2 s h
  unfold beginWake
  repeat' first
    | (with_reducible assumption)
    | intro _
    | (with_reducible apply State.modDom_kept)

theorem emptyRings_kept : ∀ s, Kept p s → Kept p (emptyRings s) :=
  fun _ h => h

theorem resetDomain_kept : ∀ x0 s, Kept p s → Kept p (resetDomain x0 s) := by
  intros x0 s h
  unfold resetDomain
  repeat' first
    | (with_reducible assumption)
    | intro _
    | (with_reducible apply State.setStampChan_kept)
    | (with_reducible apply emptyRings_kept)
    | (with_reducible apply each_kept)
    | (with_reducible apply State.modBurin_kept)
    | (with_reducible apply State.setPort_kept)
    | (with_reducible apply State.modQueue_kept)
    | (with_reducible apply State.setTone_kept)
    | (with_reducible apply State.setZc_kept)
    | (with_reducible apply State.modZ_kept)
    | (with_reducible apply State.setZbank_kept)
    | (with_reducible apply State.setRot_kept)
    | (with_reducible apply clearChains_kept)
    | (with_reducible apply State.modAcqPort_kept)
    | (with_reducible exact ⟨rfl, h.2⟩)
    | (dsimp only)
    | split

theorem loseContent_kept : ∀ x0 s, Kept p s → Kept p (loseContent x0 s) := by
  intros x0 s h
  unfold loseContent
  repeat' first
    | (with_reducible assumption)
    | intro _
    | (with_reducible apply standZ_kept)
    | (with_reducible apply resetDomain_kept)

theorem keepRetained_kept : ∀ x0 s, Kept p s → Kept p (keepRetained x0 s) := by
  intros x0 s h
  unfold keepRetained
  repeat' first
    | (with_reducible assumption)
    | intro _
    | (with_reducible apply State.modStampChan_kept)
    | (with_reducible apply each_kept)
    | (with_reducible apply State.modBurin_kept)
    | (with_reducible apply State.modTone_kept)
    | (with_reducible apply State.modPort_kept)
    | (dsimp only)
    | split

theorem endEntry_kept : ∀ x0 s, Kept p s → Kept p (endEntry x0 s) := by
  intros x0 s h
  unfold endEntry
  repeat' first
    | (with_reducible assumption)
    | intro _
    | (with_reducible apply State.modDom_kept)
    | (with_reducible apply loseContent_kept)
    | (with_reducible apply keepRetained_kept)
    | (dsimp only)
    | split

theorem settleDom_kept : ∀ x0 x1 x2 x3 s, Kept p s → Kept p (settleDom x0 x1 x2 x3 s) := by
  intros x0 x1 x2 x3 s h
  unfold settleDom
  repeat' first
    | (with_reducible assumption)
    | intro _
    | (with_reducible apply decideFlights_kept)
    | (with_reducible apply logRefusal_kept)
    | (with_reducible apply pump_kept)
    | (dsimp only)
    | split

theorem execEntryComplete_kept : ∀ x0 s, Kept p s → keptOut p (execEntryComplete x0 s) := by
  intros x0 s h
  unfold execEntryComplete
  repeat' first
    | (with_reducible assumption)
    | (with_reducible exact True.intro)
    | intro _
    | (with_reducible apply settleDom_kept)
    | (with_reducible apply endEntry_kept)
    | (dsimp only)
    | split

theorem failWake_kept : ∀ x0 s, Kept p s → Kept p (failWake x0 s) := by
  intros x0 s h
  unfold failWake
  repeat' first
    | (with_reducible assumption)
    | intro _
    | (with_reducible apply setSum_kept)
    | (with_reducible apply loseContent_kept)
    | (with_reducible apply State.modDom_kept)
    | (with_reducible apply settleDom_kept)
    | (dsimp only)
    | split

theorem wakeStep_kept : ∀ x0 x1 x2 s, Kept p s → Kept p (wakeStep x0 x1 x2 s) := by
  intros x0 x1 x2 s h
  unfold wakeStep
  repeat' first
    | (with_reducible assumption)
    | intro _
    | (with_reducible apply failWake_kept)
    | (with_reducible apply State.setDom_kept)
    | (dsimp only)
    | split

theorem execIsolationRelease_kept : ∀ x0 s, Kept p s → keptOut p (execIsolationRelease x0 s) := by
  intros x0 s h
  unfold execIsolationRelease
  repeat' first
    | (with_reducible assumption)
    | (with_reducible exact True.intro)
    | intro _
    | (with_reducible apply wakeStep_kept)

theorem execOscillatorReady_kept : ∀ x0 s, Kept p s → keptOut p (execOscillatorReady x0 s) := by
  intros x0 s h
  unfold execOscillatorReady
  repeat' first
    | (with_reducible assumption)
    | (with_reducible exact True.intro)
    | intro _
    | (with_reducible apply wakeStep_kept)

theorem wakeRequest_kept : ∀ x0 x1 x2 x3 s, Kept p s → keptWake p (wakeRequest x0 x1 x2 x3 s) := by
  intros x0 x1 x2 x3 s h
  unfold wakeRequest
  repeat' first
    | (with_reducible assumption)
    | (with_reducible exact True.intro)
    | intro _
    | (with_reducible apply State.modDom_kept)
    | (with_reducible apply standZ_kept)
    | (with_reducible apply settleDom_kept)
    | (with_reducible apply beginWake_kept)
    | (with_reducible apply endEntry_kept)
    | (dsimp only)
    | split

theorem wakeRequest_refused : ∀ {d a b : Nat} {why : Why} {s t : State} {n : Nat}, wakeRequest d a b why s = .refused n t →
    Kept p s → Kept p t := by
  intro d a b why s t n e h
  have hw := wakeRequest_kept d a b why s h
  rw [e] at hw
  exact hw

theorem wakeRequest_taken : ∀ {d a b : Nat} {why : Why} {s t : State}, wakeRequest d a b why s = .taken t →
    Kept p s → Kept p t := by
  intro d a b why s t e h
  have hw := wakeRequest_kept d a b why s h
  rw [e] at hw
  exact hw

theorem powerReply_kept : ∀ (sb : Bool) (ref d st wake : Nat) (s : State), Kept p s →
    Kept p (powerReply sb ref d st wake s).s := by
  intro sb ref d st wake s h
  unfold powerReply
  extract_lets k src why
  repeat' first
    | (with_reducible assumption)
    | (with_reducible apply ite_reply)
    | (with_reducible apply ite_kept)
    | (with_reducible apply Reply.bad_kept)
    | (with_reducible apply Reply.no_kept)
    | (with_reducible apply Reply.busy_kept)
    | (with_reducible apply State.modDom_kept)
    | (with_reducible apply enter_kept)
    | (with_reducible apply beginEntry_kept)
    | (with_reducible refine wakeRequest_refused (by assumption) ?_)
    | (with_reducible refine wakeRequest_taken (by assumption) ?_)
    | (dsimp only)
    | split

theorem execPowerSetDomain_kept : ∀ x0 x1 x2 x3 s, Kept p s → keptOut p (execPowerSetDomain x0 x1 x2 x3 s) := by
  intros x0 x1 x2 x3 s h
  unfold execPowerSetDomain
  repeat' first
    | (with_reducible assumption)
    | (with_reducible exact True.intro)
    | intro _
    | (with_reducible apply mailbox_kept)
    | (with_reducible apply powerReply_kept)

theorem governorReply_kept : ∀ x0 s, Kept p s → Kept p (governorReply x0 s).s := by
  intros x0 s h
  unfold governorReply
  repeat' first
    | (with_reducible assumption)
    | intro _
    | (with_reducible apply Reply.bad_kept)
    | (dsimp only)
    | split

theorem execPowerSetGovernor_kept : ∀ x0 x1 s, Kept p s → keptOut p (execPowerSetGovernor x0 x1 s) := by
  intros x0 x1 s h
  unfold execPowerSetGovernor
  repeat' first
    | (with_reducible assumption)
    | (with_reducible exact True.intro)
    | intro _
    | (with_reducible apply command_kept)
    | (with_reducible apply governorReply_kept)

theorem execRegulatorReady_kept : ∀ x0 s, Kept p s → keptOut p (execRegulatorReady x0 s) := by
  intros x0 s h
  unfold execRegulatorReady
  repeat' first
    | (with_reducible assumption)
    | (with_reducible exact True.intro)
    | intro _
    | (with_reducible apply wakeStep_kept)

theorem trainDies_kept : ∀ x0 s, Kept p s → Kept p (trainDies x0 s) :=
  fun _ _ h => h

theorem nowOn_kept : ∀ x0 s, Kept p s → Kept p (nowOn x0 s) := by
  intros x0 s h
  unfold nowOn
  repeat' first
    | (with_reducible assumption)
    | intro _
    | (with_reducible apply each_kept)
    | (with_reducible apply State.modAcqPort_kept)
    | (with_reducible apply State.modDom_kept)
    | (with_reducible apply injectDom_kept)
    | (with_reducible apply settleDom_kept)

theorem reloadTiles_kept : ∀ x0 x1 s, Kept p s → Kept p (reloadTiles x0 x1 s) := by
  intros x0 x1 s h
  unfold reloadTiles
  repeat' first
    | (with_reducible assumption)
    | intro _
    | (with_reducible apply doubtDevice_kept)
    | (dsimp only)
    | split

theorem freshDomain_kept : ∀ x0 x1 s, Kept p s → Kept p (freshDomain x0 x1 s) := by
  intros x0 x1 s h
  unfold freshDomain
  repeat' first
    | (with_reducible assumption)
    | intro _
    | (with_reducible apply reloadTiles_kept)
    | (with_reducible apply calWake_kept)
    | (with_reducible apply flushEnds_kept)
    | (with_reducible apply resetDomain_kept)

theorem restoreDomain_kept : ∀ x0 x1 s, Kept p s → Kept p (restoreDomain x0 x1 s) := by
  intros x0 x1 s h
  unfold restoreDomain
  repeat' first
    | (with_reducible assumption)
    | intro _
    | (with_reducible apply trainDies_kept)
    | (with_reducible apply nowOn_kept)
    | (with_reducible apply freshDomain_kept)
    | (with_reducible apply failWake_kept)
    | (with_reducible apply State.modDom_kept)
    | (with_reducible apply each_kept)
    | (with_reducible apply clearChains_kept)
    | (with_reducible apply calWake_kept)
    | (dsimp only)
    | split

theorem execRestore_kept : ∀ x0 x1 s, Kept p s → keptOut p (execRestore x0 x1 s) := by
  intros x0 x1 s h
  unfold execRestore
  repeat' first
    | (with_reducible assumption)
    | (with_reducible exact True.intro)
    | intro _
    | (with_reducible apply failWake_kept)
    | (with_reducible apply restoreDomain_kept)
    | (dsimp only)
    | split

theorem execWakeTimeout_kept : ∀ x0 s, Kept p s → keptOut p (execWakeTimeout x0 s) := by
  intros x0 s h
  unfold execWakeTimeout
  repeat' first
    | (with_reducible assumption)
    | (with_reducible exact True.intro)
    | intro _
    | (with_reducible apply failWake_kept)
    | (dsimp only)
    | split

theorem hatchWake_kept : ∀ (ch : Nat) (s : State), Kept p s → Kept p (hatchWake ch s) := by
  intro ch s h
  unfold hatchWake
  refine each_kept _ _ _ ?_ h
  intro d s h
  split
  · split
    · next heq => exact logRefusal_kept _ _ _ _ _ (wakeRequest_refused heq h)
    · next heq => exact wakeRequest_taken heq h
    · exact h
  · exact h

theorem State.setElem_kept : ∀ s x1 x2 x3, Kept p s → Kept p (State.setElem s x1 x2 x3) := by
  intros s x1 x2 x3 h
  unfold State.setElem
  repeat' first
    | (with_reducible assumption)
    | intro _
    | (dsimp only)
    | split

theorem badEdges_kept : ∀ x0 x1 s, Kept p s → Kept p (badEdges x0 x1 s) := by
  intros x0 x1 s h
  unfold badEdges
  repeat' first
    | (with_reducible assumption)
    | intro _
    | (with_reducible apply State.modTdom_kept)
    | (with_reducible apply loseDom_kept)
    | (dsimp only)
    | split

theorem elemEdge_kept : ∀ x0 x1 s, Kept p s → Kept p (elemEdge x0 x1 s) := by
  intros x0 x1 s h
  unfold elemEdge
  repeat' first
    | (with_reducible assumption)
    | intro _
    | (with_reducible apply State.setElem_kept)
    | (dsimp only)
    | split

theorem reject_kept : ∀ s, Kept p s → Kept p (reject s) :=
  fun _ h => h

theorem ptpTake_kept : ∀ x0 f s, (∀ s, Kept p s → Kept p (f s)) → Kept p s → Kept p (ptpTake x0 f s) := by
  intros x0 f s hf h
  unfold ptpTake
  repeat' first
    | (with_reducible assumption)
    | intro _
    | (with_reducible apply hf)
    | (with_reducible apply reject_kept)
    | (dsimp only)
    | split

theorem execAnnounce_kept : ∀ x0 x1 x2 x3 x4 x5 x6 s, Kept p s → keptOut p (execAnnounce x0 x1 x2 x3 x4 x5 x6 s) := by
  intros x0 x1 x2 x3 x4 x5 x6 s h
  unfold execAnnounce
  repeat' first
    | (with_reducible assumption)
    | (with_reducible exact True.intro)
    | intro _
    | (with_reducible apply ptpTake_kept)
    | (with_reducible apply reject_kept)
    | (with_reducible apply State.modTdom_kept)
    | (dsimp only)
    | split

theorem execDelayReq_kept : ∀ x0 s, Kept p s → keptOut p (execDelayReq x0 s) := by
  intros x0 s h
  unfold execDelayReq
  repeat' first
    | (with_reducible assumption)
    | (with_reducible exact True.intro)
    | intro _
    | (with_reducible apply State.modTdom_kept)
    | (dsimp only)
    | split

theorem execDelayResp_kept : ∀ x0 x1 x2 s, Kept p s → keptOut p (execDelayResp x0 x1 x2 s) := by
  intros x0 x1 x2 s h
  unfold execDelayResp
  repeat' first
    | (with_reducible assumption)
    | (with_reducible exact True.intro)
    | intro _
    | (with_reducible apply ptpTake_kept)
    | (with_reducible apply State.setTdom_kept)
    | (dsimp only)
    | split

theorem execDomainLoss_kept : ∀ x0 s, Kept p s → keptOut p (execDomainLoss x0 s) := by
  intros x0 s h
  unfold execDomainLoss
  repeat' first
    | (with_reducible assumption)
    | (with_reducible exact True.intro)
    | intro _
    | (with_reducible apply loseDom_kept)
    | (with_reducible apply State.modTdom_kept)
    | (dsimp only)
    | split

theorem syncDone_kept : ∀ x0 x1 x2 s, Kept p s → Kept p (syncDone x0 x1 x2 s) := by
  intros x0 x1 x2 s h
  unfold syncDone
  repeat' first
    | (with_reducible assumption)
    | intro _
    | (with_reducible apply measure_kept)
    | (with_reducible apply State.setTdom_kept)

theorem execFollowUp_kept : ∀ x0 x1 x2 s, Kept p s → keptOut p (execFollowUp x0 x1 x2 s) := by
  intros x0 x1 x2 s h
  unfold execFollowUp
  repeat' first
    | (with_reducible assumption)
    | (with_reducible exact True.intro)
    | intro _
    | (with_reducible apply ptpTake_kept)
    | (with_reducible apply syncDone_kept)
    | (dsimp only)
    | split

theorem execHoldoverEvaluation_kept : ∀ s, Kept p s → keptOut p (execHoldoverEvaluation s) := by
  intros s h
  unfold execHoldoverEvaluation
  repeat' first
    | (with_reducible assumption)
    | (with_reducible exact True.intro)
    | intro _
    | (with_reducible apply setSum_kept)
    | (with_reducible apply doubtDevice_kept)
    | (dsimp only)
    | split

theorem execPpsEdge_kept : ∀ x0 x1 s, Kept p s → keptOut p (execPpsEdge x0 x1 s) := by
  intros x0 x1 s h
  unfold execPpsEdge
  repeat' first
    | (with_reducible assumption)
    | (with_reducible exact True.intro)
    | intro _
    | (with_reducible apply badEdges_kept)
    | (with_reducible apply State.setTdom_kept)
    | (with_reducible apply reject_kept)
    | (with_reducible apply measure_kept)
    | (dsimp only)
    | split

theorem execRevert_kept : ∀ s, Kept p s → keptOut p (execRevert s) := by
  intros s h
  unfold execRevert
  repeat' first
    | (with_reducible assumption)
    | (with_reducible exact True.intro)
    | intro _
    | (with_reducible apply selectDom_kept)
    | (dsimp only)
    | split

theorem execSync_kept : ∀ x0 s, Kept p s → keptOut p (execSync x0 s) := by
  intros x0 s h
  unfold execSync
  repeat' first
    | (with_reducible assumption)
    | (with_reducible exact True.intro)
    | intro _
    | (with_reducible apply ptpTake_kept)
    | (with_reducible apply State.modTdom_kept)
    | (with_reducible apply syncDone_kept)
    | (dsimp only)
    | split

theorem execTimeOutPulse_kept : ∀ x0 s, Kept p s → keptOut p (execTimeOutPulse x0 s) := by
  intros x0 s h
  unfold execTimeOutPulse
  repeat' first
    | (with_reducible assumption)
    | (with_reducible exact True.intro)
    | intro _
    | (with_reducible apply elemEdge_kept)

theorem timeRead_kept : ∀ s, Kept p s → Kept p (timeRead s) :=
  fun _ h => h

theorem execTimeQuery_kept : ∀ x0 x1 s, Kept p s → keptOut p (execTimeQuery x0 x1 s) := by
  intros x0 x1 s h
  unfold execTimeQuery
  repeat' first
    | (with_reducible assumption)
    | (with_reducible exact True.intro)
    | intro _
    | (with_reducible apply command_kept)
    | (with_reducible apply queryReply_kept)
    | (with_reducible apply timeRead_kept)

theorem timeSelectReply_kept : ∀ x0 s, Kept p s → Kept p (timeSelectReply x0 s).s := by
  intros x0 s h
  unfold timeSelectReply
  repeat' first
    | (with_reducible assumption)
    | intro _
    | (with_reducible apply Reply.bad_kept)
    | (with_reducible apply selectDom_kept)
    | (with_reducible apply stepTo_kept)
    | (dsimp only)
    | split

theorem execTimeSelect_kept : ∀ x0 x1 s, Kept p s → keptOut p (execTimeSelect x0 x1 s) := by
  intros x0 x1 s h
  unfold execTimeSelect
  repeat' first
    | (with_reducible assumption)
    | (with_reducible exact True.intro)
    | intro _
    | (with_reducible apply command_kept)
    | (with_reducible apply timeSelectReply_kept)

theorem timeDomainReply_kept : ∀ x0 x1 s, Kept p s → Kept p (timeDomainReply x0 x1 s).s := by
  intros x0 x1 s h
  unfold timeDomainReply
  repeat' first
    | (with_reducible assumption)
    | intro _
    | (with_reducible apply Reply.bad_kept)
    | (with_reducible apply Reply.busy_kept)
    | (with_reducible apply State.setTdom_kept)
    | (dsimp only)
    | split

theorem execTimeSetDomain_kept : ∀ x0 x1 x2 s, Kept p s → keptOut p (execTimeSetDomain x0 x1 x2 s) := by
  intros x0 x1 x2 s h
  unfold execTimeSetDomain
  repeat' first
    | (with_reducible assumption)
    | (with_reducible exact True.intro)
    | intro _
    | (with_reducible apply command_kept)
    | (with_reducible apply timeDomainReply_kept)

theorem timeServoReply_kept : ∀ x0 s, Kept p s → Kept p (timeServoReply x0 s).s := by
  intros x0 s h
  unfold timeServoReply
  repeat' first
    | (with_reducible assumption)
    | intro _
    | (with_reducible apply Reply.bad_kept)
    | (dsimp only)
    | split

theorem execTimeSetServo_kept : ∀ x0 x1 s, Kept p s → keptOut p (execTimeSetServo x0 x1 s) := by
  intros x0 x1 s h
  unfold execTimeSetServo
  repeat' first
    | (with_reducible assumption)
    | (with_reducible exact True.intro)
    | intro _
    | (with_reducible apply command_kept)
    | (with_reducible apply timeServoReply_kept)

theorem stepAbsReply_kept : ∀ x0 s, Kept p s → Kept p (stepAbsReply x0 s).s := by
  intros x0 s h
  unfold stepAbsReply
  repeat' first
    | (with_reducible assumption)
    | intro _
    | (with_reducible apply Reply.bad_kept)
    | (with_reducible apply Reply.busy_kept)
    | (dsimp only)
    | split

theorem execTimeSetStepAbs_kept : ∀ x0 x1 s, Kept p s → keptOut p (execTimeSetStepAbs x0 x1 s) := by
  intros x0 x1 s h
  unfold execTimeSetStepAbs
  repeat' first
    | (with_reducible assumption)
    | (with_reducible exact True.intro)
    | intro _
    | (with_reducible apply command_kept)
    | (with_reducible apply stepAbsReply_kept)

theorem stepRelReply_kept : ∀ x0 s, Kept p s → Kept p (stepRelReply x0 s).s := by
  intros x0 s h
  unfold stepRelReply
  repeat' first
    | (with_reducible assumption)
    | intro _
    | (with_reducible apply Reply.bad_kept)
    | (with_reducible apply Reply.busy_kept)
    | (with_reducible apply stepBy_kept)
    | (dsimp only)
    | split

theorem execTimeSetStepRel_kept : ∀ x0 x1 s, Kept p s → keptOut p (execTimeSetStepRel x0 x1 s) := by
  intros x0 x1 s h
  unfold execTimeSetStepRel
  repeat' first
    | (with_reducible assumption)
    | (with_reducible exact True.intro)
    | intro _
    | (with_reducible apply command_kept)
    | (with_reducible apply stepRelReply_kept)

theorem execTimeSetUtc_kept : ∀ x0 x1 s, Kept p s → keptOut p (execTimeSetUtc x0 x1 s) := by
  intros x0 x1 s h
  unfold execTimeSetUtc
  repeat' first
    | (with_reducible assumption)
    | (with_reducible exact True.intro)
    | intro _
    | (with_reducible apply command_kept)
    | (with_reducible apply Reply.bad_kept)
    | (dsimp only)
    | split

theorem timerArmReply_kept : ∀ x0 s, Kept p s → Kept p (timerArmReply x0 s).s := by
  intros x0 s h
  unfold timerArmReply
  repeat' first
    | (with_reducible assumption)
    | intro _
    | (with_reducible apply Reply.bad_kept)
    | (with_reducible apply Reply.busy_kept)
    | (with_reducible apply Reply.no_kept)
    | (with_reducible apply State.setElem_kept)
    | (dsimp only)
    | split

theorem execTimeTimerArm_kept : ∀ x0 x1 s, Kept p s → keptOut p (execTimeTimerArm x0 x1 s) := by
  intros x0 x1 s h
  unfold execTimeTimerArm
  repeat' first
    | (with_reducible assumption)
    | (with_reducible exact True.intro)
    | intro _
    | (with_reducible apply command_kept)
    | (with_reducible apply timerArmReply_kept)

theorem timerStopReply_kept : ∀ x0 x1 s, Kept p s → Kept p (timerStopReply x0 x1 s).s := by
  intros x0 x1 s h
  unfold timerStopReply
  repeat' first
    | (with_reducible assumption)
    | intro _
    | (with_reducible apply Reply.bad_kept)
    | (with_reducible apply State.setElem_kept)
    | (dsimp only)
    | split

theorem execTimeTimerStop_kept : ∀ x0 x1 x2 s, Kept p s → keptOut p (execTimeTimerStop x0 x1 x2 s) := by
  intros x0 x1 x2 s h
  unfold execTimeTimerStop
  repeat' first
    | (with_reducible assumption)
    | (with_reducible exact True.intro)
    | intro _
    | (with_reducible apply command_kept)
    | (with_reducible apply timerStopReply_kept)

theorem execTimerEvent_kept : ∀ x0 s, Kept p s → keptOut p (execTimerEvent x0 s) := by
  intros x0 s h
  unfold execTimerEvent
  repeat' first
    | (with_reducible assumption)
    | (with_reducible exact True.intro)
    | intro _
    | (with_reducible apply State.setElem_kept)
    | (with_reducible apply raiseEp_kept)
    | (dsimp only)
    | split

theorem execWindowEdge_kept : ∀ x0 s, Kept p s → keptOut p (execWindowEdge x0 s) := by
  intros x0 s h
  unfold execWindowEdge
  repeat' first
    | (with_reducible assumption)
    | (with_reducible exact True.intro)
    | intro _
    | (with_reducible apply elemEdge_kept)

theorem Cleared.s_kept : ∀ c, Kept p c.s → Kept p (Cleared.s c) :=
  fun _ h => h

theorem clearChan_kept : ∀ (k : Nat) (c : Cleared), Kept p c.s → Kept p (clearChan k c).s := by
  intro k c h
  unfold clearChan
  extract_lets
  split
  · exact h
  · split
    · exact h
    · exact h

theorem clearConverters_kept : ∀ c, Kept p c.s → Kept p (clearConverters c).s := by
  intros c h
  unfold clearConverters
  repeat' first
    | (with_reducible assumption)

theorem clearDevice_kept : ∀ (sel : Nat → Bool) (c : Cleared), Kept p c.s → Kept p (clearDevice sel c).s := by
  intro sel c h
  have hb : ∀ d b, Kept p (if b = true then hbRestart ({ c.s with devFault := d }) else { c.s with devFault := d }) :=
    fun d b => ite_kept (hbRestart_kept _ h) h
  have ht : ∀ (s : State) (b : Bool), Kept p s →
      Kept p (if b = true then { s with time := { s.time with holdLatch := false } } else s) := fun s b h => ite_kept h h
  have hh : ∀ (s : State) (b : Bool), Kept p s →
      Kept p (if b = true then { s with house := { s.house with shutLatch := false } } else s) := fun s b h => ite_kept h h
  exact hh _ _ (ht _ _ (hb _ _))

theorem clearNode_kept : ∀ (k : Nat) (c : Cleared), Kept p c.s → Kept p (clearNode k c).s := by
  intro k c h
  unfold clearNode
  extract_lets
  split
  · exact h
  · split
    · exact h
    · exact h

theorem eachCleared_kept : ∀ (f : Nat → Cleared → Cleared) (l : List Nat) (c : Cleared),
    (∀ k c, Kept p c.s → Kept p (f k c).s) → Kept p c.s → Kept p (eachCleared f l c).s := by
  intro f l
  induction l with
  | nil => intro c _ h; exact h
  | cons k l ih => intro c hf h; exact ih _ hf (hf k c h)

theorem clearRoot_kept : ∀ (up : Bool) (sel : Nat → Bool) (k : Nat) (c : Cleared), Kept p c.s →
    Kept p (clearRoot up sel k c).s := fun _ _ _ _ h => h

theorem clearPart_kept : ∀ (scope : Nat) (roots : List Nat) (up : Bool) (s : State), Kept p s →
    Kept p (clearPart scope roots up s).s :=
  fun _ _ _ _ h => eachCleared_kept _ _ _ (fun _ _ h => clearRoot_kept _ _ _ _ h) h

theorem clearZ_kept : ∀ (z : Nat) (c : Cleared), Kept p c.s → Kept p (clearZ z c).s := fun _ _ h => h

theorem clearScope_kept : ∀ {scope target : Nat} {up : Bool} {s : State} c, clearScope scope target up s = some c →
    Kept p s → Kept p c.s := by
  intro scope target up s c e h
  unfold clearScope at e
  extract_lets c0 all at e
  have h : Kept p c0.s := h
  clear_value c0
  repeat' split at e
  all_goals first
    | contradiction
    | (injection e with e; subst e)
  all_goals repeat' first
    | (with_reducible assumption)
    | intro _
    | (with_reducible apply clearConverters_kept)
    | (with_reducible apply eachCleared_kept)
    | (with_reducible apply clearDevice_kept)
    | (with_reducible apply clearChan_kept)
    | (with_reducible apply clearRoot_kept)
    | (with_reducible apply clearZ_kept)
    | (with_reducible apply clearNode_kept)

theorem faultClearReply_kept : ∀ x0 x1 x2 s, Kept p s → Kept p (faultClearReply x0 x1 x2 s).s := by
  intros x0 x1 x2 s h
  unfold faultClearReply
  repeat' first
    | (with_reducible assumption)
    | intro _
    | (with_reducible apply Reply.bad_kept)
    | (with_reducible refine clearScope_kept _ (by assumption) ?_)
    | (with_reducible apply Cleared.s_kept)
    | (dsimp only)
    | split

theorem clearRequest_kept : ∀ x0 x1 s, Kept p s → Kept p (clearRequest x0 x1 s).s := by
  intros x0 x1 s h
  unfold clearRequest
  repeat' first
    | (with_reducible assumption)
    | intro _
    | (with_reducible apply span_kept)
    | (with_reducible apply faultClearReply_kept)

theorem execFaultClear_kept : ∀ x0 x1 x2 s, Kept p s → keptOut p (execFaultClear x0 x1 x2 s) := by
  intros x0 x1 x2 s h
  unfold execFaultClear
  repeat' first
    | (with_reducible assumption)
    | (with_reducible exact True.intro)
    | intro _
    | (with_reducible apply command_kept)
    | (with_reducible apply clearRequest_kept)

end Sys2Proof.Machine
end

