-- ==== Sys2Proof/Laws/KeptLinks.lean ====
section
/-! SUPPORT. Memory keeps its canonical form and the queue is left alone
(the hatch between devices, markers, interval units, serial lanes, plates, proof, shots). -/

namespace Sys2Proof.Machine
variable {p : List Instr}

theorem arrive_kept : ∀ x0 x1 x2 s, Kept p s → Kept p (arrive x0 x1 x2 s) := by
  intros x0 x1 x2 s h
  unfold arrive
  repeat' first
    | (with_reducible assumption)
    | intro _
    | (with_reducible apply watch_kept)
    | (with_reducible apply State.modChan_kept)
    | (with_reducible apply disableChan_kept)
    | (with_reducible apply State.modChCtr_kept)
    | (with_reducible apply State.modJctr_kept)
    | (dsimp only)
    | split

theorem bindReply_kept : ∀ x0 x1 s, Kept p s → Kept p (bindReply x0 x1 s).s := by
  intros x0 x1 s h
  unfold bindReply
  repeat' first
    | (with_reducible assumption)
    | intro _
    | (with_reducible apply Reply.bad_kept)
    | (with_reducible apply Reply.busy_kept)
    | (with_reducible apply State.setChan_kept)
    | (dsimp only)
    | split

theorem setGates_kept : ∀ x0 x1 s, Kept p s → Kept p (setGates x0 x1 s) :=
  fun _ _ _ h => h

theorem eventGateReply_kept : ∀ x0 x1 x2 s, Kept p s → Kept p (eventGateReply x0 x1 x2 s).s := by
  intros x0 x1 x2 s h
  unfold eventGateReply
  repeat' first
    | (with_reducible assumption)
    | intro _
    | (with_reducible apply Reply.bad_kept)
    | (with_reducible apply setGates_kept)
    | (with_reducible apply Reply.no_kept)
    | (dsimp only)
    | split

theorem execEventGate_kept : ∀ x0 x1 x2 x3 s, Kept p s → keptOut p (execEventGate x0 x1 x2 x3 s) := by
  intros x0 x1 x2 x3 s h
  unfold execEventGate
  repeat' first
    | (with_reducible assumption)
    | (with_reducible exact True.intro)
    | intro _
    | (with_reducible apply command_kept)
    | (with_reducible apply eventGateReply_kept)

theorem execEventRouteBind_kept : ∀ x0 x1 s, Kept p s → keptOut p (execEventRouteBind x0 x1 s) := by
  intros x0 x1 s h
  unfold execEventRouteBind
  repeat' first
    | (with_reducible assumption)
    | (with_reducible exact True.intro)
    | intro _
    | (with_reducible apply command_kept)
    | (with_reducible apply span_kept)
    | (with_reducible apply bindReply_kept)

theorem unbindReply_kept : ∀ x0 s, Kept p s → Kept p (unbindReply x0 s).s := by
  intros x0 s h
  unfold unbindReply
  repeat' first
    | (with_reducible assumption)
    | intro _
    | (with_reducible apply Reply.bad_kept)
    | (with_reducible apply Reply.busy_kept)
    | (with_reducible apply State.setChan_kept)
    | (dsimp only)
    | split

theorem execEventRouteUnbind_kept : ∀ x0 x1 s, Kept p s → keptOut p (execEventRouteUnbind x0 x1 s) := by
  intros x0 x1 s h
  unfold execEventRouteUnbind
  repeat' first
    | (with_reducible assumption)
    | (with_reducible exact True.intro)
    | intro _
    | (with_reducible apply command_kept)
    | (with_reducible apply span_kept)
    | (with_reducible apply unbindReply_kept)

theorem execGateChange_kept : ∀ s, Kept p s → keptOut p (execGateChange s) := by
  intros s h
  unfold execGateChange
  repeat' first
    | (with_reducible assumption)
    | (with_reducible exact True.intro)
    | intro _
    | (with_reducible apply setGates_kept)
    | (dsimp only)
    | split

theorem passGate_kept : ∀ x0 x1 s, Kept p s → Kept p (passGate x0 x1 s) := by
  intros x0 x1 s h
  unfold passGate
  repeat' first
    | (with_reducible assumption)
    | intro _
    | (with_reducible apply State.modChCtr_kept)
    | (with_reducible apply hatchWake_kept)
    | (with_reducible apply watch_kept)
    | (with_reducible apply State.setChan_kept)
    | (with_reducible apply sendHatch_kept)
    | (dsimp only)
    | split

theorem execGateOpenRelease_kept : ∀ x0 s, Kept p s → keptOut p (execGateOpenRelease x0 s) := by
  intros x0 s h
  unfold execGateOpenRelease
  repeat' first
    | (with_reducible assumption)
    | (with_reducible exact True.intro)
    | intro _
    | (with_reducible apply passGate_kept)
    | (with_reducible apply State.setChan_kept)
    | (dsimp only)
    | split

theorem execGatePointArrival_kept : ∀ x0 s, Kept p s → keptOut p (execGatePointArrival x0 s) := by
  intros x0 s h
  unfold execGatePointArrival
  repeat' first
    | (with_reducible assumption)
    | (with_reducible exact True.intro)
    | intro _
    | (with_reducible apply State.modChCtr_kept)
    | (with_reducible apply returnCredits_kept)
    | (with_reducible apply State.setChan_kept)
    | (with_reducible apply disableChan_kept)
    | (with_reducible apply passGate_kept)
    | (with_reducible apply State.modChan_kept)
    | (dsimp only)
    | split

theorem execHatchCreditArrival_kept : ∀ x0 s, Kept p s → keptOut p (execHatchCreditArrival x0 s) := by
  intros x0 s h
  unfold execHatchCreditArrival
  repeat' first
    | (with_reducible assumption)
    | (with_reducible exact True.intro)
    | intro _
    | (with_reducible apply State.setChan_kept)
    | (dsimp only)
    | split

theorem execPayloadArrival_kept : ∀ x0 s, Kept p s → keptOut p (execPayloadArrival x0 s) := by
  intros x0 s h
  unfold execPayloadArrival
  repeat' first
    | (with_reducible assumption)
    | (with_reducible exact True.intro)
    | intro _
    | (with_reducible apply arrive_kept)
    | (with_reducible apply State.setChan_kept)
    | (dsimp only)
    | split

theorem execSoftConsumerTake_kept : ∀ x0 s, Kept p s → keptOut p (execSoftConsumerTake x0 s) := by
  intros x0 s h
  unfold execSoftConsumerTake
  repeat' first
    | (with_reducible assumption)
    | (with_reducible exact True.intro)
    | intro _
    | (with_reducible refine ringPut_kept _ (by assumption) ?_)
    | (with_reducible apply takeArrival_kept)
    | (with_reducible apply State.modChan_kept)
    | (dsimp only)
    | split

theorem execSpacingEnd_kept : ∀ x0 x1 s, Kept p s → keptOut p (execSpacingEnd x0 x1 s) := by
  intros x0 x1 s h
  unfold execSpacingEnd
  repeat' first
    | (with_reducible assumption)
    | (with_reducible exact True.intro)
    | intro _
    | (with_reducible apply State.setChan_kept)
    | (dsimp only)
    | split

theorem execTriggerLatch_kept : ∀ x0 x1 x2 s, Kept p s → keptOut p (execTriggerLatch x0 x1 x2 s) := by
  intros x0 x1 x2 s h
  unfold execTriggerLatch
  repeat' first
    | (with_reducible assumption)
    | (with_reducible exact True.intro)
    | intro _
    | (with_reducible apply State.setChan_kept)
    | (with_reducible apply State.modChCtr_kept)
    | (dsimp only)
    | split

theorem beginRep_kept : ∀ x0 x1 x2 s, Kept p s → Kept p (beginRep x0 x1 x2 s) :=
  fun _ _ _ _ h => h

theorem configOut_kept : ∀ x0 x1 x2 x3 x4 s, Kept p s → Kept p (configOut x0 x1 x2 x3 x4 s) :=
  fun _ _ _ _ _ _ h => h

theorem endPlayback_kept : ∀ s, Kept p s → Kept p (endPlayback s) := by
  intros s h
  unfold endPlayback
  repeat' first
    | (with_reducible assumption)
    | intro _
    | (with_reducible apply genIdle_kept)
    | (dsimp only)
    | split

theorem execFollowPulseEnd_kept : ∀ x0 s, Kept p s → keptOut p (execFollowPulseEnd x0 s) := by
  intros x0 s h
  unfold execFollowPulseEnd
  repeat' first
    | (with_reducible assumption)
    | (with_reducible exact True.intro)
    | intro _
    | (dsimp only)
    | split

theorem markConfigReply_kept : ∀ x0 x1 x2 x3 x4 x5 x6 s, Kept p s → Kept p (markConfigReply x0 x1 x2 x3 x4 x5 x6 s).s := by
  intros x0 x1 x2 x3 x4 x5 x6 s h
  unfold markConfigReply
  repeat' first
    | (with_reducible assumption)
    | intro _
    | (with_reducible apply ite_reply)
    | (with_reducible apply ite_kept)
    | (with_reducible apply Reply.bad_kept)
    | (with_reducible apply Reply.no_kept)
    | (with_reducible apply Reply.busy_kept)
    | (with_reducible apply each_kept)
    | (with_reducible apply configOut_kept)
    | (with_reducible apply markUpTo_kept)

theorem execMarkLoadConfig_kept : ∀ x0 x1 x2 x3 x4 x5 x6 x7 s, Kept p s →
    keptOut p (execMarkLoadConfig x0 x1 x2 x3 x4 x5 x6 x7 s) := by
  intros x0 x1 x2 x3 x4 x5 x6 x7 s h
  unfold execMarkLoadConfig
  repeat' first
    | (with_reducible assumption)
    | (with_reducible exact True.intro)
    | intro _
    | (with_reducible apply command_kept)
    | (with_reducible apply markConfigReply_kept)

theorem markLoadReply_kept : ∀ x0 x1 x2 x3 x4 x5 s, Kept p s → Kept p (markLoadReply x0 x1 x2 x3 x4 x5 s).s := by
  intros x0 x1 x2 x3 x4 x5 s h
  unfold markLoadReply
  repeat' first
    | (with_reducible assumption)
    | intro _
    | (with_reducible apply ite_reply)
    | (with_reducible apply Reply.bad_kept)
    | (with_reducible apply Reply.no_kept)
    | (with_reducible apply Reply.busy_kept)
    | (with_reducible apply noteUe_kept)
    | (with_reducible apply foldl_kept)
    | (dsimp only)
    | split

theorem execMarkLoadLoad_kept : ∀ x0 x1 x2 x3 x4 x5 x6 s, Kept p s →
    keptOut p (execMarkLoadLoad x0 x1 x2 x3 x4 x5 x6 s) := by
  intros x0 x1 x2 x3 x4 x5 x6 s h
  unfold execMarkLoadLoad
  repeat' first
    | (with_reducible assumption)
    | (with_reducible exact True.intro)
    | intro _
    | (with_reducible apply command_kept)
    | (with_reducible apply markLoadReply_kept)

theorem markStartReply_kept : ∀ x0 x1 x2 x3 x4 s, Kept p s → Kept p (markStartReply x0 x1 x2 x3 x4 s).s := by
  intros x0 x1 x2 x3 x4 s h
  unfold markStartReply
  repeat' first
    | (with_reducible assumption)
    | intro _
    | (with_reducible apply ite_reply)
    | (with_reducible apply Reply.bad_kept)
    | (with_reducible apply Reply.no_kept)
    | (with_reducible apply Reply.busy_kept)

theorem execMarkLoadStart_kept : ∀ x0 x1 x2 x3 x4 x5 s, Kept p s → keptOut p (execMarkLoadStart x0 x1 x2 x3 x4 x5 s) := by
  intros x0 x1 x2 x3 x4 x5 s h
  unfold execMarkLoadStart
  repeat' first
    | (with_reducible assumption)
    | (with_reducible exact True.intro)
    | intro _
    | (with_reducible apply command_kept)
    | (with_reducible apply markStartReply_kept)

theorem markStopReply_kept : ∀ s, Kept p s → Kept p (markStopReply s).s := by
  intros s h
  unfold markStopReply
  repeat' first
    | (with_reducible assumption)
    | intro _
    | (with_reducible apply patternIdle_kept)
    | (with_reducible apply genIdle_kept)
    | (dsimp only)
    | split

theorem execMarkLoadStop_kept : ∀ x0 s, Kept p s → keptOut p (execMarkLoadStop x0 s) := by
  intros x0 s h
  unfold execMarkLoadStop
  repeat' first
    | (with_reducible assumption)
    | (with_reducible exact True.intro)
    | intro _
    | (with_reducible apply command_kept)
    | (with_reducible apply markStopReply_kept)

theorem execMarkerSegmentStart_kept : ∀ s, Kept p s → keptOut p (execMarkerSegmentStart s) := by
  intros s h
  unfold execMarkerSegmentStart
  repeat' first
    | (with_reducible assumption)
    | (with_reducible exact True.intro)
    | intro _
    | (with_reducible apply beginRep_kept)
    | (with_reducible apply markUpTo_kept)
    | (dsimp only)
    | split

theorem execPlaybackEnd_kept : ∀ s, Kept p s → keptOut p (execPlaybackEnd s) := by
  intros s h
  unfold execPlaybackEnd
  repeat' first
    | (with_reducible assumption)
    | (with_reducible exact True.intro)
    | intro _
    | (with_reducible apply patternIdle_kept)
    | (with_reducible apply genIdle_kept)
    | (with_reducible apply markUpTo_kept)
    | (with_reducible apply endPlayback_kept)
    | (dsimp only)
    | split

theorem execPlaybackStart_kept : ∀ s, Kept p s → keptOut p (execPlaybackStart s) := by
  intros s h
  unfold execPlaybackStart
  repeat' first
    | (with_reducible assumption)
    | (with_reducible exact True.intro)
    | intro _
    | (with_reducible apply beginRep_kept)
    | (with_reducible apply markUpTo_kept)
    | (dsimp only)
    | split

theorem shotPlayback_kept : ∀ x0 x1 s, Kept p s → Kept p (shotPlayback x0 x1 s) := by
  intros x0 x1 s h
  unfold shotPlayback
  repeat' first
    | (with_reducible assumption)
    | intro _
    | (dsimp only)
    | split

theorem execShotBoundary_kept : ∀ x0 s, Kept p s → keptOut p (execShotBoundary x0 s) := by
  intros x0 s h
  unfold execShotBoundary
  repeat' first
    | (with_reducible assumption)
    | (with_reducible exact True.intro)
    | intro _
    | (with_reducible apply boundaryPass_kept)
    | (with_reducible apply State.modRoot_kept)
    | (with_reducible apply swapWhere_kept)
    | (with_reducible apply shotPlayback_kept)
    | (with_reducible apply burnishAll_kept)
    | (dsimp only)
    | split

theorem raiseTrigs_kept : ∀ s, Kept p s → Kept p (raiseTrigs s) := by
  intros s h
  unfold raiseTrigs
  repeat' first
    | (with_reducible assumption)
    | intro _
    | (with_reducible apply each_kept)
    | (with_reducible apply raiseEp_kept)
    | (dsimp only)
    | split

theorem alignEdge_kept : ∀ s, Kept p s → Kept p (alignEdge s) := by
  intros s h
  unfold alignEdge
  repeat' first
    | (with_reducible assumption)
    | intro _
    | (dsimp only)
    | split

theorem tiuWrite_kept : ∀ x0 x1 s, Kept p s → Kept p (tiuWrite x0 x1 s) := by
  intros x0 x1 s h
  unfold tiuWrite
  repeat' first
    | (with_reducible assumption)
    | intro _
    | (with_reducible refine ringPut_kept _ (by assumption) ?_)
    | (with_reducible apply State.modTiuEng_kept)
    | (dsimp only)
    | split

theorem closeGate_kept : ∀ x0 s, Kept p s → Kept p (closeGate x0 s) := by
  intros x0 s h
  unfold closeGate
  repeat' first
    | (with_reducible assumption)
    | intro _
    | (with_reducible apply tiuWrite_kept)
    | (with_reducible apply State.modTiuEng_kept)

theorem closeGates_kept : ∀ x0 x1 x2 s, Kept p s → Kept p (closeGates x0 x1 x2 s) := by
  intro x0 x1 x2
  induction x2 with
  | zero => intro s h; exact h
  | succ n ih =>
    intro s h
    unfold closeGates
    repeat' first
      | (with_reducible assumption)
      | (with_reducible apply ih)
      | (with_reducible apply closeGate_kept)
      | intro _
      | (dsimp only)
      | split

theorem execCoreCalibration_kept : ∀ x0 x1 x2 s, Kept p s → keptOut p (execCoreCalibration x0 x1 x2 s) := by
  intros x0 x1 x2 s h
  unfold execCoreCalibration
  repeat' first
    | (with_reducible assumption)
    | (with_reducible exact True.intro)
    | intro _
    | (with_reducible apply State.setStampChan_kept)
    | (dsimp only)
    | split

theorem execGateEnd_kept : ∀ x0 s, Kept p s → keptOut p (execGateEnd x0 s) := by
  intros x0 s h
  unfold execGateEnd
  repeat' first
    | (with_reducible assumption)
    | (with_reducible exact True.intro)
    | intro _
    | (with_reducible apply closeGate_kept)
    | (dsimp only)
    | split

theorem execLoopLock_kept : ∀ x0 s, Kept p s → keptOut p (execLoopLock x0 s) := by
  intros x0 s h
  unfold execLoopLock
  repeat' first
    | (with_reducible assumption)
    | (with_reducible exact True.intro)
    | intro _
    | (with_reducible apply State.modStampChan_kept)
    | (dsimp only)
    | split

theorem unstamped_kept : ∀ x0 x1 s, Kept p s → Kept p (unstamped x0 x1 s) :=
  fun _ _ _ h => h

theorem mergeEdge_kept : ∀ x0 x1 s, Kept p s → Kept p (mergeEdge x0 x1 s) := by
  intros x0 x1 s h
  unfold mergeEdge
  repeat' first
    | (with_reducible assumption)
    | intro _
    | (with_reducible apply unstamped_kept)

theorem stampRecord_kept : ∀ x0 x1 x2 x3 s, Kept p s → Kept p (stampRecord x0 x1 x2 x3 s) := by
  intros x0 x1 x2 x3 s h
  unfold stampRecord
  repeat' first
    | (with_reducible assumption)
    | intro _
    | (with_reducible apply State.modTiuEng_kept)
    | (with_reducible apply tiuWrite_kept)
    | (dsimp only)
    | split

theorem tiuTake_kept : ∀ x0 x1 x2 x3 s, Kept p s → Kept p (tiuTake x0 x1 x2 x3 s) := by
  intros x0 x1 x2 x3 s h
  unfold tiuTake
  repeat' first
    | (with_reducible assumption)
    | intro _
    | (with_reducible apply stampRecord_kept)
    | (with_reducible apply closeGates_kept)
    | (with_reducible apply State.modTiuEng_kept)
    | (dsimp only)
    | split

theorem execStamp_kept : ∀ x0 x1 x2 x3 s, Kept p s → keptOut p (execStamp x0 x1 x2 x3 s) := by
  intros x0 x1 x2 x3 s h
  unfold execStamp
  repeat' first
    | (with_reducible assumption)
    | (with_reducible exact True.intro)
    | intro _
    | (with_reducible apply unstamped_kept)
    | (with_reducible apply mergeEdge_kept)
    | (with_reducible apply State.setStampChan_kept)
    | (with_reducible apply each_kept)
    | (with_reducible apply tiuTake_kept)
    | (with_reducible apply pinEdge_kept)
    | (dsimp only)
    | split

theorem markEdge_kept : ∀ s, Kept p s → Kept p (markEdge s) := by
  intros s h
  unfold markEdge
  repeat' first
    | (with_reducible assumption)
    | intro _
    | (dsimp only)
    | split

theorem execSyncInEdge_kept : ∀ s, Kept p s → keptOut p (execSyncInEdge s) := by
  intro s h
  unfold execSyncInEdge
  dsimp only
  refine ite_kept h ?_
  have ha : Kept p ((if s.syncWasLow then raiseEp (s.ep 10 0 0) else id)
      { s with sys := { s.sys with syncHigh := some s.now } }) := by
    split
    · exact raiseEp_kept _ _ h
    · exact h
  generalize (if s.syncWasLow then raiseEp (s.ep 10 0 0) else id)
      { s with sys := { s.sys with syncHigh := some s.now } } = a at ha ⊢
  exact ite_kept (markEdge_kept _ (alignEdge_kept _ ha)) ha

theorem tiuQueryReply_kept : ∀ x0 x1 s, Kept p s → Kept p (tiuQueryReply x0 x1 s).s := by
  intros x0 x1 s h
  unfold tiuQueryReply
  repeat' first
    | (with_reducible assumption)
    | intro _
    | (with_reducible apply Reply.bad_kept)
    | (with_reducible apply queryReply_kept)
    | (with_reducible (unfold id; assumption))
    | (dsimp only)
    | split

theorem execTiuMeasureQuery_kept : ∀ x0 x1 x2 s, Kept p s → keptOut p (execTiuMeasureQuery x0 x1 x2 s) := by
  intros x0 x1 x2 s h
  unfold execTiuMeasureQuery
  repeat' first
    | (with_reducible assumption)
    | (with_reducible exact True.intro)
    | intro _
    | (with_reducible apply command_kept)
    | (with_reducible apply tiuQueryReply_kept)

theorem tiuStartReply_kept : ∀ x0 x1 s, Kept p s → Kept p (tiuStartReply x0 x1 s).s := by
  intros x0 x1 s h
  unfold tiuStartReply
  repeat' first
    | (with_reducible assumption)
    | intro _
    | (with_reducible apply Reply.bad_kept)
    | (with_reducible apply Reply.busy_kept)
    | (with_reducible apply Reply.no_kept)
    | (with_reducible apply State.setTiuEng_kept)
    | (dsimp only)
    | split

theorem execTiuMeasureStart_kept : ∀ x0 x1 x2 s, Kept p s → keptOut p (execTiuMeasureStart x0 x1 x2 s) := by
  intros x0 x1 x2 s h
  unfold execTiuMeasureStart
  repeat' first
    | (with_reducible assumption)
    | (with_reducible exact True.intro)
    | intro _
    | (with_reducible apply command_kept)
    | (with_reducible apply tiuStartReply_kept)

theorem tiuStopReply_kept : ∀ x0 s, Kept p s → Kept p (tiuStopReply x0 s).s := by
  intros x0 s h
  unfold tiuStopReply
  repeat' first
    | (with_reducible assumption)
    | intro _
    | (with_reducible apply Reply.bad_kept)
    | (with_reducible apply State.modTiuEng_kept)
    | (dsimp only)
    | split

theorem execTiuMeasureStop_kept : ∀ x0 x1 s, Kept p s → keptOut p (execTiuMeasureStop x0 x1 s) := by
  intros x0 x1 s h
  unfold execTiuMeasureStop
  repeat' first
    | (with_reducible assumption)
    | (with_reducible exact True.intro)
    | intro _
    | (with_reducible apply command_kept)
    | (with_reducible apply tiuStopReply_kept)

theorem execTrigInEdge_kept : ∀ x0 x1 s, Kept p s → keptOut p (execTrigInEdge x0 x1 s) :=
  fun _ _ _ h => h

theorem trigEvents_kept : ∀ s, Kept p s → Kept p (trigEvents s) := by
  intros s h
  unfold trigEvents
  repeat' first
    | (with_reducible assumption)
    | intro _
    | (with_reducible apply each_kept)
    | (with_reducible apply raiseEp_kept)
    | (dsimp only)
    | split

theorem setDevnum_kept : ∀ x0 s, Kept p s → Kept p (setDevnum x0 s) :=
  fun _ _ h => h

theorem devnumReply_kept : ∀ x0 s, Kept p s → Kept p (devnumReply x0 s).s := by
  intros x0 s h
  unfold devnumReply
  repeat' first
    | (with_reducible assumption)
    | intro _
    | (with_reducible apply Reply.bad_kept)
    | (with_reducible apply Reply.busy_kept)
    | (with_reducible apply setDevnum_kept)
    | (with_reducible apply each_kept)
    | (with_reducible apply portLoss_kept)
    | (dsimp only)
    | split

theorem exchangeDone_kept : ∀ x0 x1 x2 x3 x4 x5 x6 s, Kept p s → Kept p (exchangeDone x0 x1 x2 x3 x4 x5 x6 s) := by
  intros x0 x1 x2 x3 x4 x5 x6 s h
  unfold exchangeDone
  repeat' first
    | (with_reducible assumption)
    | intro _
    | (with_reducible apply State.setTdom_kept)
    | (with_reducible apply loseDom_kept)
    | (with_reducible apply measure_kept)
    | (dsimp only)
    | split

theorem execAlignRowSend_kept : ∀ x0 s, Kept p s → keptOut p (execAlignRowSend x0 s) := by
  intros x0 s h
  unfold execAlignRowSend
  repeat' first
    | (with_reducible assumption)
    | (with_reducible exact True.intro)
    | intro _
    | (with_reducible apply State.setJport_kept)
    | (dsimp only)
    | split

theorem execArpRequest_kept : ∀ x0 s, Kept p s → keptOut p (execArpRequest x0 s) := by
  intros x0 s h
  unfold execArpRequest
  repeat' first
    | (with_reducible assumption)
    | (with_reducible exact True.intro)
    | intro _
    | (dsimp only)
    | split

theorem execBlockLock_kept : ∀ x0 x1 s, Kept p s → keptOut p (execBlockLock x0 x1 s) := by
  intros x0 x1 s h
  unfold execBlockLock
  repeat' first
    | (with_reducible assumption)
    | (with_reducible exact True.intro)
    | intro _
    | (with_reducible apply State.setJport_kept)
    | (dsimp only)
    | split

theorem recvFrame_kept : ∀ x0 x1 x2 x3 x4 f s, (∀ s, Kept p s → Kept p (f s)) → Kept p s →
    Kept p (recvFrame x0 x1 x2 x3 x4 f s) := by
  intros x0 x1 x2 x3 x4 f s hf h
  unfold recvFrame
  repeat' first
    | (with_reducible assumption)
    | intro _
    | (with_reducible apply hf)
    | (with_reducible apply State.modJctr_kept)
    | (with_reducible apply State.setJport_kept)
    | (with_reducible apply State.modJport_kept)
    | (dsimp only)
    | split

theorem misroute_kept : ∀ x0 s, Kept p s → Kept p (misroute x0 s) := by
  intros x0 s h
  unfold misroute
  repeat' first
    | (with_reducible assumption)
    | intro _
    | (with_reducible apply State.modJctr_kept)

theorem relay_kept : ∀ x0 x1 x2 x3 s, Kept p s → Kept p (relay x0 x1 x2 x3 s) := by
  intros x0 x1 x2 x3 s h
  unfold relay
  repeat' first
    | (with_reducible assumption)
    | intro _
    | (with_reducible apply sendFrame_kept)
    | (with_reducible apply misroute_kept)
    | (dsimp only)
    | split

theorem execBulkFrame_kept : ∀ x0 x1 x2 x3 s, Kept p s → keptOut p (execBulkFrame x0 x1 x2 x3 s) := by
  intros x0 x1 x2 x3 s h
  unfold execBulkFrame
  repeat' first
    | (with_reducible assumption)
    | (with_reducible exact True.intro)
    | intro _
    | (with_reducible apply recvFrame_kept)
    | (with_reducible apply relay_kept)
    | (dsimp only)
    | split

theorem remoteDoubt_kept : ∀ x0 x1 s, Kept p s → Kept p (remoteDoubt x0 x1 s) := by
  intros x0 x1 s h
  unfold remoteDoubt
  repeat' first
    | (with_reducible assumption)
    | intro _
    | (with_reducible apply State.modFault_kept)
    | (with_reducible apply pump_kept)
    | (with_reducible apply stopRoot_kept)
    | (with_reducible apply setSum_kept)
    | (dsimp only)
    | split

theorem execDoubt_kept : ∀ x0 x1 x2 x3 s, Kept p s → keptOut p (execDoubt x0 x1 x2 x3 s) := by
  intros x0 x1 x2 x3 s h
  unfold execDoubt
  repeat' first
    | (with_reducible assumption)
    | (with_reducible exact True.intro)
    | intro _
    | (with_reducible apply recvFrame_kept)
    | (with_reducible apply relay_kept)
    | (with_reducible apply remoteDoubt_kept)
    | (dsimp only)
    | split

theorem takeCredit_kept : ∀ x0 s, Kept p s → Kept p (takeCredit x0 s) := by
  intros x0 s h
  unfold takeCredit
  repeat' first
    | (with_reducible assumption)
    | intro _
    | (with_reducible apply State.setChan_kept)
    | (with_reducible apply creditFrames_kept)
    | (dsimp only)
    | split

theorem execHatchCredit_kept : ∀ x0 x1 x2 s, Kept p s → keptOut p (execHatchCredit x0 x1 x2 s) := by
  intros x0 x1 x2 s h
  unfold execHatchCredit
  repeat' first
    | (with_reducible assumption)
    | (with_reducible exact True.intro)
    | intro _
    | (with_reducible apply recvFrame_kept)
    | (with_reducible apply relay_kept)
    | (with_reducible apply takeCredit_kept)
    | (with_reducible apply misroute_kept)
    | (dsimp only)
    | split

theorem takePayload_kept : ∀ x0 x1 x2 s, Kept p s → Kept p (takePayload x0 x1 x2 s) := by
  intros x0 x1 x2 s h
  unfold takePayload
  repeat' first
    | (with_reducible assumption)
    | intro _
    | (with_reducible apply arrive_kept)
    | (with_reducible apply State.setChan_kept)
    | (with_reducible apply creditFrames_kept)
    | (with_reducible apply State.modChCtr_kept)
    | (with_reducible apply inject_kept)
    | (dsimp only)
    | split

theorem execHatchData_kept : ∀ x0 x1 x2 s, Kept p s → keptOut p (execHatchData x0 x1 x2 s) := by
  intros x0 x1 x2 s h
  unfold execHatchData
  repeat' first
    | (with_reducible assumption)
    | (with_reducible exact True.intro)
    | intro _
    | (with_reducible apply recvFrame_kept)
    | (with_reducible apply relay_kept)
    | (with_reducible apply takePayload_kept)
    | (with_reducible apply misroute_kept)
    | (dsimp only)
    | split

theorem execIdleRowSend_kept : ∀ x0 s, Kept p s → keptOut p (execIdleRowSend x0 s) := by
  intros x0 s h
  unfold execIdleRowSend
  repeat' first
    | (with_reducible assumption)
    | (with_reducible exact True.intro)
    | intro _
    | (with_reducible apply State.modJport_kept)
    | (dsimp only)
    | split

theorem execLinkBlock_kept : ∀ x0 x1 s, Kept p s → keptOut p (execLinkBlock x0 x1 s) := by
  intros x0 x1 s h
  unfold execLinkBlock
  repeat' first
    | (with_reducible assumption)
    | (with_reducible exact True.intro)
    | intro _
    | (with_reducible apply State.modJctr_kept)
    | (with_reducible apply State.setJport_kept)
    | (dsimp only)
    | split

theorem execLinkBlockSend_kept : ∀ x0 s, Kept p s → keptOut p (execLinkBlockSend x0 s) := by
  intros x0 s h
  unfold execLinkBlockSend
  repeat' first
    | (with_reducible assumption)
    | (with_reducible exact True.intro)
    | intro _
    | (with_reducible apply State.modJport_kept)
    | (dsimp only)
    | split

theorem execLinkLoss_kept : ∀ x0 x1 s, Kept p s → keptOut p (execLinkLoss x0 x1 s) := by
  intros x0 x1 s h
  unfold execLinkLoss
  repeat' first
    | (with_reducible assumption)
    | (with_reducible exact True.intro)
    | intro _
    | (with_reducible apply portLoss_kept)
    | (dsimp only)
    | split

theorem setPort_kept : ∀ x0 x1 x2 x3 s, Kept p s → Kept p (setPort x0 x1 x2 x3 s) := by
  intros x0 x1 x2 x3 s h
  unfold setPort
  repeat' first
    | (with_reducible assumption)
    | intro _
    | (with_reducible apply State.modJport_kept)
    | (with_reducible apply portLoss_kept)
    | (dsimp only)
    | split

theorem linkSetReply_kept : ∀ x0 x1 x2 x3 x4 x5 s, Kept p s → Kept p (linkSetReply x0 x1 x2 x3 x4 x5 s).s := by
  intros x0 x1 x2 x3 x4 x5 s h
  unfold linkSetReply
  repeat' first
    | (with_reducible assumption)
    | intro _
    | (with_reducible apply Reply.bad_kept)
    | (with_reducible apply Reply.no_kept)
    | (with_reducible apply Reply.busy_kept)
    | (with_reducible apply loseSources_kept)
    | (with_reducible apply setPort_kept)
    | (dsimp only)
    | split

theorem execLinkSet_kept : ∀ x0 x1 x2 x3 x4 x5 x6 s, Kept p s → keptOut p (execLinkSet x0 x1 x2 x3 x4 x5 x6 s) := by
  intros x0 x1 x2 x3 x4 x5 x6 s h
  unfold execLinkSet
  repeat' first
    | (with_reducible assumption)
    | (with_reducible exact True.intro)
    | intro _
    | (with_reducible apply command_kept)
    | (with_reducible apply linkSetReply_kept)

theorem linkStatusReply_kept : ∀ x0 x1 s, Kept p s → Kept p (linkStatusReply x0 x1 s).s := by
  intros x0 x1 s h
  unfold linkStatusReply
  repeat' first
    | (with_reducible assumption)
    | intro _
    | (with_reducible apply Reply.bad_kept)
    | (with_reducible apply queryReply_kept)
    | (with_reducible apply State.setJctr_kept)
    | (dsimp only)
    | split

theorem execLinkStatus_kept : ∀ x0 x1 x2 s, Kept p s → keptOut p (execLinkStatus x0 x1 x2 s) := by
  intros x0 x1 x2 s h
  unfold execLinkStatus
  repeat' first
    | (with_reducible assumption)
    | (with_reducible exact True.intro)
    | intro _
    | (with_reducible apply command_kept)
    | (with_reducible apply linkStatusReply_kept)

theorem execNetSetDevnum_kept : ∀ x0 x1 s, Kept p s → keptOut p (execNetSetDevnum x0 x1 s) := by
  intros x0 x1 s h
  unfold execNetSetDevnum
  repeat' first
    | (with_reducible assumption)
    | (with_reducible exact True.intro)
    | intro _
    | (with_reducible apply command_kept)
    | (with_reducible apply devnumReply_kept)

theorem routesReply_kept : ∀ x0 x1 x2 s, Kept p s → Kept p (routesReply x0 x1 x2 s).s := by
  intros x0 x1 x2 s h
  unfold routesReply
  repeat' first
    | (with_reducible assumption)
    | intro _
    | (with_reducible apply Reply.bad_kept)
    | (with_reducible apply Reply.no_kept)
    | (with_reducible apply Reply.busy_kept)
    | (with_reducible apply noteUe_kept)
    | (dsimp only)
    | split

theorem execNetSetRoutes_kept : ∀ x0 x1 x2 x3 s, Kept p s → keptOut p (execNetSetRoutes x0 x1 x2 x3 s) := by
  intros x0 x1 x2 x3 s h
  unfold execNetSetRoutes
  repeat' first
    | (with_reducible assumption)
    | (with_reducible exact True.intro)
    | intro _
    | (with_reducible apply command_kept)
    | (with_reducible apply routesReply_kept)

theorem execOtherFrame_kept : ∀ s, Kept p s → keptOut p (execOtherFrame s) := by
  intros s h
  unfold execOtherFrame
  repeat' first
    | (with_reducible assumption)
    | (with_reducible exact True.intro)
    | intro _
    | (dsimp only)
    | split

theorem execSignalDetect_kept : ∀ x0 x1 s, Kept p s → keptOut p (execSignalDetect x0 x1 s) := by
  intros x0 x1 s h
  unfold execSignalDetect
  repeat' first
    | (with_reducible assumption)
    | (with_reducible exact True.intro)
    | intro _
    | (with_reducible apply State.modJport_kept)
    | (dsimp only)
    | split

theorem timeFrame_kept : ∀ x0 x1 f s, (∀ s, Kept p s → Kept p (f s)) → Kept p s → Kept p (timeFrame x0 x1 f s) := by
  intros x0 x1 f s hf h
  unfold timeFrame
  repeat' first
    | (with_reducible assumption)
    | intro _
    | (with_reducible apply hf)
    | (with_reducible apply misroute_kept)
    | (dsimp only)
    | split

theorem execTFollow_kept : ∀ x0 x1 x2 x3 x4 x5 x6 x7 x8 s, Kept p s →
    keptOut p (execTFollow x0 x1 x2 x3 x4 x5 x6 x7 x8 s) := by
  intros x0 x1 x2 x3 x4 x5 x6 x7 x8 s h
  unfold execTFollow
  repeat' first
    | (with_reducible assumption)
    | (with_reducible exact True.intro)
    | intro _
    | (with_reducible apply recvFrame_kept)
    | (with_reducible apply timeFrame_kept)
    | (with_reducible apply each_kept)
    | (with_reducible apply exchangeDone_kept)
    | (dsimp only)
    | split

theorem execTReq_kept : ∀ x0 x1 x2 s, Kept p s → keptOut p (execTReq x0 x1 x2 s) := by
  intros x0 x1 x2 s h
  unfold execTReq
  repeat' first
    | (with_reducible assumption)
    | (with_reducible exact True.intro)
    | intro _
    | (with_reducible apply recvFrame_kept)
    | (with_reducible apply timeFrame_kept)
    | (with_reducible apply sendFrame_kept)

theorem execTReqSend_kept : ∀ x0 s, Kept p s → keptOut p (execTReqSend x0 s) := by
  intros x0 s h
  unfold execTReqSend
  repeat' first
    | (with_reducible assumption)
    | (with_reducible exact True.intro)
    | intro _
    | (with_reducible apply sendFrame_kept)
    | (with_reducible apply State.setTdom_kept)
    | (dsimp only)
    | split

theorem execTResp_kept : ∀ x0 x1 x2 x3 s, Kept p s → keptOut p (execTResp x0 x1 x2 x3 s) := by
  intros x0 x1 x2 x3 s h
  unfold execTResp
  repeat' first
    | (with_reducible assumption)
    | (with_reducible exact True.intro)
    | intro _
    | (with_reducible apply recvFrame_kept)
    | (with_reducible apply timeFrame_kept)
    | (with_reducible apply each_kept)
    | (with_reducible apply State.modTdom_kept)

theorem execTimePortBringup_kept : ∀ x0 x1 s, Kept p s → keptOut p (execTimePortBringup x0 x1 s) := by
  intros x0 x1 s h
  unfold execTimePortBringup
  repeat' first
    | (with_reducible assumption)
    | (with_reducible exact True.intro)
    | intro _
    | (dsimp only)
    | split

theorem execTimePortDown_kept : ∀ s, Kept p s → keptOut p (execTimePortDown s) := by
  intros s h
  unfold execTimePortDown
  repeat' first
    | (with_reducible assumption)
    | (with_reducible exact True.intro)
    | intro _
    | (with_reducible apply loseSources_kept)
    | (dsimp only)
    | split

theorem trainOn_kept : ∀ x0 s, Kept p s → Kept p (trainOn x0 s) := by
  intros x0 s h
  unfold trainOn
  repeat' first
    | (with_reducible assumption)
    | intro _
    | (with_reducible apply State.setJport_kept)
    | (with_reducible apply linkBack_kept)
    | (dsimp only)
    | split

theorem execTrain_kept : ∀ x0 x1 x2 x3 s, Kept p s → keptOut p (execTrain x0 x1 x2 x3 s) := by
  intros x0 x1 x2 x3 s h
  unfold execTrain
  repeat' first
    | (with_reducible assumption)
    | (with_reducible exact True.intro)
    | intro _
    | (with_reducible apply portLoss_kept)
    | (with_reducible apply trainOn_kept)
    | (with_reducible apply State.setJport_kept)
    | (dsimp only)
    | split

theorem execTrainingTimeout_kept : ∀ x0 s, Kept p s → keptOut p (execTrainingTimeout x0 s) := by
  intros x0 s h
  unfold execTrainingTimeout
  repeat' first
    | (with_reducible assumption)
    | (with_reducible exact True.intro)
    | intro _
    | (with_reducible apply State.setJport_kept)
    | (dsimp only)
    | split

theorem timeDeparts_kept : ∀ x0 x1 x2 s, Kept p s → Kept p (timeDeparts x0 x1 x2 s) := by
  intros x0 x1 x2 s h
  unfold timeDeparts
  repeat' first
    | (with_reducible assumption)
    | intro _
    | (with_reducible apply each_kept)
    | (with_reducible apply State.modTdom_kept)
    | (with_reducible apply sendFrame_kept)
    | (dsimp only)
    | split

theorem lineTick_kept : ∀ x0 s, Kept p s → Kept p (lineTick x0 s) := by
  intros x0 s h
  unfold lineTick
  repeat' first
    | (with_reducible assumption)
    | intro _
    | (with_reducible apply each_kept)
    | (with_reducible apply timeDeparts_kept)
    | (with_reducible apply State.setJport_kept)
    | (dsimp only)
    | split

theorem lineTicks_kept : ∀ s, Kept p s → Kept p (lineTicks s) := by
  intros s h
  unfold lineTicks
  repeat' first
    | (with_reducible assumption)
    | intro _
    | (with_reducible apply each_kept)
    | (with_reducible apply lineTick_kept)

theorem ifValid_kept : ∀ s x1 s2, Kept p s → Kept p s2 → Kept p (ifValid s x1 s2).s := by
  intros s x1 s2 h h
  unfold ifValid
  repeat' first
    | (with_reducible assumption)
    | intro _
    | (with_reducible apply announce_kept)
    | (with_reducible apply muteHeld_kept)
    | (with_reducible apply Reply.no_kept)
    | (dsimp only)
    | split

theorem setParent_kept : ∀ x0 x1 s, Kept p s → Kept p (setParent x0 x1 s) := by
  intros x0 x1 s h
  unfold setParent
  repeat' first
    | (with_reducible assumption)
    | intro _
    | (with_reducible apply State.modCell_kept)
    | (dsimp only)
    | split

theorem joinShadow_kept : ∀ x0 x1 s, Kept p s → Kept p (joinShadow x0 x1 s) := by
  intros x0 x1 s h
  unfold joinShadow
  repeat' first
    | (with_reducible assumption)
    | intro _
    | (with_reducible apply State.setPlate_kept)
    | (dsimp only)
    | split

theorem addPart_kept : ∀ x0 x1 s, Kept p s → Kept p (addPart x0 x1 s).s := by
  intros x0 x1 s h
  unfold addPart
  repeat' first
    | (with_reducible assumption)
    | intro _
    | (with_reducible apply Reply.bad_kept)
    | (with_reducible apply Reply.busy_kept)
    | (with_reducible apply ifValid_kept)
    | (with_reducible apply each_kept)
    | (with_reducible apply setParent_kept)
    | (with_reducible apply joinShadow_kept)
    | (dsimp only)
    | split

theorem addReply_kept : ∀ x0 x1 s, Kept p s → Kept p (addReply x0 x1 s).s := by
  intros x0 x1 s h
  unfold addReply
  repeat' first
    | (with_reducible assumption)
    | intro _
    | (with_reducible apply Reply.bad_kept)
    | (with_reducible apply Reply.busy_kept)
    | (with_reducible apply State.setPlate_kept)
    | (with_reducible apply ifValid_kept)
    | (with_reducible apply each_kept)
    | (with_reducible apply setParent_kept)
    | (dsimp only)
    | split

theorem createReply_kept : ∀ x0 s, Kept p s → Kept p (createReply x0 s).s := by
  intros x0 s h
  unfold createReply
  repeat' first
    | (with_reducible assumption)
    | intro _
    | (with_reducible apply Reply.bad_kept)
    | (with_reducible apply Reply.busy_kept)
    | (with_reducible apply State.setPlate_kept)
    | (with_reducible apply ifValid_kept)
    | (with_reducible apply State.modCell_kept)
    | (dsimp only)
    | split

theorem leaveShadow_kept : ∀ x0 x1 s, Kept p s → Kept p (leaveShadow x0 x1 s) := by
  intros x0 x1 s h
  unfold leaveShadow
  repeat' first
    | (with_reducible assumption)
    | intro _
    | (with_reducible apply State.setPlate_kept)
    | (dsimp only)
    | split

theorem dissolvePart_kept : ∀ x0 s, Kept p s → Kept p (dissolvePart x0 s).s := by
  intros x0 s h
  unfold dissolvePart
  repeat' first
    | (with_reducible assumption)
    | intro _
    | (with_reducible apply Reply.bad_kept)
    | (with_reducible apply Reply.busy_kept)
    | (with_reducible apply each_kept)
    | (with_reducible apply setParent_kept)
    | (with_reducible apply leaveShadow_kept)
    | (with_reducible apply State.modPlate_kept)
    | (with_reducible apply ifValid_kept)
    | (dsimp only)
    | split

theorem leaveParent_kept : ∀ x0 s, Kept p s → Kept p (leaveParent x0 s) := by
  intros x0 s h
  unfold leaveParent
  repeat' first
    | (with_reducible assumption)
    | intro _
    | (with_reducible apply State.modPlate_kept)
    | (with_reducible apply leaveShadow_kept)
    | (dsimp only)
    | split

theorem dissolveReply_kept : ∀ x0 s, Kept p s → Kept p (dissolveReply x0 s).s := by
  intros x0 s h
  unfold dissolveReply
  repeat' first
    | (with_reducible assumption)
    | intro _
    | (with_reducible apply Reply.bad_kept)
    | (with_reducible apply Reply.busy_kept)
    | (with_reducible apply leaveParent_kept)
    | (with_reducible apply each_kept)
    | (with_reducible apply setParent_kept)
    | (with_reducible apply ifValid_kept)
    | (with_reducible apply State.setPlate_kept)
    | (dsimp only)
    | split

theorem execPlateComposeAdd_kept : ∀ x0 x1 x2 s, Kept p s → keptOut p (execPlateComposeAdd x0 x1 x2 s) := by
  intros x0 x1 x2 s h
  unfold execPlateComposeAdd
  repeat' first
    | (with_reducible assumption)
    | (with_reducible exact True.intro)
    | intro _
    | (with_reducible apply command_kept)
    | (with_reducible apply onCell_kept)
    | (with_reducible apply addReply_kept)

theorem execPlateComposeCreate_kept : ∀ x0 x1 s, Kept p s → keptOut p (execPlateComposeCreate x0 x1 s) := by
  intros x0 x1 s h
  unfold execPlateComposeCreate
  repeat' first
    | (with_reducible assumption)
    | (with_reducible exact True.intro)
    | intro _
    | (with_reducible apply command_kept)
    | (with_reducible apply createReply_kept)

theorem execPlateComposeDissolve_kept : ∀ x0 x1 s, Kept p s → keptOut p (execPlateComposeDissolve x0 x1 s) := by
  intros x0 x1 s h
  unfold execPlateComposeDissolve
  repeat' first
    | (with_reducible assumption)
    | (with_reducible exact True.intro)
    | intro _
    | (with_reducible apply command_kept)
    | (with_reducible apply onCell_kept)
    | (with_reducible apply dissolveReply_kept)

theorem removeReply_kept : ∀ x0 x1 s, Kept p s → Kept p (removeReply x0 x1 s).s := by
  intros x0 x1 s h
  unfold removeReply
  repeat' first
    | (with_reducible assumption)
    | intro _
    | (with_reducible apply Reply.bad_kept)
    | (with_reducible apply Reply.busy_kept)
    | (with_reducible apply State.setPlate_kept)
    | (with_reducible apply ifValid_kept)
    | (with_reducible apply each_kept)
    | (with_reducible apply setParent_kept)
    | (dsimp only)
    | split

theorem execPlateComposeRemove_kept : ∀ x0 x1 x2 s, Kept p s → keptOut p (execPlateComposeRemove x0 x1 x2 s) := by
  intros x0 x1 x2 s h
  unfold execPlateComposeRemove
  repeat' first
    | (with_reducible assumption)
    | (with_reducible exact True.intro)
    | intro _
    | (with_reducible apply command_kept)
    | (with_reducible apply onCell_kept)
    | (with_reducible apply removeReply_kept)

theorem sealReply_kept : ∀ x0 s, Kept p s → Kept p (sealReply x0 s).s := by
  intros x0 s h
  unfold sealReply
  repeat' first
    | (with_reducible assumption)
    | intro _
    | (with_reducible apply Reply.bad_kept)
    | (with_reducible apply announce_kept)
    | (with_reducible apply State.setPlate_kept)
    | (dsimp only)
    | split

theorem execPlateComposeSeal_kept : ∀ x0 x1 s, Kept p s → keptOut p (execPlateComposeSeal x0 x1 s) := by
  intros x0 x1 s h
  unfold execPlateComposeSeal
  repeat' first
    | (with_reducible assumption)
    | (with_reducible exact True.intro)
    | intro _
    | (with_reducible apply command_kept)
    | (with_reducible apply onCell_kept)
    | (with_reducible apply sealReply_kept)

theorem removePart_kept : ∀ x0 x1 s, Kept p s → Kept p (removePart x0 x1 s).s := by
  intros x0 x1 s h
  unfold removePart
  repeat' first
    | (with_reducible assumption)
    | intro _
    | (with_reducible apply Reply.bad_kept)
    | (with_reducible apply Reply.busy_kept)
    | (with_reducible apply ifValid_kept)
    | (with_reducible apply each_kept)
    | (with_reducible apply setParent_kept)
    | (with_reducible apply leaveShadow_kept)
    | (dsimp only)
    | split

theorem sealPart_kept : ∀ x0 s, Kept p s → Kept p (sealPart x0 s).s := by
  intros x0 s h
  unfold sealPart
  repeat' first
    | (with_reducible assumption)
    | intro _
    | (with_reducible apply Reply.bad_kept)
    | (dsimp only)
    | split

theorem takeAbove_kept : ∀ x0 x1 s, Kept p s → Kept p (takeAbove x0 x1 s) := by
  intros x0 x1 s h
  unfold takeAbove
  repeat' first
    | (with_reducible assumption)
    | intro _
    | (with_reducible apply State.setPlate_kept)
    | (with_reducible apply announce_kept)
    | (with_reducible apply State.modCell_kept)
    | (dsimp only)
    | split

theorem takeBelow_kept : ∀ x0 x1 s, Kept p s → Kept p (takeBelow x0 x1 s) := by
  intros x0 x1 s h
  unfold takeBelow
  repeat' first
    | (with_reducible assumption)
    | intro _
    | (with_reducible apply announce_kept)
    | (with_reducible apply State.modPlate_kept)
    | (dsimp only)
    | split

theorem addResult_kept : ∀ x0 x1 x2 s, Kept p s → Kept p (addResult x0 x1 x2 s) := by
  intros x0 x1 x2 s h
  unfold addResult
  repeat' first
    | (with_reducible assumption)
    | intro _
    | (with_reducible apply pump_kept)
    | (with_reducible apply decideFlights_kept)
    | (dsimp only)
    | split

theorem beginProof_kept : ∀ x0 x1 s, Kept p s → Kept p (beginProof x0 x1 s) := by
  intros x0 x1 s h
  unfold beginProof
  repeat' first
    | (with_reducible assumption)
    | intro _
    | (with_reducible apply each_kept)
    | (with_reducible apply safeRes_kept)
    | (with_reducible apply leaveOn_kept)
    | (with_reducible apply disarmProof_kept)
    | (with_reducible apply State.setProof_kept)
    | (dsimp only)
    | split

theorem joinProof_kept : ∀ x0 s, Kept p s → Kept p (joinProof x0 s) := by
  intros x0 s h
  unfold joinProof
  repeat' first
    | (with_reducible assumption)
    | intro _
    | (dsimp only)
    | split

theorem proofReply_kept : ∀ x0 s, Kept p s → Kept p (proofReply x0 s).s := by
  intros x0 s h
  unfold proofReply
  repeat' first
    | (with_reducible assumption)
    | intro _
    | (with_reducible apply Reply.bad_kept)
    | (with_reducible apply Reply.no_kept)
    | (with_reducible apply Reply.busy_kept)
    | (with_reducible apply beginProof_kept)
    | (with_reducible apply joinProof_kept)
    | (dsimp only)
    | split

theorem proofRequest_kept : ∀ x0 x1 x2 x3 s, Kept p s → Kept p (proofRequest x0 x1 x2 x3 s).s := by
  intro kind domain tests cell s h
  have hp := proofReply_kept { kind, domain, cell, tests, id := s.nextId } s h
  unfold proofRequest
  extract_lets r0 _ r
  have hr : Kept p r.s := ite_reply hp hp
  clear_value r
  exact ite_reply (onCell_kept _ _ _ _ _ hr h) hr

theorem execProofRun_kept : ∀ x0 x1 x2 x3 x4 s, Kept p s → keptOut p (execProofRun x0 x1 x2 x3 x4 s) := by
  intros x0 x1 x2 x3 x4 s h
  unfold execProofRun
  repeat' first
    | (with_reducible assumption)
    | (with_reducible exact True.intro)
    | intro _
    | (with_reducible apply command_kept)
    | (with_reducible apply proofRequest_kept)

theorem proofReset_kept : ∀ x0 x1 s, Kept p s → Kept p (proofReset x0 x1 s) := by
  intros x0 x1 s h
  unfold proofReset
  repeat' first
    | (with_reducible assumption)
    | intro _
    | (with_reducible apply freshDomain_kept)
    | (with_reducible apply each_kept)
    | (with_reducible apply flushEnds_kept)
    | (with_reducible apply State.modBurin_kept)
    | (with_reducible apply reloadTiles_kept)
    | (dsimp only)
    | split

theorem proofMismatch_kept : ∀ x0 x1 x2 x3 s, Kept p s → Kept p (proofMismatch x0 x1 x2 x3 s) := by
  intros x0 x1 x2 x3 s h
  unfold proofMismatch
  repeat' first
    | (with_reducible assumption)
    | intro _
    | (with_reducible apply doubtDevice_kept)
    | (with_reducible apply doubtPlate_kept)
    | (with_reducible apply each_kept)
    | (dsimp only)
    | split

theorem execProofRunEnd_kept : ∀ x0 x1 x2 x3 s, Kept p s → keptOut p (execProofRunEnd x0 x1 x2 x3 s) := by
  intros x0 x1 x2 x3 s h
  unfold execProofRunEnd
  repeat' first
    | (with_reducible assumption)
    | (with_reducible exact True.intro)
    | intro _
    | (with_reducible apply proofReset_kept)
    | (with_reducible apply State.setProof_kept)
    | (with_reducible apply tell_kept)
    | (with_reducible apply addResult_kept)
    | (with_reducible apply proofMismatch_kept)
    | (dsimp only)
    | split

theorem State.startBar_kept : ∀ {s x1} t, State.startBar s x1 = some t → Kept p s → Kept p t.s := by
  intro s cell r e h
  unfold State.startBar at e
  dsimp only at e
  repeat' split at e
  all_goals first
    | contradiction
    | (injection e with e; subst e; exact h)

theorem getD_kept : ∀ (o : Option Reply) (s : State), (∀ r, o = some r → Kept p r.s) → Kept p s →
    Kept p (o.getD { s }).s := by
  intro o s hr h
  cases o with
  | none => exact h
  | some r => exact hr r rfl

theorem abortCmdReply_kept : ∀ x0 x1 x2 s, Kept p s → Kept p (abortCmdReply x0 x1 x2 s).s := by
  intros x0 x1 x2 s h
  unfold abortCmdReply
  repeat' first
    | (with_reducible assumption)
    | intro _
    | (with_reducible apply Reply.bad_kept)
    | (with_reducible apply State.modSq_kept)
    | (with_reducible apply decideFlights_kept)
    | (with_reducible apply dropAsked_kept)
    | (with_reducible apply Reply.no_kept)
    | (dsimp only)
    | split

theorem addSeries_kept : ∀ x0 x1 x2 s, Kept p s → Kept p (addSeries x0 x1 x2 s) := by
  intros x0 x1 x2 s h
  unfold addSeries
  repeat' first
    | (with_reducible assumption)
    | intro _
    | (with_reducible apply State.modRoot_kept)
    | (with_reducible apply State.modCell_kept)

theorem cellAbortReply_kept : ∀ x0 s, Kept p s → Kept p (cellAbortReply x0 s).s := by
  intros x0 s h
  unfold cellAbortReply
  repeat' first
    | (with_reducible assumption)
    | intro _
    | (with_reducible apply Reply.bad_kept)
    | (with_reducible apply stopRoot_kept)
    | (dsimp only)
    | split

theorem cellStartReply_kept : ∀ x0 x1 s, Kept p s → Kept p (cellStartReply x0 x1 s).s := by
  intros x0 x1 s h
  unfold cellStartReply
  repeat' first
    | (with_reducible assumption)
    | intro _
    | (with_reducible apply Reply.bad_kept)
    | (with_reducible refine State.startBar_kept _ (by assumption) ?_)
    | (with_reducible apply addSeries_kept)
    | (dsimp only)
    | split

theorem cellStopReply_kept : ∀ x0 s, Kept p s → Kept p (cellStopReply x0 s).s := by
  intros x0 s h
  unfold cellStopReply
  repeat' first
    | (with_reducible assumption)
    | intro _
    | (with_reducible apply Reply.bad_kept)
    | (with_reducible apply beginStop_kept)
    | (with_reducible refine beginStop_pair (by assumption) ?_)
    | (dsimp only)
    | split

theorem dropHead_kept : ∀ x0 s, Kept p s → Kept p (dropHead x0 s) := by
  intros x0 s h
  unfold dropHead
  repeat' first
    | (with_reducible assumption)
    | intro _
    | (with_reducible apply State.modQueue_kept)

theorem execCellAbort_kept : ∀ x0 x1 s, Kept p s → keptOut p (execCellAbort x0 x1 s) := by
  intros x0 x1 s h
  unfold execCellAbort
  repeat' first
    | (with_reducible assumption)
    | (with_reducible exact True.intro)
    | intro _
    | (with_reducible apply command_kept)
    | (with_reducible apply onCell_kept)
    | (with_reducible apply cellAbortReply_kept)

theorem execCellAbortCommandForm_kept : ∀ x0 x1 x2 x3 s, Kept p s → keptOut p (execCellAbortCommandForm x0 x1 x2 x3 s) := by
  intros x0 x1 x2 x3 s h
  unfold execCellAbortCommandForm
  repeat' first
    | (with_reducible assumption)
    | (with_reducible exact True.intro)
    | intro _
    | (with_reducible apply command_kept)
    | (with_reducible apply abortCmdReply_kept)

theorem execCellStart_kept : ∀ x0 x1 x2 s, Kept p s → keptOut p (execCellStart x0 x1 x2 s) := by
  intros x0 x1 x2 s h
  unfold execCellStart
  repeat' first
    | (with_reducible assumption)
    | (with_reducible exact True.intro)
    | intro _
    | (with_reducible apply command_kept)
    | (with_reducible apply onCell_kept)
    | (with_reducible apply cellStartReply_kept)

theorem execCellStop_kept : ∀ x0 x1 s, Kept p s → keptOut p (execCellStop x0 x1 s) := by
  intros x0 x1 s h
  unfold execCellStop
  repeat' first
    | (with_reducible assumption)
    | (with_reducible exact True.intro)
    | intro _
    | (with_reducible apply command_kept)
    | (with_reducible apply onCell_kept)
    | (with_reducible apply cellStopReply_kept)

theorem execCreditReturn_kept : ∀ x0 s, Kept p s → keptOut p (execCreditReturn x0 s) := by
  intros x0 s h
  unfold execCreditReturn
  repeat' first
    | (with_reducible assumption)
    | (with_reducible exact True.intro)
    | intro _
    | (with_reducible apply State.setQueue_kept)
    | (dsimp only)
    | split

theorem writeGaps_kept : ∀ x0 x1 s, Kept p s → Kept p (writeGaps x0 x1 s) := by
  intro x0 x1
  induction x1 with
  | zero => intro s h; exact h
  | succ n ih =>
    intro s h
    unfold writeGaps
    repeat' first
      | (with_reducible assumption)
      | (with_reducible apply ih)
      | (with_reducible refine ringPut_kept _ (by assumption) ?_)
      | (with_reducible apply State.modRoot_kept)
      | intro _
      | (dsimp only)
      | split

theorem execDropStateExit_kept : ∀ x0 s, Kept p s → keptOut p (execDropStateExit x0 s) := by
  intros x0 s h
  unfold execDropStateExit
  repeat' first
    | (with_reducible assumption)
    | (with_reducible exact True.intro)
    | intro _
    | (with_reducible apply writeGaps_kept)
    | (with_reducible apply flush_kept)
    | (with_reducible apply State.setRoot_kept)
    | (with_reducible refine ringPut_kept _ (by assumption) ?_)
    | (with_reducible apply State.modRoot_kept)
    | (dsimp only)
    | split

theorem execEntryArrival_kept : ∀ x0 s, Kept p s → keptOut p (execEntryArrival x0 s) := by
  intros x0 s h
  unfold execEntryArrival
  repeat' first
    | (with_reducible assumption)
    | (with_reducible exact True.intro)
    | intro _
    | (with_reducible apply State.setQueue_kept)
    | (with_reducible apply doubtBurin_kept)
    | (dsimp only)
    | split

theorem execGovernorInterval_kept : ∀ s, Kept p s → keptOut p (execGovernorInterval s) := by
  intros s h
  unfold execGovernorInterval
  repeat' first
    | (with_reducible assumption)
    | (with_reducible exact True.intro)
    | intro _
    | (with_reducible apply setSum_kept)
    | (dsimp only)
    | split

theorem startBurin_kept : ∀ x0 x1 x2 s, Kept p s → Kept p (startBurin x0 x1 x2 s) := by
  intros x0 x1 x2 s h
  unfold startBurin
  repeat' first
    | (with_reducible assumption)
    | intro _
    | (with_reducible apply flushEnds_kept)
    | (with_reducible apply State.modBurin_kept)
    | (with_reducible apply fetchOn_kept)
    | (with_reducible apply State.setCent_kept)

theorem execHeldStart_kept : ∀ x0 s, Kept p s → keptOut p (execHeldStart x0 s) := by
  intros x0 s h
  unfold execHeldStart
  repeat' first
    | (with_reducible assumption)
    | (with_reducible exact True.intro)
    | intro _
    | (with_reducible apply startBurin_kept)
    | (with_reducible apply State.modBurin_kept)
    | (dsimp only)
    | split

theorem shotScheduleReply_kept : ∀ x0 x1 x2 x3 s, Kept p s → Kept p (shotScheduleReply x0 x1 x2 x3 s).s := by
  intros x0 x1 x2 x3 s h
  unfold shotScheduleReply
  repeat' first
    | (with_reducible assumption)
    | intro _
    | (with_reducible apply Reply.bad_kept)
    | (with_reducible refine State.startBar_kept _ (by assumption) ?_)
    | (with_reducible apply Reply.busy_kept)
    | (with_reducible apply Reply.no_kept)
    | (with_reducible apply addSeries_kept)
    | (dsimp only)
    | split

theorem execShotSchedule_kept : ∀ x0 x1 x2 x3 x4 s, Kept p s → keptOut p (execShotSchedule x0 x1 x2 x3 x4 s) := by
  intros x0 x1 x2 x3 x4 s h
  unfold execShotSchedule
  repeat' first
    | (with_reducible assumption)
    | (with_reducible exact True.intro)
    | intro _
    | (with_reducible apply command_kept)
    | (with_reducible apply onCell_kept)
    | (with_reducible apply shotScheduleReply_kept)

theorem freeOutputs_kept : ∀ x0 s, Kept p s → Kept p (freeOutputs x0 s) := by
  intros x0 s h
  unfold freeOutputs
  repeat' first
    | (with_reducible assumption)
    | intro _
    | (with_reducible apply each_kept)
    | (with_reducible apply State.modPort_kept)
    | (with_reducible apply State.modZ_kept)
    | (dsimp only)
    | split

theorem startOrHold_kept : ∀ x0 x1 x2 s, Kept p s → Kept p (startOrHold x0 x1 x2 s) := by
  intros x0 x1 x2 s h
  unfold startOrHold
  repeat' first
    | (with_reducible assumption)
    | intro _
    | (with_reducible apply State.setBurin_kept)
    | (with_reducible apply startBurin_kept)
    | (dsimp only)
    | split

theorem execStartEvent_kept : ∀ x0 s, Kept p s → keptOut p (execStartEvent x0 s) := by
  intros x0 s h
  unfold execStartEvent
  repeat' first
    | (with_reducible assumption)
    | (with_reducible exact True.intro)
    | intro _
    | (with_reducible apply State.modCell_kept)
    | (with_reducible apply State.setRoot_kept)
    | (with_reducible apply freeOutputs_kept)
    | (with_reducible apply each_kept)
    | (with_reducible apply startOrHold_kept)
    | (dsimp only)
    | split

theorem releaseHead_kept : ∀ {x0 s} e t, releaseHead x0 s = some (e, t) → Kept p s → Kept p t := by
  intros x0 s e t heq h
  unfold releaseHead at heq
  repeat' first
    | (with_reducible assumption)
    | contradiction
    | (injection heq with heq; injection heq with _ heq; subst heq)
    | intro _
    | (with_reducible apply State.setQueue_kept)
    | (dsimp only)
    | (dsimp only at heq)
    | split at heq

end Sys2Proof.Machine
end

