-- ==== Sys2Proof/Laws/KeptRun.lean ====
section
/-! SUPPORT. Memory keeps its canonical form and the queue is left alone
(what devices ask of each other, boot, calibration, control, windows, tones, loads, Z channels). -/

namespace Sys2Proof.Machine
variable {p : List Instr}

theorem homeReply_kept : ∀ x0 x1 s, Kept p s → Kept p (homeReply x0 x1 s).s := by
  intros x0 x1 s h
  unfold homeReply
  repeat' first
    | (with_reducible assumption)
    | intro _
    | (with_reducible apply configureReply_kept)
    | (with_reducible apply loadReply_kept)
    | (with_reducible apply cellStartReply_kept)
    | (with_reducible apply shotScheduleReply_kept)
    | (with_reducible apply cellStopReply_kept)
    | (with_reducible apply cellAbortReply_kept)
    | (with_reducible apply addReply_kept)
    | (with_reducible apply removeReply_kept)
    | (with_reducible apply sealReply_kept)
    | (with_reducible apply dissolveReply_kept)
    | (with_reducible apply bindReply_kept)
    | (with_reducible apply unbindReply_kept)
    | (with_reducible apply proofReply_kept)
    | (with_reducible apply faultClearReply_kept)
    | (dsimp only)
    | split

theorem setFlight_kept : ∀ x0 x1 x2 s, Kept p s → Kept p (setFlight x0 x1 x2 s) := by
  intros x0 x1 x2 s h
  unfold setFlight
  repeat' first
    | (with_reducible assumption)
    | intro _
    | (with_reducible apply State.modSq_kept)

theorem endFlight_kept : ∀ x0 x1 x2 x3 x4 s, Kept p s → Kept p (endFlight x0 x1 x2 x3 x4 s) := by
  intros x0 x1 x2 x3 x4 s h
  unfold endFlight
  repeat' first
    | (with_reducible assumption)
    | intro _
    | (with_reducible apply noteFailure_kept)
    | (with_reducible apply setFlight_kept)

theorem commitFlight_kept : ∀ x0 x1 x2 x3 x4 s, Kept p s → Kept p (commitFlight x0 x1 x2 x3 x4 s) := by
  intros x0 x1 x2 x3 x4 s h
  unfold commitFlight
  repeat' first
    | (with_reducible assumption)
    | intro _
    | (with_reducible apply homeReply_kept)
    | (with_reducible apply Reply.no_kept)
    | (with_reducible apply each_kept)
    | (with_reducible apply tell_kept)
    | (with_reducible apply endFlight_kept)
    | (with_reducible apply Reply.s_kept)
    | (with_reducible apply setFlight_kept)
    | (dsimp only)
    | split

theorem doubtReport_kept : ∀ x0 x1 x2 x3 x4 s, Kept p s → Kept p (doubtReport x0 x1 x2 x3 x4 s) := by
  intros x0 x1 x2 x3 x4 s h
  unfold doubtReport
  repeat' first
    | (with_reducible assumption)
    | intro _
    | (with_reducible apply remoteDoubt_kept)
    | (with_reducible apply State.modFault_kept)
    | (dsimp only)
    | split

theorem taskReply_kept : ∀ x0 s, Kept p s → Kept p (taskReply x0 s).s := by
  intros x0 s h
  unfold taskReply
  repeat' first
    | (with_reducible assumption)
    | intro _
    | (with_reducible apply onCell_kept)
    | (with_reducible apply homeReply_kept)
    | (with_reducible apply proofRequest_kept)
    | (with_reducible apply Reply.no_kept)
    | (dsimp only)
    | split

theorem takeAnswer_kept : ∀ x0 x1 x2 x3 s, Kept p s → Kept p (takeAnswer x0 x1 x2 x3 s) := by
  intros x0 x1 x2 x3 s h
  unfold takeAnswer
  repeat' first
    | (with_reducible assumption)
    | intro _
    | (with_reducible apply endFlight_kept)
    | (dsimp only)
    | split

theorem seriesPart_kept : ∀ x0 x1 x2 x3 x4 s, Kept p s → Kept p (seriesPart x0 x1 x2 x3 x4 s) := by
  intros x0 x1 x2 x3 x4 s h
  unfold seriesPart
  repeat' first
    | (with_reducible assumption)
    | intro _
    | (with_reducible apply addSeries_kept)

theorem partReply_kept : ∀ x0 x1 x2 s, Kept p s → Kept p (partReply x0 x1 x2 s).s := by
  intros x0 x1 x2 s h
  unfold partReply
  repeat' first
    | (with_reducible assumption)
    | intro _
    | (with_reducible apply configureReply_kept)
    | (with_reducible apply loadReply_kept)
    | (with_reducible refine State.startBar_kept _ (by assumption) ?_)
    | (with_reducible apply seriesPart_kept)
    | (with_reducible apply haltPart_kept)
    | (with_reducible apply stopRoot_kept)
    | (with_reducible apply addPart_kept)
    | (with_reducible apply removePart_kept)
    | (with_reducible apply sealPart_kept)
    | (with_reducible apply dissolvePart_kept)
    | (with_reducible apply bindReply_kept)
    | (with_reducible apply unbindReply_kept)
    | (with_reducible apply proofReply_kept)
    | (with_reducible apply clearPart_kept)
    | (with_reducible apply getD_kept)
    | (with_reducible intro _ _)
    | (dsimp only)
    | split

theorem takeAsk_kept : ∀ x0 x1 x2 s, Kept p s → Kept p (takeAsk x0 x1 x2 s) := by
  intros x0 x1 x2 s h
  unfold takeAsk
  repeat' first
    | (with_reducible assumption)
    | intro _
    | (with_reducible apply partReply_kept)
    | (with_reducible apply Reply.no_kept)
    | (with_reducible apply tell_kept)
    | (with_reducible apply Reply.s_kept)
    | (dsimp only)
    | split

theorem takeVote_kept : ∀ x0 x1 x2 x3 s, Kept p s → Kept p (takeVote x0 x1 x2 x3 s) := by
  intros x0 x1 x2 x3 s h
  unfold takeVote
  repeat' first
    | (with_reducible assumption)
    | intro _
    | (with_reducible apply setFlight_kept)
    | (with_reducible apply each_kept)
    | (with_reducible apply tell_kept)
    | (with_reducible apply endFlight_kept)
    | (with_reducible apply commitFlight_kept)
    | (dsimp only)
    | split

theorem unpromise_kept : ∀ x0 x1 s, Kept p s → Kept p (unpromise x0 x1 s) :=
  fun _ _ _ h => h

theorem takeApply_kept : ∀ x0 x1 x2 s, Kept p s → Kept p (takeApply x0 x1 x2 s) := by
  intros x0 x1 x2 s h
  unfold takeApply
  repeat' first
    | (with_reducible assumption)
    | intro _
    | (with_reducible apply unpromise_kept)
    | (with_reducible apply partReply_kept)
    | (with_reducible apply Reply.no_kept)
    | (with_reducible apply tell_kept)
    | (with_reducible apply announce_kept)
    | (with_reducible apply Reply.s_kept)
    | (dsimp only)
    | split

theorem takeConfirm_kept : ∀ x0 x1 s, Kept p s → Kept p (takeConfirm x0 x1 s) := by
  intros x0 x1 s h
  unfold takeConfirm
  repeat' first
    | (with_reducible assumption)
    | intro _
    | (with_reducible apply setFlight_kept)
    | (dsimp only)
    | split

theorem hear_kept : ∀ x0 x1 s, Kept p s → Kept p (hear x0 x1 s) := by
  intros x0 x1 s h
  unfold hear
  repeat' first
    | (with_reducible assumption)
    | intro _
    | (with_reducible apply conclude_kept)
    | (with_reducible apply taskReply_kept)
    | (with_reducible apply Reply.no_kept)
    | (with_reducible apply takeAnswer_kept)
    | (with_reducible apply takeAsk_kept)
    | (with_reducible apply takeVote_kept)
    | (with_reducible apply takeApply_kept)
    | (with_reducible apply takeConfirm_kept)
    | (with_reducible apply unpromise_kept)
    | (with_reducible apply haltPart_kept)
    | (with_reducible apply checkStopped_kept)
    | (with_reducible apply State.modRoot_kept)
    | (with_reducible apply takeAbove_kept)
    | (with_reducible apply takeBelow_kept)
    | (with_reducible apply addResult_kept)
    | (with_reducible apply doubtReport_kept)
    | (with_reducible apply loseBeyond_kept)
    | (with_reducible apply foundBeyond_kept)
    | (dsimp only)
    | split

theorem execControlFrame_kept : ∀ x0 x1 x2 x3 x4 s, Kept p s → keptOut p (execControlFrame x0 x1 x2 x3 x4 s) := by
  intros x0 x1 x2 x3 x4 s h
  unfold execControlFrame
  repeat' first
    | (with_reducible assumption)
    | (with_reducible exact True.intro)
    | intro _
    | (with_reducible apply recvFrame_kept)
    | (with_reducible apply relay_kept)
    | (with_reducible apply pump_kept)
    | (with_reducible apply hear_kept)
    | (dsimp only)
    | split

theorem applyCfg_kept : ∀ x0 s, Kept p s → Kept p (applyCfg x0 s) := by
  intros x0 s h
  unfold applyCfg
  repeat' first
    | (with_reducible assumption)
    | intro _
    | (with_reducible apply State.setTdom_kept)
    | (dsimp only)
    | split

theorem beginReset_kept : ∀ s, Kept p s → Kept p (beginReset s) := by
  intros s h
  unfold beginReset
  repeat' first
    | (with_reducible assumption)
    | intro _
    | (with_reducible apply safeDevice_kept)
    | (dsimp only)
    | split

theorem bootWake_kept : ∀ x0 x1 x2 s, Kept p s → Kept p (bootWake x0 x1 x2 s) := by
  intros x0 x1 x2 s h
  unfold bootWake
  repeat' first
    | (with_reducible assumption)
    | intro _
    | (with_reducible apply State.modDom_kept)
    | (with_reducible apply beginWake_kept)
    | (with_reducible apply nowOn_kept)
    | (with_reducible apply freshDomain_kept)
    | (with_reducible apply failWake_kept)
    | (dsimp only)
    | split

theorem bootDomain_kept : ∀ x0 x1 x2 x3 s, Kept p s → Kept p (bootDomain x0 x1 x2 x3 s) := by
  intros x0 x1 x2 x3 s h
  unfold bootDomain
  repeat' first
    | (with_reducible assumption)
    | intro _
    | (with_reducible apply bootWake_kept)
    | (with_reducible apply trainDies_kept)
    | (with_reducible apply doubtDevice_kept)
    | (with_reducible apply setSum_kept)
    | (dsimp only)
    | split

theorem bootStep_kept : ∀ x0 s, Kept p s → Kept p (bootStep x0 s) :=
  fun _ _ h => h

theorem contDoubt_kept : ∀ x0 x1 s, Kept p s → Kept p (contDoubt x0 x1 s) := by
  intros x0 x1 s h
  unfold contDoubt
  repeat' first
    | (with_reducible assumption)
    | intro _
    | (with_reducible apply doubtDevice_kept)
    | (with_reducible apply setSum_kept)
    | (dsimp only)
    | split

theorem execBootDomains_kept : ∀ x0 x1 x2 s, Kept p s → keptOut p (execBootDomains x0 x1 x2 s) := by
  intros x0 x1 x2 s h
  unfold execBootDomains
  repeat' first
    | (with_reducible assumption)
    | (with_reducible exact True.intro)
    | intro _
    | (with_reducible apply bootStep_kept)
    | (with_reducible apply each_kept)
    | (with_reducible apply bootDomain_kept)
    | (dsimp only)
    | split

theorem execBootFinal_kept : ∀ s, Kept p s → keptOut p (execBootFinal s) := by
  intros s h
  unfold execBootFinal
  repeat' first
    | (with_reducible assumption)
    | (with_reducible exact True.intro)
    | intro _
    | (with_reducible apply hbRestart_kept)
    | (with_reducible apply setMode_kept)
    | (with_reducible apply enterSafe_kept)
    | (dsimp only)
    | split

theorem startFw_kept : ∀ x0 x1 x2 s, Kept p s → Kept p (startFw x0 x1 x2 s) := by
  intros x0 x1 x2 s h
  unfold startFw
  repeat' first
    | (with_reducible assumption)
    | intro _
    | (with_reducible apply bootStep_kept)

theorem execBootFirmware_kept : ∀ x0 x1 s, Kept p s → keptOut p (execBootFirmware x0 x1 s) := by
  intros x0 x1 s h
  unfold execBootFirmware
  repeat' first
    | (with_reducible assumption)
    | (with_reducible exact True.intro)
    | intro _
    | (with_reducible apply startFw_kept)
    | (with_reducible apply bootStep_kept)
    | (dsimp only)
    | split

theorem execBootFlash_kept : ∀ x0 x1 x2 x3 x4 s, Kept p s → keptOut p (execBootFlash x0 x1 x2 x3 x4 s) := by
  intros x0 x1 x2 x3 x4 s h
  unfold execBootFlash
  repeat' first
    | (with_reducible assumption)
    | (with_reducible exact True.intro)
    | intro _
    | (with_reducible apply bootStep_kept)
    | (with_reducible apply applyCfg_kept)
    | (dsimp only)
    | split

theorem execBootHost_kept : ∀ x0 x1 s, Kept p s → keptOut p (execBootHost x0 x1 s) := by
  intros x0 x1 s h
  unfold execBootHost
  repeat' first
    | (with_reducible assumption)
    | (with_reducible exact True.intro)
    | intro _
    | (with_reducible apply bootWake_kept)
    | (with_reducible apply bootStep_kept)
    | (dsimp only)
    | split

theorem execBootPatch_kept : ∀ x0 x1 s, Kept p s → keptOut p (execBootPatch x0 x1 s) := by
  intros x0 x1 s h
  unfold execBootPatch
  repeat' first
    | (with_reducible assumption)
    | (with_reducible exact True.intro)
    | intro _
    | (with_reducible apply foldl_kept)
    | (with_reducible apply bootStep_kept)
    | (with_reducible apply each_kept)
    | (with_reducible apply contDoubt_kept)
    | (dsimp only)
    | split

theorem poweredUp_kept : ∀ s, Kept p s → Kept p (poweredUp s) := by
  intros s h
  unfold poweredUp
  repeat' first
    | (with_reducible assumption)
    | intro _
    | (with_reducible exact ⟨rfl, h.2⟩)

theorem execPowerUp_kept : ∀ s, Kept p s → keptOut p (execPowerUp s) := by
  intros s h
  unfold execPowerUp
  repeat' first
    | (with_reducible assumption)
    | (with_reducible exact True.intro)
    | intro _
    | (with_reducible apply poweredUp_kept)

theorem execRefclkLoss_kept : ∀ s, Kept p s → keptOut p (execRefclkLoss s) := by
  intros s h
  unfold execRefclkLoss
  repeat' first
    | (with_reducible assumption)
    | (with_reducible exact True.intro)
    | intro _
    | (with_reducible apply each_kept)
    | (with_reducible apply State.modStampChan_kept)
    | (with_reducible apply tiuUnlock_kept)

theorem execRefclkValid_kept : ∀ s, Kept p s → keptOut p (execRefclkValid s) := by
  intros s h
  unfold execRefclkValid
  repeat' first
    | (with_reducible assumption)
    | (with_reducible exact True.intro)
    | intro _
    | (with_reducible apply bootStep_kept)
    | (dsimp only)
    | split

theorem execResetN_kept : ∀ s, Kept p s → keptOut p (execResetN s) := by
  intros s h
  unfold execResetN
  repeat' first
    | (with_reducible assumption)
    | (with_reducible exact True.intro)
    | intro _
    | (with_reducible apply beginReset_kept)
    | (dsimp only)
    | split

theorem execResetNRelease_kept : ∀ s, Kept p s → keptOut p (execResetNRelease s) := by
  intros s h
  unfold execResetNRelease
  repeat' first
    | (with_reducible assumption)
    | (with_reducible exact True.intro)
    | intro _
    | (dsimp only)
    | split

theorem execSupplyLoss_kept : ∀ s, Kept p s → keptOut p (execSupplyLoss s) := by
  intros s h
  unfold execSupplyLoss
  repeat' first
    | (with_reducible assumption)
    | (with_reducible exact True.intro)
    | intro _
    | (with_reducible apply poweredUp_kept)

theorem finishReset_kept : ∀ s, Kept p s → Kept p (finishReset s) := by
  intros s h
  unfold finishReset
  repeat' first
    | (with_reducible assumption)
    | intro _
    | (with_reducible apply loseSources_kept)
    | (with_reducible apply poweredUp_kept)

theorem resetDue_kept : ∀ s, Kept p s → Kept p (resetDue s) := by
  intros s h
  unfold resetDue
  repeat' first
    | (with_reducible assumption)
    | intro _
    | (with_reducible apply finishReset_kept)
    | (dsimp only)
    | split

theorem beginMeasure_kept : ∀ x0 x1 s, Kept p s → Kept p (beginMeasure x0 x1 s) := by
  intros x0 x1 s h
  unfold beginMeasure
  repeat' first
    | (with_reducible assumption)
    | intro _
    | (with_reducible apply State.modCal_kept)

theorem calCommitReply_kept : ∀ x0 x1 x2 s, Kept p s → Kept p (calCommitReply x0 x1 x2 s).s := by
  intros x0 x1 x2 s h
  unfold calCommitReply
  repeat' first
    | (with_reducible assumption)
    | intro _
    | (with_reducible apply Reply.bad_kept)
    | (with_reducible apply Reply.no_kept)
    | (with_reducible apply each_kept)
    | (with_reducible apply State.modCal_kept)
    | (dsimp only)
    | split

theorem calRunReply_kept : ∀ x0 x1 x2 s, Kept p s → Kept p (calRunReply x0 x1 x2 s).s := by
  intros x0 x1 x2 s h
  unfold calRunReply
  repeat' first
    | (with_reducible assumption)
    | intro _
    | (with_reducible apply Reply.bad_kept)
    | (with_reducible apply Reply.busy_kept)
    | (with_reducible apply each_kept)
    | (with_reducible apply State.setCent_kept)
    | (with_reducible apply Reply.no_kept)
    | (with_reducible apply foldl_kept)
    | (with_reducible apply beginTrim_kept)
    | (with_reducible apply beginMeasure_kept)
    | (dsimp only)
    | split

theorem calSetReply_kept : ∀ x0 x1 x2 x3 x4 x5 s, Kept p s → Kept p (calSetReply x0 x1 x2 x3 x4 x5 s).s := by
  intros x0 x1 x2 x3 x4 x5 s h
  unfold calSetReply
  repeat' first
    | (with_reducible assumption)
    | intro _
    | (with_reducible apply Reply.bad_kept)
    | (dsimp only)
    | split

theorem endRunOf_kept : ∀ x0 x1 x2 x3 s, Kept p s → Kept p (endRunOf x0 x1 x2 x3 s) := by
  intros x0 x1 x2 x3 s h
  unfold endRunOf
  repeat' first
    | (with_reducible assumption)
    | intro _
    | (with_reducible apply settleCal_kept)
    | (with_reducible apply State.modCal_kept)
    | (dsimp only)
    | split

theorem execAdcBlindRunEnd_kept : ∀ x0 x1 x2 x3 s, Kept p s → keptOut p (execAdcBlindRunEnd x0 x1 x2 x3 s) := by
  intros x0 x1 x2 x3 s h
  unfold execAdcBlindRunEnd
  repeat' first
    | (with_reducible assumption)
    | (with_reducible exact True.intro)
    | intro _
    | (with_reducible apply endRunOf_kept)
    | (dsimp only)
    | split

theorem execCalCommit_kept : ∀ x0 x1 x2 x3 s, Kept p s → keptOut p (execCalCommit x0 x1 x2 x3 s) := by
  intros x0 x1 x2 x3 s h
  unfold execCalCommit
  repeat' first
    | (with_reducible assumption)
    | (with_reducible exact True.intro)
    | intro _
    | (with_reducible apply command_kept)
    | (with_reducible apply calCommitReply_kept)

theorem execCalRun_kept : ∀ x0 x1 x2 x3 s, Kept p s → keptOut p (execCalRun x0 x1 x2 x3 s) := by
  intros x0 x1 x2 x3 s h
  unfold execCalRun
  repeat' first
    | (with_reducible assumption)
    | (with_reducible exact True.intro)
    | intro _
    | (with_reducible apply command_kept)
    | (with_reducible apply calRunReply_kept)

theorem execCalSet_kept : ∀ x0 x1 x2 x3 x4 x5 x6 s, Kept p s → keptOut p (execCalSet x0 x1 x2 x3 x4 x5 x6 s) := by
  intros x0 x1 x2 x3 x4 x5 x6 s h
  unfold execCalSet
  repeat' first
    | (with_reducible assumption)
    | (with_reducible exact True.intro)
    | intro _
    | (with_reducible apply command_kept)
    | (with_reducible apply calSetReply_kept)

theorem execCentroidUpdate_kept : ∀ x0 s, Kept p s → keptOut p (execCentroidUpdate x0 s) := by
  intros x0 s h
  unfold execCentroidUpdate
  repeat' first
    | (with_reducible assumption)
    | (with_reducible exact True.intro)
    | intro _
    | (with_reducible apply State.setCent_kept)
    | (with_reducible apply State.modBurin_kept)
    | (with_reducible apply foldl_kept)
    | (dsimp only)
    | split

theorem execStoreWrite_kept : ∀ x0 x1 x2 s, Kept p s → keptOut p (execStoreWrite x0 x1 x2 s) := by
  intros x0 x1 x2 s h
  unfold execStoreWrite
  repeat' first
    | (with_reducible assumption)
    | (with_reducible exact True.intro)
    | intro _
    | (with_reducible apply settleCal_kept)
    | (with_reducible apply State.modCal_kept)
    | (dsimp only)
    | split

theorem execTrimEnd_kept : ∀ x0 x1 x2 x3 s, Kept p s → keptOut p (execTrimEnd x0 x1 x2 x3 s) := by
  intros x0 x1 x2 x3 s h
  unfold execTrimEnd
  repeat' first
    | (with_reducible assumption)
    | (with_reducible exact True.intro)
    | intro _
    | (with_reducible apply State.modCal_kept)
    | (with_reducible apply dueWrite_kept)
    | (with_reducible apply endService_kept)
    | (with_reducible apply settleCal_kept)
    | (with_reducible apply beginTrim_kept)
    | (dsimp only)
    | split

theorem execZstatRunEnd_kept : ∀ x0 x1 s, Kept p s → keptOut p (execZstatRunEnd x0 x1 s) := by
  intros x0 x1 s h
  unfold execZstatRunEnd
  repeat' first
    | (with_reducible assumption)
    | (with_reducible exact True.intro)
    | intro _
    | (with_reducible apply endRunOf_kept)

theorem cplx_kept : ∀ x0 x1 x2 x3 x4 s, Kept p s → keptOut p (cplx x0 x1 x2 x3 x4 s) := by
  intros x0 x1 x2 x3 x4 s h
  unfold cplx
  repeat' first
    | (with_reducible assumption)
    | (with_reducible exact True.intro)
    | intro _
    | (with_reducible apply plain_kept)

theorem execCadd_kept : ∀ x0 x1 x2 x3 s, Kept p s → keptOut p (execCadd x0 x1 x2 x3 s) := by
  intros x0 x1 x2 x3 s h
  unfold execCadd
  repeat' first
    | (with_reducible assumption)
    | (with_reducible exact True.intro)
    | intro _
    | (with_reducible apply cplx_kept)

theorem execCconj_kept : ∀ x0 x1 x2 s, Kept p s → keptOut p (execCconj x0 x1 x2 s) := by
  intros x0 x1 x2 s h
  unfold execCconj
  repeat' first
    | (with_reducible assumption)
    | (with_reducible exact True.intro)
    | intro _
    | (with_reducible apply cplx_kept)

theorem execClra_kept : ∀ x0 x1 s, Kept p s → keptOut p (execClra x0 x1 s) := by
  intros x0 x1 s h
  unfold execClra
  repeat' first
    | (with_reducible assumption)
    | (with_reducible exact True.intro)
    | intro _
    | (with_reducible apply plain_kept)

theorem execCmac_kept : ∀ x0 x1 x2 x3 s, Kept p s → keptOut p (execCmac x0 x1 x2 x3 s) := by
  intros x0 x1 x2 x3 s h
  unfold execCmac
  repeat' first
    | (with_reducible assumption)
    | (with_reducible exact True.intro)
    | intro _
    | (with_reducible apply plain_kept)

theorem execCmacj_kept : ∀ x0 x1 x2 x3 s, Kept p s → keptOut p (execCmacj x0 x1 x2 x3 s) := by
  intros x0 x1 x2 x3 s h
  unfold execCmacj
  repeat' first
    | (with_reducible assumption)
    | (with_reducible exact True.intro)
    | intro _
    | (with_reducible apply plain_kept)

theorem execCmacm_kept : ∀ x0 x1 x2 x3 s, Kept p s → keptOut p (execCmacm x0 x1 x2 x3 s) := by
  intros x0 x1 x2 x3 s h
  unfold execCmacm
  repeat' first
    | (with_reducible assumption)
    | (with_reducible exact True.intro)
    | intro _
    | (with_reducible apply plain_kept)

theorem execCmag2_kept : ∀ x0 x1 x2 s, Kept p s → keptOut p (execCmag2 x0 x1 x2 s) := by
  intros x0 x1 x2 s h
  unfold execCmag2
  repeat' first
    | (with_reducible assumption)
    | (with_reducible exact True.intro)
    | intro _
    | (with_reducible apply plain_kept)

theorem execCmul_kept : ∀ x0 x1 x2 x3 s, Kept p s → keptOut p (execCmul x0 x1 x2 x3 s) := by
  intros x0 x1 x2 x3 s h
  unfold execCmul
  repeat' first
    | (with_reducible assumption)
    | (with_reducible exact True.intro)
    | intro _
    | (with_reducible apply plain_kept)

theorem execCmulr_kept : ∀ x0 x1 x2 x3 s, Kept p s → keptOut p (execCmulr x0 x1 x2 x3 s) := by
  intros x0 x1 x2 x3 s h
  unfold execCmulr
  repeat' first
    | (with_reducible assumption)
    | (with_reducible exact True.intro)
    | intro _
    | (with_reducible apply cplx_kept)

theorem execCpk_kept : ∀ x0 x1 x2 x3 s, Kept p s → keptOut p (execCpk x0 x1 x2 x3 s) := by
  intros x0 x1 x2 x3 s h
  unfold execCpk
  repeat' first
    | (with_reducible assumption)
    | (with_reducible exact True.intro)
    | intro _
    | (with_reducible apply plain_kept)

theorem execCscl_kept : ∀ x0 x1 x2 x3 s, Kept p s → keptOut p (execCscl x0 x1 x2 x3 s) := by
  intros x0 x1 x2 x3 s h
  unfold execCscl
  repeat' first
    | (with_reducible assumption)
    | (with_reducible exact True.intro)
    | intro _
    | (with_reducible apply cplx_kept)

theorem execCsub_kept : ∀ x0 x1 x2 x3 s, Kept p s → keptOut p (execCsub x0 x1 x2 x3 s) := by
  intros x0 x1 x2 x3 s h
  unfold execCsub
  repeat' first
    | (with_reducible assumption)
    | (with_reducible exact True.intro)
    | intro _
    | (with_reducible apply cplx_kept)

theorem execCsubm_kept : ∀ x0 x1 x2 x3 x4 s, Kept p s → keptOut p (execCsubm x0 x1 x2 x3 x4 s) := by
  intros x0 x1 x2 x3 x4 s h
  unfold execCsubm
  repeat' first
    | (with_reducible assumption)
    | (with_reducible exact True.intro)
    | intro _
    | (with_reducible apply plain_kept)

theorem execDsq_kept : ∀ x0 x1 x2 x3 x4 x5 s, Kept p s → keptOut p (execDsq x0 x1 x2 x3 x4 x5 s) := by
  intros x0 x1 x2 x3 x4 x5 s h
  unfold execDsq
  repeat' first
    | (with_reducible assumption)
    | (with_reducible exact True.intro)
    | intro _
    | (with_reducible apply plain_kept)

theorem execMac_kept : ∀ x0 x1 x2 x3 s, Kept p s → keptOut p (execMac x0 x1 x2 x3 s) := by
  intros x0 x1 x2 x3 s h
  unfold execMac
  repeat' first
    | (with_reducible assumption)
    | (with_reducible exact True.intro)
    | intro _
    | (with_reducible apply plain_kept)

theorem execMova_kept : ∀ x0 x1 x2 s, Kept p s → keptOut p (execMova x0 x1 x2 s) := by
  intros x0 x1 x2 s h
  unfold execMova
  repeat' first
    | (with_reducible assumption)
    | (with_reducible exact True.intro)
    | intro _
    | (with_reducible apply plain_kept)

theorem execMsu_kept : ∀ x0 x1 x2 x3 s, Kept p s → keptOut p (execMsu x0 x1 x2 x3 s) := by
  intros x0 x1 x2 x3 s h
  unfold execMsu
  repeat' first
    | (with_reducible assumption)
    | (with_reducible exact True.intro)
    | intro _
    | (with_reducible apply plain_kept)

theorem execRnd_kept : ∀ x0 x1 x2 x3 s, Kept p s → keptOut p (execRnd x0 x1 x2 x3 s) := by
  intros x0 x1 x2 x3 s h
  unfold execRnd
  repeat' first
    | (with_reducible assumption)
    | (with_reducible exact True.intro)
    | intro _
    | (with_reducible apply plain_kept)

theorem execRndc_kept : ∀ x0 x1 x2 x3 s, Kept p s → keptOut p (execRndc x0 x1 x2 x3 s) := by
  intros x0 x1 x2 x3 s h
  unfold execRndc
  repeat' first
    | (with_reducible assumption)
    | (with_reducible exact True.intro)
    | intro _
    | (with_reducible apply plain_kept)

theorem execSha_kept : ∀ x0 x1 x2 s, Kept p s → keptOut p (execSha x0 x1 x2 s) := by
  intros x0 x1 x2 s h
  unfold execSha
  repeat' first
    | (with_reducible assumption)
    | (with_reducible exact True.intro)
    | intro _
    | (with_reducible apply plain_kept)

theorem execWsq_kept : ∀ x0 x1 x2 x3 x4 s, Kept p s → keptOut p (execWsq x0 x1 x2 x3 x4 s) := by
  intros x0 x1 x2 x3 x4 s h
  unfold execWsq
  repeat' first
    | (with_reducible assumption)
    | (with_reducible exact True.intro)
    | intro _
    | (with_reducible apply plain_kept)

theorem branchIf_kept : ∀ x0 x1 x2 x3 s, Kept p s → keptOut p (branchIf x0 x1 x2 x3 s) := by
  intros x0 x1 x2 x3 s h
  unfold branchIf
  repeat' first
    | (with_reducible assumption)
    | (with_reducible exact True.intro)
    | intro _
    | (with_reducible apply jumps_kept)

theorem execBeq_kept : ∀ x0 x1 x2 x3 s, Kept p s → keptOut p (execBeq x0 x1 x2 x3 s) := by
  intros x0 x1 x2 x3 s h
  unfold execBeq
  repeat' first
    | (with_reducible assumption)
    | (with_reducible exact True.intro)
    | intro _
    | (with_reducible apply branchIf_kept)

theorem execBeqz_kept : ∀ x0 x1 x2 s, Kept p s → keptOut p (execBeqz x0 x1 x2 s) := by
  intros x0 x1 x2 s h
  unfold execBeqz
  repeat' first
    | (with_reducible assumption)
    | (with_reducible exact True.intro)
    | intro _
    | (with_reducible apply branchIf_kept)

theorem execBge_kept : ∀ x0 x1 x2 x3 s, Kept p s → keptOut p (execBge x0 x1 x2 x3 s) := by
  intros x0 x1 x2 x3 s h
  unfold execBge
  repeat' first
    | (with_reducible assumption)
    | (with_reducible exact True.intro)
    | intro _
    | (with_reducible apply branchIf_kept)

theorem execBgeu_kept : ∀ x0 x1 x2 x3 s, Kept p s → keptOut p (execBgeu x0 x1 x2 x3 s) := by
  intros x0 x1 x2 x3 s h
  unfold execBgeu
  repeat' first
    | (with_reducible assumption)
    | (with_reducible exact True.intro)
    | intro _
    | (with_reducible apply branchIf_kept)

theorem execBlt_kept : ∀ x0 x1 x2 x3 s, Kept p s → keptOut p (execBlt x0 x1 x2 x3 s) := by
  intros x0 x1 x2 x3 s h
  unfold execBlt
  repeat' first
    | (with_reducible assumption)
    | (with_reducible exact True.intro)
    | intro _
    | (with_reducible apply branchIf_kept)

theorem execBltu_kept : ∀ x0 x1 x2 x3 s, Kept p s → keptOut p (execBltu x0 x1 x2 x3 s) := by
  intros x0 x1 x2 x3 s h
  unfold execBltu
  repeat' first
    | (with_reducible assumption)
    | (with_reducible exact True.intro)
    | intro _
    | (with_reducible apply branchIf_kept)

theorem execBne_kept : ∀ x0 x1 x2 x3 s, Kept p s → keptOut p (execBne x0 x1 x2 x3 s) := by
  intros x0 x1 x2 x3 s h
  unfold execBne
  repeat' first
    | (with_reducible assumption)
    | (with_reducible exact True.intro)
    | intro _
    | (with_reducible apply branchIf_kept)

theorem execBnez_kept : ∀ x0 x1 x2 s, Kept p s → keptOut p (execBnez x0 x1 x2 s) := by
  intros x0 x1 x2 s h
  unfold execBnez
  repeat' first
    | (with_reducible assumption)
    | (with_reducible exact True.intro)
    | intro _
    | (with_reducible apply branchIf_kept)

theorem execEnd_kept : ∀ x0 s, Kept p s → keptOut p (execEnd x0 s) := by
  intros x0 s h
  unfold execEnd
  repeat' first
    | (with_reducible assumption)
    | (with_reducible exact True.intro)
    | intro _
    | (with_reducible apply issue_kept)
    | (with_reducible apply endShot_kept)

theorem execJmp_kept : ∀ x0 x1 s, Kept p s → keptOut p (execJmp x0 x1 s) := by
  intros x0 x1 s h
  unfold execJmp
  repeat' first
    | (with_reducible assumption)
    | (with_reducible exact True.intro)
    | intro _
    | (with_reducible apply jumps_kept)

theorem execJt_kept : ∀ x0 x1 x2 s, Kept p s → keptOut p (execJt x0 x1 x2 s) := by
  intros x0 x1 x2 s h
  unfold execJt
  repeat' first
    | (with_reducible assumption)
    | (with_reducible exact True.intro)
    | intro _
    | (with_reducible apply jumps_kept)

theorem execNop_kept : ∀ x0 s, Kept p s → keptOut p (execNop x0 s) := by
  intros x0 s h
  unfold execNop
  repeat' first
    | (with_reducible assumption)
    | (with_reducible exact True.intro)
    | intro _
    | (with_reducible apply plain_kept)

theorem execRep_kept : ∀ x0 x1 x2 s, Kept p s → keptOut p (execRep x0 x1 x2 s) := by
  intros x0 x1 x2 s h
  unfold execRep
  repeat' first
    | (with_reducible assumption)
    | (with_reducible exact True.intro)
    | intro _
    | (with_reducible apply jumps_kept)

theorem execRepi_kept : ∀ x0 x1 x2 s, Kept p s → keptOut p (execRepi x0 x1 x2 s) := by
  intros x0 x1 x2 s h
  unfold execRepi
  repeat' first
    | (with_reducible assumption)
    | (with_reducible exact True.intro)
    | intro _
    | (with_reducible apply jumps_kept)

theorem streamTake_kept : ∀ x0 x1 x2 x3 s, Kept p s → Kept p (streamTake x0 x1 x2 x3 s) := by
  intros x0 x1 x2 x3 s h
  unfold streamTake
  repeat' first
    | (with_reducible assumption)
    | intro _
    | (with_reducible apply closeBlock_kept)
    | (with_reducible apply State.modStream_kept)
    | (dsimp only)
    | split

theorem chainToStream_kept : ∀ x0 x1 x2 x3 x4 x5 s, Kept p s → Kept p (chainToStream x0 x1 x2 x3 x4 x5 s).1 := by
  intros x0 x1 x2 x3 x4 x5 s h
  unfold chainToStream
  repeat' first
    | (with_reducible assumption)
    | intro _
    | (with_reducible apply State.modStream_kept)
    | (with_reducible apply State.modAcqPort_kept)
    | (with_reducible apply streamTake_kept)
    | (dsimp only)
    | split

theorem chainToStream_pair {x0 x1 x2 x3 x4 x5 s a b} (heq : chainToStream x0 x1 x2 x3 x4 x5 s = (a, b)) : Kept p s →
    Kept p a := by
  intro h
  have := chainToStream_kept x0 x1 x2 x3 x4 x5 s h
  rw [heq] at this
  exact this

theorem deliver_kept : ∀ x0 x1 s, Kept p s → Kept p (deliver x0 x1 s) := by
  intros x0 x1 s h
  unfold deliver
  repeat' first
    | (with_reducible assumption)
    | intro _
    | (with_reducible apply State.setBurin_kept)
    | (dsimp only)
    | split

theorem deliverReady_kept : ∀ x0 x1 s, Kept p s → Kept p (deliverReady x0 x1 s) := by
  intro x0 x1
  induction x1 with
  | zero => intro s h; exact h
  | succ n ih =>
    intro s h
    unfold deliverReady
    repeat' first
      | (with_reducible assumption)
      | (with_reducible apply ih)
      | (with_reducible apply deliver_kept)
      | (with_reducible apply State.modRot_kept)
      | intro _
      | (dsimp only)
      | split

theorem openWindow_kept : ∀ x0 x1 x2 s, Kept p s → Kept p (openWindow x0 x1 x2 s) := by
  intros x0 x1 x2 s h
  unfold openWindow
  repeat' first
    | (with_reducible assumption)
    | intro _
    | (with_reducible apply State.modRot_kept)
    | (with_reducible apply State.modTone_kept)
    | (dsimp only)
    | split

theorem stipInput_kept : ∀ x0 x1 x2 x3 s, Kept p s → Kept p (stipInput x0 x1 x2 x3 s) := by
  intros x0 x1 x2 x3 s h
  unfold stipInput
  repeat' first
    | (with_reducible assumption)
    | intro _
    | (with_reducible apply State.modAcqPort_kept)
    | (with_reducible apply State.setStipChain_kept)
    | (with_reducible apply chainToStream_kept)
    | (with_reducible refine chainToStream_pair (by assumption) ?_)
    | (dsimp only)
    | split

theorem windowsTake_kept : ∀ x0 x1 s, Kept p s → Kept p (windowsTake x0 x1 s) := by
  intros x0 x1 s h
  unfold windowsTake
  repeat' first
    | (with_reducible assumption)
    | intro _
    | (with_reducible apply State.modRot_kept)
    | (with_reducible apply deliverReady_kept)

theorem toneInput_kept : ∀ x0 x1 x2 s, Kept p s → Kept p (toneInput x0 x1 x2 s).1 := by
  intros x0 x1 x2 s h
  unfold toneInput
  repeat' first
    | (with_reducible assumption)
    | intro _
    | (with_reducible apply State.modAcqPort_kept)
    | (with_reducible apply State.modRot_kept)
    | (with_reducible apply chainToStream_kept)
    | (with_reducible refine chainToStream_pair (by assumption) ?_)
    | (with_reducible apply windowsTake_kept)
    | (dsimp only)
    | split

theorem toneInput_pair {x0 x1 x2 s a b} (heq : toneInput x0 x1 x2 s = (a, b)) : Kept p s → Kept p a := by
  intro h
  have := toneInput_kept x0 x1 x2 s h
  rw [heq] at this
  exact this

theorem windowsLose_kept : ∀ x0 x1 x2 s, Kept p s → Kept p (windowsLose x0 x1 x2 s) := by
  intros x0 x1 x2 s h
  unfold windowsLose
  repeat' first
    | (with_reducible assumption)
    | intro _
    | (with_reducible apply State.modRot_kept)

theorem countClamp_kept : ∀ x0 x1 s, Kept p s → Kept p (countClamp x0 x1 s) := by
  intros x0 x1 s h
  unfold countClamp
  repeat' first
    | (with_reducible assumption)
    | intro _
    | (with_reducible apply State.modPort_kept)
    | (dsimp only)
    | split

theorem countMissing_kept : ∀ x0 s, Kept p s → Kept p (countMissing x0 s) := by
  intros x0 s h
  unfold countMissing
  repeat' first
    | (with_reducible assumption)
    | intro _
    | (with_reducible apply State.modPort_kept)

theorem decidePlay_kept : ∀ x0 s, Kept p s → Kept p (decidePlay x0 s) := by
  intros x0 s h
  unfold decidePlay
  repeat' first
    | (with_reducible assumption)
    | intro _
    | (with_reducible apply consume_kept)
    | (with_reducible apply State.modTone_kept)
    | (with_reducible apply State.modPort_kept)
    | (dsimp only)
    | split

theorem execDecisionPoint_kept : ∀ x0 s, Kept p s → keptOut p (execDecisionPoint x0 s) := by
  intros x0 s h
  unfold execDecisionPoint
  repeat' first
    | (with_reducible assumption)
    | (with_reducible exact True.intro)
    | intro _
    | (with_reducible apply decidePlay_kept)
    | (dsimp only)
    | split

theorem lapse_kept : ∀ x0 x1 s, Kept p s → Kept p (lapse x0 x1 s) := by
  intros x0 x1 s h
  unfold lapse
  repeat' first
    | (with_reducible assumption)
    | intro _
    | (with_reducible apply decidePlay_kept)
    | (with_reducible apply endPlay_kept)
    | (with_reducible apply countMissing_kept)
    | (dsimp only)
    | split

theorem releaseTone_kept : ∀ x0 x1 f s, (∀ e s, Kept p s → Kept p (f e s)) → Kept p s → Kept p (releaseTone x0 x1 f s) := by
  intros x0 x1 f s hf h
  unfold releaseTone
  repeat' first
    | (with_reducible assumption)
    | intro _
    | (with_reducible apply hf)
    | (with_reducible refine releaseHead_kept _ _ (by assumption) ?_)
    | (with_reducible apply State.modPort_kept)
    | (with_reducible apply dropHead_kept)
    | (with_reducible apply lapse_kept)
    | (dsimp only)
    | split

theorem jumpRequest_kept : ∀ x0 x1 s, Kept p s → Kept p (jumpRequest x0 x1 s) := by
  intros x0 x1 s h
  unfold jumpRequest
  repeat' first
    | (with_reducible assumption)
    | intro _
    | (with_reducible apply decidePlay_kept)
    | (with_reducible apply State.modTone_kept)
    | (with_reducible apply State.modPort_kept)
    | (dsimp only)
    | split

theorem execJump_kept : ∀ x0 s, Kept p s → keptOut p (execJump x0 s) := by
  intros x0 s h
  unfold execJump
  repeat' first
    | (with_reducible assumption)
    | (with_reducible exact True.intro)
    | intro _
    | (with_reducible apply releaseTone_kept)
    | (with_reducible apply jumpRequest_kept)

theorem execPlayEnd_kept : ∀ x0 s, Kept p s → keptOut p (execPlayEnd x0 s) := by
  intros x0 s h
  unfold execPlayEnd
  repeat' first
    | (with_reducible assumption)
    | (with_reducible exact True.intro)
    | intro _
    | (with_reducible apply lapse_kept)

theorem segStarts_kept : ∀ x0 s, Kept p s → Kept p (segStarts x0 s) := by
  intros x0 s h
  unfold segStarts
  repeat' first
    | (with_reducible assumption)
    | intro _
    | (with_reducible apply raiseEp_kept)
    | (with_reducible apply followRequest_kept)
    | (dsimp only)
    | split

theorem playSegment_kept : ∀ x0 x1 s, Kept p s → Kept p (playSegment x0 x1 s) := by
  intros x0 x1 s h
  unfold playSegment
  repeat' first
    | (with_reducible assumption)
    | intro _
    | (with_reducible apply State.modPort_kept)
    | (with_reducible apply endPlay_kept)
    | (with_reducible apply openWindow_kept)
    | (with_reducible apply countMissing_kept)
    | (with_reducible apply countClamp_kept)
    | (with_reducible apply segStarts_kept)
    | (with_reducible apply State.modTone_kept)
    | (dsimp only)
    | split

theorem execSegPlay_kept : ∀ x0 s, Kept p s → keptOut p (execSegPlay x0 s) := by
  intros x0 s h
  unfold execSegPlay
  repeat' first
    | (with_reducible assumption)
    | (with_reducible exact True.intro)
    | intro _
    | (with_reducible apply releaseTone_kept)
    | (with_reducible apply playSegment_kept)

theorem execSegmentStart_kept : ∀ x0 s, Kept p s → keptOut p (execSegmentStart x0 s) := by
  intros x0 s h
  unfold execSegmentStart
  repeat' first
    | (with_reducible assumption)
    | (with_reducible exact True.intro)
    | intro _
    | (with_reducible apply decidePlay_kept)
    | (with_reducible apply segStarts_kept)
    | (with_reducible apply State.modTone_kept)
    | (dsimp only)
    | split

theorem execStop_kept : ∀ x0 s, Kept p s → keptOut p (execStop x0 s) := by
  intros x0 s h
  unfold execStop
  repeat' first
    | (with_reducible assumption)
    | (with_reducible exact True.intro)
    | intro _
    | (with_reducible apply releaseTone_kept)
    | (with_reducible apply endPlay_kept)

theorem setTone_kept : ∀ x0 x1 s, Kept p s → Kept p (setTone x0 x1 s) := by
  intros x0 x1 s h
  unfold setTone
  repeat' first
    | (with_reducible assumption)
    | intro _
    | (with_reducible apply countClamp_kept)
    | (with_reducible apply keepTone_kept)
    | (with_reducible apply setTrack_kept)
    | (with_reducible apply State.modTone_kept)
    | (dsimp only)
    | split

theorem execToneSet_kept : ∀ x0 s, Kept p s → keptOut p (execToneSet x0 s) := by
  intros x0 s h
  unfold execToneSet
  repeat' first
    | (with_reducible assumption)
    | (with_reducible exact True.intro)
    | intro _
    | (with_reducible apply releaseTone_kept)
    | (with_reducible apply setTone_kept)

theorem alignAll_kept : ∀ x0 s, Kept p s → Kept p (alignAll x0 s) := by
  intros x0 s h
  unfold alignAll
  repeat' first
    | (with_reducible assumption)
    | intro _
    | (with_reducible apply each_kept)
    | (with_reducible apply closeBlock_kept)
    | (with_reducible apply eachChain_kept)
    | (with_reducible apply State.modAcqPort_kept)

theorem alignReply_kept : ∀ x0 x1 x2 s, Kept p s → Kept p (alignReply x0 x1 x2 s).s := by
  intros x0 x1 x2 s h
  unfold alignReply
  repeat' first
    | (with_reducible assumption)
    | intro _
    | (with_reducible apply Reply.bad_kept)
    | (with_reducible apply Reply.busy_kept)
    | (with_reducible apply Reply.no_kept)
    | (dsimp only)
    | split

theorem execAlign_kept : ∀ x0 x1 x2 x3 s, Kept p s → keptOut p (execAlign x0 x1 x2 x3 s) := by
  intros x0 x1 x2 x3 s h
  unfold execAlign
  repeat' first
    | (with_reducible assumption)
    | (with_reducible exact True.intro)
    | intro _
    | (with_reducible apply command_kept)
    | (with_reducible apply alignReply_kept)

theorem execAlignCancel_kept : ∀ x0 s, Kept p s → keptOut p (execAlignCancel x0 s) := by
  intros x0 s h
  unfold execAlignCancel
  repeat' first
    | (with_reducible assumption)
    | (with_reducible exact True.intro)
    | intro _
    | (with_reducible apply command_kept)

theorem execAlignmentEvent_kept : ∀ s, Kept p s → keptOut p (execAlignmentEvent s) := by
  intros s h
  unfold execAlignmentEvent
  repeat' first
    | (with_reducible assumption)
    | (with_reducible exact True.intro)
    | intro _
    | (with_reducible apply alignAll_kept)
    | (dsimp only)
    | split

theorem filterLoadReply_kept : ∀ x0 x1 x2 x3 x4 s, Kept p s → Kept p (filterLoadReply x0 x1 x2 x3 x4 s).s := by
  intros x0 x1 x2 x3 x4 s h
  unfold filterLoadReply
  repeat' first
    | (with_reducible assumption)
    | intro _
    | (with_reducible apply ite_reply)
    | (with_reducible apply ite_kept)
    | (with_reducible apply Reply.bad_kept)
    | (with_reducible apply Reply.no_kept)
    | (with_reducible apply Reply.busy_kept)
    | (with_reducible apply noteUe_kept)
    | (with_reducible apply State.setRot_kept)
    | (with_reducible apply State.modRot_kept)
    | (with_reducible apply swapFir_kept)
    | (with_reducible apply swapKernel_kept)
    | (dsimp only)
    | split

theorem execFilterLoad_kept : ∀ x0 x1 x2 x3 x4 x5 s, Kept p s → keptOut p (execFilterLoad x0 x1 x2 x3 x4 x5 s) := by
  intros x0 x1 x2 x3 x4 x5 s h
  unfold execFilterLoad
  repeat' first
    | (with_reducible assumption)
    | (with_reducible exact True.intro)
    | intro _
    | (with_reducible apply command_kept)
    | (with_reducible apply filterLoadReply_kept)

theorem setBanks_kept : ∀ x0 x1 s, Kept p s → Kept p (setBanks x0 x1 s) := by
  intros x0 x1 s h
  unfold setBanks
  repeat' first
    | (with_reducible assumption)
    | intro _
    | (with_reducible apply State.setZbank_kept)
    | (with_reducible apply State.modPort_kept)
    | (dsimp only)
    | split

theorem segmentLoadReply_kept : ∀ x0 s, Kept p s → Kept p (segmentLoadReply x0 s).s := by
  intros x0 s h
  unfold segmentLoadReply
  repeat' first
    | (with_reducible assumption)
    | intro _
    | (with_reducible apply ite_reply)
    | (with_reducible apply ite_kept)
    | (with_reducible apply Reply.bad_kept)
    | (with_reducible apply Reply.no_kept)
    | (with_reducible apply Reply.busy_kept)
    | (with_reducible apply noteUe_kept)
    | (with_reducible apply setBanks_kept)
    | (with_reducible apply swapZ_kept)
    | (with_reducible apply swapPort_kept)
    | (dsimp only)
    | split

theorem execSegmentLoad_kept : ∀ x0 x1 s, Kept p s → keptOut p (execSegmentLoad x0 x1 s) := by
  intros x0 x1 s h
  unfold execSegmentLoad
  repeat' first
    | (with_reducible assumption)
    | (with_reducible exact True.intro)
    | intro _
    | (with_reducible apply command_kept)
    | (with_reducible apply segmentLoadReply_kept)

theorem streamCloseReply_kept : ∀ x0 s, Kept p s → Kept p (streamCloseReply x0 s).s := by
  intros x0 s h
  unfold streamCloseReply
  repeat' first
    | (with_reducible assumption)
    | intro _
    | (with_reducible apply Reply.bad_kept)
    | (with_reducible apply closeStream_kept)
    | (dsimp only)
    | split

theorem execStreamClose_kept : ∀ x0 x1 s, Kept p s → keptOut p (execStreamClose x0 x1 s) := by
  intros x0 x1 s h
  unfold execStreamClose
  repeat' first
    | (with_reducible assumption)
    | (with_reducible exact True.intro)
    | intro _
    | (with_reducible apply command_kept)
    | (with_reducible apply streamCloseReply_kept)

theorem streamOpenReply_kept : ∀ x0 x1 s, Kept p s → Kept p (streamOpenReply x0 x1 s).s := by
  intros x0 x1 s h
  unfold streamOpenReply
  repeat' first
    | (with_reducible assumption)
    | intro _
    | (with_reducible apply Reply.bad_kept)
    | (with_reducible apply Reply.busy_kept)
    | (with_reducible apply State.setStream_kept)
    | (dsimp only)
    | split

theorem execStreamOpen_kept : ∀ x0 x1 x2 s, Kept p s → keptOut p (execStreamOpen x0 x1 x2 s) := by
  intros x0 x1 x2 s h
  unfold execStreamOpen
  repeat' first
    | (with_reducible assumption)
    | (with_reducible exact True.intro)
    | intro _
    | (with_reducible apply command_kept)
    | (with_reducible apply streamOpenReply_kept)

theorem foldl_fst_kept {α β : Type} : ∀ (f : State × β → α → State × β) (l : List α) (a : State × β),
    (∀ a t, Kept p a.1 → Kept p (f a t).1) → Kept p a.1 → Kept p (l.foldl f a).1 := by
  intro f l
  induction l with
  | nil => intro a _ h; exact h
  | cons t l ih => intro a hf h; exact ih _ hf (hf a t h)

theorem toneInputs_kept : ∀ (nn k : Nat) (x : Int × Int × Bool) (s : State), Kept p s → Kept p (toneInputs nn k x s).1 := by
  intro nn k x s h
  unfold toneInputs
  refine foldl_fst_kept _ _ _ ?_ h
  intro a t h
  split
  · split
    · next heq => exact toneInput_pair heq h
    · next heq => exact toneInput_pair heq h
  · exact h

theorem toneInputs_pair {nn k x s a b} (heq : toneInputs nn k x s = (a, b)) : Kept p s → Kept p a := by
  intro h
  have := toneInputs_kept nn k x s h
  rw [heq] at this
  exact this

theorem magSample_kept : ∀ x0 x1 x2 s, Kept p s → Kept p (magSample x0 x1 x2 s) := by
  intros x0 x1 x2 s h
  unfold magSample
  repeat' first
    | (with_reducible assumption)
    | intro _
    | (with_reducible apply engineSample_kept)
    | (dsimp only)
    | split

theorem a2Sample_kept : ∀ x0 x1 x2 x3 s, Kept p s → Kept p (a2Sample x0 x1 x2 x3 s) := by
  intros x0 x1 x2 x3 s h
  unfold a2Sample
  repeat' first
    | (with_reducible assumption)
    | intro _
    | (with_reducible apply engineSample_kept)
    | (with_reducible apply toneInputs_kept)
    | (with_reducible refine toneInputs_pair (by assumption) ?_)
    | (with_reducible apply magSample_kept)
    | (with_reducible apply State.modAcqPort_kept)
    | (with_reducible apply each_kept)
    | (with_reducible apply stipInput_kept)
    | (dsimp only)
    | split

theorem convert_kept : ∀ x0 x1 s, Kept p s → Kept p (convert x0 x1 s) := by
  intros x0 x1 s h
  unfold convert
  repeat' first
    | (with_reducible assumption)
    | intro _
    | (with_reducible apply State.setAcqPort_kept)
    | (with_reducible apply engineSample_kept)
    | (with_reducible apply a2Sample_kept)
    | (with_reducible apply State.modAcqPort_kept)
    | (dsimp only)
    | split

theorem engineSettle_kept : ∀ x0 s, Kept p s → Kept p (engineSettle x0 s) := by
  intros x0 s h
  unfold engineSettle
  repeat' first
    | (with_reducible assumption)
    | intro _
    | (with_reducible apply raiseCapture_kept)
    | (with_reducible apply takeEdges_kept)
    | (dsimp only)
    | split

theorem feed_kept : ∀ x0 x1 s, Kept p s → Kept p (feed x0 x1 s) := by
  intros x0 x1 s h
  unfold feed
  repeat' first
    | (with_reducible assumption)
    | intro _
    | (with_reducible apply each_kept)
    | (with_reducible apply convert_kept)
    | (dsimp only)
    | split

theorem execCaptureComplete_kept : ∀ x0 x1 s, Kept p s → keptOut p (execCaptureComplete x0 x1 s) := by
  intros x0 x1 s h
  unfold execCaptureComplete
  repeat' first
    | (with_reducible assumption)
    | (with_reducible exact True.intro)
    | intro _
    | (with_reducible apply feed_kept)
    | (with_reducible apply engineDue_kept)
    | (dsimp only)
    | split

theorem execChainOverrun_kept : ∀ x0 x1 s, Kept p s → keptOut p (execChainOverrun x0 x1 s) := by
  intros x0 x1 s h
  unfold execChainOverrun
  repeat' first
    | (with_reducible assumption)
    | (with_reducible exact True.intro)
    | intro _
    | (with_reducible apply State.modAcqPort_kept)
    | (with_reducible apply windowsLose_kept)
    | (with_reducible apply State.modRot_kept)
    | (with_reducible apply State.modStipChain_kept)
    | (dsimp only)
    | split

theorem execForceTrigger_kept : ∀ x0 x1 s, Kept p s → keptOut p (execForceTrigger x0 x1 s) := by
  intros x0 x1 s h
  unfold execForceTrigger
  repeat' first
    | (with_reducible assumption)
    | (with_reducible exact True.intro)
    | intro _
    | (with_reducible apply State.modEngine_kept)
    | (with_reducible apply consume_kept)
    | (with_reducible apply engineSettle_kept)
    | (with_reducible apply feed_kept)
    | (dsimp only)
    | split

theorem execPointFormed_kept : ∀ x0 x1 s, Kept p s → keptOut p (execPointFormed x0 x1 s) := by
  intros x0 x1 s h
  unfold execPointFormed
  repeat' first
    | (with_reducible assumption)
    | (with_reducible exact True.intro)
    | intro _
    | (with_reducible apply feed_kept)

theorem execStreamBlock_kept : ∀ x0 x1 s, Kept p s → keptOut p (execStreamBlock x0 x1 s) := by
  intros x0 x1 s h
  unfold execStreamBlock
  repeat' first
    | (with_reducible assumption)
    | (with_reducible exact True.intro)
    | intro _
    | (with_reducible apply feed_kept)
    | (dsimp only)
    | split

theorem execTriggerAccept_kept : ∀ x0 x1 s, Kept p s → keptOut p (execTriggerAccept x0 x1 s) := by
  intros x0 x1 s h
  unfold execTriggerAccept
  repeat' first
    | (with_reducible assumption)
    | (with_reducible exact True.intro)
    | intro _
    | (with_reducible apply engineSettle_kept)
    | (with_reducible apply feed_kept)

theorem zstatCount_kept : ∀ x0 x1 s, Kept p s → Kept p (zstatCount x0 x1 s) := by
  intros x0 x1 s h
  unfold zstatCount
  repeat' first
    | (with_reducible assumption)
    | intro _
    | (with_reducible apply foldl_kept)
    | (dsimp only)
    | split

theorem biasEntry_kept : ∀ x0 x1 s, Kept p s → Kept p (biasEntry x0 x1 s) := by
  intros x0 x1 s h
  unfold biasEntry
  repeat' first
    | (with_reducible assumption)
    | intro _
    | (with_reducible apply State.modZ_kept)
    | (with_reducible apply zLoadAt_kept)
    | (with_reducible apply zstatCount_kept)
    | (dsimp only)
    | split

theorem releaseZ_kept : ∀ x0 x1 f s, (∀ e s, Kept p s → Kept p (f e s)) → Kept p s → Kept p (releaseZ x0 x1 f s) := by
  intros x0 x1 f s hf h
  unfold releaseZ
  repeat' first
    | (with_reducible assumption)
    | intro _
    | (with_reducible apply hf)
    | (with_reducible refine releaseHead_kept _ _ (by assumption) ?_)
    | (with_reducible apply State.modZc_kept)
    | (with_reducible apply dropHead_kept)
    | (dsimp only)
    | split

theorem execBias_kept : ∀ x0 s, Kept p s → keptOut p (execBias x0 s) := by
  intros x0 s h
  unfold execBias
  repeat' first
    | (with_reducible assumption)
    | (with_reducible exact True.intro)
    | intro _
    | (with_reducible apply releaseZ_kept)
    | (with_reducible apply biasEntry_kept)

theorem execBiasSettled_kept : ∀ x0 s, Kept p s → keptOut p (execBiasSettled x0 s) := by
  intros x0 s h
  unfold execBiasSettled
  repeat' first
    | (with_reducible assumption)
    | (with_reducible exact True.intro)
    | intro _
    | (with_reducible apply State.modZ_kept)
    | (dsimp only)
    | split

theorem execFastPlayEnd_kept : ∀ x0 s, Kept p s → keptOut p (execFastPlayEnd x0 s) := by
  intros x0 s h
  unfold execFastPlayEnd
  repeat' first
    | (with_reducible assumption)
    | (with_reducible exact True.intro)
    | intro _
    | (with_reducible apply drainZ_kept)
    | (with_reducible apply State.modZ_kept)
    | (with_reducible apply endFast_kept)
    | (dsimp only)
    | split

theorem unownedFault_kept : ∀ x0 s, Kept p s → Kept p (unownedFault x0 s) := by
  intros x0 s h
  unfold unownedFault
  repeat' first
    | (with_reducible assumption)
    | intro _
    | (with_reducible apply setSum_kept)
    | (with_reducible apply State.modZ_kept)
    | (with_reducible apply zPark_kept)

theorem execOverCurrent_kept : ∀ x0 s, Kept p s → keptOut p (execOverCurrent x0 s) := by
  intros x0 s h
  unfold execOverCurrent
  repeat' first
    | (with_reducible assumption)
    | (with_reducible exact True.intro)
    | intro _
    | (with_reducible apply State.modZc_kept)
    | (with_reducible apply State.modZ_kept)
    | (with_reducible apply unownedFault_kept)
    | (dsimp only)
    | split

theorem execParkSwitchOpen_kept : ∀ x0 s, Kept p s → keptOut p (execParkSwitchOpen x0 s) := by
  intros x0 s h
  unfold execParkSwitchOpen
  repeat' first
    | (with_reducible assumption)
    | (with_reducible exact True.intro)
    | intro _
    | (with_reducible apply State.modZ_kept)
    | (dsimp only)
    | split

theorem fastEntry_kept : ∀ x0 x1 s, Kept p s → Kept p (fastEntry x0 x1 s) := by
  intros x0 x1 s h
  unfold fastEntry
  repeat' first
    | (with_reducible assumption)
    | intro _
    | (with_reducible apply endFastAt_kept)
    | (with_reducible apply State.modZc_kept)
    | (with_reducible apply State.modZ_kept)
    | (with_reducible apply raiseEp_kept)
    | (with_reducible apply followRequest_kept)
    | (dsimp only)
    | split

theorem execZplay_kept : ∀ x0 s, Kept p s → keptOut p (execZplay x0 s) := by
  intros x0 s h
  unfold execZplay
  repeat' first
    | (with_reducible assumption)
    | (with_reducible exact True.intro)
    | intro _
    | (with_reducible apply releaseZ_kept)
    | (with_reducible apply fastEntry_kept)

theorem execZstop_kept : ∀ x0 s, Kept p s → keptOut p (execZstop x0 s) := by
  intros x0 s h
  unfold execZstop
  repeat' first
    | (with_reducible assumption)
    | (with_reducible exact True.intro)
    | intro _
    | (with_reducible apply releaseZ_kept)
    | (with_reducible apply endFastAt_kept)

end Sys2Proof.Machine
end

