-- ==== Sys2Proof/Laws/KeptStep.lean ====
section
/-! SUPPORT. Memory keeps its canonical form and the queue is left alone
(housekeeping, memory commands, queries, rings, the sideband; exec and the tick). -/

namespace Sys2Proof.Machine
variable {p : List Instr}

theorem autoCal_kept : ∀ s, Kept p s → Kept p (autoCal s) := by
  intros s h
  unfold autoCal
  repeat' first
    | (with_reducible assumption)
    | intro _
    | (with_reducible apply each_kept)
    | (with_reducible apply beginMeasure_kept)
    | (with_reducible apply State.modCal_kept)
    | (dsimp only)
    | split

theorem capRound_kept : ∀ x0 s, Kept p s → Kept p (capRound x0 s) := by
  intros x0 s h
  unfold capRound
  repeat' first
    | (with_reducible assumption)
    | intro _
    | (with_reducible apply setSum_kept)
    | (dsimp only)
    | split

theorem hkSetReply_kept : ∀ x0 x1 s, Kept p s → Kept p (hkSetReply x0 x1 s).s := by
  intros x0 x1 s h
  unfold hkSetReply
  repeat' first
    | (with_reducible assumption)
    | intro _
    | (with_reducible apply Reply.bad_kept)
    | (dsimp only)
    | split

theorem execHkSet_kept : ∀ x0 x1 x2 s, Kept p s → keptOut p (execHkSet x0 x1 x2 s) := by
  intros x0 x1 x2 s h
  unfold execHkSet
  repeat' first
    | (with_reducible assumption)
    | (with_reducible exact True.intro)
    | intro _
    | (with_reducible apply command_kept)
    | (with_reducible apply hkSetReply_kept)

theorem zMismatch_kept : ∀ x0 s, Kept p s → Kept p (zMismatch x0 s) := by
  intros x0 s h
  unfold zMismatch
  repeat' first
    | (with_reducible assumption)
    | intro _
    | (with_reducible apply State.modZ_kept)
    | (with_reducible apply zPark_kept)
    | (with_reducible apply unownedFault_kept)
    | (with_reducible apply doubtBurin_kept)
    | (dsimp only)
    | split

theorem zCompare_kept : ∀ x0 x1 x2 x3 s, Kept p s → Kept p (zCompare x0 x1 x2 x3 s) := by
  intros x0 x1 x2 x3 s h
  unfold zCompare
  repeat' first
    | (with_reducible assumption)
    | intro _
    | (with_reducible apply State.modZ_kept)
    | (with_reducible apply State.modZc_kept)
    | (with_reducible apply zMismatch_kept)
    | (dsimp only)
    | split

theorem execInjectedSequence_kept : ∀ x0 s, Kept p s → keptOut p (execInjectedSequence x0 s) := by
  intros x0 s h
  unfold execInjectedSequence
  repeat' first
    | (with_reducible assumption)
    | (with_reducible exact True.intro)
    | intro _
    | (with_reducible apply each_kept)
    | (with_reducible apply State.modZ_kept)
    | (with_reducible apply zCompare_kept)
    | (with_reducible apply zMismatch_kept)
    | (dsimp only)
    | split

theorem zSkipped_kept : ∀ x0 x1 s, Kept p s → Kept p (zSkipped x0 x1 s) := by
  intros x0 x1 s h
  unfold zSkipped
  repeat' first
    | (with_reducible assumption)
    | intro _
    | (with_reducible apply State.modZc_kept)
    | (with_reducible apply State.modZ_kept)

theorem judgeSamples_kept : ∀ x0 x1 s, Kept p s → Kept p (judgeSamples x0 x1 s) := by
  intros x0 x1 s h
  unfold judgeSamples
  repeat' first
    | (with_reducible assumption)
    | intro _
    | (with_reducible apply each_kept)
    | (with_reducible apply zSkipped_kept)
    | (with_reducible apply zCompare_kept)
    | (dsimp only)
    | split

theorem noteRound_kept : ∀ x0 x1 x2 s, Kept p s → Kept p (noteRound x0 x1 x2 s) := by
  intros x0 x1 x2 s h
  unfold noteRound
  repeat' first
    | (with_reducible assumption)

theorem nodeFails_kept : ∀ x0 s, Kept p s → Kept p (nodeFails x0 s) := by
  intros x0 s h
  unfold nodeFails
  repeat' first
    | (with_reducible assumption)
    | intro _
    | (with_reducible apply doubtDevice_kept)
    | (with_reducible apply each_kept)
    | (with_reducible apply doubtPlate_kept)
    | (with_reducible apply safeRes_kept)
    | (dsimp only)
    | split

theorem nodeShuts_kept : ∀ x0 s, Kept p s → Kept p (nodeShuts x0 s) := by
  intros x0 s h
  unfold nodeShuts
  repeat' first
    | (with_reducible assumption)
    | intro _
    | (with_reducible apply doubtDevice_kept)

theorem execRoundEnd_kept : ∀ x0 s, Kept p s → keptOut p (execRoundEnd x0 s) := by
  intros x0 s h
  unfold execRoundEnd
  repeat' first
    | (with_reducible assumption)
    | (with_reducible exact True.intro)
    | intro _
    | (with_reducible apply judgeSamples_kept)
    | (with_reducible apply noteRound_kept)
    | (with_reducible apply each_kept)
    | (with_reducible apply nodeFails_kept)
    | (with_reducible apply setSum_kept)
    | (with_reducible apply nodeShuts_kept)
    | (with_reducible apply foldl_kept)
    | (with_reducible apply burnishAll_kept)
    | (with_reducible apply autoCal_kept)
    | (with_reducible apply capRound_kept)
    | (dsimp only)
    | split

theorem shutDomain_kept : ∀ x0 s, Kept p s → Kept p (shutDomain x0 s) := by
  intros x0 s h
  unfold shutDomain
  repeat' first
    | (with_reducible assumption)
    | intro _
    | (with_reducible apply beginEntry_kept)
    | (with_reducible apply settleDom_kept)
    | (with_reducible apply enter_kept)
    | (dsimp only)
    | split

theorem execShutdownAction_kept : ∀ s, Kept p s → keptOut p (execShutdownAction s) := by
  intros s h
  unfold execShutdownAction
  repeat' first
    | (with_reducible assumption)
    | (with_reducible exact True.intro)
    | intro _
    | (with_reducible apply each_kept)
    | (with_reducible apply shutDomain_kept)
    | (dsimp only)
    | split

theorem execSlowRound_kept : ∀ x0 s, Kept p s → keptOut p (execSlowRound x0 s) := by
  intros x0 s h
  unfold execSlowRound
  repeat' first
    | (with_reducible assumption)
    | (with_reducible exact True.intro)
    | intro _
    | (dsimp only)
    | split

theorem argSel_kept : ∀ x0 x1 x2 x3 x4 x5 s, Kept p s → keptOut p (argSel x0 x1 x2 x3 x4 x5 s) := by
  intros x0 x1 x2 x3 x4 x5 s h
  unfold argSel
  repeat' first
    | (with_reducible assumption)
    | (with_reducible exact True.intro)
    | intro _
    | (with_reducible apply plain_kept)

theorem execArgmax_kept : ∀ x0 x1 x2 x3 s, Kept p s → keptOut p (execArgmax x0 x1 x2 x3 s) := by
  intros x0 x1 x2 x3 s h
  unfold execArgmax
  repeat' first
    | (with_reducible assumption)
    | (with_reducible exact True.intro)
    | intro _
    | (with_reducible apply argSel_kept)

theorem execArgmaxs_kept : ∀ x0 x1 x2 x3 s, Kept p s → keptOut p (execArgmaxs x0 x1 x2 x3 s) := by
  intros x0 x1 x2 x3 s h
  unfold execArgmaxs
  repeat' first
    | (with_reducible assumption)
    | (with_reducible exact True.intro)
    | intro _
    | (with_reducible apply argSel_kept)

theorem execArgmin_kept : ∀ x0 x1 x2 x3 s, Kept p s → keptOut p (execArgmin x0 x1 x2 x3 s) := by
  intros x0 x1 x2 x3 s h
  unfold execArgmin
  repeat' first
    | (with_reducible assumption)
    | (with_reducible exact True.intro)
    | intro _
    | (with_reducible apply argSel_kept)

theorem execArgmins_kept : ∀ x0 x1 x2 x3 s, Kept p s → keptOut p (execArgmins x0 x1 x2 x3 s) := by
  intros x0 x1 x2 x3 s h
  unfold execArgmins
  repeat' first
    | (with_reducible assumption)
    | (with_reducible exact True.intro)
    | intro _
    | (with_reducible apply argSel_kept)

theorem execLd_kept : ∀ x0 x1 x2 s, Kept p s → keptOut p (execLd x0 x1 x2 s) := by
  intros x0 x1 x2 s h
  unfold execLd
  repeat' first
    | (with_reducible assumption)
    | (with_reducible exact True.intro)
    | intro _
    | (with_reducible apply plain_kept)

theorem execLdd_kept : ∀ x0 x1 x2 s, Kept p s → keptOut p (execLdd x0 x1 x2 s) := by
  intros x0 x1 x2 s h
  unfold execLdd
  repeat' first
    | (with_reducible assumption)
    | (with_reducible exact True.intro)
    | intro _
    | (with_reducible apply plain_kept)

theorem execLdx_kept : ∀ x0 x1 x2 x3 s, Kept p s → keptOut p (execLdx x0 x1 x2 x3 s) := by
  intros x0 x1 x2 x3 s h
  unfold execLdx
  repeat' first
    | (with_reducible assumption)
    | (with_reducible exact True.intro)
    | intro _
    | (with_reducible apply plain_kept)

theorem execSt_kept : ∀ x0 x1 x2 s, Kept p s → keptOut p (execSt x0 x1 x2 s) := by
  intros x0 x1 x2 s h
  unfold execSt
  repeat' first
    | (with_reducible assumption)
    | (with_reducible exact True.intro)
    | intro _
    | (with_reducible apply plain_kept)

theorem execStd_kept : ∀ x0 x1 x2 s, Kept p s → keptOut p (execStd x0 x1 x2 s) := by
  intros x0 x1 x2 s h
  unfold execStd
  repeat' first
    | (with_reducible assumption)
    | (with_reducible exact True.intro)
    | intro _
    | (with_reducible apply plain_kept)

theorem execStx_kept : ∀ x0 x1 x2 x3 s, Kept p s → keptOut p (execStx x0 x1 x2 x3 s) := by
  intros x0 x1 x2 x3 s h
  unfold execStx
  repeat' first
    | (with_reducible assumption)
    | (with_reducible exact True.intro)
    | intro _
    | (with_reducible apply plain_kept)

theorem reads_kept : ∀ x0 x1 x2 x3 s, Kept p s → keptOut p (reads x0 x1 x2 x3 s) := by
  intros x0 x1 x2 x3 s h
  unfold reads
  repeat' first
    | (with_reducible assumption)
    | (with_reducible exact True.intro)
    | intro _
    | (with_reducible apply issue_kept)
    | (with_reducible apply finish_kept)
    | (with_reducible apply modRegs_kept)

theorem execDpoll_kept : ∀ x0 x1 x2 s, Kept p s → keptOut p (execDpoll x0 x1 x2 s) := by
  intros x0 x1 x2 s h
  unfold execDpoll
  repeat' first
    | (with_reducible assumption)
    | (with_reducible exact True.intro)
    | intro _
    | (with_reducible apply reads_kept)

theorem execDrecv_kept : ∀ x0 x1 x2 s, Kept p s → keptOut p (execDrecv x0 x1 x2 s) := by
  intros x0 x1 x2 s h
  unfold execDrecv
  repeat' first
    | (with_reducible assumption)
    | (with_reducible exact True.intro)
    | intro _
    | (with_reducible apply issue_kept)
    | (with_reducible apply await_kept)

theorem execDsend_kept : ∀ x0 x1 x2 s, Kept p s → keptOut p (execDsend x0 x1 x2 s) := by
  intros x0 x1 x2 s h
  unfold execDsend
  repeat' first
    | (with_reducible assumption)
    | (with_reducible exact True.intro)
    | intro _
    | (with_reducible apply issue_kept)
    | (with_reducible apply await_kept)

theorem execEvs_kept : ∀ x0 x1 s, Kept p s → keptOut p (execEvs x0 x1 s) := by
  intros x0 x1 s h
  unfold execEvs
  repeat' first
    | (with_reducible assumption)
    | (with_reducible exact True.intro)
    | intro _
    | (with_reducible apply issue_kept)
    | (with_reducible apply finish_kept)
    | (with_reducible apply raiseEp_kept)

theorem execEvt_kept : ∀ x0 x1 x2 s, Kept p s → keptOut p (execEvt x0 x1 x2 s) := by
  intros x0 x1 x2 s h
  unfold execEvt
  repeat' first
    | (with_reducible assumption)
    | (with_reducible exact True.intro)
    | intro _
    | (with_reducible apply issue_kept)
    | (with_reducible apply finish_kept)
    | (with_reducible apply modRegs_kept)
    | (with_reducible apply consume_kept)

theorem execEvw_kept : ∀ x0 x1 s, Kept p s → keptOut p (execEvw x0 x1 s) := by
  intros x0 x1 s h
  unfold execEvw
  repeat' first
    | (with_reducible assumption)
    | (with_reducible exact True.intro)
    | intro _
    | (with_reducible apply issue_kept)
    | (with_reducible apply await_kept)

theorem execIqpoll_kept : ∀ x0 x1 s, Kept p s → keptOut p (execIqpoll x0 x1 s) := by
  intros x0 x1 s h
  unfold execIqpoll
  repeat' first
    | (with_reducible assumption)
    | (with_reducible exact True.intro)
    | intro _
    | (with_reducible apply reads_kept)

theorem execIqrd_kept : ∀ x0 x1 s, Kept p s → keptOut p (execIqrd x0 x1 s) := by
  intros x0 x1 s h
  unfold execIqrd
  repeat' first
    | (with_reducible assumption)
    | (with_reducible exact True.intro)
    | intro _
    | (with_reducible apply issue_kept)
    | (with_reducible apply await_kept)

theorem execLineFetchComplete_kept : ∀ x0 x1 s, Kept p s → keptOut p (execLineFetchComplete x0 x1 s) := by
  intros x0 x1 s h
  unfold execLineFetchComplete
  repeat' first
    | (with_reducible assumption)
    | (with_reducible exact True.intro)
    | intro _
    | (with_reducible apply noteUe_kept)
    | (with_reducible apply fetchOn_kept)
    | (with_reducible apply State.modBurin_kept)
    | (dsimp only)
    | split

theorem execMfs_kept : ∀ x0 x1 x2 s, Kept p s → keptOut p (execMfs x0 x1 x2 s) := by
  intros x0 x1 x2 s h
  unfold execMfs
  repeat' first
    | (with_reducible assumption)
    | (with_reducible exact True.intro)
    | intro _
    | (with_reducible apply issue_kept)
    | (with_reducible apply finish_kept)
    | (with_reducible apply modRegs_kept)

theorem execMts_kept : ∀ x0 x1 x2 s, Kept p s → keptOut p (execMts x0 x1 x2 s) := by
  intros x0 x1 x2 s h
  unfold execMts
  repeat' first
    | (with_reducible assumption)
    | (with_reducible exact True.intro)
    | intro _
    | (with_reducible apply plain_kept)

theorem execNow_kept : ∀ x0 x1 s, Kept p s → keptOut p (execNow x0 x1 s) := by
  intros x0 x1 s h
  unfold execNow
  repeat' first
    | (with_reducible assumption)
    | (with_reducible exact True.intro)
    | intro _
    | (with_reducible apply issue_kept)
    | (with_reducible apply finish_kept)
    | (with_reducible apply modRegs_kept)

theorem execNullPutDiscard_kept : ∀ x0 s, Kept p s → keptOut p (execNullPutDiscard x0 s) := by
  intros x0 s h
  unfold execNullPutDiscard
  repeat' first
    | (with_reducible assumption)
    | (with_reducible exact True.intro)
    | intro _
    | (with_reducible apply State.modBurin_kept)
    | (dsimp only)
    | split

theorem putEntry_kept : ∀ x0 x1 x2 x3 x4 s, Kept p s → Kept p (putEntry x0 x1 x2 x3 x4 s) := by
  intros x0 x1 x2 x3 x4 s h
  unfold putEntry
  repeat' first
    | (with_reducible assumption)
    | intro _
    | (with_reducible apply State.modBurin_kept)
    | (with_reducible apply launch_kept)
    | (with_reducible apply finish_kept)
    | (with_reducible apply modRegs_kept)
    | (dsimp only)
    | split

theorem execPut_kept : ∀ x0 x1 x2 x3 x4 s, Kept p s → keptOut p (execPut x0 x1 x2 x3 x4 s) := by
  intros x0 x1 x2 x3 x4 s h
  unfold execPut
  repeat' first
    | (with_reducible assumption)
    | (with_reducible exact True.intro)
    | intro _
    | (with_reducible apply issue_kept)
    | (with_reducible apply putEntry_kept)

theorem releaseHold_kept : ∀ x0 s, Kept p s → keptOut p (releaseHold x0 s) := by
  intros x0 s h
  unfold releaseHold
  repeat' first
    | (with_reducible assumption)
    | (with_reducible exact True.intro)
    | intro _
    | (with_reducible apply launch_kept)
    | (with_reducible apply State.modBurin_kept)
    | (with_reducible apply modRegs_kept)
    | (with_reducible apply endRun_kept)
    | (with_reducible apply runFrom_kept)
    | (with_reducible apply finish_kept)
    | (dsimp only)
    | split

theorem execPutHoldRelease_kept : ∀ x0 s, Kept p s → keptOut p (execPutHoldRelease x0 s) := by
  intros x0 s h
  unfold execPutHoldRelease
  repeat' first
    | (with_reducible assumption)
    | (with_reducible exact True.intro)
    | intro _
    | (with_reducible apply releaseHold_kept)

theorem execQfree_kept : ∀ x0 x1 x2 s, Kept p s → keptOut p (execQfree x0 x1 x2 s) := by
  intros x0 x1 x2 s h
  unfold execQfree
  repeat' first
    | (with_reducible assumption)
    | (with_reducible exact True.intro)
    | intro _
    | (with_reducible apply reads_kept)

theorem execRec_kept : ∀ x0 x1 s, Kept p s → keptOut p (execRec x0 x1 s) := by
  intros x0 x1 s h
  unfold execRec
  repeat' first
    | (with_reducible assumption)
    | (with_reducible exact True.intro)
    | intro _
    | (with_reducible apply issue_kept)
    | (with_reducible apply finish_kept)
    | (with_reducible apply modRegs_kept)
    | (with_reducible apply postResult_kept)

theorem execWaitWake_kept : ∀ x0 s, Kept p s → keptOut p (execWaitWake x0 s) := by
  intros x0 s h
  unfold execWaitWake
  repeat' first
    | (with_reducible assumption)
    | (with_reducible exact True.intro)
    | intro _
    | (with_reducible apply State.modBurin_kept)
    | (with_reducible apply runFrom_kept)
    | (with_reducible apply finish_kept)
    | (with_reducible apply waitEffect_kept)
    | (dsimp only)
    | split

theorem execWaitc_kept : ∀ x0 x1 s, Kept p s → keptOut p (execWaitc x0 x1 s) := by
  intros x0 x1 s h
  unfold execWaitc
  repeat' first
    | (with_reducible assumption)
    | (with_reducible exact True.intro)
    | intro _
    | (with_reducible apply issue_kept)
    | (with_reducible apply await_kept)

theorem execWaitq_kept : ∀ x0 x1 x2 s, Kept p s → keptOut p (execWaitq x0 x1 x2 s) := by
  intros x0 x1 x2 s h
  unfold execWaitq
  repeat' first
    | (with_reducible assumption)
    | (with_reducible exact True.intro)
    | intro _
    | (with_reducible apply issue_kept)
    | (with_reducible apply await_kept)

theorem execWaitt_kept : ∀ x0 x1 s, Kept p s → keptOut p (execWaitt x0 x1 s) := by
  intros x0 x1 s h
  unfold execWaitt
  repeat' first
    | (with_reducible assumption)
    | (with_reducible exact True.intro)
    | intro _
    | (with_reducible apply issue_kept)
    | (with_reducible apply await_kept)

theorem State.burinRec_kept : ∀ s x0, ∀ t, Kept p t → Kept p ((State.burinRec s x0).reset t) :=
  fun _ _ _ h => h

theorem State.meterRec_kept : ∀ s x0, ∀ t, Kept p t → Kept p ((State.meterRec s x0).reset t) :=
  fun _ _ _ h => h

theorem State.rfRec_kept : ∀ s x0, ∀ t, Kept p t → Kept p ((State.rfRec s x0).reset t) :=
  fun _ _ _ h => h

theorem State.zRec_kept : ∀ s x0, ∀ t, Kept p t → Kept p ((State.zRec s x0).reset t) :=
  fun _ _ _ h => h

theorem State.acqRec_kept : ∀ s x0, ∀ t, Kept p t → Kept p ((State.acqRec s x0).reset t) :=
  fun _ _ _ h => h

theorem State.engineRec_kept : ∀ s x0, ∀ t, Kept p t → Kept p ((State.engineRec s x0).reset t) :=
  fun _ _ _ h => h

theorem State.watchRec_kept : ∀ s, ∀ t, Kept p t → Kept p ((State.watchRec s).reset t) :=
  fun _ _ h => h

theorem State.chanRec_kept : ∀ s x0, ∀ t, Kept p t → Kept p ((State.chanRec s x0).reset t) :=
  fun _ _ _ h => h

theorem State.markRec_kept : ∀ s, ∀ t, Kept p t → Kept p ((State.markRec s).reset t) :=
  fun _ _ h => h

theorem State.memRec_kept : ∀ s, ∀ t, Kept p t → Kept p ((State.memRec s).reset t) :=
  fun _ _ h => h

theorem State.domRec_kept : ∀ s x0, ∀ t, Kept p t → Kept p ((State.domRec s x0).reset t) :=
  fun _ _ _ h => h

theorem State.logRec_kept : ∀ s, ∀ t, Kept p t → Kept p ((State.logRec s).reset t) :=
  fun _ _ h => h

theorem State.houseRec_kept : ∀ s, ∀ t, Kept p t → Kept p ((State.houseRec s).reset t) :=
  fun _ _ h => h

theorem State.calRec_kept : ∀ s x0 x1, ∀ t, Kept p t → Kept p ((State.calRec s x0 x1).reset t) :=
  fun _ _ _ _ h => h

theorem State.centRec_kept : ∀ s x0 x1, ∀ t, Kept p t → Kept p ((State.centRec s x0 x1).reset t) :=
  fun _ _ _ _ h => h

theorem State.statusRec_kept : ∀ (s : State) (kind target : Nat) (q : Query), s.statusRec kind target = some q →
    ∀ t, Kept p t → Kept p (q.reset t) := by
  intro s kind target q e t h
  unfold State.statusRec at e
  dsimp only at e
  repeat' split at e
  all_goals first
    | contradiction
    | skip
  all_goals first
    | (injection e with e; subst e)
    | (rw [Option.map_eq_some_iff] at e; obtain ⟨_, _, e⟩ := e; subst e)
  all_goals first
    | (with_reducible exact State.burinRec_kept _ _ _ h)
    | (with_reducible exact State.meterRec_kept _ _ _ h)
    | (with_reducible exact State.rfRec_kept _ _ _ h)
    | (with_reducible exact State.zRec_kept _ _ _ h)
    | (with_reducible exact State.acqRec_kept _ _ _ h)
    | (with_reducible exact State.engineRec_kept _ _ _ h)
    | (with_reducible exact State.watchRec_kept _ _ h)
    | (with_reducible exact State.chanRec_kept _ _ _ h)
    | (with_reducible exact State.markRec_kept _ _ h)
    | (with_reducible exact State.memRec_kept _ _ h)
    | (with_reducible exact State.domRec_kept _ _ _ h)
    | (with_reducible exact State.logRec_kept _ _ h)
    | (with_reducible exact State.houseRec_kept _ _ h)
    | (with_reducible exact State.calRec_kept _ _ _ _ h)
    | (with_reducible exact State.centRec_kept _ _ _ _ h)
    | exact h

theorem Query.reply_kept : ∀ q len s, (∀ t, Kept p t → Kept p (q.reset t)) → Kept p s → Kept p (Query.reply q len s).s := by
  intro q len s hq h
  unfold Query.reply queryReply
  exact ite_reply h (hq _ h)

theorem ledgerReply_kept : ∀ x0 x1 x2 s, Kept p s → Kept p (ledgerReply x0 x1 x2 s).s := by
  intros x0 x1 x2 s h
  unfold ledgerReply
  repeat' first
    | (with_reducible assumption)
    | intro _
    | (with_reducible apply Reply.bad_kept)
    | (with_reducible apply queryReply_kept)
    | (with_reducible apply State.modRing_kept)
    | (dsimp only)
    | split

theorem execLedgerQuery_kept : ∀ x0 x1 x2 x3 s, Kept p s → keptOut p (execLedgerQuery x0 x1 x2 x3 s) := by
  intros x0 x1 x2 x3 s h
  unfold execLedgerQuery
  repeat' first
    | (with_reducible assumption)
    | (with_reducible exact True.intro)
    | intro _
    | (with_reducible apply command_kept)
    | (with_reducible apply ledgerReply_kept)

theorem patchReply_kept : ∀ (len : Nat) (s : State), Kept p s → Kept p (patchReply len s).s := by
  intro len s h
  have hq := queryReply_kept len s.patchRec id s (fun _ h => h) h
  unfold patchReply
  extract_lets r
  have hr : Kept p r.s := hq
  clear_value r
  exact ite_reply hr hr

theorem execPatchStatus_kept : ∀ x0 x1 s, Kept p s → keptOut p (execPatchStatus x0 x1 s) := by
  intros x0 x1 s h
  unfold execPatchStatus
  repeat' first
    | (with_reducible assumption)
    | (with_reducible exact True.intro)
    | intro _
    | (with_reducible apply command_kept)
    | (with_reducible apply patchReply_kept)

theorem statusReply_kept : ∀ (kind target len : Nat) (s : State), Kept p s →
    Kept p (statusReply kind target len s).s := by
  intro kind target len s h
  unfold statusReply
  refine ite_reply h ?_
  split
  · next heq => exact Query.reply_kept _ _ _ (State.statusRec_kept _ _ _ _ heq) h
  · exact h

theorem execStatusQuery_kept : ∀ x0 x1 x2 x3 s, Kept p s → keptOut p (execStatusQuery x0 x1 x2 x3 s) := by
  intros x0 x1 x2 x3 s h
  unfold execStatusQuery
  repeat' first
    | (with_reducible assumption)
    | (with_reducible exact True.intro)
    | intro _
    | (with_reducible apply command_kept)
    | (with_reducible apply statusReply_kept)

theorem noteCorrected_kept : ∀ x0 s, Kept p s → Kept p (noteCorrected x0 s) :=
  fun _ _ h => h

theorem execPatrolScrub_kept : ∀ x0 x1 s, Kept p s → keptOut p (execPatrolScrub x0 x1 s) := by
  intros x0 x1 s h
  unfold execPatrolScrub
  repeat' first
    | (with_reducible assumption)
    | (with_reducible exact True.intro)
    | intro _
    | (with_reducible apply each_kept)
    | (with_reducible apply noteCorrected_kept)
    | (with_reducible apply noteUe_kept)
    | (dsimp only)
    | split

theorem execRingInterruptTimer_kept : ∀ x0 s, Kept p s → keptOut p (execRingInterruptTimer x0 s) := by
  intros x0 s h
  unfold execRingInterruptTimer
  repeat' first
    | (with_reducible assumption)
    | (with_reducible exact True.intro)
    | intro _
    | (with_reducible apply raiseVec_kept)
    | (with_reducible apply State.setRing_kept)
    | (dsimp only)
    | split

theorem ringSetReply_kept : ∀ x0 s, Kept p s → Kept p (ringSetReply x0 s).s := by
  intros x0 s h
  unfold ringSetReply
  repeat' first
    | (with_reducible assumption)
    | intro _
    | (with_reducible apply Reply.bad_kept)
    | (with_reducible apply Reply.busy_kept)
    | (with_reducible apply State.setRing_kept)
    | (dsimp only)
    | split

theorem execRingSet_kept : ∀ x0 x1 s, Kept p s → keptOut p (execRingSet x0 x1 s) := by
  intros x0 x1 s h
  unfold execRingSet
  repeat' first
    | (with_reducible assumption)
    | (with_reducible exact True.intro)
    | intro _
    | (with_reducible apply command_kept)
    | (with_reducible apply ringSetReply_kept)

theorem moveRecord_kept : ∀ x0 x1 x2 x3 s, Kept p s → Kept p (moveRecord x0 x1 x2 x3 s) := by
  intros x0 x1 x2 x3 s h
  unfold moveRecord
  repeat' first
    | (with_reducible assumption)
    | intro _
    | (with_reducible apply noteUe_kept)
    | (with_reducible apply State.setRing_kept)
    | (with_reducible apply State.modRoot_kept)
    | (with_reducible apply raiseVec_kept)
    | (with_reducible apply each_kept)
    | (with_reducible apply flushEngine_kept)
    | (dsimp only)
    | split

theorem execRingTransfer_kept : ∀ x0 x1 x2 s, Kept p s → keptOut p (execRingTransfer x0 x1 x2 s) := by
  intros x0 x1 x2 s h
  unfold execRingTransfer
  repeat' first
    | (with_reducible assumption)
    | (with_reducible exact True.intro)
    | intro _
    | (with_reducible apply State.setRing_kept)
    | (with_reducible apply moveRecord_kept)
    | (dsimp only)
    | split

theorem assign_kept : ∀ x0 s, Kept p s → Kept p (assign x0 s) := by
  intros x0 s h
  unfold assign
  repeat' first
    | (with_reducible assumption)
    | intro _
    | (dsimp only)
    | split

theorem execEntdaa_kept : ∀ x0 s, Kept p s → keptOut p (execEntdaa x0 s) := by
  intros x0 s h
  unfold execEntdaa
  repeat' first
    | (with_reducible assumption)
    | (with_reducible exact True.intro)
    | intro _
    | (with_reducible apply assign_kept)

theorem sbOut_kept : ∀ x0 s, Kept p s → Kept p (sbOut x0 s) :=
  fun _ _ h => h

theorem execGetbcr_kept : ∀ s, Kept p s → keptOut p (execGetbcr s) := by
  intros s h
  unfold execGetbcr
  repeat' first
    | (with_reducible assumption)
    | (with_reducible exact True.intro)
    | intro _
    | (with_reducible apply sbOut_kept)

theorem execGetdcr_kept : ∀ s, Kept p s → keptOut p (execGetdcr s) := by
  intros s h
  unfold execGetdcr
  repeat' first
    | (with_reducible assumption)
    | (with_reducible exact True.intro)
    | intro _
    | (with_reducible apply sbOut_kept)

theorem execGetpid_kept : ∀ s, Kept p s → keptOut p (execGetpid s) := by
  intros s h
  unfold execGetpid
  repeat' first
    | (with_reducible assumption)
    | (with_reducible exact True.intro)
    | intro _
    | (with_reducible apply sbOut_kept)

theorem execGetstatus_kept : ∀ s, Kept p s → keptOut p (execGetstatus s) := by
  intros s h
  unfold execGetstatus
  repeat' first
    | (with_reducible assumption)
    | (with_reducible exact True.intro)
    | intro _
    | (with_reducible apply sbOut_kept)

theorem execProofReq_kept : ∀ x0 x1 s, Kept p s → keptOut p (execProofReq x0 x1 s) := by
  intros x0 x1 s h
  unfold execProofReq
  repeat' first
    | (with_reducible assumption)
    | (with_reducible exact True.intro)
    | intro _
    | (with_reducible apply logRefusal_kept)
    | (with_reducible apply proofRequest_kept)
    | (with_reducible apply State.modSq_kept)
    | (with_reducible apply Reply.s_kept)
    | (dsimp only)
    | split

theorem execProofStat_kept : ∀ s, Kept p s → keptOut p (execProofStat s) := by
  intros s h
  unfold execProofStat
  repeat' first
    | (with_reducible assumption)
    | (with_reducible exact True.intro)
    | intro _
    | (with_reducible apply sbOut_kept)

theorem execPwrReq_kept : ∀ x0 s, Kept p s → keptOut p (execPwrReq x0 s) := by
  intros x0 s h
  unfold execPwrReq
  repeat' first
    | (with_reducible assumption)
    | (with_reducible exact True.intro)
    | intro _
    | (with_reducible apply logRefusal_kept)
    | (with_reducible apply powerReply_kept)
    | (with_reducible apply Reply.s_kept)
    | (dsimp only)
    | split

theorem execPwrStat_kept : ∀ s, Kept p s → keptOut p (execPwrStat s) := by
  intros s h
  unfold execPwrStat
  repeat' first
    | (with_reducible assumption)
    | (with_reducible exact True.intro)
    | intro _
    | (with_reducible apply sbOut_kept)

theorem execReset_kept : ∀ x0 s, Kept p s → keptOut p (execReset x0 s) := by
  intros x0 s h
  unfold execReset
  repeat' first
    | (with_reducible assumption)
    | (with_reducible exact True.intro)
    | intro _
    | (with_reducible apply beginReset_kept)
    | (dsimp only)
    | split

theorem execRstdaa_kept : ∀ s, Kept p s → keptOut p (execRstdaa s) :=
  fun _ h => h

theorem execSetdasa_kept : ∀ x0 s, Kept p s → keptOut p (execSetdasa x0 s) := by
  intros x0 s h
  unfold execSetdasa
  repeat' first
    | (with_reducible assumption)
    | (with_reducible exact True.intro)
    | intro _
    | (with_reducible apply assign_kept)

/-- A command keeps memory's canonical form, and the queue as it was. -/
theorem exec_kept : ∀ (i : Instr) (s : State), Kept p s → keptOut p (exec i s) := by
  intro i s h
  cases i with
  | powerUp => exact execPowerUp_kept _ h
  | resetN => exact execResetN_kept _ h
  | supplyLoss => exact execSupplyLoss_kept _ h
  | refclkValid => exact execRefclkValid_kept _ h
  | refclkLoss => exact execRefclkLoss_kept _ h
  | bootHost => exact execBootHost_kept _ _ _ h
  | bootFlash => exact execBootFlash_kept _ _ _ _ _ _ h
  | bootFirmware => exact execBootFirmware_kept _ _ _ h
  | bootDomains => exact execBootDomains_kept _ _ _ _ h
  | bootPatch => exact execBootPatch_kept _ _ _ h
  | bootFinal => exact execBootFinal_kept _ h
  | pcieLinkDown => exact execPcieLinkDown_kept _ h
  | sqdb => exact execSqdb_kept _ _ _ _ h
  | cqdb => exact execCqdb_kept _ _ _ h
  | sqctl => exact execSqctl_kept _ _ _ h
  | faultsum => exact execFaultsum_kept _ _ h
  | hbHost => exact execHbHost_kept _ _ h
  | hbCtl => exact execHbCtl_kept _ _ h
  | registerWrite => exact execRegisterWrite_kept _ _ _ _ h
  | hbDevAdvance => exact execHbDevAdvance_kept _ h
  | heartbeatTimeout => exact execHeartbeatTimeout_kept _ h
  | completionRelease => exact execCompletionRelease_kept _ _ h
  | cqInterruptTimer => exact execCqInterruptTimer_kept _ _ h
  | bar2Read => exact execBar2Read_kept _ _ _ h
  | bar2Write => exact execBar2Write_kept _ _ _ h
  | unknownCommand => exact execUnknownCommand_kept _ _ _ h
  | open_ => exact execOpen_kept _ _ _ _ h
  | close => exact execClose_kept _ _ h
  | queueResume => exact execQueueResume_kept _ _ h
  | fence => exact execFence_kept _ _ _ h
  | cellConfigure => exact execCellConfigure_kept _ _ _ _ h
  | cellLoad => exact execCellLoad_kept _ _ _ _ _ _ _ _ _ _ h
  | cellStart => exact execCellStart_kept _ _ _ _ h
  | cellStop => exact execCellStop_kept _ _ _ h
  | cellAbort => exact execCellAbort_kept _ _ _ h
  | cellAbortCommandForm => exact execCellAbortCommandForm_kept _ _ _ _ _ h
  | plateComposeCreate => exact execPlateComposeCreate_kept _ _ _ h
  | plateComposeAdd => exact execPlateComposeAdd_kept _ _ _ _ h
  | plateComposeRemove => exact execPlateComposeRemove_kept _ _ _ _ h
  | plateComposeSeal => exact execPlateComposeSeal_kept _ _ _ h
  | plateComposeDissolve => exact execPlateComposeDissolve_kept _ _ _ h
  | shotSchedule => exact execShotSchedule_kept _ _ _ _ _ _ h
  | segmentLoad => exact execSegmentLoad_kept _ _ _ h
  | filterLoad => exact execFilterLoad_kept _ _ _ _ _ _ _ h
  | markLoadLoad => exact execMarkLoadLoad_kept _ _ _ _ _ _ _ _ h
  | markLoadConfig => exact execMarkLoadConfig_kept _ _ _ _ _ _ _ _ _ h
  | markLoadStart => exact execMarkLoadStart_kept _ _ _ _ _ _ _ h
  | markLoadStop => exact execMarkLoadStop_kept _ _ h
  | streamOpen => exact execStreamOpen_kept _ _ _ _ h
  | streamClose => exact execStreamClose_kept _ _ _ h
  | align => exact execAlign_kept _ _ _ _ _ h
  | alignCancel => exact execAlignCancel_kept _ _ h
  | eventRouteBind => exact execEventRouteBind_kept _ _ _ h
  | eventRouteUnbind => exact execEventRouteUnbind_kept _ _ _ h
  | eventGate => exact execEventGate_kept _ _ _ _ _ h
  | gateChange => exact execGateChange_kept _ h
  | acqSet => exact execAcqSet_kept _ _ _ _ h
  | acqArm => exact execAcqArm_kept _ _ _ h
  | acqDisarm => exact execAcqDisarm_kept _ _ _ h
  | timeSetStepAbs => exact execTimeSetStepAbs_kept _ _ _ h
  | timeSetStepRel => exact execTimeSetStepRel_kept _ _ _ h
  | timeSetDomain => exact execTimeSetDomain_kept _ _ _ _ h
  | timeSetServo => exact execTimeSetServo_kept _ _ _ h
  | timeSetUtc => exact execTimeSetUtc_kept _ _ _ h
  | timeSelect => exact execTimeSelect_kept _ _ _ h
  | timeTimerArm => exact execTimeTimerArm_kept _ _ _ h
  | timeTimerStop => exact execTimeTimerStop_kept _ _ _ _ h
  | timeQuery => exact execTimeQuery_kept _ _ _ h
  | tiuMeasureStart => exact execTiuMeasureStart_kept _ _ _ _ h
  | tiuMeasureStop => exact execTiuMeasureStop_kept _ _ _ h
  | tiuMeasureQuery => exact execTiuMeasureQuery_kept _ _ _ _ h
  | calRun => exact execCalRun_kept _ _ _ _ _ h
  | calCommit => exact execCalCommit_kept _ _ _ _ _ h
  | calSet => exact execCalSet_kept _ _ _ _ _ _ _ _ h
  | powerSetDomain => exact execPowerSetDomain_kept _ _ _ _ _ h
  | powerSetGovernor => exact execPowerSetGovernor_kept _ _ _ h
  | proofRun => exact execProofRun_kept _ _ _ _ _ _ h
  | modeSet => exact execModeSet_kept _ _ _ h
  | statusQuery => exact execStatusQuery_kept _ _ _ _ _ h
  | ledgerQuery => exact execLedgerQuery_kept _ _ _ _ _ h
  | faultClear => exact execFaultClear_kept _ _ _ _ h
  | patchStatus => exact execPatchStatus_kept _ _ _ h
  | linkStatus => exact execLinkStatus_kept _ _ _ _ h
  | linkSet => exact execLinkSet_kept _ _ _ _ _ _ _ _ h
  | ringSet => exact execRingSet_kept _ _ _ h
  | hkSet => exact execHkSet_kept _ _ _ _ h
  | netSetDevnum => exact execNetSetDevnum_kept _ _ _ h
  | netSetRoutes => exact execNetSetRoutes_kept _ _ _ _ _ h
  | pwrReq => exact execPwrReq_kept _ _ h
  | proofReq => exact execProofReq_kept _ _ _ h
  | reset => exact execReset_kept _ _ h
  | pwrStat => exact execPwrStat_kept _ h
  | proofStat => exact execProofStat_kept _ h
  | entdaa => exact execEntdaa_kept _ _ h
  | setdasa => exact execSetdasa_kept _ _ h
  | rstdaa => exact execRstdaa_kept _ h
  | getpid => exact execGetpid_kept _ h
  | getbcr => exact execGetbcr_kept _ h
  | getdcr => exact execGetdcr_kept _ h
  | getstatus => exact execGetstatus_kept _ h
  | startEvent => exact execStartEvent_kept _ _ h
  | heldStart => exact execHeldStart_kept _ _ h
  | shotBoundary => exact execShotBoundary_kept _ _ h
  | entryArrival => exact execEntryArrival_kept _ _ h
  | creditReturn => exact execCreditReturn_kept _ _ h
  | putHoldRelease => exact execPutHoldRelease_kept _ _ h
  | governorInterval => exact execGovernorInterval_kept _ h
  | lineFetchComplete => exact execLineFetchComplete_kept _ _ _ h
  | waitWake => exact execWaitWake_kept _ _ h
  | nop => exact execNop_kept _ _ h
  | end_ => exact execEnd_kept _ _ h
  | jmp => exact execJmp_kept _ _ _ h
  | jt => exact execJt_kept _ _ _ _ h
  | rep => exact execRep_kept _ _ _ _ h
  | repi => exact execRepi_kept _ _ _ _ h
  | beq => exact execBeq_kept _ _ _ _ _ h
  | bne => exact execBne_kept _ _ _ _ _ h
  | blt => exact execBlt_kept _ _ _ _ _ h
  | bge => exact execBge_kept _ _ _ _ _ h
  | bltu => exact execBltu_kept _ _ _ _ _ h
  | bgeu => exact execBgeu_kept _ _ _ _ _ h
  | beqz => exact execBeqz_kept _ _ _ _ h
  | bnez => exact execBnez_kept _ _ _ _ h
  | add => exact execAdd_kept _ _ _ _ _ h
  | sub => exact execSub_kept _ _ _ _ _ h
  | and_ => exact execAnd_kept _ _ _ _ _ h
  | or_ => exact execOr_kept _ _ _ _ _ h
  | xor_ => exact execXor_kept _ _ _ _ _ h
  | shl => exact execShl_kept _ _ _ _ _ h
  | shr => exact execShr_kept _ _ _ _ _ h
  | sar => exact execSar_kept _ _ _ _ _ h
  | mul => exact execMul_kept _ _ _ _ _ h
  | mulh => exact execMulh_kept _ _ _ _ _ h
  | min => exact execMin_kept _ _ _ _ _ h
  | max => exact execMax_kept _ _ _ _ _ h
  | minu => exact execMinu_kept _ _ _ _ _ h
  | maxu => exact execMaxu_kept _ _ _ _ _ h
  | adds => exact execAdds_kept _ _ _ _ _ h
  | subs => exact execSubs_kept _ _ _ _ _ h
  | addi => exact execAddi_kept _ _ _ _ _ h
  | andi => exact execAndi_kept _ _ _ _ _ h
  | ori => exact execOri_kept _ _ _ _ _ h
  | xori => exact execXori_kept _ _ _ _ _ h
  | shli => exact execShli_kept _ _ _ _ _ h
  | shri => exact execShri_kept _ _ _ _ _ h
  | sari => exact execSari_kept _ _ _ _ _ h
  | movi => exact execMovi_kept _ _ _ _ h
  | movhi => exact execMovhi_kept _ _ _ _ h
  | addpi => exact execAddpi_kept _ _ _ _ h
  | addp => exact execAddp_kept _ _ _ _ h
  | mov => exact execMov_kept _ _ _ _ h
  | extu => exact execExtu_kept _ _ _ _ _ _ h
  | exts => exact execExts_kept _ _ _ _ _ _ h
  | shin => exact execShin_kept _ _ _ _ _ h
  | dep => exact execDep_kept _ _ _ _ _ _ h
  | movpi => exact execMovpi_kept _ _ _ _ h
  | movmi => exact execMovmi_kept _ _ _ _ h
  | movpg => exact execMovpg_kept _ _ _ _ h
  | movgp => exact execMovgp_kept _ _ _ _ h
  | movmg => exact execMovmg_kept _ _ _ _ h
  | modp => exact execModp_kept _ _ _ _ h
  | leap => exact execLeap_kept _ _ _ _ _ _ h
  | ld => exact execLd_kept _ _ _ _ h
  | st => exact execSt_kept _ _ _ _ h
  | ldd => exact execLdd_kept _ _ _ _ h
  | std => exact execStd_kept _ _ _ _ h
  | ldx => exact execLdx_kept _ _ _ _ _ h
  | stx => exact execStx_kept _ _ _ _ _ h
  | cadd => exact execCadd_kept _ _ _ _ _ h
  | csub => exact execCsub_kept _ _ _ _ _ h
  | csubm => exact execCsubm_kept _ _ _ _ _ _ h
  | cmulr => exact execCmulr_kept _ _ _ _ _ h
  | cconj => exact execCconj_kept _ _ _ _ h
  | cscl => exact execCscl_kept _ _ _ _ _ h
  | cmag2 => exact execCmag2_kept _ _ _ _ h
  | wsq => exact execWsq_kept _ _ _ _ _ _ h
  | dsq => exact execDsq_kept _ _ _ _ _ _ _ h
  | cpk => exact execCpk_kept _ _ _ _ _ h
  | clra => exact execClra_kept _ _ _ h
  | mova => exact execMova_kept _ _ _ _ h
  | mac => exact execMac_kept _ _ _ _ _ h
  | msu => exact execMsu_kept _ _ _ _ _ h
  | cmul => exact execCmul_kept _ _ _ _ _ h
  | cmac => exact execCmac_kept _ _ _ _ _ h
  | cmacj => exact execCmacj_kept _ _ _ _ _ h
  | cmacm => exact execCmacm_kept _ _ _ _ _ h
  | rnd => exact execRnd_kept _ _ _ _ _ h
  | rndc => exact execRndc_kept _ _ _ _ _ h
  | sha => exact execSha_kept _ _ _ _ h
  | argmin => exact execArgmin_kept _ _ _ _ _ h
  | argmax => exact execArgmax_kept _ _ _ _ _ h
  | argmins => exact execArgmins_kept _ _ _ _ _ h
  | argmaxs => exact execArgmaxs_kept _ _ _ _ _ h
  | put => exact execPut_kept _ _ _ _ _ _ h
  | qfree => exact execQfree_kept _ _ _ _ h
  | evs => exact execEvs_kept _ _ _ h
  | evw => exact execEvw_kept _ _ _ h
  | evt => exact execEvt_kept _ _ _ _ h
  | dsend => exact execDsend_kept _ _ _ _ h
  | drecv => exact execDrecv_kept _ _ _ _ h
  | dpoll => exact execDpoll_kept _ _ _ _ h
  | waitt => exact execWaitt_kept _ _ _ h
  | waitq => exact execWaitq_kept _ _ _ _ h
  | waitc => exact execWaitc_kept _ _ _ h
  | now => exact execNow_kept _ _ _ h
  | iqrd => exact execIqrd_kept _ _ _ h
  | iqpoll => exact execIqpoll_kept _ _ _ h
  | rec_ => exact execRec_kept _ _ _ h
  | mfs => exact execMfs_kept _ _ _ _ h
  | mts => exact execMts_kept _ _ _ _ h
  | patchOpcode => exact execPatchOpcode_kept _ _ _ _ h
  | segPlay => exact execSegPlay_kept _ _ h
  | toneSet => exact execToneSet_kept _ _ h
  | stop => exact execStop_kept _ _ h
  | jump => exact execJump_kept _ _ h
  | nullPutDiscard => exact execNullPutDiscard_kept _ _ h
  | segmentStart => exact execSegmentStart_kept _ _ h
  | decisionPoint => exact execDecisionPoint_kept _ _ h
  | playEnd => exact execPlayEnd_kept _ _ h
  | bias => exact execBias_kept _ _ h
  | zplay => exact execZplay_kept _ _ h
  | zstop => exact execZstop_kept _ _ h
  | fastPlayEnd => exact execFastPlayEnd_kept _ _ h
  | parkSwitchOpen => exact execParkSwitchOpen_kept _ _ h
  | biasSettled => exact execBiasSettled_kept _ _ h
  | overCurrent => exact execOverCurrent_kept _ _ h
  | alignmentEvent => exact execAlignmentEvent_kept _ h
  | pointFormed => exact execPointFormed_kept _ _ _ h
  | streamBlock => exact execStreamBlock_kept _ _ _ h
  | chainOverrun => exact execChainOverrun_kept _ _ _ h
  | centroidUpdate => exact execCentroidUpdate_kept _ _ h
  | dropStateExit => exact execDropStateExit_kept _ _ h
  | spacingEnd => exact execSpacingEnd_kept _ _ _ h
  | gatePointArrival => exact execGatePointArrival_kept _ _ h
  | gateOpenRelease => exact execGateOpenRelease_kept _ _ h
  | triggerLatch => exact execTriggerLatch_kept _ _ _ _ h
  | payloadArrival => exact execPayloadArrival_kept _ _ h
  | hatchCreditArrival => exact execHatchCreditArrival_kept _ _ h
  | softConsumerTake => exact execSoftConsumerTake_kept _ _ h
  | armEvent => exact execArmEvent_kept _ _ h
  | writingBegins => exact execWritingBegins_kept _ _ h
  | preTriggerFull => exact execPreTriggerFull_kept _ _ h
  | triggerAccept => exact execTriggerAccept_kept _ _ _ h
  | forceTrigger => exact execForceTrigger_kept _ _ _ h
  | captureComplete => exact execCaptureComplete_kept _ _ _ h
  | rearmEnd => exact execRearmEnd_kept _ _ h
  | playbackStart => exact execPlaybackStart_kept _ h
  | markerSegmentStart => exact execMarkerSegmentStart_kept _ h
  | playbackEnd => exact execPlaybackEnd_kept _ h
  | followPulseEnd => exact execFollowPulseEnd_kept _ _ h
  | trigInEdge => exact execTrigInEdge_kept _ _ _ h
  | syncInEdge => exact execSyncInEdge_kept _ h
  | ppsEdge => exact execPpsEdge_kept _ _ _ h
  | stamp => exact execStamp_kept _ _ _ _ _ h
  | coreCalibration => exact execCoreCalibration_kept _ _ _ _ h
  | loopLock => exact execLoopLock_kept _ _ h
  | gateEnd => exact execGateEnd_kept _ _ h
  | sync => exact execSync_kept _ _ h
  | followUp => exact execFollowUp_kept _ _ _ _ h
  | delayResp => exact execDelayResp_kept _ _ _ _ h
  | announce => exact execAnnounce_kept _ _ _ _ _ _ _ _ h
  | delayReq => exact execDelayReq_kept _ _ h
  | domainLoss => exact execDomainLoss_kept _ _ h
  | revert => exact execRevert_kept _ h
  | holdoverEvaluation => exact execHoldoverEvaluation_kept _ h
  | timerEvent => exact execTimerEvent_kept _ _ h
  | windowEdge => exact execWindowEdge_kept _ _ h
  | timeOutPulse => exact execTimeOutPulse_kept _ _ h
  | signalDetect => exact execSignalDetect_kept _ _ _ h
  | blockLock => exact execBlockLock_kept _ _ _ h
  | train => exact execTrain_kept _ _ _ _ _ h
  | trainingTimeout => exact execTrainingTimeout_kept _ _ h
  | linkLoss => exact execLinkLoss_kept _ _ _ h
  | hatchData => exact execHatchData_kept _ _ _ _ h
  | hatchCredit => exact execHatchCredit_kept _ _ _ _ h
  | doubt => exact execDoubt_kept _ _ _ _ _ h
  | tReqSend => exact execTReqSend_kept _ _ h
  | tReq => exact execTReq_kept _ _ _ _ h
  | tResp => exact execTResp_kept _ _ _ _ _ h
  | tFollow => exact execTFollow_kept _ _ _ _ _ _ _ _ _ _ h
  | controlFrame => exact execControlFrame_kept _ _ _ _ _ _ h
  | bulkFrame => exact execBulkFrame_kept _ _ _ _ _ h
  | linkBlock => exact execLinkBlock_kept _ _ _ h
  | linkBlockSend => exact execLinkBlockSend_kept _ _ h
  | alignRowSend => exact execAlignRowSend_kept _ _ h
  | timePortBringup => exact execTimePortBringup_kept _ _ _ h
  | arpRequest => exact execArpRequest_kept _ _ h
  | ringTransfer => exact execRingTransfer_kept _ _ _ _ h
  | ringInterruptTimer => exact execRingInterruptTimer_kept _ _ h
  | patrolScrub => exact execPatrolScrub_kept _ _ _ h
  | regulatorReady => exact execRegulatorReady_kept _ _ h
  | oscillatorReady => exact execOscillatorReady_kept _ _ h
  | isolationRelease => exact execIsolationRelease_kept _ _ h
  | restore => exact execRestore_kept _ _ _ h
  | wakeTimeout => exact execWakeTimeout_kept _ _ h
  | entryComplete => exact execEntryComplete_kept _ _ h
  | slowRound => exact execSlowRound_kept _ _ h
  | roundEnd => exact execRoundEnd_kept _ _ h
  | injectedSequence => exact execInjectedSequence_kept _ _ h
  | shutdownAction => exact execShutdownAction_kept _ h
  | adcBlindRunEnd => exact execAdcBlindRunEnd_kept _ _ _ _ _ h
  | zstatRunEnd => exact execZstatRunEnd_kept _ _ _ h
  | trimEnd => exact execTrimEnd_kept _ _ _ _ _ h
  | storeWrite => exact execStoreWrite_kept _ _ _ _ h
  | proofRunEnd => exact execProofRunEnd_kept _ _ _ _ _ h
  | resetNRelease => exact execResetNRelease_kept _ h
  | idleRowSend => exact execIdleRowSend_kept _ _ h
  | timePortDown => exact execTimePortDown_kept _ h
  | pcieLinkUp => exact execPcieLinkUp_kept _ _ _ h
  | otherFrame => exact execOtherFrame_kept _ h

/-- A command leaves the queue alone. -/
theorem exec_pending {c : Instr} {s t : State} (h : Memory.wf s.mem.bytes = true) (e : exec c s = .next t) :
    t.pending = s.pending := by
  have hk := exec_kept (p := s.pending) c s ⟨h, rfl⟩
  rw [e] at hk
  exact hk.2

theorem portTick_kept : ∀ x0 x1 s, Kept p s → Kept p (portTick x0 x1 s) := by
  intros x0 x1 s h
  unfold portTick
  repeat' first
    | (with_reducible assumption)
    | intro _
    | (with_reducible apply State.setPort_kept)

theorem sumTones_kept : ∀ x0 x1 s, Kept p s → Kept p (sumTones x0 x1 s) := by
  intros x0 x1 s h
  unfold sumTones
  repeat' first
    | (with_reducible assumption)
    | intro _
    | (with_reducible apply each_kept)
    | (with_reducible apply State.setTone_kept)
    | (with_reducible apply State.modPort_kept)
    | (dsimp only)
    | split

theorem synthTick_kept : ∀ s, Kept p s → Kept p (synthTick s) := by
  intros s h
  unfold synthTick
  repeat' first
    | (with_reducible assumption)
    | intro _
    | (with_reducible apply each_kept)
    | (with_reducible apply portTick_kept)
    | (with_reducible apply sumTones_kept)
    | (dsimp only)
    | split

theorem zTick_kept : ∀ x0 x1 s, Kept p s → Kept p (zTick x0 x1 s) := by
  intros x0 x1 s h
  unfold zTick
  repeat' first
    | (with_reducible assumption)
    | intro _
    | (with_reducible apply State.modZc_kept)
    | (with_reducible apply State.setZ_kept)
    | (dsimp only)
    | split

theorem zTicks_kept : ∀ s, Kept p s → Kept p (zTicks s) := by
  intros s h
  unfold zTicks
  repeat' first
    | (with_reducible assumption)
    | intro _
    | (with_reducible apply each_kept)
    | (with_reducible apply zTick_kept)

theorem stepDue_kept : ∀ s, Kept p s → Kept p (stepDue s) := by
  intros s h
  unfold stepDue
  repeat' first
    | (with_reducible assumption)
    | intro _
    | (with_reducible apply setLabel_kept)
    | (dsimp only)
    | split

theorem idleTick_kept : ∀ s, Kept p s → Kept p (idleTick s) := by
  intros s h
  unfold idleTick
  repeat' first
    | (with_reducible assumption)
    | intro _
    | (with_reducible apply lineTicks_kept)
    | (with_reducible apply zTicks_kept)
    | (with_reducible apply synthTick_kept)
    | (with_reducible apply raiseTrigs_kept)
    | (with_reducible apply resetDue_kept)
    | (with_reducible apply swapsDue_kept)
    | (with_reducible apply stepDue_kept)
    | (with_reducible apply trigEvents_kept)
    | (with_reducible apply each_kept)
    | (with_reducible apply raiseCapture_kept)

end Sys2Proof.Machine
end

