-- ==== Sys2Proof/Laws/Spec.lean ====
section
/-! SUPPORT. One lemma for each shared path: a served mailbox command, the issue of an instruction of a burin and its
completion. -/

namespace Sys2Proof.Machine

/-! ### Tables -/

theorem tdel_of_lt {α : Type} (k : Nat) : ∀ (m : Tab α) (lo : Nat), k < lo → tsorted lo m = true → tdel k m = m
  | [], _, _, _ => rfl
  | (j, w) :: m, lo, h, hs => by
    simp only [tsorted, Bool.and_eq_true, decide_eq_true_eq] at hs
    have hj : ¬ j = k := by omega
    simp only [tdel, hj, if_false]
    rw [tdel_of_lt k m (j + 1) (by omega) hs.2]

theorem tins_tins {α : Type} (k : Nat) (v w : α) : ∀ m : Tab α, tins k w (tins k v m) = tins k w m
  | [] => by simp [tins]
  | (j, x) :: m => by
    by_cases h1 : k < j
    · simp [tins, h1]
    · by_cases h2 : j = k
      · subst h2; simp [tins]
      · simp [tins, h1, h2, tins_tins k v w m]

theorem tdel_tdel {α : Type} (k : Nat) : ∀ m : Tab α, tdel k (tdel k m) = tdel k m
  | [] => rfl
  | (j, x) :: m => by
    by_cases h : j = k
    · simp [tdel, h, tdel_tdel k m]
    · simp [tdel, h, tdel_tdel k m]

/-! ### What reading an entry leaves alone -/

theorem treeInfo_host (s : State) (x : HostIf) (n a : Nat) : ({ s with host := x } : State).treeInfo n a = s.treeInfo n a := by
  induction n generalizing a with
  | zero => rfl
  | succ n ih =>
    have e : ({ s with host := x } : State).treeInfo n = s.treeInfo n := funext ih
    unfold State.treeInfo
    rw [e]; rfl

theorem treeBurins_host (s : State) (x : HostIf) (n a : Nat) :
    ({ s with host := x } : State).treeBurins n a = s.treeBurins n a := by
  induction n generalizing a with
  | zero => rfl
  | succ n ih =>
    have e : ({ s with host := x } : State).treeBurins n = s.treeBurins n := funext ih
    unfold State.treeBurins
    rw [e]; rfl

theorem upFrom_host (s : State) (x : HostIf) (n a : Nat) : ({ s with host := x } : State).upFrom n a = s.upFrom n a := by
  induction n generalizing a with
  | zero => rfl
  | succ n ih =>
    have e : ({ s with host := x } : State).upFrom n = s.upFrom n := funext ih
    unfold State.upFrom
    rw [e]; rfl

theorem tree_host (s : State) (x : HostIf) (a : Nat) : ({ s with host := x } : State).tree a = s.tree a :=
  treeInfo_host s x 4098 a

theorem cellDevs_host (s : State) (x : HostIf) (a : Nat) : ({ s with host := x } : State).cellDevs a = s.cellDevs a := by
  unfold State.cellDevs; rw [tree_host]

theorem burinsOf_host (s : State) (x : HostIf) (a : Nat) : ({ s with host := x } : State).burinsOf a = s.burinsOf a := by
  have e : ({ s with host := x } : State).treeBurins 4098 = s.treeBurins 4098 := funext (treeBurins_host s x 4098)
  unfold State.burinsOf
  rw [e]

theorem rootOf_host (s : State) (x : HostIf) (a : Nat) : ({ s with host := x } : State).rootOf a = s.rootOf a := by
  unfold State.rootOf State.upChain
  rw [upFrom_host]; rfl

theorem takeEntry_host (q : Nat) (s : State) : ∃ x : HostIf, takeEntry q s = { s with host := x }
    ∧ x.version = s.host.version ∧ x.protoValid = s.host.protoValid ∧ x.openPending = s.host.openPending :=
  ⟨_, rfl, rfl, rfl, rfl⟩

/-! ### Mailbox commands -/

/-- A served command does what its own meaning makes of the state after the entry has been read. -/
theorem mailbox_served {c : Instr} {m : Mail} {s : State} (hm : mailOf c = some m) (h : served c s = true)
    (body : State → Reply) :
    mailbox m.h m.op m.len m.what m.target m.modes body s m.cell = m.done (body (takeEntry m.h.sq.val s)) := by
  unfold served at h
  rw [hm] at h
  simp only [Bool.and_eq_true, Bool.or_eq_true, Bool.not_eq_true', beq_iff_eq, bne_iff_ne, ne_eq,
    Option.isNone_iff_eq_none, List.contains_eq_mem] at h
  obtain ⟨⟨⟨⟨⟨⟨h1, h2⟩, h7⟩, h3⟩, h4⟩, h5⟩, h6⟩ := h
  unfold mailbox Mail.done
  simp only [h1, h5, h7, Bool.not_true, Bool.false_eq_true, if_false]
  have e1 : ((s.sq m.h.sq.val).halted && m.op != 0x03) = false := by
    rcases h2 with h2 | h2 <;> simp [h2]
  have e2 : (!s.host.protoValid && m.op != 0x01 && m.op != 0x58) = false := by
    rcases h3 with (h3 | h3) | h3 <;> simp [h3]
  have e3 : (!m.modes.contains s.sys.mode) = false := by simpa using h4
  simp only [e1, e2, e3, Bool.false_eq_true, if_false]
  by_cases hf : m.h.flags = 3
  · have := h6.resolve_left (by simp [hf])
    simp [hf, this.1, this.2]
  · simp [hf]

/-- The same, of the command as `exec` runs it. -/
theorem ends_of {c : Instr} {m : Mail} {s : State} {body : State → Reply} (hm : mailOf c = some m)
    (h : served c s = true)
    (he : exec c s = .next (mailbox m.h m.op m.len m.what m.target m.modes body s m.cell)) : Ends c s body :=
  ⟨m, hm, by rw [he, mailbox_served hm h]⟩

/-- A reply that a body comes to under the command's conditions. -/
theorem Ends.congr {c : Instr} {s : State} {f g : State → Reply} (h : Ends c s f)
    (e : ∀ m, mailOf c = some m → f (takeEntry m.h.sq.val s) = g (takeEntry m.h.sq.val s)) : Ends c s g := by
  obtain ⟨m, hm, he⟩ := h
  exact ⟨m, hm, by rw [he, e m hm]⟩

/-- Every mailbox command takes the one path. -/
theorem exec_mailbox {c : Instr} {m : Mail} (hm : mailOf c = some m) (s : State) : ∃ body : State → Reply,
    exec c s = .next (mailbox m.h m.op m.len m.what m.target m.modes body s m.cell) := by
  cases c <;> first
    | (obtain rfl := Option.some.inj hm; exact ⟨_, rfl⟩)
    | cases hm

/-! ### Instructions of a burin -/

/-- An instruction that issues does its body. -/
theorem issue_body {i : Instr} {b : BurinId} {w : Nat} {s : State} (hw : wordOf i = some (b, w)) (h : Issues i s = true)
    (body : State → State) : issue b w body s = .next (body s) := by
  unfold Issues at h
  rw [hw] at h
  simp only [Bool.and_eq_true, Option.isNone_iff_eq_none] at h
  unfold issue
  rw [if_pos h.1, h.2]

theorem ovgNew_sat (x : Word) (b : Bool) : ovgNew x (if b then x ||| 16#32 else x) = 0 := by
  cases b
  · simp [ovgNew]
  · simp only [ovgNew, if_true]
    rw [List.length_eq_zero_iff, List.filter_eq_nil_iff]
    intro k hk
    have hk' : k < 4 := List.mem_range.mp hk
    match k, hk' with
    | 0, _ | 1, _ | 2, _ | 3, _ => simp

theorem ovgNew_self (x : Word) : ovgNew x x = 0 := by simp [ovgNew]

theorem running_ne {r : Burin} (h : r.running = true) : r ≠ {} := fun e => by rw [e] at h; cases h

theorem setBurin_setBurin (s : State) (k : Nat) {v w : Burin} (hv : v.running = true) (hw : w.running = true) :
    (s.setBurin k v).setBurin k w = s.setBurin k w := by
  simp only [State.setBurin, tset, running_ne hv, running_ne hw, if_false, tins_tins]

theorem burin_setBurin (s : State) (k : Nat) (v : Burin) : (s.setBurin k v).burin k = v := tget_tset_self _ _ _ _

/-- Writing registers without a new OVG bit touches nothing else. -/
theorem modRegs_eq (b : Nat) (f : Regs → Regs) (s : State)
    (h : ovgNew (s.burin b).regs.flags (f (s.burin b).regs).flags = 0) :
    modRegs b f s = s.setBurin b { s.burin b with regs := f (s.burin b).regs } := by
  unfold modRegs ovgEvents State.modBurin
  simp only [burin_setBurin, h, times, ite_self]

theorem fetchOn_eq (b : Nat) (s : State) (hr : (s.burin b).running = true) : ∃ fe ur un,
    fetchOn b s = s.setBurin b { s.burin b with fetching := fe, underrun := ur, underruns := un } := by
  unfold fetchOn State.modBurin
  by_cases h1 : (s.burin b).streamed = true
  · by_cases h2 : (s.burin b).ready = true
    · by_cases h4 : (s.burin b).fetching = none
      · exact ⟨_, _, _, by simp [h1, h2, hr, h4]; rfl⟩
      · exact ⟨_, _, _, by simp [h1, h2, hr, h4]; rfl⟩
    · by_cases h3 : (s.burin b).underrun = true
      · by_cases h4 : (s.burin b).fetching = none
        · exact ⟨_, _, _, by simp [h1, h2, hr, h3, h4]; rfl⟩
        · exact ⟨_, _, _, by simp [h1, h2, hr, h3, h4]; rfl⟩
      · by_cases h4 : (s.burin b).fetching = none
        · exact ⟨_, _, _, by simp [h1, h2, hr, h3, h4]; rfl⟩
        · exact ⟨_, _, _, by simp [h1, h2, hr, h3, h4]; rfl⟩
  · exact ⟨(s.burin b).fetching, (s.burin b).underrun, (s.burin b).underruns, by
      show s.setBurin b (if _ then _ else _) = _
      rw [if_neg (by simp [h1])]⟩

/-- An instruction that sets pc itself and raises no OVG event. -/
theorem fetchOn_turns (b : BurinId) (f : Regs → Regs) (s : State) (hr : (s.burin b.val).running = true)
    (h : ovgNew (s.burin b.val).regs.flags (f (s.burin b.val).regs).flags = 0) :
    Turns b f s (fetchOn b.val (modRegs b.val f s)) := by
  rw [modRegs_eq _ _ _ h]
  obtain ⟨fe, ur, un, e⟩ := fetchOn_eq b.val (s.setBurin b.val { s.burin b.val with regs := f (s.burin b.val).regs })
    (by rw [burin_setBurin]; exact hr)
  refine ⟨fe, ur, un, ?_⟩
  rw [e, burin_setBurin]
  exact setBurin_setBurin _ _ hr hr

/-- An instruction that writes registers and goes on, and raises no OVG event. -/
theorem finish_turns (b : BurinId) (f : Regs → Regs) (s : State) (hr : (s.burin b.val).running = true)
    (h : ovgNew (s.burin b.val).regs.flags (f (s.burin b.val).regs).flags = 0) :
    Turns b (fun r => pass (f r)) s (finish b.val (modRegs b.val f s)) := by
  obtain ⟨fe, ur, un, e⟩ := fetchOn_turns b pass (s.setBurin b.val { s.burin b.val with regs := f (s.burin b.val).regs })
    (by rw [burin_setBurin]; exact hr) (by rw [burin_setBurin]; exact ovgNew_self _)
  refine ⟨fe, ur, un, ?_⟩
  unfold finish
  rw [modRegs_eq _ _ _ h, e, burin_setBurin]
  exact setBurin_setBurin _ _ hr hr

theorem issues_running {i : Instr} {b : BurinId} {w : Nat} {s : State} (hw : wordOf i = some (b, w))
    (h : Issues i s = true) : (s.burin b.val).running = true := by
  unfold Issues at h
  rw [hw] at h
  simp only [Bool.and_eq_true, State.fetched] at h
  exact h.1.1.1.1.1.2

theorem plain_completes {i : Instr} {b : BurinId} {w : Nat} {f : Regs → Regs} {s : State}
    (hw : wordOf i = some (b, w)) (h : Issues i s = true) (he : exec i s = plain b w f s)
    (ho : ovgNew (s.burin b.val).regs.flags (f (s.burin b.val).regs).flags = 0) :
    Completes i b (fun r => pass (f r)) s :=
  ⟨_, he.trans (issue_body hw h _), finish_turns b f s (issues_running hw h) ho⟩

theorem jumps_completes {i : Instr} {b : BurinId} {w : Nat} {f : Regs → Regs} {s : State}
    (hw : wordOf i = some (b, w)) (h : Issues i s = true) (he : exec i s = jumps b w f s)
    (ho : ovgNew (s.burin b.val).regs.flags (f (s.burin b.val).regs).flags = 0) :
    Completes i b f s :=
  ⟨_, he.trans (issue_body hw h _), fetchOn_turns b f s (issues_running hw h) ho⟩

end Sys2Proof.Machine
end

