-- ==== Sys2Proof/WellFormed.lean ====
section
/-! DEFINITION. Well-formedness: every operand fits the width that its structure gives it (R406, R407,
R416–R426 and the chapters' own structures). A command whose field breaks a rule of its meaning is
well formed: the spec says how it completes. -/

namespace Sys2Proof

/-- An unsigned field of `w` bits. -/
def fits (v w : Nat) : Bool := decide (v < 2 ^ w)

/-- A signed field of `w` bits. -/
def fitsI (v : Int) (w : Nat) : Bool := decide (-(2 ^ (w - 1) : Nat) ≤ v) && decide (v < (2 ^ (w - 1) : Nat))

/-- The header of an entry (R406). -/
def Hdr.wf (h : Hdr) : Bool := fits h.cmdId 16 && fits h.flags 8 && fits h.plen 32 && fits h.addr 64

/-- A time field (R11, R407). -/
def Stamp.wf (t : Stamp) : Bool := fits t.sec 64 && fits t.ns 32 && fits t.frac 16

def CfgItem.wf (c : CfgItem) : Bool := fits c.code 16 && fits c.target 16 && fits c.aux 32 && fits c.value 64

def BindArgs.wf (a : BindArgs) : Bool :=
  fits a.kind 8 && fits a.channel 16 && fits a.width 8 && fits a.flags 8 && fits a.rs 16 && fits a.stmax 16 && fits a.stwin 16
    && fits a.gsrc 8 && fits a.gidx 8 && fits a.ring 8 && a.producers.all (fits · 32) && a.consumers.all (fits · 32)
    && decide (a.producers.length < 256)

def AcqSettings.wf (a : AcqSettings) : Bool :=
  fits a.src 8 && fits a.tsel 8 && fits a.ttone 8 && fits a.tsrc 8 && fits a.pin 8 && fits a.ttype 8 && fits a.pol 8
    && fits a.tmask 16 && fitsI a.lo 16 && fitsI a.hi 16 && fits a.hys 16 && fits a.nseg 16 && fits a.wcond 8 && fits a.armsrc 8
    && fits a.ring 8 && fits a.w1 32 && fits a.w2 32 && fits a.tw 32 && fits a.rlen 32 && fits a.rbase 64 && fits a.pre 32
    && fits a.post 32

def DomSettings.wf (a : DomSettings) : Bool :=
  fits a.source 8 && fits a.port 8 && fits a.profile 8 && fits a.ptpdom 8 && fits a.transport 8 && fitsI a.delay 32 && fits a.bw 32

def ServoArgs.wf (a : ServoArgs) : Bool :=
  fits a.selmode 8 && fits a.revert 8 && fits a.slew 32 && fits a.slewacc 32 && fits a.hlimit 32 && fits a.hwander 32

def TiuArgs.wf (a : TiuArgs) : Bool :=
  fits a.mode 8 && fits a.srca 8 && fits a.srcb 8 && fits a.edge 8 && fits a.ring 8 && fits a.div 32 && fits a.count 32
    && fits a.gate 64 && a.start.wf

def RingArgs.wf (a : RingArgs) : Bool :=
  fits a.ring 8 && fits a.flags 8 && fits a.vec 8 && fits a.dbase 32 && fits a.dlen 32 && fits a.cnt 32 && fits a.hbase 64
    && fits a.hlen 32 && fits a.itime 32 && fits a.ctrl 64

def TimerArgs.wf (a : TimerArgs) : Bool :=
  fits a.element 8 && fits a.index 8 && fits a.pol 8 && fits a.root 32 && fits a.period 64 && fits a.len 64 && fits a.count 32
    && a.start.wf

def SegLoadArgs.wf (a : SegLoadArgs) : Bool :=
  fits a.port 16 && fits a.root 32 && fits a.src 64 && fits a.sFirst 32 && fits a.sCount 32 && fits a.gFirst 16
    && fits a.gCount 16 && fits a.pFirst 16 && fits a.pCount 16

def GovArgs.wf (a : GovArgs) : Bool :=
  fits a.mode 8 && fits a.vmin 16 && fits a.vmax 16 && fits a.vfixed 16 && fits a.nearlate 16 && fits a.lower 16

def HatchFrame.wf (f : HatchFrame) : Bool := fits f.dest 14 && fits f.channel 12

/-- The fields of a training set (R369). -/
def TrainSet.wf : TrainSet → Bool
  | .tsId lane port device gens feat state _ _ =>
    fits lane 4 && fits port 8 && fits device 14 && fits gens 4 && fits feat 8 && fits state 4
  | .tsCfg a b c d => fits a 16 && fits b 16 && fits c 16 && fits d 16

def LinkBlock.wf (l : LinkBlock) : Bool :=
  fits l.ackp 12 && fits l.ackq 12 && fits l.rdec 6 && fits l.rtime 6 && fits l.rctrl 6 && fits l.rbulk 6

/-- Every operand of a command fits its field. -/
def Instr.wf : Instr → Bool
  | .powerUp => true
  | .resetN => true
  | .supplyLoss => true
  | .refclkValid => true
  | .refclkLoss => true
  | .bootHost .. => true
  | .bootFlash _ _ flashId hdr cfg => fits flashId 32 && decide (hdr.bytes.length = 64) && decide (cfg.bytes.length = 64)
  | .bootFirmware .. => true
  | .bootDomains .. => true
  | .bootPatch _ badTiles => fits badTiles 64
  | .bootFinal => true
  | .pcieLinkDown => true
  | .sqdb .. => true
  | .cqdb .. => true
  | .sqctl .. => true
  | .faultsum .. => true
  | .hbHost .. => true
  | .hbCtl .. => true
  | .registerWrite offset bytes _ => fits offset 16 && decide (bytes ≤ 8)
  | .hbDevAdvance => true
  | .heartbeatTimeout => true
  | .completionRelease .. => true
  | .cqInterruptTimer .. => true
  | .bar2Read addr _ => fits addr 30
  | .bar2Write addr _ => fits addr 30
  | .unknownCommand h opcode => h.wf && fits opcode 8
  | .open_ h vmin vmax => h.wf && fits vmin 8 && fits vmax 8
  | .close h => h.wf
  | .queueResume h => h.wf
  | .fence h _ => h.wf
  | .cellConfigure h cell items => h.wf && fits cell 32 && items.all CfgItem.wf
  | .cellLoad h cell flags preset image length dwords dmem presets => h.wf && fits cell 32 && fits flags 8 && fits preset 16 && fits image 64 && fits length 32 && fits dwords 32 && fits dmem 64 && decide (presets.length = 16)
  | .cellStart h cell period => h.wf && fits cell 32 && fits period 32
  | .cellStop h cell => h.wf && fits cell 32
  | .cellAbort h cell => h.wf && fits cell 32
  | .cellAbortCommandForm h cell sq cmdId => h.wf && fits cell 32 && fits sq 8 && fits cmdId 16
  | .plateComposeCreate h plate => h.wf && fits plate 32
  | .plateComposeAdd h plate members => h.wf && fits plate 32 && members.all (fits · 32)
  | .plateComposeRemove h plate members => h.wf && fits plate 32 && members.all (fits · 32)
  | .plateComposeSeal h plate => h.wf && fits plate 32
  | .plateComposeDissolve h plate => h.wf && fits plate 32
  | .shotSchedule h cell count period origin => h.wf && fits cell 32 && fits count 32 && fits period 64 && origin.wf
  | .segmentLoad h a => h.wf && a.wf
  | .filterLoad h target what bank _ src => h.wf && fits target 16 && fits what 8 && fits bank 8 && fits src 64
  | .markLoadLoad h first count tsmask segFirst segCount src => h.wf && fits first 32 && fits count 32 && fits tsmask 8 && fits segFirst 8 && fits segCount 16 && fits src 64
  | .markLoadConfig h _ mode idle offs fw sosel _ => h.wf && fits mode 8 && fits idle 8 && fitsI offs 16 && fits fw 8 && fits sosel 8
  | .markLoadStart h root seg source delay time => h.wf && fits root 32 && fits seg 8 && fits source 8 && fits delay 16 && time.wf
  | .markLoadStop h => h.wf
  | .streamOpen h source ring => h.wf && fits source 16 && fits ring 8
  | .streamClose h source => h.wf && fits source 16
  | .align h source syncDelay time => h.wf && fits source 8 && fits syncDelay 16 && time.wf
  | .alignCancel h => h.wf
  | .eventRouteBind h a => h.wf && a.wf
  | .eventRouteUnbind h channel => h.wf && fits channel 16
  | .eventGate h _ _ time => h.wf && time.wf
  | .gateChange => true
  | .acqSet h engine a => h.wf && fits engine 8 && a.wf
  | .acqArm h engine => h.wf && fits engine 8
  | .acqDisarm h engine => h.wf && fits engine 8
  | .timeSetStepAbs h time => h.wf && time.wf
  | .timeSetStepRel h ticks => h.wf && fitsI ticks 64
  | .timeSetDomain h dom a => h.wf && fits dom 8 && a.wf
  | .timeSetServo h a => h.wf && a.wf
  | .timeSetUtc h offset => h.wf && fitsI offset 16
  | .timeSelect h sel => h.wf && fits sel 8
  | .timeTimerArm h a => h.wf && a.wf
  | .timeTimerStop h element index => h.wf && fits element 8 && fits index 8
  | .timeQuery h len => h.wf && fits len 32
  | .tiuMeasureStart h engine a => h.wf && fits engine 8 && a.wf
  | .tiuMeasureStop h engine => h.wf && fits engine 8
  | .tiuMeasureQuery h engine len => h.wf && fits engine 8 && fits len 32
  | .calRun h scope target ramp => h.wf && fits scope 16 && fits target 32 && fits ramp 32
  | .calCommit h scope target ramp => h.wf && fits scope 16 && fits target 32 && fits ramp 32
  | .calSet h scope _ dtemp cwin cdead ramp => h.wf && fits scope 16 && fits dtemp 16 && fits cwin 32 && fits cdead 16 && fits ramp 32
  | .powerSetDomain h domain state wake => h.wf && fits domain 8 && fits state 8 && fits wake 16
  | .powerSetGovernor h a => h.wf && a.wf
  | .proofRun h kind domain tests cell => h.wf && fits kind 8 && fits domain 8 && fits tests 8 && fits cell 32
  | .modeSet h mode => h.wf && fits mode 8
  | .statusQuery h kind target len => h.wf && fits kind 8 && fits target 32 && fits len 32
  | .ledgerQuery h cls index len => h.wf && fits cls 8 && fits index 16 && fits len 32
  | .faultClear h scope target => h.wf && fits scope 8 && fits target 32
  | .patchStatus h len => h.wf && fits len 32
  | .linkStatus h port len => h.wf && fits port 16 && fits len 32
  | .linkSet h port flags genmax loopback address pfx => h.wf && fits port 16 && fits flags 8 && fits genmax 8 && fits loopback 8 && fits address 32 && fits pfx 8
  | .ringSet h a => h.wf && a.wf
  | .hkSet h dislim slots => h.wf && fits dislim 16 && slots.all (fun p => fits p.1 16 && fits p.2 16)
  | .netSetDevnum h devnum => h.wf && fits devnum 16
  | .netSetRoutes h src first count => h.wf && fits src 64 && fits first 16 && fits count 16
  | .pwrReq .. => true
  | .proofReq .. => true
  | .reset .. => true
  | .pwrStat => true
  | .proofStat => true
  | .entdaa addr => fits addr 7
  | .setdasa addr => fits addr 7
  | .rstdaa => true
  | .getpid => true
  | .getbcr => true
  | .getdcr => true
  | .getstatus => true
  | .startEvent .. => true
  | .heldStart .. => true
  | .shotBoundary .. => true
  | .entryArrival .. => true
  | .creditReturn .. => true
  | .putHoldRelease .. => true
  | .governorInterval => true
  | .lineFetchComplete .. => true
  | .waitWake .. => true
  | .nop .. => true
  | .end_ .. => true
  | .jmp .. => true
  | .jt .. => true
  | .rep .. => true
  | .repi .. => true
  | .beq .. => true
  | .bne .. => true
  | .blt .. => true
  | .bge .. => true
  | .bltu .. => true
  | .bgeu .. => true
  | .beqz .. => true
  | .bnez .. => true
  | .add .. => true
  | .sub .. => true
  | .and_ .. => true
  | .or_ .. => true
  | .xor_ .. => true
  | .shl .. => true
  | .shr .. => true
  | .sar .. => true
  | .mul .. => true
  | .mulh .. => true
  | .min .. => true
  | .max .. => true
  | .minu .. => true
  | .maxu .. => true
  | .adds .. => true
  | .subs .. => true
  | .addi .. => true
  | .andi .. => true
  | .ori .. => true
  | .xori .. => true
  | .shli .. => true
  | .shri .. => true
  | .sari .. => true
  | .movi .. => true
  | .movhi .. => true
  | .addpi .. => true
  | .addp .. => true
  | .mov .. => true
  | .extu .. => true
  | .exts .. => true
  | .shin .. => true
  | .dep .. => true
  | .movpi .. => true
  | .movmi .. => true
  | .movpg .. => true
  | .movgp .. => true
  | .movmg .. => true
  | .modp .. => true
  | .leap .. => true
  | .ld .. => true
  | .st .. => true
  | .ldd .. => true
  | .std .. => true
  | .ldx .. => true
  | .stx .. => true
  | .cadd .. => true
  | .csub .. => true
  | .csubm .. => true
  | .cmulr .. => true
  | .cconj .. => true
  | .cscl .. => true
  | .cmag2 .. => true
  | .wsq .. => true
  | .dsq .. => true
  | .cpk .. => true
  | .clra .. => true
  | .mova .. => true
  | .mac .. => true
  | .msu .. => true
  | .cmul .. => true
  | .cmac .. => true
  | .cmacj .. => true
  | .cmacm .. => true
  | .rnd .. => true
  | .rndc .. => true
  | .sha .. => true
  | .argmin .. => true
  | .argmax .. => true
  | .argmins .. => true
  | .argmaxs .. => true
  | .put .. => true
  | .qfree .. => true
  | .evs .. => true
  | .evw .. => true
  | .evt .. => true
  | .dsend .. => true
  | .drecv .. => true
  | .dpoll .. => true
  | .waitt .. => true
  | .waitq .. => true
  | .waitc .. => true
  | .now .. => true
  | .iqrd .. => true
  | .iqpoll .. => true
  | .rec_ .. => true
  | .mfs .. => true
  | .mts .. => true
  | .patchOpcode .. => true
  | .segPlay .. => true
  | .toneSet .. => true
  | .stop .. => true
  | .jump .. => true
  | .nullPutDiscard .. => true
  | .segmentStart .. => true
  | .decisionPoint .. => true
  | .playEnd .. => true
  | .bias .. => true
  | .zplay .. => true
  | .zstop .. => true
  | .fastPlayEnd .. => true
  | .parkSwitchOpen .. => true
  | .biasSettled .. => true
  | .overCurrent .. => true
  | .alignmentEvent => true
  | .pointFormed _ xs => xs.all (fitsI · 12)
  | .streamBlock _ xs => xs.all (fitsI · 12)
  | .chainOverrun .. => true
  | .centroidUpdate .. => true
  | .dropStateExit .. => true
  | .spacingEnd .. => true
  | .gatePointArrival .. => true
  | .gateOpenRelease .. => true
  | .triggerLatch .. => true
  | .payloadArrival .. => true
  | .hatchCreditArrival .. => true
  | .softConsumerTake .. => true
  | .armEvent .. => true
  | .writingBegins .. => true
  | .preTriggerFull .. => true
  | .triggerAccept _ xs => xs.all (fitsI · 12)
  | .forceTrigger _ xs => xs.all (fitsI · 12)
  | .captureComplete _ xs => xs.all (fitsI · 12)
  | .rearmEnd .. => true
  | .playbackStart => true
  | .markerSegmentStart => true
  | .playbackEnd => true
  | .followPulseEnd .. => true
  | .trigInEdge .. => true
  | .syncInEdge => true
  | .ppsEdge .. => true
  | .stamp .. => true
  | .coreCalibration .. => true
  | .loopLock .. => true
  | .gateEnd .. => true
  | .sync .. => true
  | .followUp .. => true
  | .delayResp .. => true
  | .announce .. => true
  | .delayReq .. => true
  | .domainLoss .. => true
  | .revert => true
  | .holdoverEvaluation => true
  | .timerEvent .. => true
  | .windowEdge .. => true
  | .timeOutPulse .. => true
  | .signalDetect .. => true
  | .blockLock .. => true
  | .train _ _ _ ts => ts.wf
  | .trainingTimeout .. => true
  | .linkLoss .. => true
  | .hatchData _ tag f => decide (tag.blocks.length ≤ 10) && f.wf
  | .hatchCredit _ tag f => decide (tag.blocks.length ≤ 10) && f.wf
  | .doubt _ tag dest root => decide (tag.blocks.length ≤ 10) && fits dest 14 && fits root 32
  | .tReqSend .. => true
  | .tReq _ tag _ => decide (tag.blocks.length ≤ 10)
  | .tResp _ tag _ _ => decide (tag.blocks.length ≤ 10)
  | .tFollow _ tag _ _ _ _ _ _ _ => decide (tag.blocks.length ≤ 10)
  | .controlFrame _ tag src len _ => decide (tag.blocks.length ≤ 10) && fits src 14 && decide (1 ≤ len) && decide (len ≤ 8)
  | .bulkFrame _ tag dest len => decide (tag.blocks.length ≤ 10) && fits dest 14 && decide (1 ≤ len) && decide (len ≤ 8)
  | .linkBlock _ lb => lb.wf
  | .linkBlockSend .. => true
  | .alignRowSend .. => true
  | .timePortBringup .. => true
  | .arpRequest ip => fits ip 32
  | .ringTransfer .. => true
  | .ringInterruptTimer .. => true
  | .patrolScrub .. => true
  | .regulatorReady .. => true
  | .oscillatorReady .. => true
  | .isolationRelease .. => true
  | .restore .. => true
  | .wakeTimeout .. => true
  | .entryComplete .. => true
  | .slowRound z => decide (z.length = 256)
  | .roundEnd r => decide (r.doms.length = 24) && decide (r.diodes.length = 8)
  | .injectedSequence .. => true
  | .shutdownAction => true
  | .adcBlindRunEnd .. => true
  | .zstatRunEnd .. => true
  | .trimEnd .. => true
  | .storeWrite .. => true
  | .proofRunEnd .. => true
  | .resetNRelease => true
  | .idleRowSend .. => true
  | .timePortDown => true
  | .pcieLinkUp .. => true
  | .otherFrame => true

end Sys2Proof
end

