-- ==== Sys2Proof/Tests/Slice0.lean ====
section
/-! SUPPORT. The model's own tests: an ill-formed term for each well-formedness check, words written out from the spec's
encodings, and for every statement with hypotheses a state and operands that meet them, clause by clause. -/

open Sys2Proof Sys2Proof.Machine

namespace Sys2Proof.Tests

/-! ### Small states -/

/-- Every domain On, a session of version 3 open, queue 0 with a FENCE's doorbell and two entries, mode `m`. -/
def base (m : Mode) : State :=
  { State.reset with
    domains := (List.range 24).map fun d => (d, { st := .on, target := 0 })
    sys := { mode := m, refclk := true, bootedOk := true }
    host := { version := 3, protoValid := true, linkUp := true
              sqs := [(0, { en := true, submitted := 2, bells := [(2, [])] })], cqs := [(0, { en := true })] } }

/-- The same with no session. -/
def closed : State := { base .configure with host := { (base .configure).host with version := 0, protoValid := false } }

/-- A header whose structure of `n` bytes lies in host memory. -/
def hd (n : Nat) : Hdr := { sq := 0, cmdId := 7, flags := 1, plen := n, addr := 0, resv := none }

/-- The Atelier can read an entry, with the queue not halted and a session open. -/
def reads (c : Instr) (s : State) : Bool :=
  match mailOf c with
  | none => false
  | some m => s.canRead m.h.sq.val && !(s.sq m.h.sq.val).halted && !s.withdrawn m.h.sq.val m.op && s.host.protoValid

def admits (c : Instr) (s : State) : Bool := match mailOf c with | none => false | some m => m.modes.contains s.sys.mode
def badHeader (c : Instr) (s : State) : Bool := match mailOf c with | none => false | some m => (hdrError m.h m.len s.host.version).isSome

def halted : State := (base .run).setSq 0 { en := true, submitted := 2, halted := true }

/-- Burin 0 loaded with END and, of its resources, one of each class; mode `m`. -/
def held (m : Mode) : State :=
  becomeOwner 0 2 0x2000 (becomeOwner 0 1 0x1000 (becomeOwner 0 0 0 (loadBurin [0x01000000] false 0 {} 0 (base m))))

/-- Its root runs, with one more shot to start. -/
def going (m : Mode) : State := (held m).setRoot 0 { (held m).root 0 with
  running := true, series := [{ next := 0, left := some 1, numbered := true, origin := 1600000, period := 0 }] }

/-- A plate of this device, its descriptor as given. -/
def plated (m : Mode) (p : Plate) : State := (base m).setPlate 0 p

/-! ### Steps, the mailbox and the session -/

theorem witness_StepRunsFrontCommand : ({ State.reset with pending := [.syncInEdge] } : State).pending = .syncInEdge :: [] := rfl

theorem witness_TickAdvancesTime : State.reset.pending = [] ∧ State.reset.time.stepPend = none ∧ State.reset.sys.resetAt = none
    ∧ State.reset.mark.trigDue = [] ∧ State.reset.sys.trigDue = [] ∧ (State.reset.engines.all fun e => e.2.evAt.isNone) = true
    ∧ (State.reset.ports.all fun e => e.2.banks.swap.isNone) = true ∧ (State.reset.zbanks.all fun e => e.2.swap.isNone) = true
    ∧ (State.reset.ro.all fun e => e.2.firSwap.isNone && e.2.kerSwap.isNone) = true ∧ State.reset.time.tick < 20000000000 := by
  decide

theorem witness_StepKeepsMemoryForm : Memory.wf State.reset.mem.bytes = true ∧ ∃ t, step State.reset = .next t :=
  ⟨by decide, _, rfl⟩

theorem witness_UnreadableEntryDoesNothing : (mailOf (.close (hd 0))).isSome = true ∧ State.reset.canRead 0 = false := by decide

theorem witness_CommandOutsideItsModes : reads (.cellStart (hd 8) 0 0) (base .configure) = true
    ∧ admits (.cellStart (hd 8) 0 0) (base .configure) = false := by decide

theorem witness_HaltedQueueAborts : (halted.canRead 0 = true ∧ (halted.sq 0).halted = true ∧ (mailOf (.close (hd 0))).isSome = true)
    ∧ served (.queueResume (hd 0)) halted = true ∧ served (.queueResume (hd 0)) (base .run) = true
    ∧ (reads (.close (hd 0)) (base .run) && admits (.close (hd 0)) (base .run) && !badHeader (.close (hd 0)) (base .run)) = true
    ∧ (closed.host.protoValid = false ∧ closed.host.sqs.all (fun e => decide (e.2.flight = [])) = true) := by decide

theorem witness_NoSessionRefusal : closed.canRead 0 = true ∧ (closed.sq 0).halted = false ∧ closed.withdrawn 0 0x02 = false ∧ closed.host.protoValid = false
    ∧ (mailOf (.close (hd 0))).isSome = true := by decide

/-- Each clause: a length out by one, a reserved field, an indirect structure outside the staging region by 8 bytes,
and one on a bad granule at its start. -/
theorem witness_HeaderRuleRefusal :
    (reads (.calRun (hd 12) 1 0 0) (base .run) && admits (.calRun (hd 12) 1 0 0) (base .run)) = true
    ∧ badHeader (.calRun (hd 13) 1 0 0) (base .run) = true ∧ badHeader (.calRun (hd 12) 1 0 0) (base .run) = false
    ∧ badHeader (.calRun { hd 12 with resv := some 20 } 1 0 0) (base .run) = true
    ∧ badHeader (.calRun { hd 12 with flags := 3, addr := 0x0FFFFFF8 } 1 0 0) (base .run) = false
    ∧ inStaging 0x0FFFFFF8 12 = false ∧ inStaging 0x08000000 12 = true
    ∧ ({ base .run with mem := { poison := [0x400000] } } : State).poisoned 0x08000000 12 = true := by decide

theorem witness_Completions : ((base .run).host.sqs.all fun e => decide (e.2.flight = [])) = true
    ∧ ((base .run).cq ((base .run).cqOf 0)).held = [] ∧ (base .run).cqFree ((base .run).cqOf 0) = true
    ∧ (base .run).host.protoValid = true ∧ (base .run).refLog.active = true := by decide

/-- Each clause of OPEN takes one of these ranges. -/
theorem witness_SessionCommandsComplete :
    ([(0, 3), (2, 1), (4, 4), (1, 1), (1, 2), (2, 2), (1, 3), (3, 3), (3, 9)].all fun e => served (.open_ (hd 4) e.1 e.2) closed) = true
    ∧ served (.open_ (hd 4) 1 3) (base .run) = true ∧ served (.close (hd 0)) (base .run) = true
    ∧ served (.fence (hd 8) 1) (base .run) = true ∧ ((base .run).sq 0).bells = (2, []) :: [] ∧ 0x05 ∉ knownOpcodes
    ∧ (base .run).canRead 0 = true := by decide

theorem witness_ModeSetFollowsTheTable :
    ([Mode.configure, .ready, .run, .calibrate, .proof, .safe, .service].all fun a =>
      [Mode.boot, .configure, .ready, .run, .calibrate, .proof, .safe, .service].all fun m => served (.modeSet (hd 4) m.code) (base a)) = true
    ∧ served (.modeSet (hd 4) 8) (base .run) = true ∧ (base .configure).validation = none
    ∧ (plated .configure { st := .open_ }).validation = some (2, 0x1000)
    ∧ ({ base .safe with devFault := { codes := [1] } } : State).devFault.codes ≠ []
    ∧ (((base .proof).setProof 0 { active := true }).proofs.any fun e => e.2.active) = true := by decide

/-! ### Cells and plates -/

/-- START_LEAD at its least value applies, one below fails, and a cell in use bars both. -/
theorem witness_CellConfigureIsAllOrNone :
    (let i (v : Nat) : List CfgItem := [{ code := 0x03, target := 0, aux := 0, value := v }]
     let s := held .configure
     served (.cellConfigure (hd 24) 0 (i 200)) s && (s.cellDevs 0).isEmpty && s.isLocal 0 && s.cellExists 0
       && (s.burinsOf 0).all (fun b => !s.tileBad b) && !s.cellInUse 0 && (going .configure).cellInUse 0
       && (applyItems 0 (i 200) (i 200) 0 (takeEntry 0 s)).2.isNone && (applyItems 0 (i 199) (i 199) 0 (takeEntry 0 s)).2.isSome
       && (rangeItems (applyItems 0 (i 200) (i 200) 0 (takeEntry 0 s)).1 0 (i 200)).isEmpty
       && (applyItems 0 (i 200) (i 200) 0 (takeEntry 0 s)).1.keepsValid) = true := by decide

theorem witness_CellItemsFollowTheTable : (base .configure).isLocal 0 = true ∧ resOk 0x3000 = true
    ∧ tget .empty ((base .configure).burin 0).slots 15 = .empty ∧ (base .configure).owner 0x3000 = none
    ∧ (base .configure).holdSlot 0 0x3000 = none ∧ ((base .configure).burin 0).slots.length < 16
    ∧ [0, 0x1000, 0x2000].all ((held .configure).cellRes 0).contains = true := by decide

/-- One END in program memory. -/
def imaged : State := { base .configure with mem := { bytes := [(3, 1)] } }

theorem witness_CellLoadLoadsEveryBurin : served (.cellLoad (hd 96) 0 0 0 0 1 0 0 []) imaged = true
    ∧ served (.cellLoad (hd 96) 0 1 0 0 1 0 0 []) imaged = true
    ∧ imaged.cellDevs 0 = [] ∧ imaged.isLocal 0 = true ∧ imaged.cellExists 0 = true ∧ inProgStag 0 4 = true ∧ inProgram 0 4 = true
    ∧ imaged.burinsOf 0 = [0] ∧ imaged.tileBad 0 = false ∧ imaged.cellInUse 0 = false ∧ imaged.isOn 4 = true
    ∧ imaged.isOn (folioDom 0) = true ∧ imaged.poisoned 0 4 = false ∧ imaged.poisoned 0 0 = false
    ∧ imageOk imaged.patched (imaged.wordsAt 0 1) false = true ∧ imageOk imaged.patched (imaged.wordsAt 0 1) true = true
    ∧ (List.replicate 16 (5 : Word)).length = 16 := by decide

theorem witness_PlateCommandsCompose :
    (let o := plated .configure { st := .open_, members := [5], cell := 0x1000 }
     let c := base .configure
     let p := o.setCell 5 { parent := some 0x1000 }
     served (.plateComposeCreate (hd 8) 0x1000) c && c.plateArg 0x1000 && decide ((c.plateOf 0x1000).st = .free)
       && served (.plateComposeCreate (hd 8) 0x1000) (base .run) && decide ((o.plateOf 0x1000).st ≠ .free)
       && served (.plateComposeAdd (hd 12) 0x1000 [4]) o && (o.memberDevs [4]).isEmpty && o.cellExists 4
       && (o.cell 4).parent.isNone && !o.holds 0x1000 4 && !o.memberBad 4 && !o.touches 0x1000 [4]
       && served (.plateComposeRemove (hd 12) 0x1000 [5]) p && !p.touches 0x1000 [5]
       && served (.plateComposeSeal (hd 8) 0x1000) p && (p.cellDevs 0x1000).isEmpty
       && served (.plateComposeDissolve (hd 8) 0x1000) p && (p.dissolveDevs 0x1000).isEmpty && (p.cell 0x1000).parent.isNone) = true := by decide

/-! ### Shots -/

theorem witness_ShotCommandsSchedule :
    (let s := held .run
     let t (n : Nat) : Stamp := { sec := 0, ns := n, frac := 0 }
     served (.cellStart (hd 8) 0 0) s && (s.cellDevs 0).isEmpty && s.namesRoot 0 && (s.startBar 0).isNone && !s.spans 0
       && !(s.root 0).running && (going .run).namesRoot 0 && ((going .run).startBar 0).isNone && ((going .run).root 0).running
       && served (.shotSchedule (hd 32) 0 1 20000 (t 12000)) s
       && decide ((s.now : Int) + 200000 = s.coarseOf (stampTicks (t 12000)) - (((s.cell 0).startLead * 20 : Nat) : Int))
       && decide (s.coarseOf (stampTicks (t 11999)) - (((s.cell 0).startLead * 20 : Nat) : Int) < (s.now : Int) + 200000)
       && (let e := s.setRoot 0 { running := true, freeFrom := some (some 240001) }
           let x := s.setRoot 0 { running := true, freeFrom := some none }
           served (.shotSchedule (hd 32) 0 1 20000 (t 12000)) e && !decide (240001 ≤ e.coarseOf (stampTicks (t 12000)))
             && served (.shotSchedule (hd 32) 0 1 20000 (t 12000)) x && (x.root 0).running)) = true := by
  decide

/-- A series may begin one period after the last origin of the series before, which has started, and not earlier (R420). -/
theorem test_series_after_a_started_one :
    [240000, 240001].map (fun n => (shotScheduleReply 0 1 20000 { sec := 0, ns := 12000, frac := 0 }
      ((held .run).setRoot 0 { running := true, freeFrom := some (some n) })).status) = [0, 2] := by decide

theorem witness_StopsEndTheRoot :
    (let s := held .run
     let g := going .run
     let f : InFlight := { cmdId := 9, opcode := 0x16, wait := .nothing, status := 0, result := 0, cell := some 0, what := 0, target := 0 }
     let q (f : InFlight) := g.setSq 0 { (g.sq 0) with flight := [f] }
     let v : InFlight := { f with wait := .votes 1 [1] [1] none (.schedule 0 1 20000 { sec := 0, ns := 0, frac := 0 }) }
     served (.cellStop (hd 8) 0) g && served (.cellStop (hd 8) 0) s && g.namesRoot 0 && (g.cellDevs 0).isEmpty && (g.root 0).stopAt.isNone
       && served (.cellAbort (hd 8) 0) g && served (.cellAbortCommandForm (hd 8) 0 0 9) (q f) && (q f).namesRoot 0
       && !f.uncommitted && served (.cellAbortCommandForm (hd 8) 0 0 9) (q v) && v.uncommitted) = true := by decide

/-- A SHOT_SCHEDULE submitted in queue 1 and not yet read. -/
def waits : State :=
  let w := (going .run).setSq 1 { en := true, submitted := 1, cq := 0 }
  { w with pending := [.shotSchedule { hd 32 with sq := 1, cmdId := 9 } 0 1 20000 { sec := 0, ns := 0, frac := 0 }] }

/-- The same withdrawn. -/
def gone : State := waits.setSq 1 { waits.sq 1 with withdrawn := [0] }

theorem witness_StopsEndTheRoot_withdrawn :
    (served (.cellAbortCommandForm (hd 8) 0 1 9) waits && waits.namesRoot 0
      && decide ((((takeEntry 0 waits).unread 1).filter fun e => hasId 9 e.2).getLast? = waits.pending.head?.map fun c => (0, c))
      && waits.pending.all (schedulesNow 0) && gone.canRead 1 && !(gone.sq 1).halted && gone.withdrawn 1 0x16) = true := by decide

theorem test_abort_withdraws_a_waiting_schedule :
    (match exec (.cellAbortCommandForm (hd 8) 0 1 9) waits with
     | .next t => decide ((t.sq 1).withdrawn = [0] ∧ (t.cq 0).last.map (·.status) = some 0)
     | _ => false) = true := by decide

theorem test_withdrawn_schedule_faults :
    (match exec (.shotSchedule { hd 32 with sq := 1, cmdId := 9 } 0 1 20000 { sec := 0, ns := 0, frac := 0 }) gone with
     | .next t => decide ((t.cq 0).last.map (·.status) = some 7 ∧ (t.sq 1).halted = true ∧ (t.sq 1).withdrawn = [])
     | _ => false) = true := by decide

/-- An OPEN that is refused no longer keeps the doorbell of SQ0 shut. -/
theorem test_refused_open_frees_doorbell :
    (match exec (.open_ (hd 5) 3 3) { closed with host := { closed.host with openPending := true } } with
     | .next t => decide (t.host.openPending = false ∧ (t.cq 0).last.map (·.status) = some 2)
     | _ => false) = true := by decide

/-! ### Loads, markers, streams and events -/

def seg (port : Nat) (swap : Bool) : SegLoadArgs :=
  { port, swap, root := 0, src := 0x08000000, sFirst := 0, sCount := 0, gFirst := 256, gCount := 0, pFirst := 1024, pCount := 0 }

/-- Nothing at the end of each table; the bank swaps at once, or after a shot. -/
theorem witness_BankLoadsFillTheIdleBank :
    (let s := held .run
     let g := going .run
     [0, 31].all (fun p => served (.segmentLoad (hd 32) (seg p false)) s && s.isOn (loadDom p) && !s.testing (loadDom p)
         && !(s.pair p).draining && (s.pair p).swap.isNone)
       && served (.segmentLoad (hd 32) (seg 0x10F false)) s && s.isOn (loadDom 0x10F)
       && served (.segmentLoad (hd 32) { seg 0x203 false with pFirst := 0 }) s && s.isOn (loadDom 0x203) && s.isOn 4
       && !s.poisoned 0x08000000 0 && decide (readItems (readSeg s) 8 0x08000000 0 = some [])
       && decide (readItems (readStep s) 8 0x08000000 0 = some []) && served (.segmentLoad (hd 32) (seg 0 true)) s
       && s.namesRoot 0 && s.ownsPort (s.keyOf 0) 0 && !s.running (s.keyOf 0)
       && served (.segmentLoad (hd 32) (seg 0 true)) g && g.ownsPort (g.keyOf 0) 0 && g.running (g.keyOf 0)
       && decide ((g.root (g.keyOf 0)).series.length = 1)) = true := by decide

theorem witness_FilterLoad :
    (let s := base .run
     let g := going .run
     let n := 4 * 65
     inStaging 0x08000000 n && inStaging 0x08000000 4096 && s.isOn (inDom 0) && s.isOn (inDom 15) && !s.testing (inDom 15)
       && (firOfWords (s.wordsAt 0x08000000 65)).isSome && !(s.rot 0).bankUsed 0 1 && !(s.rot 0).bankUsed 1 1
       && (s.rot 0).firSwap.isNone && (s.rot 0).kerSwap.isNone && !s.poisoned 0x08000000 4096
       && served (.filterLoad (hd 16) 0x1000 0 1 false 0x08000000) s && served (.filterLoad (hd 16) 0x10FF 1 1 true 0x08000000) s
       && served (.filterLoad (hd 16) 0x300F 0 1 true 0x08000000) s && (s.resRoot 0x1000).isNone
       && served (.filterLoad (hd 16) 0x1000 0 1 true 0x08000000) g && decide (g.resRoot 0x1000 = some 0)
       && !(g.rot 0).bankUsed 0 1) = true := by decide

def ten : Stamp := { sec := 0, ns := 10000, frac := 0 }
def early : Stamp := { sec := 0, ns := 9999, frac := 0 }

theorem witness_MarkerCommandsComplete :
    (let s := base .ready
     let l : State := { s with mark := { segs := [(255, { len := 1 })] } }
     let p : State := { s with mark := { gen := .playing } }
     let e : State := { s with mark := { gen := .armed 9, synced := true } }
     served (.markLoadLoad (hd 32) 0 0 0 256 0 0x08000000) s && s.isOn 5 && !s.testing 5 && s.isOn 4 && decide (s.mark.gen = .idle)
       && decide (readItems (readVector s) 16 0x08000000 0 = some []) && decide (readItems (readTset s) 2 0x08000000 0 = some [])
       && decide (readItems (readMrkSeg s) 16 0x08000000 0 = some [])
       && served (.markLoadConfig (hd 32) 0x80000001 2 1 (-256) 255 31 true) s && served (.markLoadConfig (hd 32) 1 0 0 255 1 0xFF false) s
       && [0, 1, 2, 3].all (fun k => served (.markLoadStart (hd 32) 0 255 k 65535 ten) l) && l.rootNamed 0
       && decide ((tget {} l.mark.segs 255).len ≠ 0)
       && decide ((s.now : Int) + 200000 = s.coarseOf (stampTicks ten)) && decide (s.coarseOf (stampTicks early) < (s.now : Int) + 200000)
       && served (.markLoadStop (hd 32)) p && served (.markLoadStop (hd 32)) e && served (.markLoadStop (hd 32)) s) = true := by decide

theorem witness_StreamAndAlignCommands :
    (let s := (base .run).setRing 63 { dev := true }
     let o := s.setStream 0 { open_ := true }
     served (.streamOpen (hd 4) 0 63) s && sourceOk 0 && served (.streamOpen (hd 4) 0 63) o && served (.streamClose (hd 4) 0) o
       && served (.streamClose (hd 4) 0) s && decide ((s.stream 0).samples = [])
       && [0, 1, 2].all (fun k => served (.align (hd 24) k 65535 ten) s) && !s.toneCellRuns && s.alignArm.isNone
       && served (.align (hd 24) 0 0 ten) (going .run) && (going .run).toneCellRuns
       && served (.alignCancel (hd 24)) s) = true := by decide

def bindTrig (channel stwin : Nat) : BindArgs :=
  { kind := 1, channel, width := 32, flags := 15, rs := 65535, stmax := 65535, stwin, gsrc := 0, gidx := 0, ring := 63
    producers := [0x70000000], consumers := [0x10000000] }

theorem witness_RouteAndGateCommands :
    (let s := base .ready
     let a := { bindTrig 4095 1000 with consumers := [0x10000000, 0x10003FF7] }
     let b := s.setChan 4095 { bound := true, kind := 1, prods := a.producers, cons := a.consumers }
     let p : State := { s with gatePend := [(0, 1, 1)] }
     let q : State := { s with gatePend := [(1, 1, 1)] }
     served (.eventRouteBind (hd 32) a) s && (bindRange a).isNone && (a.producers ++ a.consumers).all (fun e => epDev e == s.sys.devnum)
       && a.producers.all (s.endOk a true) && a.consumers.all (fun e => s.endOk a false e && epClass e != 12)
       && decide (a.producers ++ a.consumers).Nodup && !(s.chan 4095).bound && s.promises.isEmpty && b.promises.isEmpty
       && (a.producers ++ a.consumers).all (fun e => (s.chanOfProd e).isNone && (s.chanOfCons e).isNone && !s.endInUse e && !b.endInUse e)
       && served (.eventRouteUnbind (hd 20) 4095) s && served (.eventRouteUnbind (hd 20) 4095) b && (b.chan 4095).bound
       && decide (b.bindDevs (a.producers ++ a.consumers) = []) && served (.eventGate (hd 32) 1 1 ten) s
       && served (.eventGate (hd 32) 1 1 { sec := 0, ns := 0, frac := 0 }) s
       && decide (p.gatePend = (0, 1, 1) :: []) && decide (q.gatePend = (1, 1, 1) :: [])) = true := by decide

def acq (post : Nat) : AcqSettings :=
  { src := 2, tsel := 3, ttone := 15, tsrc := 2, pin := 7, ttype := 4, pol := 1, tmask := 0x8000, lo := -32768, hi := 32767, hys := 8192
    nseg := 1, wcond := 1, armsrc := 0, ring := 63, w1 := 1, w2 := 1, tw := 1, rlen := 65536, rbase := 0x18000000, pre := 0, post }

theorem witness_AcqInRule : Sys2Proof.Claims.AcqInRule (acq (capacity (acq 1))) :=
  ⟨by decide, by decide, by decide, by decide, by decide, by decide, by decide, by decide⟩

theorem witness_AcquisitionCommands :
    (let a := { acq 1 with src := 0, tsel := 0 }
     let s := (base .run).setRing 63 { dev := true }
     let e (st : AcqSt) (a : AcqSettings) := s.setEngine 15 { st, set := a, lat := a }
     let load := (e .idle a).bandwidth 15 a
     served (.acqSet (hd 56) 15 a) s && s.magOk 15 a && (s.ring a.ring).dev && decide ((s.engine 15).st = .idle)
       && served (.acqSet (hd 56) 15 { a with nseg := 2 }) (e .filling a)
       && served (.acqArm (hd 4) 15) (e .idle a) && served (.acqArm (hd 4) 15) (e .done a) && served (.acqArm (hd 4) 15) (e .filling a)
       && !((e .idle a).setDom 5 {}).isOn 5 && served (.acqArm (hd 4) 15) ((e .idle a).setDom 5 {})
       && (e .idle a).isOn 5 && (e .idle a).isOn 4 && (e .idle a).isOn 19 && !(e .idle a).testing 5 && !(e .idle a).testing 19
       && decide (load.1 ≤ 40000 * load.2) && decide (((e .idle a).engines.filter fun x => x.1 != 15) = [])
       && [AcqSt.primed, .filling, .waiting, .rearming, .idle, .done].all (fun st => served (.acqDisarm (hd 4) 15) (e st a))) = true := by
  decide

theorem witness_AcquisitionBandwidth :
    (let a := { acq 1 with src := 0, tsel := 0 }
     let s := (base .run).setRing 63 { dev := true }
     let far (k : Nat) : Engine := { st := .filling, lat := { a with rbase := 0x18000000 + 65536 * (k + 1) } }
     let u := (s.setEngine 15 { set := a }).setEngine 0 (far 0) |>.setEngine 1 (far 1) |>.setEngine 2 (far 2) |>.setEngine 3 (far 3)
     let load := ((u.engines.filter fun x => x.1 != 15).map fun x => u.bandwidth x.1 x.2.lat).foldl addRatio (u.bandwidth 15 a)
     served (.acqArm (hd 4) 15) u && decide (40000 * load.2 < load.1)) = true := by
  decide

/-! ### Time -/

theorem witness_TimeSetCommands :
    (let s := base .ready
     let n : State := { s with alignArm := some (.at 5 true) }
     let d : DomSettings := { source := 3, port := 7, profile := 1, ptpdom := 127, transport := 1, delay := -1000000, bw := 10000 }
     let v : ServoArgs := { selmode := 1, revert := 1, slew := 10000, slewacc := 0, hlimit := 10, hwander := 1000000 }
     served (.timeSetStepAbs (hd 24) ten) s && s.stepAllowed && s.time.stepPend.isNone && served (.timeSetStepAbs (hd 24) ten) n
       && !n.stepAllowed && served (.timeSetStepRel (hd 24) (2 ^ 47)) s && served (.timeSetStepRel (hd 24) 0) n
       && [0, 1].all (fun k => served (.timeSetDomain (hd 24) k d) s && decide (s.time.sel ≠ k ∨ s.time.st ≠ .tracking))
       && served (.timeSetDomain (hd 24) 0 d) { s with time := { sel := 0, st := .tracking } }
       && served (.timeSetServo (hd 24) v) s && served (.timeSetServo (hd 24) { v with hlimit := 1000000000 }) s
       && served (.timeSetUtc (hd 24) (-32768)) s && served (.timeSetUtc (hd 24) 32767) s) = true := by decide

theorem witness_TimeSelectionAndTimers :
    (let s := base .ready
     let r (far : Bool) : State := s.setTdom 1 { s.tdom 1 with st := .tracking, far }
     let a (element index len period : Nat) (start : Stamp) : TimerArgs :=
       { element, index, pol := 0, root := 0xFFFFFFFF, period, len, count := 0, start }
     let all (start : Stamp) : List TimerArgs :=
       [a 0 63 0 16 start, a 1 15 1 0 start, a 1 15 1 2 start, a 2 3 20 0 start, a 2 3 20 40 start]
     served (.timeSelect (hd 4) 0xFF) s && served (.timeSelect (hd 4) 0) s && decide ((s.tdom 0).st ≠ .tracking)
       && served (.timeSelect (hd 4) 1) (r false) && (r true).stepAllowed && decide ((r true).tdom 1 = { s.tdom 1 with st := .tracking, far := true })
       && !{ r true with alignArm := some (.at 5 true) : State }.stepAllowed
       && (all ten ++ all early).all (fun a => served (.timeTimerArm (hd 48) a) s && !(s.elem a.element a.index).active)
       && ((s.setElem 2 3 { active := true }).elem 2 3).active) = true
    ∧ (base .ready).coarseOf (stampTicks ten) = 200000 ∧ (base .ready).coarseOf (stampTicks early) < 200000
    ∧ ([(0, 63), (1, 15), (2, 3)].all fun e => served (.timeTimerStop (hd 48) e.1 e.2) (base .ready)) = true := by decide

theorem witness_IntervalUnitCommands :
    (let s := ((base .ready).setRing 63 { dev := true }).setStampChan 0 { locked := true, cald := 31 }
     let a (mode : Nat) (start : Stamp) : TiuArgs :=
       { mode, srca := 7, srcb := 0, edge := if mode = 1 then 2 else 1, ring := 63, div := 65536, count := 0, gate := 2 ^ 46, start }
     let n : Stamp := { sec := 0, ns := 0, frac := 0 }
     [0, 1, 2, 3].all (fun m => served (.tiuMeasureStart (hd 40) 3 (a m ten)) s && served (.tiuMeasureStart (hd 40) 3 (a m n)) s)
       && s.stamps (srcChan 7) && !s.stamps (srcChan 8) && served (.tiuMeasureStart (hd 40) 3 { a 2 ten with srcb := 10 }) s
       && served (.tiuMeasureStart (hd 40) 3 { a 1 ten with srca := 10 }) s && !(s.tiuEng 3).running
       && ((s.setTiuEng 3 { running := true }).tiuEng 3).running && served (.tiuMeasureStop (hd 40) 3) s
       && decide ((s.now : Int) + 200000 = s.coarseOf (stampTicks ten)) && decide (s.coarseOf (stampTicks early) < 200000)) = true := by
  decide

/-! ### Queries, calibration, power, proof, links -/

/-- Each query just fits and just does not; each kind of STATUS_QUERY is served; containers loaded, refused and damaged. -/
theorem witness_QueriesWriteTheirRecord :
    (let s := base .run
     let c (r : Nat) : State := { s with patches := { conts := [{ patchId := 1, patchVer := 1, secVer := 1, result := r, first := 0, words := 0 }] } }
     [71, 72].all (fun n => served (.timeQuery (hd 24) n) s) && [31, 32].all (fun n => served (.tiuMeasureQuery (hd 40) 3 n) s)
       && (List.range 18).all (fun k => served (.statusQuery (hd 24) k 0 4096) s)
       && [31, 32].all (fun n => [0, 4, 5].all fun k => served (.ledgerQuery (hd 24) k 0 n) s)
       && (s.ledger 0 0).isSome && (s.ledger 4 63).isSome && (s.ledger 4 64).isNone && (s.ledger 5 31).isSome && (s.ledger 5 32).isNone
       && [0, 3, 6, 7].all (fun r => served (.patchStatus (hd 24) 4096) (c r) && decide ((c r).patchRec.length ≤ 4096))
       && [(0x5FF, 48), (0x600, 47), (0x600, 48), (0x607, 48), (0x608, 48), (0x608, 47), (0x609, 48)].all
         (fun e => served (.linkStatus (hd 24) e.1 e.2) s)) = true := by decide

theorem witness_CalibrationCommands :
    (let s := base .ready
     let m := s.modCal 0 fun c => { c with st := 1 }
     let b := (s.setBurin 0 { ctab := some (0, 2, 0) })
     let q (l : List Nat) : State := { s with calib := { trimQ := [(0x11, l)] } }
     [0, 65536].all (fun r => served (.calRun (hd 12) 1 0x300 r) s) && served (.calRun (hd 12) 3 0xFFFFFFFF 0) s
       && (namedInsts 3 0xFFFFFFFF ++ namedInsts 1 0x30F).all (fun i => (s.calI i).st == 0 && s.isOn (instDom i) && !s.testing (instDom i))
       && served (.calRun (hd 12) 1 0x300 0) m && decide ((m.calI 0).st = 1)
       && served (.calRun (hd 12) 2 0 0) b && b.calTarget 2 0 && decide (b.centBurins 0 = [0]) && !(b.cent 0).on && !(b.scope 2).auto
       && served (.calRun (hd 12) 0x11 0x30F 0) s && !s.instUsed 15 && decide (instOf 0x11 0x30F = some 15)
       && served (.calRun (hd 12) 0x12 0x10F 0) s && served (.calRun (hd 12) 0x13 0x203 0) s
       && served (.calRun (hd 12) 0x11 0x305 0) (q [7, 3, 9]) && served (.calRun (hd 12) 0x11 0x309 0) (q [7, 3, 9])
       && decide ([3, 9].Pairwise (· < ·)) && served (.calRun (hd 12) 0x12 0 0) (going .run) && (going .run).instUsed 16
       && [(2, 0, 0), (1, 0x300, 1), (1, 0x300, 0), (0x13, 0xFFFFFFFF, 0)].all (fun e => served (.calCommit (hd 12) e.1 e.2.1 e.2.2) s)
       && (0 :: namedInsts 0x13 0xFFFFFFFF).all s.windowOpen
       && [(8, 16), (480, 65535), (0, 0)].all (fun e => served (.calSet (hd 16) 0x13 true e.1 e.2 4096 65536) s)) = true := by decide

theorem witness_PowerCommands :
    (let s := base .configure
     let d (st : DomSt) : State := s.setDom 23 { st }
     let c (st : Nat) : Instr := .powerSetDomain (hd 16) 23 st 0xFFFF
     let g := going .run
     let w : State := { d .off with chans := [(4095, { bound := true, kind := 1 })] }
     [(0, 0), (1, 2), (2, 1)].all (fun e => served (.powerSetDomain (hd 16) e.1 e.2 0xFFFF) s)
       && [DomSt.on, .retention, .off, .entering, .waking].all (fun st => [0, 1, 2].all fun k => served (c k) (d st))
       && served (.powerSetDomain (hd 16) 23 2 4095) w && (w.chan 4095).bound && !(d .on).domInUse 23
       && served (.powerSetDomain (hd 16) 6 2 0xFFFF) g && g.isOn 6 && g.domInUse 6
       && served (.powerSetDomain (hd 16) 6 2 0xFFFF) (held .ready) && !(held .ready).domInUse 6
       && decide ((held .ready).domConfigured 6 = some 0) && ((d .off).hotNode 23).isNone) = true
    ∧ (let s : State := { (base .configure).setDom 23 { st := .off } with house := { nodes := [(23, { level := 3 })] } }
       served (.powerSetDomain (hd 16) 23 0 0xFFFF) s = true ∧ s.hotNode 23 = some 23)
    ∧ served (.powerSetGovernor (hd 16) { mode := 1, vmin := 650, vmax := 850, vfixed := 850, nearlate := 125, lower := 1250 })
      (base .run) = true
    ∧ served (.powerSetGovernor (hd 16) { mode := 0, vmin := 850, vmax := 850, vfixed := 650, nearlate := 0, lower := 10 })
      (base .run) = true := by decide

theorem witness_ProofAndFaultCommands :
    (let s := base .configure
     let full := [0, 1, 2, 3].foldl (fun s k => s.setProof k { active := true, kind := 1, cell := k + 16 }) s
     let most := full.setProof 3 {}
     [2, 24].all (fun d => served (.proofRun (hd 8) 0 d 1 0) s) && served (.proofRun (hd 8) 0 3 0 0) s
       && [3, 23].all (fun d => served (.proofRun (hd 8) 0 d 3 0) s && s.isOn d && !s.proofBusyOn { kind := 0, domain := d, tests := 3 })
       && served (.proofRun (hd 8) 0 4 2 0) (base .proof) && served (.proofRun (hd 8) 1 0 1 0) s && s.cellExists 0
       && decide (s.cellDevs 0 = []) && (ProofRun.doms s { kind := 1, cell := 0 }).all s.isOn && !s.proofBusyOn { kind := 1, cell := 0, tests := 1 }
       && served (.proofRun (hd 8) 1 0 1 0) full && served (.proofRun (hd 8) 1 0 1 0) most && !(most.proof 3).active
       && !most.proofBusyOn { kind := 1, cell := 0, tests := 1 }
       && s.isLocal 0
       && (List.range 6).all (fun k => served (.faultClear (hd 8) k 0xFFFFFFFF) s && (s.devsOf (s.clearRoots k 0xFFFFFFFF)).isEmpty
         && (clearScope k 0xFFFFFFFF true (takeEntry 0 s)).isSome)) = true
    ∧ 7 ∈ ({ base .safe with devFault := { codes := [7] } } : State).devFault.codes ∧ (base .safe).time.st ≠ .holdover
    ∧ ((base .run).setChan 4095 { stormFlag := true }).chan 4095 = { stormFlag := true } := by decide

def ring (flags : Nat) : RingArgs :=
  { ring := 63, flags, vec := 63, dbase := 0x10000000, dlen := 65536, cnt := 65535, hbase := 4096, hlen := 4096, itime := 0, ctrl := 64 }

theorem witness_LinkAndRingCommands :
    (let s := base .run
     let v := base .service
     let over_ := s.setRing 0 { dev := true, dbase := 0x10000000, dlen := 65536 }
     let used := (s.setRing 63 { dev := true, dbase := 0x10000000, dlen := 131072, recs := [{ bytes := pad 32, pads := 0, tag := none }] })
     let hosted := s.setRing 63 { host := true, hbase := 0, hlen := 4096, ctrl := 64 }
     served (.linkSet (hd 16) 0x608 13 0 3 0 32) s && served (.linkSet (hd 16) 0x608 13 0 3 0 32) v && v.isOn 3 && !v.testing 3
       && served (.linkSet (hd 16) 0x608 9 0 0 0 0) s && [0x600, 0x607].all (fun p => served (.linkSet (hd 16) p 7 2 0 0 0) s)
       && !s.portInUse 7 && [0, 1, 3, 7].all (fun f => served (.ringSet (hd 48) (ring f)) s) && inRing 0x10000000 65536
       && served (.ringSet (hd 48) (ring 1)) over_ && over_.ringOverlap (ring 1) && !s.ringOverlap (ring 1)
       && served (.ringSet (hd 48) (ring 1)) used && served (.ringSet (hd 48) (ring 2)) hosted
       && [0, 4, 1024].all (fun d => served (.hkSet (hd 12) d [(320, 0xFFFF)]) (base .ready))
       && served (.netSetDevnum (hd 24) 16383) v
       && served (.netSetDevnum (hd 24) 5) (v.setPlate 0 { st := .shadow })
       && served (.netSetRoutes (hd 24) 0x08000000 16383 1) v && srcOk 0x08000000 1 && v.isOn 4 && !v.poisoned 0x08000000 1
       && (v.bytesAt 0x08000000 1).all (fun b => decide (b.toNat < 8 ∨ b.toNat = 0xFF))) = true := by decide

/-! ### The host interface, the sideband, reset and boot -/

/-- A doorbell one past the depth and one at it; a consumed count one past what is written. -/
theorem witness_HostRegisterWrites : (base .run).isOn 2 = true ∧ (base .run).host.linkUp = true ∧ (base .run).depthNow = 256
    ∧ ((base .run).sq 0).en = true ∧ (257 + 65536 - ((base .run).sq 0).completed) % 65536 = 257
    ∧ ((base .run).sq 1).en = false ∧ ((base .run).cq 0).en = true ∧ ((base .run).cq 0).written = 0
    ∧ State.reset.isOn 2 = false := by decide

theorem witness_HostInterfaceEvents :
    (let s (n : Nat) : State := { base .run with now := n, host := { (base .run).host with hbStart := some 0, hbTimeout := 1 } }
     let e : Completion := { cmdId := 1, sq := 0, phase := true, status := 0, sqHead := 1, result := 0 }
     let c : State := (base .run).setCq 0 { en := true, held := [e] }
     let i (itime : Nat) : State := (base .run).setCq 0 { en := true, ien := true, itime, unsigAt := some 0 }
     let j (n itime : Nat) : State := { i itime with now := n }
     decide (((j 20000 1).cq 0).unsigAt = some 0) && ((j 20000 1).cq 0).ien && decide (0 + 20000 * ((j 20000 1).cq 0).itime ≤ (j 20000 1).now)
       && decide ((j 19999 1).now < 0 + 20000 * ((j 19999 1).cq 0).itime) && decide (((i 0).cq 0).itime = 0)
       && decide ((s 20000000).host.hbStart = some 0) && decide (0 + 20000000 * 1 ≤ (s 20000000).now)
       && decide ((s 19999999).now < 20000000) && decide ((base .run).host.hbStart = none)
       && decide ((c.cq 0).held = [e]) && c.cqFree 0 && decide (((base .run).cq 0).held = []) && !(c.cq 0).ien) = true := by decide

theorem witness_PackageMemoryThroughBar2 :
    (let s := base .run
     let off := s.setDom 4 {}
     let bad : State := { s with mem := { poison := [33554431] } }
     s.isOn 2 && s.host.linkUp && s.isOn 4 && !s.poisoned (2 ^ 30 - 1) 1 && bad.poisoned (2 ^ 30 - 1) 1 && off.isOn 2 && !off.isOn 4
       && !inRing 0x0FFFFFFF 1 && !s.inStreamed 0x0FFFFFFF && inRing 0x10000000 1 && inRing 0x17FFFFFF 1 && !inRing 0x18000000 1) = true := by
  decide

theorem witness_SidebandRequests :
    (let s := base .configure
     let r := powerReply true 0 2 2 0xFFFF { s with side := { s.side with pwrReq := 0x00FFFF42#32 &&& 0x00FFFF7F#32 } }
     let n := powerReply true 0 1 0 0xFFFF s
     let p : ProofRun := { kind := 0, tests := 1, domain := 3 }
     s.sys.railsOk && decide (s.sys.mode ≠ .boot) && !s.side.pwrBusy && !s.side.proofBusy && decide (s.sys.resetAt = none)
       && decide (r.status = 0) && decide (n.status = 2) && decide ((proofReply p s).status = 0) && decide ((proofRequest 0 3 1 0 s).status = 0)
       && decide ((proofRequest 0 2 1 0 s).status ≠ 0)
       && decide ((proofReply { p with domain := 2 } s).status = 2) && State.reset.sys.railsOk && decide (State.reset.sys.mode = .boot)
       && decide ((s.dom 2).st = .on) && !s.domInUse 2 && (base .calibrate).sys.railsOk && !(base .calibrate).side.proofBusy
       && { s with side := { pwrBusy := true, proofBusy := true } : State }.side.pwrBusy) = true := by decide

theorem witness_SidebandAddressing : State.reset.side.dyn = none
    ∧ ({ State.reset with side := { dyn := some 9 } } : State).side.dyn = some 9 := by decide

theorem witness_ResetsAndSupplies : State.reset.sys.railsOk = true ∧ State.reset.sys.resetAt = none ∧ State.reset.sys.resetLow = false
    ∧ ({ State.reset with now := 7, sys := { resetAt := some 7, resetLow := true } } : State).sys.resetAt = some 7 := by decide

def booting (n : Nat) : State := { State.reset with boot := { step := n } }

/-- Bytes closed by their check word (R502). -/
def sealed (l : List Byte) : List Byte := l ++ le 4 (crc32c l)

def hdr : BootHdr :=
  { bytes := sealed (le 4 0x4248485A ++ le 2 1 ++ pad 2 ++ le 4 0 ++ le 4 4096 ++ pad 44), flashSize := 8192 }

def cfg (i2cAddr : Nat) : BootCfg :=
  { bytes := sealed (le 4 0x4343485A ++ le 4 0xFFFFF8 ++ le 2 0xBFFF ++ le 1 i2cAddr ++ le 1 3 ++ le 1 255 ++ pad 47) }

/-- A container in rule but for its magic, and for part 0. -/
def torn (magic : Nat) : Container :=
  { bytes := le 4 magic ++ le 2 1 ++ le 2 256 ++ pad 16 ++ le 4 8 ++ pad 236 }

/-- A directory of one such container. -/
def tornDir : PatchDir := { head := le 2 1 ++ pad 14 ++ le 4 0 ++ le 4 264, conts := [torn 0] }

/-- The check value that R502 gives for the bytes "123456789". -/
theorem test_check_word : crc32c (le 9 0x393837363534333231) = 0xE3069283 := by decide +kernel

/-- The boot configuration at both ends of the address range and outside it. -/
theorem witness_BootStepsAdvance_flash : (bootHdrOk hdr false && bootHdrOk hdr true && bootCfgOk (cfg 0) && bootCfgOk (cfg 8)
    && bootCfgOk (cfg 0x77) && !bootCfgOk (cfg 0x78)) = true := by decide +kernel

theorem witness_BootStepsAdvance : ([1, 2, 3, 4, 5, 6].all fun n => (booting n).booting n && !(booting n).booting (n + 1)) = true
    ∧ (booting 4).boot.offmask.testBit 3 = false ∧ ({ booting 4 with boot := { step := 4, offmask := 8 } } : State).boot.offmask.testBit 3 = true
    ∧ contResults false (max Config.fusedPatchMin.val 0) [] ((sortConts (dirConts tornDir)).take 8) = [1]
    ∧ (booting 6).devFault.codes = [] ∧ ({ booting 6 with devFault := { codes := [8] } } : State).devFault.codes ≠ [] := by decide

theorem test_firmware_of_another_magic_fails : slotResult (max Config.fusedFwMin.val 0) (torn 0x4D43485A) = 1 := by decide

/-- A change of mode whose cells still stop goes on when the link goes down, with no completion (R405, R517). -/
theorem test_link_down_keeps_a_mode_change :
    (let f : InFlight := { cmdId := 1, opcode := 0x03, wait := .cellsStopped, status := 0, result := 0, cell := none, what := 0, target := 0 }
     let t := closeSession ((base .run).modSq 0 fun k => { k with flight := [f] })
     decide ((t.sq lateQueue).flight = [f]) && decide ((pump t).sys.mode = .ready) && decide (((pump t).sq lateQueue).flight = [])
       && decide (((pump t).cq 0).written = 0) && decide ((closeSession (base .run)).host.sqs.length ≤ 1)) = true := by decide

/-! ### Words and instructions -/

/-- One word of each format, its bits written out from R96 and R97: the instruction spells it and it reads back. -/
def words : List (Instr × Nat) :=
  [(.end_ 1, 0x01000000), (.jmp 1 0xFFFE, 0x0200FFFE), (.blt 1 3 12 0xFFFF, 0x0A3CFFFF), (.jt 1 5 15, 0x035F0000)
  , (.rep 1 9 255, 0x04FF9000), (.repi 1 0x1234 0, 0x05001234), (.sub 1 1 2 3, 0x11123000), (.addi 1 1 2 0x8001, 0x20128001)
  , (.extu 1 1 2 5 8, 0x2C122A00), (.leap 1 5 3 12 2, 0x36AF2000), (.ld 1 5 { pa := 6, form := .post 3 }, 0x405CE000)
  , (.st 1 5 { pa := 6, form := .index 11 }, 0x415C1680), (.cmacm 1 1 5 { pa := 6, form := .plain }, 0x675C0100)
  , (.dsq 1 5 6 (some 3) 1 (some 2), 0x585CE540), (.rnd 1 5 3 33, 0x6850E100), (.put 1 7 5 6 (some 3), 0x8057CE00)
  , (.argmin 1 5 6 15, 0x705DE000), (.mfs 1 5 3, 0xC1530000)]

theorem test_words : (words.all fun e => decide (wordOf e.1 = some (1, e.2)) && decide (readWord 1 e.2 = some e.1)) = true := by decide

/-- A memory operand with u and x both 1, a field that must be 0 and an opcode without a row are refused at CELL_LOAD (R99). -/
theorem test_refused_words : ([0x405C2080, 0x01000001, 0x06000000].all fun w => !wordOk (fun _ => false) w) = true
    ∧ wordOk (fun _ => false) 0x405C0000 = true := by decide

/-- The word of an instruction stands at pc 0 of its burin, which runs. -/
def poised (i : Instr) : State :=
  match wordOf i with
  | some (b, w) => (base .run).setBurin b.val { loaded := true, running := true, imgLen := 1, buf := [(0, BitVec.ofNat 32 w)] }
  | none => State.reset

def last : BurinId := 1023

def intSamples : List Instr :=
  [.nop last, .add last 15 0 15, .sub last 15 15 0, .and_ last 0 1 2, .or_ last 0 1 2, .xor_ last 0 1 2, .shl last 0 1 2, .shr last 0 1 2
  , .sar last 0 1 2, .mul last 0 1 2, .mulh last 0 1 2, .min last 0 1 2, .max last 0 1 2, .minu last 0 1 2, .maxu last 0 1 2
  , .adds last 0 1 2, .subs last 0 1 2, .addi last 0 1 0xFFFF, .andi last 0 1 2, .ori last 0 1 2, .xori last 0 1 2, .shli last 0 1 31
  , .shri last 0 1 31, .sari last 0 1 31, .movi last 0 0x8000, .movhi last 0 1, .addpi last 14 0xFFFF, .addp last 14 2, .mov last 0 15
  , .extu last 0 1 0 31, .exts last 0 1 31 0, .shin last 0 1 31, .dep last 0 1 0 31]

def pointerSamples : List Instr :=
  [.movpi last 7 0xFFF, .movmi last 7 0x800, .movpg last 7 15, .movgp last 15 7, .movmg last 7 15, .modp last 7 7, .leap last 7 0 15 3
  , .ld last 15 { pa := 7, form := .plain }, .st last 15 { pa := 7, form := .post 7 }, .ldd last 14 { pa := 7, form := .index 15 }
  , .std last 14 { pa := 7, form := .plain }, .ldx last 0 7 15, .stx last 0 7 15]

def dataSamples : List Instr := List.append intSamples pointerSamples

def signalSamples : List Instr :=
  [.cadd last 0 1 2, .csub last 0 1 2, .csubm last 0 1 7 .index, .cmulr last 0 1 2, .cconj last 0 1, .cscl last 0 1 2, .cmag2 last 0 1
  , .wsq last 0 1 7 (.post 7), .dsq last 0 7 (some 7) 7 (some 7), .cpk last 0 1 2, .clra last 3, .mova last 3 15, .mac last 3 0 1
  , .msu last 3 0 1, .cmul last 1 0 1, .cmac last 1 0 1, .cmacj last 1 0 1, .cmacm last 1 0 { pa := 7, form := .index 15 }
  , .rnd last 15 3 47, .rndc last 15 1 47, .sha last 3 47]

def flowSamples : List Instr :=
  [.jmp last 0x8000, .jt last 15 15, .rep last 15 255, .repi last 0xFFFF 255, .beq last 0 15 0x7FFF, .bne last 0 1 0, .blt last 0 1 0
  , .bge last 0 1 0, .bltu last 0 1 0, .bgeu last 0 1 0, .beqz last 0 0, .bnez last 15 0xFFFF]

def bestSamples : List Instr := [.argmin last 14 7 15, .argmax last 14 7 0, .argmins last 14 7 15, .argmaxs last 14 7 0]

def outsideSamples : List Instr :=
  [.qfree last 15 15, .dpoll last 15 3, .iqpoll last 0, .now last 14, .mts last 3 15, .mts last 4 15, .evs last 7, .evt last 0 7, .evw last 7
  , .dsend last 3 15, .drecv last 15 3, .waitt last 14, .waitq last 15 15, .waitc last 3, .iqrd last 13, .put last 15 14 7 none
  , .rec_ last { pa := 7, form := .plain }, .end_ last, .mfs last 15 0, .mfs last 15 1, .mfs last 15 2, .mfs last 15 3, .mfs last 15 4
  , .mfs last 15 5]

theorem witness_WordsReadBack :
    ([dataSamples, signalSamples, flowSamples, bestSamples, outsideSamples].all fun l => l.all fun i => (wordOf i).isSome) = true := by decide

theorem witness_DataInstructionsComplete :
    (dataSamples.all fun i => Issues i (poised i) && (Sys2Proof.Claims.dataEffect i).isSome) = true
    ∧ (bestSamples.all fun i => Issues i (poised i)) = true
    ∧ (Sys2Proof.Claims.bestOf (.argmin last 14 7 15)).isSome = true := by decide

theorem witness_SignalInstructionsComplete :
    (signalSamples.all fun i => Issues i (poised i) && (Sys2Proof.Claims.signalEffect i).isSome) = true := by decide

theorem witness_FlowInstructions :
    (flowSamples.all fun i => Issues i (poised i) && (Sys2Proof.Claims.flowEffect i).isSome) = true
    ∧ Issues (.end_ last) (poised (.end_ last)) = true
    ∧ (let l : List Loop := [{ first := 2, last := 3, left := 1 }, { first := 1, last := 3, left := 2 }]
       l.Pairwise (fun x y => y.first ≤ x.first ∧ x.last ≤ y.last)) := by decide

/-- Each waits and goes on in one of these states; a patch redirects opcode 0 to a microword that ends at once, and to
one of a reserved class. -/
theorem witness_OutsideInstructions :
    (outsideSamples.all fun i => Issues i (poised i)) = true
    ∧ Issues (.patchOpcode last 31 0) (poised (.patchOpcode last 31 0)) = true
    ∧ (let e := (poised (.evw last 7)).ep 1 1023 7
       (poised (.evw last 7)).flagged e = false
       ∧ ((poised (.evw last 7)).setChan 5 { bound := true, kind := 1, cons := [e], con := [(0, { flag := true })] }).flagged e = true)
    ∧ (let s := poised (.dsend last 3 15)
       let e := s.ep 2 1023 3
       s.chanOfProd e = none ∧ (s.setChan 5 { bound := true, kind := 2, prods := [e] }).chanOfProd e = some 5
       ∧ ((s.setChan 5 { bound := true, kind := 2, prods := [e], credits := 0 }).chan 5).credits = 0)
    ∧ (let s := poised (.nop last)
       let p (m : BitVec 24) : State := { s with patches := { dispatch := [(0, some 4095)], words := [(4095, m)] } }
       s.fetched 1023 0 = true ∧ tget none (p 0x080000).patches.dispatch 0 = some 4095
       ∧ bits ((p 0x080000).microword 4095) 20 4 = 0 ∧ bits ((p 0x080000).microword 4095) 16 3 = 0
       ∧ bits ((p 0x080000).microword 4095) 19 1 = 1 ∧ bits ((p 0xB00000).microword 4095) 20 4 = 11) := by decide

theorem witness_OneInstructionIssues : Issues (.add last 15 0 15) (poised (.add last 15 0 15)) = true
    ∧ Issues (.sub last 15 0 15) (poised (.add last 15 0 15)) = false
    ∧ (poised (.add last 15 0 15)).fetched 1023 0 = false := by decide

/-! ### Shots, tones and Z channels -/

/-- A start event is due exactly a start lead before its origin, and not a tick earlier; each clause of the entries'
order, slack and floor at its edge; both ends of the governor's bands. -/
theorem witness_ShotEvents :
    (let g (t : Nat) : State := { going .run with now := t }
     let e (rel : Int) : Entry := { release := rel, rel48 := 0, shot := 0, burin := 0, words := [] }
     let q (rel : Int) (last : Option Nat) : State := (held .run).setQueue 0 { xbar := [e rel], floor := 20, lastArrived := last }
     let d : Due := { ord := 1, shot := 0, origin := 16 }
     let r (t : Nat) : State := { (held .run).setRoot 0 { running := true, due := [d] } with now := t }
     decide (((g 1559999).root 0).series ≠ []) && ((g 0).root 0).running && decide (1559999 + (g 0).lead 0 < 1600000)
       && decide (1600000 = 1560000 + (g 0).lead 0) && decide (((base .run).root 0).series = [])
       && decide (((r 15).root 0).due = [d]) && decide (((r 16).root 0).due = [d]) && !((base .run).burin 0).running
       && decide (((q 320 none).queue 0).xbar = [e 320]) && decide ((20 : Int) * 16 ≤ 320 - 0)
       && decide ((319 : Int) - 0 < 20 * 16) && decide ((0 : Int) - 0 ≤ 0) && decide (((q 320 (some 320)).queue 0).lastArrived = some 320)) = true
    ∧ (let s : State := (base .run).setRoot 0 { drop := true, dropped := 3 }
       let t := s.setRing 0 { dev := true, dlen := 65536 }
       (s.root 0).drop = true ∧ (s.root 0).gaps = []
       ∧ (ringPut (s.streamRing 0) (withSeq (gapRec 4 false 0 1 0 3) 0) none s).isNone = true
       ∧ (ringPut (t.streamRing 0) (withSeq (gapRec 4 false 0 1 0 3) 0) none t).isSome = true)
    ∧ (let v (m : Option Int) (q : Nat) : Governor := { on := true, margin := m, quiet := q }
       (v (some 159) 0).margin = some 159 ∧ (159 : Int) < (v none 0).nearLate * 16 ∧ ((v none 0).lower : Int) * 16 < 801
       ∧ (v none 15).quiet + 1 = 16 ∧ ¬((v none 0).lower : Int) * 16 < 800 ∧ State.reset.gov.on = false
       ∧ (v none 0).since + 2000000 ≤ ({ base .run with now := 2000000, gov := v none 0 } : State).now
       ∧ ({ base .run with now := 1999999, gov := v none 0 } : State).now < (v none 0).since + 2000000)
    ∧ (let b (k : Burin) : State := (base .run).setBurin 0 k
       let n : NullEntry := { slot := 0, release := 5 }
       let h (post : Option (Nat × Nat)) : Hold := { slot := 15, entry := { release := 0, rel48 := 0, shot := 0, burin := 0, words := [] }, post, micro := false }
       ((b { fetching := some 1, imgLen := 12 }).burin 0).fetching = some 1 ∧ (b {}).isOn 4 = true ∧ (b {}).poisoned 32 32 = false
       ∧ (b { held := [{ shot := 0, origin := 0 }] }).burin 0 = { held := [{ shot := 0, origin := 0 }] }
       ∧ (∃ e ∈ ({ b { nulls := [n] } with now := 5 }.burin 0).nulls, e.release ≤ (5 : Int)) ∧ (4 : Int) < n.release
       ∧ (b { hold := some (h none) }).slotCredits 0 15 = 256 ∧ ((b { hold := some (h (some (7, 7))) }).burin 0).hold = some (h (some (7, 7)))
       ∧ ((b { waiting := some (.waitt 0), origin := 1 }).waitHolds 0 (.waitt 0) = false)
       ∧ ((b { waiting := some (.waitt 0) }).waitHolds 0 (.waitt 0) = true)) := by decide

def entry (words : List Word) : Entry := { release := 8, rel48 := 8, shot := 0, burin := 0, words }

theorem witness_ToneAndZEvents :
    (let q (res now : Nat) (w : List Word) : State := { (base .run).setQueue res { entries := [entry w], floor := 20 } with now }
     (releaseHead 0 (q 0 7 [3, 0, 0, 0])).isNone && (releaseHead 0 (q 0 8 [3, 0, 0, 0])).isSome && (releaseHead 0 (base .run)).isNone
       && decide ((entry [1, 0, 0, 0]).toneKind = some 1) && decide ((entry [0x03FF0101, 0, 0, 0]).toneKind = some 1)
       && decide ((entry [0x1F02, 0xFFFFFFFF, 0xFFFFFFFF, 0xFFFF]).toneKind = some 2) && decide ((entry [0x1F02, 0, 0, 0x10000]).toneKind = none)
       && decide ((entry [3, 0, 0, 0]).toneKind = some 3) && decide ((entry [4, 0, 0, 0]).toneKind = some 4)
       && decide ((entry [0x104, 1023, 0, 0]).toneKind = some 4) && decide ((entry [0x104, 1024, 0, 0]).toneKind = none)
       && decide ((entry [0x11, 0x3FFFF, 0, 0]).zKind = some 0x11) && decide ((entry [0x11, 0x40000, 0, 0]).zKind = none)
       && decide ((entry [0x00FF0112, 0xFFFF, 0, 0]).zKind = some 0x12) && decide ((entry [0x13, 0, 0, 0]).zKind = some 0x13)
       && (releaseHead 0x20FF (q 0x20FF 8 [0x13, 0, 0, 0])).isSome) = true
    ∧ (let x (last : Bool) : StepE := { seg := 0, rep := 0, next := 1, last, jump := 2, jsrc := 1, evs := false, mke := false, mrk := 0 }
       let b : Bank := { segs := [(0, { len := 64 }), (1, { len := 63 })], steps := [(0, some (x false)), (1, some (x true)), (2, some (x false))] }
       let p (step : Option Nat) (len : Nat) (take : Option Nat) : Play :=
         { rel := 0, start := 0, bank := 0, seg := 0, len, step, rep := 0, evs := false, mke := false, mrk := 0, amp := 0, phase := 0
           foff := 0, decided := take.isSome, take }
       let s (y : Play) (now : Nat) : State := { ((base .run).setTone 0 { play := some y }).setPort 0 { banks := { b0 := b } } with now }
       ((s (p (some 0) 64 none) 0).stepOf 0 (p (some 0) 64 none) = some (x false)) ∧ 0 + 8 * 64 ≤ 0 + 512
       ∧ ((s (p (some 0) 63 none) 504).stepOf 0 (p (some 0) 63 none) = some (x false)) ∧ 0 + 8 * 63 = 504
       ∧ tget none ((s (p (some 0) 63 none) 504).playBank 0 (p (some 0) 63 none)).steps 1 = some (x true)
       ∧ (tget {} ((s (p (some 0) 63 none) 504).playBank 0 (p (some 0) 63 none)).segs (x true).seg).len = 64
       ∧ ((s (p (some 1) 63 none) 504).stepOf 0 (p (some 1) 63 none) = some (x true)) ∧ (p (some 0) 64 (some 2)).take = some 2
       ∧ ((s (p none 64 none) 512).tone 0).play = some (p none 64 none)
       ∧ (let t := s (p (some 0) 64 none) 0
          let e := t.ep 5 (resUnit 0) 0
          (t.setChan 5 { bound := true, kind := 1, cons := [e], con := [(0, { flag := true, latched := 7 })] }).latchTick e = some 7))
    ∧ (let c (x : ZChan) : State := (base .run).setZ 255 x
       let f (hold : Bool) : Fast := { rel := 0, seg := 0, bank := 0, amp := 0, len := 1, hold, held := false }
       ((c { fast := some (f true) }).z 255).fast = some (f true) ∧ 0 + 16 * (f false).len ≤ 16 ∧ ¬0 + 16 * (f false).len ≤ 15
       ∧ ((c { st := .parked, openAt := some 5 }).z 255).openAt = some 5 ∧ ((c { settleAt := some 5 }).z 255).settleAt = some 5
       ∧ ((c { st := .float }).z 255).st = .float ∧ ((c { st := .parked }).z 255).st = .parked ∧ ((c { st := .driven }).z 255).st = .driven ∧ ((c { st := .safePark }).z 255).st = .safePark
       ∧ (c { st := .driven }).plausHeld (zDom 255) = false ∧ ((c { st := .driven }).owner 0x20FF).isNone = true
       ∧ ((held .run).owner 0x2000).isSome = true) := by decide

/-! ### Read-out and Hatch -/

theorem witness_ReadoutAndHatchEvents :
    (let s : State := { base .run with alignArm := some (.at 5 false) }
     s.isOn (inDom 15) = true ∧ (State.reset.isOn (inDom 15)) = false ∧ (s.calI 15).st ≠ 3 ∧ (s.rot 255).chain.n ≤ 0 ∧ (s.stipChain 2047).n ≤ 0
     ∧ (0 : Nat) < ((s.setRot 255 { chain := { n := 1 } }).rot 255).chain.n
     ∧ s.alignArm = some (.at 5 false) ∧ { s with now := 5 : State }.now = 5
     ∧ (base .run).toneRuns 255 = true ∧ ((base .run).rot 255).set.tmode = 0
     ∧ ((base .run).setRot 255 { set := { tmode := 1 } }).toneRuns 255 = true ∧ ((base .run).setRot 255 { set := { tmode := 2 } }).toneRuns 255 = false
     ∧ (base .run).stipRuns 15 127 = false
     ∧ ((base .run).modAcqPort 15 fun a => { a with stipOwner := some 0, stip := [(127, { en := true })] }).stipRuns 15 127 = true)
    ∧ (let w : Window := { p0 := 0, nw := 16, endTick := 0, idx := 0, shot := 7, skipped := false, bank := 0, align := false, done := true, fill := [] }
       let s (shot : Nat) (running : Bool) : State := ((held .run).setRot 0 { wins := [w] }).modBurin 0 fun k => { k with running, shot }
       ((s 7 true).rot 0).wins = [w] ∧ (s 7 true).owner 0x1000 = some 0 ∧ ((s 7 true).burin 0).running = true ∧ ((s 7 true).burin 0).shot = 7
       ∧ ((s 8 true).burin 0).shot ≠ 7 ∧ ((s 7 false).burin 0).running = false ∧ ((s 7 true).burin 0).iq.length < 32)
    ∧ (let s := ((base .run).setCent 0 { ramp := some { r := 1, k := 0, vals := [] }, due := true }).setBurin 0 { ctab := some (0, 2, 0) }
       (s.cent 0).due = true ∧ (s.cent 0).ramp = some { r := 1, k := 0, vals := [] } ∧ (s.burin 0).ctab = some (0, 2, 0)
       ∧ (s.burin 0).running = false ∧ (s.burin 0).held = [] ∧ s.proofCovers 0 = false ∧ s.cellPending 0 = false ∧ s.isOn (folioDom 0) = true)
    ∧ (let s (now : Nat) (c : Channel) : State := { (base .run).setChan 4095 c with now }
       let j (k : Nat) (heldEv : Bool) (heldPay : List (BitVec 64)) : Channel := { bound := true, kind := k, rs := 1, inj := [(7, { last := some 0, heldEv, heldPay })] }
       (tget {} ((s 16 (j 1 true [])).chan 4095).inj 7).last = some 0 ∧ 0 + ((s 16 (j 1 true [])).chan 4095).rs * 16 ≤ 16
       ∧ ¬0 + (j 1 true []).rs * 16 ≤ 15 ∧ (tget {} (j 2 false [9]).inj 7).heldPay = [9]
       ∧ (j 2 false [9]).bound = true)
    ∧ (let c (kind : Nat) (x : Channel) : Channel := { x with bound := true, kind }
       let s (x : Channel) : State := (base .run).setChan 0 x
       ((s (c 1 { toGate := [1], stmax := 1, storm := [0] })).chan 0).toGate = [1]
       ∧ (1 : Nat) < ((0 :: ([0] : List Nat).filter fun t => decide (0 < t + 10 * 20000)) : List Nat).length
       ∧ (s (c 1 { toGate := [1] })).gateOpen (c 1 { toGate := [1] }) = true ∧ (s (c 1 { ginv := true })).gateOpen (c 1 { ginv := true }) = false
       ∧ ((s (c 2 { atGate := [1] })).chan 0).atGate = [1] ∧ ((s (c 1 { toLatch := [255] })).chan 0).toLatch = [255]
       ∧ (tget {} (c 1 { con := [(255, { lastWave := some 0 })] }).con 255).lastWave = some 0 ∧ (7 : Nat) < 0 + 8 ∧ (23 : Nat) < 0 + 24
       ∧ (s (c 2 { inFlight := [1], cons := [0x30000000] })).consFar (c 2 { cons := [0x30000000] }) = false
       ∧ (s (c 2 {})).consFar (c 2 { cons := [0xB0000000] }) = true
       ∧ (tget {} (c 2 { con := [(0, { arrivals := [1, 2, 3, 4] })] }).con 0).arrivals.length = 4
       ∧ (c 2 { cons := [0xC0000000] }).soft = true
       ∧ ((base .run).domains.all fun e => e.2.wakeCh.isNone) = true) := by decide

/-! ### Acquisition, markers, timers -/

theorem witness_AcquisitionMarkerAndTimerEvents :
    (let e (k : Engine) (now : Nat) : State := { (base .run).setEngine 15 k with now }
     let flag (s : State) (x t : Nat) : State :=
       s.setChan 5 { bound := true, kind := 1, cons := [x], con := [(0, { flag := true, latched := t })] }
     let arm := State.reset.ep 8 15 1
     let frc := State.reset.ep 8 15 2
     ((e { st := .primed } 0).engine 15).st = .primed ∧ (e { st := .primed } 0).present arm = none
     ∧ (flag (e { st := .primed } 31) arm 16).latchTick arm = some 16 ∧ (flag (e { st := .primed } 31) arm 16).present arm = none
     ∧ (flag (e { st := .primed } 32) arm 31).present arm = some 32 ∧ (flag (e { st := .waiting } 32) frc 16).present frc = some 32
     ∧ ((e { st := .filling, writeAt := some 16 } 16).engine 15).writeAt = some 16
     ∧ ((e { st := .filling, writeAt := some 16 } 15).engine 15).writing = false
     ∧ ((e { st := .filling, writeAt := some 16, writing := true, count := 1024 } 16).engine 15).lat.pre = 1024
     ∧ ((e { evAt := some 5 } 5).engine 15).evAt = some 5
     ∧ [AcqSt.filling, .waiting, .capturing, .rearming, .idle, .primed, .done].all (fun st => ((e { st } 0).engine 15).st = st) = true
     ∧ ((e { edges := [(fineTick 7, none)] } 0).engine 15).edges = [(fineTick 7, none)] ∧ fineTick 6 < fineTick 7
     ∧ ((e { st := .capturing, trig := some { instant := 5, stamp := [], idx := 0, label := 0, word := 2, forced := false } } 0).engine 15).trig.isSome
     ∧ (32 : Int) / 16 = 2
     ∧ ((e { st := .rearming, rearmAt := 9 } 9).engine 15).owed = [] ∧ (({ freed := 10, rearmAt := 9 } : Engine).freed + 15) / 16 * 16 = 16
     ∧ ((e { st := .rearming, lat := { acqDefault with nseg := 2 } } 0).engine 15).seg + 1 < 2
     ∧ ((e { st := .rearming, seg := 1, lat := { acqDefault with nseg := 2 } } 0).engine 15).lat.nseg ≤ 1 + 1)
    ∧ (let trig : Trig := { instant := 0, stamp := [], idx := 0, label := 16, word := 1, forced := false }
       let c (count now : Nat) : State :=
         { (base .run).setEngine 15 { st := .capturing, count, trig := some trig, lat := { acqDefault with post := 1 } } with now }
       let done (s : State) := ((feed 15 [] s).engine 15).st == .capturing && decide (0 + 1 ≤ ((feed 15 [] s).engine 15).count)
         && decide (((16 : Int) / 16 + 1) * 16 ≤ (feed 15 [] s).now)
       done (c 1 32) = true ∧ done (c 0 32) = false ∧ done (c 1 31) = false)
    ∧ (let m (x : Markers) (now : Nat) : State := { base .run with mark := x, now }
       let g (rep : Nat) (last : Bool) (next : Nat) : Markers :=
         { gen := .playing, segs := [(0, { len := 4, rep, next, last }), (1, { len := 1 })] }
       (m { gen := .armed 5 } 5).mark.gen = .armed 5 ∧ (m { gen := .shot, shotAt := some 5 } 5).mark.shotAt = some 5
       ∧ (m { gen := .playing, shotAt := some 5 } 5).mark.gen = .playing ∧ State.reset.mark.gen = .idle
       ∧ (tget {} (m (g 0 false 1) 64).mark.segs 0).len = 4 ∧ (m (g 0 false 1) 64).mark.segStart + 16 * 4 ≤ 64
       ∧ (m (g 0 false 1) 63).now < 0 + 16 * 4 ∧ (m (g 1 true 0) 64).mark.rep < 1 ∧ (m (g 0 true 0) 64).mark.stopping = none
       ∧ (tget {} (g 0 false 1).segs 1).len ≠ 0 ∧ (tget {} (g 0 false 2).segs 2).len = 0
       ∧ (m { g 0 false 1 with stopping := some 64 } 64).mark.stopping = some 64
       ∧ (m { g 0 true 0 with stopping := some 80 } 64).mark.stopping = some 80
       ∧ (tget {} (m { outs := [(31, { pulseEnd := some 7 })] } 127).mark.outs 31).pulseEnd = some 7 ∧ 7 + 120 ≤ 127
       ∧ (tget {} State.reset.mark.outs 31).pulseEnd = none)
    ∧ (let s (x : Elem) (now : Nat) : State := { (base .run).setElem 0 63 x with now }
       ((s {} 0).elem 0 63).active = false ∧ ((s { active := true, left := some 1, next := 9 } 9).elem 0 63).next ≤ 9
       ∧ ((s { active := true, next := 9 } 9).elem 0 63).left = none ∧ (s {} 0).elemRuns { active := true } = true
       ∧ (s {} 0).elemRuns { active := true, root := some 0 } = false ∧ (going .run).elemRuns { active := true, root := some 0 } = true
       ∧ ((s { active := true, high := true, highEnd := 9 } 9).elem 0 63).highEnd ≤ 9) := by decide

/-! ### Timing -/

theorem witness_TimingEvents :
    (let c (x : StampChan) : State := (base .run).setStampChan 2 x
     let one : StampChan := { locked := true, cald := 31, calCore := 0, busy := [(1, 8), (2, 9), (3, 9), (4, 9)] }
     let h (n : Nat) : State := { base .run with now := n, sys := { (base .run).sys with syncHigh := some 0 } }
     (base .run).sys.refclk = true ∧ State.reset.sys.refclk = false ∧ (c {}).isOn (stampDom 2) = true ∧ ((c { locked := true }).stampChan 2).locked = true
     ∧ ((c { locked := true }).stampChan 2).calCore = 0 ∧ (base .run).stamps 1 = false
     ∧ ((base .run).setStampChan 1 one).stamps 1 = true ∧ tget 0 one.busy 1 ≤ 8 ∧ ¬tget 0 one.busy 1 ≤ 7
     ∧ [0, 1, 2, 3, 4].all (fun k => k = one.calCore || decide (7 < tget 0 one.busy k)) = true
     ∧ { base .run with alignArm := some (.sync 4) }.alignArm = some (.sync 4) ∧ (List.replicate 64 1024).sum = 65536
     ∧ ({ (base .run).setStampChan 1 one with alignArm := some (.sync 4) } : State).stamps 1 = true
     ∧ { base .run with mark := { gen := .sync 4 } : State }.mark.gen = .sync 4
     ∧ (base .run).sys.syncHigh = none ∧ 0 + 300 ≤ (h 300).now ∧ (h 299).now < 0 + 300
     ∧ ({ base .run with now := 16, sys := { (base .run).sys with trigDue := [(16, 7, true)] } } : State).sys.trigDue = [(16, 7, true)]) := by decide

theorem witness_TimingEvents_gates :
      (let k (mode edge : Nat) : TiuEng := { running := true, set := { (({} : TiuEng).set) with mode, edge, gate := 100 }, gateOpen := 2 }
       let s (x : TiuEng) (now : Nat) : State := { (base .run).setTiuEng 3 x with now }
       ((s (k 1 2) 0).tiuEng 3).running = true ∧ (k 1 2).gateOpen ≤ (100 / 50 : Int).toNat ∧ (99 / 50 : Int).toNat < (k 1 2).gateOpen
       ∧ ((s (k 3 0) 0).tiuEng 3).set.mode = 3 ∧ (k 3 1).set.edge = 1 ∧ (5099 / 50 : Int).toNat < (k 3 2).gateOpen + (k 3 2).set.gate
       ∧ ((s (k 2 0) 102).tiuEng 3).gateOpen + (k 2 0).set.gate ≤ 102 ∧ ((s {} 0).tiuEng 3).running = false) := by decide

theorem witness_TimingEvents_ptp :
      (let d (x : TimeDom) : State := { (base .run).setTdom 0 x with timePort := { up := true } }
       let src (n : Nat) : DomSettings := { (({} : TimeDom).set) with source := n }
       let h : PtpHdr := { dom := 0, number := 0, version := 2, minor := 1, udp := false, source := 7, wellFormed := true }
       let m : PtpMaster := { source := 7, rank := [1, 2], utc := none, delayInt := 0 }
       let far : State := { d { set := src 2, meas := [(0, 0)], badPps := 2 } with now := 0 }
       (d { set := src 1 }).ptpHears h = true ∧ (base .run).ptpHears h = false ∧ (d { set := src 1 }).ptpOk h = true
       ∧ (d { set := src 1 }).ptpOk { h with version := 3 } = false ∧ (d { set := src 1 }).ptpHears { h with version := 3 } = true
       ∧ (d { set := src 1 }).ptpMaster h = false ∧ (d { set := src 1, masters := [m] }).ptpMaster h = true
       ∧ ((d { set := src 1, masters := [m], syncWait := some (7, 5) }).tdom 0).syncWait = some (7, 5)
       ∧ ((d { set := src 1, masters := [m], lastSync := some (1, 2), delayTx := some 3, delaySeq := 9 }).tdom 0).delayTx = some 3
       ∧ (d { set := src 1 }).ptpUp 0 = true ∧ 0 + m.delayTicks ≤ ticksPerSec ∧ ¬0 + m.delayTicks ≤ ticksPerSec - 1
       ∧ ((d { set := src 1, masters := [m], lastSync := some (1, 2), delayAt := some 0 }).tdom 0).delayAt = some 0 ∧ (-7 : Int) ≤ -7
       ∧ [m].Pairwise (fun a b => lexLt b.rank a.rank = false)
       ∧ ((d { set := src 1, masters := [m] }).setStampChan 2 { locked := true, cald := 31 }).stamps 2 = true
       ∧ ((d { set := src 2 }).setStampChan 1 { locked := true, cald := 31 }).stamps 1 = true
       ∧ ((d { set := src 2 }).tdom 0).set.source = 2 ∧ 100000 < ((100001 : Int) - 0).natAbs ∧ ¬100000 < ((100000 : Int) - 0).natAbs
       ∧ 3 ≤ (far.tdom 0).badPps + 1 ∧ (far.tdom 0).badPps + 0 < 3
       ∧ ((d { st := .acquiring, meas := [(0, 0)] }).tdom 0).st = .acquiring ∧ ((((5 : Int), (1 : Int)) :: [(0, 0)]).take 16).length < 16
       ∧ (rateOf [(5, 0), (0, 0)]).natAbs ≤ 100000000000 ∧ ((d {}).tdom 0).st = .disabled) := by decide

theorem witness_TimingEvents_domains :
      (let t (a b : TimeDom) (sel : Nat) (st : TimeSt) (now : Nat) : State :=
         { (base .run) with time := { domA := a, domB := b, sel, st, servo := { revert := 1 } }, now }
       (t { st := .tracking } {} 0 .tracking 0).time.sel = 0 ∧ ((t { st := .tracking } {} 0 .tracking 0).tdom 0).st ≠ .lost
       ∧ (t {} { st := .tracking } 0 .tracking 0).time.servo.selmode = 1 ∧ ((t {} { st := .tracking } 0 .tracking 0).tdom (1 - 0)).far = false
       ∧ (t { st := .tracking } {} 1 .tracking 1200000000000).time.domA.trackSince + 60 * 20000000000 ≤ 1200000000000
       ∧ (t {} {} 0 .holdover 20000000).time.holdAt + 20000 * 1000 ≤ 20000000 ∧ 0 + 20000 * 10000 ≤ (t {} {} 0 .holdover 200000000).now
       ∧ (t { set := { (({} : TimeDom).set) with source := 3 }, exchAt := 1 } {} 0 .free 200000000).now < 1 + 20000 * 10000
       ∧ (t {} {} 0 .holdover 0).time.st = .holdover ∧ (t {} {} 0 .holdover 0).time.servo.hlimit = 100 ∧ State.reset.time.st ≠ .holdover
       ∧ (({ steerTo := 5, servo := { slewacc := 100 } } : TimeKeeper).steerTo - 0).natAbs ≤ 100 * 10 * (1000000 - 0) / 20000000) := by
  decide

/-! ### Links -/

theorem witness_LinkTraining :
    (let s (j : Jvl) : State := (base .service).setJport 7 j
     let on (j : Jvl) := (s j).isOn 3 && ((s j).jport 7).enabled && ((s j).jport 7).loopback == 0
     let ready (gen gens : Nat) : Jvl :=
       { st := .config, lockedLanes := [3], laneIds := [(3, 0)], acks := [3], cfgs := [(3, 8)], gen, peerGens := gens, peerDev := 5 }
     on {} = true ∧ on { st := .lock } = true ∧ State.reset.isOn 3 = false ∧ (3 : Nat) ∉ ({ st := .lock } : Jvl).lockedLanes
     ∧ on { st := .active } = true ∧ (ready 1 3).lockedLanes.contains 3 = true
     ∧ ((ready 1 3).learn 3 false (.tsId 0 0 5 3 0 0 true true)).configured = true
     ∧ ((ready 1 1).learn 3 true (.tsId 0 0 5 1 0 0 true true)).configured = true
     ∧ ((ready 2 3).learn 3 true (.tsId 0 0 5 3 0 0 true true)).genMax = 2
     ∧ ((ready 1 3).learn 3 true (.tsId 0 0 5 3 0 0 true true)).peerGens.testBit 1 = true
     ∧ { s (ready 1 3) with sys := { devnum := 5, dnv := true } : State }.sys.dnv = true ∧ (s {}).sys.dnv = false
     ∧ ({ st := .lock, lockedLanes := [0] : Jvl }.learn 0 true (.tsCfg 1 2 3 4)).configured = false
     ∧ ({ s {} with timePort := { up := true, ip := 9 } } : State).timePort.ip = 9 ∧ (s {}).timePort.trying10 = true
     ∧ { s { st := .lock } with now := 20000 * 11000 : State }.now = ((s { st := .lock }).jport 7).since + 20000 * 11000
     ∧ (∃ n ∈ ({ tried := [7, 8] } : Retry).tried, 8 ≤ n) ∧ ((s { line := { sinceAlign := 16383 } }).jport 7).line.sinceAlign = 16383
     ∧ true ∉ ({ whole := [false] } : Line).whole ∧ (s { st := .active }).timePort.tryAt + 20000 * 50000 ≤ 1000000000
     ∧ [(3, 0)].all (fun e => (ready 1 3).laneIds.contains e) = true ∧ (ready 1 3).isReversed = true ∧ (ready 1 3).logical = [0]
     ∧ ({ ready 1 3 with laneIds := [(3, 0), (0, 1)] } : Jvl).logical = [] ∧ (s {}).sys.routes = []) := by decide

/-- Lane numbers that run neither straight nor reversed do not line up (R362): of 0, 2, 1, 3 only lanes 0 and 3 do. -/
theorem test_lanes_that_line_up :
    ({ lockedLanes := [0, 1, 2, 3], laneIds := [(0, 0), (1, 2), (2, 1), (3, 3)] } : Jvl).width = 1
    ∧ ({ lockedLanes := [0, 1, 2, 3], laneIds := [(0, 3), (1, 2), (2, 1), (3, 0)] } : Jvl).width = 4 := by decide

/-- An ACTIVE port of a device whose number is set, with the features `feat`. -/
def linked (feat : Nat) : State :=
  let s := (base .run).setJport 7 { st := .active, feat, credits := [(0, 0)], advert := [(0, 64)], freed := [(0, 64)]
                                    p := { rxNext := 4095, txSeq := 1, unacked := [{ vl := 0, body := .hatchCredit 9 3 }] } }
  { s with sys := { s.sys with devnum := 5, dnv := true, routes := [(9, 7)] } }

/-- The blocks of a frame as a lane with a history of ones carries the first and each next as received (R366, R373). -/
def sent (head : Nat) (data : List Byte) : FrameTag :=
  { blocks := (frameBlocks head data).map fun b => (b.wire (BitVec.allOnes 58)).2 }

/-- A credit of channel 3 for device 5 with SEQ 4095, as it comes; the same with a bad check, and one of another VL. -/
theorem test_frames_read :
    (frameOk (.hatchCredit 5 3) (sent (headWord 0 1 0 4095 5 3) [])
      && decide (frameSeq (sent (headWord 0 1 0 4095 5 3) []) = 4095) && decide (codeErrors (sent (headWord 0 1 0 4095 5 3) []) = 0)
      && !frameOk (.hatchCredit 5 4) (sent (headWord 0 1 0 4095 5 3) []) && !frameOk (.hatchCredit 5 3) (sent (headWord 0 1 1 4095 5 3) [])
      && frameOk (.doubt 5 7) (sent (headWord 0 2 1 0 5 0) (le 4 7 ++ pad 4))
      && !frameOk (.doubt 5 7) (sent (headWord 0 2 1 0 5 0) (le 4 7 ++ le 4 1))
      && decide (codeErrors { blocks := [{ head := 3, prev := 0, body := 0 }] } = 1)) = true := by decide +kernel

theorem witness_LinkFrames :
    (let s := linked 7
     let root := 9 * 16384 + 0x1000
     let far := s.setPlate 0 { st := .shadow, cell := root }
     let chan : Channel := { bound := true, kind := 2, wide := true, prods := [9 * 16384], cons := [5 * 16384] }
     let src : DomSettings := { (({} : TimeDom).set) with source := 3, port := 7 }
     let l : State := (s.setTdom 1 { set := src, exch := 65535, t1 := some 1, t2 := some 2 }).setStampChan 2 { locked := true, cald := 31 }
     (s.jport 7).st = .active ∧ (s.jport 7).p.rxNext = 4095 ∧ (s.jport 0).st ≠ .active
     ∧ ownAdvert 0 < tget 0 (s.jport 7).freed 0 + 1 ∧ ¬ownAdvert 1 < tget 0 (s.jport 7).freed 1 + 1
     ∧ s.route 9 = some 7 ∧ s.route 8 = none ∧ (s.jport 7).feat.testBit 2 = true ∧ (linked 3).jport 7 ≠ s.jport 7
     ∧ far.keyOf root ∈ far.spanRoots ∧ 2 ^ 32 ≤ far.keyOf root ∧ s.keyOf root ∉ s.spanRoots
     ∧ (s.setChan 3 chan).chan 3 = chan ∧ s.endsVia chan.prods 7 = true ∧ s.linkPort chan ≠ some 7 ∧ s.endsVia [9 * 16384] 7 = true
     ∧ s.linkPort { chan with prods := [7 * 16 + 5 * 16384 + 11 * 2 ^ 28] } = some 7
     ∧ (far.shadowOf root).isSome = true ∧ s.shadowOf root = none ∧ s.parentHere root = none
     ∧ (l.tdom 1).set.port = 7 ∧ l.timeUp 7 = true ∧ l.stamps 2 = true ∧ l.linkDom 1 7 = true ∧ (l.tdom 1).t1 = some 1 ∧ s.sys.devnum = 5
     ∧ s.running (s.keyOf 0) = false ∧ (going .run).running ((going .run).keyOf 0) = true
     ∧ (base .configure).sys.mode ∉ taskModes (.start root 0) ∧ s.sys.mode ∈ taskModes (.proof root 0)
     ∧ failing (partReply 9 1 (.proof root 0) s).status = true ∧ failing (partReply 9 1 (.abort root) s).status = false
     ∧ (s.host.sqs.all fun e => e.2.flight = []) = true ∧ (l.tdom 1).reqAt = none
     ∧ frameDest (sent (headWord 1 0 1 0 8 9) (le 2 7 ++ pad 6)) = 8 ∧ frameDest (sent (headWord 1 0 1 0 5 9) (le 2 7 ++ pad 6)) = s.sys.devnum
     ∧ ({ s.modJport 7 fun j => { j with peerDev := 9 } with sys := { s.sys with cutDevs := [9] } } : State).peerPort 9 = some 7
     ∧ tget 0xFF s.sys.routes 9 = 7
     ∧ ((0 : Nat) + 1 + 4096 - (1 + 4096 - (s.jport 7).p.unacked.length) % 4096) % 4096 ≤ 1) := by decide +kernel

/-! ### Rings, power, housekeeping, calibration -/

theorem witness_RingPowerHousekeepingAndCalibrationEvents :
    (let rec_ (k : Nat) : RingRec := { bytes := pad (32 * k), pads := 0, tag := none }
     let s (w hl : Nat) : State := (base .run).setRing 63
       { dev := true, host := true, dlen := 65536, hlen := hl, written := w, recs := [rec_ 2], used := 2, woff := 2 }
     let full (q : Ring) := decide (q.hlen < q.written - q.consumed + 32 * (padSlots (q.written / 32 % (q.hlen / 32)) 2 + 2))
     full ((s 4064 4096).ring 63) = true ∧ full ((s 4032 4096).ring 63) = false
     ∧ full { (s 4064 4096).ring 63 with consumed := 4032 } = false ∧ ((s 4064 4096).ring 63).consumed ≤ 4032
     ∧ (s 0 4096).isOn 4 = true ∧ (s 0 4096).isOn 2 = true ∧ (s 0 4096).host.linkUp = true ∧ ((s 0 4096).ring 63).recs = rec_ 2 :: []
     ∧ (s 0 4096).poisoned 0 64 = false)
    ∧ (let s (k : Domain) : State := (base .run).setDom 23 k
       [WakeStep.regulator, .oscillator, .isolation, .restore].all (fun step => ((s { st := .waking, step }).dom 23).step = step) = true
       ∧ ((s { st := .waking, step := .restore, fromOff := false }).dom 23).fromOff = false
       ∧ ((base .run).setDom 4 { st := .waking, step := .restore }).dom 4 = { st := .waking, step := .restore }
       ∧ [DomSt.on, .off, .retention, .entering, .waking].all (fun st => ((s { st }).dom 23).st = st) = true
       ∧ (∀ x ∈ [(0, 13, 13)], x.1 = 0 ∧ 13 ≤ x.2.1 ∧ 13 ≤ x.2.2) ∧ ¬(∀ x ∈ [(0, 13, 12)], x.1 = 0 ∧ 13 ≤ x.2.1 ∧ 13 ≤ x.2.2))
    ∧ (let h (x : House) (now : Nat) : State := { base .run with house := x, now }
       (h { roundDue := 9 } 9).house.inRound = false ∧ (h { roundDue := 9 } 8).now < 9 ∧ (h { inRound := true } 0).house.inRound = true
       ∧ (h { slotsPend := some (4, []) } 0).house.slotsPend = some (4, []) ∧ 32 < Sys2Proof.Machine.dist 2081 2048
       ∧ ({} : House).dislim < Sys2Proof.Machine.dist 2097 2048 ∧ 48 < Sys2Proof.Machine.dist 2097 ((0x80 + 0x100 * (0 % 16)) * 16)
       ∧ (h { injDue := [1] } 0).house.injDue ≠ [] ∧ (h { injSafe := some 5 } 5).house.injSafe = some 5
       ∧ tkeys (((base .run).setZ 255 { ovcPend := true }).zch.filter fun e => e.2.ovcPend) = [255]
       ∧ ((base .run).setZ 255 { fails := 1 }).z 255 = { fails := 1 } ∧ (h { shutAt := some 7, shutDoms := [23] } 7).house.shutAt = some 7
       ∧ 10 * 1000 * 262144 < ((10001 : Int) * 262144 - 0).natAbs ∧ ¬10 * 1000 * 262144 < ((10000 : Int) * 262144 - 0).natAbs)
    ∧ (let c (i : Nat) (x : CalInst) : State := (base .run).modCal i fun _ => x
       ((c 15 { st := 1 }).calI 15).st = 1 ∧ ((c 67 { st := 1 }).calI 67).st = 1 ∧ ((base .run).calI 67).st ≠ 1
       ∧ instOf 0x11 0x30F = some 15 ∧ analogue 0x11 = true ∧ ({ base .run with calib := { trimQ := [(0x11, [15])] } } : State).calib.trimQ = [(0x11, [15])]
       ∧ ((c 67 { writeDue := true }).calI 67).writeDue = true ∧ (c 67 {}).windowOpen 67 = true
       ∧ { c 67 { writeDue := true, lastWrite := some 0 } with now := 10 * ticksPerSec : State }.now = 0 + 10 * ticksPerSec
       ∧ ((base .run).setProof 3 { active := true, abandoned := true }).proof 3 = { active := true, abandoned := true }) := by decide

/-! ### The identity of the part -/

/-- Clause 2: a container for another part and right before that check. -/
theorem witness_IdentityCode : contPart (torn 0x4D43485A) ≠ State.reset.bar0 0
    ∧ contResult false 0 [] (torn 0x4D43485A) = 2 := by
  have n : contPart (torn 0x4D43485A) ≠ identWord := by show 0 ≠ identWord; unfold identWord; omega
  have h : State.reset.bar0 0 = identWord := by unfold State.bar0; exact if_pos rfl
  refine ⟨by rw [h]; exact n, ?_⟩
  have r : headResult 0x4D43485A 65536 0 (torn 0x4D43485A) = 2 := by
    unfold headResult
    rw [if_neg (by decide +kernel), if_pos n]
  simp only [contResult, r]
  decide

/-- Three conversions averaged, and the offset and gain of R490: a mean 31/32 above that of all is 15.5 sixteenths of a code. -/
theorem test_averages_and_estimates : ({ a := 1, b := 1, c := 2 } : Slot).mean = 1 ∧ ({ a := -1, b := -1, c := 0 } : Slot).mean = -1
    ∧ adcEstimates 2 (List.replicate 31 (0, 8, 0) ++ [(2, 10, 5)]) = List.replicate 31 (0, 2 ^ 20, 0) ++ [(16, 2 ^ 20, 5)] := by
  decide +kernel

/-! ### Well-formedness: a term that each check refuses -/

def xBindArgs : BindArgs :=
  { kind := 1, channel := 0, width := 0, flags := 0, rs := 0, stmax := 0, stwin := 0, gsrc := 0, gidx := 0, ring := 0,
    producers := [0], consumers := [0] }
def xServoArgs : ServoArgs :=
  { selmode := 1, revert := 0, slew := 0, slewacc := 0, hlimit := 0, hwander := 0 }
def xTimerArgs : TimerArgs :=
  { element := 0, index := 0, pol := 0, root := 0, period := 0, len := 0, count := 0, start := early }
def xSegLoadArgs : SegLoadArgs :=
  { port := 0, swap := true, root := 0, src := 0, sFirst := 0, sCount := 0, gFirst := 0, gCount := 0, pFirst := 0,
    pCount := 0 }
def xGovArgs : GovArgs :=
  { mode := 0, vmin := 0, vmax := 0, vfixed := 0, nearlate := 0, lower := 0 }
def xHatchFrame : HatchFrame :=
  { dest := 0, channel := 0, w64 := true, payload := 0 }
def xLinkBlock : LinkBlock :=
  { ackp := 0, nakp := false, ackq := 0, nakq := false, rdec := 0, rtime := 0, rctrl := 0, rbulk := 0 }
def xCfgItem : CfgItem :=
  { code := 3, target := 0, aux := 0, value := 0 }

theorem test_refuses_Hdr :
    (let x := hd 8
     x.wf && [{ x with cmdId := 2 ^ 16 }, { x with flags := 2 ^ 8 }, { x with plen := 2 ^ 32 }, { x with addr := 2 ^ 64 }].all fun (y : Hdr) => !y.wf) = true := by decide

theorem test_refuses_Stamp :
    (let x := early
     x.wf && [{ x with sec := 2 ^ 64 }, { x with ns := 2 ^ 32 }, { x with frac := 2 ^ 16 }].all fun (y : Stamp) => !y.wf) = true := by decide

theorem test_refuses_CfgItem :
    (let x := xCfgItem
     x.wf && [{ x with code := 2 ^ 16 }, { x with target := 2 ^ 16 }, { x with aux := 2 ^ 32 }, { x with value := 2 ^ 64 }].all fun (y : CfgItem) => !y.wf) = true := by decide

theorem test_refuses_BindArgs :
    (let x := xBindArgs
     x.wf && [{ x with kind := 2 ^ 8 }, { x with channel := 2 ^ 16 }, { x with width := 2 ^ 8 }, { x with flags := 2 ^ 8 }
      , { x with rs := 2 ^ 16 }, { x with stmax := 2 ^ 16 }, { x with stwin := 2 ^ 16 }, { x with gsrc := 2 ^ 8 }
      , { x with gidx := 2 ^ 8 }, { x with ring := 2 ^ 8 }, { x with producers := [2 ^ 32] }, { x with consumers := [2 ^ 32] }].all fun (y : BindArgs) => !y.wf) = true := by decide

theorem test_refuses_AcqSettings :
    (let x := acqDefault
     x.wf && [{ x with src := 2 ^ 8 }, { x with tsel := 2 ^ 8 }, { x with ttone := 2 ^ 8 }, { x with tsrc := 2 ^ 8 }
      , { x with pin := 2 ^ 8 }, { x with ttype := 2 ^ 8 }, { x with pol := 2 ^ 8 }, { x with tmask := 2 ^ 16 }
      , { x with lo := 2 ^ 15 }, { x with lo := -2 ^ 15 - 1 }, { x with hi := 2 ^ 15 }, { x with hi := -2 ^ 15 - 1 }
      , { x with hys := 2 ^ 16 }, { x with nseg := 2 ^ 16 }, { x with wcond := 2 ^ 8 }, { x with armsrc := 2 ^ 8 }
      , { x with ring := 2 ^ 8 }, { x with w1 := 2 ^ 32 }, { x with w2 := 2 ^ 32 }, { x with tw := 2 ^ 32 }
      , { x with rlen := 2 ^ 32 }, { x with rbase := 2 ^ 64 }, { x with pre := 2 ^ 32 }, { x with post := 2 ^ 32 }].all fun (y : AcqSettings) => !y.wf) = true := by decide

theorem test_refuses_DomSettings :
    (let x := ({} : TimeDom).set
     x.wf && [{ x with source := 2 ^ 8 }, { x with port := 2 ^ 8 }, { x with profile := 2 ^ 8 }, { x with ptpdom := 2 ^ 8 }
      , { x with transport := 2 ^ 8 }, { x with delay := 2 ^ 31 }, { x with delay := -2 ^ 31 - 1 }, { x with bw := 2 ^ 32 }].all fun (y : DomSettings) => !y.wf) = true := by decide

theorem test_refuses_ServoArgs :
    (let x := xServoArgs
     x.wf && [{ x with selmode := 2 ^ 8 }, { x with revert := 2 ^ 8 }, { x with slew := 2 ^ 32 }, { x with slewacc := 2 ^ 32 }
      , { x with hlimit := 2 ^ 32 }, { x with hwander := 2 ^ 32 }].all fun (y : ServoArgs) => !y.wf) = true := by decide

theorem test_refuses_TiuArgs :
    (let x := ({} : TiuEng).set
     x.wf && [{ x with mode := 2 ^ 8 }, { x with srca := 2 ^ 8 }, { x with srcb := 2 ^ 8 }, { x with edge := 2 ^ 8 }
      , { x with ring := 2 ^ 8 }, { x with div := 2 ^ 32 }, { x with count := 2 ^ 32 }, { x with gate := 2 ^ 64 }
      , { x with start := { early with frac := 2 ^ 16 } }].all fun (y : TiuArgs) => !y.wf) = true := by decide

theorem test_refuses_RingArgs :
    (let x := ring 1
     x.wf && [{ x with ring := 2 ^ 8 }, { x with flags := 2 ^ 8 }, { x with vec := 2 ^ 8 }, { x with dbase := 2 ^ 32 }
      , { x with dlen := 2 ^ 32 }, { x with cnt := 2 ^ 32 }, { x with hbase := 2 ^ 64 }, { x with hlen := 2 ^ 32 }
      , { x with itime := 2 ^ 32 }, { x with ctrl := 2 ^ 64 }].all fun (y : RingArgs) => !y.wf) = true := by decide

theorem test_refuses_TimerArgs :
    (let x := xTimerArgs
     x.wf && [{ x with element := 2 ^ 8 }, { x with index := 2 ^ 8 }, { x with pol := 2 ^ 8 }, { x with root := 2 ^ 32 }
      , { x with period := 2 ^ 64 }, { x with len := 2 ^ 64 }, { x with count := 2 ^ 32 }
      , { x with start := { early with frac := 2 ^ 16 } }].all fun (y : TimerArgs) => !y.wf) = true := by decide

theorem test_refuses_SegLoadArgs :
    (let x := xSegLoadArgs
     x.wf && [{ x with port := 2 ^ 16 }, { x with root := 2 ^ 32 }, { x with src := 2 ^ 64 }, { x with sFirst := 2 ^ 32 }
      , { x with sCount := 2 ^ 32 }, { x with gFirst := 2 ^ 16 }, { x with gCount := 2 ^ 16 }, { x with pFirst := 2 ^ 16 }
      , { x with pCount := 2 ^ 16 }].all fun (y : SegLoadArgs) => !y.wf) = true := by decide

theorem test_refuses_GovArgs :
    (let x := xGovArgs
     x.wf && [{ x with mode := 2 ^ 8 }, { x with vmin := 2 ^ 16 }, { x with vmax := 2 ^ 16 }, { x with vfixed := 2 ^ 16 }
      , { x with nearlate := 2 ^ 16 }, { x with lower := 2 ^ 16 }].all fun (y : GovArgs) => !y.wf) = true := by decide

theorem test_refuses_HatchFrame :
    (let x := xHatchFrame
     x.wf && [{ x with dest := 2 ^ 14 }, { x with channel := 2 ^ 12 }].all fun (y : HatchFrame) => !y.wf) = true := by decide

theorem test_refuses_LinkBlock :
    (let x := xLinkBlock
     x.wf && [{ x with ackp := 2 ^ 12 }, { x with ackq := 2 ^ 12 }, { x with rdec := 2 ^ 6 }, { x with rtime := 2 ^ 6 }
      , { x with rctrl := 2 ^ 6 }, { x with rbulk := 2 ^ 6 }].all fun (y : LinkBlock) => !y.wf) = true := by decide

theorem test_refuses_256_producers (a : BindArgs) (h : 256 ≤ a.producers.length) : a.wf = false := by
  simp [BindArgs.wf, Nat.not_lt.mpr h]

theorem test_refuses_TrainSet :
    [TrainSet.tsId 16 0 0 0 0 0 false false, .tsId 0 256 0 0 0 0 false false, .tsId 0 0 16384 0 0 0 false false
    , .tsId 0 0 0 16 0 0 false false, .tsId 0 0 0 0 256 0 false false, .tsId 0 0 0 0 0 16 false false, .tsCfg 65536 0 0 0
    , .tsCfg 0 65536 0 0, .tsCfg 0 0 65536 0, .tsCfg 0 0 0 65536].all (fun t => !t.wf)
    ∧ (TrainSet.tsId 15 255 16383 15 255 15 true true).wf ∧ (TrainSet.tsCfg 65535 0 0 0).wf := by decide

def xWire : Wire := { head := 1, prev := 0, body := 0 }

def quiet : RoundSlots :=
  { doms := List.replicate 24 ({}, {}, 0, 0), diodes := List.replicate 8 {}, aux := [], chkA := {}, chkB := {}
    lengthUs := 0 }

theorem test_accepts_commands_1 : (([.bootFlash false false 0 hdr (cfg 0), .bootPatch tornDir 0, .registerWrite 0 0 0, .bar2Read 0 0, .bar2Write 0 []
    , .unknownCommand (hd 8) 0, .open_ (hd 8) 0 0, .close (hd 8), .queueResume (hd 8), .fence (hd 8) 0, .cellConfigure (hd 8) 0 []
    , .cellLoad (hd 8) 0 0 0 0 0 0 0 (List.replicate 16 0), .cellStart (hd 8) 0 0, .cellStop (hd 8) 0, .cellAbort (hd 8) 0
    , .cellAbortCommandForm (hd 8) 0 0 0, .plateComposeCreate (hd 8) 0, .plateComposeAdd (hd 8) 0 [0]
    , .plateComposeRemove (hd 8) 0 [0], .plateComposeSeal (hd 8) 0, .plateComposeDissolve (hd 8) 0
    , .shotSchedule (hd 8) 0 0 0 early, .segmentLoad (hd 8) xSegLoadArgs, .filterLoad (hd 8) 0 0 0 false 0
    , .markLoadLoad (hd 8) 0 0 0 0 0 0, .markLoadConfig (hd 8) 0 0 0 0 0 0 false, .markLoadStart (hd 8) 0 0 0 0 early
    , .markLoadStop (hd 8), .streamOpen (hd 8) 0 0, .streamClose (hd 8) 0, .align (hd 8) 0 0 early, .alignCancel (hd 8)
    , .eventRouteBind (hd 8) xBindArgs, .eventRouteUnbind (hd 8) 0, .eventGate (hd 8) 0 0 early, .acqSet (hd 8) 0 acqDefault
    , .acqArm (hd 8) 0, .acqDisarm (hd 8) 0, .timeSetStepAbs (hd 8) early, .timeSetStepRel (hd 8) 0] : List Instr).all Instr.wf) = true := by decide +kernel

theorem test_accepts_commands_2 : (([.timeSetDomain (hd 8) 0 (({} : TimeDom).set), .timeSetServo (hd 8) xServoArgs, .timeSetUtc (hd 8) 0, .timeSelect (hd 8) 0
    , .timeTimerArm (hd 8) xTimerArgs, .timeTimerStop (hd 8) 0 0, .timeQuery (hd 8) 0
    , .tiuMeasureStart (hd 8) 0 (({} : TiuEng).set), .tiuMeasureStop (hd 8) 0, .tiuMeasureQuery (hd 8) 0 0, .calRun (hd 8) 0 0 0
    , .calCommit (hd 8) 0 0 0, .calSet (hd 8) 0 false 0 0 0 0, .powerSetDomain (hd 8) 0 0 0, .powerSetGovernor (hd 8) xGovArgs
    , .proofRun (hd 8) 0 0 0 0, .modeSet (hd 8) 0, .statusQuery (hd 8) 0 0 0, .ledgerQuery (hd 8) 0 0 0, .faultClear (hd 8) 0 0
    , .patchStatus (hd 8) 0, .linkStatus (hd 8) 0 0, .linkSet (hd 8) 0 0 0 0 0 0, .ringSet (hd 8) (ring 1), .hkSet (hd 8) 0 []
    , .netSetDevnum (hd 8) 0, .netSetRoutes (hd 8) 0 0 0, .entdaa 0, .setdasa 0, .pointFormed 0 [], .streamBlock (.tone 0) []
    , .triggerAccept 0 [], .forceTrigger 0 [], .captureComplete 0 [], .train 0 0 false (.tsCfg 0 0 0 0)
    , .hatchData 0 { blocks := [] } xHatchFrame, .hatchCredit 0 { blocks := [] } xHatchFrame, .doubt 0 { blocks := [] } 0 0
    , .tReq 0 { blocks := [] } 0, .tResp 0 { blocks := [] } 0 0] : List Instr).all Instr.wf) = true := by decide +kernel

theorem test_accepts_commands_3 : (([.tFollow 0 { blocks := [] } 0 0 none 0 0 0 0, .controlFrame 0 { blocks := [] } 0 1 { dest := 0, msg := .drop 0 }
    , .bulkFrame 0 { blocks := [] } 0 1, .linkBlock 0 xLinkBlock, .arpRequest 0, .slowRound (List.replicate 256 {})
    , .roundEnd quiet] : List Instr).all Instr.wf) = true := by decide +kernel

theorem test_refuses_commands_1 : (([.bootFlash false false (2 ^ 32) hdr (cfg 0), .bootFlash false false 0 { hdr with bytes := [] } (cfg 0)
    , .bootFlash false false 0 hdr { cfg 0 with bytes := [] }, .bootPatch tornDir (2 ^ 64), .registerWrite (2 ^ 16) 0 0
    , .registerWrite 0 9 0, .bar2Read (2 ^ 30) 0, .bar2Write (2 ^ 30) [], .unknownCommand { hd 8 with cmdId := 2 ^ 16 } 0
    , .unknownCommand (hd 8) (2 ^ 8), .open_ { hd 8 with cmdId := 2 ^ 16 } 0 0, .open_ (hd 8) (2 ^ 8) 0, .open_ (hd 8) 0 (2 ^ 8)
    , .close { hd 8 with cmdId := 2 ^ 16 }, .queueResume { hd 8 with cmdId := 2 ^ 16 }, .fence { hd 8 with cmdId := 2 ^ 16 } 0
    , .cellConfigure { hd 8 with cmdId := 2 ^ 16 } 0 [], .cellConfigure (hd 8) (2 ^ 32) []
    , .cellConfigure (hd 8) 0 [{ xCfgItem with code := 2 ^ 16 }]
    , .cellLoad { hd 8 with cmdId := 2 ^ 16 } 0 0 0 0 0 0 0 (List.replicate 16 0)
    , .cellLoad (hd 8) (2 ^ 32) 0 0 0 0 0 0 (List.replicate 16 0), .cellLoad (hd 8) 0 (2 ^ 8) 0 0 0 0 0 (List.replicate 16 0)
    , .cellLoad (hd 8) 0 0 (2 ^ 16) 0 0 0 0 (List.replicate 16 0), .cellLoad (hd 8) 0 0 0 (2 ^ 64) 0 0 0 (List.replicate 16 0)
    , .cellLoad (hd 8) 0 0 0 0 (2 ^ 32) 0 0 (List.replicate 16 0), .cellLoad (hd 8) 0 0 0 0 0 (2 ^ 32) 0 (List.replicate 16 0)
    , .cellLoad (hd 8) 0 0 0 0 0 0 (2 ^ 64) (List.replicate 16 0), .cellLoad (hd 8) 0 0 0 0 0 0 0 []
    , .cellStart { hd 8 with cmdId := 2 ^ 16 } 0 0, .cellStart (hd 8) (2 ^ 32) 0, .cellStart (hd 8) 0 (2 ^ 32)
    , .cellStop { hd 8 with cmdId := 2 ^ 16 } 0, .cellStop (hd 8) (2 ^ 32), .cellAbort { hd 8 with cmdId := 2 ^ 16 } 0
    , .cellAbort (hd 8) (2 ^ 32), .cellAbortCommandForm { hd 8 with cmdId := 2 ^ 16 } 0 0 0
    , .cellAbortCommandForm (hd 8) (2 ^ 32) 0 0, .cellAbortCommandForm (hd 8) 0 (2 ^ 8) 0
    , .cellAbortCommandForm (hd 8) 0 0 (2 ^ 16), .plateComposeCreate { hd 8 with cmdId := 2 ^ 16 } 0] : List Instr).all fun i => !i.wf) = true := by decide +kernel

theorem test_refuses_commands_2 : (([.plateComposeCreate (hd 8) (2 ^ 32), .plateComposeAdd { hd 8 with cmdId := 2 ^ 16 } 0 [0], .plateComposeAdd (hd 8) (2 ^ 32) [0]
    , .plateComposeAdd (hd 8) 0 [2 ^ 32], .plateComposeRemove { hd 8 with cmdId := 2 ^ 16 } 0 [0]
    , .plateComposeRemove (hd 8) (2 ^ 32) [0], .plateComposeRemove (hd 8) 0 [2 ^ 32]
    , .plateComposeSeal { hd 8 with cmdId := 2 ^ 16 } 0, .plateComposeSeal (hd 8) (2 ^ 32)
    , .plateComposeDissolve { hd 8 with cmdId := 2 ^ 16 } 0, .plateComposeDissolve (hd 8) (2 ^ 32)
    , .shotSchedule { hd 8 with cmdId := 2 ^ 16 } 0 0 0 early, .shotSchedule (hd 8) (2 ^ 32) 0 0 early
    , .shotSchedule (hd 8) 0 (2 ^ 32) 0 early, .shotSchedule (hd 8) 0 0 (2 ^ 64) early
    , .shotSchedule (hd 8) 0 0 0 { early with sec := 2 ^ 64 }, .segmentLoad { hd 8 with cmdId := 2 ^ 16 } xSegLoadArgs
    , .segmentLoad (hd 8) { xSegLoadArgs with port := 2 ^ 16 }, .filterLoad { hd 8 with cmdId := 2 ^ 16 } 0 0 0 false 0
    , .filterLoad (hd 8) (2 ^ 16) 0 0 false 0, .filterLoad (hd 8) 0 (2 ^ 8) 0 false 0, .filterLoad (hd 8) 0 0 (2 ^ 8) false 0
    , .filterLoad (hd 8) 0 0 0 false (2 ^ 64), .markLoadLoad { hd 8 with cmdId := 2 ^ 16 } 0 0 0 0 0 0
    , .markLoadLoad (hd 8) (2 ^ 32) 0 0 0 0 0, .markLoadLoad (hd 8) 0 (2 ^ 32) 0 0 0 0, .markLoadLoad (hd 8) 0 0 (2 ^ 8) 0 0 0
    , .markLoadLoad (hd 8) 0 0 0 (2 ^ 8) 0 0, .markLoadLoad (hd 8) 0 0 0 0 (2 ^ 16) 0, .markLoadLoad (hd 8) 0 0 0 0 0 (2 ^ 64)
    , .markLoadConfig { hd 8 with cmdId := 2 ^ 16 } 0 0 0 0 0 0 false, .markLoadConfig (hd 8) 0 (2 ^ 8) 0 0 0 0 false
    , .markLoadConfig (hd 8) 0 0 (2 ^ 8) 0 0 0 false, .markLoadConfig (hd 8) 0 0 0 (2 ^ 15) 0 0 false
    , .markLoadConfig (hd 8) 0 0 0 0 (2 ^ 8) 0 false, .markLoadConfig (hd 8) 0 0 0 0 0 (2 ^ 8) false
    , .markLoadStart { hd 8 with cmdId := 2 ^ 16 } 0 0 0 0 early, .markLoadStart (hd 8) (2 ^ 32) 0 0 0 early
    , .markLoadStart (hd 8) 0 (2 ^ 8) 0 0 early, .markLoadStart (hd 8) 0 0 (2 ^ 8) 0 early] : List Instr).all fun i => !i.wf) = true := by decide +kernel

theorem test_refuses_commands_3 : (([.markLoadStart (hd 8) 0 0 0 (2 ^ 16) early, .markLoadStart (hd 8) 0 0 0 0 { early with sec := 2 ^ 64 }
    , .markLoadStop { hd 8 with cmdId := 2 ^ 16 }, .streamOpen { hd 8 with cmdId := 2 ^ 16 } 0 0, .streamOpen (hd 8) (2 ^ 16) 0
    , .streamOpen (hd 8) 0 (2 ^ 8), .streamClose { hd 8 with cmdId := 2 ^ 16 } 0, .streamClose (hd 8) (2 ^ 16)
    , .align { hd 8 with cmdId := 2 ^ 16 } 0 0 early, .align (hd 8) (2 ^ 8) 0 early, .align (hd 8) 0 (2 ^ 16) early
    , .align (hd 8) 0 0 { early with sec := 2 ^ 64 }, .alignCancel { hd 8 with cmdId := 2 ^ 16 }
    , .eventRouteBind { hd 8 with cmdId := 2 ^ 16 } xBindArgs, .eventRouteBind (hd 8) { xBindArgs with kind := 2 ^ 8 }
    , .eventRouteUnbind { hd 8 with cmdId := 2 ^ 16 } 0, .eventRouteUnbind (hd 8) (2 ^ 16)
    , .eventGate { hd 8 with cmdId := 2 ^ 16 } 0 0 early, .eventGate (hd 8) 0 0 { early with sec := 2 ^ 64 }
    , .acqSet { hd 8 with cmdId := 2 ^ 16 } 0 acqDefault, .acqSet (hd 8) (2 ^ 8) acqDefault
    , .acqSet (hd 8) 0 { acqDefault with src := 2 ^ 8 }, .acqArm { hd 8 with cmdId := 2 ^ 16 } 0, .acqArm (hd 8) (2 ^ 8)
    , .acqDisarm { hd 8 with cmdId := 2 ^ 16 } 0, .acqDisarm (hd 8) (2 ^ 8), .timeSetStepAbs { hd 8 with cmdId := 2 ^ 16 } early
    , .timeSetStepAbs (hd 8) { early with sec := 2 ^ 64 }, .timeSetStepRel { hd 8 with cmdId := 2 ^ 16 } 0
    , .timeSetStepRel (hd 8) (2 ^ 63), .timeSetDomain { hd 8 with cmdId := 2 ^ 16 } 0 (({} : TimeDom).set)
    , .timeSetDomain (hd 8) (2 ^ 8) (({} : TimeDom).set), .timeSetDomain (hd 8) 0 { (({} : TimeDom).set) with source := 2 ^ 8 }
    , .timeSetServo { hd 8 with cmdId := 2 ^ 16 } xServoArgs, .timeSetServo (hd 8) { xServoArgs with selmode := 2 ^ 8 }
    , .timeSetUtc { hd 8 with cmdId := 2 ^ 16 } 0, .timeSetUtc (hd 8) (2 ^ 15), .timeSelect { hd 8 with cmdId := 2 ^ 16 } 0
    , .timeSelect (hd 8) (2 ^ 8), .timeTimerArm { hd 8 with cmdId := 2 ^ 16 } xTimerArgs] : List Instr).all fun i => !i.wf) = true := by decide +kernel

theorem test_refuses_commands_4 : (([.timeTimerArm (hd 8) { xTimerArgs with element := 2 ^ 8 }, .timeTimerStop { hd 8 with cmdId := 2 ^ 16 } 0 0
    , .timeTimerStop (hd 8) (2 ^ 8) 0, .timeTimerStop (hd 8) 0 (2 ^ 8), .timeQuery { hd 8 with cmdId := 2 ^ 16 } 0
    , .timeQuery (hd 8) (2 ^ 32), .tiuMeasureStart { hd 8 with cmdId := 2 ^ 16 } 0 (({} : TiuEng).set)
    , .tiuMeasureStart (hd 8) (2 ^ 8) (({} : TiuEng).set), .tiuMeasureStart (hd 8) 0 { (({} : TiuEng).set) with mode := 2 ^ 8 }
    , .tiuMeasureStop { hd 8 with cmdId := 2 ^ 16 } 0, .tiuMeasureStop (hd 8) (2 ^ 8)
    , .tiuMeasureQuery { hd 8 with cmdId := 2 ^ 16 } 0 0, .tiuMeasureQuery (hd 8) (2 ^ 8) 0, .tiuMeasureQuery (hd 8) 0 (2 ^ 32)
    , .calRun { hd 8 with cmdId := 2 ^ 16 } 0 0 0, .calRun (hd 8) (2 ^ 16) 0 0, .calRun (hd 8) 0 (2 ^ 32) 0
    , .calRun (hd 8) 0 0 (2 ^ 32), .calCommit { hd 8 with cmdId := 2 ^ 16 } 0 0 0, .calCommit (hd 8) (2 ^ 16) 0 0
    , .calCommit (hd 8) 0 (2 ^ 32) 0, .calCommit (hd 8) 0 0 (2 ^ 32), .calSet { hd 8 with cmdId := 2 ^ 16 } 0 false 0 0 0 0
    , .calSet (hd 8) (2 ^ 16) false 0 0 0 0, .calSet (hd 8) 0 false (2 ^ 16) 0 0 0, .calSet (hd 8) 0 false 0 (2 ^ 32) 0 0
    , .calSet (hd 8) 0 false 0 0 (2 ^ 16) 0, .calSet (hd 8) 0 false 0 0 0 (2 ^ 32)
    , .powerSetDomain { hd 8 with cmdId := 2 ^ 16 } 0 0 0, .powerSetDomain (hd 8) (2 ^ 8) 0 0, .powerSetDomain (hd 8) 0 (2 ^ 8) 0
    , .powerSetDomain (hd 8) 0 0 (2 ^ 16), .powerSetGovernor { hd 8 with cmdId := 2 ^ 16 } xGovArgs
    , .powerSetGovernor (hd 8) { xGovArgs with mode := 2 ^ 8 }, .proofRun { hd 8 with cmdId := 2 ^ 16 } 0 0 0 0
    , .proofRun (hd 8) (2 ^ 8) 0 0 0, .proofRun (hd 8) 0 (2 ^ 8) 0 0, .proofRun (hd 8) 0 0 (2 ^ 8) 0
    , .proofRun (hd 8) 0 0 0 (2 ^ 32), .modeSet { hd 8 with cmdId := 2 ^ 16 } 0] : List Instr).all fun i => !i.wf) = true := by decide +kernel

theorem test_refuses_commands_5 : (([.modeSet (hd 8) (2 ^ 8), .statusQuery { hd 8 with cmdId := 2 ^ 16 } 0 0 0, .statusQuery (hd 8) (2 ^ 8) 0 0
    , .statusQuery (hd 8) 0 (2 ^ 32) 0, .statusQuery (hd 8) 0 0 (2 ^ 32), .ledgerQuery { hd 8 with cmdId := 2 ^ 16 } 0 0 0
    , .ledgerQuery (hd 8) (2 ^ 8) 0 0, .ledgerQuery (hd 8) 0 (2 ^ 16) 0, .ledgerQuery (hd 8) 0 0 (2 ^ 32)
    , .faultClear { hd 8 with cmdId := 2 ^ 16 } 0 0, .faultClear (hd 8) (2 ^ 8) 0, .faultClear (hd 8) 0 (2 ^ 32)
    , .patchStatus { hd 8 with cmdId := 2 ^ 16 } 0, .patchStatus (hd 8) (2 ^ 32), .linkStatus { hd 8 with cmdId := 2 ^ 16 } 0 0
    , .linkStatus (hd 8) (2 ^ 16) 0, .linkStatus (hd 8) 0 (2 ^ 32), .linkSet { hd 8 with cmdId := 2 ^ 16 } 0 0 0 0 0 0
    , .linkSet (hd 8) (2 ^ 16) 0 0 0 0 0, .linkSet (hd 8) 0 (2 ^ 8) 0 0 0 0, .linkSet (hd 8) 0 0 (2 ^ 8) 0 0 0
    , .linkSet (hd 8) 0 0 0 (2 ^ 8) 0 0, .linkSet (hd 8) 0 0 0 0 (2 ^ 32) 0, .linkSet (hd 8) 0 0 0 0 0 (2 ^ 8)
    , .ringSet { hd 8 with cmdId := 2 ^ 16 } (ring 1), .ringSet (hd 8) { (ring 1) with ring := 2 ^ 8 }
    , .hkSet { hd 8 with cmdId := 2 ^ 16 } 0 [], .hkSet (hd 8) (2 ^ 16) [], .hkSet (hd 8) 0 [(2 ^ 16, 0)]
    , .hkSet (hd 8) 0 [(0, 2 ^ 16)], .netSetDevnum { hd 8 with cmdId := 2 ^ 16 } 0, .netSetDevnum (hd 8) (2 ^ 16)
    , .netSetRoutes { hd 8 with cmdId := 2 ^ 16 } 0 0 0, .netSetRoutes (hd 8) (2 ^ 64) 0 0, .netSetRoutes (hd 8) 0 (2 ^ 16) 0
    , .netSetRoutes (hd 8) 0 0 (2 ^ 16), .entdaa (2 ^ 7), .setdasa (2 ^ 7), .pointFormed 0 [2048], .pointFormed 0 [-2049]] : List Instr).all fun i => !i.wf) = true := by decide +kernel

theorem test_refuses_commands_6 : (([.streamBlock (.tone 0) [2048], .streamBlock (.tone 0) [-2049], .triggerAccept 0 [2048], .triggerAccept 0 [-2049]
    , .forceTrigger 0 [2048], .forceTrigger 0 [-2049], .captureComplete 0 [2048], .captureComplete 0 [-2049]
    , .train 0 0 false (.tsCfg 0 0 0 65536), .hatchData 0 { blocks := List.replicate 11 xWire } xHatchFrame
    , .hatchData 0 { blocks := [] } { xHatchFrame with dest := 2 ^ 14 }
    , .hatchCredit 0 { blocks := List.replicate 11 xWire } xHatchFrame
    , .hatchCredit 0 { blocks := [] } { xHatchFrame with dest := 2 ^ 14 }, .doubt 0 { blocks := List.replicate 11 xWire } 0 0
    , .doubt 0 { blocks := [] } (2 ^ 14) 0, .doubt 0 { blocks := [] } 0 (2 ^ 32), .tReq 0 { blocks := List.replicate 11 xWire } 0
    , .tResp 0 { blocks := List.replicate 11 xWire } 0 0, .tFollow 0 { blocks := List.replicate 11 xWire } 0 0 none 0 0 0 0
    , .controlFrame 0 { blocks := List.replicate 11 xWire } 0 1 { dest := 0, msg := .drop 0 }
    , .controlFrame 0 { blocks := [] } (2 ^ 14) 1 { dest := 0, msg := .drop 0 }
    , .controlFrame 0 { blocks := [] } 0 0 { dest := 0, msg := .drop 0 }
    , .controlFrame 0 { blocks := [] } 0 9 { dest := 0, msg := .drop 0 }, .bulkFrame 0 { blocks := List.replicate 11 xWire } 0 1
    , .bulkFrame 0 { blocks := [] } (2 ^ 14) 1, .bulkFrame 0 { blocks := [] } 0 0, .bulkFrame 0 { blocks := [] } 0 9
    , .linkBlock 0 { xLinkBlock with ackp := 2 ^ 12 }, .arpRequest (2 ^ 32), .slowRound [], .slowRound (List.replicate 257 {})
    , .roundEnd { quiet with doms := [] }, .roundEnd { quiet with diodes := [] }] : List Instr).all fun i => !i.wf) = true := by decide +kernel


end Sys2Proof.Tests
end

section
/-! The header rules of a mailbox command (R406, R407, R9, R434) and the scheduling of shots (R420, R421). -/

namespace Sys2Proof.Machine

/-! ### The header of a mailbox command -/

/-- What the Atelier makes of an entry that it may serve: the header's first error, then the structure's place in
package memory, then the command's own meaning. -/
def headerChecked (m : Mail) (body : State → Reply) (s t : State) : Reply :=
  match hdrError m.h m.len s.host.version with
  | some o => .bad t o
  | none =>
    if m.h.flags = 3 && !inStaging m.h.addr m.len then .bad t 16
    else if m.h.flags = 3 && s.poisoned m.h.addr m.len then
      .no (noteUe (s.firstBad m.h.addr m.len) t) stFault (.field 16)
    else body t

/-- With queue, session and mode in order only the checks of header and structure stand before the command's meaning. -/
theorem exec_eq_done_headerChecked {c : Instr} {m : Mail} {s : State} (hm : mailOf c = some m)
    (hread : s.canRead m.h.sq.val = true) (hhalt : (s.sq m.h.sq.val).halted = false)
    (hwd : s.withdrawn m.h.sq.val m.op = false) (hopen : s.host.protoValid = true) (hmode : s.sys.mode ∈ m.modes) :
    ∃ body, exec c s = .next (m.done (headerChecked m body s (takeEntry m.h.sq.val s))) := by
  obtain ⟨body, hexec⟩ := exec_mailbox hm s
  refine ⟨body, hexec.trans (congrArg _ ?_)⟩
  have hmode' : m.modes.contains s.sys.mode = true := List.contains_iff_mem.mpr hmode
  simp only [mailbox, hread, hhalt, hwd, hopen, hmode', Bool.not_true, Bool.false_and, Bool.false_eq_true, if_false]
  rfl

section
variable {m : Mail} {s : State} (body : State → Reply) (t : State)

theorem headerChecked_of_hdrError {o : Nat} (h : hdrError m.h m.len s.host.version = some o) :
    headerChecked m body s t = .bad t o := by
  simp only [headerChecked, h]

theorem headerChecked_of_outside (h : hdrError m.h m.len s.host.version = none) (hf : m.h.flags = 3)
    (hout : inStaging m.h.addr m.len = false) : headerChecked m body s t = .bad t 16 := by
  simp [headerChecked, h, hf, hout]

theorem headerChecked_of_poisoned (h : hdrError m.h m.len s.host.version = none) (hf : m.h.flags = 3)
    (hin : inStaging m.h.addr m.len = true) (hbad : s.poisoned m.h.addr m.len = true) :
    headerChecked m body s t = .no (noteUe (s.firstBad m.h.addr m.len) t) stFault (.field 16) := by
  simp [headerChecked, h, hf, hin, hbad]

end

theorem plen_eq_of_hdrError_none {h : Hdr} {len version : Nat} (hn : hdrError h len version = none) : h.plen = len := by
  unfold hdrError at hn
  split_ifs at hn with hflags hlen
  exact not_not.mp hlen

theorem resv_eq_none_of_hdrError_none {h : Hdr} {len version : Nat} (hn : hdrError h len version = none) :
    h.resv = none := by
  unfold hdrError at hn
  cases hr : h.resv with
  | none => rfl
  | some o =>
    rw [hr] at hn
    split_ifs at hn

/-- Settles O12: each check of header and structure decides the reply before the command's own meaning is reached. -/
theorem headerRuleRefusal : Obligations.HeaderRuleRefusal := by
  unfold Obligations.HeaderRuleRefusal
  intro c m s hm hread hhalt hwd hopen hmode
  obtain ⟨body, hexec⟩ := exec_eq_done_headerChecked hm hread hhalt hwd hopen hmode
  refine ⟨fun o ho => ?_, fun hlen hn => hlen (plen_eq_of_hdrError_none hn),
    fun hresv hn => hresv (resv_eq_none_of_hdrError_none hn), fun hn hf hout => ?_, fun hn hf hin hbad => ?_⟩
  · rw [hexec, headerChecked_of_hdrError body _ ho]; rfl
  · rw [hexec, headerChecked_of_outside body _ hn hf hout]; rfl
  · rw [hexec, headerChecked_of_poisoned body _ hn hf hin hbad]; rfl

/-! ### A root of this device that takes a series of shots -/

/-- A command on a cell of this device alone has no other device to ask. -/
theorem onCell_of_local {s : State} {a : Nat} (h : s.isLocal a = true) (task : Task) (r : Reply) :
    onCell a task [] r s = r := by
  simp [onCell, span, h]

theorem keyOf_of_local {s : State} {a : Nat} (h : s.isLocal a = true) : s.keyOf a = localOf a := by
  simp [State.keyOf, h]

/-- Nothing bars a root from a series exactly where its latch is clear, it is not stopping, and each of its burins lies
in an available tile, under no proof run, and is loaded. -/
theorem startBar_eq_none_iff (s : State) (cell : Nat) : s.startBar cell = none ↔
    s.faulted (s.keyOf cell) = false ∧ s.stopping (s.keyOf cell) = false
      ∧ ∀ b ∈ s.burinsOf cell, s.tileBad b = false ∧ s.proofHolds b = false ∧ (s.burin b).loaded = true := by
  simp only [State.startBar]
  constructor
  · intro h
    split_ifs at h
    simp_all
  · rintro ⟨hf, hs, hb⟩
    have ht : (s.burinsOf cell).any s.tileBad = false := List.any_eq_false.mpr fun b h => by simp [(hb b h).1]
    have hp : (s.burinsOf cell).any s.proofHolds = false := List.any_eq_false.mpr fun b h => by simp [(hb b h).2.1]
    have hl : ((s.burinsOf cell).any fun b => !(s.burin b).loaded) = false :=
      List.any_eq_false.mpr fun b h => by simp [(hb b h).2.2]
    simp [hf, hs, ht, hp, hl]

theorem proofHolds_host (s : State) (x : HostIf) (b : Nat) :
    ({ s with host := x } : State).proofHolds b = s.proofHolds b := by
  simp only [State.proofHolds, State.proofCovers, burinsOf_host]
  rfl

theorem startBar_host_eq_none_iff (s : State) (x : HostIf) (cell : Nat) :
    ({ s with host := x } : State).startBar cell = none ↔ s.startBar cell = none := by
  simp only [startBar_eq_none_iff, burinsOf_host, proofHolds_host]
  exact Iff.rfl

theorem spans_host (s : State) (x : HostIf) (key : Nat) : ({ s with host := x } : State).spans key = s.spans key := by
  unfold State.spans State.remoteDevs State.rootDevs
  simp only [tree_host]
  rfl

/-- A root of this device alone that nothing bars from a series. -/
structure State.TakesSeries (s : State) (cell : Nat) : Prop where
  names : s.namesRoot cell = true
  isLocal : s.isLocal cell = true
  unbarred : s.startBar cell = none
  alone : s.spans (localOf cell) = false

/-- Reading the command's entry keeps it so. -/
theorem State.TakesSeries.takeEntry {s : State} {cell : Nat} (h : s.TakesSeries cell) (q : Nat) :
    (takeEntry q s).TakesSeries cell := by
  obtain ⟨x, hx, -⟩ := takeEntry_host q s
  rw [hx]
  exact ⟨h.names, h.isLocal, (startBar_host_eq_none_iff s x cell).mpr h.unbarred, (spans_host s x _).trans h.alone⟩

theorem cellDevs_takeEntry (q : Nat) (s : State) (cell : Nat) : (takeEntry q s).cellDevs cell = s.cellDevs cell :=
  cellDevs_host s _ cell

/-! ### CELL_START (R421) -/

/-- The series that a CELL_START begins: one shot, or an endless one with the period in µs. -/
def startedSeries (first period origin : Nat) : Series :=
  if period = 0 then { next := first, left := some 1, numbered := true, origin, period := 0 }
  else { next := first, left := none, numbered := false, fresh := true, origin, period := us period }

theorem startedSeries_nextFree (first period origin : Nat) :
    (startedSeries first period origin).nextFree = if period = 0 then some origin else none := by
  by_cases hp : period = 0 <;> simp [startedSeries, Series.nextFree, hp]

theorem cellStart_ends {h : Hdr} {cell period : Nat} {s : State} (hs : served (.cellStart h cell period) s = true)
    (hd : s.cellDevs cell = []) (hl : s.isLocal cell = true) :
    Ends (.cellStart h cell period) s (cellStartReply cell period) :=
  have hends : Ends (.cellStart h cell period) s fun t =>
      onCell cell (.start cell period) (t.cellDevs cell) (cellStartReply cell period t) t := ends_of rfl hs rfl
  hends.congr fun m _ => by
    rw [cellDevs_takeEntry, hd]
    exact onCell_of_local (s := takeEntry _ s) hl _ _

section
variable {t : State} {cell : Nat} (h : t.TakesSeries cell)
include h

theorem cellStartReply_of_running (period : Nat) (hr : (t.root (localOf cell)).running = true) :
    cellStartReply cell period t = { s := t } := by
  simp [cellStartReply, h.names, h.unbarred, h.isLocal, keyOf_of_local h.isLocal, State.running, hr]

/-- A start of an idle root adds one series that begins at the first word boundary after the start lead and 10 µs. -/
theorem cellStartReply_of_idle (period : Nat) (hr : (t.root (localOf cell)).running = false) :
    cellStartReply cell period t =
      { s := addSeries (localOf cell)
          (startedSeries (t.nextShot (localOf cell)) period (wordUp (t.now + t.lead (localOf cell) + us 10)))
          (t.nextShot (localOf cell)) t
        result := t.nextShot (localOf cell) } := by
  simp [cellStartReply, h.names, h.unbarred, h.isLocal, keyOf_of_local h.isLocal, State.running, hr, h.alone,
    startedSeries]

end

/-! ### SHOT_SCHEDULE (R420) -/

theorem shotSchedule_ends {h : Hdr} {cell count period : Nat} {origin : Stamp} {s : State}
    (hs : served (.shotSchedule h cell count period origin) s = true) (hd : s.cellDevs cell = [])
    (hl : s.isLocal cell = true) :
    Ends (.shotSchedule h cell count period origin) s (shotScheduleReply cell count period origin) :=
  have hends : Ends (.shotSchedule h cell count period origin) s fun t =>
      onCell cell (.schedule cell count period origin) (t.cellDevs cell) (shotScheduleReply cell count period origin t) t :=
    ends_of rfl hs rfl
  hends.congr fun m _ => by
    rw [cellDevs_takeEntry, hd]
    exact onCell_of_local (s := takeEntry _ s) hl _ _

/-- An origin is too early after a series that ends later, and after an endless one. -/
theorem RootRun.early_iff (r : RootRun) (o : Int) : r.early o = true ↔
    r.running = true ∧ ∃ before, r.freeFrom = some before ∧ ∀ n, before = some n → o < (n : Int) := by
  unfold RootRun.early
  rcases r.freeFrom with _ | _ | n <;> simp

/-- The series that a SHOT_SCHEDULE asks for. -/
def askedSeries (first count period : Nat) (o : Int) : Series :=
  { next := first, left := if count = 0 then none else some count, numbered := decide (count ≠ 0)
    fresh := decide (count = 0), origin := o.toNat, period }

theorem askedSeries_nextFree (first count period : Nat) (o : Int) :
    (askedSeries first count period o).nextFree = if count = 0 then none else some (o.toNat + count * period) := by
  by_cases hc : count = 0 <;> simp [askedSeries, Series.nextFree, hc]

section
variable {t : State} {cell period : Nat} {origin : Stamp} (h : t.TakesSeries cell)
  (hlo : 20000 ≤ period) (hhi : period ≤ 2 ^ 47) (hns : origin.ns < 1000000000)
  (hroom : (t.root (localOf cell)).series.length < 16)
include h hlo hhi hns hroom

/-- With operands in rule and room for a series, three things can happen: too early, LATE, or one more series. -/
theorem shotScheduleReply_eq (count : Nat) : shotScheduleReply cell count period origin t =
    if (t.root (localOf cell)).early (t.coarseOf (stampTicks origin)) then .bad t 16
    else if t.coarseOf (stampTicks origin) - (t.lead (localOf cell) : Int) < (t.now : Int) + (us 10 : Nat) then
      .no t stLate (.field 16)
    else
      { s := addSeries (localOf cell)
          (askedSeries (t.nextShot (localOf cell)) count period (t.coarseOf (stampTicks origin)))
          ((t.nextShot (localOf cell) + (count - 1)) % 2 ^ 64) t
        result := t.nextShot (localOf cell) } := by
  have hp : (period < 20000 || 2 ^ 47 < period) = false := by simpa using ⟨hlo, hhi⟩
  have hok : stampOk origin = true := by simpa [stampOk] using hns
  have hfull : ¬ 16 ≤ (t.root (localOf cell)).series.length := by omega
  simp only [shotScheduleReply, h.names, h.unbarred, h.isLocal, keyOf_of_local h.isLocal, h.alone, hp, hok, hfull,
    Bool.not_true, Bool.false_eq_true, if_false]
  rfl

end

/-- Settles O24: the replies of the two commands on a root that takes a series, read off after the entry is taken. -/
theorem shotCommandsSchedule : Obligations.ShotCommandsSchedule := by
  unfold Obligations.ShotCommandsSchedule
  constructor
  · intro h cell period s hs hd hnames hl hbar hspan
    have ht (q : Nat) := State.TakesSeries.takeEntry ⟨hnames, hl, hbar, hspan⟩ q
    have hends := cellStart_ends hs hd hl
    refine ⟨fun hr => hends.congr fun m _ => cellStartReply_of_running (ht _) period hr,
      fun hr hp => hends.congr fun m _ => ?_, fun hr hp => hends.congr fun m _ => ?_⟩
    · rw [cellStartReply_of_idle (ht _) period hr, addSeries, startedSeries_nextFree, startedSeries, if_pos hp, if_pos hp]; rfl
    · rw [cellStartReply_of_idle (ht _) period hr, addSeries, startedSeries_nextFree, startedSeries, if_neg hp, if_neg hp]; rfl
  · intro h cell count period origin s hs hd hnames hl hbar hspan hlo hhi hns key first o hroom early
    have hends := shotSchedule_ends hs hd hl
    have hreply (q : Nat) := shotScheduleReply_eq (State.TakesSeries.takeEntry ⟨hnames, hl, hbar, hspan⟩ q)
      hlo hhi hns hroom count
    have hearly : (s.root key).early o = true ↔ early := RootRun.early_iff _ _
    refine ⟨fun he => hends.congr fun m _ => ?_, fun he hlate => hends.congr fun m _ => ?_,
      fun he hnext => hends.congr fun m _ => ?_⟩
    · exact (hreply _).trans (if_pos (hearly.mpr he))
    · exact (hreply _).trans ((if_neg (mt hearly.mp he)).trans (if_pos hlate))
    · refine (hreply _).trans ((if_neg (mt hearly.mp he)).trans ((if_neg (not_lt.mpr hnext)).trans ?_))
      rw [addSeries, askedSeries_nextFree]; rfl

end Sys2Proof.Machine
end

section
/-! Reset (R26, R532), the entries that the Atelier does not read or refuses for the mode (R25, R32), and MODE_SET (R26,
R27). -/

namespace Sys2Proof.Machine

/-! ### What reset leaves -/

theorem dom_reset_of_ne {d : Nat} (h : d ≠ 0) : State.reset.dom d = {} := by
  simp [State.dom, State.reset, tget, Ne.symm h]

/-- Settles O3: every table of the reset state but that of the domains is empty. -/
theorem resetLeavesBootState : Obligations.ResetLeavesBootState :=
  ⟨rfl, rfl, rfl, fun _ hd => by rw [dom_reset_of_ne hd], rfl, fun _ => ⟨rfl, rfl⟩, rfl, rfl, fun _ => rfl, fun _ => rfl,
    fun _ => rfl, rfl, rfl⟩

/-! ### Entries that are not read, and those refused for the mode -/

/-- Settles O8: the one path of every mailbox command begins with the check that its entry can be read. -/
theorem unreadableEntryDoesNothing : Obligations.UnreadableEntryDoesNothing := by
  unfold Obligations.UnreadableEntryDoesNothing
  intro c m s hm hread
  obtain ⟨body, hexec⟩ := exec_mailbox hm s
  simp only [hexec, mailbox, hread, Bool.not_false, if_true]

/-- Settles O9: with queue and session in order the mode is the check that decides. -/
theorem commandOutsideItsModes : Obligations.CommandOutsideItsModes := by
  unfold Obligations.CommandOutsideItsModes
  intro c m s hm hread hhalt hwd hopen hmode
  obtain ⟨body, hexec⟩ := exec_mailbox hm s
  have hmode' : m.modes.contains s.sys.mode = false := by simpa using hmode
  refine hexec.trans (congrArg _ ?_)
  simp only [mailbox, hread, hhalt, hwd, hopen, hmode', Bool.not_true, Bool.not_false, Bool.false_and, Bool.false_eq_true,
    if_false, if_true]
  rfl

/-! ### MODE_SET (R26–R31) -/

theorem Mode.ofCode_code (m : Mode) : Mode.ofCode m.code = some m := by cases m <;> rfl

theorem Mode.ofCode_eq_none {code : Nat} (h : 7 < code) : Mode.ofCode code = none := by
  unfold Mode.ofCode
  split
  case h_9 => rfl
  all_goals omega

section
variable (h : Hdr) {t : State} {m : Mode}

theorem modeReply_same (hm : m = t.sys.mode) : modeReply h m.code t = { s := t } := by
  simp [modeReply, Mode.ofCode_code, hm]

theorem modeReply_of_freeMove (hm : (t.sys.mode, m) ∈ Sys2Proof.Claims.freeMoves) :
    modeReply h m.code t = { s := setMode m t } := by
  simp only [Sys2Proof.Claims.freeMoves, List.mem_cons, List.not_mem_nil, or_false, Prod.mk.injEq] at hm
  rcases hm with ⟨hs, rfl⟩ | ⟨hs, rfl⟩ | ⟨hs, rfl⟩ | ⟨hs, rfl⟩ | ⟨hs, rfl⟩ | ⟨hs, rfl⟩ | ⟨hs, rfl⟩ | ⟨hs, rfl⟩ | ⟨hs, rfl⟩
    | ⟨hs, rfl⟩
  all_goals simp [modeReply, Mode.ofCode_code, hs]

/-- Outside R26's table nothing but SAFE is reached. -/
theorem modeReply_of_unlisted (hm : m ≠ t.sys.mode) (hsafe : m ≠ .safe)
    (hfree : (t.sys.mode, m) ∉ Sys2Proof.Claims.freeMoves) (hbound : (t.sys.mode, m) ∉ Sys2Proof.Claims.boundMoves) :
    modeReply h m.code t = { s := t, status := 5, why := .mode } := by
  simp only [modeReply, Mode.ofCode_code, if_neg hm]
  generalize t.sys.mode = a at *
  split
  case h_18 => rfl
  all_goals simp [Sys2Proof.Claims.freeMoves, Sys2Proof.Claims.boundMoves] at hsafe hfree hbound

theorem modeReply_safe (hs : t.sys.mode ≠ .safe) : modeReply h Mode.safe.code t =
    { s := doubtDevice 12 (le 1 h.sq.val ++ pad 1 ++ le 2 h.cmdId ++ pad 28) t } := by
  simp [modeReply, Mode.ofCode_code, Ne.symm hs]

theorem modeReply_ready_of_valid (hs : t.sys.mode = .configure) (hv : t.validation = none) :
    modeReply h Mode.ready.code t =
      { s := setMode .ready { t with sys := { t.sys with valFailed := false, failKind := 0, failRef := 0 } } } := by
  simp [modeReply, Mode.ofCode_code, hs, hv]

theorem modeReply_ready_of_invalid (hs : t.sys.mode = .configure) {kind ref : Nat}
    (hv : t.validation = some (kind, ref)) : modeReply h Mode.ready.code t =
      { s := { t with sys := { t.sys with valFailed := true, failKind := kind, failRef := ref } }, status := 2, why := .field 0 } := by
  simp [modeReply, Mode.ofCode_code, hs, hv, Reply.bad, Reply.no]

theorem modeReply_ready_of_run (hs : t.sys.mode = .run) :
    modeReply h Mode.ready.code t = { s := stopAll t, wait := .cellsStopped } := by
  simp [modeReply, Mode.ofCode_code, hs]

theorem modeReply_ready_of_calibrate (hs : t.sys.mode = .calibrate) :
    modeReply h Mode.ready.code t = { s := t, wait := .trims } := by
  simp [modeReply, Mode.ofCode_code, hs]

/-- SAFE and SERVICE are left while no device-scope doubt is latched (R27). -/
theorem modeReply_configure_of_safe_or_service (hs : t.sys.mode = .safe ∨ t.sys.mode = .service) :
    modeReply h Mode.configure.code t =
      if t.devFault.codes = [] then { s := setMode .configure t } else { s := t, status := 7, why := .doubt } := by
  rcases hs with hs | hs <;> by_cases hf : t.devFault.codes = [] <;>
    simp [modeReply, Mode.ofCode_code, hs, hf, Reply.no]

/-- So is PROOF, once no proof run is in progress. -/
theorem modeReply_configure_of_proof (hs : t.sys.mode = .proof) : modeReply h Mode.configure.code t =
    if t.devFault.codes = [] then
      if (t.proofs.any fun e => e.2.active) = true then { s := t, status := 1, why := .inUse } else { s := setMode .configure t }
    else { s := t, status := 7, why := .doubt } := by
  by_cases hf : t.devFault.codes = [] <;> simp [modeReply, Mode.ofCode_code, hs, hf, Reply.no, Reply.busy]

end

/-- Settles O19: the reply of each row of R26's table, read off the state after the entry is taken, which has the mode,
the doubts, the proof runs and the configuration of the state before. -/
theorem modeSetFollowsTheTable : Obligations.ModeSetFollowsTheTable := by
  unfold Obligations.ModeSetFollowsTheTable
  intro h s
  have hends {code : Nat} (hs : served (.modeSet h code) s = true) : Ends (.modeSet h code) s (modeReply h code) :=
    ends_of rfl hs rfl
  refine ⟨fun m hs => ⟨fun hm => ?_, fun hm => ?_, fun hm hsafe hfree hbound => ?_, ?_, ?_, ?_, ?_, ?_, ?_, ?_, ?_, ?_⟩,
    fun code hcode hs => (hends hs).congr fun _ _ => ?_⟩
  · exact (hends hs).congr fun _ _ => modeReply_same h hm
  · exact (hends hs).congr fun _ _ => modeReply_of_freeMove h hm
  · exact (hends hs).congr fun _ _ => modeReply_of_unlisted h hm hsafe hfree hbound
  · rintro rfl hm
    exact (hends hs).congr fun _ _ => modeReply_safe h hm
  · rintro rfl hm hv
    exact (hends hs).congr fun _ _ => modeReply_ready_of_valid (t := takeEntry _ s) h hm hv
  · rintro kind ref rfl hm hv
    exact (hends hs).congr fun _ _ => modeReply_ready_of_invalid (t := takeEntry _ s) h hm hv
  · rintro rfl hm
    exact (hends hs).congr fun _ _ => modeReply_ready_of_run h hm
  · rintro rfl hm
    exact (hends hs).congr fun _ _ => modeReply_ready_of_calibrate h hm
  · rintro rfl hm hf
    refine (hends hs).congr fun _ _ => ?_
    rcases hm with hm | hm | hm
    · exact (modeReply_configure_of_safe_or_service (t := takeEntry _ s) h (.inl hm)).trans (if_neg hf)
    · exact (modeReply_configure_of_safe_or_service (t := takeEntry _ s) h (.inr hm)).trans (if_neg hf)
    · exact (modeReply_configure_of_proof (t := takeEntry _ s) h hm).trans (if_neg hf)
  · rintro rfl hm hf
    exact (hends hs).congr fun _ _ => (modeReply_configure_of_safe_or_service (t := takeEntry _ s) h hm).trans (if_pos hf)
  · rintro rfl hm hf hp
    exact (hends hs).congr fun _ _ => (modeReply_configure_of_proof (t := takeEntry _ s) h hm).trans ((if_pos hf).trans (if_pos hp))
  · rintro rfl hm hf hp
    exact (hends hs).congr fun _ _ =>
      (modeReply_configure_of_proof (t := takeEntry _ s) h hm).trans ((if_pos hf).trans (if_neg (Bool.not_eq_true _ ▸ hp)))
  · simp only [modeReply, Mode.ofCode_eq_none hcode]
    rfl

end Sys2Proof.Machine
end

section
/-! A command on a cell of this device alone, and CELL_CONFIGURE (R417, R418). -/

namespace Sys2Proof.Machine

/-! ### A command on a cell of this device -/

/-- Where no other device is concerned, the command does what this device's own reply says. -/
theorem Ends.of_onCell {c : Instr} {s : State} {a : Nat} {task : Task} {devs : State → List Nat} {r : State → Reply}
    (h : Ends c s fun t => onCell a task (devs t) (r t) t) (hl : s.isLocal a = true)
    (hd : ∀ q, devs (takeEntry q s) = []) : Ends c s r :=
  h.congr fun _ _ => by rw [hd]; exact onCell_of_local (s := takeEntry _ s) hl task _

theorem rootKey_host (s : State) (x : HostIf) (a : Nat) : ({ s with host := x } : State).rootKey a = s.rootKey a := by
  unfold State.rootKey
  rw [rootOf_host]
  rfl

/-- Whether a cell is in use does not depend on the host interface. -/
theorem cellInUse_host (s : State) (x : HostIf) (a : Nat) :
    ({ s with host := x } : State).cellInUse a = s.cellInUse a := by
  have hproof : ({ s with host := x } : State).proofHolds = s.proofHolds := funext (proofHolds_host s x)
  unfold State.cellInUse
  rw [rootKey_host, burinsOf_host, hproof]
  rfl

theorem cellInUse_takeEntry (q : Nat) (s : State) (a : Nat) : (takeEntry q s).cellInUse a = s.cellInUse a :=
  cellInUse_host s _ a

theorem burinsOf_takeEntry (q : Nat) (s : State) (a : Nat) : (takeEntry q s).burinsOf a = s.burinsOf a :=
  burinsOf_host s _ a

/-! ### CELL_CONFIGURE (R417) -/

/-- The operands of a CELL_CONFIGURE on a cell are in rule, and its burins lie in available tiles. -/
structure State.TakesItems (s : State) (cell : Nat) (items : List CfgItem) : Prop where
  exists_ : s.cellExists cell = true
  some_ : items ≠ []
  few : items.length ≤ 1024
  tiles : ∀ b ∈ s.burinsOf cell, s.tileBad b = false

theorem State.TakesItems.takeEntry {s : State} {cell : Nat} {items : List CfgItem} (h : s.TakesItems cell items)
    (q : Nat) : (takeEntry q s).TakesItems cell items :=
  ⟨h.exists_, h.some_, h.few, by rw [burinsOf_takeEntry]; exact h.tiles⟩

/-- What the items of a CELL_CONFIGURE leave, `s` being the state before it and `t` the one that the items give: every
channel whose range has changed is reset, every one in SAFE_PARK drives its PARK code (R200, R202). -/
def configured (cell : Nat) (items : List CfgItem) (s t : State) : State :=
  let u := each (fun z u => if (t.z z).span ≠ (s.z z).span ∨ (t.z z).fps ≠ (s.z z).fps then rangeChange z u else u)
    (rangeItems t cell items) t
  each parkChange (tkeys (u.zch.filter fun e => e.2.st == .safePark && decide (e.2.park ≠ e.2.code))) u

section
variable {t : State} {cell : Nat} {items : List CfgItem} (h : t.TakesItems cell items)
include h

theorem State.TakesItems.not_many : ¬ 1024 < items.length := not_lt.mpr h.few

theorem State.TakesItems.tilesGood : (t.burinsOf cell).any t.tileBad = false :=
  List.any_eq_false.mpr fun b hb => Bool.not_eq_true _ ▸ h.tiles b hb

theorem configureReply_of_inUse (hu : t.cellInUse cell = true) :
    configureReply cell items t = { s := t, status := 1, why := .inUse } := by
  simp [configureReply, h.exists_, h.some_, h.not_many, h.tilesGood, hu, Reply.busy, Reply.no]

theorem configureReply_of_item (hu : t.cellInUse cell = false) {t' : State} {k st : Nat} {why : Why}
    (ha : applyItems cell items items 0 t = (t', some (k, st, why))) :
    ∃ why', configureReply cell items t = { s := t, status := st, result := k, why := why' } :=
  ⟨_, by simp [configureReply, h.exists_, h.some_, h.not_many, h.tilesGood, hu, ha]; rfl⟩

/-- Items that all apply, and leave no refused pair of SPAN and FPS and a valid configuration, take effect. -/
theorem configureReply_of_applied (hu : t.cellInUse cell = false) {t' : State}
    (ha : applyItems cell items items 0 t = (t', none))
    (hpair : ∀ z ∈ rangeItems t' cell items, pairRefused (t'.z z) = false) (hv : t'.keepsValid = true) :
    configureReply cell items t = { s := configured cell items t t' } := by
  have hfind : (rangeItems t' cell items).find? (fun z => pairRefused (t'.z z)) = none :=
    List.find?_eq_none.mpr fun z hz => by simp [hpair z hz]
  simp [configureReply, h.exists_, h.some_, h.not_many, h.tilesGood, hu, ha, hfind, hv, configured]

end

theorem pairRefused_eq_false {c : ZChan} (h : ¬(c.fps = 2 ∧ (c.span = 1 ∨ c.span = 3))) : pairRefused c = false := by
  simpa [pairRefused] using h

/-- Settles O20: the reply of a cell of this device, read off the state after the entry is taken, by what its items come
to. -/
theorem cellConfigureIsAllOrNone : Obligations.CellConfigureIsAllOrNone := by
  unfold Obligations.CellConfigureIsAllOrNone
  intro h cell items s hs hd hl he hne hlen htiles
  have hin (q : Nat) : (takeEntry q s).TakesItems cell items := State.TakesItems.takeEntry ⟨he, hne, hlen, htiles⟩ q
  have hends : Ends (.cellConfigure h cell items) s (configureReply cell items) :=
    Ends.of_onCell (ends_of rfl hs rfl) hl fun q => (cellDevs_takeEntry q s cell).trans hd
  refine ⟨fun hu => ?_, fun s' k st why hu ha => ?_, fun s' hu ha hpair hv => ?_⟩
  · exact hends.congr fun _ _ => configureReply_of_inUse (hin _) ((cellInUse_takeEntry _ s cell).trans hu)
  · obtain ⟨why', hreply⟩ := configureReply_of_item (hin _) ((cellInUse_takeEntry _ s cell).trans hu) ha
    exact ⟨why', hends.congr fun m hm => by obtain rfl := Option.some.inj hm; exact hreply⟩
  · refine hends.congr fun m hm => ?_
    obtain rfl := Option.some.inj hm
    exact configureReply_of_applied (hin _) ((cellInUse_takeEntry _ s cell).trans hu) ha
      (fun z hz => pairRefused_eq_false (hpair z hz)) hv

end Sys2Proof.Machine
end

section
/-! Tables and loops: what an entry of a mapped table is, what an operation repeated over a list keeps and reaches. -/

namespace Sys2Proof.Machine

/-! ### Tables -/

theorem tget_of_not_mem_tkeys {α : Type} (d : α) {k : Nat} : ∀ {m : Tab α}, k ∉ tkeys m → tget d m k = d
  | [], _ => rfl
  | (j, v) :: m, h => by
    simp only [tkeys, List.map_cons, List.mem_cons, not_or] at h
    rw [tget, if_neg (Ne.symm h.1)]
    exact tget_of_not_mem_tkeys d h.2

theorem exists_of_mem_tmap {α : Type} [DecidableEq α] {d : α} {f : Nat → α → α} {e : Nat × α} :
    ∀ {m : Tab α}, e ∈ tmap d f m → ∃ v, (e.1, v) ∈ m ∧ e.2 = f e.1 v
  | (j, v) :: m, h => by
    have hrest (h : e ∈ tmap d f m) : ∃ w, (e.1, w) ∈ (j, v) :: m ∧ e.2 = f e.1 w :=
      (exists_of_mem_tmap h).imp fun _ hw => ⟨List.mem_cons_of_mem _ hw.1, hw.2⟩
    unfold tmap at h
    split at h
    · exact hrest h
    · rcases List.mem_cons.mp h with rfl | h
      · exact ⟨v, List.mem_cons_self, rfl⟩
      · exact hrest h

/-- What holds of the default and of every value that a map gives holds of every entry of the mapped table. -/
theorem tget_tmap_of {α : Type} [DecidableEq α] {P : α → Prop} {d : α} {f : Nat → α → α} (hd : P d)
    (hf : ∀ k v, P (f k v)) (k : Nat) : ∀ m : Tab α, P (tget d (tmap d f m) k)
  | [] => hd
  | (j, v) :: m => by
    unfold tmap
    split
    · exact tget_tmap_of hd hf k m
    · unfold tget
      split
      · exact hf j v
      · exact tget_tmap_of hd hf k m

theorem mem_tins_self {α : Type} (k : Nat) (v : α) : ∀ m : Tab α, (k, v) ∈ tins k v m
  | [] => List.mem_cons_self
  | (j, w) :: m => by
    unfold tins
    split
    · exact List.mem_cons_self
    · split
      · exact List.mem_cons_self
      · exact List.mem_cons_of_mem _ (mem_tins_self k v m)

/-- A written value that is not the default is listed. -/
theorem mem_tset_self {α : Type} [DecidableEq α] {d v : α} (h : v ≠ d) (m : Tab α) (k : Nat) :
    (k, v) ∈ tset d m k v := by
  rw [tset, if_neg h]
  exact mem_tins_self k v m

/-- A run of writes gives each key of the run its value. -/
theorem tget_tsetRun_add {α : Type} [DecidableEq α] (d : α) {i : Nat} : ∀ (vs : List α) (m : Tab α) (k : Nat)
    (h : i < vs.length), tget d (tsetRun d m k vs) (k + i) = vs[i]
  | v :: vs, m, k, h => by
    rw [tsetRun]
    cases i with
    | zero => exact (tget_tsetRun_ne d vs _ _ _ (.inl (Nat.lt_succ_self k))).trans (tget_tset_self d m k v)
    | succ i =>
      rw [show k + (i + 1) = k + 1 + i by omega, tget_tsetRun_add d vs _ (k + 1) (Nat.lt_of_succ_lt_succ h)]
      rfl

/-! ### Operations over a list -/

section
variable {α β : Type} {f : α → State → State}

/-- What every operation of a list leaves as it is, the whole list does. -/
theorem each_keeps (g : State → β) (h : ∀ a s, g (f a s) = g s) : ∀ (l : List α) (s : State), g (each f l s) = g s
  | [], _ => rfl
  | a :: l, s => (each_keeps g h l (f a s)).trans (h a s)

theorem each_invariant {P : State → Prop} (h : ∀ a s, P s → P (f a s)) : ∀ (l : List α) {s : State}, P s → P (each f l s)
  | [], _, hs => hs
  | a :: l, s, hs => each_invariant h l (h a s hs)

/-- What one element's operation brings about, and no operation undoes, holds after the list. -/
theorem each_reaches {P : State → Prop} {b : α} (hset : ∀ s, P (f b s)) (h : ∀ a s, P s → P (f a s)) :
    ∀ {l : List α}, b ∈ l → ∀ s, P (each f l s)
  | a :: l, hb, s => by
    rcases List.mem_cons.mp hb with rfl | hb
    · exact each_invariant h l (hset s)
    · exact each_reaches hset h hb (f a s)

/-- The same of one that holds from the start where the list leaves the element out. -/
theorem each_reaches_or {P : State → Prop} {b : α} {l : List α} {s : State} (hset : ∀ s, P (f b s))
    (h : ∀ a s, P s → P (f a s)) (hs : b ∉ l → P s) : P (each f l s) := by
  by_cases hb : b ∈ l
  · exact each_reaches hset h hb s
  · exact each_invariant h l (hs hb)

theorem times_keeps (g : State → β) {f : State → State} (h : ∀ s, g (f s) = g s) :
    ∀ (n : Nat) (s : State), g (times f n s) = g s
  | 0, _ => rfl
  | n + 1, s => (times_keeps g h n (f s)).trans (h s)

end

end Sys2Proof.Machine
end

section
/-! What driving outputs leaves alone (R31, R55, R169, R181, R201, R323, R349). -/

namespace Sys2Proof.Machine

/-- The state without what driving an output may change. -/
def State.withoutOutputs (s : State) : State :=
  { s with ports := [], tones := [], queues := [], zch := [], zbanks := [], ro := [], stipChains := [], acqPorts := []
           mark := {}, house := {}, time := { s.time with touts := [] } }

/-- What does not depend on outputs is the same of states that differ in outputs alone. -/
theorem same_of_withoutOutputs {β : Type} {s t : State} (h : t.withoutOutputs = s.withoutOutputs) (f : State → β)
    (hf : ∀ u : State, f u.withoutOutputs = f u) : f t = f s := by
  rw [← hf t, h, hf s]

/-! ### One element of an output table -/

section
variable (s : State) (k : Nat)

@[simp] theorem withoutOutputs_setPort (v : Port) : (s.setPort k v).withoutOutputs = s.withoutOutputs := rfl
@[simp] theorem withoutOutputs_modPort (f : Port → Port) : (s.modPort k f).withoutOutputs = s.withoutOutputs := rfl
@[simp] theorem withoutOutputs_setTone (v : Tone) : (s.setTone k v).withoutOutputs = s.withoutOutputs := rfl
@[simp] theorem withoutOutputs_modQueue (f : PlayQ → PlayQ) : (s.modQueue k f).withoutOutputs = s.withoutOutputs := rfl
@[simp] theorem withoutOutputs_modZ (f : ZChan → ZChan) : (s.modZ k f).withoutOutputs = s.withoutOutputs := rfl
@[simp] theorem withoutOutputs_modZbank (f : Banks → Banks) : (s.modZbank k f).withoutOutputs = s.withoutOutputs := rfl
@[simp] theorem withoutOutputs_modRot (f : RoTone → RoTone) : (s.modRot k f).withoutOutputs = s.withoutOutputs := rfl
@[simp] theorem withoutOutputs_modAcqPort (f : AcqPort → AcqPort) :
    (s.modAcqPort k f).withoutOutputs = s.withoutOutputs := rfl
@[simp] theorem withoutOutputs_mark (m : Markers) : ({ s with mark := m } : State).withoutOutputs = s.withoutOutputs := rfl
@[simp] theorem withoutOutputs_ro (m : Tab RoTone) : ({ s with ro := m } : State).withoutOutputs = s.withoutOutputs := rfl
@[simp] theorem withoutOutputs_stipChains (m : Tab Chain) :
    ({ s with stipChains := m } : State).withoutOutputs = s.withoutOutputs := rfl

end

/-! ### Plays, banks and entries -/

@[simp] theorem withoutOutputs_drainPort (p : Nat) (s : State) : (drainPort p s).withoutOutputs = s.withoutOutputs := by
  simp [drainPort, apply_ite State.withoutOutputs]

@[simp] theorem withoutOutputs_endPlay (t : Nat) (s : State) : (endPlay t s).withoutOutputs = s.withoutOutputs := by
  simp [endPlay, apply_ite State.withoutOutputs]

@[simp] theorem withoutOutputs_swapPort (p : Nat) (s : State) : (swapPort p s).withoutOutputs = s.withoutOutputs := by
  simp [swapPort]

@[simp] theorem withoutOutputs_drainZ (q : Nat) (s : State) : (drainZ q s).withoutOutputs = s.withoutOutputs := by
  simp [drainZ, apply_ite State.withoutOutputs]

@[simp] theorem withoutOutputs_swapZ (q : Nat) (s : State) : (swapZ q s).withoutOutputs = s.withoutOutputs := by
  simp [swapZ]

@[simp] theorem withoutOutputs_endFast (z : Nat) (s : State) : (endFast z s).withoutOutputs = s.withoutOutputs := by
  simp [endFast, endFastAt]

@[simp] theorem withoutOutputs_swapFir (i : Nat) (s : State) : (swapFir i s).withoutOutputs = s.withoutOutputs := by
  simp only [swapFir, withoutOutputs_modAcqPort, apply_ite State.withoutOutputs, withoutOutputs_stipChains,
    withoutOutputs_modRot, ite_self]

@[simp] theorem withoutOutputs_swapKernel (i : Nat) (s : State) :
    (swapKernel i s).withoutOutputs = s.withoutOutputs := by
  simp [swapKernel]

theorem withoutOutputs_swapWhere (p : Swap → Bool) (s : State) : (swapWhere p s).withoutOutputs = s.withoutOutputs := by
  unfold swapWhere
  rw [each_keeps State.withoutOutputs withoutOutputs_swapKernel, each_keeps State.withoutOutputs withoutOutputs_swapFir,
    each_keeps State.withoutOutputs withoutOutputs_swapZ, each_keeps State.withoutOutputs withoutOutputs_swapPort]

@[simp] theorem withoutOutputs_discardQueue (res : Nat) (s : State) :
    (discardQueue res s).withoutOutputs = s.withoutOutputs := rfl

@[simp] theorem withoutOutputs_mute (p : Nat) (s : State) : (mute p s).withoutOutputs = s.withoutOutputs := rfl

theorem withoutOutputs_boundaryPass (key : Nat) (ord : Option Nat) (s : State) :
    (boundaryPass key ord s).withoutOutputs = s.withoutOutputs := rfl

/-! ### Safe levels -/

@[simp] theorem withoutOutputs_zSafe (z : Nat) (s : State) : (zSafe z s).withoutOutputs = s.withoutOutputs := by
  simp [zSafe, zLoad, zLoadAt, apply_ite State.withoutOutputs]

@[simp] theorem withoutOutputs_safeTone (t : Nat) (s : State) : (safeTone t s).withoutOutputs = s.withoutOutputs := by
  simp [safeTone]

@[simp] theorem withoutOutputs_safeRes (res : Nat) (s : State) : (safeRes res s).withoutOutputs = s.withoutOutputs := by
  simp [safeRes, apply_ite State.withoutOutputs]

@[simp] theorem withoutOutputs_flagShared (key res : Nat) (s : State) :
    (flagShared key res s).withoutOutputs = s.withoutOutputs := by
  simp [flagShared, apply_ite State.withoutOutputs]

theorem withoutOutputs_markRoot (key : Nat) (flag : Bool) (s : State) :
    (markRoot key flag s).withoutOutputs = s.withoutOutputs := by
  simp [markRoot, followEnd, patternIdle, genIdle, markUpTo, apply_ite State.withoutOutputs]

theorem withoutOutputs_markSafe (s : State) : (markSafe s).withoutOutputs = s.withoutOutputs := by
  simp only [markSafe, genIdle, markUpTo, withoutOutputs_mark]

theorem withoutOutputs_elemsSafe (s : State) : (elemsSafe s).withoutOutputs = s.withoutOutputs := rfl

theorem withoutOutputs_injectSafe (s : State) : (injectSafe s).withoutOutputs = s.withoutOutputs := rfl

/-- The safe state of the device touches nothing but outputs. -/
theorem withoutOutputs_safeDevice (s : State) : (safeDevice s).withoutOutputs = s.withoutOutputs := by
  simp only [safeDevice, withoutOutputs_injectSafe, withoutOutputs_elemsSafe, withoutOutputs_markSafe, withoutOutputs_ro,
    each_keeps State.withoutOutputs withoutOutputs_zSafe, each_keeps State.withoutOutputs withoutOutputs_discardQueue,
    each_keeps State.withoutOutputs withoutOutputs_safeTone, each_keeps State.withoutOutputs withoutOutputs_mute]

end Sys2Proof.Machine
end

section
/-! The safe state of the device (R31, R509): what each output comes to. -/

namespace Sys2Proof.Machine

/-! ### What the single operations leave of one output -/

section
variable (s : State) (k : Nat)

@[simp] theorem ports_discardQueue : (discardQueue k s).ports = s.ports := rfl
@[simp] theorem tones_discardQueue : (discardQueue k s).tones = s.tones := rfl
@[simp] theorem zch_discardQueue : (discardQueue k s).zch = s.zch := rfl
@[simp] theorem zch_mute : (mute k s).zch = s.zch := rfl

@[simp] theorem zch_drainPort : (drainPort k s).zch = s.zch := by simp [drainPort, apply_ite State.zch]
@[simp] theorem queues_drainPort : (drainPort k s).queues = s.queues := by simp [drainPort, apply_ite State.queues]
@[simp] theorem tones_drainPort : (drainPort k s).tones = s.tones := by simp [drainPort, apply_ite State.tones]
@[simp] theorem zch_drainZ : (drainZ k s).zch = s.zch := by simp [drainZ, apply_ite State.zch]
@[simp] theorem ports_drainZ : (drainZ k s).ports = s.ports := by simp [drainZ, apply_ite State.ports]
@[simp] theorem tones_drainZ : (drainZ k s).tones = s.tones := by simp [drainZ, apply_ite State.tones]
@[simp] theorem queues_drainZ : (drainZ k s).queues = s.queues := by simp [drainZ, apply_ite State.queues]

@[simp] theorem zch_safeTone : (safeTone k s).zch = s.zch := by simp [safeTone, endPlay, apply_ite State.zch]
@[simp] theorem ports_zSafe : (zSafe k s).ports = s.ports := by
  simp [zSafe, zLoad, zLoadAt, endFast, endFastAt, apply_ite State.ports]
@[simp] theorem tones_zSafe : (zSafe k s).tones = s.tones := by
  simp [zSafe, zLoad, zLoadAt, endFast, endFastAt, apply_ite State.tones]
@[simp] theorem queues_zSafe : (zSafe k s).queues = s.queues := by
  simp [zSafe, zLoad, zLoadAt, endFast, endFastAt, apply_ite State.queues]

end

theorem State.port_of_ports {s t : State} (h : t.ports = s.ports) (k : Nat) : t.port k = s.port k := by
  rw [State.port, State.port, h]

theorem State.tone_of_tones {s t : State} (h : t.tones = s.tones) (k : Nat) : t.tone k = s.tone k := by
  rw [State.tone, State.tone, h]

theorem State.queue_of_queues {s t : State} (h : t.queues = s.queues) (k : Nat) : t.queue k = s.queue k := by
  rw [State.queue, State.queue, h]

theorem State.z_of_zch {s t : State} (h : t.zch = s.zch) (k : Nat) : t.z k = s.z k := by
  rw [State.z, State.z, h]

theorem State.port_modPort_eq (s : State) (k j : Nat) (f : Port → Port) :
    (s.modPort k f).port j = if j = k then f (s.port k) else s.port j := by
  split
  · next h => rw [h, State.port_modPort]
  · next h => exact State.port_modPort_ne s k j f h

theorem State.tone_setTone_eq (s : State) (k j : Nat) (v : Tone) :
    (s.setTone k v).tone j = if j = k then v else s.tone j := by
  split
  · next h => rw [h, State.tone_setTone]
  · next h => exact State.tone_setTone_ne s k j v h

theorem State.queue_modQueue_eq (s : State) (k j : Nat) (f : PlayQ → PlayQ) :
    (s.modQueue k f).queue j = if j = k then f (s.queue k) else s.queue j := by
  split
  · next h => rw [h, State.queue_modQueue]
  · next h => exact State.queue_modQueue_ne s k j f h

/-! ### Ports: muted until a start event (R180) -/

theorem unmuted_mute_self (p : Nat) (s : State) : ((mute p s).port p).unmuted = false := by
  simp [mute]

theorem unmuted_mute (k p : Nat) {s : State} (h : (s.port p).unmuted = false) : ((mute k s).port p).unmuted = false := by
  unfold mute
  rw [State.port_modPort_eq]
  split
  · rfl
  · exact h

theorem unmuted_drainPort (k p : Nat) (s : State) : ((drainPort k s).port p).unmuted = (s.port p).unmuted := by
  simp only [drainPort]
  split
  · rw [State.port_modPort_eq]
    split
    · next h => rw [h]
    · rfl
  · rfl

theorem unmuted_endPlay (t p : Nat) (s : State) : ((endPlay t s).port p).unmuted = (s.port p).unmuted := by
  simp only [endPlay]
  rw [unmuted_drainPort, State.port_of_ports (State.setTone_ports _ _ _)]
  split
  · rw [State.port_modPort_eq]
    split
    · next h => rw [h]
    · rfl
  · rfl

theorem unmuted_safeTone (t p : Nat) {s : State} (h : (s.port p).unmuted = false) :
    ((safeTone t s).port p).unmuted = false :=
  (unmuted_endPlay t p _).trans (unmuted_mute (tonePort t) p h)

/-! ### Tones and queues (R181) -/

theorem tone_endPlay (t k : Nat) (s : State) : (endPlay t s).tone k =
    if k = t then { s.tone t with play := none, pend := none, env := [] } else s.tone k := by
  simp only [endPlay]
  rw [State.tone_of_tones (tones_drainPort _ _), State.tone_setTone_eq]
  split
  · rfl
  · split <;> rfl

theorem play_safeTone_self (t : Nat) (s : State) : ((safeTone t s).tone t).play = none := by
  show ((endPlay t (mute (tonePort t) s)).tone t).play = none
  simp [tone_endPlay]

theorem play_safeTone (t k : Nat) {s : State} (h : (s.tone k).play = none) : ((safeTone t s).tone k).play = none := by
  show ((endPlay t (mute (tonePort t) s)).tone k).play = none
  rw [tone_endPlay]
  split
  · rfl
  · exact h

/-- No entry of a play-out queue waits, neither in it nor on its way to it. -/
def PlayQ.Clear (q : PlayQ) : Prop := q.entries = [] ∧ q.xbar = []

theorem clear_discardQueue_self (q : Nat) (s : State) : ((discardQueue q s).queue q).Clear := by
  simp [discardQueue, PlayQ.Clear]

theorem clear_discardQueue (k q : Nat) {s : State} (h : (s.queue q).Clear) : ((discardQueue k s).queue q).Clear := by
  unfold discardQueue
  rw [State.queue_modQueue_eq]
  split
  · exact ⟨rfl, rfl⟩
  · exact h

/-! ### Z channels (R201) -/

/-- What the safe state makes of the state and the code of a Z channel that stood as `c`. -/
def ZChan.SafeFrom (c d : ZChan) : Prop :=
  d.st = (if c.st = .driven then .safePark else c.st) ∧ (c.st = .driven → d.code = c.park) ∧ (c.st ≠ .driven → d.code = c.code)

theorem ZChan.SafeFrom.not_driven {c d : ZChan} (h : c.SafeFrom d) : d.st ≠ .driven := by
  rw [h.1]
  split
  · decide
  · assumption

theorem ZChan.safeFrom_self {c : ZChan} (h : c.st ≠ .driven) : c.SafeFrom c :=
  ⟨(if_neg h).symm, fun hd => absurd hd h, fun _ => rfl⟩

theorem ZChan.SafeFrom.trans_eq {c d e : ZChan} (h : c.SafeFrom d) (hst : e.st = d.st) (hcode : e.code = d.code) :
    c.SafeFrom e :=
  ⟨hst.trans h.1, fun hd => hcode.trans (h.2.1 hd), fun hd => hcode.trans (h.2.2 hd)⟩

theorem z_endFast_ne {z k : Nat} (h : k ≠ z) (s : State) : (endFast z s).z k = s.z k :=
  (State.z_of_zch (zch_drainZ _ _) k).trans (State.z_modZ_ne _ _ _ _ h)

/-- Ending a fast play leaves a channel's state and code. -/
theorem z_endFast_self (z : Nat) (s : State) :
    ((endFast z s).z z).st = (s.z z).st ∧ ((endFast z s).z z).code = (s.z z).code := by
  unfold endFast endFastAt
  rw [State.z_of_zch (zch_drainZ _ _), State.z_modZ]
  exact ⟨rfl, rfl⟩

theorem z_zSafe_ne {z k : Nat} (h : k ≠ z) (s : State) : (zSafe z s).z k = s.z k := by
  simp only [zSafe]
  split
  · rw [State.z_modZ_ne _ _ _ _ h, zLoad, zLoadAt, State.z_modZ_ne _ _ _ _ h, z_endFast_ne h]
  · split
    · rw [State.z_modZ_ne _ _ _ _ h, z_endFast_ne h]
    · rfl

theorem safeFrom_zSafe_self (z : Nat) (s : State) : (s.z z).SafeFrom ((zSafe z s).z z) := by
  obtain ⟨hst, hcode⟩ := z_endFast_self z s
  by_cases hd : (s.z z).st = .driven
  · refine ⟨?_, fun _ => ?_, fun hn => absurd hd hn⟩ <;> simp [zSafe, hd, zLoad, zLoadAt, ZChan.setOut]
  · refine (ZChan.safeFrom_self hd).trans_eq ?_ ?_ <;> simp only [zSafe, if_neg hd] <;> split <;> simp [hst, hcode]

theorem safeFrom_zSafe {c : ZChan} {k : Nat} (z : Nat) {s : State} (h : c.SafeFrom (s.z k)) : c.SafeFrom ((zSafe z s).z k) := by
  by_cases hk : k = z
  · subst hk
    obtain ⟨hst, -, hcode⟩ := safeFrom_zSafe_self k s
    exact h.trans_eq (hst.trans (if_neg h.not_driven)) (hcode h.not_driven)
  · rwa [z_zSafe_ne hk]

theorem safeFrom_each_zSafe {k : Nat} : ∀ {l : List Nat}, k ∈ l → ∀ s : State, (s.z k).SafeFrom ((each zSafe l s).z k)
  | z :: l, hk, s => by
    by_cases hz : k = z
    · subst hz
      exact each_invariant (P := fun t => (s.z k).SafeFrom (t.z k)) (fun z _ => safeFrom_zSafe z) l (safeFrom_zSafe_self k s)
    · have hrest := safeFrom_each_zSafe ((List.mem_cons.mp hk).resolve_left hz) (zSafe z s)
      rwa [z_zSafe_ne hz] at hrest

/-- A channel that the table does not list floats. -/
theorem safeFrom_each_zSafe_tkeys (k : Nat) (s : State) : (s.z k).SafeFrom ((each zSafe (tkeys s.zch) s).z k) := by
  by_cases hk : k ∈ tkeys s.zch
  · exact safeFrom_each_zSafe hk s
  · have hfloat : s.z k = {} := by rw [State.z, tget_of_not_mem_tkeys {} hk]
    exact each_invariant (P := fun t => (s.z k).SafeFrom (t.z k)) (fun z _ => safeFrom_zSafe z) _
      (ZChan.safeFrom_self (by rw [hfloat]; decide))

/-! ### The device -/

/-- The first steps of the safe state: every port is muted and every tone ended. -/
def tonesRest (s : State) : State :=
  let s := each mute (tkeys s.ports) s
  each safeTone (tkeys s.tones) s

/-- Then every queue is emptied. -/
def queuesRest (s : State) : State := each discardQueue (tkeys (tonesRest s).queues) (tonesRest s)

/-- Then every Z channel is made safe. -/
def channelsRest (s : State) : State := each zSafe (tkeys (queuesRest s).zch) (queuesRest s)

/-- The last steps of the safe state: windows close, markers idle and TIME_OUTs stop. -/
def lastRest (s : State) : State :=
  injectSafe (elemsSafe (markSafe { s with ro := tmap {} (fun _ r => { r with wins := [] }) s.ro }))

theorem safeDevice_eq (s : State) : safeDevice s = lastRest (channelsRest s) := rfl

section
variable (s : State)

theorem ports_lastRest : (lastRest s).ports = s.ports := by
  simp only [lastRest, injectSafe, elemsSafe, markSafe, genIdle, markUpTo]
theorem tones_lastRest : (lastRest s).tones = s.tones := by
  simp only [lastRest, injectSafe, elemsSafe, markSafe, genIdle, markUpTo]
theorem queues_lastRest : (lastRest s).queues = s.queues := by
  simp only [lastRest, injectSafe, elemsSafe, markSafe, genIdle, markUpTo]
theorem zch_lastRest : (lastRest s).zch = s.zch := by
  simp only [lastRest, injectSafe, elemsSafe, markSafe, genIdle, markUpTo]
theorem gen_lastRest : (lastRest s).mark.gen = .idle := rfl

theorem level_of_mem_lastRest {e : Nat × MrkOut} (h : e ∈ (lastRest s).mark.outs) : e.2.level = decide (e.2.idle = 1) := by
  obtain ⟨o, -, he⟩ := exists_of_mem_tmap h
  rw [he]
  rfl

theorem timeOut_lastRest (n : Nat) : ((lastRest s).elem 2 n).high = false ∧ ((lastRest s).elem 2 n).active = false :=
  tget_tmap_of (P := fun e : Elem => e.high = false ∧ e.active = false) ⟨rfl, rfl⟩ (fun _ _ => ⟨rfl, rfl⟩) n s.time.touts

end

theorem muted_safeDevice (p : Nat) (s : State) : (safeDevice s).muted p = true := by
  have hmute : ((each mute (tkeys s.ports) s).port p).unmuted = false :=
    each_reaches_or (P := fun t => (t.port p).unmuted = false) (unmuted_mute_self p) (fun k _ => unmuted_mute k p)
      fun hp => by rw [State.port, tget_of_not_mem_tkeys {} hp]
  have htones : ((tonesRest s).port p).unmuted = false :=
    each_invariant (P := fun t => (t.port p).unmuted = false) (fun t _ => unmuted_safeTone t p) _ hmute
  have hports : (safeDevice s).ports = (tonesRest s).ports := by
    rw [safeDevice_eq, ports_lastRest]
    exact (each_keeps State.ports (fun z s => ports_zSafe s z) _ _).trans
      (each_keeps State.ports (fun q s => ports_discardQueue s q) _ _)
  simp [State.muted, State.port_of_ports hports, htones]

theorem play_safeDevice (k : Nat) (s : State) : ((safeDevice s).tone k).play = none := by
  have hrest : ((tonesRest s).tone k).play = none :=
    each_reaches_or (P := fun t => (t.tone k).play = none) (play_safeTone_self k) (fun t _ => play_safeTone t k)
      fun hk => by rw [State.tone, tget_of_not_mem_tkeys {} hk]
  have htones : (safeDevice s).tones = (tonesRest s).tones := by
    rw [safeDevice_eq, tones_lastRest]
    exact (each_keeps State.tones (fun z s => tones_zSafe s z) _ _).trans
      (each_keeps State.tones (fun q s => tones_discardQueue s q) _ _)
  rw [State.tone_of_tones htones, hrest]

theorem clear_safeDevice (q : Nat) (s : State) : ((safeDevice s).queue q).Clear := by
  have hqueues : (safeDevice s).queues = (queuesRest s).queues := by
    rw [safeDevice_eq, queues_lastRest]
    exact each_keeps State.queues (fun z s => queues_zSafe s z) _ _
  rw [State.queue_of_queues hqueues]
  exact each_reaches_or (P := fun t => (t.queue q).Clear) (clear_discardQueue_self q) (fun k _ => clear_discardQueue k q)
    fun hq => by rw [State.queue, tget_of_not_mem_tkeys {} hq]; exact ⟨rfl, rfl⟩

theorem zch_queuesRest (s : State) : (queuesRest s).zch = s.zch :=
  (each_keeps State.zch (fun q s => zch_discardQueue s q) _ _).trans
    ((each_keeps State.zch (fun t s => zch_safeTone s t) _ _).trans (each_keeps State.zch (fun p s => zch_mute s p) _ _))

/-- Every Z channel that was DRIVEN is in SAFE_PARK at its park code, every other as it was (R201). -/
theorem safeFrom_safeDevice (z : Nat) (s : State) : (s.z z).SafeFrom ((safeDevice s).z z) := by
  rw [safeDevice_eq, State.z_of_zch (zch_lastRest _), ← State.z_of_zch (zch_queuesRest s)]
  exact safeFrom_each_zSafe_tkeys z (queuesRest s)

/-- Settles O45: what each output comes to, and the frame of an operation that touches outputs alone. -/
theorem safeStateOfTheDevice : Obligations.SafeStateOfTheDevice := by
  unfold Obligations.SafeStateOfTheDevice
  intro s
  have hframe := withoutOutputs_safeDevice s
  refine ⟨safeDevice s, rfl, fun p => muted_safeDevice p s, fun k => play_safeDevice k s, fun q => clear_safeDevice q s,
    fun z => safeFrom_safeDevice z s, fun e he => level_of_mem_lastRest _ he, gen_lastRest _, fun n => timeOut_lastRest _ n, ?_⟩
  exact ⟨same_of_withoutOutputs hframe State.engines fun _ => rfl, same_of_withoutOutputs hframe State.tiu fun _ => rfl,
      same_of_withoutOutputs hframe (·.time.timers) fun _ => rfl, same_of_withoutOutputs hframe (·.time.windows) fun _ => rfl,
      same_of_withoutOutputs hframe State.chans fun _ => rfl, same_of_withoutOutputs hframe State.now fun _ => rfl,
      same_of_withoutOutputs hframe State.devTicks fun _ => rfl, same_of_withoutOutputs hframe State.sys fun _ => rfl,
      same_of_withoutOutputs hframe State.mem fun _ => rfl⟩

end Sys2Proof.Machine
end

section
/-! PLATE_COMPOSE on plates and members of this device (R129–R137). -/

namespace Sys2Proof.Machine

/-! ### What the conditions read -/

theorem upChain_takeEntry (q : Nat) (s : State) (loc : Nat) : (takeEntry q s).upChain loc = s.upChain loc :=
  upFrom_host s _ _ loc

theorem holds_takeEntry (q : Nat) (s : State) (plate m : Nat) : (takeEntry q s).holds plate m = s.holds plate m := by
  rw [State.holds, State.holds, upChain_takeEntry]

theorem touches_takeEntry (q : Nat) (s : State) (plate : Nat) (l : List Nat) :
    (takeEntry q s).touches plate l = s.touches plate l := by
  have hin : (takeEntry q s).cellInUse = s.cellInUse := funext (cellInUse_takeEntry q s)
  rw [State.touches, State.touches, hin]
  rfl

theorem dissolveDevs_takeEntry (q : Nat) (s : State) (plate : Nat) :
    (takeEntry q s).dissolveDevs plate = s.dissolveDevs plate := by
  rw [State.dissolveDevs, State.dissolveDevs, cellDevs_takeEntry]
  rfl

theorem State.isLocal_of_plateArg {s : State} {plate : Nat} (h : s.plateArg plate = true) : s.isLocal plate = true := by
  simp only [State.plateArg, Bool.and_eq_true] at h
  exact h.1.2

/-! ### The configuration after a composition (R33) -/

theorem sys_setParent (p : Option Nat) (a : Nat) (s : State) : (setParent p a s).sys = s.sys := by
  unfold setParent
  split <;> rfl

theorem sys_each_setParent (p : Option Nat) (l : List Nat) (s : State) : (each (setParent p) l s).sys = s.sys :=
  each_keeps State.sys (sys_setParent p) l s

theorem sys_leaveShadow (plate : Nat) (l : List Nat) (s : State) : (leaveShadow plate l s).sys = s.sys := by
  unfold leaveShadow
  split <;> rfl

theorem sys_leaveParent (plate : Nat) (s : State) : (leaveParent plate s).sys = s.sys := by
  unfold leaveParent
  split
  · split
    · rfl
    · exact sys_leaveShadow _ _ s
  · rfl

/-- In CONFIGURE no composition is refused for the configuration it leaves. -/
theorem ifValid_of_configure {s' : State} (h : s'.sys.mode = .configure) (plate : Nat) (s : State) :
    ifValid s' plate s = { s := announce (muteHeld s') } := by
  simp [ifValid, State.keepsValid, h]

/-- An OPEN plate makes the configuration invalid (R28). -/
theorem validation_isSome_of_open {s : State} {n : Nat} {p : Plate} (hmem : (n, p) ∈ s.plates) (hp : p.st = .open_) :
    s.validation.isSome = true := by
  unfold State.validation
  split
  · rfl
  · split
    · rfl
    · next hnone =>
      have := List.find?_eq_none.mp hnone (n, p) hmem
      simp [hp] at this

/-! ### The replies -/

section
variable {t : State} {plate : Nat} (harg : t.plateArg plate = true)
include harg

theorem createReply_of_used (hst : (t.plateOf (localOf plate)).st ≠ .free) :
    createReply plate t = { s := t, status := 1, why := .inUse } := by
  simp [createReply, harg, hst, Reply.busy, Reply.no]

/-- The state in which CREATE has opened the descriptor. -/
def opened (plate : Nat) (s : State) : State :=
  (s.setPlate (localOf plate - 0x1000) { st := .open_, cell := plate }).setCell (localOf plate)
    { s.cell (localOf plate) with lastShot := 0xFFFFFFFFFFFFFFFF }

theorem createReply_of_free (hst : (t.plateOf (localOf plate)).st = .free) :
    createReply plate t = ifValid (opened plate t) plate t := by
  simp only [createReply, harg, hst]
  rfl

end

/-- CREATE in READY and RUN would leave an OPEN plate (R33). -/
theorem ifValid_opened_of_mode {t : State} (plate : Nat) (hmode : t.sys.mode = .ready ∨ t.sys.mode = .run) :
    ifValid (opened plate t) plate t = .no t stInvalid (.configured (localOf plate)) := by
  have hopen : ({ st := .open_, cell := plate } : Plate) ≠ {} := fun h => nomatch congrArg Plate.st h
  have hlisted : (localOf plate - 0x1000, { st := .open_, cell := plate : Plate }) ∈ (opened plate t).plates :=
    mem_tset_self hopen _ _
  have hvalid := validation_isSome_of_open hlisted rfl
  have hkeeps : (opened plate t).keepsValid = false := by
    have hm : (opened plate t).sys.mode = t.sys.mode := rfl
    rcases hmode with h | h <;> simp [State.keepsValid, hm, h, hvalid]
  simp [ifValid, hkeeps]

/-- The members of a composition: some cells, each once, none of which is in use. -/
structure State.TakesMembers (s : State) (plate : Nat) (members : List Nat) : Prop where
  plateArg : s.plateArg plate = true
  open_ : (s.plateOf (localOf plate)).st = .open_
  some_ : members ≠ []
  few : members.length ≤ 256
  cells : ∀ m ∈ members, s.cellExists m = true
  nodup : members.Nodup
  free : s.touches plate members = false

theorem State.TakesMembers.takeEntry {s : State} {plate : Nat} {members : List Nat} (h : s.TakesMembers plate members)
    (q : Nat) : (takeEntry q s).TakesMembers plate members :=
  ⟨h.plateArg, h.open_, h.some_, h.few, h.cells, h.nodup, (touches_takeEntry q s plate members).trans h.free⟩

section
variable {t : State} {plate : Nat} {members : List Nat} (h : t.TakesMembers plate members)
include h

theorem addReply_eq (hpar : ∀ m ∈ members, t.isLocal m = true → (t.cell (localOf m)).parent = none)
    (hholds : ∀ m ∈ members, t.holds plate m = false)
    (hroom : (t.plateOf (localOf plate)).members.length + members.length ≤ 256)
    (hgood : ∀ m ∈ members, t.memberBad m = false) :
    addReply plate members t = ifValid (each (setParent (some plate)) members (t.setPlate (localOf plate - 0x1000)
      { t.plateOf (localOf plate) with members := (t.plateOf (localOf plate)).members ++ members })) plate t := by
  have hcells : members.all t.cellExists = true := List.all_eq_true.mpr h.cells
  have hpar' : (members.any fun m => t.isLocal m && (t.cell (localOf m)).parent.isSome) = false :=
    List.any_eq_false.mpr fun m hm => by
      cases hl : t.isLocal m
      · simp
      · simp [hpar m hm hl]
  have hholds' : (members.any fun m => t.holds plate m) = false := List.any_eq_false.mpr fun m hm => by simp [hholds m hm]
  have hbad : members.any t.memberBad = false := List.any_eq_false.mpr fun m hm => by simp [hgood m hm]
  simp only [addReply, h.some_, not_lt.mpr h.few, h.plateArg, h.open_, hcells, hpar', hholds', not_lt.mpr hroom, hbad,
    h.nodup, h.free]
  rfl

theorem removeReply_eq (hin : ∀ m ∈ members, m ∈ (t.plateOf (localOf plate)).members) :
    removeReply plate members t = ifValid (each (setParent none) members (t.setPlate (localOf plate - 0x1000)
      ((t.plateOf (localOf plate)).without members))) plate t := by
  have hcells : members.all t.cellExists = true := List.all_eq_true.mpr h.cells
  have hin' : members.all (t.plateOf (localOf plate)).members.contains = true :=
    List.all_eq_true.mpr fun m hm => List.contains_iff_mem.mpr (hin m hm)
  simp only [removeReply, h.some_, not_lt.mpr h.few, h.plateArg, h.open_, hcells, hin', h.nodup, h.free]
  rfl

end

theorem sealReply_eq {t : State} {plate : Nat} (harg : t.plateArg plate = true)
    (hst : (t.plateOf (localOf plate)).st = .open_) (hsome : (t.plateOf (localOf plate)).members ≠ [])
    (hbelow : ∀ m ∈ (t.plateOf (localOf plate)).members, t.isLocal m = true → isPlate (localOf m) = true →
      (t.plateOf (localOf m)).st = .sealed) :
    sealReply plate t =
      { s := announce (t.setPlate (localOf plate - 0x1000) { t.plateOf (localOf plate) with st := .sealed }) } := by
  have hbelow' : ((t.plateOf (localOf plate)).members.any fun m =>
      t.isLocal m && isPlate (localOf m) && decide ((t.plateOf (localOf m)).st ≠ .sealed)) = false :=
    List.any_eq_false.mpr fun m hm => by
      intro hbad
      simp only [Bool.and_eq_true, decide_eq_true_eq] at hbad
      exact hbad.2 (hbelow m hm hbad.1.1 hbad.1.2)
  simp only [sealReply, harg, hst, hsome, hbelow']
  rfl

theorem dissolveReply_eq {t : State} {plate : Nat} (harg : t.plateArg plate = true)
    (hst : (t.plateOf (localOf plate)).st = .open_ ∨ (t.plateOf (localOf plate)).st = .sealed)
    (hup : ∀ a, (t.cell (localOf plate)).parent = some a → t.isLocal a = true → (t.plateOf (localOf a)).st ≠ .sealed)
    (hfree : t.touches plate (t.plateOf (localOf plate)).members = false) :
    dissolveReply plate t = ifValid (setParent none plate ((leaveParent plate
      (each (setParent none) (t.plateOf (localOf plate)).members t)).setPlate (localOf plate - 0x1000) {})) plate t := by
  have hst' : ¬((t.plateOf (localOf plate)).st = .free ∨ (t.plateOf (localOf plate)).st = .shadow) := by
    rcases hst with h | h <;> simp [h]
  unfold dissolveReply
  cases hp : (t.cell (localOf plate)).parent with
  | none => simp_all
  | some a =>
    have := hup a hp
    simp_all

/-! ### The commands -/

theorem composeCreate_ends {h : Hdr} {plate : Nat} {s : State} (hs : served (.plateComposeCreate h plate) s = true) :
    Ends (.plateComposeCreate h plate) s (createReply plate) :=
  ends_of rfl hs rfl

/-- Settles O23: each reply under its conditions, then the validity that CONFIGURE does not ask for. -/
theorem plateCommandsCompose : Obligations.PlateCommandsCompose := by
  unfold Obligations.PlateCommandsCompose
  refine ⟨fun h plate s hs harg => ⟨fun hst => ?_, fun hst hmode => ?_, fun hst hmode => ?_⟩,
    fun h plate members s hs hmode hdevs hsome hfew harg hst hcells hpar hholds hroom hgood hnodup hfree => ?_,
    fun h plate members s hs hmode hdevs hsome hfew harg hst hcells hnodup hin hfree => ?_,
    fun h plate s hs hdevs harg hst hsome hbelow => ?_, fun h plate s hs hmode hdevs harg hst hup hfree => ?_⟩
  · exact (composeCreate_ends hs).congr fun _ _ => createReply_of_used (t := takeEntry _ s) harg hst
  · exact (composeCreate_ends hs).congr fun _ _ =>
      (createReply_of_free (t := takeEntry _ s) harg hst).trans
        (ifValid_of_configure (s' := opened plate (takeEntry _ s)) hmode _ _)
  · exact ⟨_, (composeCreate_ends hs).congr fun _ _ =>
      (createReply_of_free (t := takeEntry _ s) harg hst).trans (ifValid_opened_of_mode (t := takeEntry _ s) plate hmode)⟩
  · have htakes (q : Nat) := State.TakesMembers.takeEntry ⟨harg, hst, hsome, hfew, hcells, hnodup, hfree⟩ q
    have hends : Ends (.plateComposeAdd h plate members) s (addReply plate members) :=
      Ends.of_onCell (ends_of rfl hs rfl) (State.isLocal_of_plateArg harg) fun _ => hdevs
    refine hends.congr fun m _ => (addReply_eq (htakes _) hpar
      (fun m hm => (holds_takeEntry _ s plate m).trans (hholds m hm)) hroom hgood).trans (ifValid_of_configure ?_ _ _)
    rw [sys_each_setParent]
    exact hmode
  · have htakes (q : Nat) := State.TakesMembers.takeEntry ⟨harg, hst, hsome, hfew, hcells, hnodup, hfree⟩ q
    have hends : Ends (.plateComposeRemove h plate members) s (removeReply plate members) :=
      Ends.of_onCell (ends_of rfl hs rfl) (State.isLocal_of_plateArg harg) fun _ => hdevs
    refine hends.congr fun m _ => (removeReply_eq (htakes _) hin).trans (ifValid_of_configure ?_ _ _)
    rw [sys_each_setParent]
    exact hmode
  · have hends : Ends (.plateComposeSeal h plate) s (sealReply plate) :=
      Ends.of_onCell (ends_of rfl hs rfl) (State.isLocal_of_plateArg harg) fun q => (cellDevs_takeEntry q s plate).trans hdevs
    exact hends.congr fun m _ => sealReply_eq (t := takeEntry _ s) harg hst hsome hbelow
  · have hends : Ends (.plateComposeDissolve h plate) s (dissolveReply plate) :=
      Ends.of_onCell (ends_of rfl hs rfl) (State.isLocal_of_plateArg harg)
        fun q => (dissolveDevs_takeEntry q s plate).trans hdevs
    refine hends.congr fun m _ => (dissolveReply_eq (t := takeEntry _ s) harg hst hup
      ((touches_takeEntry _ s plate _).trans hfree)).trans (ifValid_of_configure ?_ _ _)
    rw [sys_setParent, State.setPlate_sys, sys_leaveParent, sys_each_setParent]
    exact hmode

end Sys2Proof.Machine
end

section
/-! What reports leave alone: records of rings and streams (R437–R443, R252–R256), messages to other devices (R137, R138)
and the host's queues. -/

namespace Sys2Proof.Machine

/-- The state without what a report to the host or to another device may change. -/
def State.withoutReports (s : State) : State := { s with mem := {}, rings := [], streams := [], jvl := [], host := {} }

/-- What does not depend on reports is the same of states that differ in reports alone. -/
theorem same_of_withoutReports {β : Type} {s t : State} (h : t.withoutReports = s.withoutReports) (f : State → β)
    (hf : ∀ u : State, f u.withoutReports = f u) : f t = f s := by
  rw [← hf t, h, hf s]

section
variable (s : State)

theorem withoutReports_mem (m : PkgMem) : ({ s with mem := m } : State).withoutReports = s.withoutReports := rfl
theorem withoutReports_rings (m : Tab Ring) : ({ s with rings := m } : State).withoutReports = s.withoutReports := rfl
theorem withoutReports_host (m : HostIf) : ({ s with host := m } : State).withoutReports = s.withoutReports := rfl
theorem withoutReports_modSq (q : Nat) (f : SQ → SQ) : (s.modSq q f).withoutReports = s.withoutReports := rfl
theorem withoutReports_setRing (k : Nat) (v : Ring) : (s.setRing k v).withoutReports = s.withoutReports := rfl
theorem withoutReports_modStream (k : Nat) (f : Stream → Stream) : (s.modStream k f).withoutReports = s.withoutReports := rfl

end

/-! ### Messages -/

theorem sendFrame_eq (p vl : Nat) (body : FrameBody) (s : State) : ∃ j, sendFrame p vl body s = { s with jvl := j } := by
  unfold sendFrame
  split
  · exact ⟨_, rfl⟩
  · exact ⟨_, rfl⟩

theorem sendTo_eq (dev vl : Nat) (body : FrameBody) (s : State) : ∃ j, sendTo dev vl body s = { s with jvl := j } := by
  unfold sendTo
  split
  · exact sendFrame_eq _ vl body s
  · exact ⟨_, rfl⟩

theorem tell_eq (dev : Nat) (m : ControlMsg) (s : State) : ∃ j, tell dev m s = { s with jvl := j } := sendTo_eq dev 2 _ s

/-- What does not depend on the links is kept by a message. -/
theorem keeps_of_tell {β : Type} (f : State → β) (hf : ∀ (u : State) j, f { u with jvl := j } = f u) (dev : Nat)
    (m : ControlMsg) (s : State) : f (tell dev m s) = f s := by
  obtain ⟨j, hj⟩ := tell_eq dev m s
  rw [hj, hf]

theorem withoutReports_tell (dev : Nat) (m : ControlMsg) (s : State) : (tell dev m s).withoutReports = s.withoutReports :=
  keeps_of_tell State.withoutReports (fun _ _ => rfl) dev m s

theorem withoutReports_dropAsked (f : InFlight) (s : State) : (dropAsked f s).withoutReports = s.withoutReports := by
  unfold dropAsked
  split
  · exact each_keeps _ (fun d s => withoutReports_tell d _ s) _ s
  · rfl

/-! ### Records -/

theorem withoutReports_ringPut {k : Nat} {bytes : List Byte} {tag : Option (Nat × Nat)} {s s' : State}
    (h : ringPut k bytes tag s = some s') : s'.withoutReports = s.withoutReports := by
  unfold ringPut at h
  split at h
  · rw [← Option.some.inj h, withoutReports_setRing]
    simp only [putWhole, putBytes, withoutReports_mem]
  · cases h

theorem withoutReports_closeBlock (src : Nat) (s : State) : (closeBlock src s).withoutReports = s.withoutReports := by
  simp only [closeBlock]
  split
  · rfl
  · split
    · next s' hput => rw [withoutReports_modStream, withoutReports_ringPut hput]
    · rw [withoutReports_modStream]

theorem withoutReports_closeStream (src : Nat) (s : State) : (closeStream src s).withoutReports = s.withoutReports := by
  rw [closeStream, withoutReports_modStream, withoutReports_closeBlock]

theorem withoutReports_closeSession (s : State) : (closeSession s).withoutReports = s.withoutReports := by
  have hclose (l : List InFlight) : (resetQueues 0 false (stopTransfers (closeStreams (each dropAsked l s)))).withoutReports
      = s.withoutReports := by
    rw [resetQueues, withoutReports_host, stopTransfers, withoutReports_rings, closeStreams,
      each_keeps State.withoutReports withoutReports_closeStream, each_keeps State.withoutReports withoutReports_dropAsked]
  simp only [closeSession]
  split
  · rw [withoutReports_modSq, hclose]
  · exact hclose _

end Sys2Proof.Machine
end

section
/-! Stopping a root, and the two forms of CELL_ABORT (R34, R142, R520–R522). -/

namespace Sys2Proof.Machine

/-! ### What writing the records of a root leaves of its burins -/

theorem burins_streamWrite (key shot : Nat) (bytes : List Byte) (s : State) :
    (streamWrite key shot bytes s).burins = s.burins := by
  simp only [streamWrite]
  split
  · split <;> rw [State.setRoot_burins]
  · split
    · next s' hput =>
      rw [State.modRoot, State.setRoot_burins]
      exact same_of_withoutReports (withoutReports_ringPut hput) State.burins fun _ => rfl
    · split <;> rw [State.setRoot_burins]

theorem burins_flushHeld (key : Nat) : ∀ (n : Nat) (s : State), (flushHeld key n s).burins = s.burins
  | 0, _ => rfl
  | n + 1, s => by
    unfold flushHeld
    split
    · rfl
    · split
      · rfl
      · rw [burins_flushHeld key n, burins_streamWrite, State.modRoot, State.setRoot_burins]

theorem burins_post (key shot : Nat) (bytes : List Byte) (s : State) : (post key shot bytes s).burins = s.burins := by
  unfold post
  split
  · rw [State.modRoot, State.setRoot_burins]
  · rw [flush, burins_flushHeld, State.modRoot, State.setRoot_burins]

theorem burins_postGap (key reason first count : Nat) (s : State) : (postGap key reason first count s).burins = s.burins := by
  unfold postGap
  split
  · rfl
  · exact burins_post _ _ _ s

theorem burins_cancelUnstarted (key : Nat) (s : State) : (cancelUnstarted key s).burins = s.burins := by
  rw [cancelUnstarted, burins_postGap, State.modRoot, State.setRoot_burins]

theorem burins_gapShots (key reason : Nat) (unf : List Nat) (s : State) : (gapShots key reason unf s).burins = s.burins := by
  simp only [gapShots, burins_cancelUnstarted]
  split
  · rfl
  · exact burins_postGap _ _ _ _ s

theorem burins_of_withoutOutputs {s t : State} (h : t.withoutOutputs = s.withoutOutputs) : t.burins = s.burins :=
  same_of_withoutOutputs h State.burins fun _ => rfl

theorem burins_safeRoot (key : Nat) (flag : Bool) (s : State) : (safeRoot key flag s).burins = s.burins := by
  have helems (t : State) : (elemsRoot key t).burins = t.burins := by simp only [elemsRoot]
  have hres (l : List Nat) (t : State) : (each safeRes l t).burins = t.burins :=
    burins_of_withoutOutputs (each_keeps _ withoutOutputs_safeRes l t)
  have hshared (l : List Nat) (t : State) : (each (flagShared key) l t).burins = t.burins :=
    burins_of_withoutOutputs (each_keeps _ (withoutOutputs_flagShared key) l t)
  simp only [safeRoot]
  rw [burins_of_withoutOutputs (withoutOutputs_injectSafe _), helems,
    burins_of_withoutOutputs (withoutOutputs_markRoot key flag _), hres, hshared]

theorem burins_tellStopped (key : Nat) (s : State) : (tellStopped key s).burins = s.burins := by
  rw [tellStopped, each_keeps State.burins (fun d s => keeps_of_tell State.burins (fun _ _ => rfl) d _ s), State.modRoot,
    State.setRoot_burins]

/-! ### A root that has stopped at once -/

/-- Telling the devices that await the stop takes nothing from the root but their list. -/
theorem root_tellStopped (key : Nat) (s : State) :
    (tellStopped key s).root key = { s.root key with askers := [] } := by
  have hroots : (tellStopped key s).roots = (s.modRoot key fun r => { r with askers := [] }).roots :=
    each_keeps State.roots (fun d s => keeps_of_tell State.roots (fun _ _ => rfl) d _ s) _ _
  rw [State.root, hroots]
  exact State.root_modRoot s key _

theorem root_stopRoot (key reason : Nat) (flag : Bool) (s : State) :
    ((stopRoot key reason flag s).root key).running = false ∧ ((stopRoot key reason flag s).root key).stopAt = none := by
  simp only [stopRoot]
  rw [root_tellStopped, State.root_modRoot]
  exact ⟨rfl, rfl⟩

/-- A burin runs nothing, waits for nothing and holds no start event. -/
def Burin.Halted (r : Burin) : Prop := r.running = false ∧ r.waiting = none ∧ r.held = []

theorem halted_haltBurin_self (b : Nat) (s : State) : ((haltBurin b s).burin b).Halted := by
  rw [haltBurin, State.burin_modBurin]
  exact ⟨rfl, rfl, rfl⟩

theorem halted_haltBurin (a b : Nat) {s : State} (h : (s.burin b).Halted) : ((haltBurin a s).burin b).Halted := by
  by_cases hb : b = a
  · subst hb
    exact halted_haltBurin_self b s
  · rwa [haltBurin, State.burin_modBurin_ne _ _ _ _ hb]

theorem burins_stopRoot (key reason : Nat) (flag : Bool) (s : State) :
    (stopRoot key reason flag s).burins = (each haltBurin (s.rootBurins key) s).burins := by
  simp only [stopRoot]
  rw [burins_tellStopped, State.modRoot, State.setRoot_burins, burins_safeRoot, pendingNow,
    burins_of_withoutOutputs (withoutOutputs_boundaryPass key none _), swapsNow,
    burins_of_withoutOutputs (withoutOutputs_swapWhere _ _), burins_gapShots]

theorem halted_stopRoot {key b : Nat} {s : State} (hb : b ∈ s.rootBurins key) (reason : Nat) (flag : Bool) :
    ((stopRoot key reason flag s).burin b).Halted := by
  rw [State.burin, burins_stopRoot]
  exact each_reaches (P := fun t => (t.burin b).Halted) (halted_haltBurin_self b) (fun a _ => halted_haltBurin a b) hb s

/-! ### CELL_STOP and CELL_ABORT of a root of this device -/

theorem stopDevs_takeEntry {s : State} {cell : Nat} (hd : s.cellDevs cell = []) (q : Nat) :
    (takeEntry q s).stopDevs cell = [] := by
  unfold State.stopDevs
  split
  · exact (cellDevs_takeEntry q s cell).trans hd
  · rfl

section
variable {t : State} {cell : Nat} (hn : t.namesRoot cell = true) (hl : t.isLocal cell = true)
include hn hl

theorem cellStopReply_of_idle (h : (t.root (localOf cell)).running = false ∨ (t.root (localOf cell)).stopAt.isSome = true) :
    cellStopReply cell t = { s := t, result := 0xFFFFFFFFFFFFFFFF } := by
  rcases h with h | h <;> simp [cellStopReply, hn, hl, keyOf_of_local hl, State.running, State.stopping, h]

theorem cellStopReply_of_running (hr : (t.root (localOf cell)).running = true) (hs : (t.root (localOf cell)).stopAt = none) :
    cellStopReply cell t =
      { s := (beginStop (localOf cell) t).1, result := (beginStop (localOf cell) t).2, wait := .rootStop (localOf cell) } := by
  simp [cellStopReply, hn, hl, keyOf_of_local hl, State.running, State.stopping, hr, hs]

theorem cellAbortReply_of_idle (hr : (t.root (localOf cell)).running = false) : cellAbortReply cell t = { s := t } := by
  simp [cellAbortReply, hn, keyOf_of_local hl, State.running, hr]

theorem cellAbortReply_of_running (hr : (t.root (localOf cell)).running = true) :
    cellAbortReply cell t = { s := stopRoot (localOf cell) 3 false t } := by
  simp [cellAbortReply, hn, keyOf_of_local hl, State.running, hr]

end

/-! ### The command form (R522) -/

theorem flight_takeEntry (q k : Nat) (s : State) : ((takeEntry q s).sq k).flight = (s.sq k).flight := by
  by_cases h : k = q
  · subst h
    rw [takeEntry, State.sq_modSq]
  · rw [takeEntry, State.sq_modSq_ne _ _ _ _ h]

theorem history_takeEntry (q k : Nat) (s : State) : ((takeEntry q s).sq k).history = (s.sq k).history := by
  by_cases h : k = q
  · subst h
    rw [takeEntry, State.sq_modSq]
  · rw [takeEntry, State.sq_modSq_ne _ _ _ _ h]

/-- What is submitted and not read waits. -/
theorem mem_pending_of_mem_unread {s : State} {q : Nat} {e : Nat × Instr} (h : e ∈ s.unread q) : e.2 ∈ s.pending := by
  simp only [State.unread, List.mem_map] at h
  obtain ⟨⟨c, i⟩, hc, rfl⟩ := h
  have htake := (List.mem_zipIdx hc).2.2
  have hin := List.mem_of_mem_take (htake ▸ List.getElem_mem _)
  exact (List.mem_filter.mp hin).1

theorem unread_filter_eq_nil {s : State} {id : Nat} (h : ∀ c ∈ s.pending, hasId id c = false) (q : Nat) :
    (s.unread q).filter (fun e => hasId id e.2) = [] :=
  List.filter_eq_nil_iff.mpr fun e he => by simp [h _ (mem_pending_of_mem_unread he)]

section
variable {t : State} {cell q id : Nat} (hn : t.namesRoot cell = true)
include hn

theorem abortCmdReply_of_waiting {n : Nat} {c : Instr}
    (hlast : ((t.unread q).filter fun e => hasId id e.2).getLast? = some (n, c)) (hc : schedulesNow cell c = true) :
    abortCmdReply cell q id t =
      { s := t.setSq q { t.sq q with withdrawn := n :: (t.sq q).withdrawn.filter (· != n) } } := by
  simp only [abortCmdReply, hn, hlast, hc]
  rfl

theorem abortCmdReply_of_flight {f : InFlight} (hp : ∀ c ∈ t.pending, hasId id c = false)
    (hlast : ((t.sq q).flight.filter fun g => g.cmdId == id).getLast? = some f)
    (hs : schedules f.opcode f.cell cell = true) :
    abortCmdReply cell q id t =
      if f.uncommitted then
        { s := decideFlights (fun g => g == f && g.uncommitted) stFault (fun _ => 0) .doubt (dropAsked f t) }
      else .no t stAlready .doubt := by
  simp only [abortCmdReply, hn, unread_filter_eq_nil hp q, List.getLast?_nil, hlast, hs]
  rfl

theorem abortCmdReply_of_unknown (hp : ∀ c ∈ t.pending, hasId id c = false) (hf : ∀ g ∈ (t.sq q).flight, g.cmdId ≠ id)
    (hh : ∀ e ∈ (t.sq q).history, e.1 ≠ id) : abortCmdReply cell q id t = .bad t 5 := by
  have hf' : ((t.sq q).flight.filter fun g => g.cmdId == id) = [] :=
    List.filter_eq_nil_iff.mpr fun g hg => by simp [hf g hg]
  have hh' : ((t.sq q).history.find? fun e => e.1 == id) = none := List.find?_eq_none.mpr fun e he => by simp [hh e he]
  simp only [abortCmdReply, hn, unread_filter_eq_nil hp q, List.getLast?_nil, hf', hh']
  rfl

end

/-- A withdrawn entry completes with FAULT. -/
theorem exec_of_withdrawn {c : Instr} {m : Mail} {s : State} (hm : mailOf c = some m) (hread : s.canRead m.h.sq.val = true)
    (hhalt : (s.sq m.h.sq.val).halted = false) (hwd : s.withdrawn m.h.sq.val m.op = true) :
    exec c s = .next (m.done { s := takeEntry m.h.sq.val s, status := 7, why := .doubt }) := by
  obtain ⟨body, hexec⟩ := exec_mailbox hm s
  refine hexec.trans (congrArg _ ?_)
  simp only [mailbox, hread, hhalt, hwd]
  rfl

/-- Settles O25: the replies of the three commands, the withdrawn entry, and what a stopped root and its burins are. -/
theorem stopsEndTheRoot : Obligations.StopsEndTheRoot := by
  unfold Obligations.StopsEndTheRoot
  refine ⟨fun h cell s hs hd hn hl => ?_, fun h cell s hs hd hn hl => ?_, fun h cell q id s hs hn => ?_,
    fun c m s => exec_of_withdrawn, fun key reason flag s => ?_⟩
  · have hends : Ends (.cellStop h cell) s (cellStopReply cell) := Ends.of_onCell (ends_of rfl hs rfl) hl (stopDevs_takeEntry hd)
    exact ⟨fun hidle => hends.congr fun _ _ => cellStopReply_of_idle (t := takeEntry _ s) hn hl hidle,
      fun hr hst => hends.congr fun _ _ => cellStopReply_of_running (t := takeEntry _ s) hn hl hr hst⟩
  · have hends : Ends (.cellAbort h cell) s (cellAbortReply cell) :=
      Ends.of_onCell (ends_of rfl hs rfl) hl (stopDevs_takeEntry hd)
    exact ⟨fun hidle => hends.congr fun _ _ => cellAbortReply_of_idle (t := takeEntry _ s) hn hl hidle,
      fun hr => hends.congr fun _ _ => cellAbortReply_of_running (t := takeEntry _ s) hn hl hr⟩
  · have hends : Ends (.cellAbortCommandForm h cell q id) s (abortCmdReply cell q id) := ends_of rfl hs rfl
    refine ⟨fun n c hlast hc => hends.congr fun m hm => ?_, fun f hp hlast hop hcell => ?_,
      fun hp hf hh => hends.congr fun _ _ => ?_⟩
    · obtain rfl := Option.some.inj hm
      exact abortCmdReply_of_waiting (t := takeEntry _ s) hn hlast hc
    · have hsched : schedules f.opcode f.cell cell = true := by rcases hop with h | h <;> simp [schedules, h, hcell]
      have hreply (k : Nat) := abortCmdReply_of_flight (t := takeEntry k s) hn hp
        ((congrArg (fun l => (l.filter fun g => g.cmdId == id).getLast?) (flight_takeEntry k q s)).trans hlast) hsched
      exact ⟨fun hu => hends.congr fun _ _ => (hreply _).trans (if_neg (by simp [hu])),
        fun hu => hends.congr fun _ _ => (hreply _).trans (if_pos hu)⟩
    · exact abortCmdReply_of_unknown (t := takeEntry _ s) hn hp (by rwa [flight_takeEntry]) (by rwa [history_takeEntry])
  · obtain ⟨hrun, hstop⟩ := root_stopRoot key reason flag s
    exact ⟨hrun, hstop, fun b hb => halted_stopRoot hb reason flag⟩

end Sys2Proof.Machine
end

section
/-! Events of the host interface (R364, R365, R395, R399, R402, R405). -/

namespace Sys2Proof.Machine

/-! ### Heartbeat (R395) -/

theorem exec_heartbeatTimeout_of_start {s : State} {t : Nat} (hstart : s.host.hbStart = some t) (h0 : s.host.hbTimeout ≠ 0)
    (hb : s.sys.mode ≠ .boot) :
    exec .heartbeatTimeout s = .next (if t + 20000000 * s.host.hbTimeout ≤ s.now then
      doubtDevice 11 (le 2 s.host.hbTimeout ++ List.replicate 30 0) (setSum 12 { s with host := { s.host with hbStart := none } })
      else s) := by
  have hus : us (1000 * s.host.hbTimeout) = 20000000 * s.host.hbTimeout := by unfold us; omega
  show execHeartbeatTimeout s = _
  simp only [execHeartbeatTimeout, hstart, hus, h0, hb, ne_eq, not_false_eq_true, decide_true, Bool.true_and, Bool.and_true,
    decide_eq_true_eq]
  rfl

theorem exec_heartbeatTimeout_of_idle {s : State} (h : s.host.hbStart = none ∨ s.host.hbTimeout = 0 ∨ s.sys.mode = .boot) :
    exec .heartbeatTimeout s = .next s := by
  show execHeartbeatTimeout s = _
  unfold execHeartbeatTimeout
  split
  · next t hstart =>
    rcases h with h | h | h
    · rw [h] at hstart
      cases hstart
    · simp [h]
    · simp [h]
  · rfl

/-! ### Completions (R399, R402) -/

theorem exec_completionRelease_of_held {s : State} {c : Fin 64} {e : Completion} {rest : List Completion}
    (h : (s.cq c.val).held = e :: rest) :
    exec (.completionRelease c) s = .next (if s.cqFree c.val = true then
      writeCompletion c.val e (s.setCq c.val { s.cq c.val with held := rest }) else s) := by
  show execCompletionRelease c s = _
  simp only [execCompletionRelease, h]
  rfl

theorem exec_completionRelease_of_none {s : State} {c : Fin 64} (h : (s.cq c.val).held = []) :
    exec (.completionRelease c) s = .next s := by
  show execCompletionRelease c s = _
  simp only [execCompletionRelease, h]

/-- A queue that may not interrupt takes the completion at its slot and raises nothing. -/
theorem writeCompletion_of_silent {s : State} {c : Nat} (h : (s.cq c).ien = false) (e : Completion) :
    writeCompletion c e s = s.setCq c { s.cq c with
      written := ((s.cq c).written + 1) % 65536, unsig := (s.cq c).unsig + 1, unsigAt := some ((s.cq c).unsigAt.getD s.now)
      slots := (s.cq c).slots ++ [{ e with phase := decide ((s.cq c).written / s.depthNow % 2 = 0) }]
      last := some { e with phase := decide ((s.cq c).written / s.depthNow % 2 = 0) }
      image := some ((s.cq c).baseLo + (s.cq c).baseHi * 4294967296 + 16 * ((s.cq c).written % s.depthNow),
        Completion.bytes { e with phase := decide ((s.cq c).written / s.depthNow % 2 = 0) }) } := by
  simp only [writeCompletion, h, Bool.false_and, Bool.false_eq_true, if_false]
  rfl

theorem timerDue_iff (ien : Bool) (itime : Nat) (first : Option Nat) (now : Nat) :
    timerDue ien itime first now = true ↔ ien = true ∧ itime ≠ 0 ∧ ∃ t, first = some t ∧ t + 20000 * itime ≤ now := by
  have hus : us itime = 20000 * itime := by unfold us; omega
  cases first <;> simp [timerDue, hus, and_assoc]

/-! ### The PCIe link (R365, R405) -/

/-- The state once the session has closed, but for the commands past their commit point. -/
def sessionEnded (s : State) : State :=
  resetQueues 0 false (stopTransfers (closeStreams
    (each dropAsked ((s.host.sqs.filter fun e => decide (e.1 < 64)).flatMap fun e => e.2.flight) s)))

/-- Closing a session touches, beyond that, only the queue of such commands. -/
theorem closeSession_of {P : State → Prop} {s : State} (h : P (sessionEnded s))
    (hlate : ∀ f, P ((sessionEnded s).modSq lateQueue f)) : P (closeSession s) := by
  simp only [closeSession]
  split
  · exact hlate _
  · exact h

section
variable (version : Nat) (opened : Bool) (s : State)

theorem sq_resetQueues {q : Nat} (h0 : q ≠ 0) (hq : q < 64) : (resetQueues version opened s).sq q = {} := by
  have hkey : q ∉ tkeys (s.host.sqs.filter fun e => decide (64 ≤ e.1)) := by
    intro hmem
    obtain ⟨e, he, rfl⟩ := List.mem_map.mp hmem
    have := of_decide_eq_true (List.mem_filter.mp he).2
    omega
  exact (tget_tset_ne ({} : SQ) _ _ _ _ h0).trans (tget_of_not_mem_tkeys ({} : SQ) hkey)

theorem cq_resetQueues {q : Nat} (h0 : q ≠ 0) : (resetQueues version opened s).cq q = {} :=
  tget_tset_ne ({} : CQ) [] _ _ _ h0

theorem sq_resetQueues_zero : ((resetQueues version opened s).sq 0).flight = []
    ∧ ((resetQueues version opened s).sq 0).submitted = 0 ∧ ((resetQueues version opened s).sq 0).completed = 0 := by
  have h : (resetQueues version opened s).sq 0
      = { baseLo := (s.sq 0).baseLo, baseHi := (s.sq 0).baseHi, en := (s.sq 0).en, cq := (s.sq 0).cq } :=
    tget_tset_self ({} : SQ) _ 0 _
  rw [h]
  exact ⟨rfl, rfl, rfl⟩

end

theorem sq_sessionEnded_zero (s : State) : ((sessionEnded s).sq 0).flight = []
    ∧ ((sessionEnded s).sq 0).submitted = 0 ∧ ((sessionEnded s).sq 0).completed = 0 :=
  sq_resetQueues_zero _ _ _

theorem sq_closeSession {q : Nat} (hq : q < 64) (s : State) : (closeSession s).sq q = (sessionEnded s).sq q :=
  closeSession_of (P := fun t => t.sq q = (sessionEnded s).sq q) rfl
    fun f => State.sq_modSq_ne _ _ _ _ (by have : lateQueue = 64 + 2 ^ 14 + 1 := rfl; omega)

theorem cq_closeSession (q : Nat) (s : State) : (closeSession s).cq q = (sessionEnded s).cq q :=
  closeSession_of (P := fun t => t.cq q = (sessionEnded s).cq q) rfl fun _ => rfl

theorem protocol_closeSession (s : State) : (closeSession s).host.protoValid = false ∧ (closeSession s).host.version = 0 :=
  closeSession_of (P := fun t => t.host.protoValid = false ∧ t.host.version = 0) ⟨rfl, rfl⟩ fun _ => ⟨rfl, rfl⟩

theorem host_of_mem_rings_closeSession {s : State} {e : Nat × Ring} (h : e ∈ (closeSession s).rings) : e.2.host = false := by
  have hrings : (closeSession s).rings = (sessionEnded s).rings :=
    closeSession_of (P := fun t => t.rings = (sessionEnded s).rings) rfl fun _ => rfl
  rw [hrings] at h
  obtain ⟨r, -, he⟩ := exists_of_mem_tmap h
  rw [he]

/-- Settles O41: the events by their conditions, then the queues that a closed session leaves and the frame of closing. -/
theorem hostInterfaceEvents : Obligations.HostInterfaceEvents := by
  unfold Obligations.HostInterfaceEvents
  refine ⟨fun s t => exec_heartbeatTimeout_of_start, fun s => exec_heartbeatTimeout_of_idle,
    fun s c e rest => exec_completionRelease_of_held, fun s c => exec_completionRelease_of_none,
    fun s c e h => writeCompletion_of_silent h e, fun s c => ⟨fun t hien h0 ht hdue => ?_, fun hidle => ?_⟩,
    fun s gen width => rfl, fun s => ⟨_, rfl, ?_⟩⟩
  · have hd : timerDue (s.cq c.val).ien (s.cq c.val).itime (s.cq c.val).unsigAt s.now = true :=
      (timerDue_iff _ _ _ _).mpr ⟨hien, h0, t, ht, hdue⟩
    exact congrArg _ (if_pos hd)
  · have hd : ¬timerDue (s.cq c.val).ien (s.cq c.val).itime (s.cq c.val).unsigAt s.now = true := by
      rw [timerDue_iff]
      rintro ⟨hien, h0, t, ht, hdue⟩
      rcases hidle with h | h | h | ⟨u, hu, h⟩
      · simp [h] at hien
      · exact h0 h
      · simp [h] at ht
      · obtain rfl := Option.some.inj (hu.symm.trans ht)
        omega
    exact congrArg _ (if_neg hd)
  · obtain ⟨hproto, hversion⟩ := protocol_closeSession s
    have hframe := withoutReports_closeSession s
    refine ⟨rfl, hproto, hversion, fun q h0 => ⟨fun hq => ?_, ?_⟩, ?_⟩
    · exact (sq_closeSession hq s).trans (sq_resetQueues _ _ _ h0 hq)
    · exact (cq_closeSession q s).trans (cq_resetQueues _ _ _ h0)
    · obtain ⟨hflight, hsub, hdone⟩ := sq_sessionEnded_zero s
      have hzero := sq_closeSession (q := 0) (by decide) s
      exact ⟨(congrArg SQ.flight hzero).trans hflight, (congrArg SQ.submitted hzero).trans hsub,
        (congrArg SQ.completed hzero).trans hdone, fun e he => host_of_mem_rings_closeSession he,
        same_of_withoutReports hframe State.sys fun _ => rfl, same_of_withoutReports hframe State.burins fun _ => rfl,
        same_of_withoutReports hframe State.cells fun _ => rfl, same_of_withoutReports hframe State.plates fun _ => rfl,
        same_of_withoutReports hframe State.roots fun _ => rfl, same_of_withoutReports hframe State.tones fun _ => rfl,
        same_of_withoutReports hframe State.zch fun _ => rfl, same_of_withoutReports hframe State.domains fun _ => rfl,
        same_of_withoutReports hframe State.chans fun _ => rfl⟩

end Sys2Proof.Machine
end

section
/-! The sideband's requests and status reads (R548, R549). -/

namespace Sys2Proof.Machine

/-! ### Fields of a request -/

/-- A mask that keeps a field's bits keeps the field. -/
theorem bits_and {m lo w : Nat} (hm : ∀ i < w, m.testBit (lo + i) = true) (v : Nat) : bits (v &&& m) lo w = bits v lo w := by
  apply Nat.eq_of_testBit_eq
  intro i
  simp only [bits, Nat.testBit_mod_two_pow, Nat.testBit_div_two_pow, Nat.testBit_and]
  by_cases hi : i < w
  · rw [Nat.add_comm i lo, hm i hi]
    simp
  · simp [hi]

/-- The domain, the state and the wake channel of a power request stand clear of its reserved bits. -/
theorem bits_pwrReq (value : Word) : bits (value &&& 0x00FFFF7F#32).toNat 0 5 = value.toNat % 32
    ∧ bits (value &&& 0x00FFFF7F#32).toNat 5 2 = value.toNat / 32 % 4
    ∧ bits (value &&& 0x00FFFF7F#32).toNat 8 16 = value.toNat / 256 % 65536 := by
  rw [BitVec.toNat_and]
  refine ⟨(bits_and (by decide) _).trans ?_, (bits_and (by decide) _).trans ?_, (bits_and (by decide) _).trans ?_⟩ <;> simp [bits]

/-- So do the kind, the tests and the domain of a proof request. -/
theorem fields_proofReq (v : Nat) : v % 256 % 2 = v % 2 ∧ bits (v % 256) 3 5 = v / 8 % 32 ∧ bits (v % 256) 1 2 = v / 2 % 4 := by
  unfold bits
  omega

/-! ### Power requests -/

/-- A power request is refused: its status shows, and the refusal is logged. -/
def refusePwr (value : Word) (status : Nat) (why : Why) (t : State) : State :=
  logRefusal 2 status (value.toNat % 32 + value.toNat / 32 % 4 * 256) why
    { t with side := { t.side with pwrStatus := status, pwrDone := t.side.pwrDone || !t.side.pwrBusy } }

/-- A power request in the register, and what POWER_SET's rules make of it. -/
def pwrReply (value : Word) (s : State) : Reply :=
  powerReply true 0 (value.toNat % 32) (value.toNat / 32 % 4) (value.toNat / 256 % 65536)
    { s with side := { s.side with pwrReq := value &&& 0x00FFFF7F#32 } }

/-- An accepted request is BUSY until the state is reached, or DONE where it is the present one. -/
def pwrTaken (r : Reply) : State :=
  { r.s with side := { r.s.side with
      pwrBusy := decide (r.wait ≠ .nothing), pwrDone := decide (r.wait = .nothing), pwrStatus := 0 } }

/-- A power request, by the conditions in their order. -/
theorem exec_pwrReq (value : Word) (s : State) : exec (.pwrReq value) s = .next (
    if !s.sys.railsOk then s else if s.sys.mode = .boot then refusePwr value 5 .mode s
    else if s.side.pwrBusy then refusePwr value 1 .inUse s
    else if (pwrReply value s).status = 0 then pwrTaken (pwrReply value s)
    else refusePwr value (pwrReply value s).status (pwrReply value s).why (pwrReply value s).s) := by
  obtain ⟨hdom, hst, hwake⟩ := bits_pwrReq value
  show execPwrReq value s = _
  simp only [execPwrReq, hdom, hst, hwake, pwrTaken, decide_not, Bool.not_not]
  rfl

/-! ### Proof requests -/

/-- A proof request is refused: its status shows, and the refusal is logged. -/
def refuseProof (status : Nat) (why : Why) (t : State) : State :=
  logRefusal 0 status 0xFF51 why
    { t with side := { t.side with proofStatus := status, proofDone := t.side.proofDone || !t.side.proofBusy } }

/-- The state with a proof request in its registers. -/
def proofNoted (value cell : Word) (s : State) : State :=
  { s with side := { s.side with proofReq := BitVec.ofNat 32 (value.toNat % 256), proofCell := cell } }

/-- What PROOF_RUN's rules make of it. -/
def proofSbReply (value cell : Word) (s : State) : Reply :=
  proofRequest (value.toNat % 2) (value.toNat / 8 % 32) (value.toNat / 2 % 4) cell.toNat (proofNoted value cell s)

/-- An accepted request is BUSY, and in flight on the sideband's own queue. -/
def proofTaken (r : Reply) : State :=
  let t := r.s.modSq sbQueue fun k => { k with
    flight := k.flight ++ [{ cmdId := 0, opcode := 0x51, wait := r.wait, status := 0, result := r.result, cell := none, what := 0
                             target := 0xFF51 }] }
  { t with side := { t.side with proofBusy := true, proofDone := false, proofStatus := 0 } }

/-- A proof request, by the conditions in their order. -/
theorem exec_proofReq (value cell : Word) (s : State) : exec (.proofReq value cell) s = .next (
    if !s.sys.railsOk then s else if s.sys.mode = .boot then refuseProof 5 .mode s
    else if s.side.proofBusy then refuseProof 1 .inUse s
    else if !proofModes.contains s.sys.mode then refuseProof 5 .mode (proofNoted value cell s)
    else if (proofSbReply value cell s).status = 0 then proofTaken (proofSbReply value cell s)
    else refuseProof (proofSbReply value cell s).status (proofSbReply value cell s).why (proofSbReply value cell s).s) := by
  obtain ⟨hkind, hdom, htests⟩ := fields_proofReq value.toNat
  show execProofReq value cell s = _
  simp only [execProofReq, hkind, hdom, htests]
  rfl

/-! ### RESET, and PD02 -/

theorem exec_reset_key {s : State} (hrails : s.sys.railsOk = true) (hb : s.sys.mode ≠ .boot) (hat : s.sys.resetAt = none) :
    exec (.reset 0xC3A55A3C) s = .next { safeDevice s with sys := { s.sys with resetAt := some (s.now + 200000) } } := by
  show execReset 0xC3A55A3C s = _
  simp [execReset, beginReset, hrails, hb, hat, us]

theorem exec_reset_of_ignored {value : Word} {s : State}
    (h : value ≠ 0xC3A55A3C ∨ s.sys.mode = .boot ∨ s.sys.railsOk = false) : exec (.reset value) s = .next s := by
  show execReset value s = _
  have hidle : (decide (value = 0xC3A55A3C#32) && decide (s.sys.mode ≠ .boot) && s.sys.railsOk) = false := by
    rcases h with h | h | h
    · have hkey : ¬value = 0xC3A55A3C#32 := h
      simp [hkey]
    · simp [h]
    · simp [h]
  simp only [execReset, hidle]
  rfl

/-- PD02 may leave On for a sideband request alone (R450). -/
theorem powerReply_pd02 {s : State} (hon : (s.dom 2).st = .on) (hfree : s.domInUse 2 = false) (hmode : s.sys.mode = .configure) :
    (powerReply true 0 2 2 0xFFFF s).status = 0 ∧ (powerReply false 0 2 2 0xFFFF s).status = 2 := by
  have hcode : ¬DomSt.on.code = 2 := by decide
  simp [powerReply, State.wakeOk, hon, hfree, hmode, hcode, Reply.no, stInvalid]

/-- Settles O43: each request by the first condition that stands, RESET by its key, and the status reads. -/
theorem sidebandRequests : Obligations.SidebandRequests := by
  unfold Obligations.SidebandRequests
  refine ⟨fun value cell s hrails => ?_, fun s => powerReply_pd02, fun value s => exec_reset_of_ignored, fun _ => rfl, fun _ => rfl⟩
  refine ⟨fun hb => ⟨?_, ?_⟩, fun hb hbusy => ?_, fun hb hbusy => ?_, fun hb hbusy => ⟨fun hok => ?_, fun hok => ?_⟩,
    fun hmode hbusy => ?_, fun hmode hbusy => ?_, exec_reset_key hrails⟩
  · rw [exec_pwrReq, if_neg (by simp [hrails]), if_pos hb]
    rfl
  · rw [exec_proofReq, if_neg (by simp [hrails]), if_pos hb]
    rfl
  · rw [exec_pwrReq, if_neg (by simp [hrails]), if_neg hb, if_pos hbusy]
    rfl
  · rw [exec_proofReq, if_neg (by simp [hrails]), if_neg hb, if_pos hbusy]
    rfl
  · rw [exec_pwrReq, if_neg (by simp [hrails]), if_neg hb, if_neg (by simp [hbusy])]
    exact congrArg _ (if_pos hok)
  · rw [exec_pwrReq, if_neg (by simp [hrails]), if_neg hb, if_neg (by simp [hbusy])]
    exact congrArg _ (if_neg hok)
  · have hb : s.sys.mode ≠ .boot := fun h => by simp [h] at hmode
    have hin : proofModes.contains s.sys.mode = true := List.contains_iff_mem.mpr hmode
    rw [exec_proofReq, if_neg (by simp [hrails]), if_neg hb, if_neg (by simp [hbusy]), if_neg (by rw [hin]; decide)]
    exact ⟨fun hok => congrArg _ (if_pos hok), fun hok => congrArg _ (if_neg hok)⟩
  · have hb : s.sys.mode ≠ .boot := fun h => by simp [h] at hmode
    rw [exec_proofReq, if_neg (by simp [hrails]), if_neg hb, if_neg (by simp [hbusy]), hmode, if_pos (by decide)]
    rfl

end Sys2Proof.Machine
end

section
/-! Start events, held starts and shot boundaries (R22, R37, R88). -/

namespace Sys2Proof.Machine

/-! ### What returning credits and asking for lines leave as it is -/

section
variable {β : Type} {f : State → β} (hjvl : ∀ (u : State) j, f { u with jvl := j } = f u)
  (hchans : ∀ (u : State) c, f { u with chans := c } = f u) (hctrs : ∀ (u : State) c, f { u with chCtrs := c } = f u)
include hjvl

theorem keeps_of_sendHatch (e : Nat) (body : Nat → FrameBody) (s : State) : f (sendHatch e body s) = f s := by
  unfold sendHatch
  split
  · obtain ⟨j, hj⟩ := sendFrame_eq (epUnit e) 0 (body (s.jport (epUnit e)).peerDev) s
    rw [hj, hjvl]
  · obtain ⟨j, hj⟩ := sendTo_eq (epDev e) 0 (body (epDev e)) s
    rw [hj, hjvl]

include hchans

theorem keeps_of_returnCredits (ch n : Nat) (s : State) : f (returnCredits ch n s) = f s := by
  have hset (v : Channel) : f (s.setChan ch v) = f s := hchans s _
  simp only [returnCredits, creditFrames]
  split
  · split
    · rw [times_keeps f (keeps_of_sendHatch hjvl _ _), hset]
    · exact hset _
  · exact hset _

include hctrs

theorem keeps_of_flushEnds (ends : Nat → Bool) (force : Bool) (s : State) : f (flushEnds ends force s) = f s := by
  have hset (k : Nat) (v : Channel) (u : State) : f (u.setChan k v) = f u := hchans u _
  have hctr (k : Nat) (g : ChCtrs → ChCtrs) (u : State) : f (u.modChCtr k g) = f u := hctrs u _
  refine each_keeps f (fun ch s => ?_) _ s
  simp only []
  split
  · rw [keeps_of_returnCredits hjvl hchans, hctr, hset]
  · rfl

end

theorem burins_flushEnds (ends : Nat → Bool) (force : Bool) (s : State) : (flushEnds ends force s).burins = s.burins :=
  keeps_of_flushEnds (f := State.burins) (fun _ _ => rfl) (fun _ _ => rfl) (fun _ _ => rfl) ends force s

/-- Asking for a line touches the fetch of one burin and its underruns. -/
theorem burin_fetchOn_self (b : Nat) (s : State) : ∃ fe ur un,
    (fetchOn b s).burin b = { s.burin b with fetching := fe, underrun := ur, underruns := un } := by
  simp only [fetchOn, State.burin_modBurin]
  split
  · split <;> split <;> exact ⟨_, _, _, rfl⟩
  · exact ⟨_, _, _, rfl⟩

theorem burin_fetchOn_ne {b c : Nat} (h : c ≠ b) (s : State) : (fetchOn b s).burin c = s.burin c :=
  State.burin_modBurin_ne _ _ _ _ h

/-! ### A burin starts (R70, R87, R88) -/

/-- A burin at its start event, its buffer apart. -/
def Burin.started (shot origin : Nat) (r : Burin) : Burin :=
  { r with
    running := true, waiting := none, hold := none, shot, origin, micro := {}, underrun := false
    regs := { r.regs with pc := 0, loops := [] }
    iqOverruns := r.iqOverruns.add r.iq.length, iqLost := r.iqLost || decide (r.iq ≠ [])
    iq := [], lastPoint := none }

theorem startBurin_eq (b shot origin : Nat) (s : State) : ∃ u : State,
    u.burins = (s.modBurin b (Burin.started shot origin)).burins ∧ startBurin b shot origin s = fetchOn b u := by
  refine ⟨_, ?_, rfl⟩
  simp only [State.setCent, State.modBurin, State.setBurin, State.burin, burins_flushEnds]
  rfl

theorem burin_startBurin_self (b shot origin : Nat) (s : State) : ∃ fe ur un, (startBurin b shot origin s).burin b
    = { (s.burin b).started shot origin with fetching := fe, underrun := ur, underruns := un } := by
  obtain ⟨u, hu, he⟩ := startBurin_eq b shot origin s
  have hself : u.burin b = (s.burin b).started shot origin := by rw [State.burin, hu]; exact State.burin_modBurin s b _
  rw [he, ← hself]
  exact burin_fetchOn_self b u

theorem burin_startBurin_ne {b c : Nat} (h : c ≠ b) (shot origin : Nat) (s : State) :
    (startBurin b shot origin s).burin c = s.burin c := by
  obtain ⟨u, hu, he⟩ := startBurin_eq b shot origin s
  rw [he, burin_fetchOn_ne h, State.burin, hu]
  exact State.burin_modBurin_ne s _ _ _ h

theorem startOrHold_of_busy {b : Nat} {s : State} (h : (s.burin b).running = true ∨ (s.burin b).held ≠ []) (shot origin : Nat) :
    startOrHold shot origin b s = s.setBurin b { s.burin b with
      held := (s.burin b).held ++ [{ shot, origin }], shotOverruns := (s.burin b).shotOverruns.bump } :=
  if_pos (by rcases h with h | h <;> simp [h])

theorem startOrHold_of_idle {b : Nat} {s : State} (hr : (s.burin b).running = false) (hh : (s.burin b).held = [])
    (shot origin : Nat) : startOrHold shot origin b s = startBurin b shot origin s :=
  if_neg (by simp [hr, hh])

/-! ### Start events of a root -/

theorem exec_startEvent_of_idle {root : CellRef} {s : State}
    (h : (s.root (s.refKey root)).series = [] ∨ (s.root (s.refKey root)).running = false) :
    exec (.startEvent root) s = .next s := by
  show execStartEvent root s = _
  simp only [execStartEvent]
  split
  · next r rest hser =>
    rcases h with h | h
    · rw [h] at hser
      cases hser
    · rw [if_pos (by simp [h])]
  · rfl

theorem exec_startEvent_of_early {root : CellRef} {r : Series} {rest : List Series} {s : State}
    (hser : (s.root (s.refKey root)).series = r :: rest) (h : s.now + s.lead (s.refKey root) < r.origin) :
    exec (.startEvent root) s = .next s := by
  show execStartEvent root s = _
  simp only [execStartEvent, hser]
  rw [if_pos (by simp [h])]

/-- The shot that a start event of a root takes from its first series. -/
def State.shotTaken (s : State) (key : Nat) (r : Series) : Nat := if r.numbered || r.fresh then r.next else s.nextShot key

/-- The state once a root has taken it. -/
def shotDrawn (key : Nat) (r : Series) (rest : List Series) (s : State) : State :=
  (if r.numbered || r.fresh then s else s.modCell key fun c => { c with lastShot := s.shotTaken key r }).setRoot key
    { s.root key with
      series := r.after.toList ++ rest, starts := (s.root key).starts + 1
      cur := some { ord := (s.root key).starts + 1, shot := s.shotTaken key r, origin := r.origin }
      due := (s.root key).due ++ [{ ord := (s.root key).starts + 1, shot := s.shotTaken key r, origin := r.origin }] }

theorem exec_startEvent_of_due {root : CellRef} {r : Series} {rest : List Series} {s : State}
    (hser : (s.root (s.refKey root)).series = r :: rest) (hrun : (s.root (s.refKey root)).running = true)
    (h : r.origin ≤ s.now + s.lead (s.refKey root)) : exec (.startEvent root) s = .next
      (each (startOrHold (s.shotTaken (s.refKey root) r) r.origin)
        ((freeOutputs (s.refKey root) (shotDrawn (s.refKey root) r rest s)).rootBurins (s.refKey root))
        (freeOutputs (s.refKey root) (shotDrawn (s.refKey root) r rest s))) := by
  show execStartEvent root s = _
  simp only [execStartEvent, hser]
  rw [if_neg (by simp [hrun, h])]
  rfl

/-- A series loses one shot, and goes where that was the last. -/
theorem Series.after_toList (r : Series) : r.after.toList =
    match r.left with
    | none => [{ r with next := (r.next + 1) % 2 ^ 64, origin := r.origin + r.period, fresh := false }]
    | some n => if n ≤ 1 then [] else
        [{ r with next := (r.next + 1) % 2 ^ 64, origin := r.origin + r.period, fresh := false, left := some (n - 1) }] := by
  unfold Series.after
  cases r.left with
  | none => rfl
  | some n => by_cases h : n ≤ 1 <;> simp [h]

/-! ### Held starts (R88) -/

theorem exec_heldStart_of_idle {b : BurinId} {s : State} (h : (s.burin b.val).held = [] ∨ (s.burin b.val).running = true) :
    exec (.heldStart b) s = .next s := by
  show execHeldStart b s = _
  unfold execHeldStart
  split
  · next hd rest hheld =>
    rcases h with h | h
    · rw [h] at hheld
      cases hheld
    · rw [if_pos h]
  · rfl

theorem exec_heldStart_of_ended {b : BurinId} {hd : HeldStart} {rest : List HeldStart} {s : State}
    (hheld : (s.burin b.val).held = hd :: rest) (hr : (s.burin b.val).running = false) : exec (.heldStart b) s =
      .next (startBurin b.val hd.shot hd.origin (s.modBurin b.val fun r => { r with held := rest })) := by
  show execHeldStart b s = _
  simp only [execHeldStart, hheld, hr]
  rfl

/-! ### Shot boundaries (R37, R169, R496) -/

theorem exec_shotBoundary_of_none {root : CellRef} {s : State} (h : (s.root (s.refKey root)).due = []) :
    exec (.shotBoundary root) s = .next s := by
  show execShotBoundary root s = _
  simp only [execShotBoundary, h]

theorem exec_shotBoundary_of_early {root : CellRef} {d : Due} {rest : List Due} {s : State}
    (hdue : (s.root (s.refKey root)).due = d :: rest) (h : s.now < d.origin) : exec (.shotBoundary root) s = .next s := by
  show execShotBoundary root s = _
  simp only [execShotBoundary, hdue, h, if_true]

section
variable {β : Type} {f : State → β} (hf : ∀ (u : State) c, f { u with calib := c } = f u)
include hf

theorem keeps_of_burnish (i : Nat) (s : State) : f (burnish i s) = f s := by
  have hcal (k : Nat) (g : CalInst → CalInst) (u : State) : f (u.modCal k g) = f u := hf u _
  simp only [burnish, dueWrite]
  split
  · rfl
  · split
    · split <;> simp only [hcal]
    · exact hcal _ _ _

theorem keeps_of_burnishAll (clock : Option Nat) (s : State) : f (burnishAll clock s) = f s :=
  each_keeps f (fun i s => by
    split
    · exact keeps_of_burnish hf i s
    · rfl) _ s

end

/-- The boundary of a due shot passes: outputs and ramps apart, the shot is due no more. -/
theorem exec_shotBoundary_of_due {root : CellRef} {d : Due} {rest : List Due} {s : State}
    (hdue : (s.root (s.refKey root)).due = d :: rest) (h : d.origin ≤ s.now) : ∃ t, exec (.shotBoundary root) s = .next t ∧
      ∀ {β : Type} (f : State → β), (∀ u : State, f u.withoutOutputs = f u) → (∀ (u : State) c, f { u with calib := c } = f u) →
        f t = f (s.modRoot (s.refKey root) fun r => { r with due := rest }) := by
  have hnot : ¬s.now < d.origin := by omega
  have hex : exec (.shotBoundary root) s = execShotBoundary root s := rfl
  simp only [execShotBoundary, hdue, hnot, if_false] at hex
  refine ⟨_, hex, fun f hout hcal => ?_⟩
  have hplay (k o : Nat) (u : State) : (shotPlayback k o u).withoutOutputs = u.withoutOutputs := by
    simp only [shotPlayback, apply_ite State.withoutOutputs, withoutOutputs_mark, ite_self]
  rw [same_of_withoutOutputs (hplay _ _ _) f hout, keeps_of_burnishAll hcal, same_of_withoutOutputs (withoutOutputs_swapWhere _ _) f hout,
    same_of_withoutOutputs (withoutOutputs_boundaryPass _ _ _) f hout]

end Sys2Proof.Machine
end

section
/-! Entries, drop state, the governor, fetched lines, null PUTs, holds and waits (R46–R52, R59, R80, R90, R256). -/

namespace Sys2Proof.Machine

/-! ### Entries at their queue (R48–R52) -/

theorem exec_entryArrival_of_none {q : QueueId} {s : State} (h : (s.queue (qnum q)).xbar = []) :
    exec (.entryArrival q) s = .next s := by
  show execEntryArrival q s = _
  simp only [execEntryArrival, h]

/-- How long before its release an entry arrives. -/
def State.slack (s : State) (e : Entry) : Int := e.release - ((s.now + 15) / 16 * 16 : Nat)

/-- The state once an entry has been queued. -/
def entryQueued (res : Nat) (e : Entry) (rest : List Entry) (s : State) : State :=
  s.setQueue res { s.queue res with
    xbar := rest, lastArrived := some e.release
    entries := (s.queue res).entries ++ [{ e with slack := s.slack e, margin := s.slack e - ((s.queue res).floor : Int) * 16 }] }

/-- The state once an entry has been found late. -/
def entryLate (res : Nat) (e : Entry) (rest : List Entry) (reason : Nat) (s : State) : State :=
  doubtBurin e.burin 1 (s.lateRec res e reason (s.slack e))
    { s.setQueue res { s.queue res with
        xbar := [], returning := (s.queue res).returning + 1 + rest.length, lastPlaced := none
        lastArrived := some ((rest.getLast?.getD e).release), meter := { (s.queue res).meter with late := true } } with
      gov := { s.gov with late := true } }

/-- An entry is queued or late, as `lateReason` finds. -/
theorem exec_entryArrival_of_xbar {q : QueueId} {e : Entry} {rest : List Entry} {s : State}
    (h : (s.queue (qnum q)).xbar = e :: rest) : exec (.entryArrival q) s = .next
      ((lateReason e.release (s.slack e) (s.queue (qnum q)).lastArrived (s.queue (qnum q)).floor).elim
        (entryQueued (qnum q) e rest s) fun reason => entryLate (qnum q) e rest reason s) := by
  have hfloor : ((((s.queue (qnum q)).floor * 16 : Nat)) : Int) = ((s.queue (qnum q)).floor : Int) * 16 := by push_cast; rfl
  have hslack : e.release - ((wordUp s.now : Nat) : Int) = s.slack e := rfl
  show execEntryArrival q s = _
  simp only [execEntryArrival, h, hslack, hfloor]
  cases lateReason e.release (s.slack e) (s.queue (qnum q)).lastArrived (s.queue (qnum q)).floor with
  | none => rfl
  | some reason => simp only [Option.elim_some, entryLate, State.setQueue_gov]

section
variable {release slack : Int} {last : Option Int} {floor : Nat}

theorem lateReason_of_order (h : ∃ t, last = some t ∧ release ≤ t) : lateReason release slack last floor = some 3 := by
  obtain ⟨t, rfl, ht⟩ := h
  simp [lateReason, ht]

theorem lateReason_of_inOrder (h : ¬∃ t, last = some t ∧ release ≤ t) : lateReason release slack last floor =
    if slack ≤ 0 then some 2 else if slack < (floor : Int) * 16 then some 1 else none := by
  cases last with
  | none => simp [lateReason]
  | some t =>
    have ht : ¬release ≤ t := fun ht => h ⟨t, rfl, ht⟩
    simp [lateReason, ht]

end

/-! ### Drop state (R256) -/

theorem exec_dropStateExit_of_no {root : CellRef} {s : State} (h : (s.root (s.refKey root)).drop = false) :
    exec (.dropStateExit root) s = .next s := by
  show execDropStateExit root s = _
  simp [execDropStateExit, h]

/-- The record of what a drop state has dropped. -/
def State.dropRecord (s : State) (key : Nat) : List Byte :=
  gapRec 4 (decide ((s.root key).lastRec = some (s.root key).dropShot)) (s.root key).dropShot
    ((s.root key).dropLast - (s.root key).dropShot + 1) (s.rootAddr key) (s.root key).dropped

/-- With no gap record left to write, a drop state ends with the record of what it has dropped. -/
theorem exec_dropStateExit_of_drop {root : CellRef} {s : State} (hd : (s.root (s.refKey root)).drop = true)
    (hg : (s.root (s.refKey root)).gaps = []) : exec (.dropStateExit root) s = .next
      (if (s.root (s.refKey root)).dropped = 0 then
        flush (s.refKey root) (s.setRoot (s.refKey root) { s.root (s.refKey root) with drop := false })
      else (ringPut (s.streamRing (s.refKey root)) (withSeq (s.dropRecord (s.refKey root)) (s.root (s.refKey root)).seq)
          (some (s.refKey root, (s.root (s.refKey root)).dropShot)) s).elim s fun t =>
        flush (s.refKey root) (t.modRoot (s.refKey root) fun r => { r with
          drop := false, dropped := 0, dropShot := 0, dropLast := 0, seq := (r.seq + 1) % 65536 })) := by
  have hw : writeGaps (s.refKey root) (s.root (s.refKey root)).gaps.length s = s := by rw [hg]; rfl
  show execDropStateExit root s = _
  simp only [execDropStateExit, hd, hw, if_true]
  rw [if_neg (by simp [hg])]
  congr 2
  unfold State.dropRecord
  split <;> rename_i hput <;> rw [hput] <;> rfl

theorem roots_of_ringPut {k : Nat} {bytes : List Byte} {tag : Option (Nat × Nat)} {s t : State}
    (h : ringPut k bytes tag s = some t) : t.roots = s.roots :=
  same_of_withoutReports (withoutReports_ringPut h) State.roots fun _ => rfl

end Sys2Proof.Machine
end

section
/-! The fault summary and the governor (R59, R60, R394). -/

namespace Sys2Proof.Machine

/-! ### The fault summary (R394, R396) -/

theorem raiseVec_eq (v : Nat) (s : State) : ∃ x : HostIf, raiseVec v s = { s with host := x } ∧ x.faultsum = s.host.faultsum := by
  unfold raiseVec
  split
  · exact ⟨_, rfl, rfl⟩
  · exact ⟨_, rfl, rfl⟩

theorem raiseFault_eq (s : State) : ∃ x : HostIf, raiseFault s = { s with host := x } ∧ x.faultsum = s.host.faultsum := by
  unfold raiseFault
  split
  · exact raiseVec_eq _ s
  · exact ⟨s.host, rfl, rfl⟩

/-- A summary bit sets, every other stays, and nothing but the host interface hears of it. -/
theorem setSum_eq {k : Nat} (hk : k < 32) (s : State) : ∃ x : HostIf, setSum k s = { s with host := x }
    ∧ x.faultsum.getLsbD k = true ∧ ∀ j, s.host.faultsum.getLsbD j = true → x.faultsum.getLsbD j = true := by
  unfold setSum
  split
  · next h => exact ⟨s.host, rfl, h, fun _ => id⟩
  · obtain ⟨x, hx, hsum⟩ := raiseFault_eq
      { s with host := { s.host with faultsum := s.host.faultsum ||| BitVec.ofNat 32 (2 ^ k) } }
    refine ⟨x, hx, ?_, fun j hj => ?_⟩
    · rw [hsum, BitVec.getLsbD_or, BitVec.getLsbD_ofNat, Nat.testBit_two_pow_self, decide_eq_true hk]
      exact Bool.or_true _
    · rw [hsum, BitVec.getLsbD_or, hj]
      rfl

/-- What does not depend on the host interface is kept. -/
theorem keeps_of_setSum {β : Type} (f : State → β) (hf : ∀ (u : State) x, f { u with host := x } = f u) {k : Nat} (hk : k < 32)
    (s : State) : f (setSum k s) = f s := by
  obtain ⟨x, hx, -⟩ := setSum_eq hk s
  rw [hx, hf]

/-! ### The governor (R59, R60) -/

theorem exec_governorInterval_of_idle {s : State} (h : s.gov.on = false ∨ s.now < s.gov.since + 2000000) :
    exec .governorInterval s = .next s := by
  show execGovernorInterval s = _
  have hus : us 100 = 2000000 := rfl
  simp only [execGovernorInterval, hus]
  rw [if_pos (by rcases h with h | h <;> simp [h])]

/-- The interval was late or near late. -/
def Governor.low (g : Governor) : Bool :=
  g.late || match g.margin with | some m => decide (m < ((g.nearLate * 16 : Nat) : Int)) | none => false

/-- Every margin of the interval leaves room below. -/
def Governor.roomy (g : Governor) : Bool :=
  match g.margin with | some m => decide (((g.lower * 16 : Nat) : Int) < m) | none => true

/-- The quiet intervals so far, this one counted. -/
def Governor.quietNow (g : Governor) : Nat := if g.low then 0 else if g.roomy then g.quiet + 1 else 0

/-- The voltage that the first row of R59 that applies asks for. -/
def Governor.want (g : Governor) : Nat :=
  if g.fixed then g.vfixed else if g.low then g.vfab + 10 else if 16 ≤ g.quietNow then g.vfab - 10 else g.vfab

/-- The governor at the end of an interval. -/
def State.govNext (s : State) : Governor :=
  let sat := !s.gov.fixed && s.gov.low && decide (s.govUpper.1 ≤ s.gov.vfab)
  { s.gov with
    since := s.gov.since + 2000000, vfab := s.govClamp s.gov.want, margin := none, late := false
    quiet := if s.gov.fixed || 16 ≤ s.gov.quietNow then 0 else s.gov.quietNow
    saturated := sat, capped := sat && s.govUpper.2, conflict := decide (s.house.vcap < s.gov.vmin) }

/-- The end of an interval, the summary bits apart. -/
theorem exec_governorInterval_of_due {s : State} (hon : s.gov.on = true) (h : s.gov.since + 2000000 ≤ s.now) :
    ∃ x : HostIf, exec .governorInterval s = .next { s with gov := s.govNext, host := x }
      ∧ (s.govNext.saturated = true → x.faultsum.getLsbD 4 = true) := by
  have hex : exec .governorInterval s = .next
      (let t : State := { s with gov := s.govNext }
       let t := if s.govNext.saturated then setSum 4 t else t
       if s.govNext.capped then setSum 5 t else t) := by
    have hus : us 100 = 2000000 := rfl
    show execGovernorInterval s = _
    simp only [execGovernorInterval, hus]
    rw [if_neg (by simp [hon, h])]
    rfl
  have h4 : ∃ x : HostIf, (if s.govNext.saturated then setSum 4 { s with gov := s.govNext } else { s with gov := s.govNext })
      = { s with gov := s.govNext, host := x } ∧ (s.govNext.saturated = true → x.faultsum.getLsbD 4 = true) := by
    split
    · obtain ⟨x, hx, hbit, -⟩ := setSum_eq (k := 4) (by decide) { s with gov := s.govNext }
      exact ⟨x, hx, fun _ => hbit⟩
    · next hsat => exact ⟨s.host, rfl, fun h => absurd h hsat⟩
  obtain ⟨x, hx, hbit⟩ := h4
  simp only [hx] at hex
  split at hex
  · obtain ⟨y, hy, -, hkeep⟩ := setSum_eq (k := 5) (by decide) { s with gov := s.govNext, host := x }
    exact ⟨y, hex.trans (congrArg _ hy), fun hsat => hkeep 4 (hbit hsat)⟩
  · exact ⟨x, hex, hbit⟩

theorem Governor.low_iff (g : Governor) : g.low = true ↔ g.late = true ∨ ∃ m, g.margin = some m ∧ m < (g.nearLate : Int) * 16 := by
  unfold Governor.low
  cases g.margin <;> simp

theorem Governor.roomy_iff (g : Governor) : g.roomy = true ↔ g.margin = none ∨ ∃ m, g.margin = some m ∧ (g.lower : Int) * 16 < m := by
  unfold Governor.roomy
  cases g.margin <;> simp

theorem State.govUpper_eq (s : State) : s.govUpper.1 = min (min 850 s.gov.vmax) s.house.vcap := by
  have hmin : Nat.min 850 s.gov.vmax = min 850 s.gov.vmax := rfl
  unfold State.govUpper
  rw [hmin]
  simp only []
  split
  · omega
  · omega

theorem State.govClamp_eq (s : State) (v : Nat) :
    s.govClamp v = min (min (min 850 s.gov.vmax) s.house.vcap) (max (max 650 s.gov.vmin) v) := by
  unfold State.govClamp State.govLower
  rw [State.govUpper_eq]

/-- The upper limit of VFAB. -/
def State.govTop (s : State) : Nat := min (min 850 s.gov.vmax) s.house.vcap

/-- A voltage held within the limits. -/
def State.govHeld (s : State) (v : Nat) : Nat := min s.govTop (max (max 650 s.gov.vmin) v)

theorem vfab_govNext (s : State) : s.govNext.vfab = s.govHeld s.gov.want := s.govClamp_eq _

theorem quiet_govNext (s : State) : s.govNext.quiet = if s.gov.fixed || 16 ≤ s.gov.quietNow then 0 else s.gov.quietNow := rfl

theorem saturated_govNext (s : State) : s.govNext.saturated = (!s.gov.fixed && s.gov.low && decide (s.govTop ≤ s.gov.vfab)) := by
  rw [State.govTop, ← State.govUpper_eq]
  rfl

section
variable {s : State}

theorem govNext_of_fixed (hf : s.gov.fixed = true) :
    s.govNext.vfab = s.govHeld s.gov.vfixed ∧ s.govNext.saturated = false ∧ s.govNext.quiet = 0 := by
  simp [vfab_govNext, saturated_govNext, quiet_govNext, Governor.want, hf]

theorem govNext_of_low (hf : s.gov.fixed = false) (hl : s.gov.low = true) : s.govNext.vfab = s.govHeld (s.gov.vfab + 10)
    ∧ s.govNext.quiet = 0 ∧ (s.govNext.saturated = true ↔ s.govTop ≤ s.gov.vfab) := by
  simp [vfab_govNext, saturated_govNext, quiet_govNext, Governor.want, Governor.quietNow, hf, hl]

theorem govNext_of_roomy (hf : s.gov.fixed = false) (hl : s.gov.low = false) (hr : s.gov.roomy = true) :
    (s.gov.quiet + 1 = 16 → s.govNext.vfab = s.govHeld (s.gov.vfab - 10) ∧ s.govNext.quiet = 0)
    ∧ (s.gov.quiet + 1 < 16 → s.govNext.vfab = s.govHeld s.gov.vfab ∧ s.govNext.quiet = s.gov.quiet + 1) := by
  have hq : s.gov.quietNow = s.gov.quiet + 1 := by simp [Governor.quietNow, hl, hr]
  refine ⟨fun h => ?_, fun h => ?_⟩
  · simp [vfab_govNext, quiet_govNext, Governor.want, hf, hl, hq, h]
  · have hfew : ¬16 ≤ s.gov.quiet + 1 := by omega
    simp only [vfab_govNext, quiet_govNext, Governor.want, hf, hl, hq, hfew, decide_false, Bool.or_false, Bool.false_eq_true, if_false,
      and_self]

theorem govNext_of_tight (hf : s.gov.fixed = false) (hl : s.gov.low = false) (hr : s.gov.roomy = false) :
    s.govNext.vfab = s.govHeld s.gov.vfab ∧ s.govNext.quiet = 0 := by
  simp [vfab_govNext, quiet_govNext, Governor.want, Governor.quietNow, hf, hl, hr]

end

end Sys2Proof.Machine
end

section
/-! Fetched lines, null PUTs, held PUTs and waits (R46, R80, R89, R90), and the events of a shot together. -/

namespace Sys2Proof.Machine

/-! ### Fetched lines (R80, R81) -/

theorem exec_lineFetchComplete_of_no {b : BurinId} {bad : Bool} {s : State}
    (h : (s.burin b.val).fetching = none ∨ s.isOn 4 = false) : exec (.lineFetchComplete b bad) s = .next s := by
  show execLineFetchComplete b bad s = _
  unfold execLineFetchComplete
  split
  · rfl
  · next l hf =>
    rcases h with h | h
    · rw [h] at hf
      cases hf
    · simp [h]

/-- The first byte of a line of a burin's image. -/
def Burin.lineAt (r : Burin) (l : Nat) : Nat := r.imgBase + 32 * l

/-- The words of a line. -/
def State.lineWords (s : State) (b l : Nat) : List Word :=
  (List.range (Nat.min 8 ((s.burin b).imgLen - 8 * l))).map fun k => BitVec.ofNat 32 (s.numAt ((s.burin b).lineAt l + 4 * k) 4)

/-- A burin that has received a line. -/
def Burin.received (choice l : Nat) (ws : List Word) (r : Burin) : Burin :=
  { r.evict choice with lines := (r.evict choice).lines ++ [l], buf := tsetRun 0 (r.evict choice).buf (8 * l) ws, fetching := none }

/-- The state once a burin has received a line without error. -/
def lineTaken (b l : Nat) (s : State) : State :=
  fetchOn b (({ s with free := s.free + 1 } : State).modBurin b
    (Burin.received (Config.freeNat (s.free + 1 - 1)) l (s.lineWords b l)))

theorem exec_lineFetchComplete_of_on {b : BurinId} {l : Nat} {s : State} (bad : Bool)
    (hf : (s.burin b.val).fetching = some l) (hon : s.isOn 4 = true) : exec (.lineFetchComplete b bad) s = .next
      (if bad || s.poisoned ((s.burin b.val).lineAt l) 32 then noteUe ((s.burin b.val).lineAt l) s
       else lineTaken b.val l s) := by
  show execLineFetchComplete b bad s = _
  simp only [execLineFetchComplete, hf, hon]
  rfl

theorem regs_evict (choice : Nat) (r : Burin) : (r.evict choice).regs = r.regs ∧ (r.evict choice).running = r.running := by
  simp only [Burin.evict]
  split
  · exact ⟨rfl, rfl⟩
  · exact ⟨rfl, rfl⟩

theorem burin_lineTaken_self (b l : Nat) (s : State) : ∃ choice fe ur un, (lineTaken b l s).burin b
    = { (s.burin b).received choice l (s.lineWords b l) with fetching := fe, underrun := ur, underruns := un } := by
  obtain ⟨fe, ur, un, hself⟩ := burin_fetchOn_self b (({ s with free := s.free + 1 } : State).modBurin b
    (Burin.received (Config.freeNat (s.free + 1 - 1)) l (s.lineWords b l)))
  rw [State.burin_modBurin] at hself
  exact ⟨_, fe, ur, un, hself⟩

theorem burin_lineTaken_ne {b c : Nat} (h : c ≠ b) (l : Nat) (s : State) : (lineTaken b l s).burin c = s.burin c := by
  rw [lineTaken, burin_fetchOn_ne h, State.burin_modBurin_ne _ _ _ _ h]
  rfl

/-- The line is resident with its words, and what the burin runs has not changed. -/
theorem lineTaken_spec (b l : Nat) (s : State) : l ∈ ((lineTaken b l s).burin b).lines
    ∧ ((lineTaken b l s).burin b).regs = (s.burin b).regs ∧ ((lineTaken b l s).burin b).running = (s.burin b).running
    ∧ ∀ k, k < min 8 ((s.burin b).imgLen - 8 * l) →
      tget 0 ((lineTaken b l s).burin b).buf (8 * l + k) = BitVec.ofNat 32 (s.numAt ((s.burin b).lineAt l + 4 * k) 4) := by
  obtain ⟨choice, fe, ur, un, hself⟩ := burin_lineTaken_self b l s
  obtain ⟨hregs, hrun⟩ := regs_evict choice (s.burin b)
  rw [hself]
  refine ⟨List.mem_append_right _ List.mem_cons_self, hregs, hrun, fun k hk => ?_⟩
  have hlen : k < (s.lineWords b l).length := by simpa [State.lineWords] using hk
  refine (tget_tsetRun_add 0 _ _ _ hlen).trans ?_
  simp [State.lineWords]

theorem mem_lineTaken (b l : Nat) (s : State) : (lineTaken b l s).mem = s.mem := by
  rw [lineTaken, fetchOn, State.modBurin, State.setBurin_mem, State.modBurin, State.setBurin_mem]

/-! ### Null PUTs, held PUTs and waits (R46, R89, R90) -/

theorem exec_nullPutDiscard_of_early {b : BurinId} {s : State} (h : ∀ e ∈ (s.burin b.val).nulls, (s.now : Int) < e.release) :
    exec (.nullPutDiscard b) s = .next s := by
  have hnone : (s.burin b.val).nulls.find? (fun e => decide (e.release ≤ (s.now : Int))) = none :=
    List.find?_eq_none.mpr fun e he => by simpa using h e he
  show execNullPutDiscard b s = _
  simp only [execNullPutDiscard, hnone]

theorem exec_nullPutDiscard_of_due {b : BurinId} {s : State} (h : ∃ e ∈ (s.burin b.val).nulls, e.release ≤ (s.now : Int)) :
    ∃ e ∈ (s.burin b.val).nulls, e.release ≤ (s.now : Int) ∧ exec (.nullPutDiscard b) s = .next (s.setBurin b.val
      { s.burin b.val with nulls := (s.burin b.val).nulls.erase e, nullPuts := (s.burin b.val).nullPuts.bump }) := by
  have hsome : ((s.burin b.val).nulls.find? fun e => decide (e.release ≤ (s.now : Int))).isSome = true :=
    List.find?_isSome.mpr (by simpa using h)
  obtain ⟨e, he⟩ := Option.isSome_iff_exists.mp hsome
  refine ⟨e, List.mem_of_find?_eq_some he, by simpa using List.find?_some he, ?_⟩
  show execNullPutDiscard b s = _
  simp only [execNullPutDiscard, he]
  rfl

theorem exec_putHoldRelease_of_none {b : BurinId} {s : State} (h : (s.burin b.val).hold = none) :
    exec (.putHoldRelease b) s = .next s := by
  show releaseHold b.val s = _
  simp only [releaseHold, h]

theorem exec_putHoldRelease_of_empty {b : BurinId} {h : Hold} {s : State} (hh : (s.burin b.val).hold = some h)
    (hc : s.slotCredits b.val h.slot = 0) : exec (.putHoldRelease b) s = .next s := by
  show releaseHold b.val s = _
  simp only [releaseHold, hh, hc, if_true]

/-- An instruction's held PUT goes with the first credit, and its instruction completes. -/
theorem exec_putHoldRelease_of_credit {b : BurinId} {h : Hold} {s : State} (hh : (s.burin b.val).hold = some h)
    (hc : s.slotCredits b.val h.slot ≠ 0) (hm : h.micro = false) : exec (.putHoldRelease b) s = .next (finish b.val
      (h.post.elim (launch b.val h.slot h.entry (s.setBurin b.val { s.burin b.val with hold := none })) fun e =>
        modRegs b.val (bumpP e.1 e.2) (launch b.val h.slot h.entry (s.setBurin b.val { s.burin b.val with hold := none })))) := by
  show releaseHold b.val s = _
  simp only [releaseHold, hh, hc, hm, if_false, Bool.false_eq_true]
  cases h.post <;> rfl

theorem exec_waitWake_of_none {b : BurinId} {s : State} (h : (s.burin b.val).waiting = none) :
    exec (.waitWake b) s = .next s := by
  show execWaitWake b s = _
  simp only [execWaitWake, h]

theorem exec_waitWake_of_waiting {b : BurinId} {w : Wait} {s : State} (hw : (s.burin b.val).waiting = some w)
    (h : s.waitHolds b.val w = false) : exec (.waitWake b) s = .next s := by
  show execWaitWake b s = _
  simp [execWaitWake, hw, h]

theorem exec_waitWake_of_done {b : BurinId} {w : Wait} {s : State} (hw : (s.burin b.val).waiting = some w)
    (h : s.waitHolds b.val w = true) (hmicro : ∀ c x y z, w ≠ .micro c x y z) : exec (.waitWake b) s =
      .next (finish b.val (waitEffect b.val w (s.setBurin b.val { s.burin b.val with waiting := none }))) := by
  show execWaitWake b s = _
  simp only [execWaitWake, hw, h]
  cases w with
  | micro c x y z => exact absurd rfl (hmicro c x y z)
  | _ => rfl

end Sys2Proof.Machine
end

section
/-! The events of a shot together (R22–R24, R37, R46–R60, R80, R88–R90). -/

namespace Sys2Proof.Machine

/-- What a burin is once it has started, its other fields apart. -/
theorem startBurin_spec (b shot origin : Nat) (s : State) : ((startBurin b shot origin s).burin b).running = true
    ∧ ((startBurin b shot origin s).burin b).shot = shot ∧ ((startBurin b shot origin s).burin b).origin = origin
    ∧ ((startBurin b shot origin s).burin b).waiting = none ∧ ((startBurin b shot origin s).burin b).hold = none
    ∧ ((startBurin b shot origin s).burin b).iq = [] ∧ ((startBurin b shot origin s).burin b).held = (s.burin b).held
    ∧ ((startBurin b shot origin s).burin b).regs = { (s.burin b).regs with pc := 0, loops := [] } := by
  obtain ⟨fe, ur, un, hself⟩ := burin_startBurin_self b shot origin s
  rw [hself]
  exact ⟨rfl, rfl, rfl, rfl, rfl, rfl, rfl, rfl⟩

/-- Settles O48: each event by its conditions, in the order in which its meaning tests them. -/
theorem shotEvents : Obligations.ShotEvents := by
  unfold Obligations.ShotEvents
  refine ⟨fun root s => exec_startEvent_of_idle, fun root r rest s hser hrun => ⟨exec_startEvent_of_early hser, fun hdue => ?_⟩,
    fun shot origin b s h => startOrHold_of_busy h shot origin, fun shot origin b s hr hh => ?_,
    fun b s => exec_heldStart_of_idle, fun b hd rest s hheld hr => ?_, fun root s => exec_shotBoundary_of_none,
    fun root d rest s hdue => ⟨exec_shotBoundary_of_early hdue, fun h => ?_⟩, fun q s => exec_entryArrival_of_none,
    fun q e rest s hx => ?_, fun q s => rfl, fun root s => exec_dropStateExit_of_no, fun root s hd hg => ?_,
    fun s => exec_governorInterval_of_idle, fun s hon hdue => ?_, fun b bad s => exec_lineFetchComplete_of_no,
    fun b bad l s hf hon => ⟨fun h => ?_, fun hbad hgood => ?_⟩, fun b s => exec_nullPutDiscard_of_early,
    fun b s => exec_nullPutDiscard_of_due, fun b s => exec_putHoldRelease_of_none,
    fun b h s hh => ⟨exec_putHoldRelease_of_empty hh, fun hc hm hp => ?_, fun p m hc hm hp => ?_⟩,
    fun b s => exec_waitWake_of_none, fun b w s hw => ⟨exec_waitWake_of_waiting hw, exec_waitWake_of_done hw⟩⟩
  · exact (exec_startEvent_of_due hser hrun hdue).trans (by rw [shotDrawn, Series.after_toList]; rfl)
  · obtain ⟨h1, h2, h3, h4, h5, h6, h7, h8⟩ := startBurin_spec b shot origin s
    exact ⟨_, startOrHold_of_idle hr hh shot origin, h1, h2, h3, h4, h5, h6, h7.trans hh, h8,
      fun c hc => burin_startBurin_ne hc shot origin s⟩
  · obtain ⟨h1, h2, h3, -, -, -, h7, h8⟩ := startBurin_spec b.val hd.shot hd.origin (s.modBurin b.val fun r => { r with held := rest })
    rw [State.burin_modBurin] at h7 h8
    exact ⟨_, exec_heldStart_of_ended hheld hr, h1, h2, h3, h7, h8⟩
  · obtain ⟨t, ht, hkeeps⟩ := exec_shotBoundary_of_due hdue h
    refine ⟨t, ht, ?_, hkeeps State.burins (fun _ => rfl) fun _ _ => rfl, hkeeps State.now (fun _ => rfl) fun _ _ => rfl,
      hkeeps State.chans (fun _ => rfl) fun _ _ => rfl⟩
    rw [hkeeps (fun u => u.root (s.refKey root)) (fun _ => rfl) fun _ _ => rfl, State.root_modRoot]
  · have hex := exec_entryArrival_of_xbar hx
    intro res k slack order late
    have hlate {reason : Nat} (hl : lateReason e.release (s.slack e) k.lastArrived k.floor = some reason) : late reason := by
      rw [hl] at hex
      simp only [Option.elim_some, entryLate, State.slack] at hex
      simp only [late, slack, res, k, hex]
    refine ⟨fun ho hpos hroom => ?_, fun ho => hlate (lateReason_of_order ho),
      fun ho hpast => hlate ((lateReason_of_inOrder ho).trans (if_pos hpast)),
      fun ho hpos hlow => hlate ((lateReason_of_inOrder ho).trans ((if_neg (not_le.mpr hpos)).trans (if_pos hlow)))⟩
    have hnone : lateReason e.release (s.slack e) (s.queue (qnum q)).lastArrived (s.queue (qnum q)).floor = none :=
      (lateReason_of_inOrder ho).trans ((if_neg (not_le.mpr hpos)).trans (if_neg (not_lt.mpr hroom)))
    rw [hnone] at hex
    exact hex
  · have hex := exec_dropStateExit_of_drop hd hg
    refine ⟨fun h0 => hex.trans (congrArg _ (if_pos h0)), fun h0 hput => ?_, fun t h0 hput => ?_⟩
    · exact hex.trans (congrArg _ ((if_neg h0).trans (by rw [State.dropRecord, hput]; rfl)))
    · refine hex.trans (congrArg _ ((if_neg h0).trans ?_))
      have hroot : t.root (s.refKey root) = s.root (s.refKey root) := by rw [State.root, State.root, roots_of_ringPut hput]
      rw [State.dropRecord, hput, Option.elim_some, State.modRoot, hroot]
  · obtain ⟨x, hx, hbit⟩ := exec_governorInterval_of_due hon hdue
    refine ⟨_, hx, rfl, rfl, rfl, govNext_of_fixed, fun hf hnear => ?_, fun hf hnear hroomy => ?_, fun hf hnear hroomy => ?_,
      fun hf hnear hroomy => ?_, decide_eq_true_iff, rfl, rfl, rfl⟩
    · obtain ⟨hv, hq, hsat⟩ := govNext_of_low hf ((Governor.low_iff _).mpr hnear)
      exact ⟨hv, hq, hsat, fun h => hbit (hsat.mpr h)⟩
    · exact (govNext_of_roomy hf (Bool.eq_false_iff.mpr (mt (Governor.low_iff _).mp hnear)) ((Governor.roomy_iff _).mpr hroomy)).1
    · exact (govNext_of_roomy hf (Bool.eq_false_iff.mpr (mt (Governor.low_iff _).mp hnear)) ((Governor.roomy_iff _).mpr hroomy)).2
    · exact govNext_of_tight hf (Bool.eq_false_iff.mpr (mt (Governor.low_iff _).mp hnear))
        (Bool.eq_false_iff.mpr (mt (Governor.roomy_iff _).mp hroomy))
  · exact (exec_lineFetchComplete_of_on bad hf hon).trans (congrArg _ (if_pos (by
      rcases h with h | h
      · simp [h]
      · simp [show s.poisoned ((s.burin b.val).lineAt l) 32 = true from h])))
  · obtain ⟨hin, hregs, hrun, hbuf⟩ := lineTaken_spec b.val l s
    refine ⟨lineTaken b.val l s, (exec_lineFetchComplete_of_on bad hf hon).trans (congrArg _ (if_neg ?_)), hin, hregs, hrun, hbuf,
      fun c hc => burin_lineTaken_ne hc l s, mem_lineTaken b.val l s⟩
    simp [hbad, show s.poisoned ((s.burin b.val).lineAt l) 32 = false from hgood]
  · rw [exec_putHoldRelease_of_credit hh hc hm, hp]
    rfl
  · rw [exec_putHoldRelease_of_credit hh hc hm, hp]
    rfl

end Sys2Proof.Machine
end

section
/-! Wakes of PD01 and PD02 in boot (R456, R535): what completing commands leaves of the domains. -/

namespace Sys2Proof.Machine

/-! ### Completing commands leaves the domains -/

section
variable (s : State)

theorem domains_raiseVec (v : Nat) : (raiseVec v s).domains = s.domains := by
  obtain ⟨x, hx, -⟩ := raiseVec_eq v s
  rw [hx]

theorem domains_setMode (m : Mode) : (setMode m s).domains = s.domains := by
  simp only [setMode]
  split
  · rfl
  · obtain ⟨x, hx, -⟩ := raiseFault_eq { s with sys := { s.sys with mode := m }, refLog :=
      if m.counting then
        if s.sys.mode.counting && s.refLog.active then s.refLog else { active := true, start := s.coarse, periodMode := m.code }
      else { s.refLog with active := false } }
    rw [hx]

theorem domains_logRefusal (what status target : Nat) (why : Why) : (logRefusal what status target why s).domains = s.domains := by
  simp only [logRefusal]
  split <;> rfl

theorem domains_writeCompletion (c : Nat) (e : Completion) : (writeCompletion c e s).domains = s.domains := by
  simp only [writeCompletion]
  split
  · rw [domains_raiseVec, State.setCq_domains]
  · rw [State.setCq_domains]

theorem domains_complete (c : Nat) (e : Completion) : (complete c e s).domains = s.domains := by
  unfold complete
  split
  · exact domains_writeCompletion s c e
  · rfl

theorem domains_resetQueues (version : Nat) (opened : Bool) : (resetQueues version opened s).domains = s.domains := rfl

theorem domains_closeSession : (closeSession s).domains = s.domains :=
  same_of_withoutReports (withoutReports_closeSession s) State.domains fun _ => rfl

theorem domains_finishGuest (q : Nat) (f : InFlight) : (finishGuest q f s).domains = s.domains := by
  unfold finishGuest
  split
  · rfl
  · split
    · rfl
    · exact keeps_of_tell State.domains (fun _ _ => rfl) _ _ s

theorem domains_finishHead (q : Nat) : (finishHead q s).domains = s.domains := by
  unfold finishHead
  split
  · rfl
  · simp only [apply_ite State.domains, domains_finishGuest, domains_resetQueues, domains_closeSession, domains_complete,
      State.modSq, State.setSq_domains, ite_self]

theorem domains_pumpQueue (q n : Nat) : (pumpQueue q n s).domains = s.domains := by
  induction n generalizing s with
  | zero => rfl
  | succ n ih =>
    unfold pumpQueue
    split
    · rfl
    · split
      · rw [ih, domains_finishHead]
      · rfl

theorem domains_settleModes : (settleModes s).domains = s.domains := by
  simp only [settleModes, apply_ite State.domains, domains_setMode, endWaits, ite_self]

theorem domains_pump : (pump s).domains = s.domains := by
  have hround (t : State) : (pumpRound t).domains = t.domains :=
    each_keeps State.domains (fun q u => domains_pumpQueue u q _) _ t
  simp only [pump]
  rw [times_keeps State.domains hround, domains_settleModes]

theorem domains_noteFailure (q status what target : Nat) (why : Why) : (noteFailure q status what target why s).domains = s.domains := by
  have hsum (t : State) : (setSum 13 t).domains = t.domains := keeps_of_setSum State.domains (fun _ _ => rfl) (by decide) t
  simp only [noteFailure, apply_ite State.domains, hsum, domains_logRefusal, State.modSq, State.setSq_domains, ite_self]

theorem domains_decideFlights (p : InFlight → Bool) (status : Nat) (result : InFlight → Nat) (why : Why) :
    (decideFlights p status result why s).domains = s.domains := by
  refine each_keeps State.domains (fun q u => ?_) _ s
  refine (each_keeps State.domains (fun (f : InFlight) v => domains_noteFailure v q status f.what f.target why) _ _).trans ?_
  rw [State.modSq, State.setSq_domains]

theorem domains_settleDom (d : Nat) (p : Nat → Bool) (status : Nat) (why : Why) :
    (settleDom d p status why s).domains = s.domains := by
  simp only [settleDom, domains_pump, apply_ite State.domains, domains_logRefusal, domains_decideFlights, ite_self]

end

/-! ### Wakes of PD01 and PD02 -/

section
variable {d : Nat} (hd : d = 1 ∨ d = 2)
include hd

/-- PD01 and PD02 hold no output, no burin and no calibration target: their content is the host interface. -/
theorem domains_resetDomain_host (s : State) : (resetDomain d s).domains = s.domains := by
  rcases hd with rfl | rfl
  · rfl
  · rfl

theorem domains_freshDomain_host (s : State) : (freshDomain d goodInfo s).domains = s.domains := by
  have hcal (u : State) : calWake d false goodInfo u = u := by rcases hd with rfl | rfl <;> rfl
  have htiles (u : State) : reloadTiles (domTiles d) 0 u = u := by rcases hd with rfl | rfl <;> rfl
  rw [freshDomain, hcal, goodInfo, htiles,
    keeps_of_flushEnds (f := State.domains) (fun _ _ => rfl) (fun _ _ => rfl) (fun _ _ => rfl), domains_resetDomain_host hd]

theorem domains_loseContent_host (s : State) : (loseContent d s).domains = s.domains := by
  have hlow : ¬20 ≤ d := by omega
  rw [loseContent, standZ, if_neg hlow, domains_resetDomain_host hd]

end

theorem State.dom_of_domains {s t : State} (h : t.domains = s.domains) (e : Nat) : t.dom e = s.dom e := by
  rw [State.dom, State.dom, h]

/-- A domain that has come On is On, and no other has changed. -/
theorem dom_nowOn (d : Nat) (s : State) :
    ((nowOn d s).dom d).st = .on ∧ ∀ e, e ≠ d → (nowOn d s).dom e = s.dom e := by
  have hports (l : List Nat) : (injectDom d (each (fun nn s => s.modAcqPort nn fun a => { a with conv := s.now }) l s)).domains = s.domains := by
    simp only [injectDom, apply_ite State.domains, ite_self]
    refine each_keeps State.domains (fun nn u => ?_) l s
    rw [State.modAcqPort, State.setAcqPort_domains]
  refine ⟨?_, fun e he => ?_⟩
  · rw [nowOn, State.dom_of_domains (domains_settleDom _ _ _ _ _), State.dom_modDom]
  · rw [nowOn, State.dom_of_domains (domains_settleDom _ _ _ _ _), State.dom_modDom_ne _ _ _ _ he, State.dom_of_domains (hports _)]

section
variable {d : Nat} (hd : d = 1 ∨ d = 2)
include hd

/-- A domain whose wake fails is Off, and no other has changed. -/
theorem dom_failWake (s : State) : ((failWake d s).dom d).st = .off ∧ ∀ e, e ≠ d → (failWake d s).dom e = s.dom e := by
  have h4 : ¬d = 4 := by omega
  simp only [failWake, h4, decide_false, Bool.false_and, Bool.false_eq_true, if_false]
  refine ⟨?_, fun e he => ?_⟩
  · rw [State.dom_of_domains (domains_settleDom _ _ _ _ _), State.dom_of_domains (domains_loseContent_host hd _), State.dom_modDom]
  · rw [State.dom_of_domains (domains_settleDom _ _ _ _ _), State.dom_of_domains (domains_loseContent_host hd _),
      State.dom_modDom_ne _ _ _ _ he]

/-- A wake in boot leaves the domain On where it succeeds, and every other domain as it was. -/
theorem dom_bootWake (ok : Bool) (s : State) : (bootWake d ok goodInfo s).isOn d = ok
    ∧ ∀ e, e ≠ d → (bootWake d ok goodInfo s).dom e = s.dom e := by
  have hbegun (g : Domain → Domain) (u : State) {e : Nat} (he : e ≠ d) : ((beginWake d 1 0 u).modDom d g).dom e = u.dom e := by
    rw [State.dom_modDom_ne _ _ _ _ he, beginWake, State.dom_modDom_ne _ _ _ _ he]
  cases ok with
  | false =>
    simp only [bootWake, Bool.false_eq_true, if_false]
    refine ⟨?_, fun e he => ?_⟩
    · rw [State.isOn, (dom_failWake hd _).1]
      rfl
    · rw [(dom_failWake hd _).2 e he, hbegun _ _ he]
      rfl
  | true =>
    simp only [bootWake, if_true]
    refine ⟨?_, fun e he => ?_⟩
    · rw [State.isOn, State.dom_modDom, (dom_nowOn d _).1]
      rfl
    · rw [State.dom_modDom_ne _ _ _ _ he, (dom_nowOn d _).2 e he, State.dom_of_domains (domains_freshDomain_host hd _), hbegun _ _ he]
      rfl

end

end Sys2Proof.Machine
end

section
/-! The steps of boot (R26, R118–R122, R451, R535–R541). -/

namespace Sys2Proof.Machine

/-! ### Boot at another step -/

theorem boot_idle {n : Nat} {s t : State} (h : s.booting n = false) : (if !s.booting n then s else t) = s :=
  if_pos (by rw [h]; rfl)

theorem boot_runs {n : Nat} {s t : State} (h : s.booting n = true) : (if !s.booting n then s else t) = t :=
  if_neg (by rw [h]; decide)

theorem mode_of_booting {n : Nat} {s : State} (h : s.booting n = true) : s.sys.mode = .boot := by
  simp only [State.booting, Bool.and_eq_true, beq_iff_eq] at h
  exact h.1.1.1.1

/-! ### Steps 1 and 2: host and flash (R535–R541) -/

theorem exec_bootHost_of_booting {s : State} (hb : s.booting 1 = true) (m h : Bool) : exec (.bootHost m h) s = .next
    (if !m then bootStep 10 (bootWake 1 m goodInfo s)
     else bootStep (if h then 2 else 10) (bootWake 2 h goodInfo (bootWake 1 m goodInfo s))) :=
  congrArg _ (boot_runs hb)

theorem isOn_bootStep (n d : Nat) (s : State) : (bootStep n s).isOn d = s.isOn d := rfl

/-- Step 1 ends with PD01 and PD02 On, or at code 10. -/
theorem exec_bootHost_spec {s : State} (hb : s.booting 1 = true) (m h : Bool) : ∃ t, exec (.bootHost m h) s = .next t
    ∧ t.boot.step = (if m && h then 2 else 10) ∧ t.isOn 1 = m ∧ (m = true → t.isOn 2 = h) := by
  obtain ⟨hon, -⟩ := dom_bootWake (d := 1) (.inl rfl) m s
  have hex := exec_bootHost_of_booting hb m h
  cases m with
  | false => exact ⟨bootStep 10 (bootWake 1 false goodInfo s), hex, rfl, (isOn_bootStep _ _ _).trans hon, fun hm => nomatch hm⟩
  | true =>
    obtain ⟨hon2, hother⟩ := dom_bootWake (d := 2) (.inr rfl) h (bootWake 1 true goodInfo s)
    have hkept : (bootWake 2 h goodInfo (bootWake 1 true goodInfo s)).isOn 1 = true := by
      rw [State.isOn, hother 1 (by decide)]
      exact hon
    exact ⟨bootStep (if h then 2 else 10) (bootWake 2 h goodInfo (bootWake 1 true goodInfo s)), hex, rfl,
      (isOn_bootStep _ _ _).trans hkept, fun _ => (isOn_bootStep _ _ _).trans hon2⟩

theorem keeps_of_setTdom {β : Type} (f : State → β) (hf : ∀ (u : State) t, f { u with time := t } = f u) (s : State) (k : Nat)
    (d : TimeDom) : f (s.setTdom k d) = f s := by
  unfold State.setTdom
  split
  · exact hf s _
  · exact hf s _

theorem boot_applyCfg (c : BootCfg) (s : State) : (applyCfg c s).boot = { s.boot with
    offmask := cfgOffmask c, devnum := bits (cfgDevnum c) 0 14, assigned := (cfgDevnum c).testBit 15
    autosel := (cfgFlags c).testBit 0, gen1 := (cfgFlags c).testBit 1, jvlOff := cfgJvlOff c } := by
  simp only [applyCfg, apply_ite State.boot, keeps_of_setTdom State.boot fun _ _ => rfl, ite_self]

theorem sys_applyCfg (c : BootCfg) (s : State) : (applyCfg c s).sys = { s.sys with
    devnum := if (cfgDevnum c).testBit 15 then bits (cfgDevnum c) 0 14 else 0, dnv := (cfgDevnum c).testBit 15 } := by
  simp only [applyCfg, apply_ite State.sys, keeps_of_setTdom State.sys fun _ _ => rfl, ite_self]

theorem side_applyCfg (c : BootCfg) (s : State) :
    (applyCfg c s).side = { s.side with static_ := if cfgI2c c = 0 then 0x4C else cfgI2c c } := by
  simp only [applyCfg, apply_ite State.side, keeps_of_setTdom State.side fun _ _ => rfl, ite_self]

/-- What the flash is, noted for the boot record. -/
def flashNoted (answers noSfdp : Bool) (flashId : Nat) (s : State) : State :=
  { s with boot := { s.boot with noSfdp := answers && noSfdp, flashId := if answers then flashId % 2 ^ 24 else 0 } }

theorem exec_bootFlash_of_booting {s : State} (hb : s.booting 2 = true) (answers noSfdp : Bool) (flashId : Nat) (hdr : BootHdr)
    (cfg : BootCfg) : exec (.bootFlash answers noSfdp flashId hdr cfg) s = .next
    (if !answers || !bootHdrOk hdr noSfdp then bootStep 8 (flashNoted answers noSfdp flashId s)
     else if bootCfgOk cfg then bootStep 3 (applyCfg cfg (flashNoted answers noSfdp flashId s))
     else bootStep 3 { flashNoted answers noSfdp flashId s with
       boot := { (flashNoted answers noSfdp flashId s).boot with cfgInvalid := true } }) :=
  congrArg _ (boot_runs hb)

/-- Step 2 ends at the next step or at code 8, with a valid configuration in force. -/
theorem exec_bootFlash_spec {s : State} (hb : s.booting 2 = true) (answers noSfdp : Bool) (flashId : Nat) (hdr : BootHdr)
    (cfg : BootCfg) : ∃ t, exec (.bootFlash answers noSfdp flashId hdr cfg) s = .next t
    ∧ t.boot.step = (if answers && bootHdrOk hdr noSfdp then 3 else 8)
    ∧ (answers = true → bootHdrOk hdr noSfdp = true → bootCfgOk cfg = true →
      t.boot.offmask = cfgOffmask cfg ∧ t.sys.dnv = (cfgDevnum cfg).testBit 15 ∧ t.boot.jvlOff = cfgJvlOff cfg
      ∧ t.boot.cfgInvalid = s.boot.cfgInvalid ∧ ((cfgDevnum cfg).testBit 15 = true → t.sys.devnum = cfgDevnum cfg % 2 ^ 14)
      ∧ t.side.static_ = (if cfgI2c cfg = 0 then 0x4C else cfgI2c cfg))
    ∧ (answers = true → bootHdrOk hdr noSfdp = true → bootCfgOk cfg = false →
      t.boot.cfgInvalid = true ∧ t.boot.offmask = s.boot.offmask ∧ t.sys = s.sys ∧ t.side = s.side) := by
  have hex := exec_bootFlash_of_booting hb answers noSfdp flashId hdr cfg
  by_cases hok : answers = true ∧ bootHdrOk hdr noSfdp = true
  · obtain ⟨rfl, hh⟩ := hok
    rw [hh] at hex
    cases hc : bootCfgOk cfg with
    | true =>
      rw [hc] at hex
      refine ⟨bootStep 3 (applyCfg cfg (flashNoted true noSfdp flashId s)), hex, by rw [hh]; rfl, fun _ _ _ => ?_,
        fun _ _ h => nomatch h⟩
      simp only [bootStep, boot_applyCfg, sys_applyCfg, side_applyCfg]
      refine ⟨trivial, trivial, trivial, rfl, fun hn => ?_, trivial⟩
      rw [if_pos hn, bits, Nat.pow_zero, Nat.div_one]
    | false =>
      rw [hc] at hex
      refine ⟨bootStep 3 { flashNoted true noSfdp flashId s with
        boot := { (flashNoted true noSfdp flashId s).boot with cfgInvalid := true } }, hex, by rw [hh]; rfl, ?_, fun _ _ _ => ?_⟩
      · exact fun _ _ h => nomatch h
      · exact ⟨rfl, rfl, rfl, rfl⟩
  · have hgood : (answers && bootHdrOk hdr noSfdp) = false := by
      rw [← Bool.not_eq_true, Bool.and_eq_true]
      exact hok
    have hbad : (!answers || !bootHdrOk hdr noSfdp) = true := by rw [← Bool.not_and, hgood]; rfl
    rw [hbad] at hex
    exact ⟨bootStep 8 (flashNoted answers noSfdp flashId s), hex, by rw [hgood]; rfl, fun ha hh => absurd ⟨ha, hh⟩ hok,
      fun ha hh => absurd ⟨ha, hh⟩ hok⟩

/-! ### Step 3: firmware (R539) -/

theorem slotAFirst_iff (a b : Container) :
    slotAFirst a b = true ↔ contSec b < contSec a ∨ contSec b = contSec a ∧ contVer b ≤ contVer a := by
  simp only [slotAFirst, Bool.or_eq_true, Bool.and_eq_true, decide_eq_true_eq, beq_iff_eq]
  rw [eq_comm (a := contSec a)]

/-- The result of a slot at the present minimum. -/
def State.slotRes (s : State) (c : Container) : Nat := slotResult s.fwMinimum c

/-- The results of the slots, noted for the boot record. -/
def slotsNoted (na nb : Nat) (s : State) : State := { s with boot := { s.boot with resultA := na, resultB := nb } }

theorem exec_bootFirmware_of_booting {s : State} (hb : s.booting 3 = true) (a b : Container) : exec (.bootFirmware a b) s = .next
    (if slotAFirst a b then
      if s.slotRes a = 0 then startFw 0 a false (slotsNoted 0 0xFF s)
      else if s.slotRes b = 0 then startFw 1 b true (slotsNoted (s.slotRes a) 0 s)
      else bootStep 9 (slotsNoted (s.slotRes a) (s.slotRes b) s)
    else
      if s.slotRes b = 0 then startFw 1 b false (slotsNoted 0xFF 0 s)
      else if s.slotRes a = 0 then startFw 0 a true (slotsNoted 0 (s.slotRes b) s)
      else bootStep 9 (slotsNoted (s.slotRes a) (s.slotRes b) s)) :=
  congrArg _ (boot_runs hb)

section
variable {s : State} (hb : s.booting 3 = true) {a b : Container}
include hb

/-- Slot A starts where it passes, and is tried first or alone passes. -/
theorem exec_bootFirmware_of_a (ha : s.slotRes a = 0) (h : slotAFirst a b = true ∨ s.slotRes b ≠ 0) :
    ∃ na nb, exec (.bootFirmware a b) s = .next (startFw 0 a (!slotAFirst a b) (slotsNoted na nb s)) := by
  rw [exec_bootFirmware_of_booting hb]
  by_cases hf : slotAFirst a b = true
  · exact ⟨0, 0xFF, by simp [hf, ha]⟩
  · have hrb := h.resolve_left hf
    exact ⟨0, s.slotRes b, by simp [hf, ha, hrb]⟩

theorem exec_bootFirmware_of_b (h : ¬(s.slotRes a = 0 ∧ (slotAFirst a b = true ∨ s.slotRes b ≠ 0))) (hrb : s.slotRes b = 0) :
    ∃ na nb, exec (.bootFirmware a b) s = .next (startFw 1 b (slotAFirst a b) (slotsNoted na nb s)) := by
  rw [exec_bootFirmware_of_booting hb]
  by_cases hf : slotAFirst a b = true
  · have ha : s.slotRes a ≠ 0 := fun ha => h ⟨ha, .inl hf⟩
    exact ⟨s.slotRes a, 0, by simp [hf, ha, hrb]⟩
  · exact ⟨0xFF, 0, by simp [hf, hrb]⟩

theorem exec_bootFirmware_of_neither (ha : s.slotRes a ≠ 0) (hrb : s.slotRes b ≠ 0) :
    exec (.bootFirmware a b) s = .next (bootStep 9 (slotsNoted (s.slotRes a) (s.slotRes b) s)) := by
  rw [exec_bootFirmware_of_booting hb]
  simp [ha, hrb]

end

/-- Step 3 ends with the firmware of one slot started, or at code 9. -/
theorem exec_bootFirmware_spec {s : State} (hb : s.booting 3 = true) (a b : Container) :
    ∃ t, exec (.bootFirmware a b) s = .next t
    ∧ (let ra := slotResult (max Config.fusedFwMin.val s.boot.fwMin) a
      let rb := slotResult (max Config.fusedFwMin.val s.boot.fwMin) b
      let first : Prop := contSec b < contSec a ∨ contSec b = contSec a ∧ contVer b ≤ contVer a
      let takesA : Prop := ra = 0 ∧ (first ∨ rb ≠ 0)
      t.boot.step = (if ra = 0 ∨ rb = 0 then 4 else 9)
      ∧ t.boot.fwSlot = (if takesA then 0 else if rb = 0 then 1 else s.boot.fwSlot)
      ∧ t.boot.fwVer = (if takesA then contVer a else if rb = 0 then contVer b else s.boot.fwVer)
      ∧ t.boot.fwSv = (if takesA then contSec a else if rb = 0 then contSec b else s.boot.fwSv)
      ∧ t.boot.fallback = (if takesA then decide (¬first) else if rb = 0 then decide first else s.boot.fallback)) := by
  have hfirst := slotAFirst_iff a b
  by_cases hA : s.slotRes a = 0 ∧ (slotAFirst a b = true ∨ s.slotRes b ≠ 0)
  · obtain ⟨na, nb, hex⟩ := exec_bootFirmware_of_a hb hA.1 hA.2
    refine ⟨_, hex, ?_⟩
    intro ra rb first takesA
    have ht : takesA := ⟨hA.1, hA.2.imp_left hfirst.mp⟩
    have hback : (!slotAFirst a b) = decide (¬first) := by
      rw [decide_not, Bool.eq_iff_iff.mpr (hfirst.trans decide_eq_true_iff.symm)]
    exact ⟨(if_pos (.inl ht.1)).symm, (if_pos ht).symm, (if_pos ht).symm, (if_pos ht).symm, hback.trans (if_pos ht).symm⟩
  · by_cases hrb : s.slotRes b = 0
    · obtain ⟨na, nb, hex⟩ := exec_bootFirmware_of_b hb hA hrb
      refine ⟨_, hex, ?_⟩
      intro ra rb first takesA
      have ht : ¬takesA := fun ht => hA ⟨ht.1, ht.2.imp_left hfirst.mpr⟩
      have hb0 : rb = 0 := hrb
      have hback : slotAFirst a b = decide first := Bool.eq_iff_iff.mpr (hfirst.trans decide_eq_true_iff.symm)
      simp only [if_neg ht, if_pos hb0]
      exact ⟨(if_pos (.inr hb0)).symm, rfl, rfl, rfl, hback⟩
    · have ha : s.slotRes a ≠ 0 := fun ha => hA ⟨ha, .inr hrb⟩
      refine ⟨_, exec_bootFirmware_of_neither hb ha hrb, ?_⟩
      intro ra rb first takesA
      have ht : ¬takesA := fun ht => ha ht.1
      have hb0 : ¬rb = 0 := hrb
      simp only [if_neg ht, if_neg hb0]
      exact ⟨(if_neg (not_or.mpr ⟨ha, hrb⟩)).symm, rfl, rfl, rfl, rfl⟩

/-! ### Step 4: domains (R451, R542) -/

theorem bootDomain_of_left {s : State} {d : Nat} (h : s.boot.offmask.testBit d = true) (failed : Nat)
    (dies : List (Nat × Nat × Nat)) (info : RestoreInfo) : bootDomain failed dies info d s = s :=
  if_pos h

theorem failedDoms_bootDomain {s : State} {d failed : Nat} (h : s.boot.offmask.testBit d = false)
    (hf : failed.testBit d = true) (h4 : d ≠ 4) (dies : List (Nat × Nat × Nat)) (info : RestoreInfo) :
    (bootDomain failed dies info d s).boot.failedDoms.testBit d = true := by
  simp only [bootDomain, h, hf, h4, Bool.not_true, Bool.false_and, Bool.false_eq_true, if_false, Nat.testBit_or,
    Nat.testBit_two_pow_self, Bool.or_true]

/-! ### Step 5: patches (R116–R122) -/

theorem note_codes_ne_nil (r : FaultRec) (code tick origin : Nat) (detail : List Byte) (remote : Bool) :
    (r.note code tick origin detail remote).codes ≠ [] := by
  unfold FaultRec.note
  split
  · simp
  · next h => simp only []; split <;> simp [h]

/-- A doubt in BOOT latches and touches outputs and the host interface, no more (R30). -/
theorem doubtDevice_of_boot {s : State} (hb : s.sys.mode = .boot) (code : Nat) (detail : List Byte) :
    (doubtDevice code detail s).devFault.codes ≠ [] ∧ (doubtDevice code detail s).sys = s.sys
      ∧ (doubtDevice code detail s).patches = s.patches ∧ (doubtDevice code detail s).boot = s.boot := by
  obtain ⟨x, hx, -⟩ := setSum_eq (k := 0) (by decide)
    { s with devFault := s.devFault.note code s.coarse s.sys.devnum detail false }
  simp only [doubtDevice, hx, hb, if_true]
  have hframe := withoutOutputs_safeDevice
    { s with devFault := s.devFault.note code s.coarse s.sys.devnum detail false, host := x }
  refine ⟨?_, same_of_withoutOutputs hframe State.sys fun _ => rfl, same_of_withoutOutputs hframe State.patches fun _ => rfl,
    same_of_withoutOutputs hframe State.boot fun _ => rfl⟩
  rw [same_of_withoutOutputs hframe (fun u => u.devFault.codes) fun _ => rfl]
  exact note_codes_ne_nil _ _ _ _ _ _

theorem contDoubt_of_boot {s : State} (hb : s.sys.mode = .boot) (un : Nat) (k : LoadedCont) :
    (contDoubt un k s).sys = s.sys ∧ (contDoubt un k s).patches = s.patches
      ∧ (k.result ≠ 0 ∨ s.devFault.codes ≠ [] → (contDoubt un k s).devFault.codes ≠ []) := by
  obtain ⟨x, hx, -⟩ := setSum_eq (k := 11) (by decide) s
  unfold contDoubt
  split
  · next h0 => exact ⟨rfl, rfl, fun h => h.resolve_left (absurd h0)⟩
  · rw [hx]
    obtain ⟨hcodes, hsys, hpatches, -⟩ := doubtDevice_of_boot (s := { s with host := x }) hb
      (if 3 ≤ k.result && k.result ≤ 6 then 9 else 8) (le 8 un ++ le 2 k.patchId ++ le 1 k.result ++ pad 21)
    exact ⟨hsys, hpatches, fun _ => hcodes⟩

/-- The doubts of the containers leave the mode and the patches, and latch where some container is not loaded. -/
theorem each_contDoubt_of_boot (un : Nat) : ∀ (l : List LoadedCont) {s : State}, s.sys.mode = .boot →
    (each (contDoubt un) l s).patches = s.patches
      ∧ ((∃ k ∈ l, k.result ≠ 0) ∨ s.devFault.codes ≠ [] → (each (contDoubt un) l s).devFault.codes ≠ [])
  | [], _, _ => ⟨rfl, fun h => h.resolve_left fun ⟨_, hk, _⟩ => nomatch hk⟩
  | k :: l, s, hb => by
    obtain ⟨hsys, hpatches, hcodes⟩ := contDoubt_of_boot hb un k
    obtain ⟨hrest, hlatch⟩ := each_contDoubt_of_boot un l (s := contDoubt un k s) (by rw [hsys]; exact hb)
    refine ⟨hrest.trans hpatches, fun h => hlatch ?_⟩
    rcases h with ⟨j, hj, hne⟩ | h
    · rcases List.mem_cons.mp hj with rfl | hj
      · exact .inr (hcodes (.inl hne))
      · exact .inl ⟨j, hj, hne⟩
    · exact .inr (hcodes (.inr h))

theorem length_contResults (ninth : Bool) (least : Nat) : ∀ (before l : List Container),
    (contResults ninth least before l).length = l.length
  | _, [] => rfl
  | before, c :: l => congrArg (· + 1) (length_contResults ninth least (before ++ [c]) l)

/-- Every result stands beside its container. -/
theorem exists_mem_zip_of_mem_results {ninth : Bool} {least r : Nat} {l : List Container}
    (h : r ∈ contResults ninth least [] l) : ∃ c, (c, r) ∈ l.zip (contResults ninth least [] l) := by
  have hsnd := List.map_snd_zip (l₁ := l) (le_of_eq (length_contResults ninth least [] l))
  rw [← hsnd] at h
  obtain ⟨⟨c, r'⟩, hmem, rfl⟩ := List.mem_map.mp h
  exact ⟨c, hsnd ▸ hmem⟩

/-- The containers of a directory that are looked at. -/
def takenConts (dir : PatchDir) : List Container := (sortConts (dirConts dir)).take 8

/-- Their results. -/
def State.patchResults (s : State) (dir : PatchDir) : List Nat :=
  contResults (decide (8 < (dirConts dir).length)) s.patchMinimum [] (takenConts dir)

/-- The patches in force after step 5, `tiles` being those that read back wrong: of every container or of none. -/
def State.patchesTaken (s : State) (dir : PatchDir) (tiles : List Nat) : Patches :=
  let ok := (s.patchResults dir).all (· == 0)
  { s.patches with
    conts := ((takenConts dir).zip (s.patchResults dir)).map fun e => loadedCont e.1 (if e.2 = 0 && tiles ≠ [] then 9 else e.2) ok
    unavailable := s.patches.unavailable ++ tiles.filter (fun t => !s.patches.unavailable.contains t)
    words := if ok then ((takenConts dir).flatMap contWords).foldl (fun m e => tset 0 m e.1 (BitVec.ofNat 24 e.2)) [] else []
    dispatch := if ok then ((takenConts dir).flatMap contDisp).foldl (fun m e => tset none m e.1 (some e.2)) [] else [] }

theorem exec_bootPatch_of_booting {s : State} (hb : s.booting 5 = true) (dir : PatchDir) (bad : Nat) :
    ∃ un raise tiles, exec (.bootPatch dir bad) s = .next (bootStep 6 (each (contDoubt un) (s.patchesTaken dir tiles).conts
      { s with patches := s.patchesTaken dir tiles, boot := { s.boot with patchRaise := raise } })) :=
  ⟨_, _, _, congrArg Host.Outcome.next (boot_runs hb)⟩

section
variable {s : State} {dir : PatchDir} (tiles : List Nat)

theorem patchesTaken_of_refused {r : Nat} (hmem : r ∈ s.patchResults dir) (hr : r ≠ 0) :
    (s.patchesTaken dir tiles).words = [] ∧ (s.patchesTaken dir tiles).dispatch = []
      ∧ ∃ k ∈ (s.patchesTaken dir tiles).conts, k.result ≠ 0 := by
  have hbad : ¬(s.patchResults dir).all (· == 0) = true := fun h => hr (beq_iff_eq.mp (List.all_eq_true.mp h r hmem))
  obtain ⟨c, hc⟩ := exists_mem_zip_of_mem_results hmem
  refine ⟨if_neg hbad, if_neg hbad, _, List.mem_map.mpr ⟨(c, r), hc, rfl⟩, ?_⟩
  simp [loadedCont, hr]

theorem patchesTaken_of_none (h : dirConts dir = []) : (s.patchesTaken dir tiles).words = []
    ∧ (s.patchesTaken dir tiles).dispatch = [] ∧ (s.patchesTaken dir tiles).conts = [] := by
  have htaken : takenConts dir = [] := by rw [takenConts, h]; rfl
  simp [State.patchesTaken, State.patchResults, htaken, contResults]

end

/-! ### Step 6: the end of boot (R26, R61, R121, R539) -/

theorem setMode_of_ne {m : Mode} {s : State} (h : s.sys.mode ≠ m) : ∃ (x : HostIf) (log : RefLog),
    setMode m s = { s with sys := { s.sys with mode := m }, refLog := log, host := x } := by
  simp only [setMode, h, if_false]
  obtain ⟨x, hx, -⟩ := raiseFault_eq { s with sys := { s.sys with mode := m }, refLog :=
    if m.counting then
      if s.sys.mode.counting && s.refLog.active then s.refLog else { active := true, start := s.coarse, periodMode := m.code }
    else { s.refLog with active := false } }
  exact ⟨x, _, hx⟩

/-- BOOT ends without a doubt in CONFIGURE. -/
theorem exec_bootFinal_of_good {s : State} (hb : s.booting 6 = true) (hg : s.devFault.codes = []) :
    ∃ t, exec .bootFinal s = .next t ∧ t.boot.step = 7 ∧ t.sys.mode = .configure ∧ t.gov.on = true
      ∧ t.patches.minSv = max s.patches.minSv s.boot.patchRaise
      ∧ t.boot.fwMin = (if s.boot.fwRaise = true ∧ max Config.fusedFwMin.val s.boot.fwMin < s.boot.fwSv then s.boot.fwSv
          else s.boot.fwMin) := by
  have hmode := mode_of_booting hb
  have hex : exec .bootFinal s = execBootFinal s := rfl
  simp only [execBootFinal, boot_runs hb, hg, decide_true, Bool.true_and, if_true] at hex
  obtain ⟨x, log, hset⟩ := setMode_of_ne (m := .configure) (s := { s with
    boot := { s.boot with
      step := 7, bootUs := (s.now - s.boot.start) / 20000, fwRaised := s.boot.fwRaise && decide (s.fwMinimum < s.boot.fwSv)
      fwMin := if s.boot.fwRaise && decide (s.fwMinimum < s.boot.fwSv) then s.boot.fwSv else s.boot.fwMin }
    patches := { s.patches with minSv := max s.patches.minSv s.boot.patchRaise }
    gov := { on := true, since := s.now }
    sys := { s.sys with bootedOk := s.sys.bootedOk || true } }) (fun h => by rw [hmode] at h; cases h)
  rw [hset] at hex
  refine ⟨_, hex, rfl, rfl, rfl, rfl, ?_⟩
  simp [hbRestart, State.fwMinimum]

/-- BOOT ends with a doubt in SAFE. -/
theorem exec_bootFinal_of_doubt {s : State} (hb : s.booting 6 = true) (hg : s.devFault.codes ≠ []) :
    exec .bootFinal s = .next (hbRestart (enterSafe { s with
      boot := { s.boot with step := 7, bootUs := (s.now - s.boot.start) / 20000, fwRaised := false }
      patches := { s.patches with minSv := max s.patches.minSv s.boot.patchRaise }
      gov := { on := true, since := s.now } })) := by
  show execBootFinal s = _
  simp only [execBootFinal, boot_runs hb, hg, decide_false, Bool.false_and, Bool.or_false, Bool.false_eq_true, if_false]

/-- Settles O47: each step under `booting`, by what its wakes, checks and doubts leave. -/
theorem bootStepsAdvance : Obligations.BootStepsAdvance := by
  unfold Obligations.BootStepsAdvance
  refine ⟨fun m h answers noSfdp flashId failed bad hdr cfg a b dies info dir s => ⟨fun hb => congrArg _ (boot_idle hb),
      fun hb => congrArg _ (boot_idle hb), fun hb => congrArg _ (boot_idle hb), fun hb => congrArg _ (boot_idle hb),
      fun hb => congrArg _ (boot_idle hb), fun hb => congrArg _ (boot_idle hb)⟩,
    fun m h s hb => ?_, fun answers noSfdp flashId hdr cfg s hb => ?_, fun a b s hb => ?_,
    fun failed dies info s hb => congrArg _ (boot_runs hb), fun failed d dies info s =>
      ⟨fun h => bootDomain_of_left h failed dies info, fun h hf h4 => failedDoms_bootDomain h hf h4 dies info⟩,
    fun dir bad s hb => ?_, fun s hb => ⟨exec_bootFinal_of_good hb, exec_bootFinal_of_doubt hb⟩⟩
  · exact exec_bootHost_spec hb m h
  · exact exec_bootFlash_spec hb answers noSfdp flashId hdr cfg
  · exact exec_bootFirmware_spec hb a b
  · obtain ⟨un, raise, tiles, hex⟩ := exec_bootPatch_of_booting hb dir bad
    obtain ⟨hpatches, hcodes⟩ := each_contDoubt_of_boot un (s.patchesTaken dir tiles).conts
      (s := { s with patches := s.patchesTaken dir tiles, boot := { s.boot with patchRaise := raise } }) (mode_of_booting hb)
    intro cs
    refine ⟨_, hex, rfl, fun ⟨r, hmem, hr⟩ => ?_, fun hnone => ?_⟩
    · obtain ⟨hwords, hdispatch, hdoubt⟩ := patchesTaken_of_refused tiles hmem hr
      exact ⟨(congrArg Patches.words hpatches).trans hwords, (congrArg Patches.dispatch hpatches).trans hdispatch,
        hcodes (.inl hdoubt)⟩
    · obtain ⟨hwords, hdispatch, hconts⟩ := patchesTaken_of_none (s := s) tiles hnone
      refine ⟨(congrArg Patches.words hpatches).trans hwords, (congrArg Patches.dispatch hpatches).trans hdispatch,
        (congrArg Patches.conts hpatches).trans hconts, ?_⟩
      rw [hconts]
      rfl

end Sys2Proof.Machine
end

section
/-! Instruction words (R96–R98): the fields of each format read back, and every instruction of a burin runs by the issue
of its word (R100). -/

namespace Sys2Proof.Machine

/-! ### Fields of a word -/

theorem fld_eq_iff {w lo n : Nat} {x : Fin (2 ^ n)} : fld w lo n = x ↔ w / 2 ^ lo % 2 ^ n = x.val := by
  rw [fld, Fin.ext_iff]; rfl

theorem imm16_eq_iff {w : Nat} {x : BitVec 16} : imm16 w = x ↔ w % 2 ^ 16 = x.toNat := by
  rw [imm16, ← BitVec.toNat_inj, BitVec.toNat_ofNat]

/-! ### The formats (R96) -/

section
variable (op : Nat)

theorem fields_NO : encNO op / 2 ^ 24 = op := by
  simp only [encNO, encOp]; omega

theorem fields_JU (off : BitVec 16) : encJU op off.toNat / 2 ^ 24 = op ∧ imm16 (encJU op off.toNat) = off := by
  have := off.isLt
  simp only [encJU, encOp, imm16_eq_iff]; omega

theorem fields_BR {ga gb : Nat} (ha : ga < 16) (hb : gb < 16) (off : BitVec 16) :
    encBR op ga gb off.toNat / 2 ^ 24 = op ∧ fld (encBR op ga gb off.toNat) 20 4 = ⟨ga, ha⟩
      ∧ fld (encBR op ga gb off.toNat) 16 4 = ⟨gb, hb⟩ ∧ imm16 (encBR op ga gb off.toNat) = off := by
  have := off.isLt
  simp only [encBR, encOp, fld_eq_iff, imm16_eq_iff]; omega

theorem fields_JT (gs n : Fin 16) : encJT op gs.val n.val / 2 ^ 24 = op
    ∧ fld (encJT op gs.val n.val) 20 4 = gs ∧ fld (encJT op gs.val n.val) 16 4 = n := by
  simp only [encJT, encOp, fld_eq_iff]; omega

theorem fields_RP (len : Fin 256) (gs : Fin 16) : encRP op len.val gs.val / 2 ^ 24 = op
    ∧ fld (encRP op len.val gs.val) 16 8 = len ∧ fld (encRP op len.val gs.val) 12 4 = gs := by
  simp only [encRP, encOp, fld_eq_iff]; omega

theorem fields_RQ (len : Fin 256) (count : BitVec 16) : encRQ op len.val count.toNat / 2 ^ 24 = op
    ∧ fld (encRQ op len.val count.toNat) 16 8 = len ∧ imm16 (encRQ op len.val count.toNat) = count := by
  have := count.isLt
  simp only [encRQ, encOp, fld_eq_iff, imm16_eq_iff]; omega

theorem fields_RG {gd ga gb : Nat} (hd : gd < 16) (ha : ga < 16) (hb : gb < 16) : encRG op gd ga gb / 2 ^ 24 = op
    ∧ fld (encRG op gd ga gb) 20 4 = ⟨gd, hd⟩ ∧ fld (encRG op gd ga gb) 16 4 = ⟨ga, ha⟩
    ∧ fld (encRG op gd ga gb) 12 4 = ⟨gb, hb⟩ := by
  simp only [encRG, encOp, fld_eq_iff]; omega

theorem fields_IM {gd ga : Nat} (hd : gd < 16) (ha : ga < 16) (imm : BitVec 16) :
    encIM op gd ga imm.toNat / 2 ^ 24 = op ∧ fld (encIM op gd ga imm.toNat) 20 4 = ⟨gd, hd⟩
      ∧ fld (encIM op gd ga imm.toNat) 16 4 = ⟨ga, ha⟩ ∧ imm16 (encIM op gd ga imm.toNat) = imm := by
  have := imm.isLt
  simp only [encIM, encOp, fld_eq_iff, imm16_eq_iff]; omega

theorem fields_IM_shift (gd ga : Fin 16) (n : Fin 32) : encIM op gd.val ga.val n.val / 2 ^ 24 = op
    ∧ fld (encIM op gd.val ga.val n.val) 20 4 = gd ∧ fld (encIM op gd.val ga.val n.val) 16 4 = ga
    ∧ fld (encIM op gd.val ga.val n.val) 0 5 = n := by
  simp only [encIM, encOp, fld_eq_iff]; omega

theorem fields_FX {pos : Nat} (gd ga : Fin 16) (hp : pos < 32) (n : Fin 32) : encFX op gd.val ga.val pos n.val / 2 ^ 24 = op
    ∧ fld (encFX op gd.val ga.val pos n.val) 20 4 = gd ∧ fld (encFX op gd.val ga.val pos n.val) 16 4 = ga
    ∧ fld (encFX op gd.val ga.val pos n.val) 11 5 = ⟨pos, hp⟩ ∧ fld (encFX op gd.val ga.val pos n.val) 6 5 = n := by
  simp only [encFX, encOp, fld_eq_iff]; omega

theorem fields_PT_imm (pd : Fin 8) (imm : BitVec 12) : encPT op pd.val 0 0 0 imm.toNat / 2 ^ 24 = op
    ∧ fld (encPT op pd.val 0 0 0 imm.toNat) 21 3 = pd ∧ BitVec.ofNat 12 (encPT op pd.val 0 0 0 imm.toNat) = imm := by
  have := imm.isLt
  simp only [encPT, encOp, fld_eq_iff, ← BitVec.toNat_inj, BitVec.toNat_ofNat]; omega

theorem fields_PT {pd ps g sh : Nat} (hd : pd < 8) (hs : ps < 8) (hg : g < 16) (hsh : sh < 4) :
    encPT op pd ps g sh 0 / 2 ^ 24 = op ∧ fld (encPT op pd ps g sh 0) 21 3 = ⟨pd, hd⟩
      ∧ fld (encPT op pd ps g sh 0) 18 3 = ⟨ps, hs⟩ ∧ fld (encPT op pd ps g sh 0) 14 4 = ⟨g, hg⟩
      ∧ fld (encPT op pd ps g sh 0) 12 2 = ⟨sh, hsh⟩ := by
  simp only [encPT, encOp, fld_eq_iff]; omega

theorem fields_ME {g pa ma u gx pair x : Nat} (hg : g < 16) (hp : pa < 8) (hm : ma < 8) (hu : u < 2) (hx : gx < 16)
    (hn : pair < 2) (hi : x < 2) : encME op g pa ma u gx pair x / 2 ^ 24 = op
    ∧ fld (encME op g pa ma u gx pair x) 20 4 = ⟨g, hg⟩ ∧ fld (encME op g pa ma u gx pair x) 17 3 = ⟨pa, hp⟩
    ∧ fld (encME op g pa ma u gx pair x) 14 3 = ⟨ma, hm⟩ ∧ bits (encME op g pa ma u gx pair x) 13 1 = u
    ∧ fld (encME op g pa ma u gx pair x) 9 4 = ⟨gx, hx⟩ ∧ fld (encME op g pa ma u gx pair x) 8 1 = ⟨pair, hn⟩
    ∧ bits (encME op g pa ma u gx pair x) 7 1 = x := by
  simp only [encME, encOp, fld_eq_iff, bits]; omega

theorem fields_MM {md ud ma ua : Nat} (gs : Fin 16) (pd : Fin 8) (hmd : md < 8) (hud : ud < 2) (pa : Fin 8) (hma : ma < 8)
    (hua : ua < 2) : encMM op gs.val pd.val md ud pa.val ma ua / 2 ^ 24 = op
    ∧ fld (encMM op gs.val pd.val md ud pa.val ma ua) 20 4 = gs ∧ fld (encMM op gs.val pd.val md ud pa.val ma ua) 17 3 = pd
    ∧ fld (encMM op gs.val pd.val md ud pa.val ma ua) 14 3 = ⟨md, hmd⟩
    ∧ bits (encMM op gs.val pd.val md ud pa.val ma ua) 13 1 = ud ∧ fld (encMM op gs.val pd.val md ud pa.val ma ua) 10 3 = pa
    ∧ fld (encMM op gs.val pd.val md ud pa.val ma ua) 7 3 = ⟨ma, hma⟩
    ∧ bits (encMM op gs.val pd.val md ud pa.val ma ua) 6 1 = ua := by
  simp only [encMM, encOp, fld_eq_iff, bits]; omega

theorem fields_AC {g gb acc sh : Nat} (hg : g < 16) (hb : gb < 16) (ha : acc < 4) (hs : sh < 64) :
    encAC op g gb acc sh / 2 ^ 24 = op ∧ fld (encAC op g gb acc sh) 20 4 = ⟨g, hg⟩
      ∧ fld (encAC op g gb acc sh) 16 4 = ⟨gb, hb⟩ ∧ fld (encAC op g gb acc sh) 14 2 = ⟨acc, ha⟩
      ∧ fld (encAC op g gb acc sh) 8 6 = ⟨sh, hs⟩ := by
  simp only [encAC, encOp, fld_eq_iff]; omega

theorem fields_AC_pair {g gb sh : Nat} (hg : g < 16) (hb : gb < 16) (pair : Fin 2) (hs : sh < 64) :
    encAC op g gb (2 * pair.val) sh / 2 ^ 24 = op ∧ fld (encAC op g gb (2 * pair.val) sh) 20 4 = ⟨g, hg⟩
      ∧ fld (encAC op g gb (2 * pair.val) sh) 16 4 = ⟨gb, hb⟩ ∧ fld (encAC op g gb (2 * pair.val) sh) 15 1 = pair
      ∧ fld (encAC op g gb (2 * pair.val) sh) 8 6 = ⟨sh, hs⟩ := by
  simp only [encAC, encOp, fld_eq_iff]; omega

theorem fields_SL {g slot pa ma u : Nat} (hg : g < 16) (hs : slot < 16) (hp : pa < 8) (hm : ma < 8) (hu : u < 2) :
    encSL op g slot pa ma u / 2 ^ 24 = op ∧ fld (encSL op g slot pa ma u) 20 4 = ⟨g, hg⟩
      ∧ fld (encSL op g slot pa ma u) 16 4 = ⟨slot, hs⟩ ∧ fld (encSL op g slot pa ma u) 13 3 = ⟨pa, hp⟩
      ∧ fld (encSL op g slot pa ma u) 10 3 = ⟨ma, hm⟩ ∧ bits (encSL op g slot pa ma u) 9 1 = u := by
  simp only [encSL, encOp, fld_eq_iff, bits]; omega

theorem fields_SL8 {g : Nat} (hg : g < 16) (slot : Fin 8) : encSL op g slot.val 0 0 0 / 2 ^ 24 = op
    ∧ fld (encSL op g slot.val 0 0 0) 20 4 = ⟨g, hg⟩ ∧ fld (encSL op g slot.val 0 0 0) 16 3 = slot := by
  simp only [encSL, encOp, fld_eq_iff]; omega

theorem fields_SL4 {g : Nat} (hg : g < 16) (slot : Fin 4) : encSL op g slot.val 0 0 0 / 2 ^ 24 = op
    ∧ fld (encSL op g slot.val 0 0 0) 20 4 = ⟨g, hg⟩ ∧ fld (encSL op g slot.val 0 0 0) 16 2 = slot := by
  simp only [encSL, encOp, fld_eq_iff]; omega

theorem fields_SE (gd : Fin 16) (pa : Fin 8) (n : Fin 16) : encSE op gd.val pa.val n.val / 2 ^ 24 = op
    ∧ fld (encSE op gd.val pa.val n.val) 20 4 = gd ∧ fld (encSE op gd.val pa.val n.val) 17 3 = pa
    ∧ fld (encSE op gd.val pa.val n.val) 13 4 = n := by
  simp only [encSE, encOp, fld_eq_iff]; omega

theorem fields_SP (g : Fin 16) (sr : Fin 6) : encSP op g.val sr.val / 2 ^ 24 = op
    ∧ fld (encSP op g.val sr.val) 20 4 = g ∧ srOf (encSP op g.val sr.val) = some sr := by
  have hsr : bits (encSP op g.val sr.val) 16 4 = sr.val := by simp only [encSP, encOp, bits]; omega
  refine ⟨?_, ?_, by simp [srOf, hsr]⟩ <;> simp only [encSP, encOp, fld_eq_iff] <;> omega

/-! ### Memory operands (R77) -/

theorem fields_Mem {g pair : Nat} (hg : g < 16) (hn : pair < 2) (m : Mem) : encMem op g pair m / 2 ^ 24 = op
    ∧ fld (encMem op g pair m) 20 4 = ⟨g, hg⟩ ∧ fld (encMem op g pair m) 8 1 = ⟨pair, hn⟩ ∧ memOf (encMem op g pair m) = m := by
  obtain ⟨pa, form⟩ := m
  cases form with
  | plain => simp [-Nat.reducePow, encMem, memOf, fields_ME, hg, hn]
  | post ma => simp [-Nat.reducePow, encMem, memOf, fields_ME, hg, hn]
  | index gx => simp [-Nat.reducePow, encMem, memOf, fields_ME, hg, hn]

theorem fields_MemX (g gx : Fin 16) (pa : Fin 8) (k : MemKind) : encMemX op g.val gx.val pa.val k / 2 ^ 24 = op
    ∧ fld (encMemX op g.val gx.val pa.val k) 20 4 = g ∧ fld (encMemX op g.val gx.val pa.val k) 9 4 = gx
    ∧ fld (encMemX op g.val gx.val pa.val k) 17 3 = pa ∧ kindOf (encMemX op g.val gx.val pa.val k) = k := by
  cases k with
  | plain => simp [-Nat.reducePow, encMemX, kindOf, fields_ME]
  | post ma => simp [-Nat.reducePow, encMemX, kindOf, fields_ME]
  | index => simp [-Nat.reducePow, encMemX, kindOf, fields_ME]

end

theorem optM_lt (m : Option MReg) : optM m < 8 := by
  cases m with
  | none => decide
  | some k => exact k.isLt

theorem optU_lt (m : Option MReg) : optU m < 2 := by
  unfold optU; split <;> omega

/-- A post-modify reads back from its use bit and its offset register. -/
theorem offOf_eq {w u lo : Nat} {m : Option MReg} (hu : bits w u 1 = optU m) (hm : fld w lo 3 = ⟨optM m, optM_lt m⟩) :
    offOf w u lo = m := by
  cases m with
  | none => simp [offOf, hu, optU]
  | some k => simp [offOf, hu, optU, hm, optM]

/-! ### Every word reads back -/

/-- A word spells an instruction on a burin, and fits 32 bits. -/
def Spells (b : BurinId) (w : Nat) (i : Instr) : Prop := readWord b w = some i ∧ w < 2 ^ 32

/-- What a format says of a word's opcode and fields decides what the word spells. -/
theorem Spells.of_fields {b : BurinId} {w op : Nat} {i : Instr} {P : Prop} (h : w / 2 ^ 24 = op ∧ P) (hop : op < 256)
    (hread : w / 2 ^ 24 = op → P → readWord b w = some i) : Spells b w i :=
  ⟨hread h.1 h.2, by have := h.1; omega⟩

/-- Opcodes from 0xE0 on are the patch opcodes (R98). -/
theorem spells_patchOpcode (b : BurinId) (op : Fin 32) (fields : BitVec 24) :
    Spells b ((0xE0 + op.val) * 2 ^ 24 + fields.toNat) (.patchOpcode b op fields) := by
  have hlt := fields.isLt
  have hop : ((0xE0 + op.val) * 2 ^ 24 + fields.toNat) / 2 ^ 24 = 0xE0 + op.val := by omega
  have hf : BitVec.ofNat 24 ((0xE0 + op.val) * 2 ^ 24 + fields.toNat) = fields := by
    rw [← BitVec.toNat_inj, BitVec.toNat_ofNat]; omega
  refine .of_fields ⟨hop, hf⟩ (by omega) fun hop hf => ?_
  rw [readWord, hop, hf]
  fin_cases op <;> rfl

/-- Every instruction of a burin is spelt by its word: the opcode selects the instruction, and each field reads back. -/
theorem wordOf_spells {i : Instr} {b : BurinId} {w : Nat} (h : wordOf i = some (b, w)) : Spells b w i := by
  cases i with
  | nop _ | end_ _ =>
    cases h
    exact .of_fields ⟨fields_NO _, trivial⟩ (by decide) fun hop _ => by
      rw [readWord, hop]; rfl
  | jmp _ off =>
    cases h
    exact .of_fields (fields_JU _ off) (by decide) fun hop ho => by
      rw [readWord, hop, ho]; rfl
  | jt _ x n =>
    cases h
    exact .of_fields (fields_JT _ x n) (by decide) fun hop ⟨hx, hn⟩ => by
      rw [readWord, hop, hx, hn]; rfl
  | rep _ x n =>
    cases h
    exact .of_fields (fields_RP _ n x) (by decide) fun hop ⟨hn, hx⟩ => by
      rw [readWord, hop, hn, hx]; rfl
  | repi _ k n =>
    cases h
    exact .of_fields (fields_RQ _ n k) (by decide) fun hop ⟨hn, hk⟩ => by
      rw [readWord, hop, hn, hk]; rfl
  | beq _ x y off | bne _ x y off | blt _ x y off | bge _ x y off | bltu _ x y off | bgeu _ x y off =>
    cases h
    exact .of_fields (fields_BR _ x.2 y.2 off) (by decide) fun hop ⟨hx, hy, ho⟩ => by
      rw [readWord, hop, hx, hy, ho]; rfl
  | beqz _ x off | bnez _ x off =>
    cases h
    exact .of_fields (fields_BR _ x.2 (by decide) off) (by decide) fun hop ⟨hx, hy, ho⟩ => by
      rw [readWord, hop, hx, hy, ho]; rfl
  | add _ d x y | sub _ d x y | and_ _ d x y | or_ _ d x y | xor_ _ d x y | shl _ d x y | shr _ d x y | sar _ d x y
  | mul _ d x y | mulh _ d x y | min _ d x y | max _ d x y | minu _ d x y | maxu _ d x y | adds _ d x y
  | subs _ d x y | cadd _ d x y | csub _ d x y | cmulr _ d x y | cscl _ d x y | cpk _ d x y =>
    cases h
    exact .of_fields (fields_RG _ d.2 x.2 y.2) (by decide) fun hop ⟨hd, hx, hy⟩ => by
      rw [readWord, hop, hd, hx, hy]; rfl
  | addp _ d y =>
    cases h
    exact .of_fields (fields_RG _ d.2 (by decide) y.2) (by decide) fun hop ⟨hd, hx, hy⟩ => by
      rw [readWord, hop, hd, hx, hy]; rfl
  | mov _ d x | cconj _ d x | cmag2 _ d x =>
    cases h
    exact .of_fields (fields_RG _ d.2 x.2 (by decide)) (by decide) fun hop ⟨hd, hx, hy⟩ => by
      rw [readWord, hop, hd, hx, hy]; rfl
  | addi _ d x n | andi _ d x n | ori _ d x n | xori _ d x n =>
    cases h
    exact .of_fields (fields_IM _ d.2 x.2 n) (by decide) fun hop ⟨hd, hx, hn⟩ => by
      rw [readWord, hop, hd, hx, hn]; rfl
  | movi _ d n | movhi _ d n | addpi _ d n =>
    cases h
    exact .of_fields (fields_IM _ d.2 (by decide) n) (by decide) fun hop ⟨hd, hx, hn⟩ => by
      rw [readWord, hop, hd, hx, hn]; rfl
  | shli _ d x n | shri _ d x n | sari _ d x n =>
    cases h
    exact .of_fields (fields_IM_shift _ d x n) (by decide) fun hop ⟨hd, hx, hn⟩ => by
      rw [readWord, hop, hd, hx, hn]; rfl
  | extu _ d x p n | exts _ d x p n | dep _ d x p n =>
    cases h
    exact .of_fields (fields_FX _ d x p.2 n) (by decide) fun hop ⟨hd, hx, hp, hn⟩ => by
      rw [readWord, hop, hd, hx, hp, hn]; rfl
  | shin _ d x n =>
    cases h
    exact .of_fields (fields_FX _ d x (by decide) n) (by decide) fun hop ⟨hd, hx, hp, hn⟩ => by
      rw [readWord, hop, hd, hx, hp, hn]; rfl
  | movpi _ p n | movmi _ p n =>
    cases h
    exact .of_fields (fields_PT_imm _ p n) (by decide) fun hop ⟨hp, hn⟩ => by
      rw [readWord, hop, hp, hn]; rfl
  | movpg _ p x | movmg _ p x =>
    cases h
    exact .of_fields (fields_PT _ p.2 (by decide) x.2 (by decide)) (by decide) fun hop ⟨hp, hq, hx, hn⟩ => by
      rw [readWord, hop, hp, hq, hx, hn]; rfl
  | movgp _ x p =>
    cases h
    exact .of_fields (fields_PT _ (by decide) p.2 x.2 (by decide)) (by decide) fun hop ⟨hp, hq, hx, hn⟩ => by
      rw [readWord, hop, hp, hq, hx, hn]; rfl
  | modp _ p q =>
    cases h
    exact .of_fields (fields_PT _ p.2 q.2 (by decide) (by decide)) (by decide) fun hop ⟨hp, hq, hx, hn⟩ => by
      rw [readWord, hop, hp, hq, hx, hn]; rfl
  | leap _ p q x n =>
    cases h
    exact .of_fields (fields_PT _ p.2 q.2 x.2 n.2) (by decide) fun hop ⟨hp, hq, hx, hn⟩ => by
      rw [readWord, hop, hp, hq, hx, hn]; rfl
  | ld _ x m | st _ x m | ldd _ x m | std _ x m =>
    cases h
    exact .of_fields (fields_Mem _ x.2 (by decide) m) (by decide) fun hop ⟨hx, hp, hm⟩ => by
      rw [readWord, hop, hx, hp, hm]; rfl
  | rec_ _ m =>
    cases h
    exact .of_fields (fields_Mem _ (by decide) (by decide) m) (by decide) fun hop ⟨hx, hp, hm⟩ => by
      rw [readWord, hop, hx, hp, hm]; rfl
  | cmacm _ p x m =>
    cases h
    exact .of_fields (fields_Mem _ x.2 p.2 m) (by decide) fun hop ⟨hx, hp, hm⟩ => by
      rw [readWord, hop, hx, hp, hm]; rfl
  | ldx _ x p y | stx _ x p y =>
    cases h
    exact .of_fields (fields_ME _ x.2 p.2 (by decide) (by decide) y.2 (by decide) (by decide)) (by decide)
      fun hop ⟨hx, hp, _, _, hy, _⟩ => by
        rw [readWord, hop, hx, hp, hy]; rfl
  | csubm _ x y p k | wsq _ x y p k =>
    cases h
    exact .of_fields (fields_MemX _ x y p k) (by decide) fun hop ⟨hx, hy, hp, hk⟩ => by
      rw [readWord, hop, hx, hy, hp, hk]; rfl
  | clra _ k =>
    cases h
    exact .of_fields (fields_AC _ (by decide) (by decide) k.2 (by decide)) (by decide) fun hop ⟨hx, hy, hk, hn⟩ => by
      rw [readWord, hop, hx, hy, hk, hn]; rfl
  | mova _ k x =>
    cases h
    exact .of_fields (fields_AC _ x.2 (by decide) k.2 (by decide)) (by decide) fun hop ⟨hx, hy, hk, hn⟩ => by
      rw [readWord, hop, hx, hy, hk, hn]; rfl
  | mac _ k x y | msu _ k x y =>
    cases h
    exact .of_fields (fields_AC _ x.2 y.2 k.2 (by decide)) (by decide) fun hop ⟨hx, hy, hk, hn⟩ => by
      rw [readWord, hop, hx, hy, hk, hn]; rfl
  | cmul _ k x y | cmac _ k x y | cmacj _ k x y =>
    cases h
    exact .of_fields (fields_AC_pair _ x.2 y.2 k (by decide)) (by decide) fun hop ⟨hx, hy, hk, hn⟩ => by
      rw [readWord, hop, hx, hy, hk, hn]; rfl
  | rnd _ x k n =>
    cases h
    exact .of_fields (fields_AC _ x.2 (by decide) k.2 n.2) (by decide) fun hop ⟨hx, hy, hk, hn⟩ => by
      rw [readWord, hop, hx, hy, hk, hn]; rfl
  | rndc _ x k n =>
    cases h
    exact .of_fields (fields_AC_pair _ x.2 (by decide) k n.2) (by decide) fun hop ⟨hx, hy, hk, hn⟩ => by
      rw [readWord, hop, hx, hy, hk, hn]; rfl
  | sha _ k n =>
    cases h
    exact .of_fields (fields_AC _ (by decide) (by decide) k.2 n.2) (by decide) fun hop ⟨hx, hy, hk, hn⟩ => by
      rw [readWord, hop, hx, hy, hk, hn]; rfl
  | argmin _ x p n | argmax _ x p n | argmins _ x p n | argmaxs _ x p n =>
    cases h
    exact .of_fields (fields_SE _ x p n) (by decide) fun hop ⟨hx, hp, hn⟩ => by
      rw [readWord, hop, hx, hp, hn]; rfl
  | qfree _ x k =>
    cases h
    exact .of_fields (fields_SL _ x.2 k.2 (by decide) (by decide) (by decide)) (by decide) fun hop ⟨hx, hk, _⟩ => by
      rw [readWord, hop, hx, hk]; rfl
  | waitq _ k x =>
    cases h
    exact .of_fields (fields_SL _ x.2 k.2 (by decide) (by decide) (by decide)) (by decide) fun hop ⟨hx, hk, _⟩ => by
      rw [readWord, hop, hx, hk]; rfl
  | evs _ k | evw _ k =>
    cases h
    exact .of_fields (fields_SL8 _ (by decide) k) (by decide) fun hop ⟨hx, hk⟩ => by
      rw [readWord, hop, hx, hk]; rfl
  | waitc _ k =>
    cases h
    exact .of_fields (fields_SL4 _ (by decide) k) (by decide) fun hop ⟨hx, hk⟩ => by
      rw [readWord, hop, hx, hk]; rfl
  | evt _ x k =>
    cases h
    exact .of_fields (fields_SL8 _ x.2 k) (by decide) fun hop ⟨hx, hk⟩ => by
      rw [readWord, hop, hx, hk]; rfl
  | drecv _ x k | dpoll _ x k =>
    cases h
    exact .of_fields (fields_SL4 _ x.2 k) (by decide) fun hop ⟨hx, hk⟩ => by
      rw [readWord, hop, hx, hk]; rfl
  | dsend _ k x =>
    cases h
    exact .of_fields (fields_SL4 _ x.2 k) (by decide) fun hop ⟨hx, hk⟩ => by
      rw [readWord, hop, hx, hk]; rfl
  | waitt _ x | now _ x | iqrd _ x | iqpoll _ x =>
    cases h
    exact .of_fields (fields_SL _ x.2 (by decide) (by decide) (by decide) (by decide)) (by decide) fun hop ⟨hx, hk, _⟩ => by
      rw [readWord, hop, hx, hk]; rfl
  | dsq _ x p mp q mq =>
    cases h
    exact .of_fields (fields_MM _ x p (optM_lt mp) (optU_lt mp) q (optM_lt mq) (optU_lt mq)) (by decide)
      fun hop ⟨hx, hp, hmp, hup, hq, hmq, huq⟩ => by
        rw [readWord, hop, hx, hp, hq, offOf_eq hup hmp, offOf_eq huq hmq]; rfl
  | put _ k x p m =>
    cases h
    exact .of_fields (fields_SL _ x.2 k.2 p.2 (optM_lt m) (optU_lt m)) (by decide) fun hop ⟨hx, hk, hp, hm, hu⟩ => by
      rw [readWord, hop, hx, hk, hp, offOf_eq hu hm]; rfl
  | mfs _ x r | mts _ r x =>
    cases h
    exact .of_fields (fields_SP _ x r) (by decide) fun hop ⟨hx, hr⟩ => by
      rw [readWord, hop, hx, hr]; rfl
  | patchOpcode _ op fields =>
    cases h
    exact spells_patchOpcode b op fields
  | _ => cases h

/-- Settles O5: `wordOf_spells`, by the format of each instruction. -/
theorem wordsReadBack : Obligations.WordsReadBack := by
  unfold Obligations.WordsReadBack
  exact fun _ _ _ h => wordOf_spells h

/-! ### Every instruction runs by its issue -/

/-- Every instruction of a burin takes the one path: the issue of its word. -/
theorem exec_eq_issue {i : Instr} {b : BurinId} {w : Nat} (h : wordOf i = some (b, w)) : ∃ body : State → State,
    exec i = issue b w body := by
  cases i <;> first
    | (cases h; exact ⟨_, rfl⟩)
    | cases h

theorem issue_of_not_fetched {b : BurinId} {w : Nat} {s : State} (h : s.fetched b.val w = false) (body : State → State) :
    issue b w body s = .next s := by
  simp [issue, h]

/-- What issues has its word at pc. -/
theorem word_of_issues {i : Instr} {b : BurinId} {w : Nat} {s : State} (hw : wordOf i = some (b, w)) (h : Issues i s = true) :
    (s.burin b.val).word = w := by
  simp only [Issues, hw, State.fetched, Bool.and_eq_true, decide_eq_true_eq] at h
  exact h.1.2

/-- Settles O6: both words stand at pc, so they are one word, which spells one instruction. -/
theorem oneInstructionIssues : Obligations.OneInstructionIssues := by
  unfold Obligations.OneInstructionIssues
  intro i j b v w s hi hj his hjs
  have hvw : v = w := (word_of_issues hi his).symm.trans (word_of_issues hj hjs)
  obtain ⟨hri, -⟩ := wordOf_spells hi
  obtain ⟨hrj, -⟩ := wordOf_spells hj
  exact Option.some.inj (hri.symm.trans ((congrArg (readWord b) hvw).trans hrj))

/-- Settles O7: issuing a word that is not fetched leaves the state alone. -/
theorem unissuedInstructionDoesNothing : Obligations.UnissuedInstructionDoesNothing := by
  unfold Obligations.UnissuedInstructionDoesNothing
  intro i b w s hw hf
  obtain ⟨body, hexec⟩ := exec_eq_issue hw
  rw [hexec]
  exact issue_of_not_fetched hf body

end Sys2Proof.Machine
end

section
/-! Integer, field, pointer, load, store and selection instructions (R71, R77, R78, R86, R97). -/

namespace Sys2Proof.Machine

/-! ### What the operations of R97 come to in numbers -/

section
variable (x y : Word)

theorem sub_eq_ofInt : x - y = BitVec.ofInt 32 (x.toInt - y.toInt) := by
  rw [BitVec.sub_eq_add_neg, sub_eq_add_neg, BitVec.ofInt_add, BitVec.ofInt_neg, BitVec.ofInt_toInt, BitVec.ofInt_toInt]

theorem mul_eq_ofInt : x * y = BitVec.ofInt 32 (x.toInt * y.toInt) := by
  rw [BitVec.ofInt_mul, BitVec.ofInt_toInt, BitVec.ofInt_toInt]

theorem shl_eq_ofNat (n : Nat) : x <<< n = BitVec.ofNat 32 (x.toNat * 2 ^ n) := by
  rw [← Nat.shiftLeft_eq]; rfl

theorem shr_eq_ofNat (n : Nat) : x >>> n = BitVec.ofNat 32 (x.toNat / 2 ^ n) := by
  rw [← Nat.shiftRight_eq_div_pow, ← BitVec.toNat_ushiftRight, BitVec.ofNat_toNat, BitVec.setWidth_eq]

theorem sar_eq_ofInt (n : Nat) : x.sshiftRight n = BitVec.ofInt 32 (x.toInt / 2 ^ n) := by
  rw [BitVec.sshiftRight_eq, Int.shiftRight_eq_div_pow]
  norm_cast

theorem ite_slt_eq_min : (if x.slt y then x else y) = BitVec.ofInt 32 (Min.min x.toInt y.toInt) := by
  simp only [BitVec.slt_iff_toInt_lt]
  split
  · rw [min_eq_left (by omega), BitVec.ofInt_toInt]
  · rw [min_eq_right (by omega), BitVec.ofInt_toInt]

theorem ite_slt_eq_max : (if x.slt y then y else x) = BitVec.ofInt 32 (Max.max x.toInt y.toInt) := by
  simp only [BitVec.slt_iff_toInt_lt]
  split
  · rw [max_eq_right (by omega), BitVec.ofInt_toInt]
  · rw [max_eq_left (by omega), BitVec.ofInt_toInt]

theorem ite_ult_eq_min : (if x.ult y then x else y) = BitVec.ofNat 32 (Min.min x.toNat y.toNat) := by
  simp only [BitVec.ult_iff_toNat_lt]
  split
  · rw [min_eq_left (by omega), BitVec.ofNat_toNat, BitVec.setWidth_eq]
  · rw [min_eq_right (by omega), BitVec.ofNat_toNat, BitVec.setWidth_eq]

theorem ite_ult_eq_max : (if x.ult y then y else x) = BitVec.ofNat 32 (Max.max x.toNat y.toNat) := by
  simp only [BitVec.ult_iff_toNat_lt]
  split
  · rw [max_eq_right (by omega), BitVec.ofNat_toNat, BitVec.setWidth_eq]
  · rw [max_eq_left (by omega), BitVec.ofNat_toNat, BitVec.setWidth_eq]

theorem add_signExtend_eq_ofInt (n : BitVec 16) : x + n.signExtend 32 = BitVec.ofInt 32 (x.toInt + n.toInt) := by
  rw [BitVec.ofInt_add, BitVec.ofInt_toInt]; rfl

theorem append_low_eq_ofNat (n : BitVec 16) :
    n ++ x.extractLsb' 0 16 = BitVec.ofNat 32 (n.toNat * 2 ^ 16 + x.toNat % 2 ^ 16) := by
  apply BitVec.eq_of_toNat_eq
  have hn := n.isLt
  rw [BitVec.toNat_append, BitVec.extractLsb'_toNat, Nat.shiftRight_zero, ← Nat.shiftLeft_add_eq_or_of_lt (by omega),
    Nat.shiftLeft_eq, BitVec.toNat_ofNat]
  omega

/-- SHIN: the low `n` bits of `y` come in from below. -/
theorem shl_or_eq_ofNat (n : Nat) :
    (x <<< n) ||| BitVec.ofNat 32 (y.toNat % 2 ^ n) = BitVec.ofNat 32 (x.toNat * 2 ^ n + y.toNat % 2 ^ n) := by
  apply BitVec.eq_of_getLsbD_eq
  intro i hi
  simp only [BitVec.getLsbD_or, BitVec.getLsbD_shiftLeft, BitVec.getLsbD_ofNat, hi, decide_true, Bool.true_and,
    mul_comm x.toNat, Nat.testBit_two_pow_mul_add _ (Nat.mod_lt _ (Nat.two_pow_pos n)), Nat.testBit_mod_two_pow]
  split <;> simp [*, BitVec.getLsbD]

/-- DEP: bits [pos + n − 1 : pos] come from `y`, the others stay. -/
theorem mask_or_eq_ofNat (pos n : Nat) :
    (x &&& ~~~(BitVec.ofNat 32 ((2 ^ n - 1) * 2 ^ pos))) ||| ((y <<< pos) &&& BitVec.ofNat 32 ((2 ^ n - 1) * 2 ^ pos))
      = BitVec.ofNat 32 (x.toNat / 2 ^ (pos + n) * 2 ^ (pos + n) + y.toNat % 2 ^ n * 2 ^ pos + x.toNat % 2 ^ pos) := by
  have hsum : x.toNat / 2 ^ (pos + n) * 2 ^ (pos + n) + y.toNat % 2 ^ n * 2 ^ pos + x.toNat % 2 ^ pos
      = 2 ^ pos * (2 ^ n * (x.toNat / 2 ^ (pos + n)) + y.toNat % 2 ^ n) + x.toNat % 2 ^ pos := by ring
  apply BitVec.eq_of_getLsbD_eq
  intro i hi
  rw [hsum]
  simp only [BitVec.getLsbD_or, BitVec.getLsbD_and, BitVec.getLsbD_not, BitVec.getLsbD_shiftLeft, BitVec.getLsbD_ofNat, hi,
    decide_true, Bool.true_and, Nat.testBit_two_pow_mul_add _ (Nat.mod_lt _ (Nat.two_pow_pos _)), mul_comm _ (2 ^ pos),
    Nat.testBit_two_pow_mul, Nat.testBit_two_pow_sub_one, Nat.testBit_mod_two_pow, Nat.testBit_div_two_pow]
  by_cases hpos : i < pos
  · simp [hpos, BitVec.getLsbD]
  · by_cases hn : i - pos < n
    · simp [hpos, hn, show pos ≤ i by omega, BitVec.getLsbD]
    · simp [hpos, hn, BitVec.getLsbD, show i - pos - n + (pos + n) = i by omega]

theorem bits_eq (n : Nat) (v : Nat) (lo : Nat) : bits v lo n = v / 2 ^ lo % 2 ^ n := rfl

theorem sgn_bits (v lo n : Nat) : sgn (n + 1) (bits v lo (n + 1))
    = if v / 2 ^ lo % 2 ^ (n + 1) < 2 ^ n then ((v / 2 ^ lo % 2 ^ (n + 1) : Nat) : Int)
      else ((v / 2 ^ lo % 2 ^ (n + 1) : Nat) : Int) - 2 ^ (n + 1) := by
  simp only [sgn, bits, Nat.mod_mod, Nat.add_sub_cancel, Nat.cast_pow, Nat.cast_ofNat]

end

/-- What a narrowing stores, and that it changed the value. -/
theorem narrow_eq (x : Int) (n : Nat) (lo hi : Int) (h : lo ≤ hi) : narrow x n lo hi
    = (Claims.clampTo lo hi (Claims.rounded n x), decide (Claims.clampTo lo hi (Claims.rounded n x) ≠ Claims.rounded n x)) := by
  have hround : roundShift x n = Claims.rounded n x := by
    simp only [roundShift, Claims.rounded, Nat.cast_pow, Nat.cast_ofNat]
  simp only [narrow, hround, Claims.clampTo]
  rcases lt_trichotomy (Claims.rounded n x) lo with hlo | hlo | hlo
  · simp [hlo, hlo.ne', show ¬ Claims.rounded n x > hi by omega]
  · simp [hlo, show ¬ hi < lo by omega]
  · by_cases hhi : hi < Claims.rounded n x
    · simp [hhi, hhi.ne, hlo.le.not_gt]
    · simp [hhi, hlo.le.not_gt]

/-! ### Pairs, pointers and memory operands -/

theorem pair_toNat (r : Regs) (k : Nat) : (pair r k).toNat = (gr r (k + 1)).toNat * 2 ^ 32 + (gr r k).toNat := by
  rw [pair, BitVec.toNat_append, ← Nat.shiftLeft_add_eq_or_of_lt (gr r k).isLt, Nat.shiftLeft_eq]

theorem setPair_ofInt (k : Nat) (x : Int) (r : Regs) : setPair k (BitVec.ofInt 64 x) r = Claims.put64 k x r := by
  have hlo : (BitVec.ofInt 64 x).extractLsb' 0 32 = BitVec.ofInt 32 x := by
    apply BitVec.eq_of_toNat_eq
    simp only [BitVec.extractLsb'_toNat, BitVec.toNat_ofInt, Nat.shiftRight_zero]
    omega
  have hhi : (BitVec.ofInt 64 x).extractLsb' 32 32 = BitVec.ofInt 32 (x / 2 ^ 32) := by
    apply BitVec.eq_of_toNat_eq
    simp only [BitVec.extractLsb'_toNat, BitVec.toNat_ofInt, Nat.shiftRight_eq_div_pow]
    omega
  rw [setPair, hlo, hhi]; rfl

/-- A pair takes a sum with a 64-bit value. -/
theorem setPair_pair_add {v : BitVec 64} {x : Int} (k : Nat) (r : Regs) (hv : v = BitVec.ofInt 64 x) :
    setPair k (pair r k + v) r = Claims.put64 k ((gr r (k + 1)).toNat * 2 ^ 32 + (gr r k).toNat + x) r := by
  have hpair : pair r k = BitVec.ofInt 64 ((gr r (k + 1)).toNat * 2 ^ 32 + (gr r k).toNat : Int) := by
    apply BitVec.eq_of_toInt_eq
    rw [BitVec.toInt_ofInt, BitVec.toInt_eq_toNat_bmod, pair_toNat]
    norm_cast
  rw [hpair, hv, ← BitVec.ofInt_add, setPair_ofInt]

theorem setPair_append (k : Nat) (x y : Word) (r : Regs) : setPair k (x ++ y) r = setG (k + 1) x (setG k y r) := by
  rw [setPair, BitVec.extractLsb'_append_eq_left, BitVec.extractLsb'_append_eq_right]

theorem setWidth_eq_ofNat_mod (x : Word) (n : Nat) : x.setWidth n = BitVec.ofNat n (x.toNat % 2 ^ n) := by
  apply BitVec.eq_of_toNat_eq
  rw [BitVec.toNat_setWidth, BitVec.toNat_ofNat, Nat.mod_mod]

theorem add_setWidth_shl_eq_ofNat (p : Ptr) (x : Word) (n : Nat) :
    p + (x <<< n).setWidth 12 = BitVec.ofNat 12 (p.toNat + x.toNat * 2 ^ n) := by
  apply BitVec.eq_of_toNat_eq
  rw [BitVec.toNat_add, BitVec.toNat_setWidth, BitVec.toNat_shiftLeft, BitVec.toNat_ofNat, Nat.shiftLeft_eq]
  omega

theorem bumpP_eq_movePtr (p : PReg) (k : MReg) (r : Regs) : bumpP p.val k.val r = Claims.movePtr p (some k) r := by
  have hptr : pr r p.val + (mr r k.val).setWidth 12 = BitVec.ofInt 12 ((pr r p.val).toNat + (mr r k.val).toInt) := by
    apply BitVec.eq_of_toNat_eq
    rw [BitVec.toNat_add, BitVec.toNat_setWidth, BitVec.toNat_ofInt, BitVec.toInt_eq_toNat_cond]
    split <;> omega
  rw [bumpP, hptr]; rfl

theorem optPost_eq_movePtr (p : PReg) (o : Option MReg) : optPost p.val o = Claims.movePtr p o := by
  cases o with
  | none => rfl
  | some k => exact funext (bumpP_eq_movePtr p k)

theorem memAddr_eq_place (m : Mem) (r : Regs) : memAddr r m = Claims.place m r := by
  obtain ⟨pa, form⟩ := m
  cases form <;> rfl

theorem memPost_eq_moved (m : Mem) (r : Regs) : memPost m r = Claims.moved m r := by
  obtain ⟨pa, form⟩ := m
  cases form with
  | plain => rfl
  | post k => exact bumpP_eq_movePtr pa k r
  | index gx => rfl

@[simp] theorem put64_flags (k : Nat) (x : Int) (r : Regs) : (Claims.put64 k x r).flags = r.flags := rfl

@[simp] theorem movePtr_flags (p : PReg) (o : Option MReg) (r : Regs) : (Claims.movePtr p o r).flags = r.flags := by
  cases o <;> rfl

@[simp] theorem moved_flags (m : Mem) (r : Regs) : (Claims.moved m r).flags = r.flags := by
  rw [Claims.moved]
  split
  · exact movePtr_flags ..
  · rfl

/-! ### Instructions that write registers alone -/

/-- The instruction runs as the write of `f` to its burin's registers, and sets no OVG flag. -/
def WritesRegs (i : Instr) (b : BurinId) (f : Regs → Regs) : Prop :=
  ∃ w, wordOf i = some (b, w) ∧ exec i = plain b w f ∧ ∀ r, ovgNew r.flags (f r).flags = 0

theorem WritesRegs.completes {i : Instr} {b : BurinId} {f : Regs → Regs} (h : WritesRegs i b f) {s : State}
    (hs : Issues i s = true) : Completes i b (fun r => pass (f r)) s := by
  obtain ⟨w, hw, hexec, hovg⟩ := h
  exact plain_completes hw hs (congrFun hexec s) (hovg _)

theorem WritesRegs.of_eq {i : Instr} {b : BurinId} {w : Nat} {f g : Regs → Regs} (hw : wordOf i = some (b, w))
    (hexec : exec i = plain b w g) (heq : ∀ r, g r = f r) (hflags : ∀ r, (f r).flags = r.flags) : WritesRegs i b f :=
  ⟨w, hw, hexec.trans (congrArg _ (funext heq)), fun r => by rw [hflags]; exact ovgNew_self _⟩

/-- A general register takes a value. -/
theorem WritesRegs.setG {i : Instr} {b : BurinId} {w d : Nat} {u v : Regs → Word} (hw : wordOf i = some (b, w))
    (hexec : exec i = plain b w fun r => Machine.setG d (u r) r) (heq : ∀ r, u r = v r) :
    WritesRegs i b fun r => Machine.setG d (v r) r :=
  .of_eq hw hexec (fun r => by rw [heq]) fun _ => rfl

/-- A general register takes a value saturated to 32 bits, which sets no flag but SAT. -/
theorem put32_eq (d : Nat) (x : Int) (r : Regs) :
    satIf (narrowS x 0).2 (Machine.setG d (narrowS x 0).1 r) = Claims.put32 d x r := by
  simp only [narrowS, narrow_eq _ _ (-2147483648) 2147483647 (by decide), Claims.put32, Claims.satWhere, satIf, Claims.rounded, if_true]
  split <;> rfl

theorem ovgNew_put32 (d : Nat) (x : Int) (r : Regs) : ovgNew r.flags (Claims.put32 d x r).flags = 0 := ovgNew_sat _ _

/-- Every integer, field, pointer and memory instruction writes its effect of R97, by its operation in numbers. -/
theorem dataEffect_writesRegs {i : Instr} {b : BurinId} {f : Regs → Regs} (h : Claims.dataEffect i = some (b, f)) :
    WritesRegs i b f := by
  cases i with
  | nop _ => cases h; exact .of_eq rfl rfl (fun _ => rfl) fun _ => rfl
  | add _ d x y => cases h; exact .setG rfl rfl fun _ => BitVec.add_def ..
  | sub _ d x y => cases h; exact .setG rfl rfl fun _ => sub_eq_ofInt ..
  | and_ _ d x y | or_ _ d x y | xor_ _ d x y => cases h; exact .setG rfl rfl fun _ => rfl
  | shl _ d x y => cases h; exact .setG rfl rfl fun _ => shl_eq_ofNat ..
  | shr _ d x y => cases h; exact .setG rfl rfl fun _ => shr_eq_ofNat ..
  | sar _ d x y => cases h; exact .setG rfl rfl fun _ => sar_eq_ofInt ..
  | mul _ d x y => cases h; exact .setG rfl rfl fun _ => mul_eq_ofInt ..
  | mulh _ d x y => cases h; exact .setG rfl rfl fun _ => by norm_num
  | min _ d x y => cases h; exact .setG rfl rfl fun _ => ite_slt_eq_min ..
  | max _ d x y => cases h; exact .setG rfl rfl fun _ => ite_slt_eq_max ..
  | minu _ d x y => cases h; exact .setG rfl rfl fun _ => ite_ult_eq_min ..
  | maxu _ d x y => cases h; exact .setG rfl rfl fun _ => ite_ult_eq_max ..
  | adds _ d x y | subs _ d x y =>
    cases h
    exact ⟨_, rfl, congrArg (plain _ _) (funext fun r => put32_eq ..), fun r => ovgNew_put32 ..⟩
  | addi _ d x n => cases h; exact .setG rfl rfl fun _ => add_signExtend_eq_ofInt ..
  | andi _ d x n | ori _ d x n | xori _ d x n =>
    cases h; exact .setG rfl rfl fun _ => by rw [BitVec.ofNat_toNat]
  | shli _ d x n => cases h; exact .setG rfl rfl fun _ => shl_eq_ofNat ..
  | shri _ d x n => cases h; exact .setG rfl rfl fun _ => shr_eq_ofNat ..
  | sari _ d x n => cases h; exact .setG rfl rfl fun _ => sar_eq_ofInt ..
  | movi _ d n => cases h; exact .of_eq rfl rfl (fun _ => rfl) fun _ => rfl
  | movhi _ d n => cases h; exact .setG rfl rfl fun _ => append_low_eq_ofNat ..
  | addpi _ d n => cases h; exact .of_eq rfl rfl (fun r => setPair_pair_add _ r rfl) fun _ => put64_flags ..
  | addp _ d y =>
    cases h
    exact .of_eq rfl rfl (fun r => setPair_pair_add _ r (by rw [BitVec.ofInt_natCast, BitVec.ofNat_toNat]))
      fun _ => put64_flags ..
  | mov _ d x => cases h; exact .setG rfl rfl fun _ => rfl
  | extu _ d x pos n => cases h; exact .setG rfl rfl fun _ => rfl
  | exts _ d x pos n => cases h; exact .setG rfl rfl fun _ => congrArg _ (sgn_bits ..)
  | shin _ d x n =>
    cases h
    refine .setG rfl rfl fun r => ?_
    rw [bits_eq, pow_zero, Nat.div_one]
    exact shl_or_eq_ofNat ..
  | dep _ d x pos n =>
    cases h
    exact .setG rfl rfl fun r => mask_or_eq_ofNat ..
  | movpi _ p n | movmi _ k n => cases h; exact .of_eq rfl rfl (fun _ => rfl) fun _ => rfl
  | movpg _ p x => cases h; exact .of_eq rfl rfl (fun r => congrArg (setP _ · r) (setWidth_eq_ofNat_mod ..)) fun _ => rfl
  | movmg _ k x => cases h; exact .of_eq rfl rfl (fun r => congrArg (setM _ · r) (setWidth_eq_ofNat_mod ..)) fun _ => rfl
  | movgp _ d p => cases h; exact .setG rfl rfl fun r => (BitVec.ofNat_toNat ..).symm
  | modp _ p k => cases h; exact .of_eq rfl rfl (fun r => bumpP_eq_movePtr ..) fun r => movePtr_flags ..
  | leap _ p q x n =>
    cases h; exact .of_eq rfl rfl (fun r => congrArg (setP _ · r) (add_setWidth_shl_eq_ofNat ..)) fun _ => rfl
  | ld _ d m =>
    cases h
    exact .of_eq rfl rfl (fun r => by rw [memAddr_eq_place, memPost_eq_moved]) fun r => moved_flags ..
  | st _ x m =>
    cases h
    exact .of_eq rfl rfl (fun r => by rw [memAddr_eq_place, memPost_eq_moved]; rfl) fun r => moved_flags ..
  | ldd _ d m =>
    cases h
    exact .of_eq rfl rfl (fun r => by rw [memAddr_eq_place, memPost_eq_moved, setPair_append]) fun r => moved_flags ..
  | std _ x m =>
    cases h
    exact .of_eq rfl rfl (fun r => by rw [memAddr_eq_place, memPost_eq_moved]; rfl) fun r => moved_flags ..
  | ldx _ d p x =>
    cases h
    exact .setG rfl rfl fun r => by rw [dm, dm, Nat.mod_mod]
  | stx _ y p x => cases h; exact .of_eq rfl rfl (fun _ => rfl) fun _ => rfl
  | _ => cases h

/-- Settles O50: the three writes as `dataEffect` names them, on the bits that the pointer and the offset register take. -/
theorem pointerAndOffsetWrites : Obligations.PointerAndOffsetWrites := by
  unfold Obligations.PointerAndOffsetWrites
  refine ⟨fun b p g s hs => ?_, fun b k g s hs => ?_, fun b k n s hs => ?_⟩
  · have hbits (x : Word) : x.extractLsb' 0 12 = BitVec.ofNat 12 (x.toNat % 4096) := by
      rw [← BitVec.setWidth_eq_extractLsb' (by decide)]
      exact setWidth_eq_ofNat_mod x 12
    simp only [hbits]
    exact (dataEffect_writesRegs (i := .movpg b p g) rfl).completes hs
  · have hbits (x : Word) : x.extractLsb' 0 16 = BitVec.ofNat 16 (x.toNat % 65536) := by
      rw [← BitVec.setWidth_eq_extractLsb' (by decide)]
      exact setWidth_eq_ofNat_mod x 16
    simp only [hbits]
    exact (dataEffect_writesRegs (i := .movmg b k g) rfl).completes hs
  · have hsign : (if n.toNat < 2048 then (n.toNat : Int) else (n.toNat : Int) - 4096) = n.toInt := by
      rw [BitVec.toInt_eq_toNat_cond]
      split <;> split <;> omega
    rw [hsign]
    exact (dataEffect_writesRegs (i := .movmi b k n) rfl).completes hs

/-! ### Selection (R86) -/

/-- Of the first `m` values `k` is the lowest index of a value of least rank. -/
def IsBest (rank : Nat → Int) (m k : Nat) : Prop := k < m ∧ (∀ j, j < m → rank k ≤ rank j) ∧ ∀ j, j < k → rank k < rank j

theorem IsBest.next_self {rank : Nat → Int} {m k : Nat} (h : IsBest rank m k) (hm : rank m < rank k) : IsBest rank (m + 1) m := by
  obtain ⟨-, hle, -⟩ := h
  refine ⟨by omega, fun j hj => ?_, fun j hj => hm.trans_le (hle j hj)⟩
  rcases Nat.lt_succ_iff_lt_or_eq.mp hj with hj | rfl
  · exact (hm.trans_le (hle j hj)).le
  · rfl

theorem IsBest.next_old {rank : Nat → Int} {m k : Nat} (h : IsBest rank m k) (hm : ¬ rank m < rank k) : IsBest rank (m + 1) k := by
  obtain ⟨hk, hle, hlt⟩ := h
  refine ⟨by omega, fun j hj => ?_, hlt⟩
  rcases Nat.lt_succ_iff_lt_or_eq.mp hj with hj | rfl
  · exact hle j hj
  · exact not_lt.mp hm

section
variable {better : Word → Word → Bool} {rank : Word → Int} (hb : ∀ x y, better x y = true ↔ rank x < rank y) (r : Regs) (a : Nat)
include hb

/-- The walk of `selBest` keeps the best of the words that it has seen. -/
theorem selBest_isBest (n : Nat) : ∀ {m k : Nat}, IsBest (fun j => rank (dm r (a + j))) m k →
    ∃ k', selBest better r a n m (k, dm r (a + k)) = (k', dm r (a + k')) ∧ IsBest (fun j => rank (dm r (a + j))) (m + n) k' := by
  induction n with
  | zero => exact fun {m k} h => ⟨k, rfl, h⟩
  | succ n ih =>
    intro m k h
    rw [selBest, show m + (n + 1) = m + 1 + n by omega]
    by_cases hm : better (dm r (a + m)) (dm r (a + k)) = true
    · rw [if_pos hm]
      exact ih (h.next_self ((hb ..).mp hm))
    · rw [if_neg hm]
      exact ih (h.next_old fun hlt => hm ((hb ..).mpr hlt))

theorem selRun_isBest (n : Nat) : ∃ k, selRun better r a (n + 1) = (k, dm r (a + k))
    ∧ IsBest (fun j => rank (dm r (a + j))) (n + 1) k := by
  obtain ⟨k, hsel, hbest⟩ := selBest_isBest hb r a n (m := 1) (k := 0)
    ⟨by decide, fun j hj => by rw [Nat.lt_one_iff.mp hj], fun j hj => absurd hj (Nat.not_lt_zero j)⟩
  exact ⟨k, hsel, by rwa [Nat.add_comm]⟩

end

/-- What an ARG instruction writes: the index to `d` and the word to the register after it. -/
def argWrite (better : Word → Word → Bool) (d : GReg) (p : PReg) (n : Fin 16) (r : Regs) : Regs :=
  let best := selRun better r (pr r p.val).toNat (n.val + 1)
  setG (d.val + 1) best.2 (setG d.val (BitVec.ofNat 32 best.1) r)

/-- Every ARG instruction selects by a rank of words. -/
theorem bestOf_writesRegs {i : Instr} {b : BurinId} {d : GReg} {p : PReg} {n : Fin 16} {lt : Word → Word → Prop}
    (h : Claims.bestOf i = some (b, d, p, n, lt)) : ∃ (better : Word → Word → Bool) (rank : Word → Int),
      WritesRegs i b (argWrite better d p n) ∧ (∀ x y, better x y = true ↔ rank x < rank y) ∧ ∀ x y, lt x y ↔ rank x < rank y := by
  have hw {i better} {op : Nat} (hw : wordOf i = some (b, encSE op d.val p.val n.val))
      (he : exec i = plain b (encSE op d.val p.val n.val) (argWrite better d p n)) : WritesRegs i b (argWrite better d p n) :=
    .of_eq hw he (fun _ => rfl) fun _ => rfl
  cases i with
  | argmin => cases h; exact ⟨BitVec.ult, fun x => x.toNat, hw rfl rfl, fun x y => by simp [BitVec.ult], fun x y => by simp⟩
  | argmax =>
    cases h
    exact ⟨fun x y => y.ult x, fun x => -x.toNat, hw rfl rfl, fun x y => by simp [BitVec.ult], fun x y => by simp⟩
  | argmins => cases h; exact ⟨BitVec.slt, BitVec.toInt, hw rfl rfl, fun x y => by simp [BitVec.slt], fun x y => Iff.rfl⟩
  | argmaxs =>
    cases h
    exact ⟨fun x y => y.slt x, fun x => -x.toInt, hw rfl rfl, fun x y => by simp [BitVec.slt], fun x y => by simp⟩
  | _ => cases h

/-- What a completed instruction writes is judged on the registers that it met. -/
theorem Completes.congr {i : Instr} {b : BurinId} {f g : Regs → Regs} {s : State} (h : Completes i b f s)
    (heq : f (s.burin b.val).regs = g (s.burin b.val).regs) : Completes i b g s := by
  obtain ⟨t, hexec, fe, ur, un, ht⟩ := h
  exact ⟨t, hexec, fe, ur, un, by rw [← heq]; exact ht⟩

/-- Settles O49: the effects of R97 by `dataEffect_writesRegs`, selection by the invariant of its walk. -/
theorem dataInstructionsComplete : Obligations.DataInstructionsComplete := by
  unfold Obligations.DataInstructionsComplete
  refine ⟨fun i b f s h hs => (dataEffect_writesRegs h).completes hs, fun i b d p n lt s h hs => ?_⟩
  obtain ⟨better, rank, hwrites, hbetter, hlt⟩ := bestOf_writesRegs h
  intro r w
  obtain ⟨k, hsel, hk, hle, hfirst⟩ := selRun_isBest hbetter r (pr r p.val).toNat n.val
  refine ⟨k, by omega, fun j hj => ?_, fun j hj => (hlt ..).mpr (hfirst j hj), (hwrites.completes hs).congr ?_⟩
  · exact fun hbest => absurd ((hlt ..).mp hbest) (not_lt.mpr (hle j (by omega)))
  · show pass (argWrite better d p n r) = _
    rw [argWrite, hsel]
    rfl

end Sys2Proof.Machine
end

section
/-! Complex and accumulator instructions, SAT and OVG (R72–R77, R97). -/

namespace Sys2Proof.Machine

/-! ### Narrowing stores (R73) -/

theorem satIf_eq_satWhere (c : Bool) (r : Regs) : satIf c r = Claims.satWhere c r := by
  cases c <;> rfl

theorem setCpx_eq_putIq (k : Nat) (i q : Int) (n : Nat) (r : Regs) :
    setCpx k i q n r = Claims.putIq k (Claims.rounded n i) (Claims.rounded n q) r := by
  simp only [setCpx, narrow_eq _ _ (-32768) 32767 (by decide), satIf_eq_satWhere]
  rfl

theorem narrowU_eq (x : Int) (n : Nat) : narrowU x n = (BitVec.ofInt 32 (Claims.clampTo 0 4294967295 (Claims.rounded n x)),
    decide (Claims.clampTo 0 4294967295 (Claims.rounded n x) ≠ Claims.rounded n x)) := by
  simp only [narrowU, narrow_eq _ _ 0 4294967295 (by decide)]

/-- A sum of two squares, rounded, is cut at the top alone. -/
theorem narrowU_of_nonneg {x : Int} (h : 0 ≤ x) : narrowU x 2
    = (BitVec.ofInt 32 (if 4294967295 < Claims.rounded 2 x then 4294967295 else Claims.rounded 2 x),
       decide (4294967295 < Claims.rounded 2 x)) := by
  have hr : ¬ Claims.rounded 2 x < 0 := by simp only [Claims.rounded]; norm_num; omega
  rw [narrowU_eq, Claims.clampTo, if_neg hr]
  split
  case isTrue htop => simp [htop, htop.ne]
  case isFalse htop => simp [htop]

theorem halves_eq (w : Word) : bits w.toNat 0 16 = w.toNat % 65536 ∧ bits w.toNat 16 16 = w.toNat / 65536 := by
  have := w.isLt
  simp only [bits]; omega

theorem append_halves_eq_ofNat (x y : Word) :
    y.extractLsb' 0 16 ++ x.extractLsb' 0 16 = BitVec.ofNat 32 (x.toNat % 65536 + y.toNat % 65536 * 65536) := by
  simp only [append_low_eq_ofNat, BitVec.extractLsb'_toNat, Nat.shiftRight_zero, Nat.add_comm]
  rfl

theorem setDm_ptr (p : Nat) (v : Word) (r : Regs) :
    setDm (pr r p).toNat v r = { r with dmem := tset 0 r.dmem (pr r p).toNat v } := by
  rw [setDm, Nat.mod_eq_of_lt (pr r p).isLt]

theorem memXAddr_eq_placeX (pa : PReg) (gx : GReg) (k : MemKind) (r : Regs) :
    memXAddr r gx.val pa.val k = Claims.placeX pa gx k r := by
  cases k <;> rfl

theorem memXPost_eq_movedX (pa : PReg) (k : MemKind) (r : Regs) : memXPost pa.val k r = Claims.movedX pa k r := by
  cases k with
  | plain => rfl
  | post o => exact bumpP_eq_movePtr pa o r
  | index => rfl

/-! ### Accumulators (R74, R75) -/

theorem accMax_eq : accMax = 140737488355327 := rfl

theorem accMin_eq : accMin = -140737488355328 := rfl

theorem accPut_eq_put48 (k : Nat) (x : Int) (r : Regs) : accPut k x r = Claims.put48 k x r := by
  have hclamp : Claims.clampTo (-(2 ^ 47)) (2 ^ 47 - 1) x = if x < accMin then accMin else if accMax < x then accMax else x := rfl
  have hmin := accMin_eq
  have hmax := accMax_eq
  by_cases hhi : x > accMax
  · rw [if_neg (by omega), if_pos hhi] at hclamp
    simp only [accPut, if_pos hhi, Claims.put48, hclamp, if_neg (show ¬ accMax = x by omega)]
    rfl
  · by_cases hlo : x < accMin
    · rw [if_pos hlo] at hclamp
      simp only [accPut, if_neg hhi, if_pos hlo, Claims.put48, hclamp, if_neg (show ¬ accMin = x by omega)]
      rfl
    · rw [if_neg hlo, if_neg hhi] at hclamp
      simp only [accPut, if_neg hhi, if_neg hlo, Claims.put48, hclamp, if_true]

theorem accLoad_eq_load48 {x : Int} (k : Nat) (r : Regs) (h : accMin ≤ x ∧ x ≤ accMax) : accLoad k x r = Claims.load48 k x r := by
  rw [accLoad, accPut, if_neg (not_lt.mpr h.2), if_neg (not_lt.mpr h.1)]
  rfl

theorem accNarrow_eq {lo hi : Int} (h : lo ≤ hi) (r : Regs) (k n : Nat) : accNarrow r k n lo hi
    = (Claims.clampTo lo hi (Claims.read48 r k n lo hi),
       decide (Claims.clampTo lo hi (Claims.read48 r k n lo hi) ≠ Claims.read48 r k n lo hi)) := by
  simp only [accNarrow, overd, Claims.read48]
  by_cases hov : tget false r.ovd k = true
  · by_cases hneg : acc r k < 0
    · simp only [hov, hneg, if_true, Claims.clampTo, if_pos (show lo - 1 < lo by omega), show lo ≠ lo - 1 by omega, ne_eq,
        not_false_eq_true, decide_true]
    · simp [hov, hneg, Claims.clampTo, show ¬ hi + 1 < lo by omega]
  · simp only [hov, Bool.false_eq_true, if_false, narrow_eq _ _ lo hi h]

/-- A sample's part has 16 bits. -/
theorem cI_bounds (w : Word) : -32768 ≤ cI w ∧ cI w ≤ 32767 := by
  have hlo := BitVec.le_toInt (w.extractLsb' 0 16)
  have hhi := BitVec.toInt_lt (x := w.extractLsb' 0 16)
  simp only [cI]; omega

theorem cQ_bounds (w : Word) : -32768 ≤ cQ w ∧ cQ w ≤ 32767 := by
  have hlo := BitVec.le_toInt (w.extractLsb' 16 16)
  have hhi := BitVec.toInt_lt (x := w.extractLsb' 16 16)
  simp only [cQ]; omega

theorem mul_bounds {x y : Int} (hx : -32768 ≤ x ∧ x ≤ 32767) (hy : -32768 ≤ y ∧ y ≤ 32767) :
    -2 ^ 30 ≤ x * y ∧ x * y ≤ 2 ^ 30 := by
  constructor <;> nlinarith

theorem cmulRe_bounds (x y : Word) : accMin ≤ cmulRe x y ∧ cmulRe x y ≤ accMax := by
  have hi := mul_bounds (cI_bounds x) (cI_bounds y)
  have hq := mul_bounds (cQ_bounds x) (cQ_bounds y)
  rw [accMin_eq, accMax_eq, cmulRe]; omega

theorem cmulIm_bounds (x y : Word) : accMin ≤ cmulIm x y ∧ cmulIm x y ≤ accMax := by
  have hi := mul_bounds (cI_bounds x) (cQ_bounds y)
  have hq := mul_bounds (cQ_bounds x) (cI_bounds y)
  rw [accMin_eq, accMax_eq, cmulIm]; omega

/-! ### Every instruction's effect leaves OVGCTL -/

@[simp] theorem satWhere_ovgctl (c : Bool) (r : Regs) : (Claims.satWhere c r).ovgctl = r.ovgctl := rfl
@[simp] theorem putIq_ovgctl (k : Nat) (i q : Int) (r : Regs) : (Claims.putIq k i q r).ovgctl = r.ovgctl := rfl
@[simp] theorem put32_ovgctl (k : Nat) (x : Int) (r : Regs) : (Claims.put32 k x r).ovgctl = r.ovgctl := rfl
@[simp] theorem put32u_ovgctl (k : Nat) (x : Int) (r : Regs) : (Claims.put32u k x r).ovgctl = r.ovgctl := rfl
@[simp] theorem put48_ovgctl (k : Nat) (x : Int) (r : Regs) : (Claims.put48 k x r).ovgctl = r.ovgctl := rfl
@[simp] theorem load48_ovgctl (k : Nat) (x : Int) (r : Regs) : (Claims.load48 k x r).ovgctl = r.ovgctl := rfl
@[simp] theorem setG_ovgctl (k : Nat) (v : Word) (r : Regs) : (setG k v r).ovgctl = r.ovgctl := rfl

@[simp] theorem movePtr_ovgctl (p : PReg) (o : Option MReg) (r : Regs) : (Claims.movePtr p o r).ovgctl = r.ovgctl := by
  cases o <;> rfl

@[simp] theorem moved_ovgctl (m : Mem) (r : Regs) : (Claims.moved m r).ovgctl = r.ovgctl := by
  rw [Claims.moved]
  split
  · exact movePtr_ovgctl ..
  · rfl

@[simp] theorem movedX_ovgctl (p : PReg) (k : MemKind) (r : Regs) : (Claims.movedX p k r).ovgctl = r.ovgctl := by
  cases k with
  | plain => rfl
  | post o => exact movePtr_ovgctl ..
  | index => rfl

/-! ### What complex and accumulator instructions write -/

/-- The instruction runs as the write of `f` to its burin's registers, OVGCTL not among them. -/
def WritesSignal (i : Instr) (b : BurinId) (f : Regs → Regs) : Prop :=
  ∃ w, wordOf i = some (b, w) ∧ exec i = plain b w f ∧ ∀ r, (f r).ovgctl = r.ovgctl

theorem WritesSignal.of_eq {i : Instr} {b : BurinId} {w : Nat} {f g : Regs → Regs} (hw : wordOf i = some (b, w))
    (hexec : exec i = plain b w g) (heq : ∀ r, g r = f r) (hctl : ∀ r, (f r).ovgctl = r.ovgctl) : WritesSignal i b f :=
  ⟨w, hw, hexec.trans (congrArg _ (funext heq)), hctl⟩

/-- Every complex and accumulator instruction writes its effect of R97. -/
theorem signalEffect_writesSignal {i : Instr} {b : BurinId} {f : Regs → Regs} (h : Claims.signalEffect i = some (b, f)) :
    WritesSignal i b f := by
  cases i with
  | cadd _ d x y | csub _ d x y | cconj _ d x =>
    cases h; exact .of_eq rfl rfl (fun r => setCpx_eq_putIq ..) fun r => putIq_ovgctl ..
  | cmulr _ d x y | cscl _ d x y =>
    cases h; exact .of_eq rfl rfl (fun r => setCpx_eq_putIq ..) fun r => putIq_ovgctl ..
  | csubm _ d x p k =>
    cases h
    refine .of_eq rfl rfl (fun r => ?_) fun r => by simp
    rw [setCpx_eq_putIq, memXAddr_eq_placeX, memXPost_eq_movedX]; rfl
  | cmag2 _ d x => cases h; exact .of_eq rfl rfl (fun _ => rfl) fun _ => setG_ovgctl ..
  | wsq _ d x p k =>
    cases h
    refine .of_eq rfl rfl (fun r => ?_) fun r => by simp
    simp only [halves_eq, memXAddr_eq_placeX, memXPost_eq_movedX, narrowU_eq, satIf_eq_satWhere]; rfl
  | dsq _ x p mp q mq =>
    cases h
    refine .of_eq rfl rfl (fun r => ?_) fun r => by simp
    simp only [optPost_eq_movePtr, setDm_ptr, satIf_eq_satWhere]
    rw [narrowU_of_nonneg (add_nonneg (mul_self_nonneg _) (mul_self_nonneg _))]
  | cpk _ d x y => cases h; exact .of_eq rfl rfl (fun r => congrArg (setG _ · r) (append_halves_eq_ofNat ..)) fun _ => setG_ovgctl ..
  | clra _ k =>
    cases h; exact .of_eq rfl rfl (fun r => accLoad_eq_load48 _ r (by decide)) fun _ => load48_ovgctl ..
  | mova _ k x =>
    cases h
    refine .of_eq rfl rfl (fun r => accLoad_eq_load48 _ r ?_) fun _ => load48_ovgctl ..
    have hlo := BitVec.le_toInt (gr r x.val)
    have hhi := BitVec.toInt_lt (x := gr r x.val)
    rw [accMin_eq, accMax_eq]; omega
  | mac _ k x y | msu _ k x y => cases h; exact .of_eq rfl rfl (fun r => accPut_eq_put48 ..) fun _ => put48_ovgctl ..
  | cmul _ n x y =>
    cases h
    refine .of_eq rfl rfl (fun r => ?_) fun r => by simp
    rw [accLoad_eq_load48 _ _ (cmulIm_bounds ..), accLoad_eq_load48 _ _ (cmulRe_bounds ..)]; rfl
  | cmac _ n x y | cmacj _ n x y =>
    cases h
    refine .of_eq rfl rfl (fun r => ?_) fun r => by simp
    simp only [pairAdd, accPut_eq_put48]; rfl
  | cmacm _ n x m =>
    cases h
    refine .of_eq rfl rfl (fun r => ?_) fun r => by simp
    simp only [pairAdd, accPut_eq_put48, memAddr_eq_place, memPost_eq_moved]; rfl
  | rnd _ d k n =>
    cases h
    refine .of_eq rfl rfl (fun r => ?_) fun _ => put32_ovgctl ..
    simp only [accNarrow_eq (lo := -2147483648) (hi := 2147483647) (by decide), satIf_eq_satWhere]; rfl
  | rndc _ d k n =>
    cases h
    refine .of_eq rfl rfl (fun r => ?_) fun _ => putIq_ovgctl ..
    simp only [accNarrow_eq (lo := -32768) (hi := 32767) (by decide), satIf_eq_satWhere]; rfl
  | sha _ k n =>
    cases h
    refine .of_eq rfl rfl (fun r => ?_) fun r => by simp
    simp only [accNarrow_eq (lo := accMin) (hi := accMax) (by decide), satIf_eq_satWhere]; rfl
  | _ => cases h

/-! ### OVG events (R76) -/

theorem burins_inject (ch i : Nat) (pay : BitVec 64) (s : State) : (inject ch i pay s).burins = s.burins := by
  simp only [inject, apply_ite State.burins]
  exact ite_self _

theorem burins_raiseEp (e : Nat) (s : State) : (raiseEp e s).burins = s.burins := by
  rw [raiseEp]
  split
  · exact burins_inject ..
  · rfl

theorem burin_modRegs (b : Nat) (f : Regs → Regs) (s : State) :
    (modRegs b f s).burin b = { s.burin b with regs := f (s.burin b).regs } := by
  have hburins : (modRegs b f s).burins = (s.modBurin b fun r => { r with regs := f r.regs }).burins := by
    simp only [modRegs, ovgEvents, apply_ite State.burins, times_keeps State.burins (burins_raiseEp _), ite_self]
  rw [State.burin, hburins]
  exact State.burin_modBurin ..

/-- After the write come the OVG events of its change of FLAGS, then the burin goes on. -/
theorem WritesSignal.completes {i : Instr} {b : BurinId} {f : Regs → Regs} (h : WritesSignal i b f) {s : State}
    (hs : Issues i s = true) :
    let r := (s.burin b.val).regs
    CompletesFrom i b pass s (times (raiseEp (s.ep 0 b.val (bits r.ovgctl.toNat 1 3)))
      (if r.ovgctl.getLsbD 0 = true then ovgNew r.flags (f r).flags else 0)
      (s.setBurin b.val { s.burin b.val with regs := f r })) := by
  obtain ⟨w, hw, hexec, hctl⟩ := h
  intro r
  have hrun := issues_running hw hs
  have hmod : modRegs b.val f s = times (raiseEp (s.ep 0 b.val (bits r.ovgctl.toNat 1 3)))
      (if r.ovgctl.getLsbD 0 = true then ovgNew r.flags (f r).flags else 0)
      (s.setBurin b.val { s.burin b.val with regs := f r }) := by
    simp only [modRegs, ovgEvents, State.modBurin, burin_setBurin, hctl]
    split <;> rfl
  refine ⟨_, (congrFun hexec s).trans (issue_body hw hs _), ?_⟩
  rw [← hmod]
  exact fetchOn_turns b pass _ (by rw [burin_modRegs]; exact hrun) (ovgNew_self _)

/-- Settles O51: the effects of R97 by `signalEffect_writesSignal`, then the OVG events and the next instruction. -/
theorem signalInstructionsComplete : Obligations.SignalInstructionsComplete := by
  unfold Obligations.SignalInstructionsComplete
  exact fun i b f s h hs => (signalEffect_writesSignal h).completes hs

end Sys2Proof.Machine
end

section
/-! Branches, jumps, repeats and END (R79, R82–R84, R87, R97, R142, R255). -/

namespace Sys2Proof.Machine

/-! ### Where control goes -/

theorem branch_eq_goTo (off : BitVec 16) (r : Regs) : branch off r = goTo (Claims.target r off) r := rfl

/-- A conditional branch, by a condition that is a proposition. -/
theorem branch_ite_eq_goIf {c : Bool} {p : Prop} [Decidable p] (h : c = true ↔ p) (off : BitVec 16) (r : Regs) :
    (if c then branch off r else pass r) = Claims.goIf p off r := by
  by_cases hp : p
  · rw [if_pos (h.mpr hp), Claims.goIf, if_pos hp, branch_eq_goTo]
  · rw [if_neg (mt h.mp hp), Claims.goIf, if_neg hp]

theorem repeatBody_eq_levelOf (count n : Nat) (r : Regs) : repeatBody count n r = Claims.levelOf count n r := rfl

theorem low_natCast (n : Nat) : low 16 (n : Int) = n % 65536 := by
  simp only [low]; omega

@[simp] theorem goTo_flags (t : Nat) (r : Regs) : (goTo t r).flags = r.flags := rfl

@[simp] theorem goIf_flags (p : Prop) [Decidable p] (off : BitVec 16) (r : Regs) : (Claims.goIf p off r).flags = r.flags := by
  rw [Claims.goIf]
  split <;> rfl

@[simp] theorem levelOf_flags (count n : Nat) (r : Regs) : (Claims.levelOf count n r).flags = r.flags := by
  rw [Claims.levelOf]
  split <;> rfl

/-! ### Instructions that set pc themselves -/

/-- The instruction runs as a jump with effect `f` on its burin's registers, FLAGS not among them. -/
def Jumps (i : Instr) (b : BurinId) (f : Regs → Regs) : Prop :=
  ∃ w, wordOf i = some (b, w) ∧ exec i = jumps b w f ∧ ∀ r, (f r).flags = r.flags

theorem Jumps.of_eq {i : Instr} {b : BurinId} {w : Nat} {f g : Regs → Regs} (hw : wordOf i = some (b, w))
    (hexec : exec i = jumps b w g) (heq : ∀ r, g r = f r) (hflags : ∀ r, (f r).flags = r.flags) : Jumps i b f :=
  ⟨w, hw, hexec.trans (congrArg _ (funext heq)), hflags⟩

/-- A branch on a condition `c` of the registers. -/
theorem Jumps.of_branchIf {i : Instr} {b : BurinId} {w : Nat} {off : BitVec 16} {c : Regs → Bool} {p : Regs → Prop}
    [∀ r, Decidable (p r)] (hw : wordOf i = some (b, w)) (hexec : exec i = branchIf b w off c) (hc : ∀ r, c r = true ↔ p r) :
    Jumps i b fun r => Claims.goIf (p r) off r :=
  .of_eq hw hexec (fun r => branch_ite_eq_goIf (hc r) off r) fun _ => goIf_flags ..

theorem Jumps.completes {i : Instr} {b : BurinId} {f : Regs → Regs} (h : Jumps i b f) {s : State}
    (hs : Issues i s = true) : Completes i b f s := by
  obtain ⟨w, hw, hexec, hflags⟩ := h
  exact jumps_completes hw hs (congrFun hexec s) (by rw [hflags]; exact ovgNew_self _)

/-- Every branch, jump and repeat has its effect of R97. -/
theorem flowEffect_jumps {i : Instr} {b : BurinId} {f : Regs → Regs} (h : Claims.flowEffect i = some (b, f)) : Jumps i b f := by
  cases i with
  | jmp _ off => cases h; exact .of_eq rfl rfl (fun _ => branch_eq_goTo ..) fun _ => goTo_flags ..
  | jt _ x n => cases h; exact .of_eq rfl rfl (fun r => congrArg (goTo · r) (by rw [← low_natCast]; rfl)) fun _ => goTo_flags ..
  | rep _ x n | repi _ k n => cases h; exact .of_eq rfl rfl (fun _ => repeatBody_eq_levelOf ..) fun _ => levelOf_flags ..
  | beq _ x y off | beqz _ x off => cases h; exact .of_branchIf rfl rfl fun _ => beq_iff_eq
  | bne _ x y off | bnez _ x off => cases h; exact .of_branchIf rfl rfl fun _ => bne_iff_ne
  | blt _ x y off => cases h; exact .of_branchIf rfl rfl fun _ => BitVec.slt_iff_toInt_lt
  | bge _ x y off => cases h; exact .of_branchIf rfl rfl fun _ => by simp [BitVec.slt]
  | bltu _ x y off => cases h; exact .of_branchIf rfl rfl fun _ => BitVec.ult_iff_toNat_lt
  | bgeu _ x y off => cases h; exact .of_branchIf rfl rfl fun _ => by simp [BitVec.ult]
  | _ => cases h

/-! ### Repeat levels (R82, R84) -/

/-- Of properly nested levels those whose body holds a place are the outer ones. -/
theorem dropWhile_levels_eq_filter (t : Nat) : ∀ {ls : List Loop}, ls.Pairwise (fun x y => y.first ≤ x.first ∧ x.last ≤ y.last) →
    (ls.dropWhile fun l => !(decide (l.first ≤ t) && decide (t ≤ l.last))) = ls.filter fun l => decide (l.first ≤ t ∧ t ≤ l.last)
  | [], _ => rfl
  | l :: ls, h => by
    obtain ⟨houter, hrest⟩ := List.pairwise_cons.mp h
    by_cases hl : l.first ≤ t ∧ t ≤ l.last
    · have hall : ∀ x ∈ ls, decide (x.first ≤ t ∧ t ≤ x.last) = true := fun x hx => by
        obtain ⟨hfirst, hlast⟩ := houter x hx
        exact decide_eq_true ⟨by omega, by omega⟩
      rw [List.dropWhile_cons_of_neg (by simp [hl]), List.filter_cons_of_pos (by simp [hl]), List.filter_eq_self.mpr hall]
    · rw [List.dropWhile_cons_of_pos (by rw [← Bool.decide_and, decide_eq_false hl]; rfl), List.filter_cons_of_neg (by simpa using hl),
        dropWhile_levels_eq_filter t hrest]

theorem pass_of_nil {r : Regs} (h : r.loops = []) : pass r = { r with pc := r.pc + 1 } := by
  simp only [pass, passAt, h, stepLoops]

section
variable {l : Loop} {ls : List Loop} {r : Regs} (h : r.loops = l :: ls)
include h

theorem pass_of_inside (hl : l.last ≠ r.pc) : pass r = { r with pc := r.pc + 1 } := by
  simp only [pass, passAt, h, stepLoops, if_neg hl]

theorem pass_of_again (hl : l.last = r.pc) (hn : 1 < l.left) :
    pass r = { r with loops := { l with left := l.left - 1 } :: ls, pc := l.first } := by
  simp only [pass, passAt, h, stepLoops, if_pos hl, if_pos hn]

theorem pass_of_last (hl : l.last = r.pc) (hn : l.left ≤ 1) : pass r = pass { r with loops := ls } := by
  simp only [pass, passAt, h, stepLoops, if_pos hl, if_neg (not_lt.mpr hn)]

end

/-- Settles O52: the effects by `flowEffect_jumps`, the levels by their nesting and by the innermost one, END by its
issue. -/
theorem flowInstructions : Obligations.FlowInstructions := by
  unfold Obligations.FlowInstructions
  refine ⟨fun i b f s h hs => (flowEffect_jumps h).completes hs, fun t r h => ?_, fun r h => pass_of_nil h,
    fun l ls r h => ⟨pass_of_inside h, pass_of_again h, pass_of_last h⟩, fun b s hs => ?_⟩
  · rw [goTo, dropWhile_levels_eq_filter t h]
  · exact issue_body (i := .end_ b) rfl hs _

end Sys2Proof.Machine
end

section
/-! Completing mailbox commands leaves the device behind the host interface alone (R401, R402, R405, R412), and CELL_LOAD
(R70, R79, R99, R419). -/

namespace Sys2Proof.Machine

/-! ### Completing commands -/

/-- The state without what the completion of commands may change: reports, the refusal log, the sideband and the mode. -/
def State.withoutReplies (s : State) : State :=
  { s.withoutReports with refLog := {}, side := {}, sys := { s.sys with mode := .boot } }

theorem withoutReplies_of_withoutReports {s t : State} (h : t.withoutReports = s.withoutReports) :
    t.withoutReplies = s.withoutReplies :=
  congrArg (fun u : State => { u with refLog := {}, side := {}, sys := { u.sys with mode := .boot } }) h

/-- What does not depend on replies is the same of states that differ in replies alone. -/
theorem same_of_withoutReplies {β : Type} {s t : State} (h : t.withoutReplies = s.withoutReplies) (f : State → β)
    (hf : ∀ u : State, f u.withoutReplies = f u) : f t = f s := by
  rw [← hf t, h, hf s]

section
variable (s : State)

@[simp] theorem withoutReplies_host (x : HostIf) : ({ s with host := x } : State).withoutReplies = s.withoutReplies := rfl
@[simp] theorem withoutReplies_modSq (q : Nat) (f : SQ → SQ) : (s.modSq q f).withoutReplies = s.withoutReplies := rfl
@[simp] theorem withoutReplies_setCq (c : Nat) (v : CQ) : (s.setCq c v).withoutReplies = s.withoutReplies := rfl
@[simp] theorem withoutReplies_resetQueues (v : Nat) (o : Bool) : (resetQueues v o s).withoutReplies = s.withoutReplies := rfl

@[simp] theorem withoutReplies_raiseVec (v : Nat) : (raiseVec v s).withoutReplies = s.withoutReplies := by
  obtain ⟨x, hx, -⟩ := raiseVec_eq v s
  rw [hx, withoutReplies_host]

@[simp] theorem withoutReplies_setSum {k : Nat} (hk : k < 32) : (setSum k s).withoutReplies = s.withoutReplies :=
  keeps_of_setSum _ (fun _ _ => rfl) hk s

@[simp] theorem withoutReplies_setMode (m : Mode) : (setMode m s).withoutReplies = s.withoutReplies := by
  by_cases hm : s.sys.mode = m
  · rw [setMode, if_pos hm]
  · obtain ⟨x, log, hset⟩ := setMode_of_ne hm
    rw [hset]; rfl

@[simp] theorem withoutReplies_logRefusal (what status target : Nat) (why : Why) :
    (logRefusal what status target why s).withoutReplies = s.withoutReplies := by
  simp only [logRefusal]
  split <;> rfl

theorem withoutReplies_writeCompletion (c : Nat) (e : Completion) :
    (writeCompletion c e s).withoutReplies = s.withoutReplies := by
  simp only [writeCompletion, apply_ite State.withoutReplies, withoutReplies_raiseVec, withoutReplies_setCq, ite_self]

@[simp] theorem withoutReplies_complete (c : Nat) (e : Completion) : (complete c e s).withoutReplies = s.withoutReplies := by
  unfold complete
  split
  · exact withoutReplies_writeCompletion ..
  · rfl

@[simp] theorem withoutReplies_closeSession : (closeSession s).withoutReplies = s.withoutReplies :=
  withoutReplies_of_withoutReports (withoutReports_closeSession s)

@[simp] theorem withoutReplies_finishGuest (q : Nat) (f : InFlight) : (finishGuest q f s).withoutReplies = s.withoutReplies := by
  have htell (dev : Nat) (m : ControlMsg) : (tell dev m s).withoutReplies = s.withoutReplies :=
    keeps_of_tell _ (fun _ _ => rfl) dev m s
  simp only [finishGuest, apply_ite State.withoutReplies, htell]
  split
  · rfl
  · split <;> rfl

theorem withoutReplies_finishHead (q : Nat) : (finishHead q s).withoutReplies = s.withoutReplies := by
  unfold finishHead
  split
  · rfl
  · simp only [apply_ite State.withoutReplies, withoutReplies_finishGuest, withoutReplies_resetQueues,
      withoutReplies_closeSession, withoutReplies_complete, withoutReplies_host, withoutReplies_modSq, ite_self]

theorem withoutReplies_pumpQueue (q n : Nat) : (pumpQueue q n s).withoutReplies = s.withoutReplies := by
  induction n generalizing s with
  | zero => rfl
  | succ n ih =>
    unfold pumpQueue
    split
    · rfl
    · split
      · rw [ih, withoutReplies_finishHead]
      · rfl

/-- A mode that changes by itself, where it does. -/
theorem withoutReplies_endWaits_setMode (w : WaitFor) {c : Prop} [Decidable c] :
    (if c then setMode .ready (endWaits w s) else s).withoutReplies = s.withoutReplies := by
  split
  · exact withoutReplies_setMode ..
  · rfl

theorem withoutReplies_settleModes : (settleModes s).withoutReplies = s.withoutReplies :=
  (withoutReplies_endWaits_setMode _ _).trans (withoutReplies_endWaits_setMode s _)

theorem withoutReplies_pump : (pump s).withoutReplies = s.withoutReplies := by
  have hround (t : State) : (pumpRound t).withoutReplies = t.withoutReplies :=
    each_keeps State.withoutReplies (fun q u => withoutReplies_pumpQueue u q _) _ t
  simp only [pump]
  rw [times_keeps State.withoutReplies hround, withoutReplies_settleModes]

theorem withoutReplies_noteFailure (q status what target : Nat) (why : Why) :
    (noteFailure q status what target why s).withoutReplies = s.withoutReplies := by
  simp only [noteFailure, apply_ite State.withoutReplies, withoutReplies_setSum _ (show 13 < 32 by decide), withoutReplies_modSq,
    withoutReplies_logRefusal, ite_self]

end

/-- A judged command that completes or waits leaves the device as its own meaning left it. -/
theorem withoutReplies_done (m : Mail) (r : Reply) : (m.done r).withoutReplies = r.s.withoutReplies := by
  simp only [Mail.done, conclude, withoutReplies_pump, withoutReplies_noteFailure, withoutReplies_modSq]

theorem burin_done (m : Mail) (r : Reply) (b : Nat) : (m.done r).burin b = r.s.burin b :=
  same_of_withoutReplies (withoutReplies_done m r) (State.burin · b) fun _ => rfl

/-! ### Loading a burin (R70, R79) -/

section
variable (img : List Nat) (streamed : Bool) (base : Nat) (regs : Regs) (b : Nat) (s : State)

/-- A burin as CELL_LOAD leaves it. -/
def Burin.loadedAs (r : Burin) : Burin :=
  { r with
    regs, micro := {}, loaded := true, streamed, imgBase := base, imgLen := img.length
    buf := if streamed then [] else tsetRun 0 [] 0 (img.map (BitVec.ofNat 32))
    lines := [], fetching := none, underrun := false, running := false, waiting := none, hold := none }

theorem burins_loadBurin : (loadBurin img streamed base regs b s).burins
    = (s.modBurin b (Burin.loadedAs img streamed base regs)).burins := by
  have hqueue (r : Nat) (u : State) :
      (if r < 0x3000 then u.modQueue r fun q => { q with lastPlaced := none } else u).burins = u.burins := by
    split <;> rfl
  simp only [loadBurin, burins_flushEnds, each_keeps State.burins hqueue]
  rfl

theorem burin_loadBurin_self :
    (loadBurin img streamed base regs b s).burin b = Burin.loadedAs img streamed base regs (s.burin b) := by
  rw [State.burin, burins_loadBurin]
  exact State.burin_modBurin ..

theorem burin_loadBurin_ne {c : Nat} (h : c ≠ b) : (loadBurin img streamed base regs b s).burin c = s.burin c := by
  rw [State.burin, burins_loadBurin]
  exact State.burin_modBurin_ne _ _ _ _ h

/-- Every burin of a list is loaded. -/
theorem burin_each_loadBurin {bs : List Nat} (h : b ∈ bs) :
    ∃ r, (each (loadBurin img streamed base regs) bs s).burin b = Burin.loadedAs img streamed base regs r := by
  refine each_reaches (P := fun u => ∃ r, u.burin b = Burin.loadedAs img streamed base regs r)
    (fun u => ⟨_, burin_loadBurin_self ..⟩) (fun c u hu => ?_) h s
  by_cases hc : b = c
  · subst hc
    exact ⟨_, burin_loadBurin_self ..⟩
  · obtain ⟨r, hr⟩ := hu
    exact ⟨r, (burin_loadBurin_ne _ _ _ _ _ _ hc).trans hr⟩

end

theorem tget_loaded_buf (img : List Nat) (base : Nat) (regs : Regs) (r : Burin) {k : Nat} (h : k < img.length) :
    tget 0 (Burin.loadedAs img false base regs r).buf k = BitVec.ofNat 32 (img.getD k 0) := by
  have hrun := tget_tsetRun_add (0 : Word) (i := k) (img.map (BitVec.ofNat 32)) [] 0 (by simpa using h)
  rw [Nat.zero_add] at hrun
  simp only [Burin.loadedAs, Bool.false_eq_true, if_false]
  rw [hrun, List.getElem_map, List.getD_eq_getElem _ _ h]

/-! ### Presets and data memory (R70) -/

/-- The presets, one by one from register `n` on. -/
theorem tget_foldl_preset (p : Nat → Bool) (k : Nat) : ∀ (l : List Nat) (n : Nat) (m : Tab Word),
    tget 0 (((List.range' n l.length).zip l).foldl (fun m e => if p e.1 then tset 0 m e.1 (BitVec.ofNat 32 e.2) else m) m) k
      = if n ≤ k ∧ k < n + l.length ∧ p k = true then BitVec.ofNat 32 (l.getD (k - n) 0) else tget 0 m k
  | [], n, m => by rw [if_neg fun ⟨hn, hlt, _⟩ => absurd hlt (Nat.not_lt.mpr hn)]; rfl
  | v :: l, n, m => by
    rw [List.length_cons, List.range'_succ, List.zip_cons_cons, List.foldl_cons, tget_foldl_preset p k l]
    by_cases hk : k = n
    · subst hk
      rw [if_neg fun ⟨hlt, _⟩ => absurd hlt (Nat.not_succ_le_self k), Nat.sub_self, List.getD_cons_zero]
      cases hp : p k
      · simp
      · simp [-BitVec.ofNat_eq_ofNat, tget_tset_self]
    · have hother : tget 0 (if p n then tset 0 m n (BitVec.ofNat 32 v) else m) k = tget 0 m k := by
        split
        · exact tget_tset_ne _ _ _ _ _ hk
        · rfl
      by_cases hle : n + 1 ≤ k
      · rw [hother, show k - n = k - (n + 1) + 1 by omega, List.getD_cons_succ]
        have hiff : (n + 1 ≤ k ∧ k < n + 1 + l.length) ↔ (n ≤ k ∧ k < n + (l.length + 1)) := by omega
        simp only [← and_assoc, hiff]
      · rw [hother, if_neg fun ⟨hlt, _⟩ => hle hlt, if_neg fun ⟨hlt, _⟩ => by omega]

/-- Registers as CELL_LOAD leaves them: the presets that are named, and 0. -/
theorem gr_loadRegs (preset : Nat) (presets : List Word) (data : List Nat) {k : Nat} (hk : k < presets.length) :
    gr (loadRegs preset presets data) k = if preset.testBit k then presets.getD k 0 else 0 := by
  have hpresets := tget_foldl_preset preset.testBit k (presets.map BitVec.toNat) 0 []
  rw [Nat.zero_add, Nat.sub_zero, ← List.range_eq_range', List.length_map] at hpresets
  simp only [gr, loadRegs, indexed, List.length_map, hpresets, hk, Nat.zero_le, true_and]
  refine if_congr Iff.rfl ?_ rfl
  rw [List.getD_eq_getElem _ _ (by simpa using hk), List.getD_eq_getElem _ _ hk, List.getElem_map, BitVec.ofNat_toNat,
    BitVec.setWidth_eq]

/-- Data memory as CELL_LOAD leaves it: the words of its image, and 0 behind them (log entry 142). -/
theorem dm_loadRegs (preset : Nat) (presets : List Word) (data : List Nat) {k : Nat} (hk : k < 4096) :
    dm (loadRegs preset presets data) k = BitVec.ofNat 32 (data.getD k 0) := by
  rw [dm, Nat.mod_eq_of_lt hk, loadRegs]
  rcases lt_or_ge k data.length with hlt | hge
  · have hrun := tget_tsetRun_add (0 : Word) (i := k) (data.map (BitVec.ofNat 32)) [] 0 (by simpa using hlt)
    rw [Nat.zero_add] at hrun
    rw [hrun, List.getElem_map, List.getD_eq_getElem _ _ hlt]
  · rw [tget_tsetRun_ne _ _ _ _ _ (.inr (by simpa using hge)), List.getD_eq_default _ _ hge]
    rfl

/-! ### CELL_LOAD (R419, R436) -/

theorem wordsAt_length (s : State) (a n : Nat) : (s.wordsAt a n).length = n := by
  induction n generalizing a with
  | zero => rfl
  | succ n ih => rw [State.wordsAt, List.length_cons, ih]

theorem wordsAt_takeEntry (q : Nat) (s : State) (a n : Nat) : (takeEntry q s).wordsAt a n = s.wordsAt a n := by
  induction n generalizing a with
  | zero => rfl
  | succ n ih =>
    rw [State.wordsAt, State.wordsAt, ih]
    rfl

/-- A CELL_LOAD in rule: its cell is not in use, what it touches is On and available, and its image passes its checks. -/
structure State.TakesLoad (s : State) (cell flags image length dwords dmem : Nat) : Prop where
  exists_ : s.cellExists cell = true
  flagsFew : flags < 2
  aligned : image % 32 = 0
  inRange : (if flags % 2 = 1 then inProgram image (4 * length) else inProgStag image (4 * length)) = true
  some_ : 1 ≤ length
  few : length ≤ 65536
  short : flags = 0 → length ≤ 512
  dataFew : dwords ≤ 4096
  data : dwords ≠ 0 → inProgStag dmem (4 * dwords) = true
  tiles : ∀ b ∈ s.burinsOf cell, s.tileBad b = false
  unused : s.cellInUse cell = false
  memOn : s.isOn 4 = true
  foliosOn : ∀ b ∈ s.burinsOf cell, s.isOn (folioDom b) = true
  imageGood : s.poisoned image (4 * length) = false
  dataGood : s.poisoned dmem (4 * dwords) = false
  checks : imageOk s.patched (s.wordsAt image length) (decide (flags % 2 = 1)) = true

theorem State.TakesLoad.takeEntry {s : State} {cell flags image length dwords dmem : Nat}
    (h : s.TakesLoad cell flags image length dwords dmem) (q : Nat) :
    (takeEntry q s).TakesLoad cell flags image length dwords dmem where
  exists_ := h.exists_
  flagsFew := h.flagsFew
  aligned := h.aligned
  inRange := h.inRange
  some_ := h.some_
  few := h.few
  short := h.short
  dataFew := h.dataFew
  data := h.data
  tiles := by rw [burinsOf_takeEntry]; exact h.tiles
  unused := (cellInUse_takeEntry q s cell).trans h.unused
  memOn := h.memOn
  foliosOn := by rw [burinsOf_takeEntry]; exact h.foliosOn
  imageGood := h.imageGood
  dataGood := h.dataGood
  checks := by rw [wordsAt_takeEntry]; exact h.checks

/-- The state in which a CELL_LOAD in rule leaves the burins of its cell. -/
def loadedCell (cell flags preset image length dwords dmem : Nat) (presets : List Word) (t : State) : State :=
  each (loadBurin (t.wordsAt image length) (decide (flags % 2 = 1)) image (loadRegs preset presets (t.wordsAt dmem dwords)))
    (t.burinsOf cell) t

section
variable {s : State} {cell flags image length dwords dmem : Nat}

theorem loadReply_of_takes (h : s.TakesLoad cell flags image length dwords dmem) (preset : Nat) (presets : List Word) :
    loadReply cell flags preset image length dwords dmem presets s
      = { s := loadedCell cell flags preset image length dwords dmem presets s } := by
  have htiles : (s.burinsOf cell).any s.tileBad = false :=
    List.any_eq_false.mpr fun b hb => Bool.not_eq_true _ ▸ h.tiles b hb
  have hfind : (s.burinsOf cell).find? (fun b => !s.isOn (folioDom b)) = none :=
    List.find?_eq_none.mpr fun b hb => by simp [h.foliosOn b hb]
  have hflags : ¬2 ≤ flags := not_le.mpr h.flagsFew
  have hlength : ¬((length = 0 ∨ 65536 < length) ∨ flags % 2 = 0 ∧ 512 < length) := by
    have := h.flagsFew; have := h.some_; have := h.few; have := h.short
    omega
  have hdata : ¬(dwords ≠ 0 ∧ inProgStag dmem (4 * dwords) = false) := fun ⟨hne, hout⟩ => by
    rw [h.data hne] at hout
    exact Bool.noConfusion hout
  simp [loadReply, loadedCell, h.exists_, hflags, h.aligned, h.inRange, hlength, not_lt.mpr h.dataFew, hdata, htiles, h.unused,
    h.memOn, hfind, h.imageGood, h.dataGood, h.checks]

/-- A CELL_LOAD in rule on a cell of this device loads its burins. -/
theorem ends_cellLoad {h : Hdr} {preset : Nat} {presets : List Word}
    (hs : served (.cellLoad h cell flags preset image length dwords dmem presets) s = true) (hd : s.cellDevs cell = [])
    (hl : s.isLocal cell = true) (hin : s.TakesLoad cell flags image length dwords dmem) :
    Ends (.cellLoad h cell flags preset image length dwords dmem presets) s fun t =>
      { s := loadedCell cell flags preset image length dwords dmem presets t } := by
  have hends : Ends (.cellLoad h cell flags preset image length dwords dmem presets) s
      (loadReply cell flags preset image length dwords dmem presets) :=
    Ends.of_onCell (ends_of rfl hs rfl) hl fun q => (cellDevs_takeEntry q s cell).trans hd
  exact hends.congr fun _ _ => loadReply_of_takes (hin.takeEntry _) preset presets

/-- Every burin of the cell is loaded, with the image, presets and data memory of the state before the command. -/
theorem burin_loadedCell_takeEntry (q preset : Nat) (presets : List Word) {b : Nat} (hb : b ∈ s.burinsOf cell) :
    ∃ r, (loadedCell cell flags preset image length dwords dmem presets (takeEntry q s)).burin b
      = Burin.loadedAs (s.wordsAt image length) (decide (flags % 2 = 1)) image
          (loadRegs preset presets (s.wordsAt dmem dwords)) r := by
  rw [loadedCell, wordsAt_takeEntry, wordsAt_takeEntry, burinsOf_takeEntry]
  exact burin_each_loadBurin _ _ _ _ _ _ hb

end

/-- Settles O22: the command's reply as `loadReply_of_takes` has it, completed by `burin_done`, and the registers of a
loaded burin. -/
theorem cellLoadLoadsEveryBurin : Obligations.CellLoadLoadsEveryBurin := by
  unfold Obligations.CellLoadLoadsEveryBurin
  refine ⟨?ends, ?burins, fun img streamed base regs b s => ?_, fun preset presets data hp hdata => ?_⟩
  case ends =>
    intro h cell flags preset image length dwords dmem presets s hs hd hl
      hexists hflags halign himage hsome hfew hshort hdwords hdata htiles hunused hmem hfolios himageGood hdataGood hchecks
    exact ends_cellLoad hs hd hl ⟨hexists, hflags, halign, himage, hsome, hfew, hshort, hdwords, hdata,
      htiles, hunused, hmem, hfolios, himageGood, hdataGood, hchecks⟩
  case burins =>
    intro h cell flags preset image length dwords dmem presets s hs hd hl
      hexists hflags halign himage hsome hfew hshort hdwords hdata htiles hunused hmem hfolios himageGood hdataGood hchecks
    obtain ⟨m, -, hexec⟩ := ends_cellLoad hs hd hl ⟨hexists, hflags, halign, himage, hsome, hfew, hshort, hdwords, hdata,
      htiles, hunused, hmem, hfolios, himageGood, hdataGood, hchecks⟩
    refine ⟨_, hexec, fun b hb => ?_⟩
    obtain ⟨r, hr⟩ := burin_loadedCell_takeEntry m.h.sq.val preset presets hb
    rw [burin_done, hr]
    exact ⟨rfl, rfl, rfl, wordsAt_length .., rfl⟩
  · rw [burin_loadBurin_self]
    refine ⟨rfl, rfl, rfl, rfl, rfl, fun k hk hlt => ?_, fun c hc => burin_loadBurin_ne _ _ _ _ _ _ hc⟩
    subst hk
    exact tget_loaded_buf img base regs _ hlt
  · exact ⟨fun k hk => gr_loadRegs _ _ _ (hp ▸ hk), fun k hk => dm_loadRegs _ _ _ hk, rfl, rfl, rfl, rfl⟩

end Sys2Proof.Machine
end

section
/-! From injection to the consumers of a channel (R271–R285). -/

namespace Sys2Proof.Machine

/-! ### Injection and spacing (R283) -/

/-- The time since the last forward of an injection point has passed. -/
def Inject.spaced (j : Inject) (rs now : Nat) : Bool :=
  match j.last with
  | none => true
  | some t => decide (t + rs * word ≤ now)

theorem Inject.spaced_iff {j : Inject} {rs now : Nat} :
    j.spaced rs now = true ↔ ∀ t, j.last = some t → t + rs * 16 ≤ now := by
  unfold Inject.spaced
  cases j.last with
  | none => exact ⟨nofun, fun _ => rfl⟩
  | some t => exact decide_eq_true_iff.trans ⟨fun h _ ht => Option.some.inj ht ▸ h, fun h => h t rfl⟩

/-- Nothing is held at an injection point, and its spacing has passed. -/
def Inject.free (j : Inject) (rs now : Nat) : Bool := j.spaced rs now && !j.heldEv && decide (j.heldPay = [])

theorem Inject.free_iff {j : Inject} {rs now : Nat} :
    j.free rs now = true ↔ (∀ t, j.last = some t → t + rs * 16 ≤ now) ∧ j.heldEv = false ∧ j.heldPay = [] := by
  rw [Inject.free, Bool.and_eq_true, Bool.and_eq_true, Bool.not_eq_true', decide_eq_true_iff, Inject.spaced_iff, and_assoc]

section
variable (ch : Nat) (s : State)

/-- An injection point forwards an event or payload to the gate point, and holds `j` from then on. -/
def forward (i : Nat) (j : Inject) (pay : BitVec 64) : State :=
  s.setChan ch { s.chan ch with
    inj := tset {} (s.chan ch).inj i { j with last := some s.now }, toGate := (s.chan ch).toGate ++ [pay] }

theorem inject_eq (i : Nat) (pay : BitVec 64) :
    inject ch i pay s = if (tget {} (s.chan ch).inj i).free (s.chan ch).rs s.now then
        forward ch s i (tget {} (s.chan ch).inj i) pay
      else (s.setChan ch { s.chan ch with
          inj := tset {} (s.chan ch).inj i (if (s.chan ch).kind = 1 then { tget {} (s.chan ch).inj i with heldEv := true }
            else { tget {} (s.chan ch).inj i with heldPay := (tget {} (s.chan ch).inj i).heldPay ++ [pay] }) }).setChCtr ch
        { s.chCtr ch with spaced := (s.chCtr ch).spaced.bump } := rfl

end

section
variable (ch : Fin 4096) (i : Fin 8) (s : State)

theorem exec_spacingEnd : exec (.spacingEnd ch i) s = .next (
    if !(s.chan ch.val).bound || !(tget {} (s.chan ch.val).inj i.val).spaced (s.chan ch.val).rs s.now then s
    else if (tget {} (s.chan ch.val).inj i.val).heldEv then
      forward ch.val s i.val { tget {} (s.chan ch.val).inj i.val with heldEv := false } 0
    else match (tget {} (s.chan ch.val).inj i.val).heldPay with
      | v :: rest => forward ch.val s i.val { tget {} (s.chan ch.val).inj i.val with heldPay := rest } v
      | [] => s) := by
  show execSpacingEnd ch i s = _
  simp only [execSpacingEnd, Inject.spaced]
  cases (tget {} (s.chan ch.val).inj i.val).last with
  | none => rfl
  | some t => rfl

end

/-! ### Credits (R276, R279, R381) -/

section
variable (ch n : Nat) (s : State)

/-- Returning credits leaves a channel as it is but for the credits. -/
theorem chan_returnCredits : ∃ c f, (returnCredits ch n s).chan ch = { s.chan ch with credits := c, credFlight := f } := by
  have hsend (body : Nat → FrameBody) (e : Nat) (u : State) : (sendHatch e body u).chan ch = u.chan ch :=
    keeps_of_sendHatch (f := fun u => u.chan ch) (fun _ _ => rfl) e body u
  have hframes (u : State) : (creditFrames ch n u).chan ch = u.chan ch := by
    unfold creditFrames
    split
    · exact times_keeps (fun u => u.chan ch) (hsend _ _) n u
    · rfl
  simp only [returnCredits]
  split
  · exact ⟨_, _, (hframes _).trans (State.chan_setChan ..)⟩
  · exact ⟨_, _, State.chan_setChan ..⟩

end

/-! ### Channels that are disabled (R284, R285) -/

section
variable (ch : Nat) (storm : Bool) (s : State)

/-- Disabling a channel sets its flag and the summary bit HATCH, and keeps what is on its way to its consumers. -/
theorem disableChan_spec : (((disableChan ch storm s).chan ch).stormFlag = ((s.chan ch).stormFlag || storm))
    ∧ (((disableChan ch storm s).chan ch).ovfFlag = ((s.chan ch).ovfFlag || !storm))
    ∧ ((disableChan ch storm s).chan ch).inFlight = (s.chan ch).inFlight
    ∧ ((disableChan ch storm s).chan ch).con = (s.chan ch).con
    ∧ (disableChan ch storm s).host.faultsum.getLsbD 6 = true := by
  simp only [disableChan]
  generalize hc : (ite ((s.chan ch).kind = 2) _ _ : Channel) = c
  have hkept : c.stormFlag = ((s.chan ch).stormFlag || storm) ∧ c.ovfFlag = ((s.chan ch).ovfFlag || !storm)
      ∧ c.inFlight = (s.chan ch).inFlight ∧ c.con = (s.chan ch).con := by
    subst hc
    split <;> exact ⟨rfl, rfl, rfl, rfl⟩
  generalize hu : State.modChCtr _ ch _ = u
  have huc : u.chan ch = c := by rw [← hu]; exact State.chan_setChan ..
  generalize (ite ((s.chan ch).kind = 2) _ _ : Nat) = n
  obtain ⟨x, hx, hbit, -⟩ := setSum_eq (show 6 < 32 by decide) (returnCredits ch n u)
  obtain ⟨a, b, hret⟩ := chan_returnCredits ch n u
  have hchan : (setSum 6 (returnCredits ch n u)).chan ch = { c with credits := a, credFlight := b } := by
    rw [hx, ← huc]; exact hret
  rw [hchan, hx]
  exact ⟨hkept.1, hkept.2.1, hkept.2.2.1, hkept.2.2.2, hbit⟩

end

/-! ### The gate point (R271, R280, R282, R284, R285) -/

section
variable (ch : Nat) (s : State)

theorem raiseWatch_eq : ∃ x : HostIf, raiseWatch s = { s with host := x } := by
  unfold raiseWatch
  split
  · obtain ⟨x, hx, -⟩ := raiseVec_eq (bits s.host.irqctl.toNat 8 6) s
    exact ⟨x, hx⟩
  · exact ⟨_, rfl⟩

/-- Latching the watch flag touches the flag and the host interface. -/
theorem chan_watch : ∃ w, (watch ch s).chan ch = { s.chan ch with watched := w } := by
  simp only [watch]
  split
  · obtain ⟨x, hx⟩ := raiseWatch_eq (s.setChan ch { s.chan ch with watched := true })
    exact ⟨true, by rw [hx]; exact State.chan_setChan ..⟩
  · exact ⟨_, rfl⟩

theorem keeps_of_watch {β : Type} (f : State → β) (hhost : ∀ (u : State) x, f { u with host := x } = f u)
    (hchans : ∀ (u : State) c, f { u with chans := c } = f u) : f (watch ch s) = f s := by
  simp only [watch]
  split
  · obtain ⟨x, hx⟩ := raiseWatch_eq (s.setChan ch { s.chan ch with watched := true })
    rw [hx, hhost]
    exact hchans s _
  · rfl

/-- The indices of the consumers of a channel that are slots, jump triggers or other trigger inputs of a device. -/
def Channel.latching (c : Channel) : List Nat := (List.range c.cons.length).filter fun i => epClass (c.cons.getD i 0) != 12

/-- An event that passes the gate point is counted, and goes to every consumer that latches. -/
def eventPassed : State :=
  (s.modChCtr ch fun k => { k with forwarded := k.forwarded.bump }).setChan ch
    { s.chan ch with toLatch := (s.chan ch).toLatch ++ (s.chan ch).latching }

/-- A payload that passes the gate point is counted, and is on its way. -/
def payloadPassed (pay : BitVec 64) : State :=
  (s.modChCtr ch fun k => { k with forwarded := k.forwarded.bump }).setChan ch
    { s.chan ch with inFlight := (s.chan ch).inFlight ++ [pay] }

theorem forwarded_eventPassed : ((eventPassed ch s).chCtr ch).forwarded = (s.chCtr ch).forwarded.bump :=
  congrArg ChCtrs.forwarded (State.chCtr_modChCtr s ch fun k => { k with forwarded := k.forwarded.bump })

theorem forwarded_payloadPassed (pay : BitVec 64) :
    ((payloadPassed ch s pay).chCtr ch).forwarded = (s.chCtr ch).forwarded.bump :=
  congrArg ChCtrs.forwarded (State.chCtr_modChCtr s ch fun k => { k with forwarded := k.forwarded.bump })

theorem passGate_of_event (pay : BitVec 64) (h : (s.chan ch).kind = 1) :
    passGate ch pay s = hatchWake ch (watch ch (eventPassed ch s)) := if_pos h

theorem passGate_of_payload (pay : BitVec 64) (h : (s.chan ch).kind ≠ 1) : passGate ch pay s = payloadPassed ch s pay
    ∨ ∃ e body, passGate ch pay s = watch ch (sendHatch e body (payloadPassed ch s pay)) := by
  have hpass : passGate ch pay s = if (payloadPassed ch s pay).consFar (s.chan ch) then
      match (s.chan ch).cons with
      | e :: _ => watch ch (sendHatch e (fun d => .hatchData { dest := d, channel := ch, w64 := (s.chan ch).wide, payload := pay })
          (payloadPassed ch s pay))
      | [] => payloadPassed ch s pay
    else payloadPassed ch s pay := if_neg h
  rw [hpass]
  split
  · cases (s.chan ch).cons with
    | nil => exact .inl rfl
    | cons e _ => exact .inr ⟨e, _, rfl⟩
  · exact .inl rfl

theorem passGate_event_spec (pay : BitVec 64) (h : (s.chan ch).kind = 1) : ∃ u, passGate ch pay s = hatchWake ch u
    ∧ (u.chCtr ch).forwarded = (s.chCtr ch).forwarded.bump ∧ u.burins = s.burins
    ∧ (u.chan ch).toLatch = (s.chan ch).toLatch ++ (s.chan ch).latching := by
  obtain ⟨w, hw⟩ := chan_watch ch (eventPassed ch s)
  refine ⟨_, passGate_of_event ch s pay h, ?_, keeps_of_watch ch _ State.burins (fun _ _ => rfl) fun _ _ => rfl, ?_⟩
  · rw [keeps_of_watch ch _ (State.chCtr · ch) (fun _ _ => rfl) fun _ _ => rfl, forwarded_eventPassed]
  · rw [hw, eventPassed, State.chan_setChan]

theorem passGate_payload_spec (pay : BitVec 64) (h : (s.chan ch).kind ≠ 1) :
    ((passGate ch pay s).chCtr ch).forwarded = (s.chCtr ch).forwarded.bump ∧ (passGate ch pay s).burins = s.burins
    ∧ ((passGate ch pay s).chan ch).inFlight = (s.chan ch).inFlight ++ [pay] := by
  have hflight : ((payloadPassed ch s pay).chan ch).inFlight = (s.chan ch).inFlight ++ [pay] := by
    rw [payloadPassed, State.chan_setChan]
  obtain hv | ⟨e, body, hv⟩ := passGate_of_payload ch s pay h
  · rw [hv]
    exact ⟨forwarded_payloadPassed ch s pay, rfl, hflight⟩
  · have hsent {β : Type} (f : State → β) (hf : ∀ (u : State) j, f { u with jvl := j } = f u) :
        f (sendHatch e body (payloadPassed ch s pay)) = f (payloadPassed ch s pay) := keeps_of_sendHatch hf e body _
    obtain ⟨w, hw⟩ := chan_watch ch (sendHatch e body (payloadPassed ch s pay))
    rw [hv, hw, keeps_of_watch ch _ (State.chCtr · ch) (fun _ _ => rfl) fun _ _ => rfl,
      keeps_of_watch ch _ State.burins (fun _ _ => rfl) fun _ _ => rfl, hsent (State.chCtr · ch) fun _ _ => rfl,
      hsent State.burins fun _ _ => rfl, hsent (State.chan · ch) fun _ _ => rfl]
    exact ⟨forwarded_payloadPassed ch s pay, rfl, hflight⟩

/-- An event wakes no domain where none is armed for its channel. -/
theorem hatchWake_of_none (h : ∀ d, (s.dom d).wakeCh ≠ some ch) : hatchWake ch s = s := by
  unfold hatchWake
  refine each_invariant (P := (· = s)) (fun d u hu => ?_) _ rfl
  subst hu
  exact if_neg (h d)

end

section
variable (ch : Fin 4096) (s : State)

/-- A channel whose oldest event or payload has reached the gate point, and what the storm detector counts then. -/
def State.atGatePoint (rest : List (BitVec 64)) : State :=
  (s.setChan ch.val { s.chan ch.val with toGate := rest, storm := stormList s.now (s.chan ch.val) }).setChCtr ch.val
    { s.chCtr ch.val with peak := max (s.chCtr ch.val).peak (stormList s.now (s.chan ch.val)).length }

/-- What comes to the gate point is counted as discarded, and the credit of a payload returns. -/
def dropAtGate (kind : Nat) (u : State) : State :=
  if kind = 2 then returnCredits ch.val 1 (u.modChCtr ch.val fun k => { k with discarded := k.discarded.bump })
  else u.modChCtr ch.val fun k => { k with discarded := k.discarded.bump }

theorem exec_gatePointArrival {pay : BitVec 64} {rest : List (BitVec 64)} (h : (s.chan ch.val).toGate = pay :: rest) :
    exec (.gatePointArrival ch) s = .next (
      let c := s.chan ch.val
      let u := s.atGatePoint ch rest
      if c.disabled then dropAtGate ch c.kind (s.setChan ch.val { c with toGate := rest })
      else if c.stmax ≠ 0 && decide (c.stmax < (stormList s.now c).length) then disableChan ch.val true (dropAtGate ch c.kind u)
      else if c.kind = 1 then
        if s.gateOpen c then passGate ch.val pay u else u.modChCtr ch.val fun k => { k with gated := k.gated.bump }
      else if s.gateOpen c && decide (c.atGate = []) then passGate ch.val pay u
      else u.modChan ch.val fun k => { k with atGate := k.atGate ++ [pay] }) := by
  have hpeak : State.modChCtr (s.setChan ch.val { s.chan ch.val with toGate := rest, storm := stormList s.now (s.chan ch.val) })
      ch.val (fun k => { k with peak := Nat.max k.peak (stormList s.now (s.chan ch.val)).length }) = s.atGatePoint ch rest := rfl
  show execGatePointArrival ch s = _
  simp only [execGatePointArrival, h, hpeak, dropAtGate]
  rfl

/-- At the gate point of a channel that is not disabled, and where no storm is detected, the gate decides. -/
theorem exec_gatePointArrival_of_below {pay : BitVec 64} {rest : List (BitVec 64)} (h : (s.chan ch.val).toGate = pay :: rest)
    (hd : (s.chan ch.val).disabled = false)
    (hcount : (s.chan ch.val).stmax = 0 ∨ (stormList s.now (s.chan ch.val)).length ≤ (s.chan ch.val).stmax) :
    exec (.gatePointArrival ch) s = .next (
      let c := s.chan ch.val
      let u := s.atGatePoint ch rest
      if c.kind = 1 then
        if s.gateOpen c then passGate ch.val pay u else u.modChCtr ch.val fun k => { k with gated := k.gated.bump }
      else if s.gateOpen c && decide (c.atGate = []) then passGate ch.val pay u
      else u.modChan ch.val fun k => { k with atGate := k.atGate ++ [pay] }) := by
  have hcalm : ¬((s.chan ch.val).stmax ≠ 0 && decide ((s.chan ch.val).stmax < (stormList s.now (s.chan ch.val)).length)) = true := by
    simpa [or_iff_not_imp_left] using hcount
  rw [exec_gatePointArrival ch s h]
  exact congrArg _ ((if_neg (by simp [hd])).trans (if_neg hcalm))

theorem modChCtr_atGatePoint (rest : List (BitVec 64)) (f : ChCtrs → ChCtrs) : (s.atGatePoint ch rest).modChCtr ch.val f
    = (s.atGatePoint ch rest).setChCtr ch.val (f { s.chCtr ch.val with
      peak := max (s.chCtr ch.val).peak (stormList s.now (s.chan ch.val)).length }) := by
  rw [State.modChCtr, State.atGatePoint, State.chCtr_setChCtr]

theorem modChan_atGatePoint (rest : List (BitVec 64)) (f : Channel → Channel) : (s.atGatePoint ch rest).modChan ch.val f
    = (s.atGatePoint ch rest).setChan ch.val
      (f { s.chan ch.val with toGate := rest, storm := stormList s.now (s.chan ch.val) }) := by
  rw [State.modChan]
  exact congrArg (fun c => (s.atGatePoint ch rest).setChan ch.val (f c)) (State.chan_setChan s ch.val _)

/-- More than STMAX events in STWIN disable the channel. -/
theorem gatePointArrival_of_storm {pay : BitVec 64} {rest : List (BitVec 64)} (h : (s.chan ch.val).toGate = pay :: rest)
    (hd : (s.chan ch.val).disabled = false) (hmax : (s.chan ch.val).stmax ≠ 0)
    (hstorm : (s.chan ch.val).stmax < (stormList s.now (s.chan ch.val)).length) :
    ∃ t, exec (.gatePointArrival ch) s = .next t ∧ (t.chan ch.val).stormFlag = true
      ∧ t.host.faultsum.getLsbD 6 = true := by
  obtain ⟨hflag, -, -, -, hsum⟩ :=
    disableChan_spec ch.val true (dropAtGate ch (s.chan ch.val).kind (s.atGatePoint ch rest))
  refine ⟨_, ?_, hflag.trans (Bool.or_true _), hsum⟩
  rw [exec_gatePointArrival ch s h]
  simp [hd, hmax, hstorm]

end

/-! ### Consumers (R271–R278) -/

section
variable (ch : Fin 4096) (s : State)

theorem Consumer.joins_iff {k : Consumer} {now : Nat} {merged : Bool} :
    k.joins now merged = true ↔ ∃ t, k.lastWave = some t ∧ (now < t + 8 ∨ now < t + 24 ∧ merged = true) := by
  unfold Consumer.joins
  cases k.lastWave with
  | none => simp
  | some t => simp

/-- A channel on which an event has reached consumer `i`, which holds `k` from then on. -/
def State.latchedAt (i : Nat) (k : Consumer) : State :=
  s.setChan ch.val { s.chan ch.val with
    toLatch := (s.chan ch.val).toLatch.erase i, con := tset {} (s.chan ch.val).con i { k with lastWave := some s.now } }

theorem exec_triggerLatch (i : Fin 256) (merged : Bool) : exec (.triggerLatch ch i merged) s = .next (
    let f := tget {} (s.chan ch.val).con i.val
    if !(s.chan ch.val).toLatch.contains i.val then s
    else if f.joins s.now merged then
      (s.latchedAt ch i.val f).setChCtr ch.val { s.chCtr ch.val with coalesced := (s.chCtr ch.val).coalesced.bump }
    else if f.flag then
      (s.latchedAt ch i.val f).setChCtr ch.val { s.chCtr ch.val with overlaid := (s.chCtr ch.val).overlaid.bump }
    else s.latchedAt ch i.val { f with flag := true, latched := s.now }) := by
  show execTriggerLatch ch i merged s = _
  simp only [execTriggerLatch]
  cases (tget {} (s.chan ch.val).con i.val).joins s.now merged with
  | true => rfl
  | false =>
    cases hflag : (tget {} (s.chan ch.val).con i.val).flag with
    | true => simp [hflag, State.latchedAt]; rfl
    | false => simp [State.latchedAt]

theorem exec_payloadArrival {pay : BitVec 64} {rest : List (BitVec 64)} (h : (s.chan ch.val).inFlight = pay :: rest) :
    exec (.payloadArrival ch) s = .next (if s.consFar (s.chan ch.val) then s
      else arrive ch.val pay (s.linkPort (s.chan ch.val)) (s.setChan ch.val { s.chan ch.val with inFlight := rest })) := by
  show execPayloadArrival ch s = _
  simp only [execPayloadArrival, h]

theorem arrive_of_room (pay : BitVec 64) (port : Option Nat) (ch : Nat) (h : (tget {} (s.chan ch).con 0).arrivals.length < 4) :
    arrive ch pay port s = watch ch (s.setChan ch { s.chan ch with con := tset {} (s.chan ch).con 0 { tget {} (s.chan ch).con 0 with
      arrivals := (tget {} (s.chan ch).con 0).arrivals ++ [pay], times := (tget {} (s.chan ch).con 0).times ++ [s.now] } }) :=
  if_pos h

/-- A fifth payload disables the channel. -/
theorem arrive_of_full (pay : BitVec 64) (port : Option Nat) (ch : Nat)
    (h : 4 ≤ (tget {} (s.chan ch).con 0).arrivals.length) : ((arrive ch pay port s).chan ch).ovfFlag = true
    ∧ ((arrive ch pay port s).chan ch).inFlight = (s.chan ch).inFlight
    ∧ ((arrive ch pay port s).chan ch).con = (s.chan ch).con ∧ (arrive ch pay port s).host.faultsum.getLsbD 6 = true := by
  obtain ⟨-, hovf, hflight, hcon, hsum⟩ :=
    disableChan_spec ch false (s.modChCtr ch fun n => { n with discarded := n.discarded.bump })
  have hall := And.intro (hovf.trans (Bool.or_true _)) (And.intro hflight (And.intro hcon hsum))
  simp only [arrive]
  rw [if_neg (not_lt.mpr h)]
  cases port <;> exact hall

/-- The event record of the oldest arrival of a SOFT consumer. -/
def State.softRecord (c : Channel) (n : Nat) (v : BitVec 64) : List Byte :=
  le 2 0x0041 ++ le 2 n ++ le 2 c.seq ++ le 1 (bit c.wide 0) ++ le 1 0 ++ le 8 v.toNat
    ++ (stampBytes ((s.taiOf (((tget {} c.con 0).times.getD 0 s.now : Nat) : Int) * 65536).toNat)).take 14 ++ pad 2

theorem softRecord_spec (c : Channel) (n : Nat) (v : BitVec 64) : (s.softRecord c n v).length = 32
    ∧ (s.softRecord c n v).take 4 = le 2 0x0041 ++ le 2 n ∧ ((s.softRecord c n v).drop 8).take 8 = le 8 v.toNat := by
  simp [State.softRecord, stampBytes, le, pad]

theorem chan_ringPut {k : Nat} {bytes : List Byte} {tag : Option (Nat × Nat)} {s t : State}
    (h : ringPut k bytes tag s = some t) (ch : Nat) : t.chan ch = s.chan ch :=
  same_of_withoutReports (withoutReports_ringPut h) (State.chan · ch) fun _ => rfl

theorem exec_softConsumerTake {v : BitVec 64} {rest : List (BitVec 64)}
    (h : (tget {} (s.chan ch.val).con 0).arrivals = v :: rest) : exec (.softConsumerTake ch) s = .next (
      let c := s.chan ch.val
      if c.kind ≠ 2 || !c.soft then s
      else match ringPut c.ring (s.softRecord c ch.val v) none s with
        | some t => takeArrival (c.cons.getD 0 0) (t.modChan ch.val fun c => { c with seq := (c.seq + 1) % 65536 })
        | none => s) := by
  show execSoftConsumerTake ch s = _
  simp only [execSoftConsumerTake, h]
  rfl

end

end Sys2Proof.Machine
end

section
/-! What the samples of an acquisition port leave of its converter, and the read-out chains (R92, R209–R247). -/

namespace Sys2Proof.Machine

/-! ### What samples leave of the converters -/

/-- The converter of a port, and the tick: what no sample beyond the converter changes. -/
def State.converter (n : Nat) (s : State) : Nat × Ctr × Nat := ((s.acqPort n).conv, (s.acqPort n).overranges, s.now)

section
variable (n : Nat)

theorem converter_modAcqPort {f : AcqPort → AcqPort} (hf : ∀ a, (f a).conv = a.conv ∧ (f a).overranges = a.overranges)
    (k : Nat) (s : State) : (s.modAcqPort k f).converter n = s.converter n := by
  by_cases hk : n = k
  · subst hk
    simp only [State.converter, State.acqPort_modAcqPort, (hf _).1, (hf _).2]
    rfl
  · simp only [State.converter, State.acqPort_modAcqPort_ne _ _ _ _ hk]
    rfl

theorem converter_addToneSats (k m : Nat) (s : State) :
    (s.modAcqPort k fun a => { a with toneSats := a.toneSats.add m }).converter n = s.converter n :=
  converter_modAcqPort n (by exact fun _ => ⟨rfl, rfl⟩) k s

theorem converter_modRot (k : Nat) (f : RoTone → RoTone) (s : State) : (s.modRot k f).converter n = s.converter n := rfl
theorem converter_setStipChain (k : Nat) (v : Chain) (s : State) : (s.setStipChain k v).converter n = s.converter n := rfl
theorem converter_modStream (k : Nat) (f : Stream → Stream) (s : State) : (s.modStream k f).converter n = s.converter n := rfl
theorem converter_setEngine (k : Nat) (v : Engine) (s : State) : (s.setEngine k v).converter n = s.converter n := rfl
theorem converter_modEngine (k : Nat) (f : Engine → Engine) (s : State) : (s.modEngine k f).converter n = s.converter n := rfl
theorem converter_putBytes (a : Nat) (bs : List Byte) (s : State) : (putBytes a bs s).converter n = s.converter n := rfl

theorem converter_ite {c : Prop} [Decidable c] {t u s : State} (ht : t.converter n = s.converter n)
    (hu : u.converter n = s.converter n) : (if c then t else u).converter n = s.converter n := by
  split
  · exact ht
  · exact hu

theorem converter_of_withoutReports {s t : State} (h : t.withoutReports = s.withoutReports) : t.converter n = s.converter n :=
  same_of_withoutReports h (State.converter n) fun _ => rfl

/-! #### The engine -/

theorem converter_raiseEp (e : Nat) (s : State) : (raiseEp e s).converter n = s.converter n := by
  unfold raiseEp
  split
  · rw [inject_eq, apply_ite (State.converter n)]
    exact ite_self _
  · rfl

theorem converter_raiseCapture (e : Nat) (s : State) : (raiseCapture e s).converter n = s.converter n := by
  unfold raiseCapture
  split
  · split
    · rw [converter_raiseEp, converter_modEngine]
    · rfl
  · rfl

theorem converter_trigger (e : Nat) (instant : Int) (forced : Bool) (idx : Nat) (label : Int) (s : State) :
    (trigger e instant forced idx label s).converter n = s.converter n := by
  simp only [trigger]
  split
  · rfl
  · exact converter_ite n rfl (converter_raiseCapture ..)
  · split
    · exact converter_ite n (converter_raiseCapture ..) rfl
    · rfl
  · rfl
  · rfl

theorem converter_takeEdges (e idx : Nat) (label : Int) : ∀ (m : Nat) (s : State),
    (takeEdges e idx label m s).converter n = s.converter n
  | 0, _ => rfl
  | m + 1, s => by
    unfold takeEdges
    simp only []
    split
    · rfl
    · split
      · rfl
      · rw [converter_takeEdges e idx label m]
        split
        · rw [converter_trigger, converter_setEngine]
        · rw [each_keeps (State.converter n) fun x u => converter_trigger n e x false idx label u, converter_modEngine,
            converter_setEngine]

theorem converter_flushOwed (e : Nat) : ∀ (m : Nat) (s : State), (flushOwed e m s).converter n = s.converter n
  | 0, _ => rfl
  | m + 1, s => by
    unfold flushOwed
    split
    · rfl
    · split
      · next hput =>
        rw [converter_flushOwed e m, converter_modEngine, converter_of_withoutReports n (withoutReports_ringPut hput)]
      · rfl

theorem converter_engineDue (e : Nat) (tick : Int) (s : State) : (engineDue e tick s).converter n = s.converter n := by
  unfold engineDue
  simp only []
  split
  · split
    · rfl
    · split
      · rfl
      · split
        · simp only [writeSegment, apply_ite (State.converter n)]
          exact ite_self _
        · split <;> rfl
  · split
    · rfl
    · split
      · rfl
      · rw [capRecord]
        simp only [converter_modEngine, flushEngine, converter_flushOwed, converter_setEngine]
  · have hflush : (flushEngine e s).converter n = s.converter n := converter_flushOwed ..
    exact converter_ite n hflush (converter_ite n hflush hflush)
  · rfl

theorem converter_engineSample (e : Nat) (label v : Int) (bytes : List Byte) (over_ : Bool) (s : State) :
    (engineSample e label v bytes over_ s).converter n = s.converter n := by
  have hto : (engineTo e label s).converter n = s.converter n :=
    times_keeps (State.converter n) (converter_engineDue n e label) 5 s
  simp only [engineSample]
  refine converter_ite n hto ?_
  refine (each_keeps (State.converter n) (fun x u => converter_trigger n e x false _ label u) _ _).trans ?_
  rw [converter_setEngine, converter_takeEdges]
  refine converter_ite n ?_ hto
  rw [converter_modEngine, converter_putBytes, hto]

/-! #### The chains -/

theorem converter_deliver (i : Nat) (w : Window) (s : State) : (deliver i w s).converter n = s.converter n := by
  unfold deliver
  split
  · rfl
  · simp only []
    split <;> rfl

theorem converter_deliverReady (i : Nat) : ∀ (m : Nat) (s : State), (deliverReady i m s).converter n = s.converter n
  | 0, _ => rfl
  | m + 1, s => by
    unfold deliverReady
    split
    · rfl
    · split
      · rw [converter_deliverReady i m, converter_deliver, converter_modRot]
      · rfl

theorem converter_windowsTake (i : Nat) (o : FirOut) (s : State) : (windowsTake i o s).converter n = s.converter n := by
  rw [windowsTake, converter_deliverReady, converter_modRot]

theorem converter_streamTake (src : Nat) (o : StreamOut) (align overrun : Bool) (s : State) :
    (streamTake src o align overrun s).converter n = s.converter n := by
  have hclose (u : State) : (closeBlock src u).converter n = u.converter n :=
    converter_of_withoutReports n (withoutReports_closeBlock src u)
  simp only [streamTake, apply_ite (State.converter n), hclose, converter_modStream, ite_self]

theorem converter_chainToStream (src port : Nat) (r : RoTone) (g : Grid) (c : Chain) (o : FirOut) (s : State) :
    (chainToStream src port r g c o s).1.converter n = s.converter n := by
  simp only [chainToStream]
  generalize hu : (ite ((o.swap && (s.stream src).open_) = true) _ s : State) = u
  have hswap : u.converter n = s.converter n := by
    rw [← hu]
    exact converter_ite n (converter_modStream ..) rfl
  rw [← hswap]
  split
  · rfl
  · simp only [apply_ite Prod.fst]
    exact converter_ite n ((converter_streamTake ..).trans (converter_addToneSats ..)) (converter_addToneSats ..)

theorem converter_toneInput (i k : Nat) (x : Int × Int × Bool) (s : State) :
    (toneInput i k x s).1.converter n = s.converter n := by
  simp only [toneInput]
  split
  · rfl
  · split
    · rw [converter_modRot, converter_addToneSats]
    · split
      · rw [converter_modRot, converter_chainToStream, converter_addToneSats]
      · rw [converter_windowsTake, converter_modRot, converter_addToneSats]

theorem converter_stipInput (nn t k : Nat) (x : Int × Int × Bool) (s : State) :
    (stipInput nn t k x s).converter n = s.converter n := by
  simp only [stipInput]
  split
  · rfl
  · split
    · rw [converter_setStipChain, converter_addToneSats]
    · rw [converter_setStipChain, converter_chainToStream, converter_addToneSats]

theorem converter_toneInputs (nn k : Nat) (x : Int × Int × Bool) (s : State) :
    (toneInputs nn k x s).1.converter n = s.converter n := by
  unfold toneInputs
  refine List.foldlRecOn (motive := fun a : State × List (Nat × FirOut) => a.1.converter n = s.converter n) _ _ rfl fun a ha t _ => ?_
  have hin := (converter_toneInput n (nn * 16 + t) k x a.1).trans ha
  split
  · split
    · next heq => rwa [heq] at hin
    · next heq => rwa [heq] at hin
  · exact ha

theorem converter_magSample (nn k : Nat) (outs : List (Nat × FirOut)) (s : State) :
    (magSample nn k outs s).converter n = s.converter n := by
  simp only [magSample]
  split
  · rfl
  · exact converter_engineSample ..

theorem converter_a2Sample (nn : Nat) (label : Int) (x : Int × Int × Bool) (sats : Nat) (s : State) :
    (a2Sample nn label x sats s).converter n = s.converter n := by
  simp only [a2Sample]
  generalize hu : (ite ((s.engine nn).lat.src = 1) _ s : State) = u
  have hcoarse : u.converter n = s.converter n := by
    rw [← hu]
    exact converter_ite n (converter_engineSample ..) rfl
  have hbank (y : Int × Int × Bool) :
      (u.modAcqPort nn fun a => { a with a2 := push bankTaps (0, 0, false) y a.a2 }).converter n = u.converter n :=
    converter_modAcqPort n (by exact fun _ => ⟨rfl, rfl⟩) _ u
  rw [← hcoarse]
  refine converter_ite n rfl (converter_ite n ?tone (converter_ite n (hbank x) ?stipple))
  case tone => rw [converter_magSample, converter_toneInputs]
  case stipple =>
    refine (each_keeps (State.converter n) (fun t v => ?_) _ _).trans (hbank x)
    exact converter_ite n (converter_stipInput ..) rfl

/-! ### The converter (R209, R210) -/

/-- A clamped code lies at an end of the range; code 0 does not (R499). -/
theorem clampedCode_atEnd (code : Int) (c : Prop) [Decidable c] :
    (decide ((if c then 0 else max (-2048) (min 2047 code)) = -2048) || decide ((if c then 0 else max (-2048) (min 2047 code)) = 2047))
      = true ↔ ¬c ∧ (code ≤ -2048 ∨ 2047 ≤ code) := by
  by_cases hc : c
  · simp [hc]
  · simp only [hc, if_false, Bool.or_eq_true, decide_eq_true_iff, not_false_iff, true_and]
    omega

end

/-- The converter takes one code: its tick goes on by one, and a code at an end of the range counts. -/
theorem converter_convert (nn : Nat) (code : Int) (s : State) : (convert nn code s).converter nn
    = ((s.acqPort nn).conv + 1, if (s.calI nn).st ≠ 3 ∧ (code ≤ -2048 ∨ 2047 ≤ code) then (s.acqPort nn).overranges.bump
        else (s.acqPort nn).overranges, s.now) := by
  simp only [convert]
  generalize hv : (State.setAcqPort s nn _ : State) = v
  have hconv : v.converter nn = ((s.acqPort nn).conv + 1, if (s.calI nn).st ≠ 3 ∧ (code ≤ -2048 ∨ 2047 ≤ code) then
      (s.acqPort nn).overranges.bump else (s.acqPort nn).overranges, s.now) := by
    rw [← hv, State.converter, State.acqPort_setAcqPort]
    exact congrArg (fun o => ((s.acqPort nn).conv + 1, o, s.now)) (if_congr (clampedCode_atEnd code _) rfl rfl)
  generalize hu : (ite ((v.engine nn).lat.src = 0) _ v : State) = u
  have hengine : u.converter nn = v.converter nn := by
    rw [← hu]
    exact converter_ite nn (converter_engineSample ..) rfl
  have hcoarse (k : Nat) :
      (u.modAcqPort nn fun a => { a with coarseSats := a.coarseSats.add k }).converter nn = u.converter nn :=
    converter_modAcqPort nn (by exact fun _ => ⟨rfl, rfl⟩) _ u
  rw [← hconv, ← hengine]
  exact converter_ite nn rfl ((converter_a2Sample ..).trans (hcoarse _))

/-! ### Chains (R216–R228) -/

/-- A chain waits for a sample that it has lost, and takes any other one as its next. -/
theorem due_of_lt {c : Chain} {k : Nat} (h : k < c.n) : c.due k = none := by
  rw [Chain.due, if_neg (by omega), if_neg (by omega)]

theorem due_of_le {c : Chain} {k : Nat} (h : c.n ≤ k) : ∃ d, c.due k = some d ∧ d.n = k := by
  rcases h.lt_or_eq with hlt | heq
  · exact ⟨_, if_pos hlt, rfl⟩
  · exact ⟨c, by rw [Chain.due, if_neg (by omega), if_pos heq], heq⟩

theorem n_chainIn (r : RoTone) (g : Grid) (fills : List (Nat × Nat)) (p : Int × Int) (i q : Int) (mark : Bool) (c : Chain) :
    (chainIn r g fills p i q mark c).1.n = c.n + 1 := by
  simp only [chainIn]
  split <;> rfl

theorem n_chainToStream (src port : Nat) (r : RoTone) (g : Grid) (c : Chain) (o : FirOut) (s : State) :
    (chainToStream src port r g c o s).2.n = c.n := by
  simp only [chainToStream]
  split
  · rfl
  · rw [apply_ite Prod.snd, apply_ite Chain.n]
    exact ite_self _

/-- Delivering windows leaves the chain as it is. -/
theorem chain_deliver (i j : Nat) (w : Window) (s : State) : ((deliver i w s).rot j).chain = (s.rot j).chain := by
  unfold deliver
  split
  · rfl
  · simp only []
    split <;> rfl

theorem chain_deliverReady (i : Nat) : ∀ (m : Nat) (s : State), ((deliverReady i m s).rot i).chain = (s.rot i).chain
  | 0, _ => rfl
  | m + 1, s => by
    unfold deliverReady
    split
    · rfl
    · split
      · rw [chain_deliverReady i m, chain_deliver, State.rot_modRot]
      · rfl

theorem chain_windowsTake (i : Nat) (o : FirOut) (s : State) : ((windowsTake i o s).rot i).chain = (s.rot i).chain := by
  rw [windowsTake, chain_deliverReady, State.rot_modRot]

/-- A chain takes each sample once, in order. -/
theorem n_toneInput (i k : Nat) (x : Int × Int × Bool) (s : State) (h : (s.rot i).chain.n ≤ k) :
    ((toneInput i k x s).1.rot i).chain.n = k + 1 := by
  obtain ⟨c, hdue, hn⟩ := due_of_le h
  simp only [toneInput, hdue]
  split
  · simp only [State.rot_modRot, n_chainIn, hn]
  · split
    · simp only [State.rot_modRot, n_chainToStream, n_chainIn, hn]
    · simp only [chain_windowsTake, State.rot_modRot, n_chainIn, hn]

theorem n_stipInput (nn t k : Nat) (x : Int × Int × Bool) (s : State) (h : (s.stipChain (nn * 128 + t)).n ≤ k) :
    ((stipInput nn t k x s).stipChain (nn * 128 + t)).n = k + 1 := by
  obtain ⟨c, hdue, hn⟩ := due_of_le h
  simp only [stipInput, hdue]
  split
  · simp only [State.stipChain_setStipChain, n_chainIn, hn]
  · simp only [State.stipChain_setStipChain, n_chainToStream, n_chainIn, hn]

theorem n_lose (lost : Nat) (c : Chain) : (c.lose lost).n = c.n + lost := rfl

theorem chain_windowsLose (i n lost : Nat) (s : State) : ((windowsLose i n lost s).rot i).chain = (s.rot i).chain := by
  rw [windowsLose, State.rot_modRot]

section
variable (lost : Nat) (s : State)

theorem chainOverrun_tone_of_runs (i : Fin 256) (h : s.toneRuns i.val = true) :
    ∃ v, exec (.chainOverrun (.tone i) lost) s = .next v ∧ (v.rot i.val).chain.n = (s.rot i.val).chain.n + lost
      ∧ (v.rot i.val).chain.overrun = true
      ∧ (v.acqPort (i.val / 16)).chainOverruns = (s.acqPort (i.val / 16)).chainOverruns.add lost := by
  let count := s.modAcqPort (i.val / 16) fun a => { a with chainOverruns := a.chainOverruns.add lost }
  have hexec : exec (.chainOverrun (.tone i) lost) s
      = .next ((windowsLose i.val (s.rot i.val).chain.n lost count).modRot i.val fun r => { r with chain := r.chain.lose lost }) := by
    show execChainOverrun (.tone i) lost s = _
    simp only [execChainOverrun, h]
    rfl
  refine ⟨_, hexec, ?_, ?_, ?_⟩
  · rw [State.rot_modRot, n_lose, chain_windowsLose]
    rfl
  · rw [State.rot_modRot]
    rfl
  · exact congrArg AcqPort.chainOverruns
      (State.acqPort_modAcqPort s (i.val / 16) fun a => { a with chainOverruns := a.chainOverruns.add lost })

theorem chainOverrun_stip_of_runs (nn : Fin 16) (t : Fin 128) (h : s.stipRuns nn.val t.val = true) :
    ∃ v, exec (.chainOverrun (.stip nn t) lost) s = .next v
      ∧ (v.stipChain (nn.val * 128 + t.val)).n = (s.stipChain (nn.val * 128 + t.val)).n + lost
      ∧ (v.acqPort nn.val).chainOverruns = (s.acqPort nn.val).chainOverruns.add lost := by
  let count := s.modAcqPort nn.val fun a => { a with chainOverruns := a.chainOverruns.add lost }
  have hexec : exec (.chainOverrun (.stip nn t) lost) s
      = .next (count.modStipChain (nn.val * 128 + t.val) (Chain.lose lost)) := by
    show execChainOverrun (.stip nn t) lost s = _
    simp only [execChainOverrun, h]
    rfl
  refine ⟨_, hexec, ?_, ?_⟩
  · rw [State.stipChain_modStipChain, n_lose]
    rfl
  · exact congrArg AcqPort.chainOverruns
      (State.acqPort_modAcqPort s nn.val fun a => { a with chainOverruns := a.chainOverruns.add lost })

end

/-! ### Points (R92, R247) -/

section
variable {i b : Nat} {w : Window} {s : State}

/-- A complete window leaves its tone before its point is delivered. -/
theorem deliverReady_one (hw : (s.rot i).wins = [w]) (hready : w.done = true ∨ w.skipped = true) :
    deliverReady i 1 s = deliver i w (s.setRot i { s.rot i with wins := [] }) := by
  unfold deliverReady
  rw [hw]
  exact if_pos (by rcases hready with h | h <;> simp [h])

theorem deliver_of_open (ho : s.owner (0x1000 + i) = some b) (hrun : (s.burin b).running = true)
    (hshot : (s.burin b).shot = w.shot) (hroom : (s.burin b).iq.length < 32) :
    deliver i w s = s.setBurin b { s.burin b with iq := (s.burin b).iq ++ [
      { pt := ((s.rot i).point w).1, tick := w.endTick, slot := (s.slotOf b (0x1000 + i)).getD 0,
        window := w.idx, flags := ((s.rot i).point w).2, shot := w.shot }] } := by
  simp [deliver, ho, hrun, hshot, hroom]

theorem deliver_of_lost (ho : s.owner (0x1000 + i) = some b)
    (hlost : (s.burin b).running = false ∨ (s.burin b).shot ≠ w.shot ∨ 32 ≤ (s.burin b).iq.length) :
    deliver i w s = s.setBurin b { s.burin b with iqOverruns := (s.burin b).iqOverruns.bump, iqLost := true } := by
  have hcond : (!(s.burin b).running || decide ((s.burin b).shot ≠ w.shot) || decide (32 ≤ (s.burin b).iq.length)) = true := by
    simpa [or_assoc] using hlost
  simp only [deliver, ho]
  exact if_pos hcond

end

end Sys2Proof.Machine
end

section
/-! Alignment events and centroid steps (R155, R236, R251), and read-out and Hatch events together. -/

namespace Sys2Proof.Machine

/-! ### Alignment events (R155, R236) -/

/-- A chain with nothing in it. -/
def Chain.Restarted (c : Chain) : Prop := c.n = 0 ∧ c.hist = [] ∧ c.dly = []

section
variable (e tai : Nat)

/-- A chain as an alignment event leaves it. -/
def Chain.restart (c : Chain) : Chain := { overrun := c.overrun, swapMark := c.swapMark }

/-- An acquisition port as an alignment event leaves it. -/
def AcqPort.aligned (a : AcqPort) : AcqPort :=
  { a with
    alignments := a.alignments.bump, alignAt := some tai, a2 := [], fills := (0, e) :: a.fills.filter fun r => r.2 == 2 ^ 64 }

/-- An alignment event at a port. -/
def alignPort (nn : Nat) (s : State) : State :=
  (eachChain (fun _ => Chain.restart) nn s).modAcqPort nn (AcqPort.aligned e tai)

/-- The new epoch, which every track, engine and window takes. -/
def State.epochAt (s : State) : State :=
  { s with
    epoch := e, epochPrev := s.epoch, alignArm := none
    tones := tmap {} (fun _ t => { t with track := 0, trackAt := e, past := [] }) s.tones
    engines := tmap {} (fun _ k => { k with aligned := some (e, k.count) }) s.engines
    ro := tmap {} (fun _ r => { r with wins := r.wins.map fun w =>
      { w with align := w.align || (decide (w.p0 ≤ e) && decide (e ≤ w.endTick)) } }) s.ro }

theorem alignAll_eq (s : State) : ∃ u tai, u.withoutReports = (s.epochAt e).withoutReports
    ∧ alignAll e s = each (alignPort e tai) (List.range 16) u :=
  ⟨_, _, each_keeps State.withoutReports withoutReports_closeBlock _ (s.epochAt e), rfl⟩

variable (n i : Nat)

/-- The chains of the tones of a list start afresh. -/
def restartTones (l : List Nat) (s : State) : State :=
  each (fun k u => u.modRot (n * 16 + k) fun r => { r with chain := r.chain.restart }) l s

theorem restartChains_eq (s : State) :
    ∃ u c, u = restartTones n (List.range 16) s ∧ eachChain (fun _ => Chain.restart) n s = { u with stipChains := c } :=
  ⟨_, _, rfl, rfl⟩

theorem keeps_of_restartTones {β : Type} (f : State → β) (hf : ∀ (u : State) r, f { u with ro := r } = f u) (l : List Nat)
    (s : State) : f (restartTones n l s) = f s :=
  each_keeps f (fun k u => hf u (tset {} u.ro (n * 16 + k) _)) l s

theorem acqPorts_restartChains (s : State) : (eachChain (fun _ => Chain.restart) n s).acqPorts = s.acqPorts := by
  obtain ⟨u, c, hu, hc⟩ := restartChains_eq n s
  have hkeep := keeps_of_restartTones n State.acqPorts (fun _ _ => rfl) (List.range 16) s
  rw [hc]
  rw [← hu] at hkeep
  exact hkeep

theorem acqPort_alignPort (s : State) : (alignPort e tai n s).acqPort n = AcqPort.aligned e tai (s.acqPort n) := by
  rw [alignPort, State.acqPort_modAcqPort, State.acqPort, acqPorts_restartChains]
  rfl

theorem acqPort_alignPort_ne {m : Nat} (h : n ≠ m) (s : State) : (alignPort e tai m s).acqPort n = s.acqPort n := by
  rw [alignPort, State.acqPort_modAcqPort_ne _ _ _ _ h, State.acqPort, acqPorts_restartChains]
  rfl

theorem acqPort_each_alignPort_of_not_mem : ∀ {l : List Nat}, n ∉ l → ∀ s : State,
    (each (alignPort e tai) l s).acqPort n = s.acqPort n
  | [], _, _ => rfl
  | m :: l, hn, s => by
    rw [each, acqPort_each_alignPort_of_not_mem (fun h => hn (List.mem_cons_of_mem _ h)),
      acqPort_alignPort_ne e tai n fun h => hn (h ▸ List.mem_cons_self)]

/-- Every port of a list is aligned once. -/
theorem acqPort_each_alignPort : ∀ {l : List Nat}, l.Nodup → n ∈ l → ∀ s : State,
    (each (alignPort e tai) l s).acqPort n = AcqPort.aligned e tai (s.acqPort n)
  | m :: l, hl, hn, s => by
    obtain ⟨hm, hl⟩ := List.nodup_cons.mp hl
    rw [each]
    rcases List.mem_cons.mp hn with rfl | hmem
    · rw [acqPort_each_alignPort_of_not_mem e tai n hm, acqPort_alignPort]
    · rw [acqPort_each_alignPort hl hmem, acqPort_alignPort_ne e tai n (ne_of_mem_of_not_mem hmem hm)]

theorem restarted_restart (c : Chain) : c.restart.Restarted := ⟨rfl, rfl, rfl⟩

theorem restarted_modRot {s : State} (h : (s.rot i).chain.Restarted) (j : Nat) :
    ((s.modRot j fun r => { r with chain := r.chain.restart }).rot i).chain.Restarted := by
  by_cases hj : i = j
  · subst hj
    rw [State.rot_modRot]
    exact restarted_restart _
  · rwa [State.rot_modRot_ne _ _ _ _ hj]

theorem restarted_restartTones {l : List Nat} {s : State} (h : (s.rot i).chain.Restarted ∨ i / 16 = n ∧ i % 16 ∈ l) :
    ((restartTones n l s).rot i).chain.Restarted := by
  have hkeep (k : Nat) (u : State) (hu : (u.rot i).chain.Restarted) := restarted_modRot i hu (n * 16 + k)
  rcases h with h | ⟨hn, hl⟩
  · exact each_invariant (P := fun u => (u.rot i).chain.Restarted) hkeep l h
  · refine each_reaches (P := fun u => (u.rot i).chain.Restarted) (fun u => ?_) hkeep hl s
    rw [show n * 16 + i % 16 = i by omega, State.rot_modRot]
    exact restarted_restart _

/-- A chain that has restarted stays so as further ports are aligned, and those of the port restart. -/
theorem restarted_alignPort {s : State} (h : (s.rot i).chain.Restarted ∨ i / 16 = n) :
    ((alignPort e tai n s).rot i).chain.Restarted := by
  have hrestart := restarted_restartTones n i (l := List.range 16)
    (h.imp_right fun hn => ⟨hn, List.mem_range.mpr (Nat.mod_lt _ (by decide))⟩)
  obtain ⟨u, c, hu, hc⟩ := restartChains_eq n s
  rw [alignPort, hc]
  rw [← hu] at hrestart
  exact hrestart

theorem restarted_each_alignPort (hi : i < 256) (s : State) :
    ((each (alignPort e tai) (List.range 16) s).rot i).chain.Restarted :=
  each_reaches (P := fun u => (u.rot i).chain.Restarted) (b := i / 16) (fun _ => restarted_alignPort e tai _ i (.inr rfl))
    (fun _ _ hu => restarted_alignPort e tai _ i (.inl hu)) (List.mem_range.mpr (by omega)) s

/-- Aligning ports touches the ports and the chains. -/
theorem keeps_of_alignPorts {β : Type} (f : State → β)
    (hf : ∀ (u : State) a r c, f { u with acqPorts := a, ro := r, stipChains := c } = f u) (l : List Nat) (s : State) :
    f (each (alignPort e tai) l s) = f s := by
  refine each_keeps f (fun m u => ?_) l s
  have hkeep := keeps_of_restartTones m f (fun v r => hf v v.acqPorts r v.stipChains) (List.range 16) u
  obtain ⟨v, c, hv, hc⟩ := restartChains_eq m u
  rw [alignPort, hc]
  rw [← hv] at hkeep
  exact (hf v _ v.ro c).trans hkeep

/-- What an alignment event at tick `e` leaves. -/
theorem alignAll_spec (s : State) : (alignAll e s).epoch = e ∧ (alignAll e s).alignArm = none
    ∧ (∀ x ∈ (alignAll e s).tones, x.2.track = 0 ∧ x.2.trackAt = e)
    ∧ (∀ i, i < 256 → ((alignAll e s).rot i).chain.Restarted)
    ∧ (∀ n, n < 16 → ((alignAll e s).acqPort n).alignments = (s.acqPort n).alignments.bump
      ∧ (0, e) ∈ ((alignAll e s).acqPort n).fills)
    ∧ (alignAll e s).burins = s.burins ∧ (alignAll e s).now = s.now := by
  obtain ⟨u, tai, hu, hall⟩ := alignAll_eq e s
  have hkeep {β : Type} (f : State → β) (hf : ∀ (u : State) a r c, f { u with acqPorts := a, ro := r, stipChains := c } = f u)
      (hreport : ∀ u : State, f u.withoutReports = f u) : f (alignAll e s) = f (s.epochAt e) := by
    rw [hall, keeps_of_alignPorts e tai f hf]
    exact same_of_withoutReports hu f hreport
  have hport {n : Nat} (hn : n < 16) : (alignAll e s).acqPort n = AcqPort.aligned e tai (s.acqPort n) := by
    rw [hall, acqPort_each_alignPort e tai n List.nodup_range (List.mem_range.mpr hn),
      same_of_withoutReports hu (State.acqPort · n) fun _ => rfl]
    rfl
  refine ⟨hkeep State.epoch (fun _ _ _ _ => rfl) fun _ => rfl, hkeep State.alignArm (fun _ _ _ _ => rfl) fun _ => rfl, fun x hx => ?_,
    fun i hi => ?_, fun n hn => ?_, hkeep State.burins (fun _ _ _ _ => rfl) fun _ => rfl,
    hkeep State.now (fun _ _ _ _ => rfl) fun _ => rfl⟩
  · rw [hkeep State.tones (fun _ _ _ _ => rfl) fun _ => rfl] at hx
    obtain ⟨v, -, hv⟩ := exists_of_mem_tmap hx
    rw [hv]
    exact ⟨rfl, rfl⟩
  · rw [hall]
    exact restarted_each_alignPort e tai i hi u
  · rw [hport hn]
    exact ⟨rfl, List.mem_cons_self⟩

end

/-! ### Centroid steps (R251, R496) -/

section
variable (b : BurinId) (s : State)

/-- A centroid step can act now: it is due, its burin is idle with nothing held or running on its table, and On. -/
def State.centroidReady : Bool :=
  (s.cent b.val).due && !(s.burin b.val).running && !decide ((s.burin b.val).held ≠ []) && !s.proofCovers b.val
    && !s.cellPending b.val && s.isOn (folioDom b.val)

theorem centroidUpdate_of_not_ready (h : s.centroidReady b = false ∨ (s.cent b.val).ramp = none) :
    exec (.centroidUpdate b) s = .next s := by
  show execCentroidUpdate b s = _
  simp only [execCentroidUpdate]
  split
  · next hramp _ =>
    rw [hramp] at h
    have hready := h.resolve_right nofun
    rw [if_pos]
    simpa [State.centroidReady, or_assoc, imp_iff_not_or] using hready
  · rfl

/-- A centroid step writes data memory alone. -/
theorem centroidUpdate_of_ready {p : Ramp} {tab : Nat × Nat × Nat} (hramp : (s.cent b.val).ramp = some p)
    (htab : (s.burin b.val).ctab = some tab) (h : s.centroidReady b = true) :
    ∃ m, exec (.centroidUpdate b) s = .next ((s.setCent b.val { s.cent b.val with ramp := p.step.2, due := false }).setBurin b.val
      { s.burin b.val with regs := { (s.burin b.val).regs with dmem := m } }) := by
  have hexec : exec (.centroidUpdate b) s = execCentroidUpdate b s := rfl
  rw [hexec]
  simp only [execCentroidUpdate, hramp, htab]
  rw [if_neg]
  · rw [← htab]
    exact ⟨_, rfl⟩
  · simpa [State.centroidReady, and_assoc] using h

end

/-! ### The rows together -/

/-- Settles O55: a lemma for each row, in the order of the statement. -/
theorem readoutAndHatchEvents : Obligations.ReadoutAndHatchEvents := by
  unfold Obligations.ReadoutAndHatchEvents
  refine ⟨?early, ?aligned, ?fed, ?converted, ?tone, ?stipple, ?delivered, ?overrun, ?idle, ?centroid, ?injected, ?spaced,
    ?empty, ?gate, ?released, ?passed, ?latched, ?arrived, ?taken⟩
  case early =>
    intro s h
    show execAlignmentEvent s = _
    unfold execAlignmentEvent
    split
    · next harm => rw [if_pos (h _ _ harm)]
    · rfl
  case aligned =>
    intro s t n harm ht
    have hexec : exec .alignmentEvent s = .next (alignAll t s) := by
      show execAlignmentEvent s = _
      rw [execAlignmentEvent, harm]
      exact congrArg _ (if_neg (not_lt.mpr ht))
    exact ⟨_, hexec, alignAll_spec t s⟩
  case fed =>
    intro nn xs s
    exact ⟨fun i hi => by subst hi; exact ⟨rfl, rfl⟩, fun p t hp => by subst hp; rfl⟩
  case converted =>
    intro nn code s
    obtain ⟨hconv, hover, hnow⟩ := Prod.mk.inj (converter_convert nn code s) |>.imp_right Prod.mk.inj
    exact ⟨hconv, hnow, hover⟩
  case tone =>
    exact fun i k x s => ⟨fun h => by simp only [toneInput, due_of_lt h], n_toneInput i k x s⟩
  case stipple =>
    exact fun nn t k x s => ⟨fun h => by simp only [stipInput, due_of_lt h], n_stipInput nn t k x s⟩
  case delivered =>
    intro i b w s hw hready ho
    rw [deliverReady_one hw hready]
    refine ⟨fun hrun hshot hroom => ?_, fun hlost => deliver_of_lost ho hlost⟩
    refine (deliver_of_open (s := s.setRot i { s.rot i with wins := [] }) ho hrun hshot hroom).trans ?_
    rw [State.rot_setRot]
    rfl
  case overrun =>
    intro src lost s
    cases src with
    | tone i =>
      refine ⟨fun h => ?_, chainOverrun_tone_of_runs lost s i⟩
      show execChainOverrun (.tone i) lost s = _
      simp [execChainOverrun, h]
    | stip nn t =>
      refine ⟨fun h => ?_, chainOverrun_stip_of_runs lost s nn t⟩
      show execChainOverrun (.stip nn t) lost s = _
      simp [execChainOverrun, h]
  case idle =>
    intro b s h
    refine centroidUpdate_of_not_ready b s ?_
    rcases h with h | h | h | h | h | h
    case inr.inl => exact .inr h
    all_goals exact .inl (by simp [State.centroidReady, h])
  case centroid =>
    intro b p tab s hramp htab hdue hrun hheld hproof hcell hon
    exact centroidUpdate_of_ready b s hramp htab (by simp [State.centroidReady, hdue, hrun, hheld, hproof, hcell, hon])
  case injected =>
    intro ch i pay s
    refine ⟨fun hfree => ?_, fun hfree => ?_⟩
    · rw [inject_eq, if_pos (Inject.free_iff.mpr hfree)]
      rfl
    · rw [inject_eq, if_neg (mt Inject.free_iff.mp hfree)]
  case spaced =>
    intro ch i s
    refine ⟨fun h => ?_, fun hbound hdue hev => ?_, fun v rest hbound hdue hev hpay => ?_⟩
    · rw [exec_spacingEnd]
      rcases h with hbound | hdue | ⟨hev, hpay⟩
      · simp [hbound]
      · simp [mt Inject.spaced_iff.mp hdue]
      · simp [hev, hpay]
    · rw [exec_spacingEnd, if_neg (by simp [hbound, Inject.spaced_iff.mpr hdue]), if_pos hev]
      rfl
    · rw [exec_spacingEnd, if_neg (by simp [hbound, Inject.spaced_iff.mpr hdue]), if_neg (by simp [hev]), hpay]
      rfl
  case empty =>
    intro ch s
    refine ⟨fun h => ?_, fun h => ?_, fun h => ?_, fun h => ?_, rfl⟩
    · show execGatePointArrival ch s = _
      simp only [execGatePointArrival, h]
    · show execGateOpenRelease ch s = _
      simp only [execGateOpenRelease, h]
    · show execPayloadArrival ch s = _
      simp only [execPayloadArrival, h]
    · show execSoftConsumerTake ch s = _
      simp only [execSoftConsumerTake, h]
  case gate =>
    intro ch pay rest s htoGate
    have hbelow (hstorm : (s.chan ch.val).stormFlag = false) (hovf : (s.chan ch.val).ovfFlag = false)
        (hcount : (s.chan ch.val).stmax = 0 ∨ (stormList s.now (s.chan ch.val)).length ≤ (s.chan ch.val).stmax) :=
      exec_gatePointArrival_of_below ch s htoGate (by rw [Channel.disabled, hstorm, hovf]; rfl) hcount
    refine ⟨fun hflags => ?_, fun hstorm hovf hmax hlt => ?_, fun hstorm hovf hcount => ⟨fun hopen hfree => ?_, fun hopen hkind => ?_,
      fun hheld hkind => ?_⟩⟩
    · have hd : (s.chan ch.val).disabled = true := by rw [Channel.disabled, Bool.or_eq_true]; exact hflags
      rw [exec_gatePointArrival ch s htoGate]
      exact congrArg _ (if_pos hd)
    · exact gatePointArrival_of_storm ch s htoGate (by rw [Channel.disabled, hstorm, hovf]; rfl) hmax hlt
    · refine (hbelow hstorm hovf hcount).trans (congrArg _ ?_)
      by_cases hkind : (s.chan ch.val).kind = 1
      · exact (if_pos hkind).trans (if_pos hopen)
      · exact (if_neg hkind).trans (if_pos (by simp [hopen, hfree.resolve_left hkind]))
    · refine (hbelow hstorm hovf hcount).trans (congrArg _ ((if_pos hkind).trans ((if_neg ?_).trans (modChCtr_atGatePoint ch s rest _))))
      simp [hopen]
    · refine (hbelow hstorm hovf hcount).trans (congrArg _ ((if_neg hkind).trans ((if_neg ?_).trans ?_)))
      · rcases hheld with h | h <;> simp [h]
      · exact modChan_atGatePoint ch s rest _
  case released =>
    intro ch pay rest s h
    show execGateOpenRelease ch s = _
    simp only [execGateOpenRelease, h]
  case passed =>
    intro ch pay s
    exact ⟨passGate_event_spec ch s pay, fun hkind => ⟨_, rfl, passGate_payload_spec ch s pay hkind⟩, hatchWake_of_none ch s⟩
  case latched =>
    intro ch i merged s
    have hexec := exec_triggerLatch ch s i merged
    have hin (hmem : i.val ∈ (s.chan ch.val).toLatch) : ¬(!(s.chan ch.val).toLatch.contains i.val) = true := by simpa using hmem
    refine ⟨fun hmem => ?_, fun hmem hwave => ?_, fun hmem hwave hflag => ?_, fun hmem hwave hflag => ?_⟩
    · exact hexec.trans (congrArg _ (if_pos (by simpa using hmem)))
    · exact hexec.trans (congrArg _ ((if_neg (hin hmem)).trans (if_pos (Consumer.joins_iff.mpr hwave))))
    · exact hexec.trans (congrArg _ ((if_neg (hin hmem)).trans ((if_neg (mt Consumer.joins_iff.mp hwave)).trans (if_pos hflag))))
    · exact hexec.trans (congrArg _ ((if_neg (hin hmem)).trans ((if_neg (mt Consumer.joins_iff.mp hwave)).trans
        (if_neg (by simp [hflag])))))
  case arrived =>
    intro ch pay rest s h
    refine ⟨fun hfar => ?_, fun hfar hroom => ?_, fun hfar hfull => ?_⟩
    · rw [exec_payloadArrival ch s h, if_pos hfar]
    · rw [exec_payloadArrival ch s h, hfar, if_neg Bool.false_ne_true, arrive_of_room]
      · simp only [State.chan_setChan]
        rfl
      · rwa [State.chan_setChan]
    · obtain ⟨hovf, hflight, hcon, hsum⟩ := arrive_of_full (s.setChan ch.val { s.chan ch.val with inFlight := rest }) pay
        (s.linkPort (s.chan ch.val)) ch.val (by rwa [State.chan_setChan])
      rw [State.chan_setChan] at hflight hcon
      exact ⟨_, by rw [exec_payloadArrival ch s h, hfar, if_neg Bool.false_ne_true], hovf, hflight, hcon, hsum⟩
  case taken =>
    intro ch v rest s h
    have hexec := exec_softConsumerTake ch s h
    refine ⟨fun hother => ?_, fun hkind hsoft => ?_⟩
    · rw [hexec]
      rcases hother with h | h <;> simp [h]
    · obtain ⟨hlen, hhead, hdata⟩ := softRecord_spec s (s.chan ch.val) ch.val v
      refine ⟨s.softRecord (s.chan ch.val) ch.val v, hlen, hhead, hdata, fun hput => ?_, fun t hput => ?_⟩
      · rw [hexec]
        simp [hkind, hsoft, hput]
      · rw [hexec]
        simp [hkind, hsoft, hput, State.modChan, chan_ringPut hput]

end Sys2Proof.Machine
end

section
/-! Frames of a link: acceptance and forwarding, payloads, credits and doubts (R138, R276, R277, R368, R376–R381, R545). -/

namespace Sys2Proof.Machine

/-! ### A frame is sent and goes on (R376, R381, R545) -/

theorem sendFrame_of_active {p : Nat} {s : State} (h : (s.jport p).st = .active) (vl : Nat) (body : FrameBody) :
    sendFrame p vl body s = s.setJport p { s.jport p with txq := (s.jport p).txq ++ [{ vl, body }] } :=
  if_pos h

/-- A route leads to an ACTIVE port. -/
theorem State.active_of_route {s : State} {dev p : Nat} (h : s.route dev = some p) : (s.jport p).st = .active := by
  simp only [State.route] at h
  split at h
  next hroute =>
    obtain rfl := Option.some.inj h
    simp only [Bool.and_eq_true, decide_eq_true_eq] at hroute
    exact hroute.2
  next => cases h

section
variable {s : State} {dest : Nat} (p vl : Nat) (b : FrameBody)

theorem relay_of_route {q : Nat} (h : s.route dest = some q) :
    relay p dest vl b s = s.setJport q { s.jport q with txq := (s.jport q).txq ++ [{ vl, body := b }] } := by
  simp only [relay, h]
  exact sendFrame_of_active (State.active_of_route h) vl b

theorem relay_of_no_route (h : s.route dest = none) :
    relay p dest vl b s = s.setJctr p { s.jctr p with misrouted := (s.jctr p).misrouted.bump } := by
  simp only [relay, h]
  rfl

end

/-! ### A frame arrives (R368, R376, R377, R379) -/

section
variable (p vl : Nat) (tag : FrameTag) (s : State)

/-- The state once a frame's coding errors are counted. -/
def codeCounted : State :=
  if codeErrors tag = 0 then s else s.modJctr p fun c => { c with code := c.code.add (codeErrors tag) }

/-- The state in which a port asks for a frame again. -/
def retryAsked : State :=
  (codeCounted p tag s).setJport p ((s.jport p).setRetry vl { (s.jport p).retry vl with nak := true })

/-- The state in which a port has taken the next frame of its lane, its buffer apart. -/
def seqTaken : State :=
  (codeCounted p tag s).setJport p ((s.jport p).setRetry vl
    { (s.jport p).retry vl with rxNext := (((s.jport p).retry vl).rxNext + 1) % 4096, nak := false, nakSent := false })

/-- The state in which a port has accepted a frame: it owes its buffer, or counts one that it never advertised. -/
def frameTaken : State :=
  let v := seqTaken p vl tag s
  let owed := tget 0 (s.jport p).freed vl + 1
  if ownAdvert vl < owed then v.modJctr p fun c => { c with credViol := c.credViol.bump }
  else v.modJport p fun j => { j with freed := tset 0 j.freed vl owed }

/-- A frame that arrives, by the conditions in their order. -/
theorem recvFrame_eq (b : FrameBody) (known : Bool) (f : State → State) : recvFrame p vl tag b known f s =
    if (s.jport p).st ≠ .active then s
    else if !frameOk b tag || !known then (retryAsked p vl tag s).modJctr p fun c => { c with crc := c.crc.bump }
    else if frameSeq tag ≠ ((s.jport p).retry vl).rxNext then retryAsked p vl tag s
    else f (frameTaken p vl tag s) := rfl

theorem Jvl.freed_setRetry (j : Jvl) (vl : Nat) (r : Retry) : (j.setRetry vl r).freed = j.freed := by
  unfold Jvl.setRetry
  split <;> rfl

theorem frameTaken_eq : frameTaken p vl tag s =
    if ownAdvert vl < tget 0 (s.jport p).freed vl + 1 then (seqTaken p vl tag s).modJctr p fun c => { c with credViol := c.credViol.bump }
    else (seqTaken p vl tag s).setJport p { (seqTaken p vl tag s).jport p with
      freed := tset 0 (s.jport p).freed vl (tget 0 (s.jport p).freed vl + 1) } := by
  have hfreed : ((seqTaken p vl tag s).jport p).freed = (s.jport p).freed := by
    rw [seqTaken, State.jport_setJport, Jvl.freed_setRetry]
  simp only [frameTaken, State.modJport, hfreed]

theorem free_frameTaken : (frameTaken p vl tag s).free = s.free := by
  have hcode : (codeCounted p tag s).free = s.free := by unfold codeCounted; split <;> rfl
  unfold frameTaken
  dsimp only
  split <;> exact hcode

end

section
variable {p vl : Nat} {tag : FrameTag} {b : FrameBody} {known : Bool} {f : State → State} {s : State}

theorem recvFrame_of_inactive (h : (s.jport p).st ≠ .active) : recvFrame p vl tag b known f s = s := by
  rw [recvFrame_eq, if_pos h]

variable (hact : (s.jport p).st = .active)
include hact

theorem recvFrame_of_bad (h : frameOk b tag = false ∨ known = false) : recvFrame p vl tag b known f s =
    (retryAsked p vl tag s).modJctr p fun c => { c with crc := c.crc.bump } := by
  rw [recvFrame_eq, if_neg (not_not.mpr hact), if_pos (by simpa using h)]

theorem recvFrame_of_disordered (hok : frameOk b tag = true) (hknown : known = true)
    (hseq : frameSeq tag ≠ ((s.jport p).retry vl).rxNext) : recvFrame p vl tag b known f s = retryAsked p vl tag s := by
  rw [recvFrame_eq, if_neg (not_not.mpr hact), if_neg (by simp [hok, hknown]), if_pos hseq]

theorem recvFrame_of_next (hok : frameOk b tag = true) (hknown : known = true)
    (hseq : frameSeq tag = ((s.jport p).retry vl).rxNext) : recvFrame p vl tag b known f s = f (frameTaken p vl tag s) := by
  rw [recvFrame_eq, if_neg (not_not.mpr hact), if_neg (by simp [hok, hknown]), if_neg (not_not.mpr hseq)]

end

/-- What a frame does matters in states with the same free value only. -/
theorem recvFrame_congr {p vl : Nat} {tag : FrameTag} {b : FrameBody} {known : Bool} {f g : State → State} {s : State}
    (h : ∀ u : State, u.free = s.free → f u = g u) : recvFrame p vl tag b known f s = recvFrame p vl tag b known g s := by
  rw [recvFrame_eq, recvFrame_eq, h _ (free_frameTaken p vl tag s)]

/-! ### Payloads and credits (R276, R277, R285, R381) -/

section
variable (p : JvlPort) (tag : FrameTag) (f : HatchFrame) (s : State)

theorem takePayload_eq (p ch : Nat) (pay : BitVec 64) : takePayload p ch pay s =
    if s.linkPort (s.chan ch) ≠ some p then
      arrive ch pay (some p) (s.setChan ch { s.chan ch with credits := (s.chan ch).credits - 1 })
    else if (s.chan ch).stormFlag = true ∨ (s.chan ch).ovfFlag = true then
      creditFrames ch 1 (s.setChCtr ch { s.chCtr ch with discarded := (s.chCtr ch).discarded.bump })
    else inject ch 0 pay (s.setChan ch { s.chan ch with credits := (s.chan ch).credits - 1 }) := by
  simp only [← Bool.or_eq_true]
  rfl

theorem takeCredit_eq (ch : Nat) : takeCredit ch s =
    let u := s.setChan ch { s.chan ch with credits := min 4 ((s.chan ch).credits + 1), inFlight := (s.chan ch).inFlight.tail }
    if s.prodFar (s.chan ch) = true then creditFrames ch 1 u else u := rfl

theorem exec_hatchData : exec (.hatchData p tag f) s = .next (recvFrame p.val 0 tag (.hatchData f)
    (!f.w64 || (s.jport p.val).feat.testBit 2) (fun s =>
      if f.dest ≠ s.sys.devnum then relay p.val f.dest 0 (.hatchData f) s
      else if (s.chan f.channel).bound = true ∧ (s.chan f.channel).kind = 2 ∧ s.endsVia (s.chan f.channel).prods p.val = true
          ∧ (s.chan f.channel).wide = f.w64 then takePayload p.val f.channel f.payload s
      else misroute p.val s) s) := by
  show execHatchData p tag f s = _
  simp only [execHatchData, Bool.and_eq_true, beq_iff_eq, and_assoc]

theorem exec_hatchCredit : exec (.hatchCredit p tag f) s = .next (recvFrame p.val 0 tag (.hatchCredit f.dest f.channel) true
    (fun s =>
      if f.dest ≠ s.sys.devnum then relay p.val f.dest 0 (.hatchCredit f.dest f.channel) s
      else if (s.chan f.channel).bound = true ∧ (s.chan f.channel).kind = 2 ∧ s.endsVia (s.chan f.channel).cons p.val = true then
        takeCredit f.channel s
      else misroute p.val s) s) := by
  show execHatchCredit p tag f s = _
  simp only [execHatchCredit, Bool.and_eq_true, beq_iff_eq, and_assoc]

end

/-! ### Doubts and BULK (R138, R144–R147, R381) -/

theorem exec_bulkFrame (p : JvlPort) (tag : FrameTag) (dest len : Nat) (s : State) : exec (.bulkFrame p tag dest len) s =
    .next (recvFrame p.val 3 tag (bulkOf dest tag)
      ((s.jport p.val).feat.testBit 0 && frameLen tag == len && decide (1 ≤ len ∧ len ≤ 8))
      (fun s => if dest = s.sys.devnum then s else relay p.val dest 3 (bulkOf dest tag) s) s) := by
  rw [Bool.decide_and, ← Bool.and_assoc]
  rfl

section
variable {s : State} {root : Nat} (src : Nat)

theorem remoteDoubt_of_not_spanning (h : s.keyOf root ∉ s.spanRoots) : remoteDoubt src root s = s := by
  simp [remoteDoubt, h]

/-- The part of a root of another device stops, and its record says where the doubt arose. -/
theorem remoteDoubt_of_spanning (h : s.keyOf root ∈ s.spanRoots) (hfar : 2 ^ 32 ≤ s.keyOf root) :
    remoteDoubt src root s = pump (stopRoot (s.keyOf root) 2 true (setSum 1 (s.modFault (s.keyOf root)
      fun r => r.note 13 s.coarse src (le 2 src ++ pad 30) true))) := by
  have hkey : ¬s.keyOf root < 2 ^ 32 := not_lt.mpr hfar
  simp only [remoteDoubt, List.contains_iff_mem.mpr h, hkey, decide_false, Bool.false_and, Bool.not_true, Bool.false_eq_true,
    if_false]

end

end Sys2Proof.Machine
end

section
/-! TIME frames (R339, R376, R384) and LINK blocks (R377–R379). -/

namespace Sys2Proof.Machine

/-! ### TIME exchanges (R339, R384) -/

section
variable {s : State} {dom : Fin 2}

/-- 1 ms has passed since the last request, where there was one. -/
theorem TimeDom.reqDue_iff (d : TimeDom) (now : Nat) :
    d.reqDue now = true ↔ ∀ t, d.reqAt = some t → t + 20000 * 1000 ≤ now := by
  unfold TimeDom.reqDue
  cases d.reqAt with
  | none => simp
  | some t => exact decide_eq_true_iff.trans (by simp [us])

/-- A LINK domain whose port has TIME in use, with an instant to stamp and 1 ms gone by, can send a request. -/
def State.requests (s : State) (d : TimeDom) : Prop :=
  d.set.source = 3 ∧ (s.jport d.set.port).st = .active ∧ (s.jport d.set.port).feat.testBit 1 = true ∧ s.stamps 2 = true
    ∧ ∀ t, d.reqAt = some t → t + 20000 * 1000 ≤ s.now

theorem State.requests_iff (s : State) (d : TimeDom) : s.requests d ↔
    ¬(d.set.source ≠ 3 || !s.timeUp d.set.port || !s.stamps 2 || !d.reqDue s.now) = true := by
  simp only [State.requests, ← TimeDom.reqDue_iff, State.timeUp]
  simp [and_assoc]

theorem exec_tReqSend_of_idle (h : ¬s.requests (s.tdom dom.val)) : exec (.tReqSend dom) s = .next s :=
  congrArg _ (if_pos (not_not.mp (mt (s.requests_iff _).mpr h)))

theorem exec_tReqSend_of_due (h : s.requests (s.tdom dom.val)) : exec (.tReqSend dom) s =
    .next (sendFrame (s.tdom dom.val).set.port 1 (.tReq (((s.tdom dom.val).exch + 1) % 65536))
      (s.setTdom dom.val { s.tdom dom.val with
        exch := ((s.tdom dom.val).exch + 1) % 65536, reqAt := some s.now, t1 := none, t2 := none })) :=
  congrArg _ (if_neg ((s.requests_iff _).mp h))

end

/-- Both domains change, the second as it stood before. -/
theorem each_modTdom (g : Nat → State → TimeDom → TimeDom) (s : State)
    (h : ∀ u : State, u.tdom 1 = s.tdom 1 → g 1 u (u.tdom 1) = g 1 s (s.tdom 1)) :
    each (fun k u => u.modTdom k (g k u)) [0, 1] s = (s.setTdom 0 (g 0 s (s.tdom 0))).setTdom 1 (g 1 s (s.tdom 1)) := by
  rw [← h (s.setTdom 0 (g 0 s (s.tdom 0))) rfl]
  rfl

theorem linkDom_congr {s u : State} {k : Nat} (h : u.tdom k = s.tdom k) (p : Nat) : u.linkDom k p = s.linkDom k p := by
  unfold State.linkDom
  rw [h]

/-- The departure of a request is its exchange's first instant. -/
theorem timeDeparts_tReq (p exch : Nat) (ps : Int) (s : State) :
    let take (k : Nat) (d : TimeDom) : TimeDom := if s.linkDom k p = true ∧ d.exch = exch then { d with t1 := some ps } else d
    timeDeparts p ps (.tReq exch) s = (s.setTdom 0 (take 0 (s.tdom 0))).setTdom 1 (take 1 (s.tdom 1)) := by
  simp only [timeDeparts, Bool.and_eq_true, beq_iff_eq]
  exact each_modTdom (fun k u d => if u.linkDom k p = true ∧ d.exch = exch then { d with t1 := some ps } else d) s
    fun u hu => by rw [hu, linkDom_congr hu]

section
variable {p : Nat} {tag : FrameTag} {s : State} (f : State → State)

theorem timeFrame_of_reached (h : frameDest tag = s.sys.devnum ∨ s.route (frameDest tag) ≠ none) :
    timeFrame p tag f s = f s := by
  refine if_neg ?_
  rcases h with h | h
  · simp [h]
  · simp [Option.isNone_iff_eq_none, h]

theorem timeFrame_of_unreached (hdest : frameDest tag ≠ s.sys.devnum) (hroute : s.route (frameDest tag) = none) :
    timeFrame p tag f s = s.setJctr p { s.jctr p with misrouted := (s.jctr p).misrouted.bump } :=
  if_pos (by simp [hdest, hroute])

theorem timeFrame_congr {f g : State → State} (h : f s = g s) : timeFrame p tag f s = timeFrame p tag g s := by
  unfold timeFrame
  rw [h]

end

section
variable (p : JvlPort) (tag : FrameTag) (exch : Nat) (s : State)

/-- A request is answered with the instant of its reception, whose part of the tick is free. -/
theorem exec_tReq : ∃ v : Int, 0 ≤ v ∧ v < 50 ∧ exec (.tReq p tag exch) s =
    .next (recvFrame p.val 1 tag (.tReq exch) (s.timeUp p.val && decide (exch < 65536))
      (timeFrame p.val tag fun s => sendFrame p.val 1 (.tResp exch ((s.devTicks : Int) * 50 + v)) { s with free := s.free + 1 }) s) :=
  ⟨(Config.freeNat s.free : Int) % 50, Int.emod_nonneg _ (by decide), Int.emod_lt_of_pos _ (by decide),
    congrArg _ (recvFrame_congr fun u hu => timeFrame_congr (by rw [← hu]; rfl))⟩

theorem exec_tResp (t2 : Int) : exec (.tResp p tag exch t2) s =
    .next (recvFrame p.val 1 tag (.tResp exch t2) (s.timeUp p.val) (timeFrame p.val tag fun s =>
      let take (k : Nat) (d : TimeDom) : TimeDom :=
        if s.linkDom k p.val = true ∧ d.exch = exch ∧ d.t1.isSome = true then { d with t2 := some t2 } else d
      (s.setTdom 0 (take 0 (s.tdom 0))).setTdom 1 (take 1 (s.tdom 1))) s) := by
  refine congrArg _ (recvFrame_congr fun u _ => timeFrame_congr ?_)
  simp only [Bool.and_eq_true, beq_iff_eq, and_assoc]
  exact each_modTdom (fun k u d => if u.linkDom k p.val = true ∧ d.exch = exch ∧ d.t1.isSome = true then
    { d with t2 := some t2 } else d) u fun v hv => by rw [hv, linkDom_congr hv]

theorem exec_tFollow (dev hops tstate : Nat) (parent : Option Nat) (t3 t4 : Int) :
    exec (.tFollow p tag exch dev parent hops tstate t3 t4) s =
      .next (recvFrame p.val 1 tag (.tFollow exch dev parent hops tstate t3) (s.timeUp p.val) (timeFrame p.val tag fun s =>
        each (fun k s => if s.linkDom k p.val = true ∧ (s.tdom k).exch = exch then exchangeDone k dev parent hops tstate t3 t4 s else s)
          [0, 1] s) s) := by
  show execTFollow p tag exch dev parent hops tstate t3 t4 s = _
  simp only [execTFollow, Bool.and_eq_true, beq_iff_eq]

end

section
variable {k : Nat} {s : State} (dev hops tstate : Nat) (parent : Option Nat) (t3 t4 : Int)

/-- A domain whose exchange is whole, with what the peer says of its own time. -/
def exchanged (k dev hops : Nat) (s : State) : State :=
  s.setTdom k { s.tdom k with t1 := none, t2 := none, hops := hops + 1, parent := some dev, exchAt := s.now }

theorem exchangeDone_of_missing (h : (s.tdom k).t1 = none ∨ (s.tdom k).t2 = none) :
    exchangeDone k dev parent hops tstate t3 t4 s = s := by
  simp only [exchangeDone]
  split
  next t1 t2 h1 h2 => rcases h with h | h <;> simp [h] at h1 h2
  next => rfl

/-- A whole exchange loses the domain where the peer follows this device, and else measures it (R339). -/
theorem exchangeDone_of_whole {t1 t2 : Int} (h1 : (s.tdom k).t1 = some t1) (h2 : (s.tdom k).t2 = some t2) :
    exchangeDone k dev parent hops tstate t3 t4 s =
      if parent = some s.sys.devnum then loseDom k (fun d => { d with loop := true }) (exchanged k dev hops s)
      else measure k (((t2 - t1) - (t4 - t3)) / 2 + (s.tdom k).set.delay) (decide (tstate < 2)) (exchanged k dev hops s) := by
  have hsys : (exchanged k dev hops s).sys = s.sys := keeps_of_setTdom State.sys (fun _ _ => rfl) s k _
  simp only [exchangeDone, h1, h2, ← hsys]
  rfl

end

/-! ### LINK blocks (R377–R379) -/

/-- What a class still has to be acknowledged after an acknowledgement up to a number. -/
def Retry.acked (r : Retry) (seq : Nat) : Retry :=
  let n := (seq + 1 + 4096 - (r.txSeq + 4096 - r.unacked.length) % 4096) % 4096
  if n ≤ r.unacked.length then { r with unacked := r.unacked.drop n, tried := r.tried.drop n } else r

/-- A class of which a retry request sends the rest again. -/
def Retry.resent (r : Retry) (nak : Bool) : Retry := if nak = true then { r with tried := r.tried.map (· + 1) } else r

theorem Retry.ack_eq (r : Retry) (seq : Nat) (nak : Bool) : r.ack seq nak =
    ((r.acked seq).resent nak, if nak = true then (r.acked seq).unacked.length else 0) := by
  cases nak <;> rfl

/-- A port once a LINK block has acknowledged its frames and returned its credits. -/
def Jvl.linked (j : Jvl) (b : LinkBlock) : Jvl :=
  let back (c : Tab Nat) (vl n : Nat) : Tab Nat := tset 0 c vl (min (tget 0 j.advert vl) (tget 0 c vl + n))
  { j with
    p := (j.p.acked b.ackp).resent b.nakp, q := (j.q.acked b.ackq).resent b.nakq
    credits := back (back (back (back j.credits 0 b.rdec) 1 b.rtime) 2 b.rctrl) 3 b.rbulk }

section
variable (p : JvlPort) (b : LinkBlock) (s : State)

theorem exec_linkBlock : exec (.linkBlock p b) s = .next (
    if (s.jport p.val).st ≠ .active then s
    else (s.setJport p.val { (s.jport p.val).linked b with line := { ((s.jport p.val).linked b).line with
        redo := ((s.jport p.val).linked b).again b.nakp b.nakq } }).modJctr p.val fun c => { c with
      replays := c.replays.add ((if b.nakp = true then ((s.jport p.val).p.acked b.ackp).unacked.length else 0)
        + if b.nakq = true then ((s.jport p.val).q.acked b.ackq).unacked.length else 0) }) := by
  show execLinkBlock p b s = _
  simp only [execLinkBlock, Retry.ack_eq]
  rfl

end

end Sys2Proof.Machine
end

section
/-! A doubt of a root leaves the peers of the links (R144–R147, R369, R514). -/

namespace Sys2Proof.Machine

/-! ### What leaves the links altogether -/

section
variable (s : State)

theorem jvl_ringPut {k : Nat} {bytes : List Byte} {tag : Option (Nat × Nat)} {s t : State} (h : ringPut k bytes tag s = some t) :
    t.jvl = s.jvl := by
  unfold ringPut at h
  split at h
  · rw [← Option.some.inj h]
    rfl
  · cases h

@[simp] theorem jvl_closeStream (src : Nat) (s : State) : (closeStream src s).jvl = s.jvl := by
  simp only [closeStream, closeBlock, State.modStream_jvl]
  split
  · rfl
  · split
    · next t hput => rw [State.modStream_jvl, jvl_ringPut hput]
    · rw [State.modStream_jvl]

theorem jvl_streamWrite (key shot : Nat) (bytes : List Byte) : (streamWrite key shot bytes s).jvl = s.jvl := by
  simp only [streamWrite]
  split
  · split <;> rw [State.setRoot_jvl]
  · split
    · next t hput => rw [State.modRoot_jvl, jvl_ringPut hput]
    · split <;> rw [State.setRoot_jvl]

theorem jvl_flushHeld (key n : Nat) : (flushHeld key n s).jvl = s.jvl := by
  induction n generalizing s with
  | zero => rfl
  | succ n ih =>
    unfold flushHeld
    split
    · rfl
    · split
      · rfl
      · rw [ih, jvl_streamWrite, State.modRoot_jvl]

@[simp] theorem jvl_postGap (key reason first count : Nat) : (postGap key reason first count s).jvl = s.jvl := by
  simp only [postGap, post, flush, apply_ite State.jvl, jvl_flushHeld, State.modRoot_jvl, ite_self]

theorem jvl_gapShots (key reason : Nat) (unf : List Nat) : (gapShots key reason unf s).jvl = s.jvl := by
  cases unf <;> simp only [gapShots, cancelUnstarted, jvl_postGap, State.modRoot_jvl]

theorem jvl_of_withoutOutputs {s t : State} (h : t.withoutOutputs = s.withoutOutputs) : t.jvl = s.jvl :=
  same_of_withoutOutputs h State.jvl fun _ => rfl

theorem jvl_safeRoot (key : Nat) (flag : Bool) : (safeRoot key flag s).jvl = s.jvl := by
  have hres (l : List Nat) (t : State) : (each safeRes l t).jvl = t.jvl :=
    jvl_of_withoutOutputs (each_keeps _ withoutOutputs_safeRes l t)
  have hshared (l : List Nat) (t : State) : (each (flagShared key) l t).jvl = t.jvl :=
    jvl_of_withoutOutputs (each_keeps _ (withoutOutputs_flagShared key) l t)
  refine (jvl_of_withoutOutputs (withoutOutputs_markRoot key flag _)).trans ?_
  rw [hres, hshared]

@[simp] theorem jvl_raiseVec (v : Nat) : (raiseVec v s).jvl = s.jvl := by
  obtain ⟨x, hx, -⟩ := raiseVec_eq v s
  rw [hx]

@[simp] theorem jvl_setMode (m : Mode) : (setMode m s).jvl = s.jvl := by
  by_cases hm : s.sys.mode = m
  · rw [setMode, if_pos hm]
  · obtain ⟨x, log, hset⟩ := setMode_of_ne hm
    rw [hset]

@[simp] theorem jvl_complete (c : Nat) (e : Completion) : (complete c e s).jvl = s.jvl := by
  simp only [complete, writeCompletion, apply_ite State.jvl, jvl_raiseVec, State.setCq_jvl, State.modCq, ite_self]

end

/-! ### Frames leave the peers -/

/-- The device at the far end of a port. -/
def State.peer (s : State) (p : Nat) : Nat := (s.jport p).peerDev

section
variable (p : Nat) (s : State)

theorem peer_of_jvl {s t : State} (h : t.jvl = s.jvl) : t.peer p = s.peer p := by
  rw [State.peer, State.jport, h]
  rfl

@[simp] theorem peer_sendFrame (q vl : Nat) (b : FrameBody) : (sendFrame q vl b s).peer p = s.peer p := by
  unfold sendFrame
  split
  · by_cases hp : p = q
    · subst hp
      rw [State.peer, State.jport_modJport]
      rfl
    · rw [State.peer, State.jport_modJport_ne _ _ _ _ hp]
      rfl
  · rfl

@[simp] theorem peer_sendTo (dev vl : Nat) (b : FrameBody) : (sendTo dev vl b s).peer p = s.peer p := by
  unfold sendTo
  split
  · exact peer_sendFrame ..
  · rfl

@[simp] theorem peer_tell (dev : Nat) (m : ControlMsg) : (tell dev m s).peer p = s.peer p := peer_sendTo ..

theorem peer_dropAsked (f : InFlight) : (dropAsked f s).peer p = s.peer p := by
  unfold dropAsked
  split
  · exact each_keeps (State.peer · p) (fun d u => peer_tell p u d _) _ s
  · rfl

/-! ### Completing commands leaves them -/

@[simp] theorem peer_closeSession : (closeSession s).peer p = s.peer p := by
  have hclose (l : List InFlight) : (resetQueues 0 false (stopTransfers (closeStreams (each dropAsked l s)))).peer p = s.peer p := by
    rw [← each_keeps (State.peer · p) (fun f u => peer_dropAsked p u f) l s]
    exact peer_of_jvl p (each_keeps State.jvl jvl_closeStream _ _)
  simp only [closeSession]
  split
  · exact hclose _
  · exact hclose _

theorem peer_finishGuest (q : Nat) (f : InFlight) : (finishGuest q f s).peer p = s.peer p := by
  unfold finishGuest
  split
  · rfl
  · split
    · rfl
    · exact peer_tell ..

theorem peer_finishHead (q : Nat) : (finishHead q s).peer p = s.peer p := by
  have hdone (c : Nat) (e : Completion) (u : State) : (complete c e u).peer p = u.peer p := peer_of_jvl p (jvl_complete u c e)
  have hopen (c : Nat) (e : Completion) (x : HostIf) (u : State) : ({ complete c e u with host := x } : State).peer p = u.peer p :=
    hdone c e u
  have hreset (v : Nat) (o : Bool) (u : State) : (resetQueues v o u).peer p = u.peer p := rfl
  have hmod (g : SQ → SQ) : (s.modSq q g).peer p = s.peer p := rfl
  unfold finishHead
  split
  · rfl
  · simp only [apply_ite (State.peer · p), peer_finishGuest, peer_closeSession, hopen, hreset, hmod, ite_self]

theorem peer_pumpQueue (q n : Nat) : (pumpQueue q n s).peer p = s.peer p := by
  induction n generalizing s with
  | zero => rfl
  | succ n ih =>
    unfold pumpQueue
    split
    · rfl
    · split
      · rw [ih, peer_finishHead]
      · rfl

theorem peer_pump : (pump s).peer p = s.peer p := by
  have hround (t : State) : (pumpRound t).peer p = t.peer p :=
    each_keeps (State.peer · p) (fun q u => peer_pumpQueue p u q _) _ t
  have hmode (w : WaitFor) (c : Bool) (t : State) : (if c = true then setMode .ready (endWaits w t) else t).peer p = t.peer p := by
    split
    · exact peer_of_jvl p (jvl_setMode ..)
    · rfl
  exact (times_keeps (State.peer · p) hround _ _).trans ((hmode _ _ _).trans (hmode _ _ s))

/-! ### A stop and a doubt leave them (R142, R145, R514) -/

theorem jvl_haltBurin (b : Nat) (s : State) : (haltBurin b s).jvl = s.jvl := by
  simp only [haltBurin, State.modBurin_jvl]

theorem peer_stopRoot (key reason : Nat) (flag : Bool) : (stopRoot key reason flag s).peer p = s.peer p := by
  simp only [stopRoot, tellStopped]
  rw [each_keeps (State.peer · p) (fun d u => peer_tell p u d _)]
  refine peer_of_jvl p ?_
  simp only [State.modRoot_jvl, jvl_safeRoot, swapsNow, pendingNow, jvl_of_withoutOutputs (withoutOutputs_boundaryPass _ _ _),
    jvl_of_withoutOutputs (withoutOutputs_swapWhere _ _), jvl_gapShots, each_keeps State.jvl jvl_haltBurin]

/-- A doubt of a root leaves the device at the far end of each port. -/
theorem peer_doubtPlate (key code : Nat) (detail : List Byte) : (doubtPlate key code detail s).peer p = s.peer p := by
  have hsum (u : State) : (setSum 1 u).peer p = u.peer p :=
    keeps_of_setSum (State.peer · p) (fun _ _ => rfl) (by decide) u
  have hsend (u : State) : (sendDoubt key u).peer p = u.peer p :=
    each_keeps (State.peer · p) (fun d v => peer_sendTo p v d 0 _) _ u
  have hreport (u : State) : (reportDoubt key code detail u).peer p = u.peer p := by
    unfold reportDoubt
    split
    · rfl
    · exact peer_tell ..
  simp only [doubtPlate]
  rw [peer_pump, peer_stopRoot, hreport, hsend, hsum]
  rfl

end

/-- Two operations of a list that agree wherever a property holds, which they keep, bring about the same. -/
theorem each_congr {α : Type} {P : State → Prop} {f g : α → State → State} (heq : ∀ a s, P s → f a s = g a s)
    (hkeep : ∀ a s, P s → P (g a s)) : ∀ (l : List α) {s : State}, P s → each f l s = each g l s
  | [], _, _ => rfl
  | a :: l, s, hs => by
    rw [each, each, heq a s hs]
    exact each_congr heq hkeep l (hkeep a s hs)

/-- The doubts of several roots over the loss of one link all name the peer of before the first. -/
theorem each_doubtPlate_peer (p code : Nat) (detail : Nat → List Byte) (l : List Nat) (s : State) :
    each (fun k u => doubtPlate k code (detail (u.peer p)) u) l s = each (fun k u => doubtPlate k code (detail (s.peer p)) u) l s :=
  each_congr (P := fun u => u.peer p = s.peer p) (fun k u hu => by rw [hu]) (fun k u hu => (peer_doubtPlate p u k _ _).trans hu) l rfl

end Sys2Proof.Machine
end

section
/-! CONTROL frames (R138, R142, R374), and the frames of a link together. -/

namespace Sys2Proof.Machine

theorem exec_controlFrame (p : JvlPort) (tag : FrameTag) (src len : Nat) (m : ControlBody) (s : State) :
    exec (.controlFrame p tag src len m) s = .next (recvFrame p.val 2 tag (.control src m)
      ((s.jport p.val).feat.testBit 0 && frameLen tag == len && decide (1 ≤ len ∧ len ≤ 8))
      (fun s => if m.dest ≠ s.sys.devnum then relay p.val m.dest 2 (.control src m) s else pump (hear src m.msg s)) s) := by
  rw [Bool.decide_and, ← Bool.and_assoc]
  rfl

/-! ### The two phases of a command (R138) -/

section
variable {s : State} {src id : Nat} {t : Task}

theorem takeAsk_of_mode (h : s.sys.mode ∉ taskModes t) :
    takeAsk src id t s = tell src (.vote id 5 (s.treesUp (taskRoots t))) s := by
  have hmode : (taskModes t).contains s.sys.mode = false := by simpa using h
  simp only [takeAsk, hmode]
  rfl

theorem takeApply_of_mode (h : s.sys.mode ∉ taskModes t) :
    takeApply src id t s = tell src (.confirm id) (announce (unpromise src id s)) := by
  have hmode : (taskModes t).contains (unpromise src id s).sys.mode = false := by simpa [unpromise] using h
  simp only [takeApply, hmode]
  rfl

section
variable (hmode : s.sys.mode ∈ taskModes t)
include hmode

theorem takeAsk_of_failing (h : failing (partReply src id t s).status = true) : takeAsk src id t s =
    tell src (.vote id (partReply src id t s).status (s.treesUp (taskRoots t))) (partReply src id t s).s := by
  simp only [takeAsk, List.contains_iff_mem.mpr hmode, if_true, h]

theorem takeAsk_of_accepted (h : failing (partReply src id t s).status = false) : takeAsk src id t s =
    tell src (.vote id 0 (s.treesUp (taskRoots t))) { s with promises := s.promises ++ [s.promiseOf src id t] } := by
  simp only [takeAsk, List.contains_iff_mem.mpr hmode, if_true, h, Bool.false_eq_true, if_false]

theorem takeApply_of_failing (h : failing (partReply src id t (unpromise src id s)).status = true) :
    takeApply src id t s = tell src (.confirm id) (announce (unpromise src id s)) := by
  have hmode' : (unpromise src id s).sys.mode ∈ taskModes t := hmode
  simp only [takeApply, List.contains_iff_mem.mpr hmode', if_true, h]

theorem takeApply_of_accepted (h : failing (partReply src id t (unpromise src id s)).status = false) :
    takeApply src id t s = tell src (.confirm id) (announce (partReply src id t (unpromise src id s)).s) := by
  have hmode' : (unpromise src id s).sys.mode ∈ taskModes t := hmode
  simp only [takeApply, List.contains_iff_mem.mpr hmode', if_true, h, Bool.false_eq_true, if_false]

end
end

/-! ### Votes and confirmations that nothing waits for -/

theorem firstSome_eq_none {α β : Type} {f : α → Option β} : ∀ {l : List α}, (∀ a ∈ l, f a = none) → firstSome f l = none
  | [], _ => rfl
  | a :: l, h => by
    simp only [firstSome, h a List.mem_cons_self]
    exact firstSome_eq_none fun b hb => h b (List.mem_cons_of_mem a hb)

theorem State.findFlight_eq_none {s : State} {p : WaitFor → Bool}
    (h : ∀ e ∈ s.host.sqs, ∀ f ∈ e.2.flight, p f.wait = false) : s.findFlight p = none := by
  refine firstSome_eq_none fun e he => ?_
  rw [List.find?_eq_none.mpr fun f hf => by simp [h e he f hf]]
  rfl

section
variable {s : State} {src id : Nat}

theorem takeVote_of_unawaited
    (h : ∀ e ∈ s.host.sqs, ∀ f ∈ e.2.flight, ∀ l owed w t, f.wait = .votes id l owed w t → src ∉ owed)
    (status : Nat) (up : Bool) : takeVote src id status up s = s := by
  unfold takeVote
  rw [State.findFlight_eq_none]
  intro e he f hf
  split
  next k l owed w t hwait =>
    by_cases hk : k = id
    · subst hk
      simp [h e he f hf l owed w t hwait]
    · simp [hk]
  next => rfl

theorem takeConfirm_of_unawaited
    (h : ∀ e ∈ s.host.sqs, ∀ f ∈ e.2.flight, ∀ owed r, f.wait = .confirms id owed r → src ∉ owed) :
    takeConfirm src id s = s := by
  unfold takeConfirm
  rw [State.findFlight_eq_none]
  intro e he f hf
  split
  next k owed r hwait =>
    by_cases hk : k = id
    · subst hk
      simp [h e he f hf owed r hwait]
    · simp [hk]
  next => rfl

end

/-! ### Aborts, series and stops (R138, R142) -/

section
variable {s : State} {root : Nat} (src id : Nat)

theorem partReply_abort_of_idle (h : s.running (s.keyOf root) = false) : (partReply src id (.abort root) s).s = s := by
  simp [partReply, h]

theorem partReply_abort_of_running (h : s.running (s.keyOf root) = true) :
    (partReply src id (.abort root) s).s = stopRoot (s.keyOf root) 3 false s := by
  simp [partReply, h]

theorem partReply_series (first count period : Nat) (origin : Stamp) :
    (partReply src id (.series root first count period origin) s).s = addSeries (s.keyOf root)
      (askedSeries first count period (s.coarseOf (stampTicks origin))) ((first + (count - 1)) % 2 ^ 64) s := by
  have hne : (count != 0) = decide (count ≠ 0) := decide_not.symm
  have heq : (count == 0) = decide (count = 0) := rfl
  simp only [partReply, seriesPart, hne, heq]
  rfl

theorem haltPart_of_idle (h : s.running (s.keyOf root) = false) (first : Option Nat) :
    haltPart root first src s = tell src (.stopped root) s := by
  simp [haltPart, h]

end

theorem takeAbove_of_none {s : State} {plate : Nat} (h : s.shadowOf plate = none) (r : RootInfo) : takeAbove plate r s = s := by
  simp only [takeAbove, h]

theorem takeBelow_of_none {s : State} {plate : Nat} (h : s.parentHere plate = none) (t : TreeInfo) : takeBelow plate t s = s := by
  simp only [takeBelow, h]

/-! ### Devices that are lost and come back (R148, R383) -/

section
variable (s : State) (p : Nat) (devs : List Nat)

/-- The devices of a list that this one reaches through a port, and has not counted as lost. -/
def State.newlyLost : List Nat := devs.filter fun d => tget 0xFF s.sys.routes d == p && !s.sys.cutDevs.contains d

/-- A data channel has an endpoint on one of some other devices. -/
def State.channelTo (l : List Nat) (c : Channel) : Bool :=
  c.bound && c.kind == 2 && (c.prods ++ c.cons).any fun x => epDev x != s.sys.devnum && l.contains (epDev x)

theorem loseBeyond_of_none (h : s.newlyLost p devs = []) : loseBeyond p devs s = s := if_pos h

/-- Channels to lost devices are cut, commands lose them, and the roots that span to them meet a doubt. -/
theorem loseBeyond_of_some (h : s.newlyLost p devs ≠ []) : ∃ t, loseBeyond p devs s =
      each (fun r u => doubtPlate r 3 (le 1 p ++ le 1 0 ++ le 2 (t.jport p).peerDev ++ pad 28) u)
        (s.spanRoots.filter fun r => (s.remoteDevs r).any (s.newlyLost p devs).contains) t
    ∧ t = tellLost p (s.newlyLost p devs) (cutPhases (s.newlyLost p devs).contains
        (each cutChan ((s.chans.filter fun e => s.channelTo (s.newlyLost p devs) e.2).map Prod.fst)
          { s with sys := { s.sys with cutDevs := s.sys.cutDevs ++ s.newlyLost p devs } })) := by
  refine ⟨_, ?_, rfl⟩
  refine Eq.trans ?_ (each_doubtPlate_peer p 3 (fun dev => le 1 p ++ le 1 0 ++ le 2 dev ++ pad 28) _ _)
  have hne (x : Nat) : (epDev x != s.sys.devnum) = decide (epDev x ≠ s.sys.devnum) := decide_not.symm
  simp only [State.channelTo, hne]
  exact if_neg h

end

/-! ### The frames together -/

/-- Settles O59: a lemma for each frame and for each message, in the order of the statement. -/
theorem linkFrames : Obligations.LinkFrames := by
  unfold Obligations.LinkFrames
  refine ⟨?arrives, ?relayed, ?payload, ?doubt, ?outside, ?spanning, ?request, ?departs, ?exchange, ?follow, ?reached, ?whole,
    ?control, ?phases, ?parts, ?lost, fun _ => rfl, ?block⟩
  case arrives =>
    intro p vl tag b known f s
    refine ⟨recvFrame_of_inactive, recvFrame_of_bad, recvFrame_of_disordered, fun hact hok hknown hseq => ?_⟩
    rw [recvFrame_of_next hact hok hknown hseq, frameTaken_eq]
    rfl
  case relayed => exact fun p dest vl b s => ⟨fun q => relay_of_route p vl b, relay_of_no_route p vl b⟩
  case payload =>
    intro p tag f s
    refine ⟨?_, exec_hatchCredit p tag f s⟩
    simp only [exec_hatchData, takePayload_eq]
  case doubt => exact fun p tag dest root len s => ⟨rfl, exec_bulkFrame p tag dest len s⟩
  case outside => exact fun src root s => remoteDoubt_of_not_spanning src
  case spanning => exact fun src root s => remoteDoubt_of_spanning src
  case request => exact fun dom s => ⟨exec_tReqSend_of_idle, exec_tReqSend_of_due⟩
  case departs => exact fun p exch ps t2 s => ⟨timeDeparts_tReq p exch ps s, rfl⟩
  case exchange => exact fun p tag exch t2 s => ⟨exec_tReq p tag exch s, exec_tResp p tag exch s t2⟩
  case follow => exact fun p tag exch dev hops tstate parent t3 t4 s => exec_tFollow p tag exch s dev hops tstate parent t3 t4
  case reached => exact fun p tag f s => ⟨timeFrame_of_reached f, timeFrame_of_unreached f⟩
  case whole =>
    intro k dev hops tstate parent t1 t2 t3 t4 s
    refine ⟨exchangeDone_of_missing dev hops tstate parent t3 t4, fun h1 h2 hloop => ?_, fun h1 h2 hpeer => ?_⟩
    · exact (exchangeDone_of_whole dev hops tstate parent t3 t4 h1 h2).trans (if_pos hloop)
    · exact (exchangeDone_of_whole dev hops tstate parent t3 t4 h1 h2).trans (if_neg hpeer)
  case control => exact exec_controlFrame
  case phases =>
    exact fun src id t s => ⟨fun hmode => ⟨takeAsk_of_mode hmode, takeApply_of_mode hmode⟩,
      fun hmode => ⟨takeAsk_of_failing hmode, takeAsk_of_accepted hmode, takeApply_of_failing hmode, takeApply_of_accepted hmode⟩,
      rfl⟩
  case parts =>
    intro src id s
    refine ⟨takeVote_of_unawaited, takeConfirm_of_unawaited, fun root => partReply_abort_of_idle src id,
      fun root => partReply_abort_of_running src id, fun root => partReply_series src id,
      fun root first h => haltPart_of_idle src h first, fun plate r h => takeAbove_of_none h r, fun plate t h => takeBelow_of_none h t, fun root code tick detail h => ?_⟩
    simp [hear, h]
  case lost =>
    intro src p devs s hport
    have hlost : hear src (.lost devs) s = loseBeyond p devs s := by simp only [hear, hport]
    have hback : hear src (.back devs) s = foundBeyond p devs s := by simp only [hear, hport]
    rw [hlost, hback]
    exact ⟨loseBeyond_of_none s p devs, fun h => if_pos h, fun h => if_neg h, loseBeyond_of_some s p devs⟩
  case block =>
    intro p b s
    rw [exec_linkBlock]
    exact ⟨fun h => congrArg _ (if_pos h), fun h => congrArg _ (if_neg (not_not.mpr h))⟩

end Sys2Proof.Machine
end

section
/-! PROOF_RUN (R149, R416, R527, R528). -/

namespace Sys2Proof.Machine

/-! ### What reading the entry leaves -/

section
variable (s : State) (x : HostIf)

theorem domBusy_host (d : Nat) : ({ s with host := x } : State).domBusy d = s.domBusy d := by
  have hroot : (fun b => ({ s with host := x } : State).running (({ s with host := x } : State).rootOf b))
      = fun b => s.running (s.rootOf b) := funext fun b => congrArg s.running (rootOf_host s x b)
  unfold State.domBusy
  rw [hroot]
  rfl

theorem doms_host (p : ProofRun) : p.doms { s with host := x } = p.doms s := by
  simp only [ProofRun.doms, ProofRun.burins, burinsOf_host]

/-- Whether the target of a run is in use does not depend on the host interface. -/
theorem proofBusyOn_host (p : ProofRun) : ({ s with host := x } : State).proofBusyOn p = s.proofBusyOn p := by
  unfold State.proofBusyOn
  simp only [domBusy_host, doms_host, ProofRun.tiles, ProofRun.burins, burinsOf_host, rootOf_host, State.proofCoversDom,
    State.proofCovers]
  rfl

end

/-! ### The request (R416, R527, R528) -/

/-- The free place that a run takes is the lowest. -/
theorem proofSlot_eq_some {s : State} {k : Nat} (hk : k < 4) (hbelow : ∀ j < k, (s.proof j).active = true)
    (hfree : (s.proof k).active = false) : s.proofSlot = some k :=
  List.find?_range_eq_some.mpr ⟨by simp [hfree], List.mem_range.mpr hk, fun j hj => by simp [hbelow j hj]⟩

theorem proofSlot_eq_none {s : State} (h : ∀ k < 4, (s.proof k).active = true) : s.proofSlot = none :=
  List.find?_range_eq_none.mpr fun k hk => by simp [h k hk]

/-- The operands of a run are in rule, and the domains that it needs are On. -/
structure State.TakesProof (s : State) (p : ProofRun) : Prop where
  target : p.kind = 0 ∧ 3 ≤ p.domain ∧ p.domain ≤ 23 ∧ (p.domain = 4 → p.tests.testBit 1 = true → s.sys.mode = .proof)
    ∨ p.kind = 1 ∧ s.cellExists p.cell = true
  some_ : 1 ≤ p.tests
  few : p.tests ≤ 3
  domsOn : ∀ d ∈ p.doms s, s.isOn d = true

theorem State.TakesProof.takeEntry {s : State} {p : ProofRun} (h : s.TakesProof p) (q : Nat) : (takeEntry q s).TakesProof p where
  target := h.target
  some_ := h.some_
  few := h.few
  domsOn := fun d hd => h.domsOn d (by rwa [← doms_host s _ p])

section
variable {s : State} {p : ProofRun}

theorem proofReply_of_outside (hkind : p.kind = 0) (hdom : p.domain < 3 ∨ 23 < p.domain) :
    proofReply p s = { s, status := 2, why := .field 1 } := by
  simp [proofReply, hkind, hdom, Reply.bad, Reply.no]

theorem proofReply_of_untested (hkind : p.kind = 0) (hlo : 3 ≤ p.domain) (hhi : p.domain ≤ 23) (htests : p.tests = 0) :
    proofReply p s = { s, status := 2, why := .field 2 } := by
  simp [proofReply, hkind, htests, not_lt.mpr hlo, not_lt.mpr hhi, Reply.bad, Reply.no]

/-- A run in rule is BUSY where its target is in use or no place is free, and else begins. -/
theorem proofReply_of_takes (h : s.TakesProof p) : proofReply p s =
    if s.proofBusyOn p = true then .busy s
    else s.proofSlot.elim (.busy s) fun k => { s := beginProof k p (joinProof p s), wait := .proof p.id } := by
  have htests : ¬(p.tests = 0 ∨ 3 < p.tests) := by
    have := h.some_; have := h.few
    omega
  have hfind : (p.doms s).find? (fun d => !s.isOn d) = none := List.find?_eq_none.mpr fun d hd => by simp [h.domsOn d hd]
  rcases h.target with ⟨hkind, hlo, hhi, hmem⟩ | ⟨hkind, hcell⟩
  · have hmode : ¬((p.domain = 4 ∧ p.tests.testBit 1 = true) ∧ ¬s.sys.mode = .proof) :=
      fun ⟨⟨h4, ht⟩, hne⟩ => hne (hmem h4 ht)
    cases hslot : s.proofSlot <;> simp [proofReply, hkind, not_lt.mpr hlo, not_lt.mpr hhi, htests, hmode, hfind, hslot]
  · cases hslot : s.proofSlot <;> simp [proofReply, hkind, hcell, htests, hfind, hslot]

theorem proofReply_of_busy (h : s.TakesProof p) (hbusy : s.proofBusyOn p = true ∨ ∀ k < 4, (s.proof k).active = true) :
    proofReply p s = .busy s := by
  rw [proofReply_of_takes h]
  split
  next => rfl
  next hfree => rw [proofSlot_eq_none (hbusy.resolve_left hfree), Option.elim_none]

theorem proofReply_of_free (h : s.TakesProof p) {k : Nat} (hk : k < 4) (hbelow : ∀ j < k, (s.proof j).active = true)
    (hplace : (s.proof k).active = false) (hfree : s.proofBusyOn p = false) :
    proofReply p s = { s := beginProof k p (joinProof p s), wait := .proof p.id } := by
  rw [proofReply_of_takes h, hfree, if_neg Bool.false_ne_true, proofSlot_eq_some hk hbelow hplace, Option.elim_some]

end

/-- A reply with the number of the next request drawn, where it accepts one. -/
def Reply.numbered (r : Reply) : Reply :=
  if failing r.status then r else { r with s := { r.s with nextId := r.s.nextId + 1 } }

section
variable {s : State} {kind domain tests cell : Nat}

/-- The run that a PROOF_RUN asks for. -/
def State.askedProof (s : State) (kind domain tests cell : Nat) : ProofRun := { kind, domain, cell, tests, id := s.nextId }

theorem proofRequest_of_alone (h : kind = 1 → s.isLocal cell = true ∧ s.cellDevs cell = []) :
    proofRequest kind domain tests cell s = (proofReply (s.askedProof kind domain tests cell) s).numbered := by
  simp only [proofRequest]
  split
  next hcell =>
    simp only [Bool.and_eq_true, decide_eq_true_eq] at hcell
    obtain ⟨hl, hd⟩ := h hcell.1
    rw [hd, onCell_of_local hl]
    rfl
  next => rfl

theorem proofRun_ends {h : Hdr} (hs : served (.proofRun h kind domain tests cell) s = true)
    (hd : kind = 1 → s.isLocal cell = true ∧ s.cellDevs cell = []) :
    Ends (.proofRun h kind domain tests cell) s fun t => (proofReply (s.askedProof kind domain tests cell) t).numbered := by
  have hends : Ends (.proofRun h kind domain tests cell) s (proofRequest kind domain tests cell) := ends_of rfl hs rfl
  refine hends.congr fun m _ => proofRequest_of_alone (s := takeEntry m.h.sq.val s) fun hk => ?_
  rw [cellDevs_takeEntry]
  exact hd hk

end

/-- What an accepted run leaves: it has begun at its place, and waits for its end. -/
def runBegun (k : Nat) (p : ProofRun) (s : State) : Reply :=
  let u := beginProof k p (joinProof p s)
  { s := { u with nextId := u.nextId + 1 }, wait := .proof p.id }

theorem proof_beginProof (k : Nat) (p : ProofRun) (s : State) : (beginProof k p s).proof k = { p with active := true } :=
  State.proof_setProof ..

theorem proof_done (m : Mail) (r : Reply) (k : Nat) : (m.done r).proof k = r.s.proof k :=
  same_of_withoutReplies (withoutReplies_done m r) (State.proof · k) fun _ => rfl

/-- A run that has begun stands at its place once the command is in flight. -/
theorem proof_of_ends {c : Instr} {s : State} {k : Nat} {p : ProofRun} {f : State → Reply} (h : Ends c s f)
    (hf : ∀ t, (f t).s.proof k = p) : ∃ t, exec c s = .next t ∧ t.proof k = p := by
  obtain ⟨m, -, hexec⟩ := h
  exact ⟨_, hexec, (proof_done _ _ _).trans (hf _)⟩

end Sys2Proof.Machine
end

section
/-! FAULT_CLEAR (R206, R285, R344, R508, R512, R515), and PROOF_RUN and FAULT_CLEAR together. -/

namespace Sys2Proof.Machine

/-! ### Records with doubts cleared (R512) -/

theorem FaultRec.codes_clear (r : FaultRec) (sel can : Nat → Bool) :
    (r.clear sel can).codes = r.codes.filter fun c => !(sel c && can c) := by
  simp only [FaultRec.clear]
  split
  next h => exact h.symm
  next => rfl

theorem FaultRec.mem_clear (r : FaultRec) (sel can : Nat → Bool) (c : Nat) :
    c ∈ (r.clear sel can).codes ↔ c ∈ r.codes ∧ ¬(sel c = true ∧ can c = true) := by
  rw [FaultRec.codes_clear, List.mem_filter, Bool.not_eq_true', ← Bool.and_eq_true, Bool.not_eq_true]

theorem mem_clearRoot (up : Bool) (s : State) (key c : Nat) :
    c ∈ ((clearRoot up (fun _ => true) key { s }).s.fault key).codes ↔
      c ∈ (s.fault key).codes ∧ s.canClearRoot up key c = false := by
  simp only [clearRoot, State.fault_setFault, FaultRec.mem_clear, true_and, Bool.not_eq_true]

/-! ### What a scope names (R416, R515) -/

theorem allTarget_iff {target : Nat} : allTarget target = true ↔ target = 0xFFFFFFFF := beq_iff_eq

theorem allTarget_of_lt {target : Nat} (h : target < 0xFFFFFFFF) : allTarget target = false :=
  Bool.eq_false_iff.mpr fun ht => absurd (allTarget_iff.mp ht) (Nat.ne_of_lt h)

theorem isSome_ite_some {α : Type} {c : Prop} [Decidable c] (a : α) (o : Option α) :
    (if c then some a else o).isSome = true ↔ c ∨ o.isSome = true := by
  by_cases h : c <;> simp [h]

/-- A target of a scope is all of it, or one thing that the scope has. -/
theorem isSome_clearScope (up : Bool) (s : State) {scope : Nat} (target : Nat) (hscope : scope ≤ 5) :
    (clearScope scope target up s).isSome = true ↔
      target = 0xFFFFFFFF ∨ (scope = 0 ∨ scope = 5) ∧ target = 0
      ∨ scope = 1 ∧ s.cellExists target = true ∧ (s.isLocal target = false ∨ (s.cell (localOf target)).parent = none)
      ∨ scope = 2 ∧ target < 4096 ∨ scope = 3 ∧ 0x200 ≤ target ∧ target < 0x300 ∨ scope = 4 ∧ 0x600 ≤ target ∧ target < 0x608 := by
  obtain rfl | rfl | rfl | rfl | rfl | rfl : scope = 0 ∨ scope = 1 ∨ scope = 2 ∨ scope = 3 ∨ scope = 4 ∨ scope = 5 := by omega
  all_goals simp [clearScope, isSome_ite_some, allTarget_iff]

/-! ### What clears (R206, R285, R344) -/

theorem clearScope_z (up : Bool) (s : State) {z : Nat} (hz : z < 256) : clearScope 3 (0x200 + z) up s = some
    { s := s.setZ z { s.z z with ovc := false, mismatch := false, unownedLatch := false }
      cleared := (if (s.z z).ovc then 1 else 0) + (if (s.z z).mismatch then 1 else 0) } := by
  have hin : (decide (0x200 ≤ 0x200 + z) && decide (0x200 + z < 0x300)) = true := by
    simp only [Bool.and_eq_true, decide_eq_true_eq]
    omega
  simp only [clearScope, allTarget_of_lt (show 0x200 + z < 0xFFFFFFFF by omega), hin, clearZ, Nat.add_sub_cancel_left, Nat.zero_add,
    Bool.false_eq_true, if_false, if_true]

theorem clearScope_storm (up : Bool) {s : State} {ch : Nat} (hch : ch < 4096) (hstorm : (s.chan ch).stormFlag = true)
    (hovf : (s.chan ch).ovfFlag = false) (hcut : (s.chan ch).cut = false) : clearScope 2 ch up s =
      some { s := s.setChan ch { s.chan ch with stormFlag := false, ovfFlag := false, storm := [] }, cleared := 1 } := by
  simp [clearScope, allTarget_of_lt (show ch < 0xFFFFFFFF by omega), hch, clearChan, hstorm, hovf, hcut, Channel.restart]

/-- Clearing the holdover doubt outside holdover clears its flag with it, and no other doubt of the device. -/
theorem clearScope_holdover (up : Bool) {s : State} (h7 : 7 ∈ s.devFault.codes) (hst : s.time.st ≠ .holdover) :
    ∃ x, clearScope 5 0 up s = some x ∧ 7 ∉ x.s.devFault.codes ∧ x.s.time.holdLatch = false
      ∧ ∀ c, c ≠ 7 → (c ∈ x.s.devFault.codes ↔ c ∈ s.devFault.codes) := by
  have hcan : s.canClearDev 7 = true := by simp [State.canClearDev, hst]
  have hhit (c : Nat) : (s.devFault.codes.filter fun k => k == 7 && s.canClearDev k).contains c = decide (c = 7) := by
    by_cases hc : c = 7 <;> simp [hc, h7, hcan]
  have hmem (c : Nat) : c ∈ (s.devFault.clear (· == 7) s.canClearDev).codes ↔ c ∈ s.devFault.codes ∧ c ≠ 7 := by
    rw [FaultRec.mem_clear]
    by_cases hc : c = 7 <;> simp [hc, hcan]
  refine ⟨clearDevice (· == 7) { s }, rfl, ?_⟩
  simp only [clearDevice, hhit]
  simp only [show ¬(11 : Nat) = 7 by decide, show ¬(6 : Nat) = 7 by decide, decide_false, decide_true,
    Bool.false_eq_true, if_false, if_true, true_and]
  exact ⟨fun h => ((hmem 7).mp h).2 rfl, fun c hc => (hmem c).trans (and_iff_left hc)⟩

/-! ### FAULT_CLEAR where no other device is concerned (R416, R515) -/

section
variable (s : State) (x : HostIf)

theorem remoteDevs_host (key : Nat) : ({ s with host := x } : State).remoteDevs key = s.remoteDevs key := by
  unfold State.remoteDevs State.rootDevs
  simp only [tree_host]
  rfl

theorem devsOf_host (roots : List Nat) : ({ s with host := x } : State).devsOf roots = s.devsOf roots := by
  simp only [State.devsOf, remoteDevs_host, rootKey_host]

theorem clearRoots_host (scope target : Nat) : ({ s with host := x } : State).clearRoots scope target = s.clearRoots scope target := by
  have hvia : ({ s with host := x } : State).rootVia (target - 0x600) = s.rootVia (target - 0x600) :=
    funext fun key => congrArg (List.any · (s.beyondPort (target - 0x600))) (remoteDevs_host s x key)
  unfold State.clearRoots
  rw [hvia]
  rfl

end

theorem clearRequest_of_alone {s : State} {scope target : Nat} (h : s.devsOf (s.clearRoots scope target) = []) :
    clearRequest scope target s = faultClearReply scope target true s := by
  simp [clearRequest, h, span]

theorem faultClear_ends {h : Hdr} {s : State} {scope target : Nat} (hs : served (.faultClear h scope target) s = true)
    (hd : s.devsOf (s.clearRoots scope target) = []) :
    Ends (.faultClear h scope target) s (faultClearReply scope target true) := by
  have hends : Ends (.faultClear h scope target) s (clearRequest scope target) := ends_of rfl hs rfl
  refine hends.congr fun m _ => clearRequest_of_alone (s := takeEntry m.h.sq.val s) ?_
  obtain ⟨x, hx, -⟩ := takeEntry_host m.h.sq.val s
  rw [hx, clearRoots_host, devsOf_host, hd]

/-- Completing a command leaves the latches as its meaning left them. -/
theorem latches_done (m : Mail) (r : Reply) : (m.done r).devFault = r.s.devFault ∧ (m.done r).faults = r.s.faults
    ∧ (m.done r).zch = r.s.zch ∧ (m.done r).chans = r.s.chans ∧ (m.done r).time = r.s.time :=
  have hdone := withoutReplies_done m r
  ⟨same_of_withoutReplies hdone State.devFault fun _ => rfl, same_of_withoutReplies hdone State.faults fun _ => rfl,
    same_of_withoutReplies hdone State.zch fun _ => rfl, same_of_withoutReplies hdone State.chans fun _ => rfl,
    same_of_withoutReplies hdone State.time fun _ => rfl⟩

theorem faultClearReply_of_some {s : State} {scope target : Nat} {up : Bool} {x : Cleared} (hscope : scope ≤ 5)
    (hx : clearScope scope target up s = some x) :
    faultClearReply scope target up s = { s := x.s, result := x.cleared + x.left * 2 ^ 32 } := by
  simp only [faultClearReply, if_neg (not_lt.mpr hscope), hx]

theorem faultClearReply_of_none {s : State} {scope target : Nat} {up : Bool} (hscope : scope ≤ 5)
    (hx : clearScope scope target up s = none) : faultClearReply scope target up s = { s, status := 2, why := .field 4 } := by
  simp only [faultClearReply, if_neg (not_lt.mpr hscope), hx]
  rfl

/-- What a clear has cleared stands once the command has completed. -/
theorem latches_of_faultClear {h : Hdr} {s : State} {scope target : Nat} {x : Cleared} (hscope : scope ≤ 5)
    (hends : Ends (.faultClear h scope target) s (faultClearReply scope target true))
    (hx : clearScope scope target true (takeEntry h.sq.val s) = some x) :
    ∃ t, exec (.faultClear h scope target) s = .next t ∧ t.devFault = x.s.devFault ∧ t.faults = x.s.faults ∧ t.zch = x.s.zch
      ∧ t.chans = x.s.chans ∧ t.time = x.s.time := by
  obtain ⟨m, hm, hexec⟩ := hends
  obtain rfl : m.h = h := congrArg Mail.h (Option.some.inj hm).symm
  rw [faultClearReply_of_some hscope hx] at hexec
  exact ⟨_, hexec, latches_done _ _⟩

/-! ### The two commands together -/

/-- Settles O37: the reply of each command under its conditions, read off the state after the entry is taken, and what it
leaves once it has completed. -/
theorem proofAndFaultCommands : Obligations.ProofAndFaultCommands := by
  unfold Obligations.ProofAndFaultCommands
  refine ⟨?run, proof_beginProof, ?clear, fun up s scope target => isSome_clearScope up s target, mem_clearRoot,
    fun up s z => clearScope_z up s, fun up s ch => clearScope_storm up, fun up s => clearScope_holdover up⟩
  case run =>
    intro h kind domain tests cell s hs c p
    refine ⟨fun hkind hdom => ?_, fun hkind hlo hhi htests => ?_, fun htarget hsome hfew hon => ?_⟩
    · exact (proofRun_ends hs (by omega)).congr fun m _ => congrArg Reply.numbered (proofReply_of_outside hkind hdom)
    · exact (proofRun_ends hs (by omega)).congr fun m _ => congrArg Reply.numbered (proofReply_of_untested hkind hlo hhi htests)
    · have htakes : s.TakesProof p := ⟨htarget.imp_right fun ⟨hk, hcell, _⟩ => ⟨hk, hcell⟩, hsome, hfew, hon⟩
      have hends := proofRun_ends hs fun hk => (htarget.resolve_left fun ht => by omega).2.2
      have hbusy (q : Nat) : (takeEntry q s).proofBusyOn p = s.proofBusyOn p := proofBusyOn_host s _ p
      refine ⟨fun hrefused => hends.congr fun m _ => ?_, fun k hk hbelow hplace hfree => ?_⟩
      · exact congrArg Reply.numbered (proofReply_of_busy (htakes.takeEntry _) (hrefused.imp_left (hbusy _).trans))
      · have hbegun : Ends c s (runBegun k p) := hends.congr fun m _ => congrArg Reply.numbered
          (proofReply_of_free (htakes.takeEntry _) hk hbelow hplace ((hbusy _).trans hfree))
        exact ⟨proof_of_ends hbegun fun t => proof_beginProof k p _, hbegun⟩
  case clear =>
    intro h scope target s hs hscope hd
    have hends := faultClear_ends hs hd
    refine ⟨fun x => latches_of_faultClear hscope hends, hends.congr fun m _ => ?_⟩
    cases hx : clearScope scope target true (takeEntry m.h.sq.val s) with
    | none => exact faultClearReply_of_none hscope hx
    | some x => exact faultClearReply_of_some hscope hx

end Sys2Proof.Machine
end

section
/-! One tick (R150, R183, R328, R356, R366): what the samples, the output paths and the serial ports change, and what a
tick leaves alone where nothing falls due. -/

namespace Sys2Proof.Machine

/-! ### Tables -/

theorem all_tset {α : Type} [DecidableEq α] {d v : α} {m : Tab α} {p : Nat × α → Bool} {k : Nat} (hv : p (k, v) = true)
    (hm : m.all p = true) : (tset d m k v).all p = true := by
  unfold tset
  split
  · exact all_tdel p k m hm
  · exact all_tins p k v m hv hm

/-- What holds of the default and of every entry holds of every read. -/
theorem tget_of_all {α : Type} {d : α} {p : α → Bool} (hd : p d = true) (k : Nat) :
    ∀ {m : Tab α}, (m.all fun e => p e.2) = true → p (tget d m k) = true
  | [], _ => hd
  | (j, v) :: m, hm => by
    rw [List.all_cons, Bool.and_eq_true] at hm
    unfold tget
    split
    · exact hm.1
    · exact tget_of_all hd k hm.2

/-! ### The samples of ports (R150–R154, R165, R179) -/

/-- No port waits for a swap of its banks (R169). -/
def State.portsSettled (s : State) : Bool := s.ports.all fun e => e.2.banks.swap.isNone

theorem State.portsSettled_setPort {s : State} (h : s.portsSettled = true) {k : Nat} {v : Port}
    (hv : v.banks = (s.port k).banks) : (s.setPort k v).portsSettled = true := by
  refine all_tset ?_ h
  rw [hv]
  exact tget_of_all (p := fun q : Port => q.banks.swap.isNone) rfl k h

/-- `t` is `s` but for samples of tones and ports, and no port has come to wait for a swap. -/
def State.SamplesFrom (s t : State) : Prop :=
  (∃ tones ports, t = { s with tones, ports }) ∧ (s.portsSettled = true → t.portsSettled = true)

section
variable {s t : State} (h : s.SamplesFrom t)
include h

theorem State.SamplesFrom.setTone (k : Nat) (v : Tone) : s.SamplesFrom (t.setTone k v) := by
  obtain ⟨⟨tones, ports, rfl⟩, hp⟩ := h
  exact ⟨⟨_, _, rfl⟩, hp⟩

/-- A port's samples and counters change, its banks do not. -/
theorem State.SamplesFrom.setPort {k : Nat} {v : Port} (hv : v.banks = (t.port k).banks) : s.SamplesFrom (t.setPort k v) := by
  refine ⟨?_, fun hs => State.portsSettled_setPort (h.2 hs) hv⟩
  obtain ⟨⟨tones, ports, rfl⟩, -⟩ := h
  exact ⟨_, _, rfl⟩

theorem State.SamplesFrom.sumTones (p tick : Nat) : s.SamplesFrom (sumTones p tick t) := by
  refine State.SamplesFrom.setPort (each_invariant (P := s.SamplesFrom) (fun o u hu => ?_) _ h) rfl
  split
  · exact hu
  · exact hu.setTone ..

theorem State.SamplesFrom.portTick (p tick : Nat) : s.SamplesFrom (portTick p tick t) :=
  h.setPort rfl

end

theorem synthTick_samplesFrom (s : State) : s.SamplesFrom (synthTick s) := by
  refine each_invariant (P := s.SamplesFrom) (fun p t h => State.SamplesFrom.portTick ?_ p _) _ ⟨⟨_, _, rfl⟩, id⟩
  split
  · exact h.sumTones ..
  · exact h

theorem synthTick_of_no_ports {s : State} (h : s.ports = []) : synthTick s = s := by
  rw [synthTick, h]
  rfl

/-! ### The output paths of Z channels (R183–R198) -/

theorem zTick_eq (z tick : Nat) (s : State) : ∃ zch zctr, zTick z tick s = { s with zch, zctr } := by
  unfold zTick
  dsimp only
  split <;> split <;> exact ⟨_, _, rfl⟩

theorem zTicks_eq (s : State) : ∃ zch zctr, zTicks s = { s with zch, zctr } := by
  refine each_invariant (P := fun t => ∃ zch zctr, t = { s with zch, zctr }) (fun z t h => ?_) _ ⟨_, _, rfl⟩
  obtain ⟨_, _, rfl⟩ := h
  exact zTick_eq ..

theorem zTicks_of_no_channels {s : State} (h : s.zch = []) : zTicks s = s := by
  rw [zTicks, h]
  rfl

/-! ### The serial ports (R366, R384) -/

/-- `t` is `s` but for the serial ports and the instants that the time domains keep. -/
def State.SendsFrom (s t : State) : Prop :=
  ∃ jvl domA domB, t = { s with jvl, time := { s.time with domA, domB } }

section
variable {s t : State} (h : s.SendsFrom t)
include h

theorem State.SendsFrom.setJport (p : Nat) (j : Jvl) : s.SendsFrom (t.setJport p j) := by
  obtain ⟨_, _, _, rfl⟩ := h
  exact ⟨_, _, _, rfl⟩

theorem State.SendsFrom.setTdom (k : Nat) (d : TimeDom) : s.SendsFrom (t.setTdom k d) := by
  obtain ⟨_, _, _, rfl⟩ := h
  unfold State.setTdom
  split <;> exact ⟨_, _, _, rfl⟩

theorem State.SendsFrom.sendFrame (p vl : Nat) (b : FrameBody) : s.SendsFrom (sendFrame p vl b t) := by
  obtain ⟨j, hj⟩ := sendFrame_eq p vl b t
  obtain ⟨_, _, _, rfl⟩ := h
  exact ⟨j, _, _, hj⟩

/-- A departing TIME frame stamps a domain's exchange or sends what follows it; every other frame does neither. -/
theorem State.SendsFrom.timeDeparts (p : Nat) (ps : Int) (b : FrameBody) : s.SendsFrom (timeDeparts p ps b t) := by
  cases b with
  | tReq exch => rw [timeDeparts_tReq]; exact (h.setTdom ..).setTdom ..
  | tResp exch t2 => exact h.sendFrame ..
  | _ => exact h

theorem State.SendsFrom.lineTick (p : Nat) : s.SendsFrom (lineTick p t) := by
  unfold Machine.lineTick
  dsimp only
  split
  · exact h
  · exact each_invariant (P := s.SendsFrom) (fun b u hu => hu.timeDeparts ..) _ (h.setJport ..)

end

theorem lineTicks_sendsFrom (s : State) : s.SendsFrom (lineTicks s) :=
  each_invariant (P := s.SendsFrom) (fun p _ h => h.lineTick p) _ ⟨_, _, _, rfl⟩

theorem lineTicks_of_off {s : State} (h : s.isOn 3 = false) : lineTicks s = s := by
  refine each_invariant (P := (· = s)) (fun p t ht => ?_) _ rfl
  rw [ht, lineTick, h]
  rfl

/-! ### Where nothing falls due -/

theorem labelTick_counts {t : TimeKeeper} (h : t.tick < 20000000000) : ∃ sec tick, labelTick t = { t with sec, tick }
    ∧ sec * 20000000000 + tick = t.sec * 20000000000 + t.tick + 1 ∧ tick < 20000000000 := by
  unfold labelTick ticksPerSec
  split
  · exact ⟨_, _, rfl, by omega, by omega⟩
  · exact ⟨_, _, rfl, by omega, by omega⟩

theorem raiseTrigs_of_none {s : State} (h : s.mark.trigDue = []) : raiseTrigs s = s := if_pos h

theorem trigEvents_of_none {s : State} (h : s.sys.trigDue = []) : trigEvents s = s := if_pos (by rw [h]; rfl)

theorem stepDue_of_none {s : State} (h : s.time.stepPend = none) : stepDue s = s := by
  rw [stepDue, h]

theorem resetDue_of_none {s : State} (h : s.sys.resetAt = none) : resetDue s = s := by
  rw [resetDue, h]

theorem each_of_none_picked {α : Type} (f : Nat → State → State) {m : Tab α} {q : Nat × α → Bool} {s : State}
    (h : ∀ e ∈ m, q e = false) : each f (tkeys (m.filter q)) s = s := by
  rw [List.filter_eq_nil_iff.mpr fun e he => by simp [h e he]]
  rfl

/-- Where no bank pair waits for a swap there is none to carry out (R169, R196, R225, R249). -/
theorem swapsDue_of_settled {s : State} (hports : s.portsSettled = true)
    (hz : (s.zbanks.all fun e => e.2.swap.isNone) = true)
    (hro : (s.ro.all fun e => e.2.firSwap.isNone && e.2.kerSwap.isNone) = true) : swapsDue s = s := by
  simp only [State.portsSettled, List.all_eq_true, Bool.and_eq_true, Option.isNone_iff_eq_none] at hports hz hro
  unfold swapsDue swapWhere
  dsimp only
  rw [each_of_none_picked swapPort fun e he => by rw [hports e he],
    each_of_none_picked swapZ fun e he => by rw [hz e he],
    each_of_none_picked swapFir fun e he => by rw [(hro e he).1],
    each_of_none_picked swapKernel fun e he => by rw [(hro e he).2]]

theorem raiseCaptures_of_none {s : State} (h : (s.engines.all fun e => e.2.evAt.isNone) = true) :
    each raiseCapture (tkeys (s.engines.filter fun e => e.2.evAt.isSome)) s = s :=
  each_of_none_picked raiseCapture fun e he => by
    rw [Option.isNone_iff_eq_none.mp (List.all_eq_true.mp h e he)]
    rfl

/-- Nothing falls due at the tick that begins: no named step of time, device reset, marker or capture event, no swap. -/
structure State.NothingDue (s : State) : Prop where
  noStep : s.time.stepPend = none
  noReset : s.sys.resetAt = none
  noMarkTrig : s.mark.trigDue = []
  noTrig : s.sys.trigDue = []
  noCapture : (s.engines.all fun e => e.2.evAt.isNone) = true
  noPortSwap : s.portsSettled = true
  noZSwap : (s.zbanks.all fun e => e.2.swap.isNone) = true
  noRoSwap : (s.ro.all fun e => e.2.firSwap.isNone && e.2.kerSwap.isNone) = true

/-- The counts go on, and all else stays. -/
theorem dueEvents_of_nothingDue {s : State} (h : s.NothingDue) :
    (let t := resetDue (swapsDue (stepDue (trigEvents s)))
     each raiseCapture (tkeys (t.engines.filter fun e => e.2.evAt.isSome)) t) = s := by
  rw [trigEvents_of_none h.noTrig, stepDue_of_none h.noStep, swapsDue_of_settled h.noPortSwap h.noZSwap h.noRoSwap,
    resetDue_of_none h.noReset]
  exact raiseCaptures_of_none h.noCapture

/-! ### The tick -/

/-- What the samples, the output paths and the serial ports of a tick change, one after another. -/
theorem settledTick_eq (s : State) : ∃ domA domB tones ports zch zctr jvl,
    lineTicks (zTicks (synthTick s)) = { s with time := { s.time with domA, domB }, tones, ports, zch, zctr, jvl }
      ∧ (s.portsSettled = true → (ports.all fun e => e.2.banks.swap.isNone) = true)
      ∧ (s.ports = [] → tones = s.tones ∧ ports = []) ∧ (s.zch = [] → zch = [] ∧ zctr = s.zctr)
      ∧ (s.isOn 3 = false → jvl = s.jvl ∧ domA = s.time.domA ∧ domB = s.time.domB) := by
  obtain ⟨⟨tones, ports, hsynth⟩, hsettled⟩ := synthTick_samplesFrom s
  obtain ⟨zch, zctr, hpaths⟩ := zTicks_eq (synthTick s)
  obtain ⟨jvl, domA, domB, hlines⟩ := lineTicks_sendsFrom (zTicks (synthTick s))
  refine ⟨domA, domB, tones, ports, zch, zctr, jvl, ?_, ?_, fun h => ?_, fun h => ?_, fun h => ?_⟩
  · rw [hlines, hpaths, hsynth]
  · rwa [hsynth] at hsettled
  · rw [synthTick_of_no_ports h] at hsynth
    exact ⟨(congrArg State.tones hsynth).symm, (congrArg State.ports hsynth).symm.trans h⟩
  · rw [hsynth, zTicks_of_no_channels (by exact h)] at hpaths
    exact ⟨(congrArg State.zch hpaths).symm.trans h, (congrArg State.zctr hpaths).symm⟩
  · rw [hpaths, hsynth, lineTicks_of_off (by exact h)] at hlines
    exact ⟨(congrArg State.jvl hlines).symm, (congrArg (·.time.domA) hlines).symm, (congrArg (·.time.domB) hlines).symm⟩

/-- Settles O2: what the tick's samples change, as `settledTick_eq` has it; then the counts go on and nothing falls due. -/
theorem tickAdvancesTime : Obligations.TickAdvancesTime := by
  unfold Obligations.TickAdvancesTime
  intro s hpend hstep hreset hmark htrig hengines hports hz hro htick
  obtain ⟨domA, domB, tones, ports, zch, zctr, jvl, hsamples, hsettled, hkept⟩ := settledTick_eq s
  obtain ⟨sec, tick, hlabel, hcount, hlt⟩ := labelTick_counts (t := { s.time with domA, domB }) htick
  refine ⟨sec, tick, domA, domB, tones, ports, zch, zctr, jvl, ?_, hcount, hlt, hkept⟩
  have hdue : ({ s with
      now := s.now + 1, time := { s.time with sec, tick, domA, domB }, tones, ports, zch, zctr, jvl } : State).NothingDue :=
    ⟨hstep, hreset, hmark, htrig, hengines, hsettled hports, hz, hro⟩
  have hidle : step s = .next (idleTick s) := by rw [step, hpend]
  rw [hidle, idleTick, raiseTrigs_of_none hmark, hsamples, hlabel]
  exact congrArg _ (dueEvents_of_nothingDue hdue)

end Sys2Proof.Machine
end

section
/-! SEGMENT_LOAD and FILTER_LOAD: the bank that is not in use, and its swap (R166–R171, R196, R221–R225, R248, R249,
R422). -/

namespace Sys2Proof.Machine

/-! ### Bank pairs (R166) -/

theorem Banks.inPlay_setIdle (b : Banks) (k : Bank) : (b.setIdle k).inPlay = b.inPlay := by
  unfold Banks.setIdle
  split <;> rfl

/-- The bank in play stays, the other one is the one put in. -/
theorem Banks.bank_setIdle {b : Banks} (h : b.inPlay ≤ 1) (k : Bank) :
    (b.setIdle k).bank b.inPlay = b.bank b.inPlay ∧ (b.setIdle k).bank (1 - b.inPlay) = k := by
  unfold Banks.setIdle
  split
  · next h0 => rw [h0]; exact ⟨rfl, rfl⟩
  · next h0 =>
    obtain h1 : b.inPlay = 1 := by omega
    rw [h1]; exact ⟨rfl, rfl⟩

/-! ### What reading the entry leaves -/

section
variable (q : Nat) (s : State)

theorem ownsPort_takeEntry (key p : Nat) : (takeEntry q s).ownsPort key p = s.ownsPort key p := by
  have hres : (takeEntry q s).rootRes key = s.rootRes key := by
    unfold State.rootRes State.rootBurins
    rw [burinsOf_takeEntry]
    rfl
  rw [State.ownsPort, hres]
  rfl

theorem resRoot_takeEntry (res : Nat) : (takeEntry q s).resRoot res = s.resRoot res :=
  congrArg (Option.map · (s.owner res)) (funext fun b => rootOf_host s _ b)

end

/-! ### The root of a resource's owner, which the read-out settings leave -/

theorem upFrom_setRot (s : State) (k : Nat) (v : RoTone) (n loc : Nat) : (s.setRot k v).upFrom n loc = s.upFrom n loc := by
  induction n generalizing loc with
  | zero => rfl
  | succ n ih =>
    unfold State.upFrom
    rw [funext ih]
    rfl

theorem resRoot_setRot (s : State) (k : Nat) (v : RoTone) (res : Nat) : (s.setRot k v).resRoot res = s.resRoot res := by
  have hroot : (s.setRot k v).rootOf = s.rootOf := funext fun loc => by
    unfold State.rootOf State.upChain
    rw [upFrom_setRot]
    rfl
  unfold State.resRoot
  rw [hroot]
  rfl

/-! ### When a swap takes place (R169, R225) -/

section
variable {s : State} {k : Nat}

theorem swapPlan_of_stopped (h : s.running k = false) : s.swapPlan (some k) = none := by
  simp [State.swapPlan, h]

/-- A running root's swap waits for the origin of the next series it has. -/
theorem swapPlan_of_series (h : s.running k = true) {r : Series} {rest : List Series} (hr : (s.root k).series = r :: rest) :
    s.swapPlan (some k) = some ({ root := k, after := (s.root k).starts }, r.origin) := by
  simp [State.swapPlan, h, hr]

end

/-- The answer of a load that has written its bank: without SWAP all ones; with it the origin that the armed swap waits
for, or, where the banks have swapped at once, the present coarse count. -/
def swapReply (swap : Bool) (plan : Option (Swap × Nat)) (written swapped : State) (armed : Swap → State) : Reply :=
  if !swap then { s := written, result := noSwap }
  else match plan with
    | some (w, origin) => { s := armed w, result := origin % 2 ^ 48 }
    | none => { s := swapped, result := written.coarse }

theorem swapReply_at_once {written : State} {now : Nat} (h : written.now = now) (swapped : State) (armed : Swap → State) :
    swapReply true none written swapped armed = { s := swapped, result := now % 2 ^ 48 } := by
  rw [← h]
  rfl

theorem now_setBanks (p : Nat) (b : Banks) (s : State) : (setBanks p b s).now = s.now := by
  unfold setBanks
  split <;> rfl

/-- A source that is aligned and, where anything is read, lies in staging. -/
theorem srcOk_of_aligned {src n : Nat} (h : src % 64 = 0) (hin : n ≠ 0 → inStaging src n = true) : srcOk src n = true := by
  rcases eq_or_ne n 0 with rfl | hn
  · simp [srcOk, h]
  · simp [srcOk, h, hin hn]

/-! ### SEGMENT_LOAD (R167–R171, R196) -/

/-- Package-memory words of samples that a SEGMENT_LOAD reads: two samples of a quadrant to a word. -/
def segWords (a : SegLoadArgs) : Nat := if isQuad a.port then a.sCount / 2 else a.sCount

/-- Bytes that it reads. -/
def segBytes (a : SegLoadArgs) : Nat := 4 * segWords a + 8 * a.gCount + 8 * a.pCount

/-- A SEGMENT_LOAD in rule, whose domains are On and not under proof, and whose bank pair is free. -/
structure State.TakesSegments (s : State) (a : SegLoadArgs) (gs : List SegE) (ps : List StepE) : Prop where
  inRange : segLoadRange a = none
  staged : srcOk a.src (segBytes a) = true
  portOn : s.isOn (loadDom a.port) = true
  untested : s.testing (loadDom a.port) = false
  memOn : s.isOn 4 = true
  drained : (s.pair a.port).draining = false
  unarmed : (s.pair a.port).swap = none
  good : s.poisoned a.src (segBytes a) = false
  segs : readItems (readSeg s) 8 (a.src + 4 * segWords a) a.gCount = some gs
  steps : readItems (readStep s) 8 (a.src + 4 * segWords a + 8 * a.gCount) a.pCount = some ps

theorem State.TakesSegments.takeEntry {s : State} {a : SegLoadArgs} {gs : List SegE} {ps : List StepE}
    (h : s.TakesSegments a gs ps) (q : Nat) : (takeEntry q s).TakesSegments a gs ps where
  inRange := h.inRange
  staged := h.staged
  portOn := h.portOn
  untested := h.untested
  memOn := h.memOn
  drained := h.drained
  unarmed := h.unarmed
  good := h.good
  segs := h.segs
  steps := h.steps

theorem segLoadRange_eq_none {a : SegLoadArgs}
    (hport : a.port < 32 ∨ (0x100 ≤ a.port ∧ a.port < 0x110) ∨ (0x200 ≤ a.port ∧ a.port < 0x204))
    (hs : a.sFirst + a.sCount ≤ 131072) (hquad : isQuad a.port = true → a.sFirst % 2 = 0 ∧ a.sCount % 2 = 0 ∧ a.pCount = 0)
    (hg : a.gFirst + a.gCount ≤ 256) (hp : a.pFirst + a.pCount ≤ 1024) : segLoadRange a = none := by
  have hok : loadPortOk a.port = true := by simpa [loadPortOk, or_assoc] using hport
  have hs' := not_lt.mpr hs
  have hg' := not_lt.mpr hg
  have hp' := not_lt.mpr hp
  cases hq : isQuad a.port with
  | false => simp [segLoadRange, hok, hq, hs', hg', hp']
  | true =>
    obtain ⟨hfirst, hcount, hsteps⟩ := hquad hq
    simp [segLoadRange, hok, hq, hs', hg', hfirst, hcount, hsteps, (le_self_add.trans hp : a.pFirst ≤ 1024)]

/-- The bank pair with what the command loads in its idle bank. -/
def loadedBanks (a : SegLoadArgs) (gs : List SegE) (ps : List StepE) (s : State) : Banks :=
  let b := s.pair a.port
  b.setIdle ((b.bank (1 - b.inPlay)).load (if isQuad a.port then a.sFirst / 2 else a.sFirst)
    ((s.wordsAt a.src (segWords a)).map (BitVec.ofNat 32)) a.gFirst gs a.pFirst ps)

section
variable {s : State} {a : SegLoadArgs} {gs : List SegE} {ps : List StepE} (h : s.TakesSegments a gs ps)
include h

/-- A load in rule puts what it reads into the idle bank; its SWAP is the one thing left to decide. -/
theorem segmentLoadReply_eq (hroot : a.swap = true → s.namesRoot a.root = true ∧ s.ownsPort (s.keyOf a.root) a.port = true) :
    segmentLoadReply a s =
      let t := setBanks a.port (loadedBanks a gs ps s) s
      swapReply a.swap (s.swapPlan (some (s.keyOf a.root))) t
        (if isQuad a.port then swapZ (a.port - 0x200) t else swapPort a.port t)
        fun w => setBanks a.port { loadedBanks a gs ps s with swap := some w } s := by
  obtain ⟨hrange, hsrc, hon, htest, hmem, hdrain, hunarmed, hgood, hsegs, hsteps⟩ := h
  have hnames : (a.swap && !(s.namesRoot a.root && s.ownsPort (s.keyOf a.root) a.port)) = false := by
    cases hs : a.swap with
    | false => rfl
    | true => rw [(hroot hs).1, (hroot hs).2]; rfl
  unfold segBytes segWords at *
  simp only [segmentLoadReply, hrange, hnames, hsrc, hon, htest, hmem, hdrain, hunarmed, hgood, hsegs, hsteps, Bool.not_true,
    Bool.false_eq_true, if_false, Option.isSome_none, Bool.or_self]
  rfl

end

/-- A SEGMENT_LOAD in rule loads the idle bank; what its swap waits for can be read before the entry is taken. -/
theorem segmentLoad_ends {h : Hdr} {a : SegLoadArgs} {s : State} {gs : List SegE} {ps : List StepE}
    (hs : served (.segmentLoad h a) s = true) (hin : s.TakesSegments a gs ps)
    (hroot : a.swap = true → s.namesRoot a.root = true ∧ s.ownsPort (s.keyOf a.root) a.port = true) :
    Ends (.segmentLoad h a) s fun t =>
      let u := setBanks a.port (loadedBanks a gs ps t) t
      swapReply a.swap (s.swapPlan (some (s.keyOf a.root))) u
        (if isQuad a.port then swapZ (a.port - 0x200) u else swapPort a.port u)
        fun w => setBanks a.port { loadedBanks a gs ps t with swap := some w } t := by
  have hends : Ends (.segmentLoad h a) s (segmentLoadReply a) := ends_of rfl hs rfl
  refine hends.congr fun m _ => segmentLoadReply_eq (hin.takeEntry _) fun hswap => ?_
  rw [ownsPort_takeEntry]
  exact hroot hswap

/-! ### FILTER_LOAD (R221–R225, R248, R249) -/

/-- Package-memory words of a FIR bank and of a kernel bank. -/
def filterWords (what : Nat) : Nat := if what = 0 then 65 else 1024

/-- A target of a FILTER_LOAD with the key of its settings and its acquisition port: a read-out tone, or a stipple port,
which has no kernel. -/
def FilterTarget (target i nn what : Nat) : Prop :=
  (target = 0x1000 + i ∧ i < 256 ∧ nn = i / 16 ∧ what ≤ 1) ∨ (target = 0x3000 + nn ∧ nn < 16 ∧ i = 0x100 + nn ∧ what = 0)

/-- A FILTER_LOAD in rule, whose domains are On and not under proof, and whose bank is not in use. -/
structure State.TakesFilter (s : State) (i nn what bank src : Nat) (f : Fir) : Prop where
  bankNum : bank ≤ 1
  staged : srcOk src (4 * filterWords what) = true
  portOn : s.isOn (inDom nn) = true
  untested : s.testing (inDom nn) = false
  memOn : s.isOn 4 = true
  unused : (s.rot i).bankUsed what bank = false
  noFirSwap : (s.rot i).firSwap = none
  noKerSwap : (s.rot i).kerSwap = none
  good : s.poisoned src (4 * filterWords what) = false
  coeffs : (if what = 0 then firOfWords (s.wordsAt src (filterWords what)) else some {}) = some f

theorem State.TakesFilter.takeEntry {s : State} {i nn what bank src : Nat} {f : Fir}
    (h : s.TakesFilter i nn what bank src f) (q : Nat) : (takeEntry q s).TakesFilter i nn what bank src f where
  bankNum := h.bankNum
  staged := h.staged
  portOn := h.portOn
  untested := h.untested
  memOn := h.memOn
  unused := h.unused
  noFirSwap := h.noFirSwap
  noKerSwap := h.noKerSwap
  good := h.good
  coeffs := by rw [wordsAt_takeEntry]; exact h.coeffs

/-- The target's key, whether it is a stipple port, its acquisition port, and what it can hold. -/
theorem FilterTarget.key {target i nn what : Nat} (h : FilterTarget target i nn what) :
    ∃ stip, filterKey target = some (i, stip) ∧ (if stip then i - 0x100 else i / 16) = nn
      ∧ (1 < what || (what = 1 && stip)) = false := by
  rcases h with ⟨rfl, hi, rfl, hwhat⟩ | ⟨rfl, hn, rfl, rfl⟩
  · refine ⟨false, ?_, rfl, by simpa using hwhat⟩
    simp only [filterKey, Nat.add_sub_cancel_left]
    exact if_pos (by simp; omega)
  · refine ⟨true, ?_, by simp, rfl⟩
    simp only [filterKey, Nat.add_sub_cancel_left]
    exact (if_neg (by simp; omega)).trans (if_pos (by simp; omega))

/-- The state with what the command loads in the bank that it names. -/
def loadedFilter (i what bank src : Nat) (f : Fir) (s : State) : State :=
  s.setRot i ((s.rot i).putBank what bank f (kerOfWords (s.wordsAt src (filterWords what))))

/-- A swap of the FIR or of the kernel banks is armed. -/
def armFilter (i what : Nat) (w : Swap) (s : State) : State :=
  s.setRot i (if what = 0 then { s.rot i with firSwap := some w } else { s.rot i with kerSwap := some w })

/-- A load in rule puts what it reads into the bank; its SWAP is the one thing left to decide. -/
theorem filterLoadReply_eq {s : State} {target i nn what bank src : Nat} {f : Fir} (ht : FilterTarget target i nn what)
    (h : s.TakesFilter i nn what bank src f) (swap : Bool) :
    filterLoadReply target what bank swap src s =
      let t := loadedFilter i what bank src f s
      swapReply swap (s.swapPlan (s.resRoot target)) t (if what = 0 then swapFir i t else swapKernel i t)
        fun w => armFilter i what w t := by
  obtain ⟨stip, hkey, hport, hwhat⟩ := ht.key
  obtain ⟨hbank, hsrc, hon, htest, hmem, hunused, hfir, hker, hgood, hcoeffs⟩ := h
  unfold filterWords at *
  simp only [filterLoadReply, hkey, hport, hwhat, not_lt.mpr hbank, hsrc, hon, htest, hmem, hunused, hfir, hker, hgood, hcoeffs,
    resRoot_setRot, Bool.not_true, Bool.false_eq_true, if_false, Option.isSome_none, Bool.or_self]
  rfl

/-- A FILTER_LOAD in rule loads the bank it names; what its swap waits for can be read before the entry is taken. -/
theorem filterLoad_ends {h : Hdr} {s : State} {target i nn what bank src : Nat} {swap : Bool} {f : Fir}
    (hs : served (.filterLoad h target what bank swap src) s = true) (ht : FilterTarget target i nn what)
    (hin : s.TakesFilter i nn what bank src f) :
    Ends (.filterLoad h target what bank swap src) s fun t =>
      let u := loadedFilter i what bank src f t
      swapReply swap (s.swapPlan (s.resRoot target)) u (if what = 0 then swapFir i u else swapKernel i u)
        fun w => armFilter i what w u := by
  have hends : Ends (.filterLoad h target what bank swap src) s (filterLoadReply target what bank swap src) :=
    ends_of rfl hs rfl
  refine hends.congr fun m _ => (filterLoadReply_eq ht (hin.takeEntry _) swap).trans ?_
  rw [resRoot_takeEntry]
  rfl

/-- Settles O26: the answers of the two loads by what their swap waits for, and the banks of a pair. -/
theorem bankLoadsFillTheIdleBank : Obligations.BankLoadsFillTheIdleBank := by
  unfold Obligations.BankLoadsFillTheIdleBank
  refine ⟨?segments, fun b k hb => ⟨(Banks.bank_setIdle hb k).1, (Banks.bank_setIdle hb k).2, b.inPlay_setIdle k⟩, ?filter⟩
  case segments =>
    intro h a s gs ps hs quad words n hport hsamples hquad hsegs hsteps halign hstaging hon htest hmem hdrain hswap hgood
      hgs hps b first full
    have hin : s.TakesSegments a gs ps :=
      ⟨segLoadRange_eq_none hport hsamples hquad hsegs hsteps, srcOk_of_aligned halign hstaging, hon,
        htest, hmem, hdrain, hswap, hgood, hgs, hps⟩
    refine ⟨fun hno => ?_, fun hyes hnames howns hstopped => ?_, fun r rest hyes hnames howns hruns hseries => ?_⟩
    · exact (segmentLoad_ends hs hin fun hyes => by simp [hno] at hyes).congr fun m _ => by rw [hno]; rfl
    · exact (segmentLoad_ends hs hin fun _ => ⟨hnames, howns⟩).congr fun m _ => by
        rw [hyes, swapPlan_of_stopped hstopped]; exact swapReply_at_once (now_setBanks ..) ..
    · exact (segmentLoad_ends hs hin fun _ => ⟨hnames, howns⟩).congr fun m _ => by
        rw [hyes, swapPlan_of_series hruns hseries]; rfl
  case filter =>
    intro h target i nn what bank src swap f s hs ht hbank halign hstaging hon htest hmem hunused hfir hker hgood hcoeffs
      hkernel full
    have hcoeffs' : (if what = 0 then firOfWords (s.wordsAt src (filterWords what)) else some {}) = some f := by
      unfold filterWords
      split
      · next h0 => exact hcoeffs h0
      · next h0 => rw [hkernel (by omega)]
    have hin : s.TakesFilter i nn what bank src f :=
      ⟨hbank, srcOk_of_aligned halign fun _ => hstaging, hon, htest, hmem, hunused, hfir, hker, hgood, hcoeffs'⟩
    have hends := filterLoad_ends hs ht hin
    refine ⟨fun hno => ?_, fun hyes hroot => ?_, fun k r rest hyes hroot hruns hseries => ?_⟩
    · exact hends.congr fun m _ => by rw [hno]; rfl
    · exact hends.congr fun m _ => by rw [hyes, hroot]; exact swapReply_at_once rfl ..
    · exact hends.congr fun m _ => by
        rw [hyes, hroot, swapPlan_of_series hruns hseries]; rfl

end Sys2Proof.Machine
end

section
/-! STREAM_OPEN, STREAM_CLOSE and ALIGN (R232–R235, R415, R423). -/

namespace Sys2Proof.Machine

/-! ### What reading the entry leaves -/

theorem rootRes_takeEntry (q : Nat) (s : State) (key : Nat) : (takeEntry q s).rootRes key = s.rootRes key := by
  unfold State.rootRes State.rootBurins
  rw [burinsOf_takeEntry]
  rfl

theorem toneCellRuns_takeEntry (q : Nat) (s : State) : (takeEntry q s).toneCellRuns = s.toneCellRuns := by
  unfold State.toneCellRuns
  simp only [rootRes_takeEntry]
  rfl

/-! ### STREAM_OPEN and STREAM_CLOSE (R232, R233) -/

section
variable {src : Nat} (hsrc : sourceOk src = true)
include hsrc

/-- Onto an enabled ring only a stream that is open already is not opened. -/
theorem streamOpenReply_eq {ring : Nat} {t : State} (hring : ring < 64) (hdev : (t.ring ring).dev = true) :
    streamOpenReply src ring t =
      if (t.stream src).open_ then .busy t else { s := t.setStream src { open_ := true, ring } } := by
  simp only [streamOpenReply, hsrc, hdev, not_le.mpr hring, decide_false, Bool.not_true, Bool.or_self, Bool.false_eq_true,
    if_false]

theorem streamCloseReply_eq (t : State) :
    streamCloseReply src t = if (t.stream src).open_ then { s := closeStream src t } else { s := t } := by
  simp only [streamCloseReply, hsrc, Bool.not_true, Bool.false_eq_true, if_false]

end

theorem closeBlock_of_empty {src : Nat} {s : State} (h : (s.stream src).samples = []) : closeBlock src s = s :=
  if_pos h

theorem streamOpen_ends {h : Hdr} {src ring : Nat} {s : State} (hs : served (.streamOpen h src ring) s = true) :
    Ends (.streamOpen h src ring) s (streamOpenReply src ring) :=
  ends_of rfl hs rfl

theorem streamClose_ends {h : Hdr} {src : Nat} {s : State} (hs : served (.streamClose h src) s = true) :
    Ends (.streamClose h src) s (streamCloseReply src) :=
  ends_of rfl hs rfl

/-! ### ALIGN (R234, R235) -/

/-- What a source of ALIGN arms where nothing bars it: NOW an event at the tick `soon`, AT the tick `named` if it lies no
earlier, SYNC the next edge. Both ticks are arguments, so that comparing them never unfolds how they are counted. -/
def armReply (source delay : Nat) (named : Int) (soon : Nat) (t : State) : Reply :=
  match source with
  | 0 => { s := { t with alignArm := some (.at soon false) }, result := soon % 2 ^ 48 }
  | 1 => if named < (soon : Int) then { s := t, status := 6, why := .field 8 }
      else { s := { t with alignArm := some (.at named.toNat true) } }
  | _ => { s := { t with alignArm := some (.sync delay) } }

theorem armReply_at (delay : Nat) (named : Int) (soon : Nat) (t : State) : armReply 1 delay named soon t =
    if named < (soon : Int) then { s := t, status := 6, why := .field 8 }
    else { s := { t with alignArm := some (.at named.toNat true) } } :=
  rfl

theorem us_ten : us 10 = 200000 := rfl

theorem align_ends {h : Hdr} {source delay : Nat} {time : Stamp} {s : State}
    (hs : served (.align h source delay time) s = true) :
    Ends (.align h source delay time) s (alignReply source delay time) :=
  ends_of rfl hs rfl

section
variable {source delay : Nat} {time : Stamp} (hsource : source < 3) (hdelay : delay < 65536) (hns : time.ns < 1000000000)
include hsource hdelay hns

/-- With operands in rule an ALIGN is BUSY or arms, NOW and AT 10 µs ahead at the earliest. -/
theorem alignReply_eq (t : State) :
    alignReply source delay time t =
      if t.toneCellRuns || t.alignArm.isSome then .busy t
      else armReply source delay (t.coarseOf (stampTicks time)) (t.now + 200000) t := by
  have hok : stampOk time = true := decide_eq_true hns
  unfold alignReply
  rw [← us_ten]
  simp only [not_le.mpr hsource, not_le.mpr hdelay, hok, Bool.not_true, Bool.false_eq_true, if_false]
  rfl

variable {h : Hdr} {s : State} (hs : served (.align h source delay time) s = true)
include hs

/-- While a cell that owns tones runs or an event is armed nothing more is armed. -/
theorem align_ends_busy (hbar : s.toneCellRuns = true ∨ s.alignArm.isSome = true) :
    Ends (.align h source delay time) s .busy :=
  (align_ends hs).congr fun m _ => by
    have hbar' : (s.toneCellRuns || s.alignArm.isSome) = true := Bool.or_eq_true_iff.mpr hbar
    rw [alignReply_eq hsource hdelay hns, toneCellRuns_takeEntry]
    exact if_pos hbar'

/-- With neither, the source decides; what it names is counted before the entry is taken. -/
theorem align_ends_armed (hidle : s.toneCellRuns = false) (hunarmed : s.alignArm = none) :
    Ends (.align h source delay time) s (armReply source delay (s.coarseOf (stampTicks time)) (s.now + 200000)) :=
  (align_ends hs).congr fun m _ => by
    have hfree : (s.toneCellRuns || s.alignArm.isSome) = false := by rw [hidle, hunarmed]; rfl
    rw [alignReply_eq hsource hdelay hns, toneCellRuns_takeEntry]
    exact if_neg (ne_true_of_eq_false hfree)

end

/-- Settles O28: a stream by whether it is open, ALIGN by what bars it and then by its source. -/
theorem streamAndAlignCommands : Obligations.StreamAndAlignCommands := by
  unfold Obligations.StreamAndAlignCommands
  refine ⟨?opening, ?closing, fun src s hempty => ?nothing, ?align, fun h s hs => ends_of rfl hs rfl⟩
  case opening =>
    intro h src ring s hs hsrc hring hdev
    have hreply (q : Nat) := streamOpenReply_eq (t := takeEntry q s) hsrc hring hdev
    exact ⟨fun hclosed => (streamOpen_ends hs).congr fun m _ => (hreply _).trans (if_neg (ne_true_of_eq_false hclosed)),
      fun hopen => (streamOpen_ends hs).congr fun m _ => (hreply _).trans (if_pos hopen)⟩
  case closing =>
    intro h src s hs hsrc
    have hreply (q : Nat) := streamCloseReply_eq hsrc (takeEntry q s)
    exact ⟨fun hopen => (streamClose_ends hs).congr fun m _ => (hreply _).trans (if_pos hopen),
      fun hclosed => (streamClose_ends hs).congr fun m _ => (hreply _).trans (if_neg (ne_true_of_eq_false hclosed))⟩
  case nothing =>
    rw [closeStream, closeBlock_of_empty hempty]
    rfl
  case align =>
    intro h source delay time s hs hdelay hns
    refine ⟨fun hbar hsource => align_ends_busy hsource hdelay hns hs hbar, fun hidle hunarmed => ?_⟩
    have harmed (hsource : source < 3) := align_ends_armed hsource hdelay hns hs hidle hunarmed
    refine ⟨fun hnow => ?_, fun hat hahead => ?_, fun hat hlate => ?_, fun hsync => ?_⟩
    · subst hnow
      exact harmed (by decide)
    · subst hat
      exact (harmed (by decide)).congr fun m _ => (armReply_at ..).trans (if_neg (by push_cast; exact not_lt.mpr hahead))
    · subst hat
      exact (harmed (by decide)).congr fun m _ => (armReply_at ..).trans (if_pos (by push_cast; exact hlate))
    · subst hsync
      exact harmed (by decide)

end Sys2Proof.Machine
end

section
/-! EVENT_ROUTE and EVENT_GATE: a channel bound and freed, gates set at once and at a named time (R264–R269, R280–R284,
R423, R459). -/

namespace Sys2Proof.Machine

/-! ### What reading the entry leaves -/

theorem endInUse_takeEntry (q : Nat) (s : State) (e : Nat) : (takeEntry q s).endInUse e = s.endInUse e := by
  have hroot : (takeEntry q s).rootOf (epUnit e) = s.rootOf (epUnit e) := rootOf_host s _ _
  unfold State.endInUse
  rw [hroot, resRoot_takeEntry]
  rfl

/-! ### Endpoints and promises that stand in the way -/

theorem bindDevs_of_local {s : State} {eps : List Nat} (h : ∀ e ∈ eps, epDev e = s.sys.devnum) : s.bindDevs eps = [] := by
  have hnone : (eps.map epDev).filter (· != s.sys.devnum) = [] := by
    simpa [List.filter_eq_nil_iff] using h
  rw [State.bindDevs, hnone]
  rfl

theorem any_endInUse_of_free {s : State} {eps : List Nat} (h : ∀ e ∈ eps, s.endInUse e = false) :
    eps.any s.endInUse = false :=
  List.any_eq_false.mpr fun e he => ne_true_of_eq_false (h e he)

theorem any_promised_of_free {s : State} {ch : Nat} (h : ∀ p ∈ s.promises, p.chan ≠ some ch) :
    s.promises.any (fun p => p.chan == some ch) = false :=
  List.any_eq_false.mpr fun p hp hch => h p hp (beq_iff_eq.mp hch)

/-! ### BIND (R264–R266, R269) -/

/-- The channel that BIND makes of the one that stood there. -/
def boundChannel (a : BindArgs) (c : Channel) : Channel :=
  { c.latches with
    bound := true, kind := a.kind, wide := decide (a.width = 64), rs := if a.rs = 0 then 10 else a.rs
    stmax := if a.flags.testBit 3 then a.stmax else 256, stwin := if a.flags.testBit 3 then a.stwin else 10
    gsrc := a.gsrc, gidx := a.gidx, ginv := a.flags.testBit 2, watch := a.flags.testBit 0
    flush := a.flags.testBit 1, ring := a.ring, prods := a.producers, cons := a.consumers }

/-- Fields and endpoints of a BIND are in rule and free, and every endpoint is one of this device. -/
structure State.Binds (s : State) (a : BindArgs) : Prop where
  range : bindRange a = none
  here : ∀ e ∈ a.producers ++ a.consumers, epDev e = s.sys.devnum
  prods : ∀ e ∈ a.producers, s.endOk a true e = true
  cons : ∀ e ∈ a.consumers, s.endOk a false e = true ∧ (epClass e = 12 → a.kind = 1 ∨ (s.ring a.ring).dev = true)
  nodup : (a.producers ++ a.consumers).Nodup
  unbound : (s.chan a.channel).bound = false
  unpromised : ∀ p ∈ s.promises, p.chan ≠ some a.channel
  free : ∀ e ∈ a.producers ++ a.consumers, s.chanOfProd e = none ∧ s.chanOfCons e = none ∧ s.endInUse e = false

section
variable {s : State} {a : BindArgs} (h : s.Binds a)
include h

/-- Reading the command's entry keeps it so. -/
theorem State.Binds.takeEntry (q : Nat) : (takeEntry q s).Binds a where
  range := h.range
  here := h.here
  prods := h.prods
  cons := h.cons
  nodup := h.nodup
  unbound := h.unbound
  unpromised := h.unpromised
  free e he := by
    rw [endInUse_takeEntry]
    exact h.free e he

/-- No endpoint check of BIND fails. -/
theorem State.Binds.endpoints :
    (!(a.producers.all (s.endOk a true) && a.consumers.all (s.endOk a false))
      || !decide (a.producers ++ a.consumers).Nodup
      || (true && a.producers.any fun e => decide (epDev e ≠ s.sys.devnum))) = false := by
  have hp : a.producers.all (s.endOk a true) = true := List.all_eq_true.mpr h.prods
  have hc : a.consumers.all (s.endOk a false) = true := List.all_eq_true.mpr fun e he => (h.cons e he).1
  have hl : (a.producers.any fun e => decide (epDev e ≠ s.sys.devnum)) = false :=
    List.any_eq_false.mpr fun e he => by simp [h.here e (List.mem_append_left _ he)]
  simp only [hp, hc, hl, h.nodup, decide_true, Bool.and_self, Bool.not_true, Bool.or_self, Bool.and_false]

/-- A SOFT consumer of payloads has an enabled ring (R269). -/
theorem State.Binds.softRing :
    ((a.kind == 2 && a.consumers.any fun e => epClass e == 12) && !(s.ring a.ring).dev) = false := by
  refine Bool.eq_false_iff.mpr fun hsoft => ?_
  simp only [Bool.and_eq_true, List.any_eq_true, beq_iff_eq, Bool.not_eq_true'] at hsoft
  obtain ⟨⟨hkind, e, he, hclass⟩, hring⟩ := hsoft
  rcases (h.cons e he).2 hclass with htrig | hdev
  · omega
  · exact ne_true_of_eq_false hring hdev

/-- Neither the channel nor an endpoint is taken. -/
theorem State.Binds.untaken :
    ((s.chan a.channel).bound || s.promises.any (fun p => p.chan == some a.channel)
      || (a.producers ++ a.consumers).any (fun e => (s.chanOfProd e).isSome || (s.chanOfCons e).isSome)) = false := by
  have hends : ((a.producers ++ a.consumers).any fun e => (s.chanOfProd e).isSome || (s.chanOfCons e).isSome) = false :=
    List.any_eq_false.mpr fun e he => by simp [(h.free e he).1, (h.free e he).2.1]
  rw [h.unbound, any_promised_of_free h.unpromised, hends]
  rfl

theorem bindReply_of_binds : bindReply true a s = { s := s.setChan a.channel (boundChannel a (s.chan a.channel)) } := by
  have hidle := any_endInUse_of_free fun e he => (h.free e he).2.2
  simp only [bindReply, h.range, h.endpoints, h.softRing, h.untaken, hidle, Bool.false_eq_true, if_false]
  rfl

/-- With every endpoint on this device there is no other device to ask. -/
theorem span_bind_of_binds (r : Reply) :
    span (.bind a) (if a.kind = 2 then s.bindDevs (a.producers ++ a.consumers) else []) r s = r := by
  rw [bindDevs_of_local h.here, ite_self]
  rfl

end

theorem bind_ends {h : Hdr} {a : BindArgs} {s : State} (hs : served (.eventRouteBind h a) s = true) (hb : s.Binds a) :
    Ends (.eventRouteBind h a) s fun t => { s := t.setChan a.channel (boundChannel a (s.chan a.channel)) } :=
  have hends : Ends (.eventRouteBind h a) s fun t =>
      span (.bind a) (if a.kind = 2 then t.bindDevs (a.producers ++ a.consumers) else []) (bindReply true a t) t :=
    ends_of rfl hs rfl
  hends.congr fun m _ =>
    have ht := hb.takeEntry m.h.sq.val
    (span_bind_of_binds ht _).trans (bindReply_of_binds ht)

/-! ### UNBIND (R265, R459) -/

/-- Disarming a wake source touches no other field, so a domain that has none on the channel may be written too. -/
theorem disarm_eq (ch : Nat) : (fun (_ : Nat) (d : Domain) => if d.wakeCh = some ch then { d with wakeCh := none } else d)
    = fun _ d => { d with wakeCh := if d.wakeCh = some ch then none else d.wakeCh } := by
  funext _ d
  split <;> rfl

section
variable {ch : Nat} (hch : ch < 4096)
include hch

theorem unbindReply_of_unbound {t : State} (hb : (t.chan ch).bound = false) : unbindReply ch t = { s := t } := by
  simp only [unbindReply, not_le.mpr hch, hb, Bool.not_false, if_true, if_false]

theorem unbindReply_of_free {t : State} (hb : (t.chan ch).bound = true) (hp : ∀ p ∈ t.promises, p.chan ≠ some ch)
    (hf : ∀ e ∈ (t.chan ch).prods ++ (t.chan ch).cons, t.endInUse e = false) :
    unbindReply ch t =
      { s := { t.setChan ch (t.chan ch).latches with
          domains := tmap {} (fun _ d => { d with wakeCh := if d.wakeCh = some ch then none else d.wakeCh }) t.domains } } := by
  simp only [unbindReply, not_le.mpr hch, hb, any_endInUse_of_free hf, any_promised_of_free hp, disarm_eq, Bool.not_true,
    Bool.or_self, Bool.false_eq_true, if_false]

end

theorem unbind_ends {h : Hdr} {ch : Nat} {s : State} (hs : served (.eventRouteUnbind h ch) s = true)
    (hd : s.bindDevs ((s.chan ch).prods ++ (s.chan ch).cons) = []) :
    Ends (.eventRouteUnbind h ch) s (unbindReply ch) :=
  have hends : Ends (.eventRouteUnbind h ch) s fun t =>
      span (.unbind ch) (t.bindDevs ((t.chan ch).prods ++ (t.chan ch).cons)) (unbindReply ch t) t :=
    ends_of rfl hs rfl
  hends.congr fun _ _ => if_pos hd

/-! ### Gates (R280, R281) -/

theorem setGates_getLsbD (mask value : BitVec 64) (s : State) {k : Nat} (hk : k < 64) :
    (setGates mask value s).gates.getLsbD k = if mask.getLsbD k then value.getLsbD k else s.gates.getLsbD k := by
  have hbit : (setGates mask value s).gates.getLsbD k
      = (s.gates.getLsbD k && !mask.getLsbD k || value.getLsbD k && mask.getLsbD k) := by simp [setGates, hk]
  rw [hbit]
  cases mask.getLsbD k <;> simp

/-- What EVENT_GATE does for the time `named` no earlier than `soon`; both are arguments, so that comparing them never
unfolds how they are counted. -/
def gateAtReply (mask value : BitVec 64) (named soon : Int) (t : State) : Reply :=
  if named < soon then { s := t, status := 6, why := .field 16 }
  else { s := { t with gatePend := insertGate named.toNat mask value t.gatePend } }

theorem stampNow_iff (time : Stamp) : stampNow time = true ↔ time.sec = 0 ∧ time.ns = 0 ∧ time.frac = 0 := by
  simp only [stampNow, Bool.and_eq_true, beq_iff_eq, and_assoc]

theorem eventGateReply_eq {mask value : BitVec 64} {time : Stamp} (hns : time.ns < 1000000000) (t : State) :
    eventGateReply mask value time t =
      if time.sec = 0 ∧ time.ns = 0 ∧ time.frac = 0 then { s := setGates mask value t }
      else gateAtReply mask value (t.coarseOf (stampTicks time)) ((t.now : Int) + 200000) t := by
  have hok : stampOk time = true := decide_eq_true hns
  simp only [eventGateReply, hok, stampNow_iff, us_ten, Bool.not_true, Bool.false_eq_true, if_false]
  rfl

section
variable {h : Hdr} {mask value : BitVec 64} {time : Stamp} {s : State}
  (hs : served (.eventGate h mask value time) s = true) (hns : time.ns < 1000000000)
include hs hns

theorem eventGate_ends_now (hnow : time.sec = 0 ∧ time.ns = 0 ∧ time.frac = 0) :
    Ends (.eventGate h mask value time) s fun t => { s := setGates mask value t } :=
  have hends : Ends (.eventGate h mask value time) s (eventGateReply mask value time) := ends_of rfl hs rfl
  hends.congr fun _ _ => (eventGateReply_eq hns _).trans (if_pos hnow)

/-- A named time is counted as it was before the entry is taken. -/
theorem eventGate_ends_named (hnamed : ¬(time.sec = 0 ∧ time.ns = 0 ∧ time.frac = 0)) :
    Ends (.eventGate h mask value time) s
      (gateAtReply mask value (s.coarseOf (stampTicks time)) ((s.now : Int) + 200000)) :=
  have hends : Ends (.eventGate h mask value time) s (eventGateReply mask value time) := ends_of rfl hs rfl
  hends.congr fun _ _ => (eventGateReply_eq hns _).trans (if_neg hnamed)

end

theorem exec_gateChange_of_cons {s : State} {t : Nat} {mask value : BitVec 64} {rest : List (Nat × BitVec 64 × BitVec 64)}
    (h : s.gatePend = (t, mask, value) :: rest) :
    exec .gateChange s = .next (if t ≤ s.now then setGates mask value { s with gatePend := rest } else s) := by
  have hexec : exec .gateChange s = execGateChange s := rfl
  rw [hexec, execGateChange, h]

/-- Settles O29: BIND and UNBIND by what could bar them, a gate by its time, a queued change by its tick. -/
theorem routeAndGateCommands : Obligations.RouteAndGateCommands := by
  unfold Obligations.RouteAndGateCommands
  refine ⟨?bind, ?unbind, ?gate, fun mask value s k hk => setGates_getLsbD mask value s hk,
    fun s t mask value rest h => exec_gateChange_of_cons h⟩
  case bind =>
    intro h a s hs hrange hhere hprods hcons hnodup hunbound hunpromised hfree
    exact bind_ends hs ⟨hrange, hhere, hprods, hcons, hnodup, hunbound, hunpromised, hfree⟩
  case unbind =>
    intro h ch s hs hch hdevs
    have hends := unbind_ends hs hdevs
    refine ⟨fun hunbound => hends.congr fun _ _ => unbindReply_of_unbound hch hunbound, fun hbound hp hf => ⟨_, ?_, rfl⟩⟩
    exact hends.congr fun _ _ => unbindReply_of_free hch hbound hp fun e he => (endInUse_takeEntry _ s e).trans (hf e he)
  case gate =>
    intro h mask value time s hs hns
    refine ⟨fun hsec hn hfrac => eventGate_ends_now hs hns ⟨hsec, hn, hfrac⟩, fun hnamed hahead => ?_, fun hnamed hlate => ?_⟩
    · exact (eventGate_ends_named hs hns hnamed).congr fun _ _ => if_neg (not_lt.mpr hahead)
    · exact (eventGate_ends_named hs hns hnamed).congr fun _ _ => if_pos hlate

end Sys2Proof.Machine
end

section
/-! An acquisition engine arms, writes and waits (R272, R296, R306). -/

namespace Sys2Proof.Machine

/-! ### Flags that clocked consumers find (R272) -/

theorem present_of_unlatched {s : State} {x : Nat} (h : s.latchTick x = none) : s.present x = none := by
  rw [State.present, h]

theorem present_of_latchTick {s : State} {x t : Nat} (h : s.latchTick x = some t) :
    s.present x = if s.now < t / 16 * 16 + 16 then none else some (t / 16 * 16 + 16) := by
  have hnext : (t / 16 + 1) * 16 = t / 16 * 16 + 16 := by omega
  simp only [State.present, h, hnext, ← not_lt, ite_not]

theorem consume_eq (x : Nat) (s : State) : ∃ c, consume x s = { s with chans := c } := by
  unfold consume
  split
  · exact ⟨_, rfl⟩
  · exact ⟨_, rfl⟩

theorem engine_consume (x e : Nat) (s : State) : (consume x s).engine e = s.engine e := by
  obtain ⟨c, hc⟩ := consume_eq x s
  rw [hc]
  rfl

theorem now_consume (x : Nat) (s : State) : (consume x s).now = s.now := by
  obtain ⟨c, hc⟩ := consume_eq x s
  rw [hc]

/-! ### Arming (R296) -/

theorem exec_armEvent_of_not {e : Fin 16} {s : State}
    (h : (s.engine e.val).st ≠ .primed ∨ s.present (s.ep 8 e.val 1) = none) : exec (.armEvent e) s = .next s := by
  refine congrArg Host.Outcome.next (if_neg fun hflag => ?_)
  obtain ⟨hst, hpresent⟩ := Bool.and_eq_true_iff.mp hflag
  rcases h with h | h
  · exact h (of_decide_eq_true hst)
  · rw [h] at hpresent
    cases hpresent

theorem exec_armEvent_of_present {e : Fin 16} {s : State} {t : Nat} (hst : (s.engine e.val).st = .primed)
    (hpresent : s.present (s.ep 8 e.val 1) = some t) : exec (.armEvent e) s =
      .next ((consume (s.ep 8 e.val 1) s).setEngine e.val ((s.engine e.val).fill s.now)) := by
  have hexec : exec (.armEvent e) s = .next (beginFill e.val (consume (s.ep 8 e.val 1) s)) :=
    congrArg Host.Outcome.next (if_pos (by rw [hst, hpresent]; rfl))
  rw [hexec, beginFill, State.modEngine, engine_consume, now_consume]

/-! ### Filling and waiting (R296) -/

/-- The instant from which a timeout counts as the engine begins to wait: the last crossing, else the last sample written,
or the start where PRE is 0 (R301). -/
def Engine.waitRef (k : Engine) (t : Nat) : Int :=
  let entry := if k.lat.pre = 0 then (t : Int) else match k.det.prev with | some p => p.1 | none => (t : Int)
  match k.det.ref with | some r => r | none => fineTick entry

section
variable {e : Nat} {s : State} (hst : (s.engine e).st = .filling)
include hst

theorem engineDue_of_unwritten (tick : Int) (h : (s.engine e).writeAt = none) : engineDue e tick s = s := by
  simp only [engineDue, hst, h]

/-- What a filling engine does at a tick. -/
theorem engineDue_of_filling {t : Nat} (tick : Int) (h : (s.engine e).writeAt = some t) : engineDue e tick s =
    if tick < t then s else if !(s.engine e).writing then writeSegment e s
    else if (s.engine e).count < (s.engine e).lat.pre then s
    else s.setEngine e { s.engine e with
      st := .waiting, det := { (s.engine e).det with ref := some ((s.engine e).waitRef t) } } := by
  simp only [engineDue, hst, h, Engine.waitRef]
  cases (s.engine e).det.ref <;> rfl

end

theorem writeSegment_engine (e : Nat) (s : State) :
    (writeSegment e s).engine e = { s.engine e with writing := true } := by
  have hmod : (s.modEngine e fun k => { k with writing := true }).engine e = { s.engine e with writing := true } :=
    State.engine_modEngine ..
  unfold writeSegment
  dsimp only
  split
  · exact hmod
  · exact hmod

/-- A segment that begins changes the engines, the memory and the count of free values. -/
theorem writeSegment_eq (e : Nat) (s : State) :
    ∃ k m n, writeSegment e s = { s with engines := k, mem := m, free := n } := by
  unfold writeSegment
  dsimp only
  split
  · exact ⟨_, _, _, rfl⟩
  · exact ⟨_, _, _, rfl⟩

section
variable {e : Fin 16} {s : State}

theorem exec_writingBegins_of_not (h : (s.engine e.val).st ≠ .filling ∨ (s.engine e.val).writing = true) :
    exec (.writingBegins e) s = .next s := by
  refine congrArg Host.Outcome.next (if_neg fun hfill => ?_)
  simp only [Bool.and_eq_true, decide_eq_true_eq, Bool.not_eq_true'] at hfill
  obtain ⟨hst, hwriting⟩ := hfill
  rcases h with h | h
  · exact h hst
  · exact Bool.noConfusion (hwriting.symm.trans h)

theorem exec_writingBegins (hst : (s.engine e.val).st = .filling) (hwriting : (s.engine e.val).writing = false) :
    exec (.writingBegins e) s = .next (engineDue e.val s.now s) :=
  congrArg Host.Outcome.next (if_pos (by rw [hst, hwriting]; rfl))

theorem exec_preTriggerFull_of_not (h : (s.engine e.val).st ≠ .filling ∨ (s.engine e.val).writing = false) :
    exec (.preTriggerFull e) s = .next s := by
  refine congrArg Host.Outcome.next (if_neg fun hfill => ?_)
  obtain ⟨hst, hwriting⟩ := Bool.and_eq_true_iff.mp hfill
  rcases h with h | h
  · exact h (of_decide_eq_true hst)
  · exact Bool.noConfusion (h.symm.trans hwriting)

theorem exec_preTriggerFull (hst : (s.engine e.val).st = .filling) (hwriting : (s.engine e.val).writing = true) :
    exec (.preTriggerFull e) s = .next (engineDue e.val s.now s) :=
  congrArg Host.Outcome.next (if_pos (by rw [hst, hwriting]; rfl))

/-- An engine that fills from no tick, or does not fill, waits for neither event. -/
theorem fillEvents_of_not (h : (s.engine e.val).writeAt = none ∨ (s.engine e.val).st ≠ .filling) :
    exec (.writingBegins e) s = .next s ∧ exec (.preTriggerFull e) s = .next s := by
  by_cases hst : (s.engine e.val).st = .filling
  · have hdue := engineDue_of_unwritten hst s.now (h.resolve_right (not_not.mpr hst))
    cases hwriting : (s.engine e.val).writing with
    | false => exact ⟨by rw [exec_writingBegins hst hwriting, hdue], exec_preTriggerFull_of_not (.inr hwriting)⟩
    | true => exact ⟨exec_writingBegins_of_not (.inr hwriting), by rw [exec_preTriggerFull hst hwriting, hdue]⟩
  · exact ⟨exec_writingBegins_of_not (.inl hst), exec_preTriggerFull_of_not (.inl hst)⟩

section
variable {t : Nat} (hst : (s.engine e.val).st = .filling) (hat : (s.engine e.val).writeAt = some t)
include hst hat

theorem exec_writingBegins_early (h : (s.engine e.val).writing = true ∨ s.now < t) :
    exec (.writingBegins e) s = .next s := by
  by_cases hwriting : (s.engine e.val).writing = true
  · exact exec_writingBegins_of_not (.inr hwriting)
  · have hearly : (s.now : Int) < t := by exact_mod_cast h.resolve_left hwriting
    rw [exec_writingBegins hst (Bool.eq_false_iff.mpr hwriting), engineDue_of_filling hst _ hat, if_pos hearly]

theorem exec_writingBegins_due (hwriting : (s.engine e.val).writing = false) (hdue : t ≤ s.now) :
    exec (.writingBegins e) s = .next (writeSegment e.val s) := by
  have hnow : ¬(s.now : Int) < t := by exact_mod_cast not_lt.mpr hdue
  rw [exec_writingBegins hst hwriting, engineDue_of_filling hst _ hat, if_neg hnow, hwriting]
  rfl

theorem exec_preTriggerFull_early
    (h : (s.engine e.val).writing = false ∨ s.now < t ∨ (s.engine e.val).count < (s.engine e.val).lat.pre) :
    exec (.preTriggerFull e) s = .next s := by
  cases hwriting : (s.engine e.val).writing with
  | false => exact exec_preTriggerFull_of_not (.inr hwriting)
  | true =>
    rw [exec_preTriggerFull hst hwriting, engineDue_of_filling hst _ hat, hwriting]
    rcases h with h | h | h
    · exact Bool.noConfusion (h.symm.trans hwriting)
    · rw [if_pos (by exact_mod_cast h)]
    · rw [if_pos h, Bool.not_true, if_neg Bool.false_ne_true, ite_self]

theorem exec_preTriggerFull_due (hwriting : (s.engine e.val).writing = true) (hdue : t ≤ s.now)
    (hpre : (s.engine e.val).lat.pre ≤ (s.engine e.val).count) : exec (.preTriggerFull e) s =
      .next (s.setEngine e.val { s.engine e.val with
        st := .waiting, det := { (s.engine e.val).det with ref := some ((s.engine e.val).waitRef t) } }) := by
  have hnow : ¬(s.now : Int) < t := by exact_mod_cast not_lt.mpr hdue
  rw [exec_preTriggerFull hst hwriting, engineDue_of_filling hst _ hat, if_neg hnow, hwriting, Bool.not_true,
    if_neg Bool.false_ne_true, if_neg (not_lt.mpr hpre)]

end

end

/-! ### The event of a trigger (R306) -/

theorem raiseCapture_of_not_due {e : Nat} {s : State} (h : ∀ t, (s.engine e).evAt = some t → s.now < t) :
    raiseCapture e s = s := by
  rw [raiseCapture]
  split
  · next t hat => exact if_neg (not_le.mpr (h t hat))
  · rfl

theorem raiseCapture_of_due {e t : Nat} {s : State} (hat : (s.engine e).evAt = some t) (hdue : t ≤ s.now) :
    raiseCapture e s = raiseEp (s.ep 8 e 0) (s.setEngine e { s.engine e with evAt := none }) := by
  rw [raiseCapture, hat]
  exact if_pos hdue

end Sys2Proof.Machine
end

section
/-! Triggers, forces, the end of a capture and re-arming (R297, R298, R302–R307). -/

namespace Sys2Proof.Machine

/-! ### What a trigger comes to (R304, R305) -/

/-- How many samples of its source an instant lies before a label, a part of one counted whole. -/
def State.samplesBack (s : State) (e : Nat) (instant label : Int) : Int :=
  let p : Int := s.sampleTicks e (s.engine e).lat
  (fineTick label - instant + fineTick p - 1) / fineTick p

/-- The index of the trigger sample, the last one that does not come after the instant. -/
def State.trigSample (s : State) (e idx : Nat) (instant label : Int) : Int :=
  (idx : Int) - s.samplesBack e instant label

/-- The index of the sample that completes the trigger: the trigger sample if it lies on the instant, else the next. -/
def State.completing (s : State) (e idx : Nat) (instant label : Int) : Nat :=
  let p : Int := s.sampleTicks e (s.engine e).lat
  let ts := s.trigSample e idx instant label
  if ts < 0 then 0 else ts.toNat + (if fineTick (label - s.samplesBack e instant label * p) = instant then 0 else 1)

/-- The label of the completing sample. -/
def State.completeLabel (s : State) (e idx : Nat) (instant label : Int) : Int :=
  label - (idx - s.completing e idx instant label : Nat) * (s.sampleTicks e (s.engine e).lat : Int)

/-- The trigger of an instant. -/
def State.acceptedTrig (s : State) (e idx : Nat) (instant label : Int) (forced : Bool) : Trig :=
  { instant, stamp := s.fineStamp instant, idx := (s.trigSample e idx instant label).toNat
    label := label - s.samplesBack e instant label * (s.sampleTicks e (s.engine e).lat : Int)
    word := s.completeLabel e idx instant label / 16, forced }

section
variable {e idx : Nat} {instant label : Int} {forced : Bool} {s : State}

theorem trigger_of_filling (hst : (s.engine e).st = .filling) : trigger e instant forced idx label s =
    s.setEngine e { s.engine e with early := (s.engine e).early.bump } := by
  simp only [trigger, hst]

/-- In WAITING a trigger starts the capture, unless it comes before PRE samples. -/
theorem trigger_of_waiting (hst : (s.engine e).st = .waiting) : trigger e instant forced idx label s =
    if s.trigSample e idx instant label < 0 ∨ s.completing e idx instant label < (s.engine e).lat.pre then
      s.setEngine e { s.engine e with early := (s.engine e).early.bump }
    else raiseCapture e (s.setEngine e { s.engine e with
      st := .capturing, trig := some (s.acceptedTrig e idx instant label forced)
      evAt := some ((s.engine e).eventTick s.now instant (s.completeLabel e idx instant label))
      forced := if forced then (s.engine e).forced.bump else (s.engine e).forced }) := by
  simp only [trigger, hst, Bool.or_eq_true, decide_eq_true_eq]
  rfl

/-- While capturing, a trigger of an earlier instant in the same word takes the place of the one accepted. -/
theorem trigger_of_capturing {t : Trig} (hst : (s.engine e).st = .capturing) (ht : (s.engine e).trig = some t) :
    trigger e instant forced idx label s =
    if (instant < t.instant ∧ t.word = s.completeLabel e idx instant label / 16) ∧ ¬s.trigSample e idx instant label < 0 then
      raiseCapture e (s.setEngine e { s.engine e with
        st := .capturing, trig := some (s.acceptedTrig e idx instant label forced), busyIgn := (s.engine e).busyIgn.bump
        evAt := if (s.engine e).evAt.isSome then
            some ((s.engine e).eventTick s.now instant (s.completeLabel e idx instant label)) else none
        forced := if forced && !t.forced then (s.engine e).forced.bump else (s.engine e).forced })
    else s.setEngine e { s.engine e with busyIgn := (s.engine e).busyIgn.bump } := by
  simp only [trigger, hst, ht, Bool.and_eq_true, Bool.not_eq_true', decide_eq_true_eq, decide_eq_false_iff_not]
  rfl

theorem trigger_of_rearming (hst : (s.engine e).st = .rearming) : trigger e instant forced idx label s =
    s.setEngine e { s.engine e with rearmIgn := (s.engine e).rearmIgn.bump } := by
  simp only [trigger, hst]

theorem trigger_of_unarmed (hst : (s.engine e).st = .idle ∨ (s.engine e).st = .primed ∨ (s.engine e).st = .done) :
    trigger e instant forced idx label s = s := by
  rcases hst with hst | hst | hst <;> simp only [trigger, hst]

/-! ### Edges and forces (R303, R304) -/

theorem takeEdges_of_none {n : Nat} (h : (s.engine e).edges = []) : takeEdges e idx label n s = s := by
  cases n with
  | zero => rfl
  | succ n => simp only [takeEdges, h]

theorem takeEdges_of_ahead {n : Nat} {t : Int} {dir : Option Bool} {rest : List (Int × Option Bool)}
    (h : (s.engine e).edges = (t, dir) :: rest) (ht : fineTick label < t) : takeEdges e idx label n s = s := by
  cases n with
  | zero => rfl
  | succ n => simp only [takeEdges, h, if_pos ht]

theorem takeEdges_of_force {n : Nat} {t : Int} {rest : List (Int × Option Bool)}
    (h : (s.engine e).edges = (t, none) :: rest) (ht : t ≤ fineTick label) : takeEdges e idx label (n + 1) s =
      takeEdges e idx label n (trigger e t true idx label (s.setEngine e { s.engine e with edges := rest })) := by
  simp only [takeEdges, h, if_neg (not_lt.mpr ht)]

end

section
variable {e : Fin 16} {xs : List Int} {s : State}

theorem exec_forceTrigger_of_absent (h : s.present (s.ep 8 e.val 2) = none) :
    exec (.forceTrigger e xs) s = .next (engineSettle e.val (feed e.val xs s)) := by
  have hexec : exec (.forceTrigger e xs) s = execForceTrigger e xs s := rfl
  simp only [hexec, execForceTrigger, h]

theorem Engine.takesForce_eq (k : Engine) :
    (k.armed && decide (k.st ≠ .primed)) = decide (k.st ≠ .idle ∧ k.st ≠ .done ∧ k.st ≠ .primed) := by
  simp only [Engine.armed, Bool.decide_and, Bool.and_assoc]

/-- A force consumes its flag in every state, and is kept for an engine that writes or is to write. -/
theorem exec_forceTrigger_of_present {t : Nat} (h : s.present (s.ep 8 e.val 2) = some t) :
    exec (.forceTrigger e xs) s = .next (engineSettle e.val (feed e.val xs
      ((consume (s.ep 8 e.val 2) s).setEngine e.val
        (if (s.engine e.val).st ≠ .idle ∧ (s.engine e.val).st ≠ .done ∧ (s.engine e.val).st ≠ .primed then
          { s.engine e.val with edges := (s.engine e.val).edges ++ [(fineTick t, none)] } else s.engine e.val)))) := by
  have hexec : exec (.forceTrigger e xs) s = execForceTrigger e xs s := rfl
  simp only [hexec, execForceTrigger, h, State.modEngine, engine_consume, Engine.takesForce_eq, decide_eq_true_eq]

end

/-! ### The records that an engine owes (R298, R307) -/

/-- The state without what an engine's records may change. -/
def State.withoutCaptures (s : State) : State := { s.withoutReports with engines := [] }

theorem withoutCaptures_setEngine (s : State) (e : Nat) (k : Engine) :
    (s.setEngine e k).withoutCaptures = s.withoutCaptures := rfl

theorem withoutCaptures_modEngine (s : State) (e : Nat) (f : Engine → Engine) :
    (s.modEngine e f).withoutCaptures = s.withoutCaptures := rfl

theorem withoutCaptures_of_withoutReports {s t : State} (h : t.withoutReports = s.withoutReports) :
    t.withoutCaptures = s.withoutCaptures := congrArg (fun u : State => { u with engines := [] }) h

theorem same_of_withoutCaptures {β : Type} {s t : State} (h : t.withoutCaptures = s.withoutCaptures) (f : State → β)
    (hf : ∀ u : State, f u.withoutCaptures = f u) : f t = f s := by
  rw [← hf t, h, hf s]

/-- Writing owed records changes of the engines only what they owe, and beside them only what a report may. -/
theorem flushOwed_leaves (e : Nat) : ∀ (n : Nat) (s : State),
    (flushOwed e n s).withoutCaptures = s.withoutCaptures
      ∧ ∃ owed freed, (flushOwed e n s).engine e = { s.engine e with owed, freed }
  | 0, _ => ⟨rfl, _, _, rfl⟩
  | n + 1, s => by
    unfold flushOwed
    split
    · exact ⟨rfl, _, _, rfl⟩
    · next rec_ rest _ =>
      split
      · next u hput =>
        have hu := withoutReports_ringPut hput
        have hengine : u.engine e = s.engine e := same_of_withoutReports hu (State.engine · e) fun _ => rfl
        obtain ⟨hleft, owed, freed, hflush⟩ :=
          flushOwed_leaves e n (u.modEngine e fun k => { k with owed := rest, freed := s.now })
        refine ⟨?_, owed, freed, ?_⟩
        · rw [hleft, withoutCaptures_modEngine, withoutCaptures_of_withoutReports hu]
        · rw [hflush, State.engine_modEngine, hengine]
      · exact ⟨rfl, _, _, rfl⟩

theorem flushEngine_of_unowed {e : Nat} {s : State} (h : (s.engine e).owed = []) : flushEngine e s = s := by
  rw [flushEngine, h]
  rfl

/-- The state in which an engine owes one more record. -/
def owing (e : Nat) (rec_ : List Byte) (s : State) : State :=
  s.setEngine e { s.engine e with seq := ((s.engine e).seq + 1) % 65536, owed := (s.engine e).owed ++ [rec_] }

theorem capRecord_eq (e reason flags start count : Nat) (s : State) : ∃ rec_, capRecord e reason flags start count s =
    (flushEngine e (owing e rec_ s)).modEngine e fun r =>
      { r with freed := if r.owed = [] then (s.engine e).freed else r.freed } :=
  ⟨_, rfl⟩

theorem capRecord_leaves (e reason flags start count : Nat) (s : State) :
    (capRecord e reason flags start count s).withoutCaptures = s.withoutCaptures
      ∧ ∃ owed freed, (capRecord e reason flags start count s).engine e =
        { s.engine e with seq := ((s.engine e).seq + 1) % 65536, owed, freed } := by
  obtain ⟨rec_, hrec⟩ := capRecord_eq e reason flags start count s
  obtain ⟨hleft, owed, freed, hflush⟩ := flushOwed_leaves e ((owing e rec_ s).engine e).owed.length (owing e rec_ s)
  rw [hrec]
  refine ⟨?_, owed, if owed = [] then (s.engine e).freed else freed, ?_⟩
  · rw [withoutCaptures_modEngine, flushEngine, hleft, owing, withoutCaptures_setEngine]
  · rw [State.engine_modEngine, flushEngine, hflush, owing, State.engine_setEngine]

/-! ### The end of a capture (R298) -/

/-- The word boundary after the last POST sample. -/
def State.captureEdge (s : State) (e : Nat) (t : Trig) : Int :=
  let last := t.label + ((t.idx + (s.engine e).lat.post : Nat) - 1 - (t.idx : Int)) * (s.sampleTicks e (s.engine e).lat : Int)
  (last / 16 + 1) * 16

/-- The state after a capture, its record owed. -/
def captured (e : Nat) (t : Trig) (s : State) : State :=
  let k := s.engine e
  let u := s.setEngine e { k with st := .rearming, captures := k.captures.bump, rearmAt := (s.captureEdge e t).toNat + 1024 }
  capRecord e 0 (u.capFlags e (k.stop t)) (k.startPos t) (k.lat.pre + k.lat.post) u

theorem engineDue_of_capturing {e : Nat} {t : Trig} {s : State} (tick : Int) (hst : (s.engine e).st = .capturing)
    (ht : (s.engine e).trig = some t) : engineDue e tick s =
      if (s.engine e).count < t.idx + (s.engine e).lat.post ∨ tick < s.captureEdge e t then s else captured e t s := by
  have hedge : ((t.labelOf (s.sampleTicks e (s.engine e).lat) (((s.engine e).stop t : Int) - 1)) / 16 + 1) * 16
      = s.captureEdge e t := rfl
  simp only [engineDue, captured, hst, ht, hedge, Bool.or_eq_true, decide_eq_true_eq]
  rfl

theorem captured_leaves (e : Nat) (t : Trig) (s : State) : (captured e t s).withoutCaptures = s.withoutCaptures
    ∧ ∃ owed freed, (captured e t s).engine e = { s.engine e with
        st := .rearming, captures := (s.engine e).captures.bump, rearmAt := (s.captureEdge e t).toNat + 1024
        seq := ((s.engine e).seq + 1) % 65536, owed, freed } := by
  obtain ⟨hleft, owed, freed, hengine⟩ := capRecord_leaves e 0 _ ((s.engine e).startPos t)
    ((s.engine e).lat.pre + (s.engine e).lat.post) (s.setEngine e { s.engine e with
      st := .rearming, captures := (s.engine e).captures.bump, rearmAt := (s.captureEdge e t).toNat + 1024 })
  rw [State.engine_setEngine] at hengine
  rw [withoutCaptures_setEngine] at hleft
  exact ⟨hleft, owed, freed, hengine⟩

section
variable {e : Fin 16} {xs : List Int} {s : State}

theorem exec_captureComplete_of_not (h : ((feed e.val xs s).engine e.val).st ≠ .capturing) :
    exec (.captureComplete e xs) s = .next (feed e.val xs s) :=
  congrArg Host.Outcome.next (if_neg h)

theorem exec_captureComplete_of_capturing {t : Trig} (hst : ((feed e.val xs s).engine e.val).st = .capturing)
    (ht : ((feed e.val xs s).engine e.val).trig = some t) : exec (.captureComplete e xs) s = .next
      (let u := feed e.val xs s
       if (u.engine e.val).count < t.idx + (u.engine e.val).lat.post ∨ u.now < u.captureEdge e.val t then u
       else captured e.val t u) :=
  congrArg Host.Outcome.next ((if_pos hst).trans (engineDue_of_capturing _ hst ht))

end

/-! ### Re-arming (R298) -/

/-- The tick from which the next segment may begin: 64 words after the capture, or the word after the record had its slot. -/
def Engine.rearmFrom (k : Engine) : Nat := if k.freed ≤ k.rearmAt then k.rearmAt else (k.freed + 15) / 16 * 16

theorem exec_rearmEnd_of_not {e : Fin 16} {s : State} (h : (s.engine e.val).st ≠ .rearming) :
    exec (.rearmEnd e) s = .next s :=
  congrArg Host.Outcome.next (if_neg h)

theorem exec_rearmEnd_of_rearming {e : Fin 16} {s : State} (hst : (s.engine e.val).st = .rearming)
    (howed : (s.engine e.val).owed = []) : exec (.rearmEnd e) s = .next
      (let k := s.engine e.val
       if s.now < k.rearmFrom then s
       else if k.seg + 1 < k.lat.nseg then s.setEngine e.val (k.begin_ (k.seg + 1) k.rearmFrom)
       else s.setEngine e.val { k.drop with st := .done, seg := k.seg + 1 }) := by
  refine congrArg Host.Outcome.next ((if_pos hst).trans ?_)
  simp only [engineDue, hst, flushEngine_of_unowed howed, howed, ne_eq, not_true_eq_false, decide_false, Bool.false_or,
    decide_eq_true_eq, Nat.cast_lt]
  rfl

end Sys2Proof.Machine
end

section
/-! Playback of marker segments, and the pulses of FOLLOW outputs (R312, R316, R318, R321–R323, R325). -/

namespace Sys2Proof.Machine

/-! ### Starts (R321) -/

theorem raiseTrigs_eq (s : State) : raiseTrigs s =
    each (fun k x => raiseEp (x.ep 6 k 0) x) s.mark.trigDue { s with mark := { s.mark with trigDue := [] } } := by
  unfold raiseTrigs
  dsimp only
  split
  · next h =>
    rw [h]
    show s = { s with mark := { s.mark with trigDue := [] } }
    rw [← h]
  · rfl

section
variable {s : State}

theorem exec_playbackStart_of_armed {t : Nat} (h : s.mark.gen = .armed t) : exec .playbackStart s =
    .next (if s.now < t then s else beginRep s.mark.first 0 t { s with mark := { s.mark with
      named := false, synced := false, stopping := s.mark.stopping.map fun b => max b (t / 16 * 16 + 16) } }) := by
  have hexec : exec .playbackStart s = execPlaybackStart s := rfl
  simp only [hexec, execPlaybackStart, h]
  rfl

theorem exec_playbackStart_of_shot {t : Nat} (hgen : s.mark.gen = .shot) (hat : s.mark.shotAt = some t) :
    exec .playbackStart s = .next (beginRep s.mark.first 0 t { s with mark := { s.mark with shotAt := none } }) := by
  have hexec : exec .playbackStart s = execPlaybackStart s := rfl
  simp only [hexec, execPlaybackStart, hgen, hat]

/-- A shot origin cuts a playback that still runs. -/
theorem exec_playbackStart_of_cut {t : Nat} (hgen : s.mark.gen = .playing) (hat : s.mark.shotAt = some t) :
    exec .playbackStart s = .next (beginRep (markUpTo t s).mark.first 0 t { markUpTo t s with mark :=
      { (markUpTo t s).mark with shotAt := none, cuts := (markUpTo t s).mark.cuts.bump } }) := by
  have hexec : exec .playbackStart s = execPlaybackStart s := rfl
  simp only [hexec, execPlaybackStart, hgen, hat]

theorem exec_playbackStart_of_no_origin (hgen : s.mark.gen = .shot ∨ s.mark.gen = .playing) (hat : s.mark.shotAt = none) :
    exec .playbackStart s = .next s := by
  have hexec : exec .playbackStart s = execPlaybackStart s := rfl
  rcases hgen with hgen | hgen <;> simp only [hexec, execPlaybackStart, hgen, hat]

theorem exec_playbackStart_of_sync {d : Nat} (hgen : s.mark.gen = .sync d) : exec .playbackStart s = .next s := by
  have hexec : exec .playbackStart s = execPlaybackStart s := rfl
  simp only [hexec, execPlaybackStart, hgen]

theorem exec_playbackStart_of_idle (hgen : s.mark.gen = .idle) : exec .playbackStart s = .next s := by
  have hexec : exec .playbackStart s = execPlaybackStart s := rfl
  simp only [hexec, execPlaybackStart, hgen]

/-! ### What follows a repetition (R312, R316) -/

theorem following_of_rep {m : Markers} (h : m.rep < (tget {} m.segs m.seg).rep) : m.following = some (m.seg, m.rep + 1) :=
  if_pos h

theorem following_of_next {m : Markers} (hrep : (tget {} m.segs m.seg).rep ≤ m.rep)
    (hlast : (tget {} m.segs m.seg).last = false) (hlen : (tget {} m.segs (tget {} m.segs m.seg).next).len ≠ 0) :
    m.following = some ((tget {} m.segs m.seg).next, 0) :=
  (if_neg (not_lt.mpr hrep)).trans (if_neg (by simp [hlast, hlen]))

theorem following_of_end {m : Markers} (hrep : (tget {} m.segs m.seg).rep ≤ m.rep)
    (h : (tget {} m.segs m.seg).last = true ∨ (tget {} m.segs (tget {} m.segs m.seg).next).len = 0) : m.following = none :=
  (if_neg (not_lt.mpr hrep)).trans (if_pos (by simpa using h))

theorem stopsIn_of_le {m : Markers} {t : Nat} (hstop : m.stopping = some t) (ht : t ≤ m.repEnd) : m.stopsIn = true := by
  rw [Markers.stopsIn, hstop]
  exact decide_eq_true ht

theorem stopsIn_of_after {m : Markers} (h : ∀ t, m.stopping = some t → m.repEnd < t) : m.stopsIn = false := by
  rw [Markers.stopsIn]
  split
  · next t hstop => exact decide_eq_false (not_le.mpr (h t hstop))
  · rfl

/-! ### Segments (R316) -/

theorem exec_markerSegmentStart_of_not_playing (h : s.mark.gen ≠ .playing) : exec .markerSegmentStart s = .next s :=
  congrArg Host.Outcome.next (if_pos (by simp [h]))

theorem exec_markerSegmentStart_of_early (h : s.now < s.mark.repEnd) : exec .markerSegmentStart s = .next s :=
  congrArg Host.Outcome.next (if_pos (by simp [h]))

theorem exec_markerSegmentStart_of_stopsIn (h : s.mark.stopsIn = true) : exec .markerSegmentStart s = .next s :=
  congrArg Host.Outcome.next (if_pos (by simp [h]))

theorem exec_markerSegmentStart_of_end (h : s.mark.following = none) : exec .markerSegmentStart s = .next s := by
  have hexec : exec .markerSegmentStart s = execMarkerSegmentStart s := rfl
  simp only [hexec, execMarkerSegmentStart, h, ite_self]

theorem exec_markerSegmentStart_of_following {seg rep : Nat} (hgen : s.mark.gen = .playing) (hfin : s.mark.repEnd ≤ s.now)
    (hstop : s.mark.stopsIn = false) (hnext : s.mark.following = some (seg, rep)) : exec .markerSegmentStart s =
      .next (beginRep seg rep s.mark.repEnd (markUpTo s.mark.repEnd s)) := by
  have hexec : exec .markerSegmentStart s = execMarkerSegmentStart s := rfl
  simp [hexec, execMarkerSegmentStart, hgen, hstop, hnext, not_lt.mpr hfin]

/-! ### The end of a playback (R316, R322, R323) -/

/-- The state in which a stop has taken effect at a tick. -/
def playbackStopped (t : Nat) (s : State) : State :=
  let u := patternIdle (genIdle (markUpTo t s))
  { u with mark := { u.mark with root := none } }

theorem exec_playbackEnd_of_not_playing (h : s.mark.gen ≠ .playing) : exec .playbackEnd s = .next s := by
  have hexec : exec .playbackEnd s = execPlaybackEnd s := rfl
  simp only [hexec, execPlaybackEnd]
  split
  · next hgen _ => exact absurd hgen h
  · next hgen _ => exact absurd hgen h
  · rfl

/-- A playback that is to stop ends at its stop, or at the end of its last repetition. -/
theorem exec_playbackEnd_of_stopping {t : Nat} (hgen : s.mark.gen = .playing) (hstop : s.mark.stopping = some t) :
    exec .playbackEnd s = .next (if t ≤ s.mark.repEnd ∨ s.mark.following = none then
      if s.now < Nat.min t s.mark.repEnd then s else playbackStopped (Nat.min t s.mark.repEnd) s else s) := by
  have hexec : exec .playbackEnd s = execPlaybackEnd s := rfl
  simp only [hexec, execPlaybackEnd, hgen, hstop, Bool.or_eq_true, decide_eq_true_eq, Option.isNone_iff_eq_none]
  rfl

/-- The state as the last repetition ends, an undefined next segment counted. -/
def lastRepEnded (s : State) : State :=
  let u := markUpTo s.mark.repEnd s
  if (tget {} s.mark.segs s.mark.seg).last then u else { u with mark := { u.mark with missing := u.mark.missing.bump } }

theorem exec_playbackEnd_of_no_stop (hgen : s.mark.gen = .playing) (hstop : s.mark.stopping = none) :
    exec .playbackEnd s = .next (if s.now < s.mark.repEnd ∨ s.mark.following ≠ none then s
      else endPlayback (lastRepEnded s)) := by
  have hexec : exec .playbackEnd s = execPlaybackEnd s := rfl
  simp only [hexec, execPlaybackEnd, hgen, hstop, Bool.or_eq_true, decide_eq_true_eq, Option.isSome_iff_ne_none]
  rfl

theorem lastRepEnded_of_last (h : (tget {} s.mark.segs s.mark.seg).last = true) :
    lastRepEnded s = markUpTo s.mark.repEnd s :=
  if_pos h

theorem lastRepEnded_of_undefined (h : (tget {} s.mark.segs s.mark.seg).last = false) :
    lastRepEnded s = { markUpTo s.mark.repEnd s with mark := { (markUpTo s.mark.repEnd s).mark with
      missing := (markUpTo s.mark.repEnd s).mark.missing.bump } } :=
  if_neg (by rw [h]; exact Bool.false_ne_true)

/-- A playback that something follows without a stop before does not end. -/
theorem exec_playbackEnd_of_following {n : Nat × Nat} (hgen : s.mark.gen = .playing) (hnext : s.mark.following = some n)
    (hlater : ∀ t, s.mark.stopping = some t → s.mark.repEnd < t) : exec .playbackEnd s = .next s := by
  have hsome : s.mark.following ≠ none := by simp [hnext]
  cases hstop : s.mark.stopping with
  | none => rw [exec_playbackEnd_of_no_stop hgen hstop, if_pos (.inr hsome)]
  | some t =>
    have hnot : ¬(t ≤ s.mark.repEnd ∨ s.mark.following = none) := not_or.mpr ⟨not_le.mpr (hlater t hstop), hsome⟩
    rw [exec_playbackEnd_of_stopping hgen hstop, if_neg hnot]

/-- A segment or repetition follows without a gap, and the playback goes on. -/
theorem exec_next_repetition {seg rep : Nat} (hgen : s.mark.gen = .playing) (hfin : s.mark.repEnd ≤ s.now)
    (hlater : ∀ t, s.mark.stopping = some t → s.mark.repEnd < t) (hnext : s.mark.following = some (seg, rep)) :
    exec .markerSegmentStart s = .next (beginRep seg rep s.mark.repEnd (markUpTo s.mark.repEnd s))
      ∧ exec .playbackEnd s = .next s :=
  ⟨exec_markerSegmentStart_of_following hgen hfin (stopsIn_of_after hlater) hnext,
    exec_playbackEnd_of_following hgen hnext hlater⟩

theorem exec_playbackEnd_of_stop {t : Nat} (hgen : s.mark.gen = .playing) (hstop : s.mark.stopping = some t)
    (ht : t ≤ s.mark.repEnd) : exec .playbackEnd s = .next (if s.now < t then s else playbackStopped t s) := by
  have hmin : Nat.min t s.mark.repEnd = t := Nat.min_eq_left ht
  rw [exec_playbackEnd_of_stopping hgen hstop, if_pos (.inl ht), hmin]

/-- A playback that ends before its stop leaves the outputs as the stop does. -/
theorem exec_playbackEnd_before_stop {t : Nat} (hgen : s.mark.gen = .playing) (hstop : s.mark.stopping = some t)
    (ht : s.mark.repEnd < t) (hfin : s.mark.repEnd ≤ s.now) (hend : s.mark.following = none) :
    exec .playbackEnd s = .next (playbackStopped s.mark.repEnd s) := by
  have hmin : Nat.min t s.mark.repEnd = s.mark.repEnd := Nat.min_eq_right ht.le
  rw [exec_playbackEnd_of_stopping hgen hstop, if_pos (.inr hend), hmin, if_neg (not_lt.mpr hfin)]

theorem exec_playbackEnd_at_end (hgen : s.mark.gen = .playing) (hstop : s.mark.stopping = none)
    (hfin : s.mark.repEnd ≤ s.now) (hend : s.mark.following = none) :
    exec .playbackEnd s = .next (endPlayback (lastRepEnded s)) := by
  rw [exec_playbackEnd_of_no_stop hgen hstop, if_neg (not_or.mpr ⟨not_lt.mpr hfin, not_not.mpr hend⟩)]

end

/-! ### Pulses of FOLLOW outputs (R318) -/

section
variable {k : Fin 32} {s : State}

theorem exec_followPulseEnd_of_none (h : (tget {} s.mark.outs k.val).pulseEnd = none) :
    exec (.followPulseEnd k) s = .next s := by
  have hexec : exec (.followPulseEnd k) s = execFollowPulseEnd k s := rfl
  simp only [hexec, execFollowPulseEnd, h]

theorem exec_followPulseEnd_of_some {t : Nat} (h : (tget {} s.mark.outs k.val).pulseEnd = some t) :
    exec (.followPulseEnd k) s = .next (if s.now < t + 120 then s else
      let f := followFall t (tget {} s.mark.outs k.val)
      { s with mark := { s.mark with outs := tset {} s.mark.outs k.val f.1, drops := s.mark.drops.add f.2 } }) := by
  have hexec : exec (.followPulseEnd k) s = execFollowPulseEnd k s := rfl
  simp only [hexec, execFollowPulseEnd, h]

theorem followFall_pulse (t : Nat) (o : MrkOut) :
    (followFall t o).1.pulseEnd = none ∧ (followFall t o).1.pulseRoot = none :=
  ⟨rfl, rfl⟩

end

end Sys2Proof.Machine
end

section
/-! Events of time elements (R347, R348). -/

namespace Sys2Proof.Machine

theorem Elem.done_iff (e : Elem) : e.done = true ↔ e.left = some 0 := beq_iff_eq

theorem Elem.advance_eq (e : Elem) : e.advance = { e with next := e.next + e.period, left := e.left.map (· - 1) } := by
  unfold Elem.advance
  split
  · next n h => rw [h]; rfl
  · next h => rw [h]; rfl

/-- An element with none left is inactive, once its window or pulse has ended. -/
theorem Elem.settle_eq {e : Elem} (hact : e.active = true) :
    e.settle = { e with active := e.high || decide (e.left ≠ some 0) } := by
  obtain ⟨_, root, next, period, len, left, pol, high, highEnd⟩ := e
  cases hact
  by_cases hleft : left = some 0
  · cases high <;> simp [Elem.settle, Elem.done, hleft]
  · cases high <;> simp [Elem.settle, Elem.done, hleft]

/-- An event leaves none exactly where one was left. -/
theorem left_pred_ne_zero {l : Option Nat} (h : l ≠ some 0) : l.map (· - 1) ≠ some 0 ↔ l ≠ some 1 := by
  cases l with
  | none => simp
  | some n =>
    have hn : n ≠ 0 := fun hn => h (congrArg some hn)
    simp only [Option.map_some, ne_eq, Option.some.injEq]
    omega

theorem Elem.settle_advance {e : Elem} (hact : e.active = true) (hleft : e.left ≠ some 0) :
    e.advance.settle = { e with
      next := e.next + e.period, left := e.left.map (· - 1), active := e.high || decide (e.left ≠ some 1) } := by
  rw [Elem.advance_eq, Elem.settle_eq (by exact hact)]
  simp only [left_pred_ne_zero hleft]

theorem exec_timerEvent_of_not {n : Fin 64} {s : State}
    (h : (s.elem 0 n.val).active = false ∨ (s.elem 0 n.val).left = some 0 ∨ s.now < (s.elem 0 n.val).next) :
    exec (.timerEvent n) s = .next s := by
  refine congrArg Host.Outcome.next (if_neg fun hdue => ?_)
  simp only [Bool.and_eq_true, Bool.not_eq_true', decide_eq_true_eq] at hdue
  obtain ⟨⟨hact, hdone⟩, hnext⟩ := hdue
  rcases h with h | h | h
  · exact Bool.noConfusion (h.symm.trans hact)
  · exact Bool.noConfusion (hdone.symm.trans ((Elem.done_iff _).mpr h))
  · exact absurd hnext (not_le.mpr h)

theorem exec_timerEvent_of_due {n : Fin 64} {s : State} (hact : (s.elem 0 n.val).active = true)
    (hleft : (s.elem 0 n.val).left ≠ some 0) (hnext : (s.elem 0 n.val).next ≤ s.now) : exec (.timerEvent n) s =
      .next (let u := s.setElem 0 n.val (s.elem 0 n.val).advance.settle
             if s.elemRuns (s.elem 0 n.val) then raiseEp (s.ep 9 n.val 0) u else u) := by
  have hdone : (s.elem 0 n.val).done = false := Bool.eq_false_iff.mpr (mt (Elem.done_iff _).mp hleft)
  exact congrArg Host.Outcome.next (if_pos (by rw [hact, hdone, decide_eq_true hnext]; rfl))

section
variable {el k : Nat} {s : State}

theorem elemEdge_of_inactive (h : (s.elem el k).active = false) : elemEdge el k s = s := if_pos (by rw [h]; rfl)

theorem elemEdge_of_high (hact : (s.elem el k).active = true) (hhigh : (s.elem el k).high = true) : elemEdge el k s =
    if (s.elem el k).highEnd ≤ s.now then
      s.setElem el k { s.elem el k with high := false, active := decide ((s.elem el k).left ≠ some 0) } else s := by
  have hedge : elemEdge el k s = if (s.elem el k).highEnd ≤ s.now then
      s.setElem el k (Elem.settle { s.elem el k with high := false }) else s :=
    (if_neg (by rw [hact]; exact Bool.false_ne_true)).trans (if_pos hhigh)
  rw [hedge, Elem.settle_eq (by exact hact)]
  rfl

section
variable (hact : (s.elem el k).active = true) (hhigh : (s.elem el k).high = false)
include hact hhigh

theorem elemEdge_of_not_due (h : (s.elem el k).left = some 0 ∨ s.now < (s.elem el k).next) : elemEdge el k s = s := by
  have hnot : ((s.elem el k).done = false ∧ (s.elem el k).next ≤ s.now) ↔ False := by
    refine iff_false_intro fun ⟨hdone, hnext⟩ => ?_
    rcases h with h | h
    · exact Bool.noConfusion (hdone.symm.trans ((Elem.done_iff _).mpr h))
    · exact absurd hnext (not_le.mpr h)
  simp only [elemEdge, hact, hhigh, Bool.not_true, Bool.false_eq_true, if_false, Bool.and_eq_true, Bool.not_eq_true',
    decide_eq_true_eq, hnot]

/-- A due edge opens the window or pulse where the element runs; a TIME_OUT stays low under a device fault. -/
theorem elemEdge_of_due (hleft : (s.elem el k).left ≠ some 0) (hnext : (s.elem el k).next ≤ s.now) : elemEdge el k s =
    s.setElem el k (if s.elemRuns (s.elem el k) = true ∧ (el = 2 → s.devFault.codes = []) then
      { (s.elem el k).advance with high := true, highEnd := (s.elem el k).next + (s.elem el k).len }
      else (s.elem el k).advance.settle) := by
  have hdone : (s.elem el k).done = false := Bool.eq_false_iff.mpr (mt (Elem.done_iff _).mp hleft)
  have hfault : ¬(el = 2 ∧ s.devFault.codes ≠ []) ↔ (el = 2 → s.devFault.codes = []) := by
    rw [not_and, not_not]
  simp only [elemEdge, hact, hhigh, hdone, decide_eq_true hnext, Bool.not_true, Bool.not_false, Bool.false_eq_true, if_false,
    Bool.and_true, if_true, Bool.and_eq_true, Bool.not_eq_true', ← Bool.decide_and, decide_eq_false_iff_not, hfault]

end

end

end Sys2Proof.Machine
end

section
/-! Capture, playback, pulse and time element events together (R296–R298, R302–R306, R312, R316, R318, R321, R347, R348). -/

namespace Sys2Proof.Machine

/-- Settles O56, engine by engine state, generator by generator state and element by element state. -/
theorem acquisitionMarkerAndTimerEvents : Obligations.AcquisitionMarkerAndTimerEvents := by
  unfold Obligations.AcquisitionMarkerAndTimerEvents
  refine ⟨fun x s => ⟨present_of_unlatched, fun t => present_of_latchTick⟩,
    fun e s => ⟨exec_armEvent_of_not, fun t => exec_armEvent_of_present⟩, ?fill,
    fun e s => ⟨raiseCapture_of_not_due, fun t => raiseCapture_of_due⟩, ?trig,
    fun e idx label t rest s => ⟨takeEdges_of_none, fun dir => takeEdges_of_ahead, takeEdges_of_force⟩, ?force, ?complete,
    ?rearm, fun _ _ _ _ => rfl, raiseTrigs_eq, ?start, ?playing, fun _ => rfl, fun k s => exec_followPulseEnd_of_none, ?pulse,
    ?timer, ?edge, fun _ _ => rfl, fun _ _ => rfl⟩
  case fill =>
    intro e s
    refine ⟨fillEvents_of_not, fun t hat hst => ⟨exec_writingBegins_early hst hat, fun hwriting hdue => ?_,
      exec_preTriggerFull_early hst hat, fun hwriting hdue hpre => ⟨_, exec_preTriggerFull_due hst hat hwriting hdue hpre⟩⟩⟩
    obtain ⟨k, m, n, hwrite⟩ := writeSegment_eq e.val s
    exact ⟨_, exec_writingBegins_due hst hat hwriting hdue, writeSegment_engine .., by rw [hwrite], by rw [hwrite]⟩
  case trig =>
    intro e idx instant label forced s
    refine ⟨fun h => ?_, fun hst hts hpre => ?_, fun t hst ht hlt hword hts => ?_, fun t hst ht h => ?_,
      trigger_of_rearming, trigger_of_unarmed⟩
    · rcases h with hst | ⟨hst, hshort⟩
      · exact trigger_of_filling hst
      · exact (trigger_of_waiting hst).trans (if_pos hshort)
    · exact (trigger_of_waiting hst).trans (if_neg (not_or.mpr ⟨not_lt.mpr hts, not_lt.mpr hpre⟩))
    · rw [trigger_of_capturing hst ht, if_pos ⟨⟨hlt, hword⟩, not_lt.mpr hts⟩]
      simp only [Bool.and_eq_true, Bool.not_eq_true']
      rfl
    · refine (trigger_of_capturing hst ht).trans (if_neg fun ⟨⟨hlt, hword⟩, hts⟩ => ?_)
      rcases h with h | h | h
      · exact absurd hlt (not_lt.mpr h)
      · exact h hword
      · exact hts h
  case force =>
    intro e xs s
    refine ⟨rfl, exec_forceTrigger_of_absent, fun t hpresent => ⟨fun hst => ?_, fun hidle hdone hprimed => ?_⟩⟩
    · refine (exec_forceTrigger_of_present hpresent).trans ?_
      rw [if_neg fun ⟨hidle, hdone, hprimed⟩ => hst.elim hidle (·.elim hdone hprimed)]
      rfl
    · refine (exec_forceTrigger_of_present hpresent).trans ?_
      rw [if_pos ⟨hidle, hdone, hprimed⟩]
      rfl
  case complete =>
    intro e xs s
    refine ⟨exec_captureComplete_of_not, fun t hst ht => ?_⟩
    have hexec := exec_captureComplete_of_capturing hst ht
    refine ⟨fun h => hexec.trans (congrArg _ (if_pos h)), fun hcount hnow => ?_⟩
    obtain ⟨hleft, owed, freed, hengine⟩ := captured_leaves e.val t (feed e.val xs s)
    refine ⟨_, hexec.trans (congrArg _ (if_neg (not_or.mpr ⟨not_lt.mpr hcount, not_lt.mpr hnow⟩))), ?_⟩
    rw [hengine]
    exact ⟨rfl, rfl, rfl, rfl, rfl, same_of_withoutCaptures hleft State.burins fun _ => rfl,
      same_of_withoutCaptures hleft State.chans fun _ => rfl⟩
  case rearm =>
    intro e s howed
    refine ⟨fun h => ?_, fun hst hnow hseg => ?_, fun hst hnow hseg => ?_⟩
    · by_cases hst : (s.engine e.val).st = .rearming
      · have hearly : s.now < (s.engine e.val).rearmFrom := h.resolve_left (not_not.mpr hst)
        exact (exec_rearmEnd_of_rearming hst howed).trans (congrArg _ (if_pos hearly))
      · exact exec_rearmEnd_of_not hst
    · exact (exec_rearmEnd_of_rearming hst howed).trans
        (congrArg _ ((if_neg (not_lt.mpr hnow)).trans (if_neg (not_lt.mpr hseg))))
    · exact (exec_rearmEnd_of_rearming hst howed).trans (congrArg _ ((if_neg (not_lt.mpr hnow)).trans (if_pos hseg)))
  case start =>
    intro s
    refine ⟨fun t => exec_playbackStart_of_armed, fun t => exec_playbackStart_of_shot,
      fun t hgen hat => ⟨_, rfl, exec_playbackStart_of_cut hgen hat⟩, exec_playbackStart_of_no_origin,
      fun d => exec_playbackStart_of_sync, fun hgen => ?_⟩
    have hnot : s.mark.gen ≠ .playing := by rw [hgen]; exact MrkGen.noConfusion
    exact ⟨exec_playbackStart_of_idle hgen, exec_markerSegmentStart_of_not_playing hnot, exec_playbackEnd_of_not_playing hnot⟩
  case playing =>
    intro s hgen
    refine ⟨fun hnow => ⟨exec_markerSegmentStart_of_early hnow, fun hstop => ?_⟩, fun t hstop ht => ?_,
      fun hfin hlater => ⟨fun hrep => ?_, fun hrep hlast hlen => ?_, fun hrep h => ?_, fun hrep hlast hstop => ?_,
        fun hrep hlast hlen hstop => ?_⟩⟩
    · rw [exec_playbackEnd_of_no_stop hgen hstop, if_pos (.inl hnow)]
    · exact ⟨exec_markerSegmentStart_of_stopsIn (stopsIn_of_le hstop ht), exec_playbackEnd_of_stop hgen hstop ht⟩
    · exact exec_next_repetition hgen hfin hlater (following_of_rep hrep)
    · exact exec_next_repetition hgen hfin hlater (following_of_next hrep hlast hlen)
    · have hend := following_of_end hrep h
      exact ⟨exec_markerSegmentStart_of_end hend,
        fun t hstop => exec_playbackEnd_before_stop hgen hstop (hlater t hstop) hfin hend⟩
    · rw [exec_playbackEnd_at_end hgen hstop hfin (following_of_end hrep (.inl hlast)), lastRepEnded_of_last hlast]
      rfl
    · rw [exec_playbackEnd_at_end hgen hstop hfin (following_of_end hrep (.inr hlen)), lastRepEnded_of_undefined hlast]
      exact ⟨_, rfl, rfl, rfl⟩
  case pulse =>
    intro k t s h
    have hexec := exec_followPulseEnd_of_some h
    refine ⟨fun hnow => hexec.trans (congrArg _ (if_pos hnow)), fun hdue => ?_⟩
    obtain ⟨hend, hroot⟩ := followFall_pulse t (tget {} s.mark.outs k.val)
    refine ⟨_, hexec.trans (congrArg _ (if_neg (not_lt.mpr hdue))), ?_, ?_, rfl, rfl, fun j hj => tget_tset_ne _ _ _ _ _ hj⟩
    · rw [tget_tset_self, hend]
    · rw [tget_tset_self, hroot]
  case timer =>
    intro n s
    refine ⟨exec_timerEvent_of_not, fun hact hleft hnext => ?_⟩
    rw [exec_timerEvent_of_due hact hleft hnext, Elem.settle_advance hact hleft, hact]
    rfl
  case edge =>
    intro el k s
    refine ⟨elemEdge_of_inactive, elemEdge_of_high, elemEdge_of_not_due, fun hact hhigh hleft hnext => ?_⟩
    rw [elemEdge_of_due hact hhigh hleft hnext, Elem.settle_advance hact hleft, Elem.advance_eq, hhigh]
    rfl

end Sys2Proof.Machine
end

section
/-! MARK_LOAD: the marker generator loaded, configured, started and stopped (R311, R313–R315, R320–R322, R422). -/

namespace Sys2Proof.Machine

theorem genBusy_of_idle {s : State} (h : s.mark.gen = .idle) : s.genBusy = false :=
  decide_eq_false (not_not.mpr h)

/-! ### LOAD (R313–R315, R320, R422) -/

/-- A LOAD in rule, whose domains are On and not under proof, while the generator is idle; its source holds the vectors,
timing-set entries and segments in order. -/
structure State.TakesPattern (s : State) (first count tsmask segFirst segCount src : Nat) (vs ts : List (Nat × Nat))
    (gs : List MrkSeg) : Prop where
  vectorsFit : first + count ≤ 65536
  setsFit : tsmask < 256
  segsFit : segFirst + segCount ≤ 256
  staged : srcOk src (markBytes count tsmask segCount) = true
  markOn : s.isOn 5 = true
  untested : s.testing 5 = false
  memOn : s.isOn 4 = true
  idle : s.mark.gen = .idle
  good : s.poisoned src (markBytes count tsmask segCount) = false
  vectors : readItems (readVector s) 16 src count = some vs
  tsets : readItems (readTset s) 2 (src + 16 * count) (32 * (tsList tsmask).length) = some ts
  segs : readItems (readMrkSeg s) 16 (src + 16 * count + 64 * (tsList tsmask).length) segCount = some gs

section
variable {s : State} {first count tsmask segFirst segCount src : Nat} {vs ts : List (Nat × Nat)} {gs : List MrkSeg}
  (h : s.TakesPattern first count tsmask segFirst segCount src vs ts gs)
include h

/-- Reading the command's entry keeps it so. -/
theorem State.TakesPattern.takeEntry (q : Nat) :
    (takeEntry q s).TakesPattern first count tsmask segFirst segCount src vs ts gs where
  vectorsFit := h.vectorsFit
  setsFit := h.setsFit
  segsFit := h.segsFit
  staged := h.staged
  markOn := h.markOn
  untested := h.untested
  memOn := h.memOn
  idle := h.idle
  good := h.good
  vectors := h.vectors
  tsets := h.tsets
  segs := h.segs

/-- A LOAD in rule writes the ranges it names and nothing else. -/
theorem markLoadReply_of_takes : markLoadReply first count tsmask segFirst segCount src s =
    { s := { s with mark := { s.mark with
        vectors := tsetRun (0, 0) s.mark.vectors first vs
        tsets := (((tsList tsmask).flatMap fun i => (List.range 32).map (i * 32 + ·)).zip ts).foldl
          (fun m e => tset (0, 0) m e.1 e.2) s.mark.tsets
        segs := tsetRun {} s.mark.segs segFirst gs } } } := by
  have hsegs : (256 < segCount || 256 < segFirst + segCount) = false := by
    simpa using ⟨le_of_add_le_right h.segsFit, h.segsFit⟩
  simp only [markLoadReply, not_lt.mpr h.vectorsFit, not_le.mpr h.setsFit, hsegs, h.staged, h.markOn, h.untested, h.memOn,
    genBusy_of_idle h.idle, h.good, h.vectors, h.tsets, h.segs, Bool.not_true, Bool.false_eq_true, if_false]

end

theorem markLoad_ends {h : Hdr} {first count tsmask segFirst segCount src : Nat} {s : State}
    (hs : served (.markLoadLoad h first count tsmask segFirst segCount src) s = true) :
    Ends (.markLoadLoad h first count tsmask segFirst segCount src) s
      (markLoadReply first count tsmask segFirst segCount src) :=
  ends_of rfl hs rfl

/-! ### CONFIG (R311, R320) -/

/-- A CONFIG of an idle generator, or of outputs of which none is in PATTERN, is not held up by playback. -/
theorem playback_not_in_way {s : State} {outputs : Word}
    (h : s.mark.gen = .idle ∨ ∀ k, k < 32 → outputs.toNat.testBit k = true → (tget {} s.mark.outs k).mode ≠ 1) :
    (s.genBusy && (mrkOuts outputs).any fun k => (tget {} s.mark.outs k).mode == 1) = false := by
  rcases h with hidle | hnone
  · rw [genBusy_of_idle hidle, Bool.false_and]
  · have hany : ((mrkOuts outputs).any fun k => (tget {} s.mark.outs k).mode == 1) = false :=
      List.any_eq_false.mpr fun k hk hmode => by
        obtain ⟨hrange, hbit⟩ := List.mem_filter.mp hk
        exact hnone k (List.mem_range.mp hrange) hbit (beq_iff_eq.mp hmode)
    rw [hany, Bool.and_false]

/-- The operands of a CONFIG in the ranges of R317. -/
structure ConfigInRule (mode idle : Nat) (offs : Int) (fw sosel : Nat) : Prop where
  mode : mode ≤ 2
  idle : idle ≤ 1
  offs : -256 ≤ offs ∧ offs ≤ 255
  fw : 1 ≤ fw ∧ fw ≤ 255
  sosel : sosel ≤ 31 ∨ sosel = 0xFF

/-- A CONFIG in rule sets each output it names, whose edges up to now have been emitted, and SOSEL where it says so. -/
theorem markConfigReply_of_rule {mode idle : Nat} {offs : Int} {fw sosel : Nat} (hrule : ConfigInRule mode idle offs fw sosel)
    {outputs : Word} {s : State} (hon : s.isOn 5 = true) (htest : s.testing 5 = false)
    (hfree : (s.genBusy && (mrkOuts outputs).any fun k => (tget {} s.mark.outs k).mode == 1) = false) (setSo : Bool) :
    markConfigReply outputs mode idle offs fw sosel setSo s =
      let u := each (configOut mode idle offs fw) (mrkOuts outputs) (markUpTo s.now s)
      { s := if setSo then { u with mark := { u.mark with sosel } } else u } := by
  obtain ⟨hmode, hidle, ⟨hlow, hhigh⟩, ⟨hfw, hwide⟩, hsosel⟩ := hrule
  have hoffs : (offs < -256 || 255 < offs) = false := by simpa using ⟨hlow, hhigh⟩
  have hwidth : (fw = 0 || 255 < fw) = false := by simpa using ⟨by omega, hwide⟩
  have hsync : (setSo && 31 < sosel && sosel ≠ 0xFF) = false := by
    rcases hsosel with hout | rfl
    · simp [not_lt.mpr hout]
    · simp
  simp only [markConfigReply, not_lt.mpr hmode, not_lt.mpr hidle, hoffs, hwidth, hsync, hon, htest, hfree, decide_false,
    Bool.and_false, Bool.not_true, Bool.false_eq_true, if_false]

theorem markConfig_ends {h : Hdr} {outputs : Word} {mode idle : Nat} {offs : Int} {fw sosel : Nat} {setSo : Bool} {s : State}
    (hs : served (.markLoadConfig h outputs mode idle offs fw sosel setSo) s = true) :
    Ends (.markLoadConfig h outputs mode idle offs fw sosel setSo) s (markConfigReply outputs mode idle offs fw sosel setSo) :=
  ends_of rfl hs rfl

/-! ### START (R321) -/

/-- The generator that a START leaves: NOW armed at the tick `soon`, AT at the tick `named`. -/
def startGen (source delay : Nat) (named : Int) (soon : Nat) : MrkGen :=
  match source with
  | 0 => .armed soon
  | 1 => .armed named.toNat
  | 2 => .sync delay
  | _ => .shot

/-- The state that a START leaves: generator, first segment, source and root as it says, nothing left of a start before. -/
def armMarks (root seg source : Nat) (gen : MrkGen) (t : State) : State :=
  { t with mark := { t.mark with
    gen, first := seg, shotSrc := decide (source = 3), named := decide (source = 1), synced := false, stopping := none, shotAt := none
    root := if root = 0xFFFFFFFF then none else some (t.keyOf root) } }

/-- What a START in rule does: SHOT names a root, AT is not LATE. Both ticks are arguments, so that comparing them never
unfolds how they are counted. -/
def startReply (root seg source delay : Nat) (named : Int) (soon : Nat) (t : State) : Reply :=
  if source = 3 ∧ root = 0xFFFFFFFF then { s := t, status := 2, why := .field 4 }
  else if source = 1 ∧ named < (soon : Int) then { s := t, status := 6, why := .field 16 }
  else { s := armMarks root seg source (startGen source delay named soon) t, result := if source = 0 then soon % 2 ^ 48 else 0 }

/-- Operands of a START in rule, whose first segment is defined, while the generator is idle in a domain that is On and
not under proof. -/
structure State.TakesStart (s : State) (root seg delay : Nat) (time : Stamp) : Prop where
  names : root = 0xFFFFFFFF ∨ s.rootNamed root = true
  segNum : seg < 256
  delay : delay < 65536
  time : time.ns < 1000000000
  markOn : s.isOn 5 = true
  untested : s.testing 5 = false
  defined : (tget {} s.mark.segs seg).len ≠ 0
  idle : s.mark.gen = .idle

section
variable {s : State} {root seg source delay : Nat} {time : Stamp} (h : s.TakesStart root seg delay time)
include h

/-- Reading the command's entry keeps it so. -/
theorem State.TakesStart.takeEntry (q : Nat) : (takeEntry q s).TakesStart root seg delay time where
  names := h.names
  segNum := h.segNum
  delay := h.delay
  time := h.time
  markOn := h.markOn
  untested := h.untested
  defined := h.defined
  idle := h.idle

theorem markStartReply_of_takes (hsource : source ≤ 3) : markStartReply root seg source delay time s =
    startReply root seg source delay (s.coarseOf (stampTicks time)) (s.now + 200000) s := by
  have hnames : (root ≠ 0xFFFFFFFF && !s.rootNamed root) = false := by
    rcases h.names with rfl | hnamed
    · rfl
    · rw [hnamed, Bool.not_true, Bool.and_false]
  have hok : stampOk time = true := decide_eq_true h.time
  rw [← us_ten]
  simp only [markStartReply, hnames, not_le.mpr h.segNum, not_lt.mpr hsource, not_le.mpr h.delay, hok, h.markOn, h.untested,
    h.defined, genBusy_of_idle h.idle, Bool.not_true, Bool.false_eq_true, if_false, Bool.and_eq_true, decide_eq_true_eq]
  rfl

/-- A START in rule answers as its source says, by ticks counted before its entry is taken. -/
theorem markStart_ends {hdr : Hdr} (hs : served (.markLoadStart hdr root seg source delay time) s = true) (hsource : source ≤ 3) :
    Ends (.markLoadStart hdr root seg source delay time) s
      (startReply root seg source delay (s.coarseOf (stampTicks time)) (s.now + 200000)) :=
  have hends : Ends (.markLoadStart hdr root seg source delay time) s (markStartReply root seg source delay time) :=
    ends_of rfl hs rfl
  hends.congr fun _ _ => markStartReply_of_takes (h.takeEntry _) hsource

end

section
variable {root seg source delay : Nat} {named : Int} {soon : Nat} (t : State)

theorem startReply_of_no_root : startReply 0xFFFFFFFF seg 3 delay named soon t = { s := t, status := 2, why := .field 4 } :=
  if_pos ⟨rfl, rfl⟩

theorem startReply_of_late (h : named < (soon : Int)) :
    startReply root seg 1 delay named soon t = { s := t, status := 6, why := .field 16 } :=
  (if_neg nofun).trans (if_pos ⟨rfl, h⟩)

/-- A START that names its root and is not late arms. -/
theorem startReply_of_armed (hroot : source = 3 → root ≠ 0xFFFFFFFF) (hahead : source = 1 → (soon : Int) ≤ named) :
    startReply root seg source delay named soon t =
      { s := armMarks root seg source (startGen source delay named soon) t, result := if source = 0 then soon % 2 ^ 48 else 0 } :=
  (if_neg fun ⟨hshot, hnone⟩ => hroot hshot hnone).trans (if_neg fun ⟨hat, hlate⟩ => not_lt.mpr (hahead hat) hlate)

end

/-! ### STOP (R322, R325) -/

theorem markStop_ends {h : Hdr} {s : State} (hs : served (.markLoadStop h) s = true) :
    Ends (.markLoadStop h) s markStopReply :=
  ends_of rfl hs rfl

theorem markStopReply_eq (t : State) : markStopReply t =
    if t.mark.gen = .playing ∨ t.mark.synced = true then
      { s := { t with mark := { t.mark with stopping := some (t.now / 16 * 16 + 16), shotSrc := false, shotAt := none } } }
    else { s := { patternIdle (genIdle t) with mark := { (patternIdle (genIdle t)).mark with root := none } } } := by
  simp only [markStopReply, Bool.or_eq_true, decide_eq_true_eq]
  rfl

/-- Settles O27: LOAD and CONFIG in rule, START by its source, STOP by whether a playback is under way or certain. -/
theorem markerCommandsComplete : Obligations.MarkerCommandsComplete := by
  unfold Obligations.MarkerCommandsComplete
  refine ⟨?load, ?config, ?start, ?stop⟩
  case load =>
    intro h first count tsmask segFirst segCount src s vs ts gs hs hvectors hsets hsegs halign sets n hstaging hon htest hmem
      hidle hgood hvs hts hgs
    have hin : s.TakesPattern first count tsmask segFirst segCount src vs ts gs :=
      ⟨hvectors, hsets, hsegs, srcOk_of_aligned halign hstaging, hon, htest, hmem, hidle, hgood, hvs, hts, hgs⟩
    exact (markLoad_ends hs).congr fun _ _ => markLoadReply_of_takes (hin.takeEntry _)
  case config =>
    intro h outputs mode idle offs fw sosel setSo s hs hmode hidle hlow hhigh hfw hwide hsosel hon htest hfree
    have hrule : ConfigInRule mode idle offs fw sosel := ⟨hmode, hidle, ⟨hlow, hhigh⟩, ⟨hfw, hwide⟩, hsosel⟩
    exact (markConfig_ends hs).congr fun m _ =>
      markConfigReply_of_rule (s := takeEntry m.h.sq.val s) hrule hon htest (playback_not_in_way hfree) setSo
  case start =>
    intro h root seg source delay time s hs hnames hseg hdelay hns hon htest hdefined hidle arm
    have hin : s.TakesStart root seg delay time := ⟨hnames, hseg, hdelay, hns, hon, htest, hdefined, hidle⟩
    refine ⟨fun hnow => ?_, fun hat hahead => ?_, fun hat hlate => ?_, fun hsync => ?_, fun hshot hroot => ?_,
      fun hshot hnone => ?_⟩
    · subst hnow
      exact (markStart_ends hin hs (by decide)).congr fun _ _ => startReply_of_armed _ nofun nofun
    · subst hat
      exact (markStart_ends hin hs (by decide)).congr fun _ _ =>
        startReply_of_armed _ nofun fun _ => by push_cast; exact hahead
    · subst hat
      exact (markStart_ends hin hs (by decide)).congr fun _ _ => startReply_of_late _ (by push_cast; exact hlate)
    · subst hsync
      exact (markStart_ends hin hs (by decide)).congr fun _ _ => startReply_of_armed _ nofun nofun
    · subst hshot
      exact (markStart_ends hin hs (by decide)).congr fun _ _ => startReply_of_armed _ (fun _ => hroot) nofun
    · subst hshot hnone
      exact (markStart_ends hin hs (by decide)).congr fun _ _ => startReply_of_no_root _
  case stop =>
    intro h s hs
    refine ⟨fun hplay => (markStop_ends hs).congr fun _ _ => ?_, fun hgen hsynced => (markStop_ends hs).congr fun _ _ => ?_⟩
    · exact (markStopReply_eq _).trans (if_pos hplay)
    · exact (markStopReply_eq _).trans (if_neg (not_or.mpr ⟨hgen, ne_true_of_eq_false hsynced⟩))

end Sys2Proof.Machine
end

section
/-! Timing inputs, stamp channels and host measurements (R234, R321, R325, R346, R351–R354, R357–R359). -/

namespace Sys2Proof.Machine

/-! ### TRIG_IN (R351) -/

theorem trigEvents_of_not_due {s : State} (h : ∀ e ∈ s.sys.trigDue, s.now < e.1) : trigEvents s = s :=
  if_pos (List.filter_eq_nil_iff.mpr fun e he => by simpa using h e he)

theorem trigEvents_of_due {s : State} {t pin : Nat} {rising : Bool} (h : s.sys.trigDue = [(t, pin, rising)]) (hdue : t ≤ s.now) :
    trigEvents s = raiseEp (s.ep 7 pin (if rising = true then 0 else 1)) { s with sys := { s.sys with trigDue := [] } } := by
  simp only [trigEvents, h, List.filter_cons, List.filter_nil, hdue, not_lt.mpr hdue, decide_true, decide_false, if_true,
    if_false, Bool.false_eq_true]
  rfl

/-! ### SYNC_IN (R234, R321, R325, R346) -/

theorem inject_sys (ch i : Nat) (pay : BitVec 64) (x : Sys) (s : State) :
    inject ch i pay { s with sys := x } = { inject ch i pay s with sys := x } := by
  by_cases hfree : (tget {} (s.chan ch).inj i).free (s.chan ch).rs s.now = true
  · rw [inject_eq ch s, if_pos hfree]
    exact if_pos hfree
  · rw [inject_eq ch s, if_neg hfree]
    exact if_neg hfree

/-- Raising an event touches channels and their counters, and no input has a part in it. -/
theorem raiseEp_eq (e : Nat) (s : State) :
    ∃ c k, ∀ x, raiseEp e { s with sys := x } = { s with sys := x, chans := c, chCtrs := k } := by
  have hraise (x : Sys) : raiseEp e { s with sys := x } = { raiseEp e s with sys := x } := by
    unfold raiseEp
    rw [show ({ s with sys := x } : State).chanOfProd e = s.chanOfProd e from rfl]
    cases s.chanOfProd e with
    | none => rfl
    | some ch =>
      exact inject_sys ..
  have hframe : ∃ c k, raiseEp e s = { s with chans := c, chCtrs := k } := by
    unfold raiseEp
    split
    · rw [inject_eq]
      split
      · exact ⟨_, _, rfl⟩
      · exact ⟨_, _, rfl⟩
    · exact ⟨_, _, rfl⟩
  obtain ⟨c, k, hck⟩ := hframe
  exact ⟨c, k, fun x => by rw [hraise, hck]⟩

/-- What a REFCLK edge that samples SYNC_IN high leaves before anything armed takes it. -/
def syncSampled (s : State) : State :=
  (if s.syncWasLow then raiseEp (s.ep 10 0 0) else id) { s with sys := { s.sys with syncHigh := some s.now } }

theorem syncSampled_eq (s : State) : ∃ c k,
    syncSampled s = { s with sys := { s.sys with syncHigh := some s.now }, chans := c, chCtrs := k }
    ∧ c = if s.syncWasLow = true then (raiseEp (s.ep 10 0 0) s).chans else s.chans := by
  unfold syncSampled
  split
  · obtain ⟨c, k, hraise⟩ := raiseEp_eq (s.ep 10 0 0) s
    exact ⟨c, k, hraise _, (congrArg State.chans (hraise s.sys)).symm⟩
  · exact ⟨s.chans, s.chCtrs, rfl, rfl⟩

theorem alignEdge_eq (s : State) : ∃ a, alignEdge s = { s with alignArm := a }
    ∧ (∀ d, s.alignArm = some (.sync d) → a = some (.at (s.now + d) false))
    ∧ ((∀ d, s.alignArm ≠ some (.sync d)) → a = s.alignArm) := by
  unfold alignEdge
  split
  · next d harm =>
    refine ⟨_, rfl, fun d' h => ?_, fun h => absurd harm (h d)⟩
    rw [harm] at h
    cases h
    rfl
  · next hnot => exact ⟨_, rfl, fun d h => absurd h (hnot d), fun _ => rfl⟩

theorem markEdge_eq (s : State) : ∃ m, markEdge s = { s with mark := m }
    ∧ (∀ d, s.mark.gen = .sync d → m = { s.mark with gen := .armed (s.now + d), synced := true })
    ∧ ((∀ d, s.mark.gen ≠ .sync d) → m = s.mark) := by
  unfold markEdge
  split
  · next d hgen =>
    refine ⟨_, rfl, fun d' h => ?_, fun h => absurd hgen (h d)⟩
    rw [hgen] at h
    cases h
    rfl
  · next hnot => exact ⟨_, rfl, fun d h => absurd h (hnot d), fun _ => rfl⟩

theorem exec_syncInEdge_of_no_refclk {s : State} (h : s.sys.refclk = false) : exec .syncInEdge s = .next s :=
  congrArg _ (if_pos (by rw [h]; rfl))

theorem exec_syncInEdge_of_refclk {s : State} (h : s.sys.refclk = true) : exec .syncInEdge s =
    .next (if s.stamps 1 = true then markEdge (alignEdge (syncSampled s)) else syncSampled s) := by
  obtain ⟨c, k, hs, -⟩ := syncSampled_eq s
  have hstamps : (syncSampled s).stamps 1 = s.stamps 1 := by rw [hs]; rfl
  rw [← hstamps]
  exact congrArg _ (if_neg (by rw [h]; decide))

theorem State.syncWasLow_iff (s : State) : s.syncWasLow = true ↔ ∀ h, s.sys.syncHigh = some h → h + 300 ≤ s.now := by
  unfold State.syncWasLow
  split
  · next t ht => simp [ht]
  · next hnone => simp [hnone]

/-- An edge of a reference that is present goes to what waits for SYNC_IN where the reference channel stamps, and to the
channel of SYNC_IN where it was low before. -/
theorem exec_syncInEdge_spec {s : State} (href : s.sys.refclk = true) : ∃ t, exec .syncInEdge s = .next t
    ∧ (∀ d, s.stamps 1 = true → s.alignArm = some (.sync d) → t.alignArm = some (.at (s.now + d) false))
    ∧ (s.stamps 1 = false ∨ (∀ d, s.alignArm ≠ some (.sync d)) → t.alignArm = s.alignArm)
    ∧ (∀ d, s.stamps 1 = true → s.mark.gen = .sync d → t.mark = { s.mark with gen := .armed (s.now + d), synced := true })
    ∧ (s.stamps 1 = false ∨ (∀ d, s.mark.gen ≠ .sync d) → t.mark = s.mark)
    ∧ t.sys.syncHigh = some s.now ∧ (t.chans = if s.syncWasLow = true then (raiseEp (s.ep 10 0 0) s).chans else s.chans)
    ∧ t.burins = s.burins := by
  obtain ⟨c, k, hs, hc⟩ := syncSampled_eq s
  have hexec := exec_syncInEdge_of_refclk href
  by_cases hst : s.stamps 1 = true
  · obtain ⟨a, ha, hsync, hother⟩ := alignEdge_eq (syncSampled s)
    obtain ⟨m, hm, hgen, hgenOther⟩ := markEdge_eq (alignEdge (syncSampled s))
    have hno : ¬ s.stamps 1 = false := by rw [hst]; decide
    rw [if_pos hst, hm, ha, hs] at hexec
    rw [hs] at hsync hother
    rw [ha, hs] at hgen hgenOther
    exact ⟨_, hexec, fun d _ => hsync d, fun h => hother (h.resolve_left hno), fun d _ => hgen d,
      fun h => hgenOther (h.resolve_left hno), rfl, hc, rfl⟩
  · rw [if_neg hst, hs] at hexec
    exact ⟨_, hexec, fun _ h => absurd h hst, fun _ => rfl, fun _ h => absurd h hst, fun _ => rfl, rfl, hc, rfl⟩

/-! ### Stamp channels (R351–R354) -/

theorem exec_loopLock (chan : Fin 3) (s : State) : exec (.loopLock chan) s = .next (
    if s.isOn (stampDom chan.val) = true ∧ s.sys.refclk = true then
      s.setStampChan chan.val { s.stampChan chan.val with locked := true }
    else s) := by
  simp only [← Bool.and_eq_true]
  rfl

theorem exec_coreCalibration (chan : Fin 3) (core : Fin 5) (hits : List Nat) (s : State) :
    exec (.coreCalibration chan core hits) s = .next (
      if s.isOn (stampDom chan.val) = true ∧ (s.stampChan chan.val).locked = true ∧ (s.stampChan chan.val).calCore = core.val
          ∧ hits.sum = 65536 then
        s.setStampChan chan.val { s.stampChan chan.val with
          w := tset [] (s.stampChan chan.val).w core.val hits, cald := (s.stampChan chan.val).cald ||| 2 ^ core.val
          calCore := (core.val + 1) % 5 }
      else s) := by
  have hcond : (!s.isOn (stampDom chan.val) || !(s.stampChan chan.val).locked || (s.stampChan chan.val).calCore ≠ core.val
      || hits.sum ≠ 65536) = true ↔ ¬(s.isOn (stampDom chan.val) = true ∧ (s.stampChan chan.val).locked = true
        ∧ (s.stampChan chan.val).calCore = core.val ∧ hits.sum = 65536) := by
    simp only [Bool.or_eq_true, Bool.not_eq_true', decide_eq_true_eq, ne_eq, not_and_or, Bool.not_eq_true, or_assoc]
  exact congrArg Host.Outcome.next ((if_congr hcond rfl rfl).trans (ite_not _ _ _))

section
variable {src : Fin 11} {falling : Bool} {c2 n : Nat} {s : State}

theorem exec_stamp_of_unlocked (h : s.stamps (srcChan src.val) = false) :
    exec (.stamp src falling c2 n) s = .next (unstamped src.val c2 s) :=
  congrArg _ (if_pos (by rw [h]; rfl))

/-- A core that takes an edge at a tick: neither in calibration nor busy (R352). -/
def StampChan.Idle (c : StampChan) (tick k : Nat) : Prop := k ≠ c.calCore ∧ tget 0 c.busy k ≤ tick

theorem StampChan.free_eq_none {c : StampChan} {tick : Nat} (h : ∀ k, k < 5 → ¬c.Idle tick k) : c.free tick = none :=
  List.find?_range_eq_none.mpr fun k hk => by simpa [StampChan.Idle, imp_iff_not_or] using h k hk

/-- The lowest core that can takes the edge. -/
theorem StampChan.free_eq_some {c : StampChan} {tick k : Nat} (hk : k < 5) (hidle : c.Idle tick k)
    (hlow : ∀ j, j < k → ¬c.Idle tick j) : c.free tick = some k :=
  List.find?_range_eq_some.mpr ⟨by simpa [StampChan.Idle] using hidle, List.mem_range.mpr hk,
    fun j hj => by simpa [StampChan.Idle, imp_iff_not_or] using hlow j hj⟩

section
variable (hst : s.stamps (srcChan src.val) = true)
include hst

theorem exec_stamp_of_no_core (hnone : ∀ k, k < 5 → ¬(s.stampChan (srcChan src.val)).Idle c2 k) :
    exec (.stamp src falling c2 n) s = .next (mergeEdge src.val c2 s) := by
  refine congrArg Host.Outcome.next ((if_neg (by rw [hst]; decide)).trans ?_)
  rw [StampChan.free_eq_none hnone]

/-- The stamp is the tick edge less the vernier's interval, and goes to the engines that capture and measure its source. -/
theorem exec_stamp_of_core {k : Nat} (hk : k < 5) (hidle : (s.stampChan (srcChan src.val)).Idle c2 k)
    (hlow : ∀ j, j < k → ¬(s.stampChan (srcChan src.val)).Idle c2 j) :
    let c := s.stampChan (srcChan src.val)
    let ps : Int := (c2 * 50 : Nat) - (vernier (tget [] c.w k) n : Int)
    let u := s.setStampChan (srcChan src.val) { c with busy := tset 0 c.busy k (c2 + (51 * n + 49) / 50 + 30) }
    exec (.stamp src falling c2 n) s = .next (each (tiuTake src.val falling ps) (List.range 4)
      (if src.val < 8 then pinEdge src.val (!falling) ps u else u)) := by
  refine congrArg Host.Outcome.next ((if_neg (by rw [hst]; decide)).trans ?_)
  rw [StampChan.free_eq_some hk hidle hlow]

end

end

/-! ### Stamps that an engine takes (R357–R359) -/

/-- EDGE 0 stamps rising edges, 1 falling ones and 2 both (R357). -/
theorem edgeFits_of_kind {edge : Nat} {falling : Bool}
    (h : edge = 2 ∨ edge = 0 ∧ falling = false ∨ edge = 1 ∧ falling = true) : edgeFits edge falling = true := by
  rcases h with rfl | ⟨rfl, rfl⟩ | ⟨rfl, rfl⟩ <;> rfl

section
variable {src e : Nat} {falling : Bool} {ps : Int} {s : State}

theorem tiuTake_of_not_open (h : (s.tiuEng e).running = false ∨ (ps / 50).toNat < (s.tiuEng e).gateOpen) :
    tiuTake src falling ps e s = s :=
  if_pos (by simp only [Bool.or_eq_true, Bool.not_eq_true', decide_eq_true_eq]; exact h.imp_left .inl)

section
variable (hrun : (s.tiuEng e).running = true) (hfits : edgeFits (s.tiuEng e).set.edge falling = true)
  (hopen : (s.tiuEng e).gateOpen ≤ (ps / 50).toNat)
include hrun hfits hopen

theorem tiuTake_of_stamp (hmode : (s.tiuEng e).set.mode = 1) : tiuTake src falling ps e s =
    if (s.tiuEng e).set.srca = src then stampRecord e src falling ps s else s := by
  simp only [tiuTake, hrun, hfits, not_lt.mpr hopen, hmode, decide_false, Bool.not_true, Bool.or_false, Bool.false_eq_true,
    if_false, if_true]

/-- In the open gate of a FREQ engine every DIVth edge gives a value. -/
theorem tiuTake_of_freq (hin : (ps / 50).toNat < (s.tiuEng e).gateOpen + (s.tiuEng e).set.gate)
    (hmode : (s.tiuEng e).set.mode = 3) :
    tiuTake src falling ps e s = if (s.tiuEng e).set.srca ≠ src then s else s.setTiuEng e
      (if 0 < (s.tiuEng e).skip then { s.tiuEng e with skip := (s.tiuEng e).skip - 1 }
        else { s.tiuEng e with vals := ps :: (s.tiuEng e).vals, skip := (s.tiuEng e).set.div - 1 }) := by
  have hgates : ((ps / 50).toNat - (s.tiuEng e).gateOpen) / (s.tiuEng e).set.gate = 0 := Nat.div_eq_of_lt (by omega)
  have hnot : ¬((!(s.tiuEng e).running || !edgeFits (s.tiuEng e).set.edge falling
      || decide ((ps / 50).toNat < (s.tiuEng e).gateOpen)) = true) := by
    simp [hrun, hfits, hopen]
  unfold tiuTake
  rw [if_neg hnot, if_neg (by rw [hmode]; decide), hgates]
  exact (if_neg (by rw [closeGates, hrun]; decide)).trans (if_pos hmode)

end

end

/-! ### Gates (R357, R358) -/

theorem tiuEng_ringPut {k : Nat} {bytes : List Byte} {tag : Option (Nat × Nat)} {s t : State} (h : ringPut k bytes tag s = some t)
    (e : Nat) : t.tiuEng e = s.tiuEng e :=
  same_of_withoutReports (withoutReports_ringPut h) (State.tiuEng · e) fun _ => rfl

/-- A record takes the engine's next number, and is dropped where the ring has no room (R442). -/
theorem tiuEng_tiuWrite (e : Nat) (bytes : List Byte) (s : State) : (tiuWrite e bytes s).tiuEng e = { s.tiuEng e with
    seq := ((s.tiuEng e).seq + 1) % 65536, loss := decide (ringPut (s.tiuEng e).set.ring bytes none s = none) } := by
  simp only [tiuWrite]
  split
  · next t hput => rw [State.tiuEng_modTiuEng, tiuEng_ringPut hput, hput]; rfl
  · next hput => rw [State.tiuEng_modTiuEng, hput]; rfl

theorem gateRec_length (s : State) (e : Nat) : (s.gateRec e).length = 32 := by
  simp [State.gateRec, le, leI, pad]

theorem TiuEng.gated_iff (k : TiuEng) : k.gated = true ↔ k.running = true ∧ (k.set.mode = 2 ∨ k.set.mode = 3) := by
  simp [TiuEng.gated]

section
variable {e : Fin 4} {s : State}

/-- A gate of the engine has ended. -/
def State.gateEnded (s : State) (e : Nat) : Prop :=
  (s.tiuEng e).running = true ∧ ((s.tiuEng e).set.mode = 2 ∨ (s.tiuEng e).set.mode = 3)
    ∧ (s.tiuEng e).gateOpen + (s.tiuEng e).set.gate ≤ s.now

theorem State.gateEnded_iff (s : State) (e : Nat) :
    ((s.tiuEng e).gated && decide ((s.tiuEng e).gateFin ≤ s.now)) = true ↔ s.gateEnded e := by
  rw [Bool.and_eq_true, TiuEng.gated_iff, decide_eq_true_eq, and_assoc]
  rfl

theorem exec_gateEnd_of_not (h : ¬s.gateEnded e.val) : exec (.gateEnd e) s = .next s :=
  congrArg _ (if_neg (mt (s.gateEnded_iff e.val).mp h))

theorem exec_gateEnd_of_ended (h : s.gateEnded e.val) : exec (.gateEnd e) s = .next (closeGate e.val s) :=
  congrArg _ (if_pos ((s.gateEnded_iff e.val).mpr h))

end

/-- The next gate opens where this one ends, empty, until the last of the count (R357, R358). -/
theorem closeGate_spec (e : Nat) (s : State) :
    let k := s.tiuEng e
    let k' := (closeGate e s).tiuEng e
    k'.gateOpen = k.gateOpen + k.set.gate ∧ k'.vals = [] ∧ k'.gatesLeft = k.gatesLeft.map (· - 1)
      ∧ (k'.running = true ↔ k.gatesLeft.map (· - 1) ≠ some 0) ∧ k'.seq = (k.seq + 1) % 65536
      ∧ (k'.loss = true ↔ ringPut k.set.ring (s.gateRec e) none s = none) := by
  simp only [closeGate, State.tiuEng_modTiuEng, tiuEng_tiuWrite, bne_iff_ne, decide_eq_true_eq, TiuEng.gateFin, and_self]

end Sys2Proof.Machine
end

section
/-! Reference domains: what a measurement, a loss, a selection and holdover make of them (R330, R335, R338, R341–R344). -/

namespace Sys2Proof.Machine

/-! ### A domain and its rewriting -/

section
variable (s : State) (k : Nat) (d d' : TimeDom)

@[simp] theorem State.tdom_setTdom : (s.setTdom k d).tdom k = d := by
  unfold State.setTdom State.tdom
  split <;> rfl

@[simp] theorem State.setTdom_setTdom : (s.setTdom k d).setTdom k d' = s.setTdom k d' := by
  unfold State.setTdom
  split <;> rfl

theorem State.tdom_setTdom_other (k : Fin 2) : (s.setTdom k.val d).tdom (1 - k.val) = s.tdom (1 - k.val) := by
  match k with
  | 0 => rfl
  | 1 => rfl

@[simp] theorem State.modTdom_setTdom (f : TimeDom → TimeDom) : (s.setTdom k d).modTdom k f = s.setTdom k (f d) := by
  rw [State.modTdom, State.tdom_setTdom, State.setTdom_setTdom]

/-- What a domain is has no part in which one device time follows, and how. -/
theorem State.setTdom_selection : (s.setTdom k d).time.sel = s.time.sel ∧ (s.setTdom k d).time.st = s.time.st
    ∧ (s.setTdom k d).time.servo = s.time.servo := by
  unfold State.setTdom
  split <;> exact ⟨rfl, rfl, rfl⟩

end

/-! ### Measurements (R335) -/

section
variable {s : State} {k : Nat} {off : Int}

theorem measure_of_disabled (held : Bool) (h : (s.tdom k).st = .disabled) : measure k off held s = s := if_pos h

/-- A domain that acquires goes on so, with the regression of what it has measured, up to the sixteenth measurement. -/
theorem measure_of_acquiring (h : (s.tdom k).st = .acquiring)
    (hfew : ((((s.now : Int), off) :: (s.tdom k).meas).take 16).length < 16)
    (hrate : (rateOf ((((s.now : Int), off) :: (s.tdom k).meas).take 16)).natAbs ≤ 100000000000) :
    measure k off false s = s.setTdom k { s.tdom k with
      meas := (((s.now : Int), off) :: (s.tdom k).meas).take 16, off
      y := rateOf ((((s.now : Int), off) :: (s.tdom k).meas).take 16)
      missing := false, loop := false, range_ := false } := by
  have hslow : ¬ppm100 < ((rateOf ((((s.now : Int), off) :: (s.tdom k).meas).take 16)).natAbs : Int) :=
    not_lt.mpr (Int.ofNat_le.mpr hrate)
  simp only [measure, h, State.modTdom_setTdom, hslow, ne_of_lt hfew, reduceCtorEq, decide_false, Bool.not_false, Bool.and_false,
    Bool.false_and, Bool.false_eq_true, if_false, if_true]

end

/-! ### Selection and holdover (R330, R341–R344) -/

theorem selectDom_eq (k : Nat) (s : State) : selectDom k s = { s with free := s.free + 1, time := {
    s.time.steerToward s.now (s.servoAim (s.tdom k)) with
      sel := k, st := .tracking, herr := 0, holdMs := 0, slewing := decide (lockThreshold (s.tdom k) < (s.tdom k).off.natAbs)
      switches := if s.time.sel ≠ k ∧ s.time.sel ≠ 0xFF then s.time.switches.bump else s.time.switches
      switchedFlag := s.time.switchedFlag || decide (s.time.sel ≠ k ∧ s.time.sel ≠ 0xFF) } } := by
  simp only [selectDom, ← Bool.decide_and, decide_eq_true_eq]

/-- The offset not removed enters e0; the uncertainties of the regression are free values (R343). -/
theorem holdover_eq (d : TimeDom) (s : State) : ∃ e0 sy : Int, (d.off.natAbs : Int) ≤ e0 ∧ 0 ≤ sy
    ∧ holdover d s = { s with free := s.free + 2, time := { s.time with
      steer := s.time.steerNow s.now, steerAt := s.now, steerTo := max (-100000000000) (min 100000000000 d.y)
      st := .holdover, slewing := false, holdMs := 0, holdAt := s.now, herr := 0, e0 := e0, sigmaY := sy } } :=
  ⟨_, _, le_add_of_nonneg_left (Int.natCast_nonneg _), Int.natCast_nonneg _, rfl⟩

/-- SLEWACC bounds how far the steering has moved, and within that bound it has reached its target (R330). -/
theorem steerNow_bound (t : TimeKeeper) (now : Nat) :
    (t.steerNow now - t.steer).natAbs ≤ t.servo.slewacc * 10 * (now - t.steerAt) / 20000000
    ∧ ((t.steerTo - t.steer).natAbs ≤ t.servo.slewacc * 10 * (now - t.steerAt) / 20000000 → t.steerNow now = t.steerTo) := by
  have hsteer : t.steerNow now = t.steer + max (-((t.servo.slewacc * 10 * (now - t.steerAt) / 20000000 : Nat) : Int))
      (min ((t.servo.slewacc * 10 * (now - t.steerAt) / 20000000 : Nat) : Int) (t.steerTo - t.steer)) := rfl
  rw [hsteer]
  generalize t.servo.slewacc * 10 * (now - t.steerAt) / 20000000 = room
  omega

theorem exec_revert (s : State) : exec .revert s = .next (
    if s.time.servo.selmode = 1 ∧ s.time.servo.revert = 1 ∧ s.time.sel = 1 ∧ s.time.domA.st = .tracking ∧ s.time.domA.far = false
        ∧ s.time.domA.trackSince + 60 * 20000000000 ≤ s.now then selectDom 0 s
    else s) := by
  refine congrArg Host.Outcome.next (if_congr ?_ rfl rfl)
  simp only [Bool.and_eq_true, Bool.not_eq_true', decide_eq_true_eq, and_assoc]
  rfl

/-! ### Losses (R335, R338, R343) -/

section
variable {s : State} {f : TimeDom → TimeDom}

theorem loseDom_of_gone {k : Nat} (h : (s.tdom k).st = .disabled ∨ (s.tdom k).st = .lost) : loseDom k f s = s :=
  if_pos (by simpa using h)

section
variable {k : Fin 2} (hdis : (s.tdom k.val).st ≠ .disabled) (hlost : (s.tdom k.val).st ≠ .lost)
include hdis hlost

theorem loseDom_eq : loseDom k.val f s =
    leftTracking k.val (s.setTdom k.val (f { s.tdom k.val with st := .lost, meas := [] })) :=
  if_neg (by simp [hdis, hlost])

theorem loseDom_of_unfollowed (h : ¬(s.time.sel = k.val ∧ s.time.st = .tracking)) :
    loseDom k.val f s = s.setTdom k.val (f { s.tdom k.val with st := .lost, meas := [] }) := by
  obtain ⟨hsel, hst, -⟩ := s.setTdom_selection k.val (f { s.tdom k.val with st := .lost, meas := [] })
  rw [loseDom_eq hdis hlost, leftTracking, hsel, hst]
  exact if_neg (by simpa using h)

/-- Device time that followed the domain follows the other under AUTO, where that tracks without FAR, or holds over. -/
theorem loseDom_of_followed (h : s.time.sel = k.val ∧ s.time.st = .tracking) :
    let t := s.setTdom k.val (f { s.tdom k.val with st := .lost, meas := [] })
    loseDom k.val f s = if s.time.servo.selmode = 1 ∧ (s.tdom (1 - k.val)).st = .tracking ∧ (s.tdom (1 - k.val)).far = false
      then selectDom (1 - k.val) t else holdover (f { s.tdom k.val with st := .lost, meas := [] }) t := by
  obtain ⟨hsel, hst, hservo⟩ := s.setTdom_selection k.val (f { s.tdom k.val with st := .lost, meas := [] })
  rw [loseDom_eq hdis hlost, leftTracking, hsel, hst, hservo, State.tdom_setTdom_other, State.tdom_setTdom]
  refine (if_pos (by simpa using h)).trans (if_congr ?_ rfl rfl)
  simp only [Bool.and_eq_true, Bool.not_eq_true', decide_eq_true_eq, and_assoc]

end

theorem badEdges_of_few {k n : Nat} (h : (s.tdom k).badPps + n < 3) :
    badEdges k n s = s.setTdom k { s.tdom k with badPps := (s.tdom k).badPps + n } :=
  if_pos h

theorem badEdges_of_many {k n : Nat} (h : 3 ≤ (s.tdom k).badPps + n) :
    badEdges k n s = loseDom k (fun d => { d with missing := true }) (s.setTdom k { s.tdom k with badPps := 0 }) :=
  if_neg (not_lt.mpr h)

theorem exec_domainLoss (dom : Fin 2) (s : State) : exec (.domainLoss dom) s = .next (
    if (s.tdom dom.val).set.source = 3 ∧ s.now < (s.tdom dom.val).exchAt + 20000 * 10000 then s
    else loseDom dom.val (fun d => { d with missing := d.set.source == 2 })
      (s.setTdom dom.val ((s.tdom dom.val).follow (s.tdom dom.val).masters.tail))) := by
  refine congrArg Host.Outcome.next (if_congr ?_ rfl rfl)
  simp only [TimeDom.silent, Bool.and_eq_true, Bool.not_eq_true', decide_eq_true_eq, decide_eq_false_iff_not, not_le]
  rfl

end

/-! ### Holdover evaluated (R343, R344) -/

theorem exec_holdoverEvaluation_of_idle {s : State} (h : s.time.st ≠ .holdover ∨ s.now < s.time.holdAt + 20000 * 1000) :
    exec .holdoverEvaluation s = .next s :=
  congrArg _ (if_pos (by simp only [Bool.or_eq_true, decide_eq_true_eq]; exact h))

/-- The time keeper after one more millisecond of holdover. -/
def TimeKeeper.holdTicked (t : TimeKeeper) : TimeKeeper :=
  let t := { t with holdMs := t.holdMs + 1, holdAt := t.holdAt + 20000 * 1000 }
  { t with herr := ((t.estimate + 1000000000) / 2000000000).toNat }

theorem exec_holdoverEvaluation_of_due {s : State} (hst : s.time.st = .holdover) (hdue : s.time.holdAt + 20000 * 1000 ≤ s.now) :
    let t := s.time.holdTicked
    exec .holdoverEvaluation s = .next (
      if t.servo.hlimit ≠ 0 ∧ (t.servo.hlimit : Int) * 2000000000 < t.estimate ∧ t.holdLatch = false then
        doubtDevice 7 (le 4 t.herr ++ le 4 (t.holdMs / 1000) ++ pad 24) (setSum 8 { s with time := { t with holdLatch := true } })
      else { s with time := t }) := by
  have hgo : ¬(s.time.st ≠ .holdover || decide (s.now < s.time.holdAt + us 1000)) = true := by
    simp only [hst, ne_eq, not_true_eq_false, decide_false, Bool.false_or, decide_eq_true_eq]
    exact not_lt.mpr hdue
  refine congrArg Host.Outcome.next ((if_neg hgo).trans (if_congr ?_ rfl rfl))
  simp only [Bool.and_eq_true, Bool.not_eq_true', decide_eq_true_eq, and_assoc]
  rfl

/-! ### PPS edges (R338) -/

section
variable {dom : Fin 2} {ps : Int} {s : State}

/-- A domain sees the edges of its input. -/
def State.seesPps (s : State) (k : Nat) : Prop := (s.tdom k).set.source = 2 ∧ s.sys.refclk = true ∧ s.stamps 1 = true

theorem exec_ppsEdge_of_unseen (h : ¬s.seesPps dom.val) : exec (.ppsEdge dom ps) s = .next s := by
  refine congrArg Host.Outcome.next (if_pos ?_)
  by_contra hnot
  exact h (by simpa [State.seesPps, and_assoc] using hnot)

/-- The domain with the edge noted, and with it those missing before it. -/
def ppsNoted (k : Nat) (s : State) : State :=
  badEdges k ((s.tdom k).missedPps s.now) (s.setTdom k { s.tdom k with lastPps := some s.now })

theorem exec_ppsEdge_of_seen (h : s.seesPps dom.val) :
    let x := ps - (s.tdom dom.val).set.delay
    let off := nearestSecond x - x
    let u := ppsNoted dom.val s
    exec (.ppsEdge dom ps) s = .next (
      if (u.tdom dom.val).meas ≠ [] ∧ 100000 < (off - (u.tdom dom.val).off).natAbs then badEdges dom.val 1 (reject u)
      else measure dom.val off (decide (u.time.st = .unset)) (u.setTdom dom.val { u.tdom dom.val with badPps := 0 })) := by
  obtain ⟨hsource, href, hst⟩ := h
  refine congrArg Host.Outcome.next ((if_neg (by simp [hsource, href, hst])).trans (if_congr ?_ rfl rfl))
  simp only [Bool.and_eq_true, decide_eq_true_eq]
  rfl

end

end Sys2Proof.Machine
end

section
/-! PTP messages, and the masters that a domain hears (R336, R337). -/

namespace Sys2Proof.Machine

/-! ### Which messages a domain takes -/

section
variable (s : State) (h : PtpHdr)

theorem State.ptpHears_iff : s.ptpHears h = true ↔ h.dom < 2 ∧ (s.tdom h.dom).set.source = 1 ∧ s.isOn 3 = true
    ∧ s.timePort.up = true ∧ (s.tdom h.dom).set.ptpdom = h.number ∧ ((s.tdom h.dom).set.transport = 1 ↔ h.udp = true) := by
  have htransport : ((s.tdom h.dom).set.transport == 1) = h.udp ↔ ((s.tdom h.dom).set.transport = 1 ↔ h.udp = true) := by
    rw [Bool.eq_iff_iff, beq_iff_eq]
  simp only [State.ptpHears, State.ptpUp, Bool.and_eq_true, decide_eq_true_eq, beq_iff_eq, htransport, and_assoc]

theorem State.ptpOk_iff : s.ptpOk h = true ↔
    h.wellFormed = true ∧ h.version = 2 ∧ (h.minor = 1 ∨ h.minor = 0 ∧ (s.tdom h.dom).set.profile = 1) := by
  simp only [State.ptpOk, Bool.and_eq_true, Bool.or_eq_true, beq_iff_eq, and_assoc]

end

section
variable {h : PtpHdr} {s : State} (f : State → State)

theorem ptpTake_of_unheard (hhear : s.ptpHears h = false) : ptpTake h f s = s := if_pos (by rw [hhear]; rfl)

theorem ptpTake_of_bad (hhear : s.ptpHears h = true) (hok : s.ptpOk h = false) : ptpTake h f s = reject s :=
  (if_neg (by rw [hhear]; decide)).trans (if_pos (by rw [hok]; rfl))

theorem ptpTake_of_ok (hhear : s.ptpHears h = true) (hok : s.ptpOk h = true) : ptpTake h f s = f s :=
  (if_neg (by rw [hhear]; decide)).trans (if_neg (by rw [hok]; decide))

/-- A message that is not taken does nothing that depends on what it says. -/
theorem ptpTake_of_untaken (hnot : s.ptpHears h = false ∨ s.ptpOk h = false) :
    ptpTake h f s = if s.ptpHears h = true then reject s else s := by
  by_cases hhear : s.ptpHears h = true
  · rw [if_pos hhear, ptpTake_of_bad f hhear (hnot.resolve_left (by rw [hhear]; decide))]
  · rw [if_neg hhear, ptpTake_of_unheard f (eq_false_of_ne_true hhear)]

end

/-! ### SYNC and FOLLOW_UP: offset = origin + path + asymmetry − reception -/

section
variable {h : PtpHdr} {s : State} (hhear : s.ptpHears h = true) (hok : s.ptpOk h = true)
include hhear hok

section
variable (seq : Nat) (two l1 : Bool) (rx origin : Int)

theorem exec_sync_of_other (hnot : s.ptpMaster h = false ∨ s.stamps 2 = false) :
    exec (.sync ⟨h, seq, two, l1, rx, origin⟩) s = .next s := by
  refine congrArg Host.Outcome.next ((ptpTake_of_ok _ hhear hok).trans (if_pos ?_))
  simpa using hnot

/-- The Sync of the followed master waits for its Follow_Up or is measured at once. -/
theorem exec_sync_of_master (hmaster : s.ptpMaster h = true) (hst : s.stamps 2 = true) :
    let d := { s.tdom h.dom with noL1 := (s.tdom h.dom).set.profile == 0 && !l1 }
    exec (.sync ⟨h, seq, two, l1, rx, origin⟩) s = .next (
      if two = true then s.setTdom h.dom { d with syncWait := some (seq, rx) }
      else measure h.dom (origin + d.path + d.set.delay - rx) false
        (s.setTdom h.dom { d with lastSync := some (origin, rx), syncWait := none })) := by
  refine congrArg Host.Outcome.next ((ptpTake_of_ok _ hhear hok).trans ((if_neg (by simp [hmaster, hst])).trans ?_))
  simp only [State.modTdom, syncDone, State.tdom_setTdom, State.setTdom_setTdom]

end

section
variable (seq : Nat) (origin : Int)

theorem exec_followUp_of_other (hnot : s.ptpMaster h = false ∨ ∀ rx, (s.tdom h.dom).syncWait ≠ some (seq, rx)) :
    exec (.followUp h seq origin) s = .next s := by
  refine congrArg Host.Outcome.next ((ptpTake_of_ok _ hhear hok).trans ?_)
  split
  · next q rx hwait =>
    refine if_neg fun hcond => ?_
    obtain ⟨hmaster, hseq⟩ := Bool.and_eq_true_iff.mp hcond
    rw [eq_of_beq hseq] at hwait
    exact hnot.elim (fun h => by rw [hmaster] at h; cases h) fun h => h rx hwait
  · rfl

theorem exec_followUp_of_waiting {rx : Int} (hmaster : s.ptpMaster h = true)
    (hwait : (s.tdom h.dom).syncWait = some (seq, rx)) :
    exec (.followUp h seq origin) s = .next (syncDone h.dom origin rx s) := by
  refine congrArg Host.Outcome.next ((ptpTake_of_ok _ hhear hok).trans ?_)
  simp only [hwait, hmaster, BEq.rfl, Bool.and_self, if_true]

end

/-! ### DELAY_RESP: the mean path -/

section
variable (seq : Nat) (t4 : Int)

theorem exec_delayResp_of_other (hnot : s.ptpMaster h = false ∨ (s.tdom h.dom).delayTx = none ∨ (s.tdom h.dom).lastSync = none
    ∨ (s.tdom h.dom).delaySeq ≠ seq) : exec (.delayResp h seq t4) s = .next s := by
  refine congrArg Host.Outcome.next ((ptpTake_of_ok _ hhear hok).trans ?_)
  dsimp only
  split
  · next htx hsync =>
    refine if_neg fun hcond => ?_
    obtain ⟨hmaster, hseq⟩ := Bool.and_eq_true_iff.mp hcond
    simp [hmaster, htx, hsync, eq_of_beq hseq] at hnot
  · rfl

theorem exec_delayResp_of_asked {t1 t2 t3 : Int} (hmaster : s.ptpMaster h = true) (htx : (s.tdom h.dom).delayTx = some t3)
    (hsync : (s.tdom h.dom).lastSync = some (t1, t2)) (hseq : (s.tdom h.dom).delaySeq = seq) :
    exec (.delayResp h seq t4) s =
      .next (s.setTdom h.dom { s.tdom h.dom with delayTx := none, path := ((t2 - t1) + (t4 - t3)) / 2 }) := by
  refine congrArg Host.Outcome.next ((ptpTake_of_ok _ hhear hok).trans ?_)
  simp only [htx, hsync, hmaster, hseq, BEq.rfl, Bool.and_self, if_true]

end

/-! ### ANNOUNCE: the masters heard -/

section
variable (g : Nat) (r : PtpRank) (utc : Int) (valid : Bool) (dl sy : Int)

/-- The sender of an Announce, as it is compared. -/
def announced (h : PtpHdr) (g : Nat) (r : PtpRank) (utc : Int) (valid : Bool) (dl : Int) : PtpMaster :=
  { source := h.source, rank := [r.priority1, r.clockClass, r.accuracy, r.variance, r.priority2, g, r.steps, h.source]
    utc := if valid = true then some utc else none, delayInt := dl }

/-- The masters that a domain hears once an Announce has come. -/
def mastersHeard (h : PtpHdr) (m : PtpMaster) (d : TimeDom) : List PtpMaster :=
  insertMaster m (d.masters.filter fun x => x.source != h.source)

theorem exec_announce_of_range (hrange : ¬(-7 ≤ sy ∧ sy ≤ 1 ∧ -7 ≤ dl ∧ dl ≤ 7)) :
    exec (.announce h g r utc valid dl sy) s = .next (reject s) := by
  refine congrArg Host.Outcome.next ((ptpTake_of_ok _ hhear hok).trans (if_pos ?_))
  simp only [Bool.or_eq_true, decide_eq_true_eq]
  omega

theorem exec_announce_of_ok (hrange : -7 ≤ sy ∧ sy ≤ 1 ∧ -7 ≤ dl ∧ dl ≤ 7) : exec (.announce h g r utc valid dl sy) s =
    .next (s.setTdom h.dom ((s.tdom h.dom).follow (mastersHeard h (announced h g r utc valid dl) (s.tdom h.dom)))) := by
  refine congrArg Host.Outcome.next ((ptpTake_of_ok _ hhear hok).trans (if_neg ?_))
  simp only [Bool.or_eq_true, decide_eq_true_eq]
  omega

end

end

/-! ### The order of the masters -/

theorem lexLt_iff : ∀ a b : List Nat, lexLt a b = true ↔ a < b
  | [], [] => by simp [lexLt]
  | [], _ :: _ => by simp [lexLt]
  | _ :: _, [] => by simp [lexLt]
  | a :: l, b :: m => by
    simp only [lexLt, Bool.or_eq_true, Bool.and_eq_true, decide_eq_true_eq, beq_iff_eq, lexLt_iff l m, List.cons_lt_cons_iff]

theorem lexLt_eq_false_iff (a b : List Nat) : lexLt a b = false ↔ b ≤ a := by
  rw [← Bool.not_eq_true, lexLt_iff, not_lt]

theorem mem_insertMaster {m x : PtpMaster} : ∀ {l : List PtpMaster}, x ∈ insertMaster m l ↔ x = m ∨ x ∈ l
  | [] => List.mem_singleton.trans (by simp)
  | y :: l => by
    unfold insertMaster
    split
    · rw [List.mem_cons, mem_insertMaster, List.mem_cons, or_left_comm]
    · rw [List.mem_cons]

/-- A master put among those heard, the best first, keeps them so. -/
theorem insertMaster_pairwise {m : PtpMaster} : ∀ {l : List PtpMaster},
    l.Pairwise (fun a b => lexLt b.rank a.rank = false) → (insertMaster m l).Pairwise fun a b => lexLt b.rank a.rank = false
  | [], _ => List.pairwise_singleton _ _
  | y :: l, hl => by
    obtain ⟨hy, hrest⟩ := List.pairwise_cons.mp hl
    unfold insertMaster
    split
    · next hbetter =>
      refine List.pairwise_cons.mpr ⟨fun x hx => ?_, insertMaster_pairwise hrest⟩
      rcases mem_insertMaster.mp hx with rfl | hx
      · exact (lexLt_eq_false_iff ..).mpr (le_of_lt ((lexLt_iff ..).mp hbetter))
      · exact hy x hx
    · next hworse =>
      have hmy : m.rank ≤ y.rank := (lexLt_eq_false_iff ..).mp (eq_false_of_ne_true hworse)
      refine List.pairwise_cons.mpr ⟨fun x hx => (lexLt_eq_false_iff ..).mpr ?_, hl⟩
      rcases List.mem_cons.mp hx with rfl | hx
      · exact hmy
      · exact hmy.trans ((lexLt_eq_false_iff ..).mp (hy x hx))

/-! ### DELAY_REQ -/

section
variable {dom : Fin 2} {s : State}

theorem TimeDom.delayDue_iff (d : TimeDom) (now : Nat) : d.delayDue now = true ↔
    d.lastSync ≠ none ∧ ∃ m l, d.masters = m :: l ∧ ∀ t, d.delayAt = some t → t + m.delayTicks ≤ now := by
  unfold TimeDom.delayDue
  rw [Bool.and_eq_true, Option.isSome_iff_ne_none]
  refine and_congr_right fun _ => ?_
  split
  · next m l t hm ht => simp [hm, ht]
  · next m l hm ht => simp [hm, ht]
  · next hm => simp [hm]

theorem exec_delayReq_of_not (h : s.ptpUp dom.val = false ∨ s.stamps 2 = false ∨ (s.tdom dom.val).delayDue s.now = false) :
    exec (.delayReq dom) s = .next s :=
  congrArg _ (if_pos (by simpa [or_assoc] using h))

/-- A Delay_Req notes its departure, whose part of the tick is free. -/
theorem exec_delayReq_of_due (hup : s.ptpUp dom.val = true) (hst : s.stamps 2 = true)
    (hdue : (s.tdom dom.val).delayDue s.now = true) : ∃ v : Int, 0 ≤ v ∧ v < 50 ∧ exec (.delayReq dom) s =
      .next ({ s with free := s.free + 1 }.setTdom dom.val { s.tdom dom.val with
        delaySeq := ((s.tdom dom.val).delaySeq + 1) % 65536, delayAt := some s.now
        delayTx := some ((s.devTicks : Int) * 50 + v) }) :=
  ⟨(Config.freeNat s.free : Int) % 50, Int.emod_nonneg _ (by decide), Int.emod_lt_of_pos _ (by decide),
    congrArg _ (if_neg (by simp [hup, hst, hdue]))⟩

end

end Sys2Proof.Machine
end

section
/-! Timing inputs, stamps, gates, PTP and reference domains together (R329, R332, R335, R336, R338, R342–R344, R351–R353,
R358). -/

namespace Sys2Proof.Machine

/-- Settles O57, input by input, message by message and loss by loss. -/
theorem timingEvents : Obligations.TimingEvents := by
  unfold Obligations.TimingEvents
  refine ⟨fun _ _ _ => rfl, fun s => ⟨trigEvents_of_not_due, fun t pin rising => trigEvents_of_due⟩,
    fun s => exec_syncInEdge_of_no_refclk, ?syncIn, exec_loopLock, exec_coreCalibration, ?stamp, ?take, ?gate,
    fun h s => ⟨s.ptpHears_iff h, s.ptpOk_iff h⟩,
    fun h f s => ⟨ptpTake_of_unheard f, ptpTake_of_bad f, ptpTake_of_ok f⟩, ?untaken, ?sync, ?followUp, ?delayReq, ?delayResp,
    ?announce, fun m l => ⟨fun _ => mem_insertMaster, insertMaster_pairwise⟩, ?pps,
    fun dom n s => ⟨badEdges_of_few, badEdges_of_many⟩, fun k off s => ⟨measure_of_disabled false, measure_of_acquiring⟩, ?loss,
    ?lose, holdover_eq, steerNow_bound, ?revert, ?stay, ?select, fun s => exec_holdoverEvaluation_of_idle, ?evaluate⟩
  case syncIn =>
    intro s href
    obtain ⟨t, hexec, halign, halign', hmark, hmark', hsys, hchans, hburins⟩ := exec_syncInEdge_spec href
    refine ⟨t, hexec, halign, halign', hmark, hmark', hsys, fun hlow => ?_, fun h hhigh hnow => ?_, hburins⟩
    · exact hchans.trans (if_pos (s.syncWasLow_iff.mpr hlow))
    · exact hchans.trans (if_neg fun hlow => absurd (s.syncWasLow_iff.mp hlow h hhigh) (not_le.mpr hnow))
  case stamp =>
    intro src falling c2 n s
    exact ⟨exec_stamp_of_unlocked, exec_stamp_of_no_core, fun k hst hk => exec_stamp_of_core hst hk⟩
  case take =>
    intro src e falling ps s
    exact ⟨tiuTake_of_not_open, fun hrun hfits hopen hmode => tiuTake_of_stamp hrun (edgeFits_of_kind hfits) hopen hmode,
      fun hrun hfits hopen hin hmode => tiuTake_of_freq hrun (edgeFits_of_kind hfits) hopen hin hmode⟩
  case gate =>
    intro e s
    refine ⟨exec_gateEnd_of_not, fun hended => ?_⟩
    obtain ⟨hopen, hvals, hleft, hrun, hseq, hloss⟩ := closeGate_spec e.val s
    exact ⟨_, exec_gateEnd_of_ended hended, hopen, hvals, hleft, hrun, hseq, gateRec_length s e.val, hloss⟩
  case untaken =>
    intro h s hnot
    exact ⟨fun _ _ _ _ _ => congrArg _ (ptpTake_of_untaken _ hnot),
      fun _ _ => ⟨congrArg _ (ptpTake_of_untaken _ hnot), congrArg _ (ptpTake_of_untaken _ hnot)⟩,
      fun _ _ _ _ _ _ => congrArg _ (ptpTake_of_untaken _ hnot)⟩
  case sync =>
    intro h seq two l1 rx origin s hhear hok
    refine ⟨exec_sync_of_other hhear hok seq two l1 rx origin, fun hmaster hst htwo => ?_, fun hmaster hst htwo => ?_⟩
    · exact (exec_sync_of_master hhear hok seq two l1 rx origin hmaster hst).trans (congrArg _ (if_pos htwo))
    · exact (exec_sync_of_master hhear hok seq two l1 rx origin hmaster hst).trans
        (congrArg _ (if_neg (by rw [htwo]; decide)))
  case followUp =>
    intro h seq origin s hhear hok
    exact ⟨exec_followUp_of_other hhear hok seq origin, fun rx => exec_followUp_of_waiting hhear hok seq origin⟩
  case delayReq =>
    intro dom s
    refine ⟨fun hnot => exec_delayReq_of_not ?_, fun hup hst hdue =>
      exec_delayReq_of_due hup hst ((TimeDom.delayDue_iff _ _).mpr hdue)⟩
    exact hnot.imp_right (Or.imp_right fun h => eq_false_of_ne_true (mt (TimeDom.delayDue_iff _ _).mp h))
  case delayResp =>
    intro h seq t4 s hhear hok
    exact ⟨exec_delayResp_of_other hhear hok seq t4, fun t1 t2 t3 => exec_delayResp_of_asked hhear hok seq t4⟩
  case announce =>
    intro h g r utc valid dl sy s hhear hok
    refine ⟨exec_announce_of_range hhear hok g r utc valid dl sy, fun hrange hsame => ?_, fun hrange hother => ?_⟩
    · rw [exec_announce_of_ok hhear hok g r utc valid dl sy hrange, TimeDom.follow]
      exact congrArg (fun d => Host.Outcome.next (s.setTdom h.dom d)) (if_pos hsame)
    · rw [exec_announce_of_ok hhear hok g r utc valid dl sy hrange, TimeDom.follow]
      exact congrArg (fun d => Host.Outcome.next (s.setTdom h.dom d)) (if_neg hother)
  case pps =>
    intro dom ps s
    refine ⟨exec_ppsEdge_of_unseen, fun hseen hnear => ?_, fun hseen hfar => ?_⟩
    · exact (exec_ppsEdge_of_seen hseen).trans (congrArg _ (if_neg hnear))
    · exact (exec_ppsEdge_of_seen hseen).trans (congrArg _ (if_pos hfar))
  case loss =>
    intro dom s
    exact ⟨fun hheard => (exec_domainLoss dom s).trans (congrArg _ (if_pos hheard)),
      fun hsilent => (exec_domainLoss dom s).trans (congrArg _ (if_neg hsilent))⟩
  case lose =>
    intro dom f s
    refine ⟨loseDom_of_gone, loseDom_of_unfollowed, fun hdis hlost hfol hother => ?_, fun hdis hlost hfol hother => ?_⟩
    · exact (loseDom_of_followed hdis hlost hfol).trans (if_pos hother)
    · exact (loseDom_of_followed hdis hlost hfol).trans (if_neg hother)
  case revert =>
    intro s h
    exact (exec_revert s).trans (congrArg _ (if_pos h))
  case stay =>
    intro s h
    refine (exec_revert s).trans (congrArg _ (if_neg ?_))
    rintro ⟨hauto, hrevert, hsel, hst, hfar, hsince⟩
    simp [hauto, hrevert, hsel, hst, hfar, not_lt.mpr hsince] at h
  case select =>
    intro k s
    rw [selectDom_eq]
    exact ⟨_, rfl, rfl, rfl, rfl, rfl, rfl, rfl, rfl, rfl⟩
  case evaluate =>
    intro s hst hdue
    refine ⟨fun hbelow => ?_, fun hover => ?_⟩
    · exact (exec_holdoverEvaluation_of_due hst hdue).trans (congrArg _ (if_neg hbelow))
    · exact (exec_holdoverEvaluation_of_due hst hdue).trans (congrArg _ (if_pos hover))

end Sys2Proof.Machine
end

section
/-! TIME_SET (R329, R331, R332, R334, R341, R424). -/

namespace Sys2Proof.Machine

/-! ### Steps (R332) -/

theorem State.stepAllowed_iff (s : State) : s.stepAllowed = true ↔
    (s.sys.mode = .configure ∨ s.sys.mode = .ready ∨ s.sys.mode = .service) ∧ s.timeNamed = false := by
  simp only [State.stepAllowed, Bool.and_eq_true, Bool.or_eq_true, decide_eq_true_eq, Bool.not_eq_true', or_assoc]

/-- A label of the present tick is the device time that it names. -/
theorem devTicks_setLabel (tai : Nat) (s : State) : (setLabel tai s).devTicks = tai :=
  (congrArg (· + tai % ticksPerSec) (Nat.mul_comm _ _)).trans (Nat.div_add_mod tai ticksPerSec)

/-- A step moves the label of the present tick, and neither the tick nor the alignment epoch (R332). -/
theorem stepBy_spec {ticks : Int} {s : State} (h : 0 ≤ (s.devTicks : Int) + ticks) :
    ((stepBy ticks s).devTicks : Int) = s.devTicks + ticks ∧ (stepBy ticks s).now = s.now ∧ (stepBy ticks s).epoch = s.epoch
      ∧ (stepBy ticks s).time.steps = s.time.steps.bump ∧ (stepBy ticks s).time.stepCount = s.time.stepCount + 1
      ∧ (stepBy ticks s).time.st = (if s.time.st = .unset then .free else s.time.st) :=
  ⟨(congrArg Int.ofNat (devTicks_setLabel _ s)).trans (Int.toNat_of_nonneg h), rfl, rfl, rfl, rfl, rfl⟩

theorem stepAbsReply_eq {time : Stamp} (hns : time.ns < 1000000000) (s : State) : stepAbsReply time s =
    if s.stepAllowed = true ∧ s.time.stepPend = none then
      { s := { s with time := { s.time with
          stepPend := some ((s.now + 200000 + 15) / 16 * 16, stampTicks time / 20000000000, stampTicks time % 20000000000) } }
        result := (s.now + 200000 + 15) / 16 * 16 % 2 ^ 48 }
    else .busy s := by
  have hok : stampOk time = true := decide_eq_true hns
  have hbar : (!s.stepAllowed || s.time.stepPend.isSome) = true ↔ ¬(s.stepAllowed = true ∧ s.time.stepPend = none) := by
    simp only [Bool.or_eq_true, Bool.not_eq_true', not_and_or, Bool.not_eq_true, Option.isSome_iff_ne_none, ne_eq]
  exact (if_neg (by rw [hok]; decide)).trans ((if_congr hbar rfl rfl).trans (ite_not _ _ _))

theorem stepRelReply_eq {ticks : Int} {s : State} (hsize : ticks.natAbs ≤ 2 ^ 47) (hpos : 0 ≤ (s.devTicks : Int) + ticks) :
    stepRelReply ticks s = if s.stepAllowed = true then { s := stepBy ticks s } else .busy s := by
  have hrange : ¬(140737488355328 < ticks.natAbs || (s.devTicks : Int) + ticks < 0) = true := by
    simp only [Bool.or_eq_true, decide_eq_true_eq]
    omega
  refine (if_neg hrange).trans ((if_congr ?_ rfl rfl).trans (ite_not _ _ _))
  rw [Bool.not_eq_true', Bool.not_eq_true]

/-! ### Domains, servo and UTC (R329, R334, R341) -/

/-- Domain settings in the ranges of R334. -/
structure DomInRule (a : DomSettings) : Prop where
  source : a.source ≤ 3
  port : a.port ≤ 7
  profile : a.profile ≤ 1
  ptpdom : a.ptpdom ≤ 127
  transport : a.transport ≤ 1
  delay : a.delay.natAbs ≤ 1000000
  bw : a.bw ≤ 10000

theorem DomInRule.domRange_eq {a : DomSettings} (h : DomInRule a) : domRange a = none := by
  simp only [domRange, not_lt.mpr h.source, not_lt.mpr h.port, not_lt.mpr h.profile, not_lt.mpr h.ptpdom, not_lt.mpr h.transport,
    not_lt.mpr h.delay, not_lt.mpr h.bw, if_false]

theorem timeDomainReply_eq {k : Nat} {a : DomSettings} (hk : k ≤ 1) (ha : DomInRule a) (s : State) : timeDomainReply k a s =
    if s.time.sel = k ∧ s.time.st = .tracking then .busy s
    else { s := s.setTdom k { set := a, st := if a.source = 0 then .disabled else .acquiring
                              tracked := (s.tdom k).tracked, exchAt := s.now } } := by
  simp only [timeDomainReply, not_lt.mpr hk, ha.domRange_eq, Bool.and_eq_true, decide_eq_true_eq, if_false]
  rfl

/-- Servo settings in the ranges of R341. -/
structure ServoInRule (a : ServoArgs) : Prop where
  selmode : a.selmode ≤ 1
  revert : a.revert ≤ 1
  slew : a.slew ≤ 10000
  slewacc : a.slewacc ≤ 10000
  hlimit : a.hlimit = 0 ∨ 10 ≤ a.hlimit ∧ a.hlimit ≤ 1000000000
  hwander : a.hwander ≤ 1000000

/-- Settings stored: 0 selects a default, but for HLIMIT. -/
def storedServo (a : ServoArgs) : Servo :=
  { selmode := a.selmode, revert := a.revert, hlimit := a.hlimit, slew := if a.slew = 0 then 100 else a.slew
    slewacc := if a.slewacc = 0 then 100 else a.slewacc, hwander := if a.hwander = 0 then 1000 else a.hwander }

theorem timeServoReply_of_rule {a : ServoArgs} (h : ServoInRule a) (s : State) : timeServoReply a s =
    { s := { s with time := { s.time.steerToward s.now s.time.steerTo with servo := storedServo a } } } := by
  have hlimit : ¬(a.hlimit ≠ 0 && (a.hlimit < 10 || 1000000000 < a.hlimit)) = true := by
    simp only [Bool.and_eq_true, Bool.or_eq_true, decide_eq_true_eq, ne_eq]
    have := h.hlimit
    omega
  simp only [timeServoReply, not_lt.mpr h.selmode, not_lt.mpr h.revert, not_lt.mpr h.slew, not_lt.mpr h.slewacc, if_neg hlimit,
    not_lt.mpr h.hwander, if_false]
  rfl

/-- Settles O31, form by form, a step by whether it is allowed. -/
theorem timeSetCommands : Obligations.TimeSetCommands := by
  unfold Obligations.TimeSetCommands
  refine ⟨?stepAbs, ?stepRel, fun ticks s => stepBy_spec, State.stepAllowed_iff, ?domain, ?servo, ?utc⟩
  case stepAbs =>
    intro h time s hs hns
    have hends : Ends (.timeSetStepAbs h time) s (stepAbsReply time) := ends_of rfl hs rfl
    refine ⟨fun hallowed hpend => hends.congr fun _ _ => (stepAbsReply_eq hns _).trans (if_pos ⟨hallowed, hpend⟩),
      fun hbarred => hends.congr fun _ _ => (stepAbsReply_eq hns _).trans (if_neg fun hboth => ?_)⟩
    exact absurd hboth.left (ne_true_of_eq_false hbarred)
  case stepRel =>
    intro h ticks s hs hsize hpos
    have hends : Ends (.timeSetStepRel h ticks) s (stepRelReply ticks) := ends_of rfl hs rfl
    have hreply (q : Nat) : stepRelReply ticks (takeEntry q s) =
        if s.stepAllowed = true then { s := stepBy ticks (takeEntry q s) } else .busy (takeEntry q s) :=
      stepRelReply_eq (s := takeEntry q s) hsize hpos
    exact ⟨fun hallowed => hends.congr fun _ _ => (hreply _).trans (if_pos hallowed),
      fun hbarred => hends.congr fun _ _ => (hreply _).trans (if_neg (ne_true_of_eq_false hbarred))⟩
  case domain =>
    intro h k a s hs hk hsource hport hprofile hptpdom htransport hdelay hbw
    have hrule : DomInRule a := ⟨hsource, hport, hprofile, hptpdom, htransport, hdelay, hbw⟩
    have hends : Ends (.timeSetDomain h k a) s (timeDomainReply k a) := ends_of rfl hs rfl
    exact ⟨fun hother => hends.congr fun _ _ => (timeDomainReply_eq hk hrule _).trans (if_neg (not_and_or.mpr hother)),
      fun hsel hst => hends.congr fun _ _ => (timeDomainReply_eq hk hrule _).trans (if_pos ⟨hsel, hst⟩)⟩
  case servo =>
    intro h a s hs hselmode hrevert hslew hslewacc hlimit hwander
    have hrule : ServoInRule a := ⟨hselmode, hrevert, hslew, hslewacc, hlimit, hwander⟩
    have hends : Ends (.timeSetServo h a) s (timeServoReply a) := ends_of rfl hs rfl
    exact hends.congr fun _ _ => timeServoReply_of_rule hrule _
  case utc =>
    intro h offset s hs hlow hhigh
    have hends : Ends (.timeSetUtc h offset) s _ := ends_of rfl hs rfl
    refine hends.congr fun _ _ => if_neg ?_
    simp only [Bool.or_eq_true, decide_eq_true_eq]
    omega

end Sys2Proof.Machine
end

section
/-! TIME_SELECT and TIME_TIMER (R332, R341, R342, R347, R424). -/

namespace Sys2Proof.Machine

/-! ### TIME_SELECT (R332, R341) -/

theorem timeSelectReply_of_domain {k : Nat} (hk : k ≤ 1) (s : State) : timeSelectReply k s =
    if (s.tdom k).st ≠ .tracking then .bad s 0
    else if (s.tdom k).far = true then if s.stepAllowed = true then { s := selectDom k (stepTo k s) } else .bad s 0
    else { s := selectDom k s } :=
  (if_neg (by omega)).trans (if_neg (not_lt.mpr hk))

theorem off_eq_stepTicks (d : TimeDom) : d.off = 50 * d.stepTicks + (d.off + 25) % 50 - 25 := by
  rw [TimeDom.stepTicks, Int.mul_ediv_add_emod]
  omega

/-! ### TIME_TIMER (R347) -/

/-- An ARM whose operands keep the rules of R347 and R424: TIMERs, windows and TIME_OUTs each have their own. -/
structure State.TakesTimer (s : State) (a : TimerArgs) : Prop where
  names : a.root = 0xFFFFFFFF ∨ s.rootNamed a.root = true
  period : a.period < 2 ^ 40
  count : a.count < 2 ^ 32
  start : a.start.ns < 1000000000
  element : (a.element = 0 ∧ a.index < 64 ∧ a.pol = 0 ∧ 16 ≤ a.period ∧ a.len = 0)
    ∨ (a.element = 1 ∧ a.index < 16 ∧ a.pol = 0 ∧ 1 ≤ a.len ∧ a.len < 2 ^ 40 ∧ (a.period = 0 ∨ a.len < a.period))
    ∨ (a.element = 2 ∧ a.index < 4 ∧ a.pol ≤ 1 ∧ 20 ≤ a.len ∧ a.len ≤ 2 ^ 32 ∧ (a.period = 0 ∨ a.len + 20 ≤ a.period))

/-- The element that an ARM leaves, whose first event is at the tick `at_`. -/
def armedElem (a : TimerArgs) (at_ : Int) (s : State) : Elem :=
  { active := true, root := if a.root = 0xFFFFFFFF then none else some (s.keyOf a.root), next := at_.toNat
    period := a.period, len := a.len, pol := a.pol
    left := if a.period = 0 then some 1 else if a.count = 0 then none else some a.count }

section
variable {s : State} {a : TimerArgs} (h : s.TakesTimer a)
include h

/-- Reading the command's entry keeps it so. -/
theorem State.TakesTimer.takeEntry (q : Nat) : (takeEntry q s).TakesTimer a where
  names := h.names
  period := h.period
  count := h.count
  start := h.start
  element := h.element

theorem State.TakesTimer.timerRange_eq : timerRange a s = none := by
  have hnames : (a.root ≠ 0xFFFFFFFF && !s.rootNamed a.root) = false := by
    rcases h.names with hnone | hnamed
    · simp [hnone]
    · simp [hnamed]
  have hok : stampOk a.start = true := decide_eq_true h.start
  have hcommon : timerRange a s = if 2 < a.element then some 1
      else if elemCount a.element ≤ a.index then some 2
      else if 1 < a.pol || (a.pol = 1 && a.element ≠ 2) then some 3
      else if a.element = 0 && a.period < 16 then some 8
      else if a.element = 0 && a.len ≠ 0 then some 16
      else if a.element = 1 && (a.len = 0 || 2 ^ 40 ≤ a.len) then some 16
      else if a.element = 2 && (a.len < 20 || 2 ^ 32 < a.len) then some 16
      else if a.element = 1 && a.period ≠ 0 && a.period ≤ a.len then some 8
      else if a.element = 2 && a.period ≠ 0 && a.period < a.len + 20 then some 8
      else none := by
    simp only [timerRange, hnames, hok, not_le.mpr h.period, not_le.mpr h.count, Bool.not_true, Bool.false_eq_true, if_false]
  rw [hcommon]
  rcases h.element with ⟨hel, hidx, hpol, hper, hlen⟩ | ⟨hel, hidx, hpol, hshort, hlong, hper⟩
    | ⟨hel, hidx, hpol, hshort, hlong, hper⟩
  · simp [elemCount, hel, not_le.mpr hidx, hpol, not_lt.mpr hper, hlen]
  · have hlen : a.len ≠ 0 := by omega
    have hmax : ¬1099511627776 ≤ a.len := not_le.mpr hlong
    have hfit : ¬(¬a.period = 0 ∧ a.period ≤ a.len) := by omega
    simp [elemCount, hel, not_le.mpr hidx, hpol, hlen, hmax, hfit]
  · have hmax : ¬4294967296 < a.len := not_lt.mpr hlong
    have hfit : ¬(¬a.period = 0 ∧ a.period < a.len + 20) := by omega
    simp [elemCount, hel, not_le.mpr hidx, not_lt.mpr hpol, not_lt.mpr hshort, hmax, hfit]

/-- An ARM in rule of an element that is not active arms it, unless its first tick is within 10 µs. -/
theorem State.TakesTimer.armReply_eq : timerArmReply a s =
    if (s.elem a.element a.index).active = true then .busy s
    else if s.coarseOf (stampTicks a.start) < (s.now : Int) + 200000 then { s, status := 6, why := .field 32 }
    else { s := s.setElem a.element a.index (armedElem a (s.coarseOf (stampTicks a.start)) s) } := by
  simp only [timerArmReply, h.timerRange_eq]
  rfl

end

theorem timerStopReply_of_element {element k : Nat}
    (h : (element = 0 ∧ k < 64) ∨ (element = 1 ∧ k < 16) ∨ (element = 2 ∧ k < 4)) (s : State) :
    timerStopReply element k s = { s := s.setElem element k (elemStop (s.elem element k)) } := by
  rcases h with ⟨rfl, hk⟩ | ⟨rfl, hk⟩ | ⟨rfl, hk⟩
  · exact if_neg (not_le.mpr hk)
  · exact if_neg (not_le.mpr hk)
  · exact if_neg (not_le.mpr hk)

/-- Settles O32: TIME_SELECT by the state of the domain it names, ARM by the element and its first tick, STOP. -/
theorem timeSelectionAndTimers : Obligations.TimeSelectionAndTimers := by
  unfold Obligations.TimeSelectionAndTimers
  refine ⟨fun h s hs => ?none, ?select, selectDom_eq, fun k s _ => off_eq_stepTicks _, ?arm, ?stop⟩
  case none =>
    have hends : Ends (.timeSelect h 0xFF) s (timeSelectReply 0xFF) := ends_of rfl hs rfl
    exact hends.congr fun _ _ => rfl
  case select =>
    intro h k s hs hk
    have hends : Ends (.timeSelect h k) s (timeSelectReply k) := ends_of rfl hs rfl
    refine ⟨fun hst => ?_, fun hst hnear => ?_, fun hst hfar hstep => ?_, fun hst hfar hbarred => ?_⟩
    · exact hends.congr fun _ _ => (timeSelectReply_of_domain hk _).trans (if_pos hst)
    · exact hends.congr fun _ _ => (timeSelectReply_of_domain hk _).trans
        ((if_neg (not_not.mpr hst)).trans (if_neg (ne_true_of_eq_false hnear)))
    · exact hends.congr fun _ _ => (timeSelectReply_of_domain hk _).trans
        ((if_neg (not_not.mpr hst)).trans ((if_pos hfar).trans (if_pos hstep)))
    · exact hends.congr fun _ _ => (timeSelectReply_of_domain hk _).trans
        ((if_neg (not_not.mpr hst)).trans ((if_pos hfar).trans (if_neg (ne_true_of_eq_false hbarred))))
  case arm =>
    intro h a s hs hnames hperiod hcount hns helement
    have hin : s.TakesTimer a := ⟨hnames, hperiod, hcount, hns, helement⟩
    have hends : Ends (.timeTimerArm h a) s (timerArmReply a) := ends_of rfl hs rfl
    refine ⟨fun hact => ?_, fun hidle hlate => ?_, fun hidle hahead => ?_⟩
    · exact hends.congr fun _ _ => (hin.takeEntry _).armReply_eq.trans (if_pos hact)
    · exact hends.congr fun _ _ => (hin.takeEntry _).armReply_eq.trans
        ((if_neg (ne_true_of_eq_false hidle)).trans (if_pos hlate))
    · exact hends.congr fun _ _ => (hin.takeEntry _).armReply_eq.trans
        ((if_neg (ne_true_of_eq_false hidle)).trans (if_neg (not_lt.mpr hahead)))
  case stop =>
    intro h element k s hs helement
    have hends : Ends (.timeTimerStop h element k) s (timerStopReply element k) := ends_of rfl hs rfl
    exact hends.congr fun _ _ => timerStopReply_of_element helement _

end Sys2Proof.Machine
end

section
/-! A step takes one command and keeps the memory's form (R397, R430, R434, 17_memory.md). -/

namespace Sys2Proof.Machine

/-- Settles O1: a step is by definition the meaning of the command at the front. -/
theorem stepRunsFrontCommand : Obligations.StepRunsFrontCommand := by
  unfold Obligations.StepRunsFrontCommand
  intro c rest s h
  simp only [step, h]

/-- Settles O4: on an empty queue the tick keeps memory and queue (`idleTick_kept`); otherwise the front command does, run
on the state with the queue's rest (`exec_kept`). -/
theorem stepKeepsMemoryForm : Obligations.StepKeepsMemoryForm := by
  unfold Obligations.StepKeepsMemoryForm
  intro s t hwf hstep
  cases hp : s.pending with
  | nil =>
    have ht : step s = .next (idleTick s) := by simp only [step, hp]
    rw [← Host.Outcome.next.inj (ht.symm.trans hstep)]
    exact idleTick_kept (p := []) s ⟨hwf, hp⟩
  | cons c rest =>
    have hkept := exec_kept (p := rest) c { s with pending := rest } ⟨hwf, rfl⟩
    rwa [← stepRunsFrontCommand c rest s hp, hstep] at hkept

end Sys2Proof.Machine
end

section
/-! Completing commands: what going through the commands in flight keeps (R401–R413). -/

namespace Sys2Proof.Machine

/-! ### Tables -/

theorem mem_of_mem_tins {α : Type} {e : Nat × α} {k : Nat} {v : α} : ∀ {m : Tab α}, e ∈ tins k v m → e = (k, v) ∨ e ∈ m
  | [], h => .inl (List.mem_singleton.mp h)
  | (j, w) :: m, h => by
    unfold tins at h
    split_ifs at h
    · exact List.mem_cons.mp h
    · exact (List.mem_cons.mp h).imp_right (List.mem_cons_of_mem _)
    · rcases List.mem_cons.mp h with rfl | h
      · exact .inr List.mem_cons_self
      · exact (mem_of_mem_tins h).imp_right (List.mem_cons_of_mem _)

theorem mem_of_mem_tdel {α : Type} {e : Nat × α} {k : Nat} : ∀ {m : Tab α}, e ∈ tdel k m → e ∈ m
  | (j, w) :: m, h => by
    unfold tdel at h
    split_ifs at h
    · exact List.mem_cons_of_mem _ (mem_of_mem_tdel h)
    · rcases List.mem_cons.mp h with rfl | h
      · exact List.mem_cons_self
      · exact List.mem_cons_of_mem _ (mem_of_mem_tdel h)

theorem mem_of_mem_tset {α : Type} [DecidableEq α] {d : α} {e : Nat × α} {m : Tab α} {k : Nat} {v : α}
    (h : e ∈ tset d m k v) : e = (k, v) ∨ e ∈ m := by
  unfold tset at h
  split_ifs at h
  · exact .inr (mem_of_mem_tdel h)
  · exact mem_of_mem_tins h

/-- What a key reads as is the default or the value of an entry. -/
theorem tget_eq_or_mem {α : Type} (d : α) (k : Nat) : ∀ m : Tab α, tget d m k = d ∨ (k, tget d m k) ∈ m
  | [] => .inl rfl
  | (j, v) :: m => by
    unfold tget
    split_ifs with hj
    · exact .inr (hj ▸ List.mem_cons_self)
    · exact (tget_eq_or_mem d k m).imp_right (List.mem_cons_of_mem _)

/-- An entry that a map does not make the default reads as the map's value. -/
theorem tget_tmap_of_ne {α : Type} [DecidableEq α] {d : α} {f : Nat → α → α} {k : Nat} : ∀ {m : Tab α}, tget d m k ≠ d →
    f k (tget d m k) ≠ d → tget d (tmap d f m) k = f k (tget d m k)
  | [], h, _ => absurd rfl h
  | (j, v) :: m, h, hf => by
    by_cases hj : j = k
    · subst hj
      rw [tget, if_pos rfl] at hf ⊢
      rw [tmap, if_neg hf, tget, if_pos rfl]
    · rw [tget, if_neg hj] at h hf ⊢
      unfold tmap
      split_ifs
      · exact tget_tmap_of_ne h hf
      · rw [tget, if_neg hj]
        exact tget_tmap_of_ne h hf

/-! ### Vectors and the fault summary -/

theorem raiseVec_eq_vectors (v : Nat) (s : State) : ∃ a b, raiseVec v s =
    { s with host := { s.host with msixPba := a, raises := b } } := by
  unfold raiseVec
  split
  · exact ⟨_, _, rfl⟩
  · exact ⟨_, _, rfl⟩

theorem raiseFault_eq_vectors (s : State) : ∃ a b, raiseFault s = { s with host := { s.host with msixPba := a, raises := b } } := by
  unfold raiseFault
  split
  · exact raiseVec_eq_vectors _ s
  · exact ⟨_, _, rfl⟩

/-- Of the host interface a summary bit touches the summary and the raised vectors alone. -/
theorem setSum_eq_vectors (k : Nat) (s : State) : ∃ a b c, setSum k s =
    { s with host := { s.host with msixPba := a, raises := b, faultsum := c } } := by
  unfold setSum
  split
  · exact ⟨_, _, _, rfl⟩
  · obtain ⟨a, b, h⟩ := raiseFault_eq_vectors
      { s with host := { s.host with faultsum := s.host.faultsum ||| BitVec.ofNat 32 (2 ^ k) } }
    exact ⟨a, b, _, h⟩

theorem setMode_eq_vectors (m : Mode) (s : State) : ∃ a b log, setMode m s =
    { s with host := { s.host with msixPba := a, raises := b }, sys := { s.sys with mode := m }, refLog := log } := by
  by_cases h : s.sys.mode = m
  · subst h
    exact ⟨_, _, _, by rw [setMode, if_pos rfl]⟩
  · obtain ⟨a, b, hr⟩ := raiseFault_eq_vectors { s with
      sys := { s.sys with mode := m }
      refLog := if m.counting then (if s.sys.mode.counting && s.refLog.active then s.refLog
        else { active := true, start := s.coarse, periodMode := m.code }) else { s.refLog with active := false } }
    exact ⟨a, b, _, by rw [setMode, if_neg h, hr]⟩

section
variable (k : Nat) (s : State)

@[simp] theorem sqs_setSum : (setSum k s).host.sqs = s.host.sqs := by
  obtain ⟨a, b, c, h⟩ := setSum_eq_vectors k s
  rw [h]

@[simp] theorem cqs_setSum : (setSum k s).host.cqs = s.host.cqs := by
  obtain ⟨a, b, c, h⟩ := setSum_eq_vectors k s
  rw [h]

@[simp] theorem version_setSum : (setSum k s).host.version = s.host.version := by
  obtain ⟨a, b, c, h⟩ := setSum_eq_vectors k s
  rw [h]

@[simp] theorem refLog_setSum : (setSum k s).refLog = s.refLog := by
  obtain ⟨a, b, c, h⟩ := setSum_eq_vectors k s
  rw [h]

@[simp] theorem sqs_raiseVec : (raiseVec k s).host.sqs = s.host.sqs := by
  obtain ⟨a, b, h⟩ := raiseVec_eq_vectors k s
  rw [h]

@[simp] theorem cqs_raiseVec : (raiseVec k s).host.cqs = s.host.cqs := by
  obtain ⟨a, b, h⟩ := raiseVec_eq_vectors k s
  rw [h]

@[simp] theorem faultsum_raiseVec : (raiseVec k s).host.faultsum = s.host.faultsum := by
  obtain ⟨a, b, h⟩ := raiseVec_eq_vectors k s
  rw [h]

@[simp] theorem refLog_raiseVec : (raiseVec k s).refLog = s.refLog := by
  obtain ⟨a, b, h⟩ := raiseVec_eq_vectors k s
  rw [h]

end

/-! ### Refusals -/

theorem logRefusal_eq (what status target : Nat) (why : Why) (s : State) : ∃ log,
    logRefusal what status target why s = { s with refLog := log } := by
  simp only [logRefusal]
  split
  · exact ⟨_, rfl⟩
  · exact ⟨_, rfl⟩

/-- A failure touches of the host's queues the flag HALTED of its own. -/
theorem sqs_noteFailure (q status what target : Nat) (why : Why) (s : State) :
    (noteFailure q status what target why s).host.sqs = s.host.sqs
    ∨ (noteFailure q status what target why s).host.sqs = tset {} s.host.sqs q { s.sq q with halted := true } := by
  obtain ⟨log, hlog⟩ := logRefusal_eq what status target why s
  simp only [noteFailure, hlog]
  split_ifs
  · exact .inr (sqs_setSum 13 _)
  · exact .inl rfl
  · exact .inl rfl

theorem cqs_noteFailure (q status what target : Nat) (why : Why) (s : State) :
    (noteFailure q status what target why s).host.cqs = s.host.cqs
    ∧ (noteFailure q status what target why s).host.version = s.host.version := by
  obtain ⟨log, hlog⟩ := logRefusal_eq what status target why s
  simp only [noteFailure, hlog]
  split_ifs
  · exact ⟨cqs_setSum 13 _, version_setSum 13 _⟩
  · exact ⟨rfl, rfl⟩
  · exact ⟨rfl, rfl⟩

/-! ### The end of the oldest command in flight -/

theorem host_finishGuest (q : Nat) (f : InFlight) (s : State) : (finishGuest q f s).host = s.host := by
  unfold finishGuest
  split
  · rfl
  · split
    · rfl
    · exact keeps_of_tell State.host (fun _ _ => rfl) _ _ s

theorem refLog_finishGuest (q : Nat) (f : InFlight) (s : State) : (finishGuest q f s).refLog = s.refLog := by
  unfold finishGuest
  split
  · rfl
  · split
    · rfl
    · exact keeps_of_tell State.refLog (fun _ _ => rfl) _ _ s

theorem writeCompletion_keeps (c : Nat) (e : Completion) (s : State) : (writeCompletion c e s).host.sqs = s.host.sqs
    ∧ (writeCompletion c e s).host.faultsum = s.host.faultsum ∧ (writeCompletion c e s).refLog = s.refLog := by
  simp only [writeCompletion]
  split
  · exact ⟨sqs_raiseVec .., faultsum_raiseVec .., refLog_raiseVec ..⟩
  · exact ⟨rfl, rfl, rfl⟩

theorem complete_keeps (c : Nat) (e : Completion) (s : State) : (complete c e s).host.sqs = s.host.sqs
    ∧ (complete c e s).host.faultsum = s.host.faultsum ∧ (complete c e s).refLog = s.refLog := by
  unfold complete
  split
  · exact writeCompletion_keeps c e s
  · exact ⟨rfl, rfl, rfl⟩

/-- The queue `q` once its oldest command in flight, `f`, has completed. -/
def SQ.popped (k : SQ) (f : InFlight) (rest : List InFlight) : SQ :=
  { k with flight := rest, completed := (k.completed + 1) % 65536, history := ((f.cmdId, f.opcode, f.cell) :: k.history).take 256 }

/-- A command other than a successful OPEN or CLOSE (R404, R405). -/
def InFlight.plain (f : InFlight) : Prop := f.status ≠ 0 ∨ f.opcode ≠ 1 ∧ f.opcode ≠ 2

section
variable {q : Nat} {f : InFlight} {rest : List InFlight} {s : State}

/-- The entry of R408 that completes a command, its phase still open. -/
def SQ.entryOf (k : SQ) (q : Nat) (f : InFlight) : Completion :=
  { cmdId := f.cmdId, sq := q, phase := true, status := f.status, sqHead := (k.completed + 1) % 65536, result := f.result }

/-- The completion of a command of the host: its queue moves on and its entry is posted. -/
def posted (q : Nat) (f : InFlight) (rest : List InFlight) (s : State) : State :=
  let t := s.modSq q fun k => k.popped f rest
  let u := complete (t.cqOf q) ((s.sq q).entryOf q f) t
  if f.opcode = 1 then { u with host := { u.host with openPending := false } } else u

theorem finishHead_of_host (h : (s.sq q).flight = f :: rest) (hq : q < 64) : finishHead q s =
    if f.opcode = 1 ∧ f.status = 0 then resetQueues (f.result % 256) true (posted q f rest s)
    else if f.opcode = 2 ∧ f.status = 0 then closeSession (posted q f rest s) else posted q f rest s := by
  unfold finishHead
  rw [h]
  simp only [if_neg (Nat.not_le.mpr hq), Bool.and_eq_true, decide_eq_true_eq]
  rfl

theorem finishHead_of_guest (h : (s.sq q).flight = f :: rest) (hq : 64 ≤ q) :
    finishHead q s = finishGuest q f (s.modSq q fun k => { k with flight := rest }) := by
  unfold finishHead
  rw [h]
  exact if_pos hq

theorem finishHead_of_plain (h : (s.sq q).flight = f :: rest) (hq : q < 64) (hf : f.plain) :
    finishHead q s = posted q f rest s := by
  have h1 : ¬(f.opcode = 1 ∧ f.status = 0) := fun h => hf.elim (absurd h.2) fun hop => hop.1 h.1
  have h2 : ¬(f.opcode = 2 ∧ f.status = 0) := fun h => hf.elim (absurd h.2) fun hop => hop.2 h.1
  rw [finishHead_of_host h hq, if_neg h1, if_neg h2]

theorem posted_keeps (q : Nat) (f : InFlight) (rest : List InFlight) (s : State) :
    (posted q f rest s).host.sqs = tset {} s.host.sqs q ((s.sq q).popped f rest)
    ∧ (posted q f rest s).host.faultsum = s.host.faultsum ∧ (posted q f rest s).refLog = s.refLog := by
  simp only [posted]
  split <;> exact complete_keeps ..

/-- Completing a command that is no successful OPEN or CLOSE touches of the submission queues its own alone, and neither the
fault summary nor the refusal log. -/
theorem finishHead_keeps (h : (s.sq q).flight = f :: rest) (hf : f.plain) :
    (∃ k, (finishHead q s).host.sqs = tset {} s.host.sqs q k ∧ k.flight = rest ∧ k.halted = (s.sq q).halted
      ∧ (q < 64 → k ≠ {}))
    ∧ (finishHead q s).host.faultsum = s.host.faultsum ∧ (finishHead q s).refLog = s.refLog := by
  rcases Nat.lt_or_ge q 64 with hq | hq
  · rw [finishHead_of_plain h hq hf]
    obtain ⟨hsqs, hsum, hlog⟩ := posted_keeps q f rest s
    exact ⟨⟨_, hsqs, rfl, rfl, fun _ he => by cases congrArg SQ.history he⟩, hsum, hlog⟩
  · rw [finishHead_of_guest h hq, host_finishGuest, refLog_finishGuest]
    exact ⟨⟨_, rfl, rfl, rfl, fun hlt => absurd hlt (Nat.not_lt.mpr hq)⟩, rfl, rfl⟩

end

/-! ### Completing every command whose wait is over -/

/-- What a mode that changes by itself and the end of a command keep holds once every command whose wait is over has
completed. -/
theorem pump_invariant {P : State → Prop} (hmode : ∀ w s, P s → P (setMode .ready (endWaits w s)))
    (hhead : ∀ q f rest s, P s → (s.sq q).flight = f :: rest → P (finishHead q s)) {s : State} (hs : P s) : P (pump s) := by
  have hqueue (q n : Nat) {s : State} (hs : P s) : P (pumpQueue q n s) := by
    induction n generalizing s with
    | zero => exact hs
    | succ n ih =>
      unfold pumpQueue
      split
      · exact hs
      · next f rest hf =>
        split
        · exact ih (hhead q f rest s hs hf)
        · exact hs
  have hsettle : P (settleModes s) := by
    have hite (w : WaitFor) {c : Prop} [Decidable c] {s : State} (hs : P s) : P (if c then setMode .ready (endWaits w s) else s) := by
      split
      · exact hmode w s hs
      · exact hs
    exact hite _ (hite _ hs)
  have htimes (n : Nat) {s : State} (hs : P s) : P (times pumpRound n s) := by
    induction n generalizing s with
    | zero => exact hs
    | succ n ih => exact ih (each_invariant (fun q s => hqueue q _) _ hs)
  exact htimes _ hsettle

end Sys2Proof.Machine
end

section
/-! What completing commands leaves of a queue that has failed, of the refusal log and of the device (R404, R412, R413,
R464–R466). -/

namespace Sys2Proof.Machine

/-! ### The commands in flight -/

/-- Every command in flight has the property `p`. -/
def State.flights (s : State) (p : Nat → InFlight → Prop) : Prop := ∀ e ∈ s.host.sqs, ∀ f ∈ e.2.flight, p e.1 f

section
variable {p : Nat → InFlight → Prop} {s : State}

theorem State.flights.head (h : s.flights p) {q : Nat} {f : InFlight} {rest : List InFlight} (hq : (s.sq q).flight = f :: rest) :
    p q f ∧ ∀ g ∈ rest, p q g := by
  rcases tget_eq_or_mem ({} : SQ) q s.host.sqs with hd | hmem
  · rw [State.sq, hd] at hq
    cases hq
  · have hall := h _ hmem
    rw [show tget {} s.host.sqs q = s.sq q from rfl, hq] at hall
    exact ⟨hall f List.mem_cons_self, fun g hg => hall g (List.mem_cons_of_mem _ hg)⟩

theorem State.flights.tset (h : s.flights p) {t : State} {q : Nat} {k : SQ} (ht : t.host.sqs = tset {} s.host.sqs q k)
    (hk : ∀ f ∈ k.flight, p q f) : t.flights p := by
  intro e he
  rw [ht] at he
  rcases mem_of_mem_tset he with rfl | he
  · exact hk
  · exact h e he

theorem State.flights.of_sqs (h : s.flights p) {t : State} (ht : t.host.sqs = s.host.sqs) : t.flights p := by
  rw [State.flights, ht]
  exact h

theorem State.flights.mode (hp : ∀ q f, p q f → p q { f with wait := .nothing }) (h : s.flights p) (w : WaitFor) (m : Mode) :
    (setMode m (endWaits w s)).flights p := by
  obtain ⟨a, b, log, hm⟩ := setMode_eq_vectors m (endWaits w s)
  rw [hm]
  intro e he f hf
  obtain ⟨k, hk, hek⟩ := exists_of_mem_tmap he
  rw [hek] at hf
  obtain ⟨g, hg, rfl⟩ := List.mem_map.mp hf
  have hpg := h _ hk g hg
  by_cases hw : g.wait = w
  · rw [if_pos hw]
    exact hp _ _ hpg
  · rw [if_neg hw]
    exact hpg

/-- Of a queue the end of a wait touches the flight alone. -/
theorem sq_setMode_endWaits {q : Nat} (h : s.sq q ≠ {}) (w : WaitFor) (m : Mode) : ∃ l,
    (setMode m (endWaits w s)).sq q = { s.sq q with flight := l } ∧ (setMode m (endWaits w s)).sq q ≠ {} := by
  obtain ⟨a, b, log, hm⟩ := setMode_eq_vectors m (endWaits w s)
  have hne : ({ s.sq q with flight := (s.sq q).flight.map fun f => if f.wait = w then { f with wait := .nothing } else f } : SQ) ≠ {} := by
    intro he
    have hnil : (s.sq q).flight = [] := List.map_eq_nil_iff.mp (congrArg SQ.flight he)
    refine h ?_
    rw [hnil] at he
    exact (congrArg (fun l => ({ s.sq q with flight := l } : SQ)) hnil).trans he
  have hsq : (setMode m (endWaits w s)).sq q =
      { s.sq q with flight := (s.sq q).flight.map fun f => if f.wait = w then { f with wait := .nothing } else f } := by
    rw [hm]
    exact tget_tmap_of_ne (f := fun _ k => { k with
      flight := k.flight.map fun f => if f.wait = w then { f with wait := .nothing } else f }) h hne
  exact ⟨_, hsq, hsq ▸ hne⟩

end

/-- The property of a command in flight that it is no successful OPEN or CLOSE. -/
def plainFlight (_ : Nat) (f : InFlight) : Prop := f.plain

theorem plainFlight_nothing (q : Nat) (f : InFlight) (h : plainFlight q f) : plainFlight q { f with wait := .nothing } := h

/-! ### HALTED and the fault summary (R412) -/

/-- Plain commands are in flight, queue `q` is in use with its flag HALTED at `h`, and the fault summary is `sum`. -/
def State.StandsHalted (u : State) (q : Nat) (h : Bool) (sum : Word) : Prop :=
  u.flights plainFlight ∧ u.sq q ≠ {} ∧ (u.sq q).halted = h ∧ u.host.faultsum = sum

/-- Completing plain commands leaves HALTED of every queue in use, and the fault summary. -/
theorem halted_pump {q : Nat} (hq : q < 64) {s : State} (hplain : s.flights plainFlight) (hne : s.sq q ≠ {}) :
    ((pump s).sq q).halted = (s.sq q).halted ∧ (pump s).host.faultsum = s.host.faultsum := by
  have hP : (pump s).StandsHalted q (s.sq q).halted s.host.faultsum := by
    refine pump_invariant (P := fun u => u.StandsHalted q (s.sq q).halted s.host.faultsum) (fun w u hu => ?_) (fun k f rest u hu hf => ?_) ⟨hplain, hne, rfl, rfl⟩
    · obtain ⟨hfl, hnu, hhalt, hsum⟩ := hu
      obtain ⟨l, hsq, hsne⟩ := sq_setMode_endWaits hnu w .ready
      obtain ⟨a, b, log, hm⟩ := setMode_eq_vectors .ready (endWaits w u)
      refine ⟨hfl.mode plainFlight_nothing w .ready, hsne, ?_, ?_⟩
      · rw [hsq]
        exact hhalt
      · rw [hm]
        exact hsum
    · obtain ⟨hfl, hnu, hhalt, hsum⟩ := hu
      obtain ⟨hplf, hrest⟩ := hfl.head hf
      obtain ⟨⟨v, hv, hvf, hvh, hvne⟩, hsum', -⟩ := finishHead_keeps hf hplf
      refine ⟨hfl.tset hv (hvf ▸ hrest), ?_, ?_, hsum'.trans hsum⟩
      · by_cases hkq : q = k
        · subst hkq
          rw [State.sq, hv, tget_tset_self]
          exact hvne hq
        · rwa [State.sq, hv, tget_tset_ne _ _ _ _ _ hkq]
      · by_cases hkq : q = k
        · subst hkq
          rw [State.sq, hv, tget_tset_self, hvh, hhalt]
        · rwa [State.sq, hv, tget_tset_ne _ _ _ _ _ hkq]
  exact hP.2.2

/-- A judged command as it goes in flight. -/
def Mail.flown (m : Mail) (r : Reply) : InFlight :=
  { cmdId := m.h.cmdId, opcode := m.op, wait := r.wait, status := r.status, result := r.result, cell := m.cell, what := m.what
    target := m.target }

/-- The state that `conclude` completes from. -/
def inFlight (m : Mail) (r : Reply) : State :=
  r.s.modSq m.h.sq.val fun k => { k with flight := k.flight ++ [m.flown r] }

theorem done_eq (m : Mail) (r : Reply) :
    m.done r = pump (noteFailure m.h.sq.val r.status m.what m.target r.why (inFlight m r)) := rfl

theorem flights_inFlight {p : Nat → InFlight → Prop} {m : Mail} {r : Reply} (h : r.s.flights p)
    (hm : p m.h.sq.val (m.flown r)) : (inFlight m r).flights p := by
  refine h.tset rfl fun f hf => ?_
  rcases List.mem_append.mp hf with hf | hf
  · cases hk : (r.s.sq m.h.sq.val).flight with
    | nil => rw [hk] at hf; cases hf
    | cons g rest =>
      obtain ⟨hg, hrest⟩ := h.head hk
      rw [hk] at hf
      rcases List.mem_cons.mp hf with rfl | hf
      · exact hg
      · exact hrest f hf
  · exact List.mem_singleton.mp hf ▸ hm

theorem flights_noteFailure {p : Nat → InFlight → Prop} {s : State} (h : s.flights p) (q status what target : Nat) (why : Why) :
    (noteFailure q status what target why s).flights p := by
  rcases sqs_noteFailure q status what target why s with hs | hs
  · exact h.of_sqs hs
  · refine h.tset hs fun f hf => ?_
    cases hk : (s.sq q).flight with
    | nil => rw [hk] at hf; cases hf
    | cons g rest =>
      obtain ⟨hg, hrest⟩ := h.head hk
      rw [hk] at hf
      rcases List.mem_cons.mp hf with rfl | hf
      · exact hg
      · exact hrest f hf

theorem flights_of_none {s : State} (h : ∀ e ∈ s.host.sqs, e.2.flight = []) (p : Nat → InFlight → Prop) : s.flights p :=
  fun e he f hf => by rw [h e he] at hf; cases hf

theorem failing_of_ne {status : Nat} (h0 : status ≠ 0) (h10 : status ≠ 10) : failing status = true := by
  simp [failing, stOk, stAlready, h0, h10]

/-- A failure in an open session is logged, halts its queue and shows in the summary (R412). -/
theorem noteFailure_of_open {q status : Nat} (hq : q < 64) (hf : failing status = true) {s : State} (ho : s.host.protoValid = true)
    (what target : Nat) (why : Why) : noteFailure q status what target why s =
      setSum 13 ((logRefusal what status target why s).modSq q fun k => { k with halted := true }) := by
  obtain ⟨log, hlog⟩ := logRefusal_eq what status target why s
  simp only [noteFailure, hf, decide_eq_true hq, Bool.true_or, Bool.and_self, if_true, hlog, ho]

/-- With no session open it is only logged (R404). -/
theorem noteFailure_of_closed (q status what target : Nat) (why : Why) {s : State} (hc : s.host.protoValid = false) : ∃ log,
    noteFailure q status what target why s = { s with refLog := log } := by
  obtain ⟨log, hlog⟩ := logRefusal_eq what status target why s
  simp only [noteFailure, hlog, hc, Bool.false_and, Bool.false_eq_true, if_false]
  split
  · exact ⟨log, rfl⟩
  · exact ⟨_, rfl⟩

theorem sq_inFlight (m : Mail) (r : Reply) : (inFlight m r).sq m.h.sq.val = { r.s.sq m.h.sq.val with
    flight := (r.s.sq m.h.sq.val).flight ++ [m.flown r] } := State.sq_modSq _ _ _

theorem sq_inFlight_ne (m : Mail) (r : Reply) : (inFlight m r).sq m.h.sq.val ≠ {} := by
  rw [sq_inFlight]
  intro he
  have := congrArg SQ.flight he
  simp at this

/-- Settles O15: the failure halts the queue before any command completes, and no completion takes that back where none is
a successful OPEN or CLOSE. -/
theorem failureHaltsItsQueue : Obligations.FailureHaltsItsQueue := by
  unfold Obligations.FailureHaltsItsQueue
  intro m r h0 h10 hopen hops
  have hq := m.h.sq.isLt
  have hnote := noteFailure_of_open hq (failing_of_ne h0 h10) (s := inFlight m r) hopen m.what m.target r.why
  have hfl : (inFlight m r).flights plainFlight := flights_inFlight (fun e he f hf => .inr (hops e he f hf)) (.inl h0)
  have hhalt : ((noteFailure m.h.sq.val r.status m.what m.target r.why (inFlight m r)).sq m.h.sq.val).halted = true := by
    rw [hnote, State.sq, sqs_setSum]
    exact congrArg SQ.halted (State.sq_modSq _ _ _)
  obtain ⟨hpump, hsum⟩ := halted_pump hq (flights_noteFailure hfl m.h.sq.val r.status m.what m.target r.why)
    (fun he => by rw [he] at hhalt; cases hhalt)
  refine ⟨(congrArg (fun u : State => (u.sq m.h.sq.val).halted) (done_eq m r)).trans (hpump.trans hhalt), ?_⟩
  obtain ⟨x, hx, hbit, -⟩ := setSum_eq (k := 13) (by decide)
    ((logRefusal m.what r.status m.target r.why (inFlight m r)).modSq m.h.sq.val fun k => { k with halted := true })
  rw [done_eq, hsum, hnote, hx]
  exact hbit

/-! ### Halted queues (R413) and queues without a session (R404) -/

theorem execQueueResume_ends {h : Hdr} {s : State} (hs : served (.queueResume h) s = true) :
    Ends (.queueResume h) s fun t => { s := t.setSq h.sq.val { t.sq h.sq.val with halted := false } } := ends_of rfl hs rfl

theorem halted_takeEntry (q k : Nat) (s : State) : ((takeEntry q s).sq k).halted = (s.sq k).halted := by
  by_cases h : k = q
  · subst h
    rw [takeEntry, State.sq_modSq]
  · rw [takeEntry, State.sq_modSq_ne _ _ _ _ h]

/-- Settles O10: the check of HALTED is the first of a mailbox command's path; QUEUE_RESUME passes it. -/
theorem haltedQueueAborts : Obligations.HaltedQueueAborts := by
  unfold Obligations.HaltedQueueAborts
  refine ⟨fun c m s hm hread hhalt hop => ?_, fun h s hs => ⟨execQueueResume_ends hs, fun hhalt => ?_⟩,
    fun c m s hm hread hhalt hwd hopen hmode hhdr hflags => ?_, fun m r hclosed h0 hnone => ?_⟩
  · obtain ⟨body, hexec⟩ := exec_mailbox hm s
    refine ⟨.command (m.op + m.h.sq.val * 256 + m.h.cmdId % 65536 * 65536), hexec.trans (congrArg _ ?_)⟩
    have hop' : (m.op != 0x03) = true := bne_iff_ne.mpr hop
    simp only [mailbox, hread, hhalt, hop', Bool.not_true, Bool.false_eq_true, if_false, Bool.and_self, if_true]
    rfl
  · refine (execQueueResume_ends hs).congr fun m hm => ?_
    obtain rfl := Option.some.inj hm
    have hk := (halted_takeEntry h.sq.val h.sq.val s).trans hhalt
    exact congrArg (fun k => ({ s := (takeEntry h.sq.val s).setSq h.sq.val k } : Reply))
      (show { (takeEntry h.sq.val s).sq h.sq.val with halted := false } = (takeEntry h.sq.val s).sq h.sq.val by rw [← hk])
  · have hmode' : m.modes.contains s.sys.mode = true := List.contains_iff_mem.mpr hmode
    have hflags' : (m.h.flags != 3) = true := bne_iff_ne.mpr hflags
    simp only [served, hm, hread, hhalt, hwd, hopen, hmode', hhdr, hflags', Bool.not_false, Bool.true_or, Bool.and_self,
      Option.isNone_none]
  · obtain ⟨log, hnote⟩ := noteFailure_of_closed m.h.sq.val r.status m.what m.target r.why (s := inFlight m r) hclosed
    have hfl : (inFlight m r).flights plainFlight := flights_inFlight (flights_of_none hnone _) (.inl h0)
    obtain ⟨hpump, -⟩ := halted_pump m.h.sq.isLt (flights_noteFailure hfl m.h.sq.val r.status m.what m.target r.why)
      (by rw [hnote]; exact sq_inFlight_ne m r)
    rw [done_eq, hpump, hnote]
    show ((inFlight m r).sq m.h.sq.val).halted = _
    rw [sq_inFlight]

/-- Settles O11: with no session open the check that follows HALTED and the withdrawal decides. -/
theorem noSessionRefusal : Obligations.NoSessionRefusal := by
  unfold Obligations.NoSessionRefusal
  intro c m s hm hread hhalt hwd hclosed h1 h58
  obtain ⟨body, hexec⟩ := exec_mailbox hm s
  have h1' : (m.op != 0x01) = true := bne_iff_ne.mpr h1
  have h58' : (m.op != 0x58) = true := bne_iff_ne.mpr h58
  refine hexec.trans (congrArg _ ?_)
  simp only [mailbox, hread, hhalt, hwd, hclosed, h1', h58', Bool.not_true, Bool.not_false, Bool.false_and, Bool.and_self,
    Bool.false_eq_true, if_false, if_true]
  rfl

/-! ### The refusal log (R464–R466) -/

/-- READY counts no refusals: to enter it keeps what is logged. -/
theorem log_setMode_ready (s : State) : (setMode .ready s).refLog.entries = s.refLog.entries
    ∧ (setMode .ready s).refLog.total = s.refLog.total := by
  by_cases hm : s.sys.mode = .ready
  · rw [setMode, if_pos hm]
    exact ⟨rfl, rfl⟩
  · obtain ⟨a, b, h⟩ := raiseFault_eq_vectors { s with sys := { s.sys with mode := .ready }, refLog := { s.refLog with active := false } }
    have hset : setMode .ready s = raiseFault { s with sys := { s.sys with mode := .ready }, refLog := { s.refLog with active := false } } :=
      if_neg hm
    rw [hset, h]
    exact ⟨rfl, rfl⟩

/-- Plain commands are in flight, and the entries and the total of the refusal log are those of `log`. -/
def State.LogStands (u : State) (log : RefLog) : Prop :=
  u.flights plainFlight ∧ u.refLog.entries = log.entries ∧ u.refLog.total = log.total

theorem log_pump {s : State} (hplain : s.flights plainFlight) : (pump s).refLog.entries = s.refLog.entries
    ∧ (pump s).refLog.total = s.refLog.total := by
  have hP : (pump s).LogStands s.refLog := by
    refine pump_invariant (P := fun u => u.LogStands s.refLog) (fun w u hu => ?_) (fun k f rest u hu hf => ?_) ⟨hplain, rfl, rfl⟩
    · obtain ⟨hfl, hent, htot⟩ := hu
      obtain ⟨he, ht⟩ := log_setMode_ready (endWaits w u)
      exact ⟨hfl.mode plainFlight_nothing w .ready, he.trans hent, ht.trans htot⟩
    · obtain ⟨hfl, hlog⟩ := hu
      obtain ⟨hplf, hrest⟩ := hfl.head hf
      obtain ⟨⟨v, hv, hvf, -⟩, -, hlog'⟩ := finishHead_keeps hf hplf
      exact ⟨hfl.tset hv (hvf ▸ hrest), hlog' ▸ hlog⟩
  exact hP.2

theorem refLog_noteFailure {q status : Nat} (hq : q < 64) (hf : failing status = true) (what target : Nat) (why : Why) (s : State) :
    (noteFailure q status what target why s).refLog = (logRefusal what status target why s).refLog := by
  simp only [noteFailure, hf, decide_eq_true hq, Bool.true_or, Bool.and_self, if_true, Bool.and_true]
  split
  · exact refLog_setSum 13 _
  · rfl

/-- Settles O16: the failure is logged before any command completes, and completions do not touch the log. -/
theorem refusalIsLogged : Obligations.RefusalIsLogged := by
  unfold Obligations.RefusalIsLogged
  intro m r h0 h10 hactive hnone
  have hfl : (inFlight m r).flights plainFlight := flights_inFlight (flights_of_none hnone _) (.inl h0)
  obtain ⟨hent, htot⟩ := log_pump (flights_noteFailure hfl m.h.sq.val r.status m.what m.target r.why)
  have hlog := refLog_noteFailure m.h.sq.isLt (failing_of_ne h0 h10) m.what m.target r.why (inFlight m r)
  have hact : (inFlight m r).refLog.active = true := hactive
  rw [done_eq, hent, htot, hlog]
  simp only [logRefusal, hact, if_true]
  exact ⟨_, rfl, rfl, rfl, rfl, rfl, rfl, rfl⟩

/-! ### The device (R401, R402, R410) -/

theorem device_host (s : State) (x : HostIf) : ({ s with host := x } : State).device = s.device := rfl

theorem device_raiseVec (v : Nat) (s : State) : (raiseVec v s).device = s.device := by
  obtain ⟨x, hx, -⟩ := raiseVec_eq v s
  rw [hx, device_host]

theorem device_complete (c : Nat) (e : Completion) (s : State) : (complete c e s).device = s.device := by
  simp only [complete, writeCompletion]
  split
  · split
    · exact device_raiseVec _ _
    · rfl
  · rfl

theorem device_posted (q : Nat) (f : InFlight) (rest : List InFlight) (s : State) : (posted q f rest s).device = s.device := by
  simp only [posted]
  split <;> exact device_complete _ _ _

theorem device_noteFailure (q status what target : Nat) (why : Why) (s : State) :
    (noteFailure q status what target why s).device = s.device := by
  obtain ⟨log, hlog⟩ := logRefusal_eq what status target why s
  simp only [noteFailure, hlog]
  split_ifs
  · exact keeps_of_setSum State.device (fun _ _ => rfl) (by decide) _
  · rfl
  · rfl

/-- A command of the host's queues other than CLOSE. -/
def ofHost (q : Nat) (f : InFlight) : Prop := f.opcode ≠ 2 ∧ q < 64

theorem flights_resetQueues {p : Nat → InFlight → Prop} {s : State} (h : s.flights p) (v : Nat) (o : Bool) :
    (resetQueues v o s).flights p := by
  intro e he f hf
  rcases mem_of_mem_tset he with rfl | he
  · cases hf
  · exact h e (List.mem_filter.mp he).1 f hf

theorem device_pump {s : State} (hs : s.flights ofHost) : (pump s).device = s.device := by
  have hP : (pump s).flights ofHost ∧ (pump s).device = s.device := by
    refine pump_invariant (P := fun u => u.flights ofHost ∧ u.device = s.device) (fun w u hu => ?_) (fun k f rest u hu hf => ?_) ⟨hs, rfl⟩
    · obtain ⟨a, b, log, hm⟩ := setMode_eq_vectors .ready (endWaits w u)
      refine ⟨hu.1.mode (fun _ _ => id) w .ready, ?_⟩
      rw [hm]
      exact hu.2
    · obtain ⟨hfl, hdev⟩ := hu
      obtain ⟨⟨hop, hk⟩, hrest⟩ := hfl.head hf
      have hpost : (posted k f rest u).flights ofHost := hfl.tset (posted_keeps k f rest u).1 hrest
      have hpdev := (device_posted k f rest u).trans hdev
      rw [finishHead_of_host hf hk, if_neg fun h : f.opcode = 2 ∧ _ => hop h.1]
      split
      · exact ⟨flights_resetQueues hpost _ _, hpdev⟩
      · exact ⟨hpost, hpdev⟩
  exact hP.2

/-- Settles O14: failures, completions and modes that settle touch host interface, mode and refusal log alone, and so does
the reset of the queues by OPEN. -/
theorem completionTouchesHostOnly : Obligations.CompletionTouchesHostOnly := by
  unfold Obligations.CompletionTouchesHostOnly
  intro m r hop hfl
  have hflights : r.s.flights ofHost := hfl
  rw [done_eq, device_pump (flights_noteFailure (flights_inFlight hflights ⟨hop, m.h.sq.isLt⟩) _ _ _ _ _), device_noteFailure]
  rfl

end Sys2Proof.Machine
end

section
/-! A command that completes alone (R401, R402, R408), the session commands (R403–R406, R411, R415) and what OPEN leaves of
the model's own queues. -/

namespace Sys2Proof.Machine

/-! ### A command alone in flight -/

/-- The command `f` of queue `q` is alone in flight. -/
def aloneIn (q : Nat) (f : InFlight) (k : Nat) (g : InFlight) : Prop := k = q ∧ g = f

theorem pumpQueue_of_empty {k : Nat} {s : State} (h : (s.sq k).flight = []) (n : Nat) : pumpQueue k n s = s := by
  cases n with
  | zero => rfl
  | succ n =>
    unfold pumpQueue
    rw [h]

theorem pumpRound_of_empty {s : State} (h : ∀ k, (s.sq k).flight = []) : pumpRound s = s := by
  have hl (l : List Nat) : each (fun q s => pumpQueue q (s.sq q).flight.length s) l s = s := by
    induction l with
    | nil => rfl
    | cons k l ih => rw [each, pumpQueue_of_empty (h k), ih]
  exact hl _

theorem times_pumpRound_of_empty {s : State} (h : ∀ k, (s.sq k).flight = []) (n : Nat) : times pumpRound n s = s := by
  induction n with
  | zero => rfl
  | succ n ih => rw [times, pumpRound_of_empty h, ih]

section
variable {q : Nat} {f : InFlight} {s : State}

theorem settleModes_of_alone (h : s.flights (aloneIn q f)) (hc : f.wait ≠ .cellsStopped) (ht : f.wait ≠ .trims) :
    settleModes s = s := by
  have hno {w : WaitFor} (hw : f.wait ≠ w) : s.awaits w = false := by
    rw [State.awaits, List.any_eq_false]
    intro e he
    rw [Bool.not_eq_true, List.any_eq_false]
    intro g hg
    obtain ⟨-, rfl⟩ := h e he g hg
    simpa using hw
  simp only [settleModes, hno hc, hno ht, Bool.and_false, Bool.false_and, Bool.false_eq_true, if_false]

/-- Where a command alone in flight waits for nothing but its place in the queue, it completes, and nothing else does. -/
theorem pump_of_alone (h : s.flights (aloneIn q f)) (hq : (s.sq q).flight = [f]) (hw : f.wait = .nothing ∨ f.wait = .earlier)
    (hend : ∀ k, ((finishHead q s).sq k).flight = []) : pump s = finishHead q s := by
  have hempty {k : Nat} (hk : k ≠ q) : (s.sq k).flight = [] := by
    cases hf : (s.sq k).flight with
    | nil => rfl
    | cons g rest => exact absurd (h.head hf).1.1 hk
  have hdone : s.waitDone f.wait = true := by rcases hw with hw | hw <;> rw [hw] <;> rfl
  have hround (l : List Nat) (hl : q ∈ l) : each (fun q s => pumpQueue q (s.sq q).flight.length s) l s = finishHead q s := by
    induction l with
    | nil => cases hl
    | cons k l ih =>
      by_cases hk : k = q
      · subst hk
        have hone : pumpQueue k 1 s = finishHead k s := by
          rw [pumpQueue, hq]
          exact if_pos hdone
        have hrest (l : List Nat) : each (fun q s => pumpQueue q (s.sq q).flight.length s) l (finishHead k s) = finishHead k s := by
          induction l with
          | nil => rfl
          | cons j l ih => rw [each, pumpQueue_of_empty (hend j), ih]
        rw [each, hq]
        exact (congrArg _ hone).trans (hrest l)
      · rw [each, pumpQueue_of_empty (hempty hk)]
        exact ih ((List.mem_cons.mp hl).resolve_left (Ne.symm hk))
  have hkey : q ∈ tkeys s.host.sqs := by
    rcases tget_eq_or_mem ({} : SQ) q s.host.sqs with hd | hmem
    · rw [State.sq, hd] at hq
      cases hq
    · exact List.mem_map.mpr ⟨_, hmem, rfl⟩
  have hsettle : settleModes s = s := settleModes_of_alone h (by rcases hw with hw | hw <;> rw [hw] <;> decide)
    (by rcases hw with hw | hw <;> rw [hw] <;> decide)
  simp only [pump, hsettle, times]
  rw [show pumpRound s = finishHead q s from hround _ hkey, times_pumpRound_of_empty hend]

end

theorem sq_noteFailure_self (q status what target : Nat) (why : Why) (s : State) : ∃ h,
    (noteFailure q status what target why s).sq q = { s.sq q with halted := h } := by
  rcases sqs_noteFailure q status what target why s with hs | hs
  · exact ⟨(s.sq q).halted, by rw [State.sq, hs]; rfl⟩
  · exact ⟨true, by rw [State.sq, hs, tget_tset_self]⟩

section
variable {m : Mail} {r : Reply} (hnone : ∀ e ∈ r.s.host.sqs, e.2.flight = [])
include hnone

theorem flight_eq_nil_of_none (k : Nat) : (r.s.sq k).flight = [] := by
  cases hf : (r.s.sq k).flight with
  | nil => rfl
  | cons g rest => exact ((flights_of_none hnone fun _ _ => False).head hf).1.elim

/-- With no other command in flight, a command that waits for nothing but its place completes at once. -/
theorem done_of_alone (hw : r.wait = .nothing ∨ r.wait = .earlier)
    (hend : ∀ k, ((finishHead m.h.sq.val (noteFailure m.h.sq.val r.status m.what m.target r.why (inFlight m r))).sq k).flight = []) :
    m.done r = finishHead m.h.sq.val (noteFailure m.h.sq.val r.status m.what m.target r.why (inFlight m r)) := by
  obtain ⟨h, hsq⟩ := sq_noteFailure_self m.h.sq.val r.status m.what m.target r.why (inFlight m r)
  have hfl : (inFlight m r).flights (aloneIn m.h.sq.val (m.flown r)) := flights_inFlight (flights_of_none hnone _) ⟨rfl, rfl⟩
  rw [done_eq]
  refine pump_of_alone (flights_noteFailure hfl _ _ _ _ _) ?_ hw hend
  rw [hsq, sq_inFlight, flight_eq_nil_of_none hnone]
  rfl

end

/-- The entry that a completion queue takes gets the phase of its pass, and its count goes on. -/
theorem cq_writeCompletion (c : Nat) (e : Completion) (s : State) :
    ((writeCompletion c e s).cq c).slots = (s.cq c).slots ++ [{ e with phase := decide ((s.cq c).written / s.depthNow % 2 = 0) }]
    ∧ ((writeCompletion c e s).cq c).written = ((s.cq c).written + 1) % 65536 := by
  simp only [writeCompletion]
  split
  · rw [State.cq, cqs_raiseVec]
    exact ⟨congrArg CQ.slots (State.cq_setCq _ _ _), congrArg CQ.written (State.cq_setCq _ _ _)⟩
  · exact ⟨congrArg CQ.slots (State.cq_setCq _ _ _), congrArg CQ.written (State.cq_setCq _ _ _)⟩

/-- Settles O13: alone in flight, the command is the one that completes, and its entry takes the free slot. -/
theorem completionPosted : Obligations.CompletionPosted := by
  unfold Obligations.CompletionPosted
  intro m r hnone hwait hop1 hop2 hheld hfree
  obtain ⟨halt, hsq⟩ := sq_noteFailure_self m.h.sq.val r.status m.what m.target r.why (inFlight m r)
  obtain ⟨hcqs, hversion⟩ := cqs_noteFailure m.h.sq.val r.status m.what m.target r.why (inFlight m r)
  have hflown : (m.flown r).plain := .inr ⟨hop1, hop2⟩
  have hdone := done_of_alone (m := m) hnone (.inl hwait)
  have hfl : (inFlight m r).flights (aloneIn m.h.sq.val (m.flown r)) := flights_inFlight (flights_of_none hnone _) ⟨rfl, rfl⟩
  have hflu := flights_noteFailure hfl m.h.sq.val r.status m.what m.target r.why
  generalize noteFailure m.h.sq.val r.status m.what m.target r.why (inFlight m r) = u at hsq hcqs hversion hdone hflu
  rw [sq_inFlight, flight_eq_nil_of_none hnone] at hsq
  have hhead : (u.sq m.h.sq.val).flight = [m.flown r] := by rw [hsq]; rfl
  have hfin := finishHead_of_plain hhead m.h.sq.isLt hflown
  obtain ⟨hsqs, -, -⟩ := posted_keeps m.h.sq.val (m.flown r) [] u
  rw [hfin] at hdone
  have hself : (posted m.h.sq.val (m.flown r) [] u).sq m.h.sq.val = (u.sq m.h.sq.val).popped (m.flown r) [] := by
    rw [State.sq, hsqs, tget_tset_self]
  have hd := hdone fun k => by
    by_cases hk : k = m.h.sq.val
    · rw [hk, hself]
      rfl
    · rw [State.sq, hsqs, tget_tset_ne _ _ _ _ _ hk]
      cases hf : (tget {} u.host.sqs k).flight with
      | nil => rfl
      | cons g rest => exact absurd (hflu.head hf).1.1 hk
  have hcq (c : Nat) : (u.modSq m.h.sq.val fun k => k.popped (m.flown r) []).cq c = r.s.cq c := by
    show tget {} u.host.cqs c = _
    rw [hcqs]
    rfl
  have hdepth : (u.modSq m.h.sq.val fun k => k.popped (m.flown r) []).depthNow = r.s.depthNow := by
    show queueDepth u.host.version = _
    rw [hversion]
    rfl
  have hof : (u.modSq m.h.sq.val fun k => k.popped (m.flown r) []).cqOf m.h.sq.val = r.s.cqOf m.h.sq.val := by
    simp only [State.cqOf, State.sq_modSq]
    show (if u.host.version ≤ 1 then _ else (u.sq m.h.sq.val).cq) = _
    rw [hversion, hsq]
    rfl
  have hpost : posted m.h.sq.val (m.flown r) [] u = writeCompletion (r.s.cqOf m.h.sq.val)
      ((u.sq m.h.sq.val).entryOf m.h.sq.val (m.flown r)) (u.modSq m.h.sq.val fun k => k.popped (m.flown r) []) := by
    have hop : ¬(m.flown r).opcode = 1 := hop1
    have hfree' : (u.modSq m.h.sq.val fun k => k.popped (m.flown r) []).cqFree (r.s.cqOf m.h.sq.val) = true := by
      simp only [State.cqFree, hcq, hdepth]
      exact hfree
    simp only [posted, if_neg hop, hof, complete, hcq, hheld, decide_true, hfree', Bool.and_self, if_true]
  obtain ⟨hslots, hwritten⟩ := cq_writeCompletion (r.s.cqOf m.h.sq.val) ((u.sq m.h.sq.val).entryOf m.h.sq.val (m.flown r))
    (u.modSq m.h.sq.val fun k => k.popped (m.flown r) [])
  rw [hcq, hdepth] at hslots
  rw [hcq] at hwritten
  have hcount : (u.sq m.h.sq.val).completed = (r.s.sq m.h.sq.val).completed := by rw [hsq]
  refine ⟨{ (u.sq m.h.sq.val).entryOf m.h.sq.val (m.flown r) with
    phase := decide ((r.s.cq (r.s.cqOf m.h.sq.val)).written / r.s.depthNow % 2 = 0) }, rfl, rfl, rfl, rfl, ?_, rfl, ?_, ?_, ?_, ?_⟩
  · exact congrArg (fun n => (n + 1) % 65536) hcount
  · rw [hd, hpost, hslots]
  · rw [hd, hpost, hwritten]
  · rw [hd, hself]
    rfl
  · rw [hd, hself]
    rfl

/-! ### OPEN, CLOSE, FENCE and an unknown opcode -/

/-- What OPEN makes of the state after its entry is read (R404). -/
def openReply (vmin vmax : Nat) (t : State) : Reply :=
  if vmin = 0 || decide (vmax < vmin) then .bad t 0
  else if 3 < vmin then .no t stNotSupported (.field 0)
  else if t.host.protoValid then .busy t
  else { s := t, result := openResult (min vmax 3) }

section
variable {vmin vmax : Nat} {t : State}

theorem openReply_of_range (h : ¬(vmin = 0 ∨ vmax < vmin)) (h3 : vmin ≤ 3) : openReply vmin vmax t =
    if t.host.protoValid then .busy t else { s := t, result := openResult (min vmax 3) } := by
  have hr : (vmin = 0 || decide (vmax < vmin)) = false := by simpa [not_or] using h
  rw [openReply, hr, if_neg (Nat.not_lt.mpr h3)]
  rfl

theorem openReply_of_closed (h : ¬(vmin = 0 ∨ vmax < vmin)) (h3 : vmin ≤ 3) (hc : t.host.protoValid = false) :
    openReply vmin vmax t = { s := t, result := openResult (min vmax 3) } := by
  rw [openReply_of_range h h3, hc]
  rfl

end

theorem open_ends {h : Hdr} {vmin vmax : Nat} {s : State} (hs : served (.open_ h vmin vmax) s = true) :
    Ends (.open_ h vmin vmax) s (openReply vmin vmax) := ends_of rfl hs rfl

theorem fence_ends {h : Hdr} {mask : BitVec 64} {s : State} (hs : served (.fence h mask) s = true) :
    Ends (.fence h mask) s fun t => { s := t, wait := .prior (s.priorSet h.sq.val mask) } := ends_of rfl hs rfl

theorem priorSet_of_bells {q n : Nat} {counts : List (Nat × Nat)} {later : List (Nat × List (Nat × Nat))} {s : State}
    (h : (s.sq q).bells = (n, counts) :: later) (mask : BitVec 64) :
    s.priorSet q mask = counts.filter fun e => mask.getLsbD e.1 && decide (e.1 ≠ q) && (s.sq e.1).en := by
  simp only [State.priorSet, h]

theorem anyMode_of_canRead {s : State} {q : Nat} (h : s.canRead q = true) : anyMode.contains s.sys.mode = true := by
  simp only [State.canRead, Bool.and_eq_true, decide_eq_true_eq] at h
  obtain ⟨⟨⟨⟨⟨hboot, -⟩, -⟩, -⟩, -⟩, -⟩ := h
  cases hm : s.sys.mode with
  | boot => exact absurd hm hboot
  | _ => rfl

/-- Settles O17: OPEN by its range and the session, CLOSE and FENCE by what they wait for, and an opcode of no command. -/
theorem sessionCommandsComplete : Obligations.SessionCommandsComplete := by
  unfold Obligations.SessionCommandsComplete
  refine ⟨fun h vmin vmax s hs => ⟨fun hbad => ?_, fun h3 hle => ?_, fun h1 h3 hle ho => ?_, fun h1 h2 hc => ?_,
    fun h1 h2 h3 hc => ?_, fun h1 h2 h3 hc => ?_⟩, fun h s hs => ends_of rfl hs rfl,
    fun h mask s n counts later hs hbells => ?_, fun h op s hop hread hhalt hopen => ?_⟩
  · refine (open_ends hs).congr fun m _ => ?_
    have hr : (vmin = 0 || decide (vmax < vmin)) = true := by simpa using hbad
    rw [openReply, hr]
    rfl
  · refine (open_ends hs).congr fun m _ => ?_
    have hr : (vmin = 0 || decide (vmax < vmin)) = false := by simp; omega
    rw [openReply, hr, if_pos h3]
    rfl
  · refine (open_ends hs).congr fun m _ => (openReply_of_range (by omega) h3).trans ?_
    rw [show (takeEntry m.h.sq.val s).host.protoValid = true from ho]
    rfl
  · subst h1 h2
    exact (open_ends hs).congr fun m _ => openReply_of_closed (by omega) (by omega) hc
  · subst h3
    exact (open_ends hs).congr fun m _ => openReply_of_closed (by omega) (by omega) hc
  · refine (open_ends hs).congr fun m _ => ?_
    rw [openReply_of_closed (by omega) h2 (show (takeEntry m.h.sq.val s).host.protoValid = false from hc), Nat.min_eq_right h3]
    rfl
  · exact (fence_ends hs).congr fun m _ => by rw [priorSet_of_bells hbells]
  · have hknown : knownOpcodes.contains op = false := by simpa using hop
    have hwd : s.withdrawn h.sq.val op = false := by
      have h12 : op ≠ 0x12 := fun h => hop (h ▸ by decide)
      have h16 : op ≠ 0x16 := fun h => hop (h ▸ by decide)
      simp [State.withdrawn, h12, h16]
    have hhdr : hdrError { h with flags := 0, plen := 0, resv := none } 0 s.host.version = none := rfl
    show execUnknownCommand h op s = _
    simp only [execUnknownCommand, hknown, Bool.false_eq_true, if_false, command, mailbox, hread, hhalt, hwd, hopen,
      anyMode_of_canRead hread, hhdr, Bool.not_true, Bool.false_and]
    rfl

/-! ### OPEN and the queues beyond 64 -/

/-- A state that holds, enabled, a queue beyond the 64 of R398, such as the model keeps for another device. -/
def guestEnabled : State := { State.reset with host := { State.reset.host with sqs := [(70, { en := true })] } }

/-- An OPEN of queue 0, in no rule but its opcode. -/
def openMail : Mail :=
  { h := { cmdId := 0, flags := 0, plen := 4, sq := 0, addr := 0, resv := none }, op := 0x01, len := 4, modes := anyMode, target := 1 }

/-- Refutes O18: the statement lets `q` range over every number, and OPEN leaves the model's own queues beyond 64 as they
are: one that is enabled stays enabled. -/
theorem not_openAndCloseResetQueues : ¬ Obligations.OpenAndCloseResetQueues := by
  unfold Obligations.OpenAndCloseResetQueues
  intro h
  have hstays : ((openMail.done { s := guestEnabled, result := 1 }).sq 70).en = true := by decide +kernel
  obtain ⟨-, -, -, -, -, -, -, -, -, -, hoff⟩ := (h openMail { s := guestEnabled, result := 1 } rfl (by decide +kernel)).1 rfl rfl rfl
  exact absurd ((hoff 70 (by decide)).1.symm.trans hstays) (by decide)

end Sys2Proof.Machine
end

section
/-! TIU_MEASURE (R351, R354, R357, R424). -/

namespace Sys2Proof.Machine

/-- Settings of TIU_MEASURE that keep the ranges of R357, for an engine of the device; whether the sources can stamp is
left open. -/
structure State.TakesTiu (s : State) (e : Nat) (a : TiuArgs) : Prop where
  engine : e < 4
  mode : a.mode ≤ 3
  srca : a.srca ≤ 10
  srcb : a.mode = 2 → a.srcb ≤ 10
  edge : a.edge ≤ 1 ∨ a.edge = 2 ∧ a.mode = 1
  ring : a.ring < 64
  dev : (s.ring a.ring).dev = true
  div1 : 1 ≤ a.div
  div : a.div ≤ 65536
  count : a.count < 2 ^ 32
  gate20 : 20 ≤ a.gate
  gate : a.gate ≤ 2 ^ 46
  start : a.start.ns < 1000000000

section
variable {s : State} {e : Nat} {a : TiuArgs} (h : s.TakesTiu e a)
include h

theorem tiuRange_of_srca (ha : s.stamps (srcChan a.srca) = false) : tiuRange e a s = some 3 := by
  have he : ¬4 ≤ e := Nat.not_le.mpr h.engine
  have hm : ¬3 < a.mode := Nat.not_lt.mpr h.mode
  simp [tiuRange, he, hm, ha]

section
variable (ha : s.stamps (srcChan a.srca) = true)
include ha

theorem tiuRange_of_srcb (hmode : a.mode = 2) (hb : s.stamps (srcChan a.srcb) = false) : tiuRange e a s = some 4 := by
  have he : ¬4 ≤ e := Nat.not_le.mpr h.engine
  simp [tiuRange, he, hmode, h.srca, ha, hb]

variable (hb : a.mode = 2 → s.stamps (srcChan a.srcb) = true)
include hb

theorem tiuRange_of_stamps : tiuRange e a s = none := by
  have he : ¬4 ≤ e := Nat.not_le.mpr h.engine
  have hm : ¬3 < a.mode := Nat.not_lt.mpr h.mode
  have hsrca : ¬(!(decide (a.srca ≤ 10) && s.stamps (srcChan a.srca))) = true := by simp [h.srca, ha]
  have hsrcb : ¬(decide (a.mode = 2) && !(decide (a.srcb ≤ 10) && s.stamps (srcChan a.srcb))) = true := by
    simpa using fun h2 => ⟨h.srcb h2, hb h2⟩
  have hedge : ¬(decide (2 < a.edge) || (decide (a.edge = 2) && decide (a.mode ≠ 1))) = true := by
    have := h.edge
    simp
    omega
  have hring : ¬(decide (64 ≤ a.ring) || !(s.ring a.ring).dev) = true := by simp [h.ring, h.dev]
  have hdiv : ¬(decide (a.div = 0) || decide (65536 < a.div)) = true := by
    have := h.div1
    simp [h.div]
    omega
  have hgate : ¬(decide (a.gate < 20) || decide (2 ^ 46 < a.gate)) = true := by
    have := h.gate
    simp [h.gate20]
    omega
  have hstart : ¬(!stampOk a.start) = true := by simp [stampOk, h.start]
  unfold tiuRange
  rw [if_neg he, if_neg hm, if_neg hsrca, if_neg hsrcb, if_neg hedge, if_neg hring, if_neg hdiv,
    if_neg (Nat.not_le.mpr h.count), if_neg hgate, if_neg hstart]

theorem tiuStartReply_of_running (hr : (s.tiuEng e).running = true) : tiuStartReply e a s = .busy s := by
  simp only [tiuStartReply, tiuRange_of_stamps h ha hb, hr, if_true]

theorem tiuStartReply_of_late (hr : (s.tiuEng e).running = false) (hn : stampNow a.start = false)
    (hlate : s.coarseOf (stampTicks a.start) < (s.now : Int) + 200000) : tiuStartReply e a s = .no s stLate (.field 24) := by
  have hus : ((us 10 : Nat) : Int) = 200000 := rfl
  simp only [tiuStartReply, tiuRange_of_stamps h ha hb, hr, hn, hus, hlate, decide_true, Bool.not_false, Bool.and_self,
    Bool.false_eq_true, if_false, if_true]

/-- An engine that starts, its first gate open at `open_`. -/
def startedTiu (a : TiuArgs) (seq open_ : Nat) : TiuEng :=
  { running := decide (a.mode ≠ 0), set := a, gateOpen := open_, seq, gatesLeft := if a.count = 0 then none else some a.count }

theorem tiuStartReply_of_start (hr : (s.tiuEng e).running = false)
    (hs : stampNow a.start = true ∨ (s.now : Int) + 200000 ≤ s.coarseOf (stampTicks a.start)) : tiuStartReply e a s =
      { s := s.setTiuEng e (startedTiu a (s.tiuEng e).seq
          (if stampNow a.start then s.now else (s.coarseOf (stampTicks a.start)).toNat)) } := by
  have hus : ((us 10 : Nat) : Int) = 200000 := rfl
  have hin : (!stampNow a.start && decide (s.coarseOf (stampTicks a.start) < (s.now : Int) + 200000)) = false := by
    rcases hs with hs | hs
    · rw [hs]; rfl
    · rw [decide_eq_false (Int.not_lt.mpr hs), Bool.and_false]
  simp only [tiuStartReply, tiuRange_of_stamps h ha hb, hr, hus, hin, Bool.false_eq_true, if_false]
  rfl

end

end

theorem stamps_iff (s : State) (src : Nat) : s.stamps (srcChan src) = true ↔
    s.isOn (if src < 8 then 5 else 0) = true ∧ (s.stampChan (if src < 8 then 0 else 1)).locked = true
      ∧ (s.stampChan (if src < 8 then 0 else 1)).cald = 31 := by
  by_cases h8 : src < 8
  · simp [State.stamps, srcChan, h8, stampDom, and_assoc]
  · simp [State.stamps, srcChan, h8, stampDom, and_assoc]

theorem tiuMeasureStart_ends {h : Hdr} {e : Nat} {a : TiuArgs} {s : State} (hs : served (.tiuMeasureStart h e a) s = true) :
    Ends (.tiuMeasureStart h e a) s (tiuStartReply e a) := ends_of rfl hs rfl

theorem tiuMeasureStop_ends {h : Hdr} {e : Nat} {s : State} (hs : served (.tiuMeasureStop h e) s = true) :
    Ends (.tiuMeasureStop h e) s (tiuStopReply e) := ends_of rfl hs rfl

/-- Settles O33: START by the first of its checks that fails, or by the engine it sets; STOP by the engine it ends. -/
theorem intervalUnitCommands : Obligations.IntervalUnitCommands := by
  unfold Obligations.IntervalUnitCommands
  refine ⟨fun h e a s hs he hm hsa hsb hedge hring hdev hd1 hd hc hg20 hg hst => ?_, fun s src _ => stamps_iff s src,
    fun h e s hs he => ?_⟩
  · have htakes (q : Nat) : (takeEntry q s).TakesTiu e a := ⟨he, hm, hsa, hsb, hedge, hring, hdev, hd1, hd, hc, hg20, hg, hst⟩
    have hends := tiuMeasureStart_ends hs
    refine ⟨fun ha => ?_, fun ha h2 hb => ?_, fun ha hb => ⟨fun hr => ?_, fun hr hn hlate => ?_, fun hr hn => ?_, fun hr hn hle => ?_⟩⟩
    · exact hends.congr fun m _ => by rw [tiuStartReply, tiuRange_of_srca (htakes _) ha]; rfl
    · exact hends.congr fun m _ => by rw [tiuStartReply, tiuRange_of_srcb (htakes _) ha h2 hb]; rfl
    · exact hends.congr fun m _ => tiuStartReply_of_running (htakes _) ha hb hr
    · have hnow : stampNow a.start = false := Bool.eq_false_iff.mpr fun h => hn ((stampNow_iff _).mp h)
      exact hends.congr fun m _ => tiuStartReply_of_late (htakes _) ha hb hr hnow hlate
    · have hnow := (stampNow_iff _).mpr hn
      exact hends.congr fun m _ => (tiuStartReply_of_start (htakes _) ha hb hr (.inl hnow)).trans (by rw [if_pos hnow]; rfl)
    · have hnow : ¬stampNow a.start = true := fun h => hn ((stampNow_iff _).mp h)
      exact hends.congr fun m _ => (tiuStartReply_of_start (htakes _) ha hb hr (.inr hle)).trans (by rw [if_neg hnow]; rfl)
  · exact (tiuMeasureStop_ends hs).congr fun m _ => by rw [tiuStopReply, if_neg (Nat.not_le.mpr he)]; rfl

end Sys2Proof.Machine
end

section
/-! Power-up, reset and REFCLK (R504, R532–R534, R557–R560), the identity of the part (R391) and the sideband's common
command codes (R547). -/

namespace Sys2Proof.Machine

/-! ### Losses leave the label of device time and the settings of its domains -/

/-- The label of device time and the settings of the two domains. -/
def State.label (s : State) : Nat × Nat × DomSettings × DomSettings :=
  (s.time.sec, s.time.tick, (s.tdom 0).set, (s.tdom 1).set)

theorem label_selectDom (k : Nat) (s : State) : (selectDom k s).label = s.label := rfl

theorem label_leftTracking (k : Nat) (s : State) : (leftTracking k s).label = s.label := by
  unfold leftTracking
  split
  · dsimp only
    split
    · exact label_selectDom _ s
    · rfl
  · rfl

theorem label_setTdom {k : Nat} {d : TimeDom} {s : State} (hk : k = 0 ∨ k = 1) (hd : d.set = (s.tdom k).set) :
    (s.setTdom k d).label = s.label := by
  rcases hk with rfl | rfl
  · exact congrArg (fun x => (s.time.sec, s.time.tick, x, (s.tdom 1).set)) hd
  · exact congrArg (fun x => (s.time.sec, s.time.tick, (s.tdom 0).set, x)) hd

theorem label_loseDom {k : Nat} (hk : k = 0 ∨ k = 1) (s : State) : (loseDom k id s).label = s.label := by
  unfold loseDom
  dsimp only
  split
  · rfl
  · exact (label_leftTracking _ _).trans (label_setTdom hk rfl)

theorem label_loseSources (p : DomSettings → Bool) (s : State) : (loseSources p id s).label = s.label := by
  have hone {k : Nat} (hk : k = 0 ∨ k = 1) (s : State) : (if p (s.tdom k).set then loseDom k id s else s).label = s.label := by
    split
    · exact label_loseDom hk s
    · rfl
  exact (hone (.inr rfl) _).trans (hone (.inl rfl) s)

/-! ### Power-up and reset -/

theorem isOn_of_reset {s : State} (h : s.domains = State.reset.domains) : s.isOn 0 = true ∧ ∀ d, d ≠ 0 → s.isOn d = false := by
  refine ⟨?_, fun d hd => ?_⟩
  · rw [State.isOn, State.dom_of_domains h]
    rfl
  · rw [State.isOn, State.dom_of_domains h, dom_reset_of_ne hd]
    rfl

theorem booting_iff (s : State) (n : Nat) : s.booting n = true ↔ s.sys.mode = .boot ∧ s.boot.step = n ∧ s.sys.resetLow = false
    ∧ s.sys.railsOk = true ∧ s.sys.resetAt = none := by
  simp [State.booting, and_assoc]

theorem exec_resetN {s : State} (hrails : s.sys.railsOk = true) (hat : s.sys.resetAt = none) : exec .resetN s = .next
    { safeDevice s with sys := { s.sys with resetAt := some (s.now + 200000), resetLow := true } } := by
  show execResetN s = _
  simp only [execResetN, hrails, Bool.not_true, Bool.false_eq_true, if_false, beginReset, hat, Option.isSome_none]
  rfl

theorem devTicks_poweredUp (s : State) : (poweredUp s).devTicks = 0 := by
  simp [State.devTicks, poweredUp, State.reset]

theorem label_finishReset (s : State) : (finishReset s).label = s.label := by
  rw [← label_loseSources (fun a => a.source == 1 || a.source == 3) s]
  rfl

theorem resetDue_of_due {s : State} {t : Nat} (hat : s.sys.resetAt = some t) (hdue : t ≤ s.now) : resetDue s = finishReset s := by
  simp only [resetDue, hat, if_pos hdue]

/-- Every loop unlocked, with no core calibrated. -/
def loopsUnlocked (s : State) : State :=
  each (fun k s => s.modStampChan k fun c => { c with locked := false, cald := 0 }) [0, 1, 2] s

theorem stampChan_loopsUnlocked {c : Nat} (h : c < 3) (s : State) :
    ((loopsUnlocked s).stampChan c).locked = false ∧ ((loopsUnlocked s).stampChan c).cald = 0 := by
  have hstep (k : Nat) (u : State) (hu : (u.stampChan c).locked = false ∧ (u.stampChan c).cald = 0) :
      ((u.modStampChan k fun c => { c with locked := false, cald := 0 }).stampChan c).locked = false
      ∧ ((u.modStampChan k fun c => { c with locked := false, cald := 0 }).stampChan c).cald = 0 := by
    by_cases hk : c = k
    · subst hk
      rw [State.stampChan_modStampChan]
      exact ⟨rfl, rfl⟩
    · rwa [State.stampChan_modStampChan_ne _ _ _ _ hk]
  refine each_reaches (P := fun u => (u.stampChan c).locked = false ∧ (u.stampChan c).cald = 0) (b := c) (fun u => ?_) hstep ?_ s
  · rw [State.stampChan_modStampChan]
    exact ⟨rfl, rfl⟩
  · simp only [List.mem_cons, List.not_mem_nil, or_false]
    omega

theorem exec_refclkLoss (s : State) : exec .refclkLoss s =
    .next (tiuUnlock (fun _ => true) (loopsUnlocked { s with sys := { s.sys with refclk := false } })) := rfl

theorem tiu_tiuUnlock_all (s : State) : (tiuUnlock (fun _ => true) s).tiu =
    tmap {} (fun _ e => if e.running then { e with unlockAt := s.now :: e.unlockAt } else e) s.tiu := by
  simp only [tiuUnlock, Bool.true_or, Bool.and_true]

/-- Settles O46: power-up and the end of a reset leave the reset state but for what outlives them; RESET_N, its release and
REFCLK by their conditions. -/
theorem resetsAndSupplies : Obligations.ResetsAndSupplies := by
  unfold Obligations.ResetsAndSupplies
  refine ⟨fun s => ?_, fun s => exec_resetN, fun s t hat hdue => ?_, fun s hlow => ?_, fun s hlow => ?_, fun s => ?_, fun s => ?_,
    booting_iff, fun s => ?_⟩
  · obtain ⟨h0, hne⟩ := isOn_of_reset (s := poweredUp s) rfl
    exact ⟨poweredUp s, rfl, rfl, rfl, rfl, h0, hne, rfl, devTicks_poweredUp s, rfl, rfl, rfl, rfl, rfl, rfl, rfl⟩
  · obtain ⟨h0, hne⟩ := isOn_of_reset (s := finishReset s) rfl
    have hlabel := label_finishReset s
    simp only [State.label, Prod.mk.injEq] at hlabel
    obtain ⟨hsec, htick, hA, hB⟩ := hlabel
    refine ⟨finishReset s, resetDue_of_due hat hdue, rfl, rfl, h0, hne, rfl, ?_, hA, hB, rfl, rfl, rfl, rfl, rfl, rfl, rfl, rfl, rfl⟩
    rw [State.devTicks, State.devTicks, hsec, htick]
  · show execResetNRelease s = _
    simp only [execResetNRelease, hlow, Bool.not_true, Bool.false_eq_true, if_false]
  · show execResetNRelease s = _
    simp only [execResetNRelease, hlow, Bool.not_false, if_true]
  · exact ⟨_, rfl, rfl, fun _ => rfl, rfl⟩
  · exact congrArg Host.Outcome.next (by split <;> rfl)
  · exact ⟨_, exec_refclkLoss s, rfl, fun c hc => stampChan_loopsUnlocked hc _, tiu_tiuUnlock_all _, rfl, rfl, rfl, rfl⟩

/-! ### The identity of the part (R391) -/

section
variable {c : Container} {magic most least : Nat}

/-- Of the checks of a container's head the second alone answers 2, and the first comes before it. -/
theorem headResult_of_part (h : contPart c ≠ identWord) :
    headResult magic most least c = if formatOk magic most c = true then 2 else 1 := by
  cases hf : formatOk magic most c <;> simp [headResult, hf, h]

theorem headResult_ne_two (h : contPart c = identWord) : headResult magic most least c ≠ 2 := by
  unfold headResult
  rw [if_neg (not_not.mpr h)]
  split_ifs <;> decide

end

theorem contResult_of_head {ninth : Bool} {least : Nat} {before : List Container} {c : Container}
    (h : headResult 0x4D43485A 65536 least c ≠ 0) :
    contResult ninth least before c = if ninth = true then 1 else headResult 0x4D43485A 65536 least c := by
  simp only [contResult, if_pos h]

theorem contResult_ne_two {ninth : Bool} {least : Nat} {before : List Container} {c : Container} (h : contPart c = identWord) :
    contResult ninth least before c ≠ 2 := by
  have hhead : headResult 0x4D43485A 65536 least c ≠ 2 := headResult_ne_two h
  simp only [contResult]
  split_ifs
  · decide
  · exact hhead
  · decide
  · decide
  · decide

theorem exec_registerWrite_ident (bytes : Nat) (value : Word) (s : State) : exec (.registerWrite 0 bytes value) s = .next s := by
  have h : writeBar0 0 value s = s := by simp [writeBar0]
  show execRegisterWrite 0 bytes value s = _
  rw [execRegisterWrite, h, ite_self]

theorem bar0_ident (s : State) : s.bar0 0 = identWord := if_pos rfl

/-- The fields of IDENT, the revision under a name: left as it stands, a check of the sum would unfold its numerals. -/
theorem exists_identWord : ∃ r, r = Config.siliconRev.toNat ∧ identWord = 0x1024 + r * 2 ^ 16 + 0x5A * 2 ^ 24 := ⟨_, rfl, rfl⟩

/-- Settles O39: IDENT is one word in every state, and a container's second check compares with it. -/
theorem identityCode : Obligations.IdentityCode := by
  unfold Obligations.IdentityCode
  refine ⟨fun s => ?_, exec_registerWrite_ident, ?_⟩
  · obtain ⟨r, hr, hword⟩ := exists_identWord
    have hlt := Config.siliconRev.isLt
    rw [← hr] at hlt ⊢
    have hbar := (bar0_ident s).trans hword
    generalize s.bar0 0 = w at hbar ⊢
    omega
  intro s ninth least before c
  rw [bar0_ident]
  refine ⟨fun hpart => ?_, fun hres hpart => contResult_ne_two hpart hres⟩
  · have hhead := headResult_of_part (magic := 0x4D43485A) (most := 65536) (least := least) hpart
    rw [contResult_of_head (by rw [hhead]; split_ifs <;> decide), hhead]
    split_ifs <;> simp

/-! ### The sideband's common command codes (R547) -/

theorem length_le (n v : Nat) : (le n v).length = n := by
  induction n generalizing v with
  | zero => rfl
  | succ n ih => exact congrArg (· + 1) (ih _)

/-- The bytes of a number spell it, as far as they reach. -/
theorem unle_le (n v : Nat) : unle (le n v) = v % 256 ^ n := by
  induction n generalizing v with
  | zero => rw [pow_zero, Nat.mod_one]; rfl
  | succ n ih =>
    have hbyte : (BitVec.ofNat 8 v).toNat = v % 256 := BitVec.toNat_ofNat v 8
    rw [le, unle, ih, hbyte, Nat.pow_succ', Nat.mod_mul]

theorem assign_of_none {s : State} (h : s.side.dyn = none) (addr : Nat) :
    assign addr s = { s with side := { s.side with dyn := some (addr % 128) } } := by
  rw [assign, h]
  rfl

theorem assign_of_some {s : State} {a : Nat} (h : s.side.dyn = some a) (addr : Nat) : assign addr s = s := by
  rw [assign, h]
  rfl

/-- Settles O44: ENTDAA and SETDASA are one assignment, which takes place while no address is held. -/
theorem sidebandAddressing : Obligations.SidebandAddressing := by
  unfold Obligations.SidebandAddressing
  refine ⟨fun addr s h => ⟨?_, ?_⟩, fun addr a s h => ⟨?_, ?_⟩, fun addr s => ⟨_, rfl, rfl, ?_⟩, fun s => ⟨?_, rfl, rfl⟩,
    fun s => ⟨_, _, rfl⟩⟩
  · exact congrArg Host.Outcome.next (assign_of_none h addr)
  · exact congrArg Host.Outcome.next (assign_of_none h addr)
  · exact congrArg Host.Outcome.next (assign_of_some h addr)
  · exact congrArg Host.Outcome.next (assign_of_some h addr)
  · exact congrArg Host.Outcome.next (assign_of_none rfl addr)
  · have hpid := Config.i3cPid.isLt
    refine ⟨(le 6 Config.i3cPid.toNat).reverse, by rw [List.length_reverse, length_le], ?_, rfl⟩
    rw [List.reverse_reverse, unle_le]
    exact Nat.mod_eq_of_lt hpid

end Sys2Proof.Machine
end

section
/-! Package memory through BAR2 (R397, R430, R434, R436, R444). -/

namespace Sys2Proof.Machine

/-! ### Bytes after a write -/

/-- A captured range holds the address. -/
def covers (x : Nat) (e : Nat × Nat × Nat) : Bool := decide (e.1 ≤ x) && decide (x < e.2.1)

/-- The seed of the captured range that holds an address. -/
def seedAt (x : Nat) (l : List (Nat × Nat × Nat)) : Option Nat := (l.find? (covers x)).map fun e => e.2.2

theorem byteAt_eq (s : State) (x : Nat) : s.byteAt x = match seedAt x s.mem.captured with
    | some seed => Config.freeByte (seed * 2 ^ 30 + x)
    | none => tget 0 s.mem.bytes x := by
  show (match s.mem.captured.find? (covers x) with
    | some (_, _, seed) => Config.freeByte (seed * 2 ^ 30 + x)
    | none => tget 0 s.mem.bytes x) = _
  unfold seedAt
  cases s.mem.captured.find? (covers x) <;> rfl

theorem seedAt_append (x : Nat) (l l' : List (Nat × Nat × Nat)) : seedAt x (l ++ l') = (seedAt x l).or (seedAt x l') := by
  simp only [seedAt, List.find?_append]
  cases l.find? (covers x) <;> rfl

theorem seedAt_single (x lo hi seed : Nat) : seedAt x [(lo, hi, seed)] = if lo ≤ x ∧ x < hi then some seed else none := by
  by_cases h : lo ≤ x ∧ x < hi
  · simp [seedAt, covers, h]
  · rw [if_neg h, seedAt, List.find?_cons_of_neg (by simpa [covers] using h)]
    rfl

/-- Of a captured range that the cut meets, the parts before and behind it stay. -/
theorem seedAt_cutRange_single (a b x lo hi seed : Nat) :
    seedAt x (cutRange a b [(lo, hi, seed)]) = if a ≤ x ∧ x < b then none else seedAt x [(lo, hi, seed)] := by
  have hbefore : seedAt x (if lo < a then [(lo, a, seed)] else []) = if lo ≤ x ∧ x < a then some seed else none := by
    by_cases h : lo < a
    · rw [if_pos h, seedAt_single]
    · rw [if_neg h, if_neg (by omega)]
      rfl
  have hbehind : seedAt x (if b < hi then [(b, hi, seed)] else []) = if b ≤ x ∧ x < hi then some seed else none := by
    by_cases h : b < hi
    · rw [if_pos h, seedAt_single]
    · rw [if_neg h, if_neg (by omega)]
      rfl
  rw [cutRange, List.flatMap_cons, List.flatMap_nil, List.append_nil, seedAt_single]
  by_cases hmeet : hi ≤ a ∨ b ≤ lo
  · rw [if_pos (by simpa using hmeet), seedAt_single]
    split_ifs
    · omega
    · rfl
    · rfl
    · rfl
  · rw [if_neg (by simpa using hmeet), seedAt_append, hbefore, hbehind]
    grind

/-- Taking a range out leaves the seeds of the addresses outside it, and none inside. -/
theorem seedAt_cutRange (a b x : Nat) (l : List (Nat × Nat × Nat)) :
    seedAt x (cutRange a b l) = if a ≤ x ∧ x < b then none else seedAt x l := by
  induction l with
  | nil => exact (ite_self _).symm
  | cons e l ih =>
    have hsplit : cutRange a b (e :: l) = cutRange a b [e] ++ cutRange a b l := by
      simp only [cutRange, List.flatMap_cons, List.flatMap_nil, List.append_nil]
    rw [hsplit, seedAt_append, seedAt_cutRange_single, ih]
    split
    · rfl
    · exact (seedAt_append x [e] l).symm

section
variable {a : Nat} {bs : List Byte} {s : State}

theorem byteAt_putBytes_in {k : Nat} (h : k < bs.length) : (putBytes a bs s).byteAt (a + k) = bs[k] := by
  have hseed : seedAt (a + k) (putBytes a bs s).mem.captured = none :=
    (seedAt_cutRange a (a + bs.length) (a + k) s.mem.captured).trans (if_pos (by omega))
  rw [byteAt_eq, hseed]
  exact tget_tsetRun_add 0 bs s.mem.bytes a h

theorem byteAt_putBytes_out {x : Nat} (h : x < a ∨ a + bs.length ≤ x) : (putBytes a bs s).byteAt x = s.byteAt x := by
  have hseed : seedAt x (putBytes a bs s).mem.captured = seedAt x s.mem.captured :=
    (seedAt_cutRange a (a + bs.length) x s.mem.captured).trans (if_neg (by omega))
  rw [byteAt_eq, byteAt_eq, hseed]
  cases seedAt x s.mem.captured with
  | some _ => rfl
  | none => exact tget_tsetRun_ne 0 bs s.mem.bytes a x h

end

theorem getElem?_bytesAt (s : State) {k n : Nat} (a : Nat) (h : k < n) : (s.bytesAt a n)[k]? = some (s.byteAt (a + k)) := by
  induction n generalizing a k with
  | zero => cases h
  | succ n ih =>
    cases k with
    | zero => rfl
    | succ k =>
      rw [State.bytesAt, List.getElem?_cons_succ, ih (a + 1) (Nat.lt_of_succ_lt_succ h), Nat.add_right_comm]
      rfl

/-! ### Writing good granules -/

/-- The part of a host write of `bs` to `a` that falls into granule `g`, and its address. -/
def granulePart (g a : Nat) (bs : List Byte) : List Byte :=
  (bs.drop (max a (g * 32) - a)).take (min (a + bs.length) ((g + 1) * 32) - max a (g * 32))

def granulePut (a : Nat) (bs : List Byte) (g : Nat) (s : State) : State := putBytes (max a (g * 32)) (granulePart g a bs) s

theorem writeGranule_of_good {g : Nat} {s : State} (h : g ∉ s.mem.poison) (a : Nat) (bs : List Byte) :
    writeGranule g a bs s = granulePut a bs g s := by
  have hbad : s.bad g = false := by simpa [State.bad] using h
  have hpoison : s.mem.poison.filter (· != g) = s.mem.poison :=
    List.filter_eq_self.mpr fun x hx => bne_iff_ne.mpr fun hxg => h (hxg ▸ hx)
  simp only [writeGranule, hbad, Bool.false_and, Bool.false_eq_true, if_false, hpoison]
  rfl

theorem each_writeGranule_of_good (a : Nat) (bs : List Byte) : ∀ (l : List Nat) (s : State), (∀ g ∈ l, g ∉ s.mem.poison) →
    each (fun g s => writeGranule g a bs s) l s = each (granulePut a bs) l s
  | [], _, _ => rfl
  | g :: l, s, h => by
    rw [each, writeGranule_of_good (h g List.mem_cons_self)]
    exact each_writeGranule_of_good a bs l _ fun x hx => h x (List.mem_cons_of_mem _ hx)

theorem length_granulePart (g a : Nat) (bs : List Byte) :
    (granulePart g a bs).length = min (a + bs.length) ((g + 1) * 32) - max a (g * 32) := by
  rw [granulePart, List.length_take, List.length_drop]
  omega

section
variable {a : Nat} {bs : List Byte} {g : Nat}

theorem byteAt_granulePut_out {x : Nat} (h : x < a ∨ a + bs.length ≤ x ∨ x / 32 ≠ g) (s : State) :
    (granulePut a bs g s).byteAt x = s.byteAt x := by
  refine byteAt_putBytes_out ?_
  rw [length_granulePart]
  omega

theorem byteAt_granulePut_in {k : Nat} (hk : k < bs.length) (hg : (a + k) / 32 = g) (s : State) :
    (granulePut a bs g s).byteAt (a + k) = bs[k] := by
  have hx : a + k = max a (g * 32) + (a + k - max a (g * 32)) := by omega
  have hlt : a + k - max a (g * 32) < (granulePart g a bs).length := by
    rw [length_granulePart]
    omega
  have hidx : max a (g * 32) - a + (a + k - max a (g * 32)) = k := by omega
  rw [hx, granulePut, byteAt_putBytes_in hlt]
  simp only [granulePart, List.getElem_take, List.getElem_drop, hidx]

end

theorem mem_granules {a n g : Nat} : g ∈ granules a n ↔ 0 < n ∧ a / 32 ≤ g ∧ g ≤ (a + n - 1) / 32 := by
  unfold granules
  split
  · next h => simp [h]
  · simp only [List.mem_map, List.mem_range]
    constructor
    · rintro ⟨i, hi, rfl⟩
      omega
    · intro h
      exact ⟨g - a / 32, by omega, by omega⟩

theorem not_mem_poison_of_good {s : State} {a n : Nat} (h : s.poisoned a n = false) {g : Nat} (hg : g ∈ granules a n) :
    g ∉ s.mem.poison := by
  intro hmem
  obtain ⟨hn, hlo, hhi⟩ := mem_granules.mp hg
  have hnil : s.badIn a n = [] := by simpa [State.poisoned] using h
  have := List.filter_eq_nil_iff.mp hnil g hmem
  simp only [Bool.and_eq_true, decide_eq_true_eq] at this
  omega

theorem each_of_fixed {α : Type} {f : α → State → State} {s : State} : ∀ {l : List α}, (∀ x ∈ l, f x s = s) → each f l s = s
  | [], _ => rfl
  | x :: l, h => by
    rw [each, h x List.mem_cons_self]
    exact each_of_fixed fun y hy => h y (List.mem_cons_of_mem _ hy)

/-- A host write into good granules stores its bytes and leaves every other byte, and all else. -/
theorem each_granulePut_spec (a : Nat) (bs : List Byte) (s : State) :
    (∀ k, k < bs.length → some ((each (granulePut a bs) (granules a bs.length) s).byteAt (a + k)) = bs[k]?)
    ∧ (∀ x, x < a ∨ a + bs.length ≤ x → (each (granulePut a bs) (granules a bs.length) s).byteAt x = s.byteAt x)
    ∧ (each (granulePut a bs) (granules a bs.length) s).mem.heldWrites = s.mem.heldWrites
    ∧ ({ each (granulePut a bs) (granules a bs.length) s with mem := s.mem } : State) = s := by
  refine ⟨fun k hk => ?_, fun x hx => ?_, ?_, ?_⟩
  · rw [List.getElem?_eq_getElem hk]
    refine congrArg some (each_reaches (P := fun u => u.byteAt (a + k) = bs[k]) (b := (a + k) / 32) (byteAt_granulePut_in hk rfl)
      (fun g u hu => ?_) (mem_granules.mpr (by omega)) s)
    by_cases hg : (a + k) / 32 = g
    · exact byteAt_granulePut_in hk hg u
    · exact (byteAt_granulePut_out (.inr (.inr hg)) u).trans hu
  · exact each_keeps (fun u => u.byteAt x) (fun g u => byteAt_granulePut_out (by omega) u) _ s
  · exact each_keeps (f := granulePut a bs) (fun u => u.mem.heldWrites) (fun _ _ => rfl) _ s
  · exact each_keeps (f := granulePut a bs) (fun u : State => { u with mem := s.mem }) (fun _ _ => rfl) _ s

/-! ### The rows -/

theorem hostReach_of {s : State} (hon : s.isOn 2 = true) (hup : s.host.linkUp = true) : s.hostReach = true := by
  rw [State.hostReach, hon, hup]
  rfl

theorem inRegion_space {a n : Nat} (h : a + n ≤ 2 ^ 30) : inRegion 0 (2 ^ 30) a n = true := by
  simp [inRegion]
  omega

section
variable {s : State} {a n : Nat} (hon : s.isOn 2 = true) (hup : s.host.linkUp = true) (hn : a + n ≤ 2 ^ 30)
include hon hup hn

theorem exec_bar2Read : exec (.bar2Read a n) s = .next (
    if s.isOn 4 = false then { s with out := { s.out with bar2 := List.replicate n 0xFF, bar2Poison := false } }
    else if s.poisoned a n = true then
      { noteUe (s.firstBad a n) s with out := { (noteUe (s.firstBad a n) s).out with
          bar2 := (noteUe (s.firstBad a n) s).bytesAt a n, bar2Poison := true } }
    else { s with out := { s.out with bar2 := s.bytesAt a n, bar2Poison := false } }) := by
  show execBar2Read a n s = _
  simp only [execBar2Read, hostReach_of hon hup, inRegion_space hn, Bool.not_true, Bool.or_self, Bool.false_eq_true, if_false,
    Bool.not_eq_true']

end

/-- An uncorrectable error counts, sets MEM, and touches no byte (R444). -/
theorem noteUe_spec (addr : Nat) (s : State) : (noteUe addr s).host.faultsum.getLsbD 9 = true
    ∧ (noteUe addr s).mem = { s.mem with uncorrectable := s.mem.uncorrectable.bump, lastUe := addr, ueSince := true } := by
  obtain ⟨x, hx, hbit, -⟩ := setSum_eq (k := 9) (by decide)
    { s with mem := { s.mem with uncorrectable := s.mem.uncorrectable.bump, lastUe := addr, ueSince := true } }
  rw [noteUe, hx]
  exact ⟨hbit, rfl⟩

theorem exec_bar2Write_of_good {s : State} {a : Nat} {data : List Byte} (hon : s.isOn 2 = true) (hup : s.host.linkUp = true)
    (hmem : s.isOn 4 = true) (hn : a + data.length ≤ 2 ^ 30)
    (hfree : ∀ k, k < data.length → inRing (a + k) 1 = false ∧ s.inStreamed (a + k) = false)
    (hgood : s.poisoned a data.length = false) :
    exec (.bar2Write a data) s = .next (each (granulePut a data) (granules a data.length) s) := by
  have hheld : ((List.range data.length).any fun k => s.inStreamed (a + k)) = false :=
    List.any_eq_false.mpr fun k hk => by rw [(hfree k (List.mem_range.mp hk)).2]; decide
  have hall : ((List.range data.length).all fun k => s.writable (a + k)) = true :=
    List.all_eq_true.mpr fun k hk => by
      obtain ⟨hring, hstream⟩ := hfree k (List.mem_range.mp hk)
      rw [State.writable, hring, hstream]
      rfl
  show execBar2Write a data s = _
  simp only [execBar2Write, hostReach_of hon hup, hmem, inRegion_space hn, hheld, hall, Bool.not_true, Bool.or_self,
    Bool.false_eq_true, if_false, if_true]
  rw [each_writeGranule_of_good a data _ s fun g hg => not_mem_poison_of_good hgood hg]

theorem exec_bar2Write_of_memOff {s : State} (h : s.isOn 4 = false) (a : Nat) (data : List Byte) :
    exec (.bar2Write a data) s = .next s := by
  show execBar2Write a data s = _
  simp only [execBar2Write, h, Bool.not_false, Bool.or_true, Bool.true_or, if_true]

theorem exec_bar2Write_of_ring {s : State} {a : Nat} {data : List Byte}
    (h : ∀ k, k < data.length → inRing (a + k) 1 = true ∧ s.inStreamed (a + k) = false) :
    exec (.bar2Write a data) s = .next s := by
  have hheld : ((List.range data.length).any fun k => s.inStreamed (a + k)) = false :=
    List.any_eq_false.mpr fun k hk => by rw [(h k (List.mem_range.mp hk)).2]; decide
  have hno : ∀ k ∈ List.range data.length, s.writable (a + k) = false := fun k hk => by
    rw [State.writable, (h k (List.mem_range.mp hk)).1]
    rfl
  show execBar2Write a data s = _
  simp only [execBar2Write, hheld, Bool.false_eq_true, if_false]
  refine congrArg Host.Outcome.next ((ite_congr rfl (fun _ => rfl) fun _ => ?_).trans (ite_self s))
  cases data with
  | nil => rfl
  | cons b data =>
    have hsome : ¬((List.range (b :: data).length).all fun k => s.writable (a + k)) = true := fun hall => by
      have := List.all_eq_true.mp hall 0 (List.mem_range.mpr (Nat.succ_pos _))
      rw [hno 0 (List.mem_range.mpr (Nat.succ_pos _))] at this
      cases this
    rw [if_neg hsome]
    exact each_of_fixed fun k hk => if_neg (by rw [hno k hk]; decide)

/-- Settles O42: reads by the power of MEM and the granules; writes granule by granule, each byte in its own. -/
theorem packageMemoryThroughBar2 : Obligations.PackageMemoryThroughBar2 := by
  unfold Obligations.PackageMemoryThroughBar2
  refine ⟨fun s a n hon hup hn => ⟨fun hoff => ?_, fun hmem hgood => ?_, fun hmem hbad => ?_⟩,
    fun s a n k hk => getElem?_bytesAt s a hk, fun s a data hon hup hmem hn hfree hgood => ?_,
    fun s a data hoff => exec_bar2Write_of_memOff hoff a data, fun s a data => exec_bar2Write_of_ring⟩
  · rw [exec_bar2Read hon hup hn, if_pos hoff]
  · rw [exec_bar2Read hon hup hn, if_neg (by simp [hmem]), if_neg (by simp [hgood])]
  · obtain ⟨hbit, hnoted⟩ := noteUe_spec (s.firstBad a n) s
    rw [exec_bar2Read hon hup hn, if_neg (by simp [hmem]), if_pos hbad]
    refine ⟨_, rfl, rfl, hbit, ?_, ?_⟩
    · exact (congrArg PkgMem.uncorrectable hnoted :)
    · exact (congrArg PkgMem.bytes hnoted :)
  · exact ⟨_, exec_bar2Write_of_good hon hup hmem hn hfree hgood, each_granulePut_spec a data s⟩

end Sys2Proof.Machine
end

section
/-! Writes of the host's registers (R364, R390, R394–R400). -/

namespace Sys2Proof.Machine

/-! ### The fault summary (R394, R396) -/

/-- The bits of FAULTSUM whose latch is set. -/
theorem testBit_latchBits (s : State) (k : Nat) : s.latchBits.testBit k =
    (k == 0 && decide (s.devFault.codes ≠ []) || k == 1 && s.faults.any (fun e => decide (e.2.codes ≠ []))
      || k == 6 && s.chans.any (fun e => e.2.stormFlag || e.2.ovfFlag) || k == 8 && s.time.holdLatch
      || k == 10 && s.zch.any (fun e => e.2.unownedLatch) || k == 12 && s.devFault.codes.contains 11) := by
  unfold State.latchBits
  generalize decide (s.devFault.codes ≠ []) = b0
  generalize (s.faults.any fun e => decide (e.2.codes ≠ [])) = b1
  generalize (s.chans.any fun e => e.2.stormFlag || e.2.ovfFlag) = b6
  generalize s.time.holdLatch = b8
  generalize (s.zch.any fun e => e.2.unownedLatch) = b10
  generalize s.devFault.codes.contains 11 = b12
  rcases Nat.lt_or_ge k 13 with hk | hk
  · interval_cases k <;> revert b0 b1 b6 b8 b10 b12 <;> decide
  · have hlt : bit b0 0 + bit b1 1 + bit b6 6 + bit b8 8 + bit b10 10 + bit b12 12 < 2 ^ 13 := by
      revert b0 b1 b6 b8 b10 b12
      decide
    rw [Nat.testBit_lt_two_pow (lt_of_lt_of_le hlt (Nat.pow_le_pow_right (by decide) hk))]
    simp
    omega

/-- A summary bit that is set joins those that are. -/
theorem getLsbD_setSum {j : Nat} (hj : j < 32) (s : State) (k : Nat) :
    (setSum j s).host.faultsum.getLsbD k = (s.host.faultsum.getLsbD k || decide (k = j)) := by
  have hbit : (BitVec.ofNat 32 (2 ^ j)).getLsbD k = decide (k = j) := by
    rw [BitVec.getLsbD_ofNat, Nat.testBit_two_pow]
    by_cases h : k = j
    · subst h
      simp [hj]
    · simp [h, Ne.symm h]
  by_cases hset : s.host.faultsum.getLsbD j = true
  · rw [setSum, if_pos hset]
    by_cases h : k = j
    · subst h
      simp [hset]
    · simp [h]
  · obtain ⟨x, hx, hsum⟩ := raiseFault_eq
      { s with host := { s.host with faultsum := s.host.faultsum ||| BitVec.ofNat 32 (2 ^ j) } }
    rw [setSum, if_neg hset, hx, hsum, BitVec.getLsbD_or, hbit]

/-- A bit of the summary whose latch is set sets. -/
def sumLatch (j : Nat) (s : State) : State := if s.latchBits.testBit j then setSum j s else s

theorem sumLatch_eq {j : Nat} (hj : j < 32) (s : State) : ∃ x : HostIf, sumLatch j s = { s with host := x }
    ∧ ∀ k, x.faultsum.getLsbD k = (s.host.faultsum.getLsbD k || decide (k = j) && s.latchBits.testBit j) := by
  unfold sumLatch
  by_cases h : s.latchBits.testBit j = true
  · obtain ⟨x, hx, -⟩ := setSum_eq hj s
    rw [if_pos h]
    refine ⟨x, hx, fun k => ?_⟩
    rw [h, Bool.and_true, ← getLsbD_setSum hj, hx]
  · rw [if_neg h]
    exact ⟨s.host, rfl, fun k => by simp [h]⟩

theorem each_sumLatch_eq : ∀ (l : List Nat) (s : State), (∀ j ∈ l, j < 32) → ∃ x : HostIf, each sumLatch l s = { s with host := x }
    ∧ ∀ k, x.faultsum.getLsbD k = (s.host.faultsum.getLsbD k || decide (k ∈ l) && s.latchBits.testBit k)
  | [], s, _ => ⟨s.host, rfl, fun k => by simp⟩
  | j :: l, s, hl => by
    obtain ⟨x, hx, hbits⟩ := sumLatch_eq (hl j List.mem_cons_self) s
    obtain ⟨y, hy, hrest⟩ := each_sumLatch_eq l (sumLatch j s) fun i hi => hl i (List.mem_cons_of_mem _ hi)
    have hlatch : (sumLatch j s).latchBits = s.latchBits := by rw [hx]; rfl
    rw [hx] at hy
    refine ⟨y, by rw [each, hx, hy], fun k => ?_⟩
    rw [hrest k, hlatch, hx]
    refine (congrArg (· || _) (hbits k)).trans ?_
    have hmem : decide (k ∈ j :: l) = (decide (k = j) || decide (k ∈ l)) := by simp
    by_cases hk : k = j
    · subst hk
      rw [hmem, decide_eq_true rfl, Bool.true_or, Bool.or_assoc]
      cases s.latchBits.testBit k
      · rw [Bool.and_false, Bool.and_false, Bool.or_false]
      · rfl
    · rw [hmem, decide_eq_false hk, Bool.false_or, Bool.false_and, Bool.or_false]

theorem writeFaultsum_spec (v : Word) (s : State) : (writeFaultsum v s).device = s.device ∧ ∀ k, k < 32 →
    (writeFaultsum v s).host.faultsum.getLsbD k = (s.host.faultsum.getLsbD k && !v.getLsbD k || s.latchBits.testBit k) := by
  obtain ⟨x, hx, hbits⟩ := each_sumLatch_eq [0, 1, 6, 8, 10, 12] { s with host := { s.host with faultsum := s.host.faultsum &&& ~~~v } }
    (by decide)
  have heq : writeFaultsum v s = { s with host := x } := hx
  refine ⟨by rw [heq, device_host], fun k hk => ?_⟩
  have hand : (s.host.faultsum &&& ~~~v).getLsbD k = (s.host.faultsum.getLsbD k && !v.getLsbD k) := by
    rw [BitVec.getLsbD_and, BitVec.getLsbD_not, decide_eq_true hk, Bool.true_and]
  have hlatch : (decide (k ∈ [0, 1, 6, 8, 10, 12]) && s.latchBits.testBit k) = s.latchBits.testBit k := by
    by_cases hmem : k ∈ [0, 1, 6, 8, 10, 12]
    · rw [decide_eq_true hmem, Bool.true_and]
    · rw [decide_eq_false hmem, testBit_latchBits]
      simp only [List.mem_cons, List.not_mem_nil, or_false, not_or] at hmem
      simp [hmem]
  rw [heq]
  exact (hbits k).trans (congrArg₂ (· || ·) hand hlatch)

/-! ### Doorbells and control of queues (R398, R400) -/

theorem exec_hostRow {s : State} {t u : State} (h : s.hostReach = true) (ht : t = u) :
    (Host.Outcome.next (if s.hostReach then t else s) : Host.Outcome State Fault Refusal) = .next u := by
  rw [if_pos h, ht]

section
variable {q n : Nat} {s : State}

theorem writeSqdb_of_bad (opens : Bool)
    (h : (s.sq q).en = false ∨ s.depthNow < (n + 65536 - (s.sq q).completed) % 65536 ∨ q = 0 ∧ s.host.openPending = true) :
    writeSqdb q n opens s = setSum 13 (s.setSq q { s.sq q with baddb := true }) := by
  have hc : (!(s.sq q).en || decide (s.depthNow < (n + 65536 - (s.sq q).completed) % 65536)
      || (decide (q = 0) && s.host.openPending)) = true := by simpa [or_assoc] using h
  simp only [writeSqdb, hc, if_true]

theorem writeSqdb_of_rule (opens : Bool)
    (h : ¬((s.sq q).en = false ∨ s.depthNow < (n + 65536 - (s.sq q).completed) % 65536 ∨ q = 0 ∧ s.host.openPending = true)) :
    writeSqdb q n opens s =
      let t := s.setSq q { s.sq q with
        submitted := n, bells := (s.sq q).bells ++ [(n, s.host.sqs.map fun e => (e.1, e.2.submitted))] }
      if opens && decide (q = 0) then { t with host := { t.host with openPending := true } } else t := by
  have hc : (!(s.sq q).en || decide (s.depthNow < (n + 65536 - (s.sq q).completed) % 65536)
      || (decide (q = 0) && s.host.openPending)) = false := by
    rw [← Bool.not_eq_true]
    simpa [or_assoc] using h
  simp only [writeSqdb, hc, Bool.false_eq_true, if_false]

theorem writeSqdb_spec (opens : Bool)
    (h : ¬((s.sq q).en = false ∨ s.depthNow < (n + 65536 - (s.sq q).completed) % 65536 ∨ q = 0 ∧ s.host.openPending = true)) :
    (writeSqdb q n opens s).sq q = { s.sq q with
        submitted := n, bells := (s.sq q).bells ++ [(n, s.host.sqs.map fun e => (e.1, e.2.submitted))] }
    ∧ (∀ j, j ≠ q → (writeSqdb q n opens s).sq j = s.sq j) ∧ (writeSqdb q n opens s).device = s.device
    ∧ (writeSqdb q n opens s).host.openPending = (s.host.openPending || opens && decide (q = 0)) := by
  rw [writeSqdb_of_rule opens h]
  dsimp only
  split
  · next ho =>
    rw [ho, Bool.or_true]
    exact ⟨State.sq_setSq _ _ _, fun j hj => State.sq_setSq_ne _ _ _ _ hj, rfl, rfl⟩
  · next ho =>
    rw [Bool.not_eq_true] at ho
    rw [ho, Bool.or_false]
    exact ⟨State.sq_setSq _ _ _, fun j hj => State.sq_setSq_ne _ _ _ _ hj, rfl, rfl⟩

theorem writeCqdb_of_bad
    (h : (s.cq q).en = false ∨ ((s.cq q).written + 65536 - (s.cq q).consumed) % 65536 < (n + 65536 - (s.cq q).consumed) % 65536) :
    writeCqdb q n s = setSum 13 (s.setSq q { s.sq q with baddb := true }) := by
  have hc : (!(s.cq q).en || decide (((s.cq q).written + 65536 - (s.cq q).consumed) % 65536
      < (n + 65536 - (s.cq q).consumed) % 65536)) = true := by simpa using h
  simp only [writeCqdb, hc, if_true, State.modSq]

theorem writeCqdb_of_rule
    (h : ¬((s.cq q).en = false ∨ ((s.cq q).written + 65536 - (s.cq q).consumed) % 65536 < (n + 65536 - (s.cq q).consumed) % 65536)) :
    writeCqdb q n s = s.setCq q { s.cq q with
      consumed := n, slots := (s.cq q).slots.drop ((n + 65536 - (s.cq q).consumed) % 65536) } := by
  have hc : (!(s.cq q).en || decide (((s.cq q).written + 65536 - (s.cq q).consumed) % 65536
      < (n + 65536 - (s.cq q).consumed) % 65536)) = false := by
    rw [← Bool.not_eq_true]
    simpa using h
  simp only [writeCqdb, hc, Bool.false_eq_true, if_false]

theorem writeSqctl_eq (v : Word) : writeSqctl q v s = s.setSq q { s.sq q with
    cq := if (s.sq q).en then (s.sq q).cq else v.toNat / 2 % 64
    en := v.getLsbD 0 || (s.sq q).en && decide ((s.sq q).submitted ≠ (s.sq q).completed)
    baddb := (s.sq q).baddb && !v.getLsbD 17 } := by
  have hen : (if v.getLsbD 0 then true else if decide ((s.sq q).submitted = (s.sq q).completed) then false else (s.sq q).en)
      = (v.getLsbD 0 || (s.sq q).en && decide ((s.sq q).submitted ≠ (s.sq q).completed)) := by
    by_cases hc : (s.sq q).submitted = (s.sq q).completed <;> cases v.getLsbD 0 <;> simp [hc]
  rw [← hen]
  rfl

theorem writeBase_sq_lo (v : Word) : writeBase true false q v s = s.setSq q { s.sq q with
    baseLo := if (s.sq q).en then (s.sq q).baseLo else v.toNat / 4096 * 4096 } := by
  simp only [writeBase, State.modSq, if_true, Bool.false_eq_true, if_false]
  exact congrArg (s.setSq q) (by split <;> rfl)

theorem writeBase_sq_hi (v : Word) : writeBase true true q v s = s.setSq q { s.sq q with
    baseHi := if (s.sq q).en then (s.sq q).baseHi else v.toNat } := by
  simp only [writeBase, State.modSq, if_true]
  exact congrArg (s.setSq q) (by split <;> rfl)

end

/-! ### The MSI-X table (R396) -/

/-- What a word of the MSI-X table keeps of a written value. -/
def msixKept (k : Nat) (v : Word) : Word := if k % 4 = 0 then v &&& ~~~3#32 else if k % 4 = 3 then v &&& 1#32 else v

theorem msixWord_raiseVec (n k : Nat) (s : State) : (raiseVec n s).msixWord k = s.msixWord k := by
  obtain ⟨a, b, h⟩ := raiseVec_eq_vectors n s
  rw [h]
  rfl

/-- A key of another default reads past a write elsewhere. -/
theorem tget_tset_ne_default {α : Type} [DecidableEq α] (d d' : α) (m : Tab α) (k j : Nat) (v : α) (h : j ≠ k) :
    tget d (tset d' m k v) j = tget d m j := by
  unfold tset
  split
  · exact tget_tdel_ne d m k j h
  · exact tget_tins_ne d m k j v h

theorem writeMsix_spec (k : Nat) (v : Word) (s : State) : (writeMsix k v s).device = s.device
    ∧ (writeMsix k v s).msixWord k = msixKept k v ∧ ∀ j, j ≠ k → (writeMsix k v s).msixWord j = s.msixWord j := by
  have hself (x : HostIf) (hx : x.msixTable = tset (msixDefault k) s.host.msixTable k (msixKept k v)) :
      ({ s with host := x } : State).msixWord k = msixKept k v := by
    rw [State.msixWord, hx, tget_tset_self]
  have hother (x : HostIf) (hx : x.msixTable = tset (msixDefault k) s.host.msixTable k (msixKept k v)) (j : Nat) (hj : j ≠ k) :
      ({ s with host := x } : State).msixWord j = s.msixWord j := by
    rw [State.msixWord, hx, tget_tset_ne_default _ _ _ _ _ _ hj]
    rfl
  unfold writeMsix
  dsimp only
  rw [← msixKept]
  split
  · simp only [msixWord_raiseVec, device_raiseVec]
    exact ⟨rfl, hself _ rfl, hother _ rfl⟩
  · exact ⟨rfl, hself _ rfl, hother _ rfl⟩

/-! ### Offsets of BAR0 (R390) -/

section
variable {s : State} (v : Word)

theorem writeBar0_of_unlisted {o : Nat} (h : o ∈ [0, 4, 8, 0x10, 0x9000, 0x9004] ∨ 0x20 ≤ o ∧ o < 0x1000 ∨ 0x1400 ≤ o ∧ o < 0x2000
    ∨ 0x2400 ≤ o ∧ o < 0x3000 ∨ 0x3200 ≤ o ∧ o < 0x8000 ∨ 0x8400 ≤ o) : writeBar0 o v s = s := by
  simp only [List.mem_cons, List.not_mem_nil, or_false] at h
  unfold writeBar0
  rw [if_neg (by omega), if_neg (by omega), if_neg (by omega), if_neg (by omega), if_neg (by simp; omega), if_neg (by simp; omega),
    if_neg (by simp; omega), if_neg (by simp; omega)]

section
variable {o : Nat}

theorem writeBar0_of_sq (hge : 0x1000 ≤ o) (hlt : o < 0x1400) : writeBar0 o v s =
    if o % 16 = 0 then writeBase true false ((o - 0x1000) / 16) v s else if o % 16 = 4 then writeBase true true ((o - 0x1000) / 16) v s
    else if o % 16 = 8 then writeSqctl ((o - 0x1000) / 16) v s else s := by
  unfold writeBar0
  rw [if_neg (by omega), if_neg (by omega), if_neg (by omega), if_neg (by omega), if_pos (by simp; omega)]

theorem writeBar0_of_cq (hge : 0x2000 ≤ o) (hlt : o < 0x2400) : writeBar0 o v s =
    if o % 16 = 0 then writeBase false false ((o - 0x2000) / 16) v s else if o % 16 = 4 then writeBase false true ((o - 0x2000) / 16) v s
    else if o % 16 = 8 then writeCqctl ((o - 0x2000) / 16) v s else s := by
  unfold writeBar0
  rw [if_neg (by omega), if_neg (by omega), if_neg (by omega), if_neg (by omega), if_neg (by simp; omega), if_pos (by simp; omega)]

theorem writeBar0_of_doorbell (hge : 0x3000 ≤ o) (hlt : o < 0x3200) : writeBar0 o v s =
    if o % 8 = 0 then writeSqdb ((o - 0x3000) / 8) (v.toNat % 65536) false s
    else writeCqdb ((o - 0x3000) / 8) (v.toNat % 65536) s := by
  unfold writeBar0
  rw [if_neg (by omega), if_neg (by omega), if_neg (by omega), if_neg (by omega), if_neg (by simp; omega), if_neg (by simp; omega),
    if_pos (by simp; omega)]

theorem writeBar0_of_msix (hge : 0x8000 ≤ o) (hlt : o < 0x8400) : writeBar0 o v s = writeMsix ((o - 0x8000) / 4) v s := by
  unfold writeBar0
  rw [if_neg (by omega), if_neg (by omega), if_neg (by omega), if_neg (by omega), if_neg (by simp; omega), if_neg (by simp; omega),
    if_neg (by simp; omega), if_pos (by simp; omega)]

end

theorem exec_registerWrite_of_reach {o : Nat} (h : s.hostReach = true) (ho : o % 4 = 0) :
    exec (.registerWrite o 4 v) s = .next (writeBar0 o v s) := by
  show execRegisterWrite o 4 v s = _
  simp only [execRegisterWrite, h, ho, decide_true, Bool.and_self, if_true]

theorem exec_registerWrite_of_other {o bytes : Nat} (h : s.hostReach = false ∨ bytes ≠ 4 ∨ o % 4 ≠ 0) :
    exec (.registerWrite o bytes v) s = .next s := by
  have hc : (s.hostReach && decide (bytes = 4) && decide (o % 4 = 0)) = false := by
    rcases h with h | h | h <;> simp [h]
  show execRegisterWrite o bytes v s = _
  simp only [execRegisterWrite, hc, Bool.false_eq_true, if_false]

end

theorem hostReach_eq_false {s : State} (h : s.isOn 2 = false ∨ s.host.linkUp = false) : s.hostReach = false := by
  rcases h with h | h <;> simp [State.hostReach, h]

theorem exec_hbDevAdvance (s : State) : exec .hbDevAdvance s = .next (
    if s.isOn 1 = true ∧ 4 ≤ s.boot.step ∧ s.boot.step ≤ 7 ∧ s.host.hbDevAt + 20000 * 1000 ≤ s.now then
      { s with host := { s.host with hbDev := (s.host.hbDev + 1) % 65536, hbDevAt := s.now } } else s) := by
  refine congrArg Host.Outcome.next (if_congr ?_ rfl rfl)
  simp only [Bool.and_eq_true, decide_eq_true_eq, and_assoc]
  rfl

/-- A write to the words of a queue, each where the register map has it. -/
theorem exec_queueWords {s : State} (hr : s.hostReach = true) (q : Fin 64) (v : Word) :
    exec (.registerWrite (0x1008 + 16 * q.val) 4 v) s = .next (writeSqctl q.val v s)
    ∧ exec (.registerWrite (0x3000 + 8 * q.val) 4 v) s = .next (writeSqdb q.val (v.toNat % 65536) false s)
    ∧ exec (.registerWrite (0x3004 + 8 * q.val) 4 v) s = .next (writeCqdb q.val (v.toNat % 65536) s)
    ∧ exec (.registerWrite (0x1000 + 16 * q.val) 4 v) s = .next (writeBase true false q.val v s)
    ∧ exec (.registerWrite (0x1004 + 16 * q.val) 4 v) s = .next (writeBase true true q.val v s)
    ∧ exec (.registerWrite (0x2008 + 16 * q.val) 4 v) s = .next (writeCqctl q.val v s) := by
  have hq := q.isLt
  refine ⟨?_, ?_, ?_, ?_, ?_, ?_⟩
  · rw [exec_registerWrite_of_reach v hr (by omega), writeBar0_of_sq v (by omega) (by omega), if_neg (by omega), if_neg (by omega),
      if_pos (by omega), show (0x1008 + 16 * q.val - 0x1000) / 16 = q.val by omega]
  · rw [exec_registerWrite_of_reach v hr (by omega), writeBar0_of_doorbell v (by omega) (by omega), if_pos (by omega),
      show (0x3000 + 8 * q.val - 0x3000) / 8 = q.val by omega]
  · rw [exec_registerWrite_of_reach v hr (by omega), writeBar0_of_doorbell v (by omega) (by omega), if_neg (by omega),
      show (0x3004 + 8 * q.val - 0x3000) / 8 = q.val by omega]
  · rw [exec_registerWrite_of_reach v hr (by omega), writeBar0_of_sq v (by omega) (by omega), if_pos (by omega),
      show (0x1000 + 16 * q.val - 0x1000) / 16 = q.val by omega]
  · rw [exec_registerWrite_of_reach v hr (by omega), writeBar0_of_sq v (by omega) (by omega), if_neg (by omega), if_pos (by omega),
      show (0x1004 + 16 * q.val - 0x1000) / 16 = q.val by omega]
  · rw [exec_registerWrite_of_reach v hr (by omega), writeBar0_of_cq v (by omega) (by omega), if_neg (by omega), if_neg (by omega),
      if_pos (by omega), show (0x2008 + 16 * q.val - 0x2000) / 16 = q.val by omega]

section
variable {s : State} (hr : s.hostReach = true)
include hr

theorem exec_sqdb_of_reach (q : Fin 64) (v : Word) (opens : Bool) :
    exec (.sqdb q v opens) s = .next (writeSqdb q.val (v.toNat % 65536) opens s) := exec_hostRow hr rfl

theorem exec_cqdb_of_reach (q : Fin 64) (v : Word) : exec (.cqdb q v) s = .next (writeCqdb q.val (v.toNat % 65536) s) :=
  exec_hostRow hr rfl

theorem exec_sqctl_of_reach (q : Fin 64) (v : Word) : exec (.sqctl q v) s = .next (writeSqctl q.val v s) := exec_hostRow hr rfl

theorem exec_faultsum_of_reach (v : Word) : exec (.faultsum v) s = .next (writeFaultsum v s) := exec_hostRow hr rfl

theorem exec_hbHost_of_reach (v : Word) : exec (.hbHost v) s = .next (writeHbHost v s) := exec_hostRow hr rfl

theorem exec_hbCtl_of_reach (v : Word) : exec (.hbCtl v) s = .next (writeHbCtl v s) := exec_hostRow hr rfl

end

theorem hbRestart_eq (s : State) : hbRestart s = { s with host := { s.host with
    hbStart := if s.host.hbTimeout ≠ 0 ∧ s.sys.mode ≠ .boot then some s.now else none } } := by
  simp only [hbRestart, ← Bool.decide_and, decide_eq_true_eq]

/-- Settles O40: each row and each listed offset is one write of a register; what the host cannot reach, or no register
stands at, changes nothing. -/
theorem hostRegisterWrites : Obligations.HostRegisterWrites := by
  unfold Obligations.HostRegisterWrites
  refine ⟨fun s hon hup => ?_, fun s q value opens o bytes h => ?_, exec_hbDevAdvance⟩
  · have hr := hostReach_of hon hup
    refine ⟨fun q value opens => ⟨fun hbad => ?_, fun hrule => ?_⟩, fun q value => ⟨fun hbad => ?_, fun hrule => ?_⟩,
      fun q value => ?_, fun value => ?_, fun value => ?_, fun value => ?_, fun o bytes value ho => ?_, fun o value ho => ?_,
      fun value => ⟨?_, ?_, ?_, ?_⟩, fun q value => ?_, fun k value hk => ?_⟩
    · rw [exec_sqdb_of_reach hr, writeSqdb_of_bad opens hbad]
    · exact ⟨_, exec_sqdb_of_reach hr q value opens, writeSqdb_spec opens hrule⟩
    · rw [exec_cqdb_of_reach hr, writeCqdb_of_bad hbad]
    · rw [exec_cqdb_of_reach hr, writeCqdb_of_rule hrule]
    · rw [exec_sqctl_of_reach hr, writeSqctl_eq]
    · obtain ⟨hdev, hbits⟩ := writeFaultsum_spec value s
      refine ⟨_, exec_faultsum_of_reach hr value, hdev, fun k hk => ?_⟩
      rw [hbits k hk, testBit_latchBits]
      simp only [Bool.or_assoc]
    · rw [exec_hbHost_of_reach hr, writeHbHost, hbRestart_eq]
    · rw [exec_hbCtl_of_reach hr, writeHbCtl, hbRestart_eq]
    · exact exec_registerWrite_of_other value (.inr ho)
    · by_cases h4 : o % 4 = 0
      · rw [exec_registerWrite_of_reach value hr h4, writeBar0_of_unlisted value ho]
      · exact exec_registerWrite_of_other value (.inr (.inr h4))
    · rw [exec_registerWrite_of_reach value hr rfl, exec_faultsum_of_reach hr]
      rfl
    · rw [exec_registerWrite_of_reach value hr rfl, exec_hbHost_of_reach hr]
      rfl
    · rw [exec_registerWrite_of_reach value hr rfl, exec_hbCtl_of_reach hr]
      rfl
    · rw [exec_registerWrite_of_reach value hr rfl]
      rfl
    · obtain ⟨hctl, hsqdb, hcqdb, hlo, hhi, hcqctl⟩ := exec_queueWords hr q value
      rw [hctl, hsqdb, hcqdb, hlo, hhi, hcqctl, exec_sqctl_of_reach hr, exec_sqdb_of_reach hr, exec_cqdb_of_reach hr,
        writeBase_sq_lo, writeBase_sq_hi]
      exact ⟨rfl, rfl, rfl, rfl, rfl, rfl⟩
    · have hexec := exec_registerWrite_of_reach value hr (o := 0x8000 + 4 * k) (by omega)
      rw [writeBar0_of_msix value (by omega) (by omega), show (0x8000 + 4 * k - 0x8000) / 4 = k by omega] at hexec
      exact ⟨_, hexec, writeMsix_spec k value s⟩
  · have hr := hostReach_eq_false h
    have hskip (t : State) : (Host.Outcome.next (if s.hostReach then t else s) : Host.Outcome State Fault Refusal) = .next s := by
      rw [hr]
      rfl
    exact ⟨hskip _, hskip _, hskip _, hskip _, hskip _, hskip _, exec_registerWrite_of_other value (.inl hr)⟩

end Sys2Proof.Machine
end

section
/-! POWER_SET (R425, R448–R450, R456, R459, R460). -/

namespace Sys2Proof.Machine

/-! ### What a power request reads stays while its entry is read -/

theorem domInUse_takeEntry (q : Nat) (s : State) (d : Nat) : (takeEntry q s).domInUse d = s.domInUse d := by
  obtain ⟨x, hx, -⟩ := takeEntry_host q s
  have hroot : ({ s with host := x } : State).rootOf = s.rootOf := funext (rootOf_host s x)
  have hburins : ({ s with host := x } : State).burinsOf = s.burinsOf := funext (burinsOf_host s x)
  have hspans : ({ s with host := x } : State).spans = s.spans := funext (spans_host s x)
  rw [hx]
  unfold State.domInUse State.proofCoversDom
  rw [hroot, hburins, hspans]
  rfl

/-- The configured cell for which a domain may not leave On in the present mode (R449). -/
def State.keptOnBy (s : State) (d : Nat) : Option Nat :=
  if s.sys.mode = .ready || s.sys.mode = .run || s.sys.mode = .calibrate then s.domConfigured d else none

theorem keptOnBy_takeEntry (q : Nat) (s : State) (d : Nat) : (takeEntry q s).keptOnBy d = s.keptOnBy d := by
  obtain ⟨x, hx, -⟩ := takeEntry_host q s
  rw [hx]
  rfl

theorem keptOnBy_of_mode {d : Nat} {s : State} (h : s.sys.mode = .ready ∨ s.sys.mode = .run ∨ s.sys.mode = .calibrate) :
    s.keptOnBy d = s.domConfigured d := if_pos (by simpa [or_assoc] using h)

theorem keptOnBy_eq_none {d : Nat} {s : State}
    (h : s.sys.mode ≠ .ready ∧ s.sys.mode ≠ .run ∧ s.sys.mode ≠ .calibrate ∨ s.domConfigured d = none) : s.keptOnBy d = none := by
  rcases h with ⟨hready, hrun, hcal⟩ | h
  · exact if_neg (by simp [hready, hrun, hcal])
  · rw [State.keptOnBy, h, ite_self]

/-! ### A request by the state of its domain -/

/-- A mailbox request for a state of a domain that may take it, its wake field in rule. -/
structure PowerRule (d st wake : Nat) (s : State) : Prop where
  two_le : 2 ≤ d
  le : d ≤ 23
  state : st ≤ 2
  stays : d = 2 → st = 0
  wake : wake = 0xFFFF ∨ st ≠ 0 ∧ wake < 4096 ∧ (s.chan wake).bound = true ∧ (s.chan wake).kind = 1

theorem powerReply_of_alwaysOn {ref d st wake : Nat} {s : State} (hst : st ≤ 2) (hd : d < 2 ∨ d = 2 ∧ st ≠ 0) :
    powerReply false ref d st wake s = .no s stInvalid (.alwaysOn d) := by
  unfold powerReply
  rw [if_neg (by omega), if_neg (by omega)]
  rcases hd with hd | ⟨hd, hne⟩
  · rw [if_pos hd]
  · rw [if_neg (by omega), if_pos (by simp [hd, hne])]

section
variable {ref d st wake : Nat} {s : State} (h : PowerRule d st wake s)
include h

/-- What a request in rule does, by the state the domain is in. -/
theorem powerReply_of_rule :
    ((s.dom d).st = .waking ∨ (s.dom d).st = .entering ∧ st ≠ 0 → powerReply false ref d st wake s = .no s stBusy (.transition d))
    ∧ ((s.dom d).st ≠ .waking → (s.dom d).st ≠ .entering → powerReply false ref d st wake s =
      if (s.dom d).st.code = st then { s := if st = 0 then s else s.modDom d fun k => { k with wakeCh := wakeChan wake } }
      else if st = 0 then
        match wakeRequest d 2 ref (.command (0x50 + ref % 256 * 256 + ref / 65536 * 65536)) s with
        | .refused n s => .no s stThermal (.thermal n)
        | .taken s => { s, wait := .domain d 0 }
        | .ignored => { s }
      else if (s.dom d).st = .off then .no s stInvalid (.transition d)
      else if (s.dom d).st = .retention then
        { s := (enter d st s).modDom d fun k => { k with wakeCh := wakeChan wake }, wait := .domain d st }
      else if s.domInUse d then .busy s
      else match s.keptOnBy d with
        | some c => .no s stInvalid (.configured c)
        | none => { s := (beginEntry d st s).modDom d fun k => { k with wakeCh := wakeChan wake }, wait := .domain d st }) := by
  have hpd2 : ¬(decide (d = 2) && decide (st ≠ 0) && !false) = true := by
    have := h.stays
    simp
    omega
  have hwake : ¬(!s.wakeOk st wake) = true := by
    rcases h.wake with hw | ⟨hne, hlt, hbound, hkind⟩
    · simp [State.wakeOk, hw]
    · simp [State.wakeOk, hne, hlt, hbound, hkind]
  have h2 := h.two_le
  have h23 := h.le
  have hst := h.state
  unfold powerReply
  rw [if_neg (by omega), if_neg (by omega), if_neg (by omega), if_neg hpd2, if_neg hwake]
  dsimp only
  refine ⟨fun hbusy => if_pos (by simpa using hbusy), fun hw he => ?_⟩
  rw [if_neg (by simp [hw, he])]
  exact if_neg he

theorem powerReply_of_present (hcode : (s.dom d).st.code = st) : powerReply false ref d st wake s =
    { s := if st = 0 then s else s.modDom d fun k => { k with wakeCh := wakeChan wake } } := by
  have hst := h.state
  have hw : (s.dom d).st ≠ .waking := fun e => by rw [e] at hcode; simp [DomSt.code] at hcode; omega
  have he : (s.dom d).st ≠ .entering := fun e => by rw [e] at hcode; simp [DomSt.code] at hcode; omega
  rw [(powerReply_of_rule h).2 hw he, if_pos hcode]

theorem powerReply_of_wake (h0 : st = 0) (hlow : (s.dom d).st = .retention ∨ (s.dom d).st = .off) :
    powerReply false ref d st wake s = match s.hotNode d with
      | some n => .no (s.modDom d fun k => { k with thermRefused := true }) stThermal (.thermal n)
      | none => { s := beginWake d 2 ref s, wait := .domain d 0 } := by
  rw [(powerReply_of_rule h).2 (by rcases hlow with e | e <;> simp [e]) (by rcases hlow with e | e <;> simp [e]),
    if_neg (by rcases hlow with e | e <;> simp [e, h0, DomSt.code]), if_pos h0]
  unfold wakeRequest
  rcases hlow with e | e
  · rw [e]
    cases s.hotNode d <;> rfl
  · rw [e]
    cases s.hotNode d <;> rfl

theorem powerReply_of_off_to_retention (hoff : (s.dom d).st = .off) (h1 : st = 1) :
    powerReply false ref d st wake s = .no s stInvalid (.transition d) := by
  rw [(powerReply_of_rule h).2 (by simp [hoff]) (by simp [hoff]), if_neg (by simp [hoff, h1, DomSt.code]), if_neg (by omega),
    if_pos hoff]

theorem powerReply_of_retention_to_off (hret : (s.dom d).st = .retention) (h2 : st = 2) : powerReply false ref d st wake s =
    { s := (enter d st s).modDom d fun k => { k with wakeCh := wakeChan wake }, wait := .domain d st } := by
  rw [(powerReply_of_rule h).2 (by simp [hret]) (by simp [hret]), if_neg (by simp [hret, h2, DomSt.code]), if_neg (by omega),
    if_neg (by simp [hret]), if_pos hret]

theorem powerReply_of_leaving (hon : (s.dom d).st = .on) (hne : st ≠ 0) : powerReply false ref d st wake s =
    if s.domInUse d then .busy s
    else match s.keptOnBy d with
      | some c => .no s stInvalid (.configured c)
      | none => { s := (beginEntry d st s).modDom d fun k => { k with wakeCh := wakeChan wake }, wait := .domain d st } := by
  rw [(powerReply_of_rule h).2 (by simp [hon]) (by simp [hon]), if_neg (by simp [hon, DomSt.code]; omega), if_neg hne,
    if_neg (by simp [hon]), if_neg (by simp [hon])]

end

/-! ### The governor -/

theorem governorReply_of_rule {a : GovArgs} (s : State) (hmode : a.mode ≤ 1) (hmin : 650 ≤ a.vmin) (hle : a.vmin ≤ a.vmax)
    (hmax : a.vmax ≤ 850) (hlo : 650 ≤ a.vfixed) (hhi : a.vfixed ≤ 850) (hfix : a.mode = 1 → a.vmin ≤ a.vfixed ∧ a.vfixed ≤ a.vmax)
    (hnear : a.nearlate ≤ 125) (hband : a.nearlate + 10 ≤ a.lower) (hlower : a.lower ≤ 1250) : governorReply a s =
      { s := { s with gov := { s.gov with
          fixed := decide (a.mode = 1), vmin := a.vmin, vmax := a.vmax, vfixed := a.vfixed, nearLate := a.nearlate, lower := a.lower } } } := by
  have hfixed : ¬(a.mode = 1 ∧ (a.vfixed < a.vmin ∨ a.vmax < a.vfixed)) := fun ⟨h1, hout⟩ => by
    have := hfix h1
    omega
  unfold governorReply
  dsimp only
  rw [if_neg (by omega), if_neg (by simp; omega), if_neg (by simp; omega), if_neg (by simpa [hlo, hhi] using hfixed),
    if_neg (by omega), if_neg (by simp; omega)]
  rfl

theorem dom_beginEntry_retention (d : Nat) (s : State) : (beginEntry d 1 s).dom d =
    { (leaveOn d s).dom d with st := .entering, target := 1, isolated := ((leaveOn d s).dom d).st == .retention } := by
  unfold beginEntry enter
  rw [if_neg (by decide), State.dom_modDom]

/-- Settles O36: each request by the state of its domain, the entry to Retention and the governor's settings. -/
theorem powerCommands : Obligations.PowerCommands := by
  unfold Obligations.PowerCommands
  refine ⟨fun h d st wake s hs hst => ?_, fun s d => dom_beginEntry_retention d s,
    fun h a s hs hmode hmin hle hmax hlo hhi hfix hnear hband hlower =>
      Ends.congr (ends_of rfl hs rfl) fun m _ => governorReply_of_rule _ hmode hmin hle hmax hlo hhi hfix hnear hband hlower⟩
  have hends : Ends (.powerSetDomain h d st wake) s (powerReply false (h.sq.val + h.cmdId % 65536 * 65536) d st wake) :=
    ends_of rfl hs rfl
  refine ⟨fun hd => hends.congr fun m _ => powerReply_of_alwaysOn hst hd, fun h2 h23 hpd2 hwake => ?_⟩
  have hrule (q : Nat) : PowerRule d st wake (takeEntry q s) := ⟨h2, h23, hst, hpd2, hwake⟩
  refine ⟨fun hbusy => ?_, fun hon h0 => ?_, fun hlow => ?_, fun hoff h1 => ?_, fun hret h2 => ?_, fun hon hne huse => ?_,
    fun hon hne huse hfree => ?_, fun cell hon hne huse hmode hcell => ?_, fun hlow h0 => ⟨fun hcool => ?_, fun n hhot => ?_⟩⟩
  · exact hends.congr fun m _ => (powerReply_of_rule (hrule _)).1 hbusy
  · exact hends.congr fun m _ => (powerReply_of_present (hrule _) (by rw [h0]; exact congrArg DomSt.code hon)).trans
      (by rw [if_pos h0])
  · refine hends.congr fun m _ => (powerReply_of_present (hrule _) ?_).trans ?_
    · rcases hlow with ⟨hk, h1⟩ | ⟨hk, h2⟩
      · rw [h1]; exact congrArg DomSt.code hk
      · rw [h2]; exact congrArg DomSt.code hk
    · rw [if_neg (by omega)]; rfl
  · exact hends.congr fun m _ => powerReply_of_off_to_retention (hrule _) hoff h1
  · exact hends.congr fun m _ => (powerReply_of_retention_to_off (hrule _) hret h2).trans (by subst h2; rfl)
  · exact hends.congr fun m _ => (powerReply_of_leaving (hrule _) hon hne).trans
      (by rw [domInUse_takeEntry, if_pos huse]; rfl)
  · refine hends.congr fun m _ => (powerReply_of_leaving (hrule _) hon hne).trans ?_
    rw [domInUse_takeEntry, huse, keptOnBy_takeEntry, keptOnBy_eq_none hfree]
    rfl
  · refine hends.congr fun m _ => (powerReply_of_leaving (hrule _) hon hne).trans ?_
    rw [domInUse_takeEntry, huse, keptOnBy_takeEntry, keptOnBy_of_mode hmode, hcell]
    rfl
  · refine hends.congr fun m _ => (powerReply_of_wake (hrule _) h0 hlow).trans ?_
    rw [show (takeEntry m.h.sq.val s).hotNode d = none from hcool]
    rfl
  · refine hends.congr fun m _ => (powerReply_of_wake (hrule _) h0 hlow).trans ?_
    rw [show (takeEntry m.h.sq.val s).hotNode d = some n from hhot]
    rfl

end Sys2Proof.Machine
end

section
/-! CAL_RUN, CAL_COMMIT and CAL_SET (R425, R486, R488, R489, R493, R495, R499, R505). -/

namespace Sys2Proof.Machine

/-! ### Scopes and targets -/

theorem namedInsts_of_instOf {scope target i : Nat} (h : instOf scope target = some i) : namedInsts scope target = [i] := by
  unfold namedInsts
  rw [if_neg ?_, h]
  · rfl
  · rintro rfl
    simp [instOf] at h

theorem calTarget_of_insts {scope target : Nat} (s : State) (h2 : scope ≠ 2)
    (ht : target = 0xFFFFFFFF ∨ (instOf scope target).isSome = true) : s.calTarget scope target = true := by
  unfold State.calTarget
  rw [if_neg h2]
  simpa using ht

theorem instUsed_takeEntry (q : Nat) (s : State) (i : Nat) : (takeEntry q s).instUsed i = s.instUsed i := by
  have hres : (takeEntry q s).rootRes = s.rootRes := funext (rootRes_takeEntry q s)
  unfold State.instUsed
  rw [hres]
  rfl

theorem centBurins_takeEntry (q : Nat) (s : State) (target : Nat) : (takeEntry q s).centBurins target = s.centBurins target := by
  unfold State.centBurins
  rw [burinsOf_takeEntry]
  rfl

/-! ### CAL_RUN by its scope -/

section
variable {scope target ramp : Nat} {s : State} (hramp : ramp ≤ 65536)
include hramp

/-- A signal-traced run of ports or quadrants, its operands in rule. -/
theorem calRunReply_of_signal (hscope : scope = 1 ∨ scope = 3) (ht : target = 0xFFFFFFFF ∨ (instOf scope target).isSome = true) :
    calRunReply scope target ramp s =
      if (namedInsts scope target).any fun i => (s.calI i).st = 1 || (s.calI i).ramp.isSome || (s.calI i).st = 3 then .busy s
      else match (namedInsts scope target).find? (fun i => !s.isOn (instDom i)) with
        | some i => .no s stInvalid (.domain (instDom i))
        | none => if (namedInsts scope target).any fun i => s.testing (instDom i) then .busy s
          else { s := each (beginMeasure (if ramp = 0 then (s.scope scope).ramp else ramp)) (namedInsts scope target) s
                 wait := .cal scope target } := by
  have hok : ¬(!scopeOk scope) = true := by rcases hscope with rfl | rfl <;> decide
  have h2 : scope ≠ 2 := by omega
  have han : ¬analogue scope = true := by rcases hscope with rfl | rfl <;> decide
  unfold calRunReply
  dsimp only
  rw [if_neg hok, if_neg (by simp [calTarget_of_insts s h2 ht]), if_neg (Nat.not_lt.mpr hramp), if_neg h2]
  exact if_neg han

/-- A run of an analogue scope on one target, its operands in rule. -/
theorem calRunReply_of_analogue {i : Nat} (hscope : scope = 0x11 ∨ scope = 0x12 ∨ scope = 0x13) (hi : instOf scope target = some i) :
    calRunReply scope target ramp s =
      if s.instUsed i || (tget [] s.calib.trimQ scope).contains i then .busy s
      else match [i].find? (fun i => !s.isOn (instDom i)) with
        | some i => .no s stInvalid (.domain (instDom i))
        | none => if s.testing (instDom i) then .busy s
          else
            let t : State := { s with calib := { s.calib with
              trimQ := tset [] s.calib.trimQ scope (queueTrim i (tget [] s.calib.trimQ scope)) } }
            { s := if tget [] s.calib.trimQ scope = [] then beginTrim scope t else t, wait := .cal scope target } := by
  have hok : ¬(!scopeOk scope) = true := by rcases hscope with rfl | rfl | rfl <;> decide
  have h2 : scope ≠ 2 := by omega
  have han : analogue scope = true := by rcases hscope with rfl | rfl | rfl <;> decide
  have ht : s.calTarget scope target = true := calTarget_of_insts s h2 (.inr (by rw [hi]; rfl))
  unfold calRunReply
  dsimp only
  rw [if_neg hok, if_neg (by simp [ht]), if_neg (Nat.not_lt.mpr hramp), if_neg h2, if_pos han, namedInsts_of_instOf hi]
  simp only [List.any_cons, List.any_nil, Bool.or_false, List.foldl_cons, List.foldl_nil]
  <;> rfl

/-- Tracking of one burin that has a centroid table begins. -/
theorem calRunReply_of_centroid {b : Nat} (ht : s.calTarget 2 target = true) (hb : s.centBurins target = [b])
    (hoff : (s.cent b).on = false) (hauto : (s.scope 2).auto = false) (hnone : (s.cent b).ramp = none) :
    calRunReply 2 target ramp s =
      { s := s.setCent b { s.cent b with on := true, sums := [], got := [], rampLen := if ramp = 0 then (s.scope 2).ramp else ramp }
        wait := .cal 2 target } := by
  unfold calRunReply
  dsimp only
  rw [if_neg (by decide), if_neg (by simp [ht]), if_neg (Nat.not_lt.mpr hramp), if_pos rfl, hb,
    if_neg (by simp [hoff, hauto, hnone]), if_neg (List.cons_ne_nil _ _)]
  rfl

end

theorem calRunReply_of_idle {scope target ramp : Nat} {s : State} (hramp : ramp ≤ 65536) (hscope : scope = 1 ∨ scope = 3)
    (ht : target = 0xFFFFFFFF ∨ (instOf scope target).isSome = true)
    (hidle : ∀ i ∈ namedInsts scope target,
      (s.calI i).st ≠ 1 ∧ (s.calI i).st ≠ 3 ∧ (s.calI i).ramp = none ∧ s.isOn (instDom i) = true ∧ s.testing (instDom i) = false) :
    calRunReply scope target ramp s =
      { s := each (beginMeasure (if ramp = 0 then (s.scope scope).ramp else ramp)) (namedInsts scope target) s
        wait := .cal scope target } := by
  have hfree : ((namedInsts scope target).any fun i => (s.calI i).st = 1 || (s.calI i).ramp.isSome || (s.calI i).st = 3) = false := by
    rw [List.any_eq_false]
    intro i hi
    obtain ⟨h1, h3, hnone, -⟩ := hidle i hi
    simp [h1, h3, hnone]
  have hon : (namedInsts scope target).find? (fun i => !s.isOn (instDom i)) = none := by
    rw [List.find?_eq_none]
    intro i hi
    obtain ⟨-, -, -, hon, -⟩ := hidle i hi
    simp [hon]
  have htest : ((namedInsts scope target).any fun i => s.testing (instDom i)) = false := by
    rw [List.any_eq_false]
    intro i hi
    obtain ⟨-, -, -, -, htest⟩ := hidle i hi
    simp [htest]
  rw [calRunReply_of_signal hramp hscope ht, hfree, hon, htest]
  rfl

theorem calRunReply_of_used {scope target ramp : Nat} {s : State} (hramp : ramp ≤ 65536) (hscope : scope = 1 ∨ scope = 3)
    (ht : target = 0xFFFFFFFF ∨ (instOf scope target).isSome = true)
    (hused : ∃ i ∈ namedInsts scope target, (s.calI i).st = 1 ∨ (s.calI i).st = 3 ∨ (s.calI i).ramp.isSome = true) :
    calRunReply scope target ramp s = .busy s := by
  have hany : ((namedInsts scope target).any fun i => (s.calI i).st = 1 || (s.calI i).ramp.isSome || (s.calI i).st = 3) = true := by
    obtain ⟨i, hi, hst⟩ := hused
    rw [List.any_eq_true]
    refine ⟨i, hi, ?_⟩
    rcases hst with h | h | h <;> simp [h]
  rw [calRunReply_of_signal hramp hscope ht, if_pos hany]

/-- What waits behind the trim in progress stays in ascending order. -/
theorem queueTrim_cons {k i : Nat} {l : List Nat} (hl : l.Pairwise (· < ·)) (hi : i ∉ k :: l) :
    ∃ l', queueTrim i (k :: l) = k :: l' ∧ l'.Pairwise (· < ·) ∧ ∀ x, x ∈ l' ↔ x = i ∨ x ∈ l := by
  have hil : i ∉ l := fun h => hi (List.mem_cons_of_mem k h)
  refine ⟨_, rfl, ?_, fun x => ?_⟩
  · rw [List.pairwise_append, List.pairwise_cons]
    refine ⟨hl.filter _, ⟨fun x hx => ?_, hl.filter _⟩, fun x hx y hy => ?_⟩
    · exact of_decide_eq_true (List.mem_filter.mp hx).2
    · have hxi : x < i := of_decide_eq_true (List.mem_filter.mp hx).2
      rcases List.mem_cons.mp hy with rfl | hy
      · exact hxi
      · exact hxi.trans (of_decide_eq_true (List.mem_filter.mp hy).2)
  · simp only [List.mem_append, List.mem_cons, List.mem_filter, decide_eq_true_eq]
    constructor
    · rintro (⟨hx, -⟩ | hx | ⟨hx, -⟩)
      · exact .inr hx
      · exact .inl hx
      · exact .inr hx
    · rintro (hx | hx)
      · exact .inr (.inl hx)
      · rcases Nat.lt_trichotomy x i with hlt | rfl | hgt
        · exact .inl ⟨hx, hlt⟩
        · exact absurd hx hil
        · exact .inr (.inr ⟨hx, hgt⟩)

section
variable {scope target ramp i : Nat} {s : State} (hramp : ramp ≤ 65536) (hscope : scope = 0x11 ∨ scope = 0x12 ∨ scope = 0x13)
  (hi : instOf scope target = some i) (hfree : s.instUsed i = false) (hon : s.isOn (instDom i) = true)
  (htest : s.testing (instDom i) = false)
include hramp hscope hi hfree hon htest

theorem calRunReply_of_trim (hin : i ∉ tget [] s.calib.trimQ scope) : calRunReply scope target ramp s =
    let t : State := { s with calib := { s.calib with
      trimQ := tset [] s.calib.trimQ scope (queueTrim i (tget [] s.calib.trimQ scope)) } }
    { s := if tget [] s.calib.trimQ scope = [] then beginTrim scope t else t, wait := .cal scope target } := by
  have hfind : [i].find? (fun i => !s.isOn (instDom i)) = none := by simp [hon]
  rw [calRunReply_of_analogue hramp hscope hi, if_neg (by simp [hfree, hin]), hfind]
  exact if_neg (by simp [htest])

theorem calRunReply_of_first (hq : tget [] s.calib.trimQ scope = []) : calRunReply scope target ramp s =
    { s := beginTrim scope { s with calib := { s.calib with trimQ := tset [] s.calib.trimQ scope [i] } }, wait := .cal scope target } := by
  rw [calRunReply_of_trim hramp hscope hi hfree hon htest (by simp [hq]), hq]
  rfl

theorem calRunReply_of_waiting {k : Nat} {l l' : List Nat} (hq : tget [] s.calib.trimQ scope = k :: l)
    (hin : i ∉ k :: l) (hqueue : queueTrim i (k :: l) = k :: l') : calRunReply scope target ramp s =
      { s := { s with calib := { s.calib with trimQ := tset [] s.calib.trimQ scope (k :: l') } }, wait := .cal scope target } := by
  rw [calRunReply_of_trim hramp hscope hi hfree hon htest (by rw [hq]; exact hin), hq, hqueue]
  rfl

end

/-! ### CAL_COMMIT and CAL_SET -/

section
variable {scope target ramp : Nat} {s : State} (hscope : scope ∈ [1, 3, 0x11, 0x12, 0x13])
  (ht : target = 0xFFFFFFFF ∨ (instOf scope target).isSome = true)
include hscope ht

theorem calCommitReply_of_insts : calCommitReply scope target ramp s =
    if ramp ≠ 0 then .bad s 8
    else match (namedInsts scope target).find? (fun i => !s.windowOpen i) with
      | some i => .no s stThermal (.thermal (if s.nodeOpen 1 then instDom i else 1))
      | none =>
        { s := each (fun i s => s.modCal i fun c => { c with writeDue := true, commit := true }) (namedInsts scope target) s
          wait := .cal scope target } := by
  have hok : ¬(!scopeOk scope || decide (scope = 2)) = true := by
    clear ht
    revert scope
    decide
  have h2 : scope ≠ 2 := by
    rintro rfl
    simp at hscope
  unfold calCommitReply
  dsimp only
  rw [if_neg hok]
  exact if_neg (by simp [calTarget_of_insts s h2 ht])

theorem calCommitReply_of_window (hramp : ramp = 0) (hopen : ∀ i ∈ namedInsts scope target, s.windowOpen i = true) :
    calCommitReply scope target ramp s =
      { s := each (fun i s => s.modCal i fun c => { c with writeDue := true, commit := true }) (namedInsts scope target) s
        wait := .cal scope target } := by
  have hfind : (namedInsts scope target).find? (fun i => !s.windowOpen i) = none := by
    rw [List.find?_eq_none]
    intro i hi
    simp [hopen i hi]
  rw [calCommitReply_of_insts hscope ht, if_neg (not_not.mpr hramp), hfind]

end

theorem calSetReply_of_rule {scope dtemp cwin cdead ramp : Nat} {auto : Bool} (s : State) (hscope : scope ∈ [1, 2, 3, 0x11, 0x12, 0x13])
    (hd : dtemp = 0 ∨ 8 ≤ dtemp ∧ dtemp ≤ 480) (hw : cwin = 0 ∨ 16 ≤ cwin ∧ cwin ≤ 65535) (hdead : cdead ≤ 4096) (hramp : ramp ≤ 65536) :
    calSetReply scope auto dtemp cwin cdead ramp s =
      let v : CalScope := { auto := auto && decide (scope < 0x11), dtemp := if dtemp = 0 then 48 else dtemp, cwin := if cwin = 0 then 1024 else cwin
                            cdead := if cdead = 0 then 16 else cdead, ramp := if ramp = 0 then 256 else ramp }
      { s := { s with calib := { s.calib with scopes := tset (scopeDefault scope) s.calib.scopes scope v } } } := by
  have hok : ¬(!scopeOk scope) = true := by revert scope; decide
  have han : (!analogue scope) = decide (scope < 0x11) := by revert scope; decide
  unfold calSetReply
  rw [if_neg hok, if_neg (by simp; omega), if_neg (by simp; omega), if_neg (Nat.not_lt.mpr hdead), if_neg (Nat.not_lt.mpr hramp), han]

/-- Settles O35: each command by its scope and the instances that it names. -/
theorem calibrationCommands : Obligations.CalibrationCommands := by
  unfold Obligations.CalibrationCommands
  refine ⟨fun h scope target ramp s hs hscope ht hramp => ?signal, fun h target ramp b s hs ht hramp hb hoff hauto hnone => ?centroid,
    fun h scope target ramp i s hs hscope hi hramp => ?analogue, fun h scope target ramp s hs => ?commit,
    fun h scope auto dtemp cwin cdead ramp s hs hscope hd hw hdead hramp => ?set⟩
  case signal =>
    have hends : Ends (.calRun h scope target ramp) s (calRunReply scope target ramp) := ends_of rfl hs rfl
    exact ⟨fun hidle => hends.congr fun m _ => calRunReply_of_idle hramp hscope ht hidle,
      fun hused => hends.congr fun m _ => calRunReply_of_used hramp hscope ht hused⟩
  case centroid =>
    refine (ends_of rfl hs rfl : Ends (.calRun h 2 target ramp) s (calRunReply 2 target ramp)).congr fun m _ => ?_
    exact calRunReply_of_centroid hramp ht ((centBurins_takeEntry _ s target).trans hb) hoff hauto hnone
  case analogue =>
    have hends : Ends (.calRun h scope target ramp) s (calRunReply scope target ramp) := ends_of rfl hs rfl
    refine ⟨fun hused => ?_, fun hfree hon htest => ⟨fun hq => ?_, fun k l hq hin hl => ?_⟩⟩
    · refine hends.congr fun m _ => (calRunReply_of_analogue hramp hscope hi).trans (if_pos ?_)
      rw [instUsed_takeEntry, Bool.or_eq_true, List.contains_iff_mem]
      exact hused
    · exact hends.congr fun m _ => calRunReply_of_first hramp hscope hi ((instUsed_takeEntry _ s i).trans hfree) hon htest hq
    · obtain ⟨l', hqueue, hl', hmem⟩ := queueTrim_cons hl (hq ▸ hin)
      exact ⟨l', hl', hmem, hends.congr fun m _ =>
        calRunReply_of_waiting hramp hscope hi ((instUsed_takeEntry _ s i).trans hfree) hon htest hq (hq ▸ hin) hqueue⟩
  case commit =>
    have hends : Ends (.calCommit h scope target ramp) s (calCommitReply scope target ramp) := ends_of rfl hs rfl
    refine ⟨fun h2 => hends.congr fun m _ => ?_, fun hscope ht => ⟨fun hne => hends.congr fun m _ => ?_,
      fun hramp hopen => hends.congr fun m _ => calCommitReply_of_window hscope ht hramp hopen⟩⟩
    · subst h2
      rfl
    · rw [calCommitReply_of_insts hscope ht, if_pos hne]
      rfl
  case set =>
    exact Ends.congr (ends_of rfl hs rfl) fun m _ => calSetReply_of_rule _ hscope hd hw hdead hramp

end Sys2Proof.Machine
end

section
/-! LINK_SET, RING_SET, HK_SET and NET_SET (R363, R387, R425, R435, R437, R438, R471, R545). -/

namespace Sys2Proof.Machine

/-! ### What reading the entry leaves -/

theorem spanRoots_host (s : State) (x : HostIf) : ({ s with host := x } : State).spanRoots = s.spanRoots := by
  have hspans : ({ s with host := x } : State).spans = s.spans := funext (spans_host s x)
  unfold State.spanRoots
  rw [hspans]
  rfl

theorem portInUse_takeEntry (q : Nat) (s : State) (p : Nat) : (takeEntry q s).portInUse p = s.portInUse p := by
  have hspan : (takeEntry q s).spanRoots = s.spanRoots := spanRoots_host s _
  have hvia : (takeEntry q s).rootVia p = s.rootVia p := funext fun key => by
    have hdevs : (takeEntry q s).remoteDevs key = s.remoteDevs key := remoteDevs_host s _ key
    unfold State.rootVia State.rootLoses
    rw [hdevs]
    rfl
  have hends : (takeEntry q s).endInUse = s.endInUse := funext (endInUse_takeEntry q s)
  unfold State.portInUse
  rw [hspan, hvia, hends]
  rfl

theorem ringInUse_takeEntry (q : Nat) (s : State) (k : Nat) : (takeEntry q s).ringInUse k = s.ringInUse k := by
  have hroot : (takeEntry q s).rootOf = s.rootOf := funext (rootOf_host s _)
  unfold State.ringInUse State.recUses
  rw [hroot]
  rfl

theorem bytesAt_takeEntry (q : Nat) (s : State) (a n : Nat) : (takeEntry q s).bytesAt a n = s.bytesAt a n := by
  induction n generalizing a with
  | zero => rfl
  | succ n ih =>
    rw [State.bytesAt, State.bytesAt, ih]
    rfl

/-! ### LINK_SET -/

section
variable {flags genmax lb address pfx : Nat} {s : State}

theorem linkRange_time (hf : flags < 16) (h1 : flags.testBit 1 = false) (h2 : flags.testBit 2 = true → lb ≤ 3)
    (h3 : flags.testBit 3 = true → pfx ≤ 32) : linkRange 0x608 flags genmax lb pfx = none := by
  unfold linkRange
  dsimp only
  rw [if_neg (by decide), if_neg (by simp [h1, hf]), if_neg (by simp [h1]), if_neg (by simpa using h2), if_neg (by simpa using h3)]

theorem linkRange_port {p : Nat} (hp : p < 8) (hf : flags < 8) (h1 : flags.testBit 1 = true → genmax = 1 ∨ genmax = 2)
    (h2 : flags.testBit 2 = true → lb ≤ 3) : linkRange (0x600 + p) flags genmax lb pfx = none := by
  have h3 : flags.testBit 3 = false := Nat.testBit_lt_two_pow hf
  have ht : decide (0x600 + p = 0x608) = false := decide_eq_false (by omega)
  have hgen : ¬(flags.testBit 1 && (genmax = 0 || 2 < genmax)) = true := by
    simp only [Bool.and_eq_true, Bool.or_eq_true, decide_eq_true_eq, not_and]
    intro hb
    have := h1 hb
    omega
  unfold linkRange
  dsimp only
  rw [if_neg (by simp; omega), if_neg (by rw [ht, h3]; simp; omega), if_neg hgen, if_neg (by simpa using h2), if_neg (by simp [h3])]

/-- LINK_SET of fields in rule, where a loopback is admitted and PD03 is On. -/
theorem linkSetReply_of_rule {port : Nat} (hrange : linkRange port flags genmax lb pfx = none)
    (hlb : flags.testBit 2 = true → lb ≠ 0 → s.sys.mode = .service) (hon : s.isOn 3 = true) (ht : s.testing 3 = false) :
    linkSetReply port flags genmax lb address pfx s =
      if port = 0x608 then
        let t := s.timePort
        let l := if flags.testBit 2 then lb else t.loopback
        let down := !flags.testBit 0 || l ≠ t.loopback
        let u := { s with timePort := { t with
            enabled := flags.testBit 0, loopback := l, up := t.up && !down
            trying10 := t.trying10 || down, tryAt := if down then s.now else t.tryAt
            ip := if flags.testBit 3 then address else t.ip, pfx := if flags.testBit 3 then pfx else t.pfx } }
        { s := if t.up && down then loseSources (fun a => a.source == 1) id u else u }
      else if s.sys.mode = .run && s.portInUse (port - 0x600) then .busy s
      else { s := setPort (port - 0x600) flags genmax lb s } := by
  unfold linkSetReply
  rw [hrange]
  dsimp only
  rw [if_neg (by simpa using hlb), if_neg (by simp [hon]), if_neg (by simp [ht])]

theorem linkSetReply_time (hrange : linkRange 0x608 flags genmax lb pfx = none)
    (hlb : flags.testBit 2 = true → lb ≠ 0 → s.sys.mode = .service) (hon : s.isOn 3 = true) (ht : s.testing 3 = false) :
    linkSetReply 0x608 flags genmax lb address pfx s =
      let p := s.timePort
      let l := if flags.testBit 2 then lb else p.loopback
      let stays := flags.testBit 0 && decide (l = p.loopback)
      let u := { s with timePort := { p with
          enabled := flags.testBit 0, loopback := l, up := p.up && stays
          trying10 := p.trying10 || !stays, tryAt := if stays = true then p.tryAt else s.now
          ip := if flags.testBit 3 then address else p.ip, pfx := if flags.testBit 3 then pfx else p.pfx } }
      { s := if p.up && !stays then loseSources (fun a => a.source == 1) id u else u } := by
  rw [linkSetReply_of_rule hrange hlb hon ht, if_pos rfl]
  dsimp only
  generalize (if flags.testBit 2 then lb else s.timePort.loopback) = l
  have hstays : (!flags.testBit 0 || decide (l ≠ s.timePort.loopback)) = !(flags.testBit 0 && decide (l = s.timePort.loopback)) := by
    rw [Bool.not_and, decide_not]
  rw [hstays]
  generalize (flags.testBit 0 && decide (l = s.timePort.loopback)) = stays
  cases stays <;> simp

theorem linkSetReply_of_mode {port : Nat} (hrange : linkRange port flags genmax lb pfx = none)
    (h2 : flags.testBit 2 = true) (hlb : lb ≠ 0) (hmode : s.sys.mode ≠ .service) :
    linkSetReply port flags genmax lb address pfx s = .no s stMode .mode := by
  unfold linkSetReply
  rw [hrange]
  exact if_pos (by simp [h2, hlb, hmode])

end

/-- The settings that LINK_SET names, of a port that takes them. -/
def Jvl.settings (flags genmax lb : Nat) (j : Jvl) : Bool × Nat × Nat :=
  (flags.testBit 0, if flags.testBit 1 then genmax else j.genMax, if flags.testBit 2 then lb else j.loopback)

theorem setPort_cases (p flags genmax lb : Nat) (s : State) :
    (∃ t : State, setPort p flags genmax lb s = t.modJport p fun j =>
      { j with enabled := ((s.jport p).settings flags genmax lb).1, genMax := ((s.jport p).settings flags genmax lb).2.1
               loopback := ((s.jport p).settings flags genmax lb).2.2 })
    ∨ setPort p flags genmax lb s = s ∧
      ((s.jport p).enabled, (s.jport p).genMax, (s.jport p).loopback) = (s.jport p).settings flags genmax lb := by
  unfold setPort Jvl.settings
  dsimp only
  by_cases hen : flags.testBit 0 = true
  · rw [if_neg (by simp [hen])]
    by_cases hl : (if flags.testBit 2 then lb else (s.jport p).loopback) = (s.jport p).loopback
    · rw [if_neg (not_not.mpr hl)]
      by_cases hj : (s.jport p).enabled = true
      · rw [if_neg (by simp [hj])]
        by_cases hg : (if flags.testBit 1 then genmax else (s.jport p).genMax) = (s.jport p).genMax
        · exact .inr ⟨if_neg (not_not.mpr hg), by rw [hl, hg, hen, hj]⟩
        · rw [if_pos hg]
          exact .inl ⟨_, rfl⟩
      · rw [if_pos (by simpa using hj)]
        exact .inl ⟨_, rfl⟩
    · rw [if_pos hl]
      exact .inl ⟨_, rfl⟩
  · rw [if_pos (by simpa using hen)]
    exact .inl ⟨_, rfl⟩

theorem settings_setPort (p flags genmax lb : Nat) (s : State) :
    (((setPort p flags genmax lb s).jport p).enabled, ((setPort p flags genmax lb s).jport p).genMax,
      ((setPort p flags genmax lb s).jport p).loopback) = (s.jport p).settings flags genmax lb := by
  rcases setPort_cases p flags genmax lb s with ⟨t, ht⟩ | ⟨ht, hsame⟩
  · rw [ht, State.jport_modJport]
  · rw [ht, hsame]

/-! ### RING_SET -/

section
variable {a : RingArgs} {s : State}

/-- Fields of RING_SET in rule. -/
structure RingRule (a : RingArgs) : Prop where
  ring : a.ring < 64
  flags : a.flags < 8
  vec : a.vec < 64
  cnt : a.cnt < 65536
  dev : a.flags.testBit 0 = true →
    a.dbase % 4096 = 0 ∧ inRing a.dbase a.dlen = true ∧ 65536 ≤ a.dlen ∧ a.dlen ≤ 33554432 ∧ a.dlen % 4096 = 0
  host : a.flags.testBit 1 = true → a.hbase % 4096 = 0 ∧ 4096 ≤ a.hlen ∧ a.hlen ≤ 67108864 ∧ a.hlen % 4096 = 0 ∧ a.ctrl % 64 = 0

theorem ringField_of_rule (h : RingRule a) : ringField a = none := by
  have hring := h.ring
  have hflags := h.flags
  have hvec := h.vec
  have hcnt := h.cnt
  unfold ringField
  dsimp only
  rw [if_neg (by omega), if_neg (by omega), if_neg (by omega)]
  have hd : ¬(a.flags.testBit 0 && (a.dbase % 4096 ≠ 0 || !inRing a.dbase a.dlen)) = true := fun hc => by
    obtain ⟨hbase, hin, -⟩ := h.dev (Bool.and_eq_true_iff.mp hc).1
    simp [hbase, hin] at hc
  have hlen : ¬(a.flags.testBit 0 && (a.dlen < 65536 || 33554432 < a.dlen || a.dlen % 4096 ≠ 0)) = true := fun hc => by
    obtain ⟨-, -, hlo, hhi, hmul⟩ := h.dev (Bool.and_eq_true_iff.mp hc).1
    simp at hc
    omega
  have hb : ¬(a.flags.testBit 1 && decide (a.hbase % 4096 ≠ 0)) = true := fun hc => by
    obtain ⟨hbase, -⟩ := h.host (Bool.and_eq_true_iff.mp hc).1
    simp [hbase] at hc
  have hhlen : ¬(a.flags.testBit 1 && (a.hlen < 4096 || 67108864 < a.hlen || a.hlen % 4096 ≠ 0)) = true := fun hc => by
    obtain ⟨-, hlo, hhi, hmul, -⟩ := h.host (Bool.and_eq_true_iff.mp hc).1
    simp at hc
    omega
  have hctrl : ¬(a.flags.testBit 1 && decide (a.ctrl % 64 ≠ 0)) = true := fun hc => by
    obtain ⟨-, -, -, -, hctrl⟩ := h.host (Bool.and_eq_true_iff.mp hc).1
    simp [hctrl] at hc
  rw [if_neg hd, if_neg hlen, if_neg (by omega), if_neg hb, if_neg hhlen, if_neg hctrl]

/-- The device part of a ring is cleared or moved. -/
def Ring.moves (r : Ring) (a : RingArgs) : Bool := !a.flags.testBit 0 || decide (a.dbase ≠ r.dbase) || decide (a.dlen ≠ r.dlen)

variable (h : RingRule a)
include h

theorem ringSetReply_of_rule : ringSetReply a s =
    if a.flags.testBit 0 && s.ringOverlap a then .bad s 4
    else if (s.ring a.ring).dev && (s.ring a.ring).moves a && s.ringInUse a.ring then .busy s
    else if (s.ring a.ring).host && (a.hbase ≠ (s.ring a.ring).hbase || a.hlen ≠ (s.ring a.ring).hlen || a.ctrl ≠ (s.ring a.ring).ctrl)
      then .busy s
    else { s := s.setRing a.ring ((s.ring a.ring).set a ((s.ring a.ring).moves a)) } := by
  unfold ringSetReply
  rw [ringField_of_rule h]
  rfl

theorem ringSetReply_of_overlap (hd : a.flags.testBit 0 = true) (hover : s.ringOverlap a = true) : ringSetReply a s = .bad s 4 := by
  rw [ringSetReply_of_rule h, if_pos (by simp [hd, hover])]

section
variable (hover : a.flags.testBit 0 = true → s.ringOverlap a = false)
include hover

theorem ringSetReply_of_inUse (hdev : (s.ring a.ring).dev = true) (hmoved : (s.ring a.ring).moves a = true)
    (huse : s.ringInUse a.ring = true) : ringSetReply a s = .busy s := by
  rw [ringSetReply_of_rule h, if_neg (by simpa using hover), if_pos (by simp [hdev, hmoved, huse])]

theorem ringSetReply_of_host (hhost : (s.ring a.ring).host = true)
    (hmoved : a.hbase ≠ (s.ring a.ring).hbase ∨ a.hlen ≠ (s.ring a.ring).hlen ∨ a.ctrl ≠ (s.ring a.ring).ctrl) :
    ringSetReply a s = .busy s := by
  rw [ringSetReply_of_rule h, if_neg (by simpa using hover)]
  split
  · rfl
  · exact if_pos (by simpa [hhost, or_assoc] using hmoved)

theorem ringSetReply_of_set (hdev : (s.ring a.ring).dev = true → (s.ring a.ring).moves a = true → s.ringInUse a.ring = false)
    (hhost : (s.ring a.ring).host = true →
      ¬(a.hbase ≠ (s.ring a.ring).hbase ∨ a.hlen ≠ (s.ring a.ring).hlen ∨ a.ctrl ≠ (s.ring a.ring).ctrl)) :
    ringSetReply a s = { s := s.setRing a.ring ((s.ring a.ring).set a ((s.ring a.ring).moves a)) } := by
  rw [ringSetReply_of_rule h, if_neg (by simpa using hover), if_neg (by simpa using hdev),
    if_neg (by simpa [or_assoc] using hhost)]

end

end

theorem Ring.set_eq (r : Ring) (a : RingArgs) (fresh : Bool) : r.set a fresh =
    { r with
      dev := a.flags.testBit 0, host := a.flags.testBit 1, ien := a.flags.testBit 2, vec := a.vec, dbase := a.dbase
      dlen := a.dlen, cnt := a.cnt, hbase := a.hbase, hlen := a.hlen, itime := a.itime, ctrl := a.ctrl
      recs := if fresh then [] else r.recs, used := if fresh then 0 else r.used, woff := if fresh then 0 else r.woff
      written := if a.flags.testBit 1 && !r.host then 0 else r.written
      consumed := if a.flags.testBit 1 && !r.host then 0 else r.consumed
      lastBad := if a.flags.testBit 1 && !r.host then none else r.lastBad
      unsig := if a.flags.testBit 1 then r.unsig else 0, unsigAt := if a.flags.testBit 1 then r.unsigAt else none } := by
  unfold Ring.set
  cases fresh <;> cases a.flags.testBit 1 <;> cases hh : r.host <;> simp [hh]

/-! ### HK_SET and NET_SET -/

theorem hkSetReply_of_rule {dislim : Nat} {slots : List (Nat × Nat)} (s : State) (hd : dislim = 0 ∨ 4 ≤ dislim ∧ dislim ≤ 1024)
    (hlen : slots.length ≤ 351) (hchan : ∀ e ∈ slots, (e.1 ≤ 320 ∨ e.1 = 0xFFFF) ∧ (e.2 ≤ 320 ∨ e.2 = 0xFFFF)) :
    hkSetReply dislim slots s =
      { s := { s with house := { s.house with slotsPend := some (if dislim = 0 then 32 else dislim, slots) } } } := by
  have hfind : ((List.range slots.length).zip slots).find? (fun e => !hkChan e.2.1 || !hkChan e.2.2) = none := by
    rw [List.find?_eq_none]
    intro e he
    obtain ⟨h1, h2⟩ := hchan e.2 (List.of_mem_zip he).2
    simp only [hkChan, Bool.or_eq_true, Bool.not_eq_true', Bool.or_eq_false_iff, decide_eq_false_iff_not, beq_eq_false_iff_ne,
      ne_eq, not_or, not_and, not_not]
    omega
  unfold hkSetReply
  rw [if_neg (by simp; omega), if_neg (Nat.not_lt.mpr hlen), hfind]

theorem devnumReply_of_free {n : Nat} (s : State) (hn : n < 16384)
    (hheld : ((s.plates.any fun e => decide (e.2.st = .shadow))
      || (s.chans.any fun e => e.2.bound && e.2.kind == 2 && s.chanSpans e.2)) = false) :
    devnumReply n s = { s := each (fun p u => if (u.jport p).st = .active then portLoss p 4 .lock u else u) (List.range 8) (setDevnum n s) } := by
  unfold devnumReply
  rw [if_neg (Nat.not_le.mpr hn), hheld]
  rfl

theorem routesReply_of_rule {src first count : Nat} (s : State) (hsrc : srcOk src count = true) (h1 : 1 ≤ count)
    (hlast : first + count ≤ 16384) (hon3 : s.isOn 3 = true) (ht : s.testing 3 = false) (hon4 : s.isOn 4 = true)
    (hgood : s.poisoned src count = false) (hb : ∀ b ∈ s.bytesAt src count, b.toNat < 8 ∨ b.toNat = 0xFF) :
    routesReply src first count s =
      let routes := tset 0xFF (tsetRun 0xFF s.sys.routes first ((s.bytesAt src count).map BitVec.toNat)) s.sys.devnum
        (tget 0xFF s.sys.routes s.sys.devnum)
      { s := { s with sys := { s.sys with
        routes, cutDevs := s.sys.cutDevs.filter fun d => tget 0xFF routes d == tget 0xFF s.sys.routes d } } } := by
  have hin : ((s.bytesAt src count).map BitVec.toNat).any (fun b => decide (8 ≤ b) && decide (b ≠ 0xFF)) = false := by
    rw [List.any_eq_false]
    intro b hmem
    obtain ⟨x, hx, rfl⟩ := List.mem_map.mp hmem
    have := hb x hx
    simp only [ne_eq, Bool.and_eq_true, decide_eq_true_eq]
    omega
  unfold routesReply
  rw [if_neg (by simp [hsrc]), if_neg (by simp; omega), if_neg (by simp [hon3]), if_neg (by simp [ht]), if_neg (by simp [hon4]),
    if_neg (by simp [hgood])]
  dsimp only
  rw [hin]
  rfl

/-- Settles O38: each command by the first condition that stands, or by what it stores. -/
theorem linkAndRingCommands : Obligations.LinkAndRingCommands := by
  unfold Obligations.LinkAndRingCommands
  refine ⟨fun h flags genmax lb address pfx s hs hf h1 h2 h3 => ?time, fun h p flags genmax lb address pfx s hs hp hf h1 h2 hon ht => ?port,
    fun s p flags genmax lb _ => ?settings, fun h a s hs hring hflags hvec hcnt => ?ring,
    fun h dislim slots s hs hd hlen hchan => Ends.congr (ends_of rfl hs rfl) fun m _ => hkSetReply_of_rule _ hd hlen hchan,
    fun h n s hs hn => ?devnum, fun s n => rfl,
    fun h src first count s hs hsrc h1 hlast hon3 ht hon4 hgood hb => ?routes⟩
  case settings =>
    have h := settings_setPort p flags genmax lb s
    exact ⟨congrArg Prod.fst h, congrArg (fun x => x.2.1) h, congrArg (fun x => x.2.2) h⟩
  case time =>
    have hends : Ends (.linkSet h 0x608 flags genmax lb address pfx) s (linkSetReply 0x608 flags genmax lb address pfx) :=
      ends_of rfl hs rfl
    have hrange := linkRange_time (genmax := genmax) hf h1 h2 h3
    refine ⟨fun hl hne hmode => hends.congr fun m _ => linkSetReply_of_mode hrange hl hne hmode,
      fun hl hon ht => hends.congr fun m _ => linkSetReply_time hrange hl hon ht⟩
  case port =>
    have hends : Ends (.linkSet h (0x600 + p) flags genmax lb address pfx) s (linkSetReply (0x600 + p) flags genmax lb address pfx) :=
      ends_of rfl hs rfl
    have hrange := linkRange_port (pfx := pfx) hp hf h1 fun hb => (h2 hb).1
    have hlb : flags.testBit 2 = true → lb ≠ 0 → s.sys.mode = .service := fun hb hne => (h2 hb).2.resolve_left hne
    have hport : 0x600 + p ≠ 0x608 := by omega
    refine ⟨fun hrun huse => hends.congr fun m _ => ?_, fun hfree => hends.congr fun m _ => ?_⟩
    · rw [linkSetReply_of_rule (s := takeEntry m.h.sq.val s) hrange hlb hon ht, if_neg hport, Nat.add_sub_cancel_left, portInUse_takeEntry]
      exact if_pos (by simpa using ⟨hrun, huse⟩)
    · rw [linkSetReply_of_rule (s := takeEntry m.h.sq.val s) hrange hlb hon ht, if_neg hport, Nat.add_sub_cancel_left, portInUse_takeEntry]
      refine if_neg fun hc => ?_
      rw [Bool.and_eq_true, decide_eq_true_eq] at hc
      exact Bool.false_ne_true ((hfree.resolve_left (not_not.mpr hc.1)).symm.trans hc.2)
  case ring =>
    intro dev host r hdev hhost moved hostMoved
    have hrule : RingRule a := ⟨hring, hflags, hvec, hcnt, hdev, hhost⟩
    have hends : Ends (.ringSet h a) s (ringSetReply a) := ends_of rfl hs rfl
    refine ⟨fun hd hover => hends.congr fun m _ => ringSetReply_of_overlap hrule hd hover, fun hover hrd hmoved huse => ?_,
      fun hover hrh hmoved => hends.congr fun m _ => ringSetReply_of_host hrule hover hrh hmoved, fun hover hfree hstill => ?_⟩
    · exact hends.congr fun m _ => ringSetReply_of_inUse hrule hover hrd hmoved ((ringInUse_takeEntry _ s _).trans huse)
    · refine hends.congr fun m _ => (ringSetReply_of_set (s := takeEntry m.h.sq.val s) hrule hover (fun hrd hm => ?_) hstill).trans ?_
      · exact (ringInUse_takeEntry _ s _).trans (hfree hrd hm)
      · rw [Ring.set_eq]
        rfl
  case routes =>
    have hends : Ends (.netSetRoutes h src first count) s (routesReply src first count) := ends_of rfl hs rfl
    refine hends.congr fun m _ => ?_
    have hbytes : (takeEntry m.h.sq.val s).bytesAt src count = s.bytesAt src count := bytesAt_takeEntry _ s src count
    rw [routesReply_of_rule (takeEntry m.h.sq.val s) hsrc h1 hlast hon3 ht hon4 hgood (by rw [hbytes]; exact hb), hbytes]
    rfl
  case devnum =>
    intro held
    have hends : Ends (.netSetDevnum h n) s (devnumReply n) := ends_of rfl hs rfl
    refine ⟨fun hheld => hends.congr fun m _ => ?_, fun hheld => hends.congr fun m _ => devnumReply_of_free _ hn hheld⟩
    unfold devnumReply
    rw [if_neg (Nat.not_le.mpr hn)]
    exact if_pos hheld

end Sys2Proof.Machine
end

section
/-! Training and loss of a link, its rows without frames, and the time port (R360, R362, R367, R369–R372, R378, R383,
R387, R546). -/

namespace Sys2Proof.Machine

/-! ### Ports that train (R360, R363, R369) -/

theorem portOn_iff (s : State) (p : Nat) :
    s.portOn p = true ↔ s.isOn 3 = true ∧ (s.jport p).enabled = true ∧ (s.jport p).loopback = 0 := by
  simp [State.portOn, and_assoc]

theorem portOn_eq_false {s : State} {p : Nat} (h : ¬(s.isOn 3 = true ∧ (s.jport p).enabled = true ∧ (s.jport p).loopback = 0)) :
    s.portOn p = false := by
  rw [← Bool.not_eq_true, portOn_iff]
  exact h

section
variable {p : JvlPort} {lane : Fin 4} {s : State}

theorem exec_signalDetect (p : JvlPort) (lane : Fin 4) (s : State) : exec (.signalDetect p lane) s = .next (
    if s.portOn p.val = true ∧ (s.jport p.val).st = .detect then
      s.setJport p.val { (s.jport p.val).clear with st := .lock, since := s.now } else s) := by
  refine congrArg Host.Outcome.next (if_congr ?_ rfl rfl)
  simp only [Bool.and_eq_true, decide_eq_true_eq, lane.isLt, and_true]

theorem exec_blockLock (p : JvlPort) (lane : Fin 4) (s : State) : exec (.blockLock p lane) s = .next (
    if s.portOn p.val = true ∧ ((s.jport p.val).st = .lock ∨ (s.jport p.val).st = .config ∨ (s.jport p.val).st = .speed)
        ∧ lane.val ∉ (s.jport p.val).lockedLanes then
      s.setJport p.val { s.jport p.val with lockedLanes := (s.jport p.val).lockedLanes ++ [lane.val] } else s) := by
  refine congrArg Host.Outcome.next (if_congr ?_ rfl rfl)
  simp [and_assoc, or_assoc]

end

/-! ### What a training set teaches (R369) -/

theorem learn_tsId (j : Jvl) (lane l port dev gens feat st : Nat) (inv ack dnv : Bool) :
    ∃ k, j.learn lane inv (.tsId l port dev gens feat st ack dnv) = k
    ∧ (lane, l) ∈ k.laneIds ∧ (∀ e ∈ j.laneIds, e.1 ≠ lane → e ∈ k.laneIds) ∧ k.peerDev = dev ∧ k.peerDnv = dnv ∧ k.peerGens = gens
    ∧ k.peerFeat = feat ∧ (lane ∈ k.acks ↔ ack = true ∨ lane ∈ j.acks) ∧ (inv = true → k.polarity = j.polarity ||| 2 ^ lane) ∧ k.st = j.st
    ∧ tget (none, 0) k.idRun lane = (some (.tsId l port dev gens feat st ack dnv),
      if (tget (none, 0) j.idRun lane).1 = some (.tsId l port dev gens feat st ack dnv) then (tget (none, 0) j.idRun lane).2 + 1 else 1) := by
  refine ⟨_, rfl, List.mem_cons_self, fun e he hne => List.mem_cons_of_mem _ (List.mem_filter.mpr ⟨he, by simpa using hne⟩),
    rfl, rfl, rfl, rfl, ?_, fun hinv => if_pos hinv, rfl, by simp only [Jvl.learn, Jvl.noteId, tget_tset_self]⟩
  show lane ∈ (if ack && !j.acks.contains lane then j.acks ++ [lane] else j.acks) ↔ _
  by_cases hin : lane ∈ j.acks
  · simp [hin]
  · cases ack <;> simp [hin]

theorem learn_tsCfg (j : Jvl) (lane a b c d : Nat) (inv : Bool) :
    j.learn lane inv (.tsCfg a b c d) = { j with
      advert := tset 0 (tset 0 (tset 0 (tset 0 [] 0 a) 1 b) 2 c) 3 d
      cfgs := if j.advert = tset 0 (tset 0 (tset 0 (tset 0 [] 0 a) 1 b) 2 c) 3 d then tset 0 j.cfgs lane (tget 0 j.cfgs lane + 1)
        else tset 0 [] lane 1 } := by
  unfold Jvl.learn
  dsimp only
  split
  · next h => rw [← h]
  · rfl

/-- A training set leaves the state of training and its start. -/
theorem learn_keeps (j : Jvl) (lane : Nat) (inv : Bool) (ts : TrainSet) :
    (j.learn lane inv ts).st = j.st ∧ (j.learn lane inv ts).since = j.since := by
  cases ts with
  | tsId => exact ⟨rfl, rfl⟩
  | tsCfg a b c d =>
    rw [learn_tsCfg]
    exact ⟨rfl, rfl⟩

/-! ### TRAIN (R369–R372, R546) -/

/-- A port as a training set leaves it, before it moves on: CONFIG once an end lane has come in LOCK. -/
def Jvl.taught (j : Jvl) (lane : Nat) (inv : Bool) (ts : TrainSet) (now : Nat) : Jvl :=
  if j.st = .lock ∧ ∃ e ∈ (j.learn lane inv ts).laneIds, e.1 = 0 ∨ e.1 = 3 then { j.learn lane inv ts with st := .config, since := now }
  else j.learn lane inv ts

section
variable {p : JvlPort} {lane : Fin 4} {inv : Bool} {ts : TrainSet} {s : State}

theorem exec_train_of_off (hoff : s.portOn p.val = false) : exec (.train p lane inv ts) s = .next s :=
  congrArg _ (if_pos (by simp [hoff]))

section
variable (hon : s.portOn p.val = true)
include hon

theorem exec_train_of_active (hact : (s.jport p.val).st = .active) :
    exec (.train p lane inv ts) s = .next (portLoss p.val 4 .lock s) :=
  congrArg _ ((if_neg (by simp [hon])).trans (if_pos hact))

theorem exec_train_of_unlocked (hact : (s.jport p.val).st ≠ .active) (hlane : lane.val ∉ (s.jport p.val).lockedLanes) :
    exec (.train p lane inv ts) s = .next s :=
  congrArg _ ((if_neg (by simp [hon])).trans ((if_neg hact).trans (if_pos (by simp [hlane]))))

/-- On a locked lane a port learns, and moves on where it trains. -/
theorem exec_train_of_locked (hact : (s.jport p.val).st ≠ .active) (hlane : lane.val ∈ (s.jport p.val).lockedLanes) :
    exec (.train p lane inv ts) s = .next (
      if ((s.jport p.val).taught lane.val inv ts s.now).st = .lock ∨ ((s.jport p.val).taught lane.val inv ts s.now).st = .config
          ∨ ((s.jport p.val).taught lane.val inv ts s.now).st = .speed then
        trainOn p.val (s.setJport p.val ((s.jport p.val).taught lane.val inv ts s.now)) else s) := by
  have htaught : (if ((s.jport p.val).learn lane.val inv ts).st = .lock
        && ((s.jport p.val).learn lane.val inv ts).laneIds.any (fun e => e.1 == 0 || e.1 == 3) then
      { (s.jport p.val).learn lane.val inv ts with st := .config, since := s.now } else (s.jport p.val).learn lane.val inv ts)
      = (s.jport p.val).taught lane.val inv ts s.now := by
    refine if_congr ?_ rfl rfl
    rw [(learn_keeps _ _ _ _).1]
    simp
  refine congrArg _ ((if_neg (by simp [hon])).trans ((if_neg hact).trans ((if_neg (by simp [hlane])).trans ?_)))
  dsimp only at htaught ⊢
  rw [htaught]
  exact if_congr (by simp [or_assoc]) rfl rfl

end

end

theorem taught_eq (j : Jvl) (lane : Nat) (inv : Bool) (ts : TrainSet) (now : Nat) : j.taught lane inv ts now =
    let k := j.learn lane inv ts
    let st := if j.st = .lock ∧ ∃ e ∈ k.laneIds, e.1 = 0 ∨ e.1 = 3 then JvlSt.config else j.st
    { k with st, since := if st = j.st then j.since else now } := by
  obtain ⟨hst, hsince⟩ := learn_keeps j lane inv ts
  unfold Jvl.taught
  dsimp only
  split
  · next h => rw [if_neg (by simp [h.1])]
  · rw [if_pos rfl, ← hst, ← hsince]

theorem taught_of_ne_lock {j : Jvl} (h : j.st ≠ .lock) (lane : Nat) (inv : Bool) (ts : TrainSet) (now : Nat) :
    j.taught lane inv ts now = j.learn lane inv ts := if_neg fun hc => h hc.1

/-- A port trains on from a state of training, what it was taught in force. -/
theorem trainOn_eq (p : Nat) (s : State) (k : Jvl) : trainOn p (s.setJport p k) =
    if (k.st = .config ∨ k.st = .speed) ∧ k.configured = true then
      if s.dupPeer k then { s.setJport p k with boot := { s.boot with dupSeen := true, dupPorts := s.boot.dupPorts ||| 2 ^ p } }
      else
        let t := (s.setJport p k).setJport p { k.advance with since := s.now }
        if k.advance.st = .active then linkBack p t else t
    else s.setJport p k := by
  unfold trainOn
  dsimp only
  rw [State.jport_setJport]
  exact if_congr (by simp) rfl rfl

theorem jport_setJport_setJport (p q : Nat) (s : State) (k l : Jvl) (h : q ≠ p) :
    ((s.setJport p k).setJport p l).jport q = s.jport q :=
  (State.jport_setJport_ne _ _ _ _ h).trans (State.jport_setJport_ne _ _ _ _ h)

theorem dupPeer_iff (s : State) (k : Jvl) :
    s.dupPeer k = true ↔ s.sys.dnv = true ∧ k.peerDnv = true ∧ k.peerDev = s.sys.devnum := by
  simp [State.dupPeer, and_assoc]

theorem advance_of_speeds {k : Jvl} (h : k.gen = 1 ∧ k.genMax = 2 ∧ k.peerGens.testBit 1 = true) :
    k.advance = { k with st := .speed, gen := 2, lockedLanes := [], laneIds := [], acks := [], cfgs := [] } :=
  if_pos (by simpa [and_assoc] using h)

theorem advance_of_not_speeds {k : Jvl} (h : ¬(k.gen = 1 ∧ k.genMax = 2 ∧ k.peerGens.testBit 1 = true)) : k.advance = k.activate :=
  if_neg (by simpa [and_assoc] using h)

/-! ### Lane numbers (R362) -/

theorem isReversed_iff (j : Jvl) : j.isReversed = true ↔ j.laneIds ≠ [] ∧ ∀ e ∈ j.laneIds, e.1 + e.2 = 3 := by
  simp [Jvl.isReversed]

theorem mem_logical_iff (j : Jvl) (l : Nat) :
    l ∈ j.logical ↔ ∃ n, (n, l) ∈ j.laneIds ∧ n ∈ j.lockedLanes ∧ (if j.isReversed = true then n + l = 3 else n = l) := by
  have hlined (e : Nat × Nat) : e ∈ j.lined ↔ e ∈ j.laneIds ∧ (if j.isReversed = true then e.1 + e.2 = 3 else e.1 = e.2) := by
    rw [Jvl.lined, List.mem_filter]
    cases j.isReversed <;> simp
  simp only [Jvl.logical, List.mem_map, List.mem_filter, hlined, List.contains_iff_mem]
  constructor
  · rintro ⟨⟨n, m⟩, ⟨⟨hin, hrow⟩, hlock⟩, rfl⟩
    exact ⟨n, hin, hlock, hrow⟩
  · rintro ⟨n, hin, hlock, hrow⟩
    exact ⟨(n, l), ⟨⟨hin, hrow⟩, hlock⟩, rfl⟩

/-! ### Links back and lost (R372, R383) -/

theorem linkBack_of_empty {p : Nat} {s : State}
    (haway : ((tkeys s.sys.routes).filter fun d => tget 0xFF s.sys.routes d != p && !s.reaches d) = []) :
    linkBack p s = if ((tkeys s.sys.routes).filter fun d => tget 0xFF s.sys.routes d == p) = [] then s
      else tellPeers p (.back ((tkeys s.sys.routes).filter fun d => tget 0xFF s.sys.routes d == p)) s := by
  have h : ((tkeys s.sys.routes).filter fun d => !s.beyondPort p d && !s.reaches d) = [] := haway
  unfold linkBack
  rw [h]
  exact if_pos rfl

theorem timedOut_iff (j : Jvl) (now : Nat) : j.timedOut now = true ↔
    (j.st = .lock ∧ j.since + 20000 * 11000 ≤ now) ∨ (j.st = .config ∧ j.since + 20000 * 12000 ≤ now)
      ∨ (j.st = .speed ∧ j.since + 20000 * 14000 ≤ now) := by
  unfold Jvl.timedOut
  cases j.st <;> simp [JvlSt.limit, us]

theorem exec_trainingTimeout (p : JvlPort) (s : State) : exec (.trainingTimeout p) s = .next (
    if (s.jport p.val).timedOut s.now then s.setJport p.val { (s.jport p.val).clear with st := .detect, since := s.now } else s) := rfl

theorem exec_linkLoss (p : JvlPort) (cause : Fin 6) (s : State) : exec (.linkLoss p cause) s = .next (
    if (s.jport p.val).st = .active ∧ (cause.val = 1 ∨ cause.val = 2 ∨ cause.val = 4
        ∨ (cause.val = 3 ∧ ∃ n ∈ (s.jport p.val).p.tried ++ (s.jport p.val).q.tried, 8 ≤ n)) then portLoss p.val cause.val .lock s
    else s) := by
  refine congrArg Host.Outcome.next (if_congr ?_ rfl rfl)
  have hworn : (s.jport p.val).wornOut = true ↔ ∃ n ∈ (s.jport p.val).p.tried ++ (s.jport p.val).q.tried, 8 ≤ n := by
    rw [Jvl.wornOut, List.any_eq_true]
    simp only [decide_eq_true_eq]
  simp only [Bool.and_eq_true, Bool.or_eq_true, decide_eq_true_eq, hworn, and_assoc]
  refine and_congr_right fun _ => ?_
  constructor
  · rintro ⟨hlo, hhi, h⟩
    rcases h with h | h
    · omega
    · by_cases h3 : cause.val = 3
      · exact .inr (.inr (.inr ⟨h3, h⟩))
      · omega
  · rintro (h | h | h | ⟨h, hex⟩)
    · omega
    · omega
    · omega
    · exact ⟨by omega, by omega, .inr hex⟩

theorem portLoss_of_down {p cause : Nat} {after : JvlSt} {s : State} (h : (s.jport p).st ≠ .active) :
    portLoss p cause after s = s.setJport p { s.jport p with st := after, since := s.now } := if_pos h

theorem portLoss_of_active {p cause : Nat} {after : JvlSt} {s : State} (h : (s.jport p).st = .active) :
    portLoss p cause after s =
      each (fun k u => doubtPlate k 3 (le 1 p ++ le 1 cause ++ le 2 (s.jport p).peerDev ++ pad 28) u)
        (s.spanRoots.filter (s.rootLoses (s.beyondPort p)))
        (tellLost p (s.devsBeyond p) (forgetCut (s.beyondPort p) (loseSources (fun a => a.source == 3 && a.port == p) id
          (cutPhases (s.beyondPort p) (each cutChan ((s.chans.filter fun e => s.crosses p e.2).map Prod.fst)
            (setSum 7 ((s.setJport p { (s.jport p).clear with st := after, since := s.now, cause }).modJctr p fun c =>
              { c with retrains := c.retrains.bump }))))))) := if_neg (not_not.mpr h)

/-! ### Channels that lose their link (R383) -/

theorem bound_disableChan (ch : Nat) (storm : Bool) (s : State) : ((disableChan ch storm s).chan ch).bound = (s.chan ch).bound := by
  simp only [disableChan]
  generalize hc : (ite ((s.chan ch).kind = 2) _ _ : Channel) = c
  have hbound : c.bound = (s.chan ch).bound := by
    subst hc
    split <;> rfl
  generalize hu : State.modChCtr _ ch _ = u
  have huc : u.chan ch = c := by rw [← hu]; exact State.chan_setChan ..
  generalize (ite ((s.chan ch).kind = 2) _ _ : Nat) = n
  obtain ⟨x, hx, -⟩ := setSum_eq (show 6 < 32 by decide) (returnCredits ch n u)
  obtain ⟨a, b, hret⟩ := chan_returnCredits ch n u
  rw [hx]
  exact (congrArg Channel.bound hret).trans ((congrArg Channel.bound huc).trans hbound)

theorem burins_disableChan (ch : Nat) (storm : Bool) (s : State) : (disableChan ch storm s).burins = s.burins := by
  unfold disableChan
  dsimp only
  generalize (ite ((s.chan ch).kind = 2) _ _ : Nat) = n
  obtain ⟨x, hx, -⟩ := setSum_eq (show 6 < 32 by decide) (returnCredits ch n _)
  rw [hx]
  exact keeps_of_returnCredits (f := State.burins) (fun _ _ => rfl) (fun _ _ => rfl) ch n _

theorem cutChan_spec (ch : Nat) (s : State) : ∃ t, cutChan ch s = t ∧ (t.chan ch).ovfFlag = true ∧ (t.chan ch).cut = true
    ∧ (t.chan ch).con = [] ∧ (t.chan ch).inFlight = [] ∧ (t.chan ch).bound = (s.chan ch).bound ∧ t.burins = s.burins := by
  obtain ⟨-, hovf, -⟩ := disableChan_spec ch false s
  have hchan : (cutChan ch s).chan ch =
      { (disableChan ch false s).chan ch with con := [], inFlight := [], credFlight := 0, cut := true } := State.chan_setChan ..
  refine ⟨_, rfl, ?_⟩
  rw [hchan]
  exact ⟨hovf.trans (Bool.or_true _), rfl, rfl, rfl, bound_disableChan ch false s, burins_disableChan ch false s⟩

/-! ### Rows without frames (R367, R378) -/

theorem exec_alignRowSend (p : JvlPort) (s : State) : exec (.alignRowSend p) s = .next (
    if (s.jport p.val).st = .active ∧ 16383 ≤ (s.jport p.val).line.sinceAlign ∧ true ∉ (s.jport p.val).line.whole then
      s.setJport p.val { (s.jport p.val).askRow true with alignRows := (s.jport p.val).alignRows + 1 } else s) := by
  refine congrArg Host.Outcome.next (if_congr ?_ rfl rfl)
  simp [and_assoc]

/-! ### The time port (R387) -/

theorem exec_timePortBringup (tenG up : Bool) (s : State) : exec (.timePortBringup tenG up) s = .next (
    if s.isOn 3 = true ∧ s.timePort.enabled = true ∧ s.timePort.loopback = 0 ∧ s.timePort.up = false ∧ s.timePort.trying10 = tenG then
      if up then { s with timePort := { s.timePort with up := true, tenG } }
      else if tenG = true ∧ s.now < s.timePort.tryAt + 20000 * 50000 then s
      else { s with timePort := { s.timePort with trying10 := !tenG, tryAt := s.now } }
    else s) := by
  have hus : us 50000 = 20000 * 50000 := rfl
  show execTimePortBringup tenG up s = _
  unfold execTimePortBringup
  dsimp only
  refine congrArg Host.Outcome.next ?_
  by_cases h : s.isOn 3 = true ∧ s.timePort.enabled = true ∧ s.timePort.loopback = 0 ∧ s.timePort.up = false ∧ s.timePort.trying10 = tenG
  · have htries : ¬(!s.isOn 3 || !s.timePort.enabled || s.timePort.loopback ≠ 0 || s.timePort.up || s.timePort.trying10 != tenG) = true := by
      obtain ⟨hon, hen, hlb, hup, htry⟩ := h
      simp [hon, hen, hlb, hup, htry]
    rw [if_neg htries, if_pos h, hus]
    simp only [Bool.and_eq_true, decide_eq_true_eq]
  · rw [if_neg h, if_pos]
    by_contra hc
    simp only [Bool.or_eq_true, Bool.not_eq_true', decide_eq_true_eq, bne_iff_ne, not_or, Bool.not_eq_false, ne_eq, not_not,
      Bool.not_eq_true, and_assoc] at hc
    exact h hc

/-- A training set on a locked lane of a port that trains (R370, R371, R546): it stays, shows that both ends carry one number,
goes on to generation 2, or becomes ACTIVE. -/
theorem exec_train_of_training {p : JvlPort} {lane : Fin 4} {inv : Bool} {ts : TrainSet} {s : State} (hon : s.portOn p.val = true)
    (hst : (s.jport p.val).st = .lock ∨ (s.jport p.val).st = .config ∨ (s.jport p.val).st = .speed)
    (hlane : lane.val ∈ (s.jport p.val).lockedLanes) :
    exec (.train p lane inv ts) s = .next (trainOn p.val (s.setJport p.val ((s.jport p.val).taught lane.val inv ts s.now))) := by
  have hact : (s.jport p.val).st ≠ .active := by rcases hst with h | h | h <;> simp [h]
  rw [exec_train_of_locked hon hact hlane, if_pos]
  rw [taught_eq]
  dsimp only
  split
  · exact .inr (.inl rfl)
  · exact hst

section
variable {p : Nat} {s : State} {k : Jvl}

theorem trainOn_of_waiting (h : k.st = .lock ∨ k.configured = false) : trainOn p (s.setJport p k) = s.setJport p k := by
  rw [trainOn_eq, if_neg]
  rintro ⟨hst, hconf⟩
  rcases h with h | h
  · rcases hst with hst | hst <;> simp [h] at hst
  · simp [h] at hconf

variable (hst : k.st = .config ∨ k.st = .speed) (hconf : k.configured = true)
include hst hconf

theorem trainOn_of_clash (h : s.dupPeer k = true) : trainOn p (s.setJport p k) =
    { s.setJport p k with boot := { s.boot with dupSeen := true, dupPorts := s.boot.dupPorts ||| 2 ^ p } } := by
  rw [trainOn_eq, if_pos ⟨hst, hconf⟩, if_pos h]

theorem trainOn_of_advance (h : ¬s.dupPeer k = true) : trainOn p (s.setJport p k) =
    if k.advance.st = .active then linkBack p ((s.setJport p k).setJport p { k.advance with since := s.now })
    else (s.setJport p k).setJport p { k.advance with since := s.now } := by
  rw [trainOn_eq, if_pos ⟨hst, hconf⟩, if_neg h]

end

/-- Settles O58: each row by the state of its port, and what a training set, a loss and a lost channel leave. -/
theorem linkTraining : Obligations.LinkTraining := by
  unfold Obligations.LinkTraining
  refine ⟨fun p lane s => ?detect, fun j => ⟨_, rfl, rfl, rfl, rfl, rfl, rfl, rfl, rfl, rfl, rfl, rfl, rfl, rfl, rfl, rfl, rfl⟩,
    learn_tsId, learn_tsCfg, fun p lane inv ts s => ?train, fun j => ⟨isReversed_iff j, mem_logical_iff j⟩,
    fun p s => ?back, fun p s => ?timeout, fun p cause s => ?loss, fun p cause after s => ⟨portLoss_of_down, portLoss_of_active⟩,
    cutChan_spec, fun p s => ?rows, fun tenG up s => ?bringup, fun ip s => ?time⟩
  case detect =>
    intro j on
    have hon : s.portOn p.val = true ↔ on := portOn_iff s p.val
    rw [exec_signalDetect, exec_blockLock]
    refine ⟨fun h => congrArg _ (if_neg ?_), fun ho hst => congrArg _ (if_pos ⟨hon.mpr ho, hst⟩), fun h => congrArg _ (if_neg ?_),
      fun ho hlane hst => congrArg _ (if_pos ⟨hon.mpr ho, hst, hlane⟩)⟩
    · rintro ⟨ho, hst⟩
      exact h.elim (fun hn => hn (hon.mp ho)) fun hn => hn hst
    · rintro ⟨ho, hst, hlane⟩
      rcases h with h | h | h | h | h
      · exact h (hon.mp ho)
      · exact hlane h
      · rcases hst with hst | hst | hst <;> exact absurd (h.symm.trans hst) (by decide)
      · rcases hst with hst | hst | hst <;> exact absurd (h.symm.trans hst) (by decide)
      · rcases hst with hst | hst | hst <;> exact absurd (h.symm.trans hst) (by decide)
  case train =>
    intro j on k st clash
    have hon : s.portOn p.val = true ↔ on := portOn_iff s p.val
    refine ⟨fun hoff => exec_train_of_off (portOn_eq_false hoff), fun ho => exec_train_of_active (hon.mpr ho), fun ho hact h => ?_,
      fun ho hst hlane => ?_⟩
    · by_cases hlane : lane.val ∈ j.lockedLanes
      · have hst := h.resolve_left (not_not.mpr hlane)
        have hlock : j.st ≠ .lock := by rcases hst with hst | hst <;> simp [hst]
        rw [exec_train_of_locked (hon.mpr ho) hact hlane, taught_of_ne_lock hlock, (learn_keeps _ _ _ _).1]
        exact congrArg _ (if_neg (by rcases hst with hst | hst <;> simp [j, hst]))
      · exact exec_train_of_unlocked (hon.mpr ho) hact hlane
    · intro k' speeds
      have htaught : (s.jport p.val).taught lane.val inv ts s.now = k' := taught_eq ..
      have hexec := exec_train_of_training (inv := inv) (ts := ts) (hon.mpr ho) hst hlane
      rw [htaught] at hexec
      have hmoved (hne : st ≠ .lock) : k'.st = .config ∨ k'.st = .speed := by
        have hstep : st = .config ∨ st = j.st := by
          simp only [st]
          split
          · exact .inl rfl
          · exact .inr rfl
        rcases hstep with h | h
        · exact .inl h
        · exact (hst.resolve_left fun hl => hne (h.trans hl)).imp h.trans h.trans
      have hother (q : Nat) (hq : q ≠ p.val) (l : Jvl) : ((s.setJport p.val k').setJport p.val l).jport q = s.jport q :=
        jport_setJport_setJport _ _ _ _ _ hq
      refine ⟨fun hw => ?_, fun hne hconf hclash => ?_, fun hne hconf hclash hsp => ?_, fun hne hconf hclash hsp => ?_⟩
      · exact hexec.trans (congrArg _ (trainOn_of_waiting hw))
      · refine ⟨_, hexec.trans (congrArg _ (trainOn_of_clash (hmoved hne) hconf ((dupPeer_iff s k').mpr hclash))), ?_, ?_, rfl⟩
        · exact State.jport_setJport _ _ _
        · exact fun q hq => State.jport_setJport_ne _ _ _ _ hq
      · have hadv : k'.advance = _ := advance_of_speeds hsp
        refine ⟨_, hexec.trans (congrArg _ ((trainOn_of_advance (hmoved hne) hconf fun hc => hclash ((dupPeer_iff s k').mp hc)).trans
          (if_neg (by rw [hadv]; simp)))), fun q hq => hother q hq _, ?_⟩
        rw [State.jport_setJport, hadv]
      · have hadv : k'.advance = _ := advance_of_not_speeds hsp
        refine ⟨_, hexec.trans (congrArg _ ((trainOn_of_advance (hmoved hne) hconf fun hc => hclash ((dupPeer_iff s k').mp hc)).trans
          (if_pos (by rw [hadv]; rfl)))), fun q hq => hother q hq _, ?_⟩
        rw [State.jport_setJport, hadv]
        rfl
  case back =>
    intro there away
    refine ⟨fun hthere haway => ?_, fun hthere haway => ?_⟩
    · rw [linkBack_of_empty haway, if_pos hthere]
    · rw [linkBack_of_empty haway, if_neg hthere]
  case timeout =>
    intro j over_
    rw [exec_trainingTimeout]
    exact ⟨fun h => congrArg _ (if_neg fun ht => h ((timedOut_iff _ _).mp ht)), fun h => congrArg _ (if_pos ((timedOut_iff _ _).mpr h))⟩
  case loss =>
    intro j comes
    rw [exec_linkLoss]
    refine ⟨fun hact hcomes => congrArg _ (if_pos ⟨hact, hcomes⟩), fun h => congrArg _ (if_neg ?_)⟩
    rintro ⟨hact, hcomes⟩
    exact h.elim (fun hn => hn hact) fun hn => hn hcomes
  case rows =>
    intro j due
    refine ⟨fun hst => ⟨congrArg _ (if_pos hst), ?_, congrArg _ (if_neg hst)⟩, fun hst => ⟨congrArg _ (if_neg (not_not.mpr hst)), fun hdue => ?_,
      fun hdue => ?_, congrArg _ (if_pos hst)⟩⟩
    · rw [exec_alignRowSend, if_neg fun h => hst h.1]
    · rw [exec_alignRowSend, if_neg fun h => hdue h.2]
    · rw [exec_alignRowSend, if_pos ⟨hst, hdue⟩]
      rfl
  case bringup =>
    intro t tries
    rw [exec_timePortBringup]
    refine ⟨fun h => congrArg _ (if_neg h), fun h hup => congrArg _ ((if_pos h).trans (if_pos hup)),
      fun h hup hten hearly => congrArg _ ((if_pos h).trans ((if_neg (by simp [hup])).trans (if_pos ⟨hten, hearly⟩))),
      fun h hup hlate => congrArg _ ((if_pos h).trans ((if_neg (by simp [hup])).trans (if_neg ?_)))⟩
    rintro ⟨hten, hearly⟩
    rcases hlate with hlate | hlate
    · simp [hten] at hlate
    · exact absurd hearly (Nat.not_lt.mpr hlate)
  case time =>
    intro t
    refine ⟨fun hup => ?_, fun hup => ⟨congrArg _ (if_pos hup), congrArg _ (if_pos hup), ?_⟩⟩
    · have hdown : ¬s.timePort.up = true := ne_true_of_eq_false hup
      exact ⟨congrArg _ (if_neg hdown), congrArg _ (if_neg fun h => hdown (Bool.and_eq_true_iff.mp h).1), congrArg _ (if_neg hdown)⟩
    · have hup' : s.timePort.up = true := hup
      exact congrArg _ (if_congr (by simp [hup', t]) rfl rfl)

end Sys2Proof.Machine
end

section
/-! Ring transfers, the interrupt timers of rings and the patrol scrub (R430, R439, R440, R444). -/

namespace Sys2Proof.Machine

/-! ### What a transfer leaves of its ring -/

/-- What a ring has handed to the host, and what the host has taken of it. -/
def Ring.handed (r : Ring) : Nat × Nat := (r.written, r.consumed)

/-- Writing into a device part hands nothing to the host. -/
theorem handed_ringPut {j : Nat} {bytes : List Byte} {tag : Option (Nat × Nat)} {s t : State} (h : ringPut j bytes tag s = some t)
    (k : Nat) : (t.ring k).handed = (s.ring k).handed ∧ t.out = s.out := by
  unfold ringPut at h
  split at h
  · rw [← Option.some.inj h]
    refine ⟨?_, rfl⟩
    by_cases hk : k = j
    · subst hk
      exact (congrArg Ring.handed (State.ring_setRing ..)).trans rfl
    · exact (congrArg Ring.handed (State.ring_setRing_ne _ _ _ _ hk)).trans rfl
  · cases h

theorem handed_flushEngine (k e : Nat) (s : State) : ((flushEngine e s).ring k).handed = (s.ring k).handed
    ∧ (flushEngine e s).out = s.out := by
  have howed (n : Nat) (s : State) : ((flushOwed e n s).ring k).handed = (s.ring k).handed ∧ (flushOwed e n s).out = s.out := by
    induction n generalizing s with
    | zero => exact ⟨rfl, rfl⟩
    | succ n ih =>
      unfold flushOwed
      split
      · exact ⟨rfl, rfl⟩
      · split
        · next t hput =>
          obtain ⟨hring, hout⟩ := handed_ringPut hput k
          exact ⟨(ih _).1.trans hring, (ih _).2.trans hout⟩
        · exact ⟨rfl, rfl⟩
  exact howed _ s

/-- Where the oldest record of a ring stands in its device part. -/
def Ring.oldestAt (r : Ring) (rec_ : RingRec) : Nat := r.dbase + 32 * ((r.woff + r.dlen / 32 - r.used + rec_.pads) % (r.dlen / 32))

/-- The bytes that a transfer hands over count in written, and they and written are written to the host's memory: the record
itself where it can be read. -/
theorem moveRecord_spec (k : Nat) (rec_ : RingRec) (rest : List RingRec) (ue : Bool) (s : State) : ∃ bytes : List Byte,
    (ue = false → s.poisoned ((s.ring k).oldestAt rec_) (32 * (rec_.bytes.length / 32)) = false → bytes = rec_.bytes)
    ∧ ((moveRecord k rec_ rest ue s).ring k).handed = ((s.ring k).written
        + 32 * padSlots ((s.ring k).written / 32 % ((s.ring k).hlen / 32)) (bytes.length / 32) + bytes.length, (s.ring k).consumed)
    ∧ tget [] (moveRecord k rec_ rest ue s).out.ring k =
      (s.ring k).hostWrites (padSlots ((s.ring k).written / 32 % ((s.ring k).hlen / 32)) (bytes.length / 32)) bytes := by
  have hengines (l : List Nat) (u : State) : ((each flushEngine l u).ring k).handed = (u.ring k).handed
      ∧ (each flushEngine l u).out = u.out :=
    ⟨each_keeps (fun u => (u.ring k).handed) (fun e u => (handed_flushEngine k e u).1) l u,
      each_keeps State.out (fun e u => (handed_flushEngine k e u).2) l u⟩
  have hraise (v : Nat) (c : Bool) (u : State) : (if c then raiseVec v u else u).rings = u.rings
      ∧ (if c then raiseVec v u else u).out = u.out := by
    obtain ⟨x, hx, -⟩ := raiseVec_eq v u
    cases c
    · exact ⟨rfl, rfl⟩
    · rw [if_pos rfl, hx]
      exact ⟨rfl, rfl⟩
  unfold moveRecord
  dsimp only
  generalize hbad : (ue || s.poisoned _ _) = bad
  generalize (if bad then noteUe _ s else s) = t
  generalize hbytes : (if bad then t.lostRec rec_ else rec_.bytes) = bytes
  refine ⟨bytes, fun hue hgood => ?_, ?_, ?_⟩
  · have hfalse : bad = false := by
      rw [← hbad, hue]
      exact hgood
    rw [← hbytes, hfalse]
    rfl
  · refine (hengines _ _).1.trans ?_
    rw [State.ring, (hraise _ _ _).1]
    cases rec_.tag <;> exact (congrArg Ring.handed (State.ring_setRing ..)).trans rfl
  · rw [(hengines _ _).2, (hraise _ _ _).2]
    exact tget_tset_self ..

theorem length_hostWrites (r : Ring) (pads : Nat) (bytes : List Byte) : (r.hostWrites pads bytes).length = pads + 2 := by
  simp [Ring.hostWrites]

/-! ### RING_TRANSFER (R439, R440) -/

/-- A ring as the device sees it once it has read consumed. -/
def Ring.seen (r : Ring) (v : Nat) : Ring :=
  if r.written < v ∨ v < r.consumed then (if r.lastBad = some v then r else { r with lastBad := some v, bad := r.bad.bump })
  else { r with consumed := v, lastBad := none }

theorem readConsumed_eq (r : Ring) (v : Nat) : r.readConsumed v = r.seen v := by
  unfold Ring.readConsumed Ring.seen
  exact if_congr (by simp) rfl rfl

theorem written_seen (r : Ring) (v : Nat) : (r.seen v).written = r.written ∧ (r.seen v).hostWrites = r.hostWrites
    ∧ (r.seen v).hlen = r.hlen ∧ (r.seen v).oldestAt = r.oldestAt := by
  unfold Ring.seen
  split
  · split <;> exact ⟨rfl, rfl, rfl, rfl⟩
  · exact ⟨rfl, rfl, rfl, rfl⟩

theorem lacks_iff (r : Ring) (rec_ : RingRec) : r.lacks rec_ = true ↔ r.hlen < r.written - r.consumed
    + 32 * (padSlots (r.written / 32 % (r.hlen / 32)) (rec_.bytes.length / 32) + rec_.bytes.length / 32) := by
  simp [Ring.lacks]

section
variable {k : Fin 64} {v : Nat} {ue : Bool} {s : State}

theorem exec_ringTransfer_of_idle (h : (s.ring k.val).recs = []
    ∨ ¬((s.ring k.val).host = true ∧ s.isOn 4 = true ∧ s.isOn 2 = true ∧ s.host.linkUp = true)) :
    exec (.ringTransfer k v ue) s = .next s := by
  refine congrArg Host.Outcome.next ?_
  dsimp only
  split
  · rfl
  · next rec_ rest hrecs =>
    have hreach := h.resolve_left (by rw [hrecs]; exact List.cons_ne_nil _ _)
    rw [if_pos]
    by_contra hc
    simp only [Bool.or_eq_true, Bool.not_eq_true', not_or, Bool.not_eq_false, and_assoc] at hc
    exact hreach hc

/-- A transfer reads consumed where the ring lacks room and the last read is a µs ago, and moves the oldest record where
room is then. -/
theorem exec_ringTransfer_of_reach {rec_ : RingRec} {rest : List RingRec} (hrecs : (s.ring k.val).recs = rec_ :: rest)
    (hreach : (s.ring k.val).host = true ∧ s.isOn 4 = true ∧ s.isOn 2 = true ∧ s.host.linkUp = true) {q : Ring}
    (hq : q = if (s.ring k.val).lacks rec_ = true ∧ ∀ t, (s.ring k.val).readAt = some t → t + 20000 ≤ s.now then
      { (s.ring k.val).seen v with readAt := some s.now } else s.ring k.val) :
    exec (.ringTransfer k v ue) s =
      .next (if q.lacks rec_ = true then s.setRing k.val q else moveRecord k.val rec_ rest ue (s.setRing k.val q)) := by
  obtain ⟨hhost, hon4, hon2, hup⟩ := hreach
  have hmay : (match (s.ring k.val).readAt with | some t => decide (t + us 1 ≤ s.now) | none => true) = true
      ↔ ∀ t, (s.ring k.val).readAt = some t → t + 20000 ≤ s.now := by
    cases (s.ring k.val).readAt <;> simp [us]
  have hread : (if (s.ring k.val).lacks rec_ && (match (s.ring k.val).readAt with | some t => decide (t + us 1 ≤ s.now) | none => true)
      then { (s.ring k.val).readConsumed v with readAt := some s.now } else s.ring k.val) = q := by
    rw [hq, readConsumed_eq]
    exact if_congr (by rw [Bool.and_eq_true, hmay]) rfl rfl
  refine congrArg Host.Outcome.next ?_
  dsimp only
  rw [hrecs]
  dsimp only
  rw [if_neg (by simp [hhost, hon4, hon2, hup])]
  exact (congrArg (fun q : Ring => if q.lacks rec_ = true then s.setRing k.val q else moveRecord k.val rec_ rest ue (s.setRing k.val q)) hread)

end

/-! ### The interrupt timer and the scrub -/

theorem exec_ringInterruptTimer (k : Fin 64) (s : State) : exec (.ringInterruptTimer k) s = .next (
    if (s.ring k.val).ien = true ∧ (s.ring k.val).itime ≠ 0
        ∧ ∃ t, (s.ring k.val).unsigAt = some t ∧ t + 20000 * (s.ring k.val).itime ≤ s.now then
      raiseVec (s.ring k.val).vec (s.setRing k.val { s.ring k.val with unsigAt := none, unsig := 0 }) else s) :=
  congrArg Host.Outcome.next (if_congr (timerDue_iff _ _ _ _) rfl rfl)

/-- A granule that the scrub cannot correct. -/
def scrubBad (g : Nat) (s : State) : State :=
  let s := noteUe (32 * g) s
  if s.mem.poison.contains g then s else { s with mem := { s.mem with poison := s.mem.poison ++ [g] } }

theorem scrubBad_spec (g : Nat) (s : State) : (scrubBad g s).mem.bytes = s.mem.bytes ∧ (scrubBad g s).mem.corrected = s.mem.corrected
    ∧ (∀ j, j ∈ (scrubBad g s).mem.poison ↔ j ∈ s.mem.poison ∨ j = g) ∧ (scrubBad g s).host.faultsum.getLsbD 9 = true := by
  obtain ⟨hbit, hmem⟩ := noteUe_spec (32 * g) s
  unfold scrubBad
  dsimp only
  split
  · next hin =>
    rw [hmem] at hin ⊢
    refine ⟨rfl, rfl, fun j => ⟨.inl, ?_⟩, hbit⟩
    rintro (hj | rfl)
    · exact hj
    · exact List.contains_iff_mem.mp hin
  · rw [hmem]
    exact ⟨rfl, rfl, fun j => by simp, hbit⟩

theorem each_scrubBad_spec : ∀ (l : List Nat) (s : State), (each scrubBad l s).mem.bytes = s.mem.bytes
    ∧ (each scrubBad l s).mem.corrected = s.mem.corrected
    ∧ (∀ j, j ∈ (each scrubBad l s).mem.poison ↔ j ∈ s.mem.poison ∨ j ∈ l)
    ∧ (l ≠ [] ∨ s.host.faultsum.getLsbD 9 = true → (each scrubBad l s).host.faultsum.getLsbD 9 = true)
  | [], s => ⟨rfl, rfl, fun j => by simp [each], fun h => h.resolve_left fun hn => hn rfl⟩
  | g :: l, s => by
    obtain ⟨hbytes, hcor, hpoison, hbit⟩ := scrubBad_spec g s
    obtain ⟨hbytes', hcor', hpoison', hbit'⟩ := each_scrubBad_spec l (scrubBad g s)
    refine ⟨hbytes'.trans hbytes, hcor'.trans hcor, fun j => ?_, fun _ => hbit' (.inr hbit)⟩
    rw [each, hpoison', hpoison, List.mem_cons, or_assoc]

theorem exec_patrolScrub_of_on {good bad : List Nat} {s : State} (hon : s.isOn 4 = true) : exec (.patrolScrub good bad) s =
    .next (each scrubBad (bad.filter fun g => decide (g < 2 ^ 25)) (each noteCorrected (good.filter fun g => decide (g < 2 ^ 25)) s)) :=
  congrArg Host.Outcome.next (if_neg (by simp [hon]))

theorem each_noteCorrected_keeps (l : List Nat) (s : State) : (each noteCorrected l s).mem.bytes = s.mem.bytes
    ∧ (each noteCorrected l s).mem.poison = s.mem.poison :=
  ⟨each_keeps (f := noteCorrected) (fun u => u.mem.bytes) (fun _ _ => rfl) l s, each_keeps (f := noteCorrected) (fun u => u.mem.poison) (fun _ _ => rfl) l s⟩

end Sys2Proof.Machine
end

section
/-! Wakes and entries of power domains (R432, R452–R458, R484). -/

namespace Sys2Proof.Machine

/-! ### Completing commands leaves the fault summary, but for QUEUE -/

theorem faultsum_closeSession (s : State) : (closeSession s).host.faultsum = s.host.faultsum := by
  have htell (dev : Nat) (m : ControlMsg) (u : State) : (tell dev m u).host = u.host :=
    keeps_of_tell State.host (fun _ _ => rfl) dev m u
  have hdrop (f : InFlight) (u : State) : (dropAsked f u).host = u.host := by
    unfold dropAsked
    split
    · exact each_keeps State.host (fun d u => htell d _ u) _ u
    · rfl
  have hput {k : Nat} {bytes : List Byte} {tag : Option (Nat × Nat)} {u t : State} (h : ringPut k bytes tag u = some t) :
      t.host = u.host := by
    unfold ringPut at h
    split at h
    · rw [← Option.some.inj h]
      rfl
    · cases h
  have hclose (src : Nat) (u : State) : (closeStream src u).host = u.host := by
    simp only [closeStream, closeBlock, State.modStream_host]
    split
    · rfl
    · split
      · next t h => rw [State.modStream_host, hput h]
      · rw [State.modStream_host]
  have hstop (l : List InFlight) : (stopTransfers (closeStreams (each dropAsked l s))).host = s.host := by
    rw [stopTransfers, closeStreams, each_keeps State.host hclose, each_keeps State.host hdrop]
  have hreset (u : State) : (resetQueues 0 false u).host.faultsum = u.host.faultsum := rfl
  have hmod (q : Nat) (f : SQ → SQ) (u : State) : (u.modSq q f).host.faultsum = u.host.faultsum := rfl
  unfold closeSession
  dsimp only
  split
  · rw [hmod, hreset, hstop]
  · rw [hreset, hstop]

theorem faultsum_finishHead {q : Nat} {f : InFlight} {rest : List InFlight} {s : State} (h : (s.sq q).flight = f :: rest) :
    (finishHead q s).host.faultsum = s.host.faultsum := by
  rcases Nat.lt_or_ge q 64 with hq | hq
  · obtain ⟨-, hsum, -⟩ := posted_keeps q f rest s
    rw [finishHead_of_host h hq]
    split
    · exact hsum
    · split
      · rw [faultsum_closeSession, hsum]
      · exact hsum
  · rw [finishHead_of_guest h hq, host_finishGuest]
    rfl

theorem faultsum_pump (s : State) : (pump s).host.faultsum = s.host.faultsum := by
  refine pump_invariant (P := fun t => t.host.faultsum = s.host.faultsum) (fun w t ht => ?_)
    (fun q f rest t ht h => (faultsum_finishHead h).trans ht) rfl
  obtain ⟨a, b, log, hm⟩ := setMode_eq_vectors .ready (endWaits w t)
  rw [hm]
  exact ht

/-- A bit of FAULTSUM stands. -/
def State.sums (s : State) (j : Nat) : Prop := s.host.faultsum.getLsbD j = true

theorem sums_of_host {s t : State} {j : Nat} (h : t.host = s.host) (hs : s.sums j) : t.sums j := by
  unfold State.sums
  rw [h]
  exact hs

theorem host_logRefusal (what status target : Nat) (why : Why) (s : State) : (logRefusal what status target why s).host = s.host := by
  obtain ⟨log, hl⟩ := logRefusal_eq what status target why s
  rw [hl]

theorem sums_noteFailure {j : Nat} (q status what target : Nat) (why : Why) {s : State} (hs : s.sums j) :
    (noteFailure q status what target why s).sums j := by
  have hlog := sums_of_host (host_logRefusal what status target why s) hs
  unfold noteFailure
  split
  · dsimp only
    split
    · rw [State.sums, getLsbD_setSum (by decide), Bool.or_eq_true]
      exact .inl hlog
    · exact hlog
  · exact hs

/-- A summary bit that stands stays while commands are decided. -/
theorem sums_decideFlights {j : Nat} (p : InFlight → Bool) (status : Nat) (result : InFlight → Nat) (why : Why) {s : State}
    (hs : s.sums j) : (decideFlights p status result why s).sums j := by
  unfold decideFlights
  refine each_invariant (P := fun u => u.sums j) (fun q u hu => ?_) _ hs
  refine each_invariant (P := fun u => u.sums j) (fun f u hu => ?_) _ (sums_of_host rfl hu)
  exact sums_noteFailure q status f.what f.target why hu

/-- It stays while requests for a domain complete. -/
theorem sums_settleDom {j : Nat} (d : Nat) (p : Nat → Bool) (status : Nat) (why : Why) {s : State} (hs : s.sums j) :
    (settleDom d p status why s).sums j := by
  unfold State.sums
  simp only [settleDom, faultsum_pump, apply_ite State.host, host_logRefusal, ite_self]
  exact sums_decideFlights _ _ _ _ hs

/-! ### The content of a domain leaves the domains -/

theorem domains_standZ (d : Nat) (st : ZState) (s : State) : (standZ d st s).domains = s.domains := by
  unfold standZ
  split
  · exact each_keeps State.domains (fun z u => State.modZ_domains u z _) _ s
  · rfl

/-- The chains of a port, the tones' first. -/
theorem eachChain_eq (f : Nat → Chain → Chain) (nn : Nat) (s : State) : ∃ u c,
    u = each (fun k u => u.modRot (nn * 16 + k) fun r => { r with chain := f 8 r.chain }) (List.range 16) s
    ∧ eachChain f nn s = { u with stipChains := c } := ⟨_, _, rfl, rfl⟩

theorem domains_eachChain (f : Nat → Chain → Chain) (nn : Nat) (s : State) : (eachChain f nn s).domains = s.domains := by
  obtain ⟨u, c, hu, heq⟩ := eachChain_eq f nn s
  have hkept : u.domains = s.domains := by
    rw [hu]
    exact each_keeps State.domains (fun k u => State.modRot_domains u _ _) _ s
  rw [heq]
  exact hkept

theorem domains_clearChains (nn : Nat) (s : State) : (clearChains nn s).domains = s.domains := by
  rw [clearChains, State.modAcqPort_domains, domains_eachChain]

theorem domains_resetDomain (d : Nat) (s : State) : (resetDomain d s).domains = s.domains := by
  have hqueue (q : Nat) (u : State) : (if q < 0x2000 then
        (u.modQueue q fun k => { owner := k.owner, claims := k.claims, floor := k.floor, returning := k.returning }).setTone q {}
      else ((u.modQueue q fun k => { owner := k.owner, claims := k.claims, floor := k.floor, returning := k.returning }).modZ (q - 0x2000)
        fun c => { st := .parked, ovc := c.ovc, mismatch := c.mismatch, unownedLatch := c.unownedLatch }).setZc (q - 0x2000) {}).domains
      = u.domains := by
    split <;> rfl
  unfold resetDomain
  split
  · rfl
  · split
    · rfl
    · split
      · rfl
      · split
        · rfl
        · dsimp only
          refine (each_keeps State.domains (fun nn u => (domains_clearChains nn _).trans (State.modAcqPort_domains u nn _)) _ _).trans ?_
          refine (each_keeps State.domains (fun k u => State.setRot_domains u k _) _ _).trans ?_
          rw [apply_ite State.domains, State.setZbank_domains, ite_self]
          refine (each_keeps State.domains hqueue _ _).trans ?_
          refine (each_keeps State.domains (fun p u => State.setPort_domains u p _) _ _).trans ?_
          exact each_keeps State.domains (fun b u => State.modBurin_domains u b _) _ s

theorem domains_loseContent (d : Nat) (s : State) : (loseContent d s).domains = s.domains := by
  rw [loseContent, domains_standZ, domains_resetDomain]

theorem domains_keepRetained (d : Nat) (s : State) : (keepRetained d s).domains = s.domains := by
  have htone (q : Nat) (u : State) : (if q < 0x2000 then u.modTone q fun t =>
      { t with track := 0, trackAt := 0, past := [], env := [], pend := none, winShot := 0, winIdx := 0 } else u).domains = u.domains := by
    split <;> rfl
  unfold keepRetained
  split
  · rfl
  · split
    · rfl
    · dsimp only
      refine (each_keeps State.domains (fun p u => State.modPort_domains u p _) _ _).trans ?_
      refine (each_keeps State.domains htone _ _).trans ?_
      exact each_keeps State.domains (fun b u => State.modBurin_domains u b _) _ s

/-! ### A wake ends -/

theorem dom_failWake_self (d : Nat) (s : State) : (failWake d s).dom d =
    { s.dom d with st := .off, failedStep := (s.dom d).step.code, wakeFailed := true, failed := (s.dom d).failed.bump } := by
  have hmem (u : State) : (if d = 4 && (s.dom d).step.code = 4 && (s.dom 4).fromOff then setSum 9 u else u).domains = u.domains := by
    split
    · exact keeps_of_setSum State.domains (fun _ _ => rfl) (by decide) u
    · rfl
  unfold failWake
  dsimp only
  rw [State.dom_of_domains (domains_settleDom _ _ _ _ _), State.dom_of_domains (domains_loseContent _ _), State.dom_modDom,
    State.dom_of_domains (hmem s)]

theorem dom_nowOn_self (d : Nat) (s : State) : (nowOn d s).dom d = { s.dom d with
    st := .on, wakeFailed := false, wakes := (s.dom d).wakes.bump, wakeUs := (s.now - (s.dom d).wakeStart) / 20000 } := by
  have hdom (u : State) : (injectDom d u).domains = u.domains := by
    simp only [injectDom, apply_ite State.domains, ite_self]
  have hports (l : List Nat) (u : State) : (each (fun nn s => s.modAcqPort nn fun a => { a with conv := s.now }) l u).domains = u.domains
      ∧ (each (fun nn s => s.modAcqPort nn fun a => { a with conv := s.now }) l u).now = u.now :=
    ⟨each_keeps State.domains (fun nn u => State.modAcqPort_domains u nn _) l u,
      each_keeps State.now (fun nn u => State.modAcqPort_now u nn _) l u⟩
  rw [nowOn, State.dom_of_domains (domains_settleDom _ _ _ _ _), State.dom_modDom, State.dom_of_domains ((hdom _).trans (hports _ s).1),
    (hports _ s).2]

theorem dom_enter (d target : Nat) (s : State) : (enter d target s).dom d =
    { s.dom d with st := .entering, target, isolated := (s.dom d).st == .retention } := by
  have hstand : (if target = 2 then standZ d .float s else s).dom d = s.dom d := by
    split
    · exact State.dom_of_domains (domains_standZ d .float s) d
    · rfl
  unfold enter
  dsimp only
  rw [State.dom_modDom, hstand]

/-- Training that fails sets MEM (R432). -/
theorem faultsum_failWake_mem (s : State) (hstep : (s.dom 4).step = .restore) (hoff : (s.dom 4).fromOff = true) :
    (failWake 4 s).host.faultsum.getLsbD 9 = true := by
  have hcond : (decide (4 = 4) && decide ((s.dom 4).step.code = 4) && (s.dom 4).fromOff) = true := by
    rw [hstep, hoff]
    rfl
  obtain ⟨x, hx, hbit, -⟩ := setSum_eq (k := 9) (by decide) s
  unfold failWake
  dsimp only
  rw [if_pos hcond]
  refine sums_settleDom _ _ _ _ ?_
  rw [hx]
  exact hbit

/-! ### Wake steps (R456, R457) -/

/-- A row of a wake: it does nothing but in its step, ends it in time, and fails it past its maximum. -/
theorem wakeStep_eq (d : Nat) (now next : WakeStep) (s : State) : wakeStep d now next s =
    if (s.dom d).st = .waking ∧ (s.dom d).step = now then
      if (s.dom d).stepStart + stepMax d (s.dom d).fromOff false now * 20000 < s.now then failWake d s
      else s.setDom d { s.dom d with step := next, stepStart := s.now }
    else s := by
  unfold wakeStep
  dsimp only
  by_cases h : (s.dom d).st = .waking ∧ (s.dom d).step = now
  · have hlate : (s.dom d).stepLate d false s.now = true ↔
        (s.dom d).stepStart + stepMax d (s.dom d).fromOff false now * 20000 < s.now := by
      rw [Domain.stepLate, decide_eq_true_eq, h.2]
    rw [if_neg (by simp [h.1, h.2]), if_pos h]
    exact if_congr hlate rfl rfl
  · rw [if_neg h]
    exact if_pos (by simpa using not_and_or.mp h)

theorem diesPass_iff (l : List (Nat × Nat × Nat)) : diesPass l = true ↔ ∀ x ∈ l, x.1 = 0 ∧ 13 ≤ x.2.1 ∧ 13 ≤ x.2.2 := by
  simp [diesPass, and_assoc]

theorem freshDomain_of_good {d : Nat} {i : RestoreInfo} {s : State} (h : i.badTiles = 0) :
    freshDomain d i s = calWake d false i (flushEnds (s.domEnd d) true (resetDomain d s)) := by
  unfold freshDomain reloadTiles
  rw [h]
  exact if_pos (by simp)

section
variable {d : Fin 24} {i : RestoreInfo} {s : State}

theorem exec_restore_of_other (h : (s.dom d.val).st ≠ .waking ∨ (s.dom d.val).step ≠ .restore) :
    exec (.restore d i) s = .next s := by
  refine congrArg Host.Outcome.next (if_pos ?_)
  rcases h with h | h <;> simp [h]

variable (hst : (s.dom d.val).st = .waking) (hstep : (s.dom d.val).step = .restore)
include hst hstep

theorem exec_restore_of_waking : exec (.restore d i) s = .next (
    if (s.dom d.val).stepStart + stepMax d.val (s.dom d.val).fromOff (decide (lostBanks i.banks ≠ 0)) .restore * 20000 < s.now then
      failWake d.val s
    else restoreDomain d.val i s) := by
  refine congrArg Host.Outcome.next ((if_neg (by simp [hst, hstep])).trans (if_congr ?_ rfl rfl))
  have hlost : (lostBanks i.banks != 0) = decide (lostBanks i.banks ≠ 0) := by
    by_cases h : lostBanks i.banks = 0 <;> simp [h]
  rw [Domain.stepLate, hstep, decide_eq_true_eq, hlost]

end

/-! ### The shut-down action (R484) -/

theorem zch_enter_of_ne {d target : Nat} {s : State} (h : target ≠ 2) : (enter d target s).zch = s.zch := by
  unfold enter
  rw [if_neg h]
  rfl

theorem st_standZ {d : Nat} (hd : 20 ≤ d) (st : ZState) (s : State) {z : Nat} (hz : z ∈ quadChans (d - 20)) :
    ((standZ d st s).z z).st = st := by
  unfold standZ
  rw [if_pos hd]
  refine each_reaches (P := fun u => (u.z z).st = st) (fun u => ?_) (fun k u hu => ?_) hz s
  · rw [State.z_modZ]
  · by_cases hk : z = k
    · subst hk
      rw [State.z_modZ]
    · rwa [State.z_modZ_ne _ _ _ _ hk]

theorem st_enter_off {d : Nat} (hd : 20 ≤ d) (s : State) {z : Nat} (hz : z ∈ quadChans (d - 20)) : ((enter d 2 s).z z).st = .float := by
  unfold enter
  rw [if_pos rfl]
  exact st_standZ hd .float s hz

section
variable {d : Nat} {s : State}

theorem shutDomain_of_on (h : (s.dom d).st = .on) : shutDomain d s = beginEntry d 2 s := by
  unfold shutDomain
  rw [h]

theorem shutDomain_of_off (h : (s.dom d).st = .off) : shutDomain d s = s := by
  unfold shutDomain
  rw [h]

theorem shutDomain_of_leaving (h : (s.dom d).st = .retention ∨ (s.dom d).st = .entering) : shutDomain d s = enter d 2 s := by
  unfold shutDomain
  rcases h with h | h <;> rw [h]

theorem dom_shutDomain (hoff : (s.dom d).st ≠ .off) (hon : (s.dom d).st ≠ .on) :
    (shutDomain d s).dom d = { s.dom d with st := .entering, target := 2, isolated := (s.dom d).st == .retention } := by
  cases hst : (s.dom d).st with
  | on => exact absurd hst hon
  | off => exact absurd hst hoff
  | retention => rw [shutDomain_of_leaving (.inl hst), dom_enter, hst]
  | entering => rw [shutDomain_of_leaving (.inr hst), dom_enter, hst]
  | waking =>
    have hshut : shutDomain d s = settleDom d (· == 0) stThermal (.thermal d) (enter d 2 s) := by
      unfold shutDomain
      rw [hst]
    rw [hshut, State.dom_of_domains (domains_settleDom _ _ _ _ _), dom_enter, hst]

end

theorem exec_shutdownAction_of_early {s : State} (h : ∀ t, s.house.shutAt = some t → s.now < t) :
    exec .shutdownAction s = .next s := by
  refine congrArg Host.Outcome.next ?_
  dsimp only
  split
  · next t ht => rw [if_pos (h t ht)]
  · rfl

theorem exec_shutdownAction_of_due {s : State} {t : Nat} (ht : s.house.shutAt = some t) (hdue : t ≤ s.now) :
    exec .shutdownAction s = .next (each shutDomain ((List.range 24).filter fun d => s.house.shutDoms.contains d).reverse
      { s with house := { s.house with shutAt := none, shutDoms := [] } }) := by
  refine congrArg Host.Outcome.next ?_
  dsimp only
  rw [ht]
  exact if_neg (Nat.not_lt.mpr hdue)

/-! ### Time-outs and entries -/

theorem exec_wakeTimeout (d : Fin 24) (s : State) : exec (.wakeTimeout d) s = .next (
    if (s.dom d.val).st = .waking ∧ (s.dom d.val).stepStart + stepMax d.val (s.dom d.val).fromOff false (s.dom d.val).step * 20000 ≤ s.now
    then failWake d.val s else s) :=
  congrArg Host.Outcome.next (if_congr (by simp only [Bool.and_eq_true, decide_eq_true_eq]) rfl rfl)

theorem dom_endEntry (d : Nat) (s : State) : (endEntry d s).dom d =
    { s.dom d with st := if (s.dom d).target = 2 then .off else .retention } := by
  unfold endEntry
  dsimp only
  split
  · rw [State.dom_of_domains (domains_loseContent _ _), State.dom_modDom]
  · rw [State.dom_of_domains (domains_keepRetained _ _), State.dom_modDom]

end Sys2Proof.Machine
end

section
/-! What a slow round has noted stays through doubts and stops (R30, R31, R469, R472, R474). -/

namespace Sys2Proof.Machine

/-! ### Operations that leave the housekeeping as it is -/

section
variable (s : State)

@[simp] theorem house_drainPort (p : Nat) : (drainPort p s).house = s.house := by
  simp only [drainPort, apply_ite State.house, State.modPort_house, ite_self]

@[simp] theorem house_endPlay (t : Nat) : (endPlay t s).house = s.house := by
  simp only [endPlay, house_drainPort, State.setTone_house, apply_ite State.house, State.modPort_house, ite_self]

@[simp] theorem house_drainZ (q : Nat) : (drainZ q s).house = s.house := by
  simp only [drainZ, apply_ite State.house, State.modZbank_house, ite_self]

@[simp] theorem house_endFast (z : Nat) : (endFast z s).house = s.house := by
  simp only [endFast, endFastAt, house_drainZ, State.modZ_house]

@[simp] theorem house_mute (p : Nat) : (mute p s).house = s.house := State.modPort_house s p _

@[simp] theorem house_discardQueue (res : Nat) : (discardQueue res s).house = s.house := rfl

@[simp] theorem house_zPark (z : Nat) : (zPark z s).house = s.house := by
  simp only [zPark, State.modZ_house, house_endFast]

@[simp] theorem house_zSafe (z : Nat) : (zSafe z s).house = s.house := by
  simp only [zSafe, zLoad, zLoadAt, apply_ite State.house, State.modZ_house, house_endFast, ite_self]

@[simp] theorem house_safeTone (t : Nat) : (safeTone t s).house = s.house := by
  simp only [safeTone, house_discardQueue, house_endPlay, house_mute]

@[simp] theorem house_safeRes (res : Nat) : (safeRes res s).house = s.house := by
  simp only [safeRes, apply_ite State.house, State.modRot_house, house_safeTone, house_discardQueue, house_zSafe, ite_self]

@[simp] theorem house_flagShared (key res : Nat) : (flagShared key res s).house = s.house := by
  simp only [flagShared, apply_ite State.house, State.modPort_house, ite_self]

@[simp] theorem house_markRoot (key : Nat) (flag : Bool) : (markRoot key flag s).house = s.house := by
  unfold markRoot
  dsimp only
  split <;> rfl

theorem house_swapWhere (p : Swap → Bool) : (swapWhere p s).house = s.house := by
  have hkernel (i : Nat) (u : State) : (swapKernel i u).house = u.house := rfl
  have hfir (i : Nat) (u : State) : (swapFir i u).house = u.house := by
    simp only [swapFir, State.modAcqPort_house, apply_ite State.house, State.modRot_house, ite_self]
  have hz (i : Nat) (u : State) : (swapZ i u).house = u.house := by simp only [swapZ, house_drainZ, State.modZbank_house]
  have hport (i : Nat) (u : State) : (swapPort i u).house = u.house := by simp only [swapPort, house_drainPort, State.modPort_house]
  unfold swapWhere
  dsimp only
  rw [each_keeps State.house hkernel, each_keeps State.house hfir, each_keeps State.house hz, each_keeps State.house hport]

theorem house_streamWrite (key shot : Nat) (bytes : List Byte) : (streamWrite key shot bytes s).house = s.house := by
  unfold streamWrite
  dsimp only
  split
  · split <;> rw [State.setRoot_house]
  · split
    · next t hput =>
      rw [State.modRoot_house]
      exact same_of_withoutReports (withoutReports_ringPut hput) State.house fun _ => rfl
    · split <;> rw [State.setRoot_house]

theorem house_flushHeld (key n : Nat) : (flushHeld key n s).house = s.house := by
  induction n generalizing s with
  | zero => rfl
  | succ n ih =>
    unfold flushHeld
    split
    · rfl
    · split
      · rfl
      · rw [ih, house_streamWrite, State.modRoot_house]

theorem house_postGap (key reason first count : Nat) : (postGap key reason first count s).house = s.house := by
  simp only [postGap, post, flush, apply_ite State.house, house_flushHeld, State.modRoot_house, ite_self]

theorem house_gapShots (key reason : Nat) (unf : List Nat) : (gapShots key reason unf s).house = s.house := by
  cases unf <;> simp only [gapShots, cancelUnstarted, house_postGap, State.modRoot_house]

theorem house_tell (dev : Nat) (m : ControlMsg) : (tell dev m s).house = s.house :=
  keeps_of_tell State.house (fun _ _ => rfl) dev m s

theorem house_sendDoubt (key : Nat) : (sendDoubt key s).house = s.house := by
  refine each_keeps State.house (fun d u => ?_) _ s
  obtain ⟨j, hj⟩ := sendTo_eq d 0 (.doubt d (u.rootAddr key)) u
  rw [hj]

theorem house_pump : (pump s).house = s.house := same_of_withoutReplies (withoutReplies_pump s) State.house fun _ => rfl

theorem withoutReplies_decideFlights (p : InFlight → Bool) (status : Nat) (result : InFlight → Nat) (why : Why) :
    (decideFlights p status result why s).withoutReplies = s.withoutReplies := by
  refine each_keeps State.withoutReplies (fun q u => ?_) _ s
  exact (each_keeps State.withoutReplies (fun (f : InFlight) v => withoutReplies_noteFailure v q status f.what f.target why) _ _).trans
    (withoutReplies_modSq u q _)

theorem house_decideFlights (p : InFlight → Bool) (status : Nat) (result : InFlight → Nat) (why : Why) :
    (decideFlights p status result why s).house = s.house :=
  same_of_withoutReplies (withoutReplies_decideFlights s p status result why) State.house fun _ => rfl

theorem house_setSum {k : Nat} (hk : k < 32) : (setSum k s).house = s.house := keeps_of_setSum State.house (fun _ _ => rfl) hk s

theorem house_setMode (m : Mode) : (setMode m s).house = s.house := by
  obtain ⟨a, b, log, hm⟩ := setMode_eq_vectors m s
  rw [hm]

end

/-! ### What a round has noted -/

/-- What slow rounds and injected sequences note of themselves, and the check of the shared channel. -/
structure Tally where
  inRound : Bool
  lateEnd : Bool
  rounds : Nat
  roundUs : Nat
  injected : Ctr
  disagree : Ctr
  failA : Bool
  failB : Bool

def House.tally (h : House) : Tally :=
  { inRound := h.inRound, lateEnd := h.lateEnd, rounds := h.rounds, roundUs := h.roundUs, injected := h.injected
    disagree := h.disagree, failA := h.failA, failB := h.failB }

section
variable (s : State)

theorem tally_injectSafe : (injectSafe s).house.tally = s.house.tally := rfl

theorem tally_safeRoot (key : Nat) (flag : Bool) : (safeRoot key flag s).house.tally = s.house.tally := by
  have helems (u : State) : (elemsRoot key u).house = u.house := by simp only [elemsRoot]
  unfold safeRoot
  dsimp only
  rw [tally_injectSafe, helems, house_markRoot, each_keeps State.house fun r u => house_safeRes u r,
    each_keeps State.house fun r u => house_flagShared u key r]

theorem tally_safeDevice : (safeDevice s).house.tally = s.house.tally := by
  unfold safeDevice
  dsimp only
  have hmark (u : State) : (elemsSafe (markSafe u)).house = u.house := rfl
  rw [tally_injectSafe, hmark, each_keeps State.house fun z u => house_zSafe u z, each_keeps State.house fun q u => house_discardQueue u q,
    each_keeps State.house fun t u => house_safeTone u t, each_keeps State.house fun p u => house_mute u p]

theorem tally_stopRoot (key reason : Nat) (flag : Bool) : (stopRoot key reason flag s).house.tally = s.house.tally := by
  have htold (u : State) : (tellStopped key u).house = u.house := by
    rw [tellStopped, each_keeps State.house fun d v => house_tell v d _, State.modRoot_house]
  have hpass (u : State) : (pendingNow key u).house = u.house := rfl
  have hhalt (l : List Nat) (u : State) : (each haltBurin l u).house = u.house :=
    each_keeps State.house (fun b v => State.modBurin_house v b _) l u
  unfold stopRoot
  dsimp only
  rw [htold, State.modRoot_house, tally_safeRoot, hpass, swapsNow, house_swapWhere, house_gapShots,
    hhalt]

theorem tally_doubtPlate (key code : Nat) (detail : List Byte) : (doubtPlate key code detail s).house.tally = s.house.tally := by
  have hreport (u : State) : (reportDoubt key code detail u).house = u.house := by
    unfold reportDoubt
    split
    · rfl
    · exact house_tell ..
  unfold doubtPlate
  dsimp only
  rw [house_pump, tally_stopRoot, hreport, house_sendDoubt, house_setSum _ (by decide), State.modFault_house]

theorem house_doubtsInSafe : (doubtsInSafe s).house = s.house := each_keeps State.house (fun k u => house_sendDoubt u k) _ s

theorem house_abandonTrims : (abandonTrims s).house = s.house := by
  have hfill (l : List Nat) (u : State) : (each (fun i u => markFill i false u) l u).house = u.house :=
    each_keeps State.house (fun i v => State.modAcqPort_house v i _) l u
  unfold abandonTrims
  dsimp only
  rw [house_decideFlights, hfill]

theorem house_abandonProofs : (abandonProofs s).house = s.house := by
  have htell (l : List (Nat × Nat)) (u : State) : (each (fun e u => tell e.1 (.proofResult e.2 none) u) l u).house = u.house :=
    each_keeps State.house (fun e v => house_tell v e.1 _) l u
  unfold abandonProofs
  dsimp only
  rw [house_decideFlights, htell]

theorem tally_enterSafe : (enterSafe s).house.tally = s.house.tally := by
  have hstop (l : List Nat) (u : State) : (each (fun k u => stopRoot k 2 true u) l u).house.tally = u.house.tally :=
    each_keeps (fun u => u.house.tally) (fun k v => tally_stopRoot v k 2 true) l u
  unfold enterSafe
  dsimp only
  rw [house_pump, house_setMode, house_decideFlights, house_abandonProofs, house_abandonTrims, tally_safeDevice, hstop,
    house_doubtsInSafe]

theorem tally_doubtDevice (code : Nat) (detail : List Byte) : (doubtDevice code detail s).house.tally = s.house.tally := by
  have hsum (u : State) : (setSum 0 u).house = u.house := house_setSum u (by decide)
  unfold doubtDevice
  dsimp only
  split
  · rw [tally_safeDevice, hsum]
  · split
    · rw [tally_safeDevice, house_doubtsInSafe, hsum]
    · rw [tally_enterSafe, hsum]

/-! ### Z read-back (R203–R206) -/

theorem tally_zMismatch (z : Nat) : (zMismatch z s).house.tally = s.house.tally := by
  unfold zMismatch
  dsimp only
  split
  · rw [unownedFault, house_setSum _ (by decide), State.modZ_house, house_zPark, State.modZ_house, house_zPark]
  · rw [doubtBurin, tally_doubtPlate, State.modZ_house, house_zPark]

theorem tally_zCompare (z : Nat) (uv expected : Int) (once : Bool) : (zCompare z uv expected once s).house.tally = s.house.tally := by
  unfold zCompare
  dsimp only
  split
  · rw [State.modZ_house]
  · split
    · rw [tally_zMismatch, State.modZc_house, State.modZ_house]
    · rw [State.modZc_house, State.modZ_house]

theorem tally_judgeSamples (useA useB : Bool) : (judgeSamples useA useB s).house.tally = s.house.tally := by
  refine each_keeps (fun u => u.house.tally) (fun r u => ?_) _ _
  split
  · rw [zSkipped, State.modZc_house, State.modZ_house]
  · exact tally_zCompare u _ _ _ _

/-! ### Nodes and the power cap (R479–R484) -/

theorem tally_nodeFails (n : Nat) : (nodeFails n s).house.tally = s.house.tally := by
  unfold nodeFails
  dsimp only
  split
  · exact tally_doubtDevice ..
  · rw [each_keeps State.house fun r u => house_safeRes u r]
    exact each_keeps (fun u => u.house.tally) (fun k u => tally_doubtPlate u k 5 _) _ _

theorem tally_nodeShuts (n : Nat) : (nodeShuts n s).house.tally = s.house.tally := tally_doubtDevice s 6 _

theorem tally_capRound (level : Nat) : (capRound level s).house.tally = s.house.tally := by
  have hsum (c : Prop) [Decidable c] (u : State) : (if c then setSum 3 u else u).house = u.house := by
    split
    · exact house_setSum u (by decide)
    · rfl
  unfold capRound
  dsimp only
  exact (congrArg House.tally (hsum _ _)).trans rfl

theorem house_autoCal : (autoCal s).house = s.house := by
  have hite (c : Prop) [Decidable c] (v u : State) (h : v.house = u.house) : (if c then v else u).house = u.house := by
    split
    · exact h
    · rfl
  unfold autoCal
  dsimp only
  refine (each_keeps State.house (fun i u => ?_) _ _).trans (each_keeps State.house (fun i u => ?_) _ s)
  · exact hite _ _ _ rfl
  · exact hite _ _ _ rfl

theorem house_burnishAll (clock : Option Nat) : (burnishAll clock s).house = s.house :=
  keeps_of_burnishAll (f := State.house) (fun _ _ => rfl) clock s

end

end Sys2Proof.Machine
end

section
/-! Slow rounds, injected sequences and Z read-back (R203–R206, R469–R475). -/

namespace Sys2Proof.Machine

/-! ### The slow round -/

theorem exec_slowRound_of_early (z : List Slot) (s : State) (h : s.house.inRound = true ∨ s.now < s.house.roundDue) :
    exec (.slowRound z) s = .next s := by
  have hc : (s.house.inRound || decide (s.now < s.house.roundDue)) = true := by
    rcases h with h | h <;> simp [h]
  exact congrArg Host.Outcome.next (if_pos hc)

theorem exec_slowRound_of_due (z : List Slot) (s : State) (hi : s.house.inRound = false) (hd : s.house.roundDue ≤ s.now) :
    ∃ t, exec (.slowRound z) s = .next t ∧ t.house.inRound = true
      ∧ t.house.roundDue =
        (if s.house.lateEnd = true then s.house.roundDue + 20000000 else (s.now / 20000000 + 1) * 20000000)
      ∧ t.house.overruns = (if s.house.lateEnd = true then s.house.overruns.bump else s.house.overruns)
      ∧ (s.house.slotsPend = none → t.house.dislim = s.house.dislim ∧ t.house.slots = s.house.slots)
      ∧ (∀ x l, s.house.slotsPend = some (x, l) → t.house.dislim = x ∧ t.house.slots = l)
      ∧ t.house.slotsPend = none
      ∧ t.house.zread.map (fun r => (r.chan, r.uv)) = (List.range 256).map fun k => (k, (z.getD k {}).mean) := by
  have hc : ¬(s.house.inRound || decide (s.now < s.house.roundDue)) = true := by simp [hi, hd]
  have hread (g : Nat → ZSample) (hg : ∀ k, ((g k).chan, (g k).uv) = (k, (z.getD k {}).mean)) :
      ((List.range 256).map g).map (fun r => (r.chan, r.uv)) = (List.range 256).map fun k => (k, (z.getD k {}).mean) := by
    rw [List.map_map]
    exact List.map_congr_left fun k _ => hg k
  refine ⟨_, congrArg Host.Outcome.next (if_neg hc), rfl, rfl, ?_⟩
  cases hp : s.house.slotsPend with
  | none => exact ⟨rfl, fun _ => ⟨rfl, rfl⟩, nofun, hp, by dsimp only; exact hread _ fun _ => rfl⟩
  | some e =>
    obtain ⟨d, l⟩ := e
    refine ⟨rfl, nofun, ?_, rfl, by dsimp only; exact hread _ fun _ => rfl⟩
    rintro _ _ ⟨⟩
    exact ⟨rfl, rfl⟩

/-- A slot's reading is the mean of its three conversions to the nearest µV, halves up. -/
theorem slotMean_nearest (a b c : Int) :
    6 * ({ a, b, c } : Slot).mean ≤ 2 * (a + b + c) + 3 ∧ 2 * (a + b + c) < 6 * ({ a, b, c } : Slot).mean + 3 := by
  have h : ({ a, b, c } : Slot).mean = (2 * (a + b + c) + 3) / 6 := rfl
  omega

/-! ### The shared-channel check -/

section
variable (h : House) (a b : Nat)

/-- The check DAC's expected value in a round (R474). -/
def House.checkValue : Nat := (0x80 + 0x100 * (h.rounds % 16)) * 16

variable {h}

theorem check_of_near (hA : h.failA = false) (hB : h.failB = false) (hd : dist a b ≤ h.dislim) :
    h.check a b = { pass := true, badA := false, badB := false } := by
  simp [House.check, hA, hB, hd]

theorem check_of_far (hA : h.failA = false) (hB : h.failB = false) (hd : h.dislim < dist a b) :
    h.check a b =
      { pass := false
        badA := !decide (dist a h.checkValue ≤ 48) || decide (dist b h.checkValue ≤ 48)
        badB := !decide (dist b h.checkValue ≤ 48) || decide (dist a h.checkValue ≤ 48) } := by
  unfold House.check
  simp only [hA, hB, Bool.and_self, Bool.false_eq_true, if_false, if_neg (Nat.not_le.2 hd)]
  rfl

theorem check_badA (hA : h.failA = false) (hB : h.failB = false) (hd : h.dislim < dist a b)
    (ha : 48 < dist a h.checkValue) (hb : ¬48 < dist b h.checkValue) :
    h.check a b = { pass := false, badA := true, badB := false } := by
  rw [check_of_far a b hA hB hd, decide_eq_false (Nat.not_le.2 ha), decide_eq_true (Nat.not_lt.1 hb)]
  rfl

theorem check_badB (hA : h.failA = false) (hB : h.failB = false) (hd : h.dislim < dist a b)
    (ha : ¬48 < dist a h.checkValue) (hb : 48 < dist b h.checkValue) :
    h.check a b = { pass := false, badA := false, badB := true } := by
  rw [check_of_far a b hA hB hd, decide_eq_false (Nat.not_le.2 hb), decide_eq_true (Nat.not_lt.1 ha)]
  rfl

theorem check_badBoth (hA : h.failA = false) (hB : h.failB = false) (hd : h.dislim < dist a b)
    (hab : 48 < dist a h.checkValue ↔ 48 < dist b h.checkValue) :
    h.check a b = { pass := false, badA := true, badB := true } := by
  rw [check_of_far a b hA hB hd]
  by_cases ha : 48 < dist a h.checkValue
  · rw [decide_eq_false (Nat.not_le.2 ha), decide_eq_false (Nat.not_le.2 (hab.1 ha))]
    rfl
  · rw [decide_eq_true (Nat.not_lt.1 ha), decide_eq_true (Nat.not_lt.1 fun hb => ha (hab.2 hb))]
    rfl

end

/-! ### The end of a round -/

/-- The state of a round's end before its decisions: the check's latches, the nodes and what the records show (R470, R474). -/
def State.roundNoted (s : State) (r : RoundReadings) : State :=
  let c := s.house.check r.chkA r.chkB
  noteRound r (s.house.useA c) (s.house.useB c)
    { s with house := { s.house.latch c r.chkA r.chkB with nodes := s.nodesAfter r (s.house.useA c) (s.house.useB c) } }

theorem tally_roundNoted (s : State) (r : RoundReadings) :
    let h := s.house.latch (s.house.check r.chkA r.chkB) r.chkA r.chkB
    (s.roundNoted r).house.tally =
      { inRound := false, lateEnd := decide (s.house.roundDue < s.now), rounds := s.house.rounds + 1, roundUs := r.lengthUs
        injected := s.house.injected, disagree := h.disagree, failA := h.failA, failB := h.failB } := rfl

theorem latch_failA_of_good {h : House} (hA : h.failA = false) (c : Check) (a b : Nat) : (h.latch c a b).failA = c.badA := by
  simp [House.latch, hA]

theorem latch_failB_of_good {h : House} (hB : h.failB = false) (c : Check) (a b : Nat) : (h.latch c a b).failB = c.badB := by
  simp [House.latch, hB]

theorem latch_failA_of_held {h : House} (hA : h.failA = true) (hc : h.clearA = false) (c : Check) (a b : Nat) :
    (h.latch c a b).failA = true := by
  simp [House.latch, hA, hc]

theorem latch_failB_of_held {h : House} (hB : h.failB = true) (hc : h.clearB = false) (c : Check) (a b : Nat) :
    (h.latch c a b).failB = true := by
  simp [House.latch, hB, hc]

theorem exec_roundEnd_of_idle (l : RoundSlots) (s : State) (hi : s.house.inRound = false) : exec (.roundEnd l) s = .next s := by
  have hc : (!s.house.inRound) = true := by simp [hi]
  exact congrArg Host.Outcome.next (if_pos hc)

/-- A round's decisions leave what it notes of itself. -/
theorem exec_roundEnd_of_in (l : RoundSlots) (s : State) (hi : s.house.inRound = true) :
    ∃ t, exec (.roundEnd l) s = .next t ∧ t.house.tally = (s.roundNoted l.readings).house.tally := by
  have hc : ¬(!s.house.inRound) = true := by simp [hi]
  have hfails (p : Nat → State → Bool) (ns : List Nat) (u : State) :
      (each (fun n s => if p n s then nodeFails n s else s) ns u).house.tally = u.house.tally :=
    each_keeps (fun u => u.house.tally) (fun n v => by
      split
      · exact tally_nodeFails v n
      · rfl) ns u
  have hshuts (p : Nat → State → Prop) (hp : ∀ n u, Decidable (p n u)) (ns : List Nat) (u : State) :
      (each (fun n s => if p n s then nodeShuts n s else s) ns u).house.tally = u.house.tally :=
    each_keeps (fun u => u.house.tally) (fun n v => by
      split
      · exact tally_nodeShuts v n
      · rfl) ns u
  have hlevels (b : Bool) (u : State) : (if b then setSum 2 u else u).house.tally = u.house.tally := by
    split
    · rw [house_setSum _ (by decide)]
    · rfl
  have hsettle (u : State) (ns : Tab Node) : ({ u with house := { u.house with nodes := ns } } : State).house.tally = u.house.tally := rfl
  refine ⟨_, congrArg Host.Outcome.next (if_neg hc), ?_⟩
  dsimp only
  rw [house_burnishAll, house_autoCal, tally_capRound, hshuts, hlevels, hsettle, hfails, tally_judgeSamples]
  rfl

/-! ### Injected sequences and comparisons -/

/-- The channels whose over-current reading waits (R205). -/
def State.injWaiting (s : State) : List Nat := tkeys (s.zch.filter fun e => e.2.ovcPend)

/-- The supplies are due for a sequence after a safe-state entry (R473). -/
def State.injSafeDue (s : State) : Bool := match s.house.injSafe with | some t => decide (t ≤ s.now) | none => false

theorem injSafeDue_iff (s : State) : s.injSafeDue = true ↔ ∃ t, s.house.injSafe = some t ∧ t ≤ s.now := by
  unfold State.injSafeDue
  cases s.house.injSafe <;> simp

/-- What an injected sequence notes: `room` slots went to domains, `done` says that the supplies were read. -/
def State.injNoted (s : State) (room : Nat) (done : Bool) : State :=
  { s with house := { s.house with
      injected := s.house.injected.bump, injDue := s.house.injDue.drop room, injSafe := if done then none else s.house.injSafe } }

section
variable (z : List ZReading) (s : State)

theorem exec_injectedSequence_of_none (hw : s.injWaiting = []) (hs : s.injSafeDue = false) (hd : s.house.injDue = []) :
    exec (.injectedSequence z) s = .next s := by
  have hc : (s.injWaiting = [] && !s.injSafeDue && s.house.injDue = []) = true := by simp [hw, hs, hd]
  exact congrArg Host.Outcome.next (if_pos hc)

theorem exec_injectedSequence_of_due (h : s.injWaiting ≠ [] ∨ s.injSafeDue = true ∨ s.house.injDue ≠ []) :
    ∃ t, exec (.injectedSequence z) s = .next t ∧ t.house.tally = { s.house.tally with injected := s.house.injected.bump } := by
  have hc : ¬(s.injWaiting = [] && !s.injSafeDue && s.house.injDue = []) = true := by
    rcases h with h | h | h <;> simp [h]
  have hread (f : Nat → State → State) (hf : ∀ c u, (f c u).house.tally = u.house.tally) (l : List Nat) (u : State) :
      (each f l u).house.tally = u.house.tally := each_keeps (fun u => u.house.tally) hf l u
  refine ⟨_, congrArg Host.Outcome.next (if_neg hc), ?_⟩
  dsimp only
  refine (hread _ (fun c u => ?_) _ _).trans ((hread _ (fun c u => ?_) _ _).trans rfl)
  · exact (tally_zMismatch _ c).trans rfl
  · split
    · rfl
    · exact (tally_zCompare ..).trans rfl

/-- With no reading waiting, a sequence takes the supplies and domains that are due and judges nothing. -/
theorem exec_injectedSequence_of_unread (hw : s.injWaiting = []) (h : s.injSafeDue = true ∨ s.house.injDue ≠ []) :
    exec (.injectedSequence z) s = .next (s.injNoted (if s.injSafeDue then 24 else 32) s.injSafeDue) := by
  have hc : ¬(s.injWaiting = [] && !s.injSafeDue && s.house.injDue = []) = true := by
    rcases h with h | h <;> simp [h]
  refine (congrArg Host.Outcome.next (if_neg hc)).trans ?_
  have hw' : tkeys (s.zch.filter fun e => e.2.ovcPend) = [] := hw
  rw [hw']
  change Host.Outcome.next (s.injNoted (if (s.injSafeDue && true) = true then 24 else 32) (s.injSafeDue && true)) = _
  rw [Bool.and_true]

end

/-! ### Z read-back -/

section
variable {z : Nat} {uv want : Int} (once : Bool) {s : State}

theorem zCompare_of_near (h : ¬(s.z z).ztol * 1000 * 262144 < (uv * 262144 - want).natAbs) :
    zCompare z uv want once s = s.modZ z fun c => { c with
      readback := uv, expected := toUv want, skips := 0, unchecked := false, fails := 0 } := by
  unfold zCompare
  dsimp only
  rw [decide_eq_false h]
  rfl

theorem zCompare_of_far (h : (s.z z).ztol * 1000 * 262144 < (uv * 262144 - want).natAbs) :
    zCompare z uv want once s =
      let t := (s.modZ z fun c => { c with
        readback := uv, expected := toUv want, skips := 0, unchecked := false, fails := c.fails + 1 }).modZc z fun k => { k with
          mismatches := k.mismatches.bump }
      if once || (s.z z).fails ≠ 0 then zMismatch z t else t := by
  unfold zCompare
  dsimp only
  rw [decide_eq_true h]
  rfl

end

end Sys2Proof.Machine
end

section
/-! Ends of calibration runs and trims, and writes of the calibration store (R490–R505). -/

namespace Sys2Proof.Machine

/-! ### Operations that leave the calibration as it is -/

section
variable (s : State)

theorem calib_drainPort (p : Nat) : (drainPort p s).calib = s.calib := by
  simp only [drainPort, apply_ite State.calib, State.modPort_calib, ite_self]

theorem calib_drainZ (q : Nat) : (drainZ q s).calib = s.calib := by
  simp only [drainZ, apply_ite State.calib, State.modZbank_calib, ite_self]

theorem calib_zPark (z : Nat) : (zPark z s).calib = s.calib := by
  simp only [zPark, State.modZ_calib, endFast, endFastAt, calib_drainZ]

theorem calib_zLoad (z code : Nat) : (zLoad z code s).calib = s.calib := by
  simp only [zLoad, zLoadAt, State.modZ_calib]

theorem calib_disarm (reason e : Nat) : (disarm reason e s).calib = s.calib := by
  have hcap (flags start count : Nat) (u : State) : (capRecord e reason flags start count u).calib = u.calib :=
    same_of_withoutCaptures (capRecord_leaves e reason flags start count u).1 State.calib fun _ => rfl
  unfold disarm
  dsimp only
  split
  · rfl
  · rw [State.modEngine_calib]
    split <;> rw [hcap]
    rw [State.setEngine_calib]

theorem calib_settleCal : (settleCal s).calib = s.calib :=
  same_of_withoutReplies ((withoutReplies_pump _).trans (withoutReplies_decideFlights ..)) State.calib fun _ => rfl

theorem calib_endService (i : Nat) : (endService i s).calib = s.calib := by
  unfold endService
  split
  · rw [markFill, State.modAcqPort_calib]
  · split
    · rw [State.modPort_calib]
    · refine each_keeps State.calib (fun z u => ?_) _ s
      dsimp only
      split
      · rfl
      · simp only [apply_ite State.calib, State.modZ_calib, calib_zLoad, ite_self]

end

/-! ### What a trim's end leaves of its target -/

/-- The fields that a trim's end sets and no beginning of a trim changes. -/
def CalInst.marks (c : CalInst) : Bool × Ctr × Bool × Int × Int := (c.trimDue, c.runs, c.writeDue, c.tjTrim, c.tjMeas)

theorem calI_modCal_self (s : State) (i : Nat) (f : CalInst → CalInst) : (s.modCal i f).calI i = f (s.calI i) :=
  tget_tset_self ({} : CalInst) s.calib.inst i _

theorem marks_modCal {f : CalInst → CalInst} (hf : ∀ c, (f c).marks = c.marks) (s : State) (i k : Nat) :
    ((s.modCal k f).calI i).marks = (s.calI i).marks := by
  by_cases h : i = k
  · rw [h, calI_modCal_self, hf]
  · exact congrArg CalInst.marks (tget_tset_ne ({} : CalInst) s.calib.inst k i _ h)

theorem marks_abandon (c : CalInst) : c.abandon.marks = c.marks := by
  simp only [CalInst.abandon, apply_ite CalInst.marks]
  exact (ite_congr rfl (fun _ => rfl) fun _ => ite_self _).trans (ite_self _)

/-- What a beginning trim leaves: the queues of trims, and the marks of a target. -/
def State.trimFrame (s : State) (i : Nat) : Tab (List Nat) × Bool × Ctr × Bool × Int × Int := (s.calib.trimQ, (s.calI i).marks)

theorem trimFrame_of_calib {s t : State} (i : Nat) (h : t.calib = s.calib) : t.trimFrame i = s.trimFrame i := by
  simp only [State.trimFrame, State.calI, h]

theorem trimFrame_modCal {f : CalInst → CalInst} (hf : ∀ c, (f c).marks = c.marks) (s : State) (i k : Nat) :
    (s.modCal k f).trimFrame i = s.trimFrame i := Prod.ext rfl (marks_modCal hf s i k)

theorem trimFrame_abandonRun (s : State) (i k : Nat) : (abandonRun k s).trimFrame i = s.trimFrame i := by
  unfold abandonRun
  split
  · exact (trimFrame_of_calib i
      (same_of_withoutReplies ((withoutReplies_pump _).trans (withoutReplies_decideFlights ..)) State.calib fun _ => rfl)).trans
      (trimFrame_modCal marks_abandon s i k)
  · rfl

/-- A trim's target goes out of service. -/
def State.trimTaken (s : State) (k : Nat) : State := s.modCal k fun c => { c with st := 3, saved := c.vals, ramp := none }

theorem trimFrame_trimTaken (s : State) (i k : Nat) : (s.trimTaken k).trimFrame i = s.trimFrame i :=
  trimFrame_modCal (f := fun c => { c with st := 3, saved := c.vals, ramp := none }) (fun _ => rfl) s i k

theorem trimFrame_beginTrim (s : State) (i scope : Nat) : (beginTrim scope s).trimFrame i = s.trimFrame i := by
  unfold beginTrim
  split
  · rfl
  · next k _ _ =>
    rw [← trimFrame_abandonRun s i k, ← trimFrame_trimTaken (abandonRun k s) i k]
    refine trimFrame_of_calib i ?_
    dsimp only
    rw [State.trimTaken]
    split
    · rw [calib_disarm, markFill, State.modAcqPort_calib]
    · split
      · rw [mute, State.modPort_calib, State.modPort_calib]
      · refine each_keeps State.calib (fun z u => ?_) _ _
        simp only [apply_ite State.calib, State.modZ_calib, calib_zPark, ite_self]

/-! ### Ends of signal-traced runs -/

section
variable {i : Nat} {s : State} (starved : Bool) (l : List (Nat × Int)) (beyond : Bool)

theorem endRunOf_of_idle (h : (s.calI i).st ≠ 1) : endRunOf i starved l beyond s = s := if_pos h

theorem endRunOf_of_starved (h : (s.calI i).st = 1) : endRunOf i true l beyond s =
    settleCal (s.modCal i fun _ => { s.calI i with
      runs := (s.calI i).runs.bump, starved := (s.calI i).starved.bump, st := if (s.calI i).ramp = none then 0 else 2 }) := by
  refine (if_neg (not_not.2 h)).trans ?_
  cases hr : (s.calI i).ramp <;> simp [hr]

theorem endRunOf_of_fed (h : (s.calI i).st = 1) : endRunOf i false l beyond s =
    settleCal (s.modCal i fun _ => { s.calI i with
      runs := (s.calI i).runs.bump, st := 2, tjRun := s.tj16 (instDom i), tjMeas := s.tj16 (instDom i)
      trimDue := (s.calI i).trimDue || beyond
      ramp := some { r := (s.calI i).rampLen, k := 0
                     vals := (fromStart i (s.calI i).vals l).map fun e => (e.1, tget 0 (s.calI i).vals.dev e.1, e.2) } }) :=
  if_neg (not_not.2 h)

end

theorem exec_adcBlindRunEnd_of_early (p : Fin 16) (low : Bool) (extremes : Nat) (stats : List (Int × Int × Int)) (s : State)
    (h : s.now < (s.calI p.val).runAt + 536870912) : exec (.adcBlindRunEnd p low extremes stats) s = .next s :=
  congrArg Host.Outcome.next (if_pos h)

theorem exec_adcBlindRunEnd_of_due (p : Fin 16) (low : Bool) (extremes : Nat) (stats : List (Int × Int × Int)) (s : State)
    (h : (s.calI p.val).runAt + 536870912 ≤ s.now) :
    let v := adcValues (adcEstimates 16777216 stats)
    exec (.adcBlindRunEnd p low extremes stats) s = .next (endRunOf p.val (low || decide (536870912 < 100 * extremes)) v.1 v.2 s) :=
  congrArg Host.Outcome.next (if_neg (Nat.not_lt.2 h))

theorem instDom_of_input (p : Fin 16) : instDom p.val = 18 + p.val / 8 := if_pos p.isLt

theorem instDom_of_quadrant (q : Fin 4) : instDom (64 + q.val) = 20 + q.val := by
  unfold instDom
  rw [if_neg (by omega), if_neg (by omega), if_neg (by omega), Nat.add_sub_cancel_left]

/-! ### Estimates of a run (R490) -/

/-- Sub-converters that gather the same have the offset of all. -/
theorem adcOffset_of_equal {n : Nat} (hn : 0 < n) (sum : Int) :
    (2 * 16 * (32 * sum - 32 * sum) + 32 * (n : Int)) / (2 * 32 * (n : Int)) = 0 := by
  apply Int.ediv_eq_zero_of_lt <;> omega

theorem isqrt_mul_self (k r : Nat) : isqrt k (r * r) r = r := by
  induction k with
  | zero => rfl
  | succ k ih =>
    have hlt : r * r < (r + 2 ^ k) * (r + 2 ^ k) := Nat.mul_self_lt_mul_self (Nat.lt_add_of_pos_right (Nat.two_pow_pos k))
    rw [isqrt, if_neg (Nat.not_le.2 hlt), ih]

theorem isqrt_two_pow_mul_self (m k : Nat) : isqrt (m + 1 + k) (2 ^ m * 2 ^ m) 0 = 2 ^ m := by
  induction k with
  | zero => rw [Nat.add_zero, isqrt, Nat.zero_add, if_pos le_rfl, isqrt_mul_self]
  | succ k ih =>
    have hlt : 2 ^ m * 2 ^ m < 2 ^ (m + 1 + k) * 2 ^ (m + 1 + k) :=
      Nat.mul_self_lt_mul_self (Nat.pow_lt_pow_right (by decide) (by omega))
    rw [← Nat.add_assoc, isqrt, Nat.zero_add, if_neg (Nat.not_le.2 hlt), ih]

/-- Sub-converters that gather the same have the gain of all. -/
theorem adcGain_of_equal {x : Nat} (hx : 0 < x) : (isqrt 64 (2 ^ 42 * 32 * x / (32 * x)) 0 + 1) / 2 = 2 ^ 20 := by
  have hroot : isqrt 64 (2 ^ 42) 0 = 2 ^ 21 := isqrt_two_pow_mul_self 21 42
  rw [Nat.mul_assoc, Nat.mul_div_cancel _ (by omega), hroot]
  decide

theorem mem_adcEstimates_of_equal {n : Nat} {sum sq skew : Int} {e : Int × Int × Int}
    (he : e ∈ adcEstimates n (List.replicate 32 (sum, sq, skew))) :
    e = ((2 * 16 * (32 * sum - 32 * sum) + 32 * (n : Int)) / (2 * 32 * (n : Int))
      , (((isqrt 64 (2 ^ 42 * 32 * ((n : Int) * sq - sum * sum).toNat / (32 * ((n : Int) * sq - sum * sum).toNat)) 0 + 1) / 2 : Nat) : Int)
      , skew) := by
  obtain ⟨e', he', rfl⟩ := List.mem_map.1 he
  rw [List.eq_of_mem_replicate he']
  simp only [List.length_replicate, List.map_replicate, List.sum_replicate, nsmul_eq_mul, Nat.cast_ofNat]

/-! ### Ends of trims -/

section
variable (scope target : Nat) (est : List (Int × Int × Int)) (zest : List (Nat × Nat × Int)) (s : State)

theorem exec_trimEnd_of_other
    (h : ∀ i, instOf scope target = some i → analogue scope = true → (tget [] s.calib.trimQ scope).head? ≠ some i) :
    exec (.trimEnd scope target est zest) s = .next s := by
  refine congrArg Host.Outcome.next ?_
  cases hi : instOf scope target with
  | none => rfl
  | some i =>
    cases hq : tget [] s.calib.trimQ scope with
    | nil => rfl
    | cons k rest =>
      refine if_pos ?_
      cases ha : analogue scope with
      | false => simp
      | true =>
        have hk := h i hi ha
        rw [hq] at hk
        have hne : i ≠ k := fun e => hk (congrArg some e.symm)
        simp [hne]

/-- A trim's values come into force (R494, R499). -/
def State.trimMeasured (s : State) (i : Nat) (l : List (Nat × Int)) : State :=
  s.modCal i fun c => { c with
    vals := setVals (fromStart i c.vals l) c.vals, trimDue := false, runs := c.runs.bump
    trimmed := true, tjMeas := s.tj16 (instDom i)
    tjTrim := s.tj16 (instDom i), tjRun := if l = [] then c.tjRun else s.tj16 (instDom i) }

/-- A trim ends: its target returns to service and leaves the queue, and its store write falls due (R499, R505). -/
def State.trimDone (s : State) (i scope : Nat) (rest : List Nat) (l : List (Nat × Int)) : State :=
  let u := dueWrite i (endService i (s.trimMeasured i l))
  { u with calib := { u.calib with trimQ := tset [] u.calib.trimQ scope rest } }

theorem exec_trimEnd_of_head {i : Nat} {rest : List Nat} (hi : instOf scope target = some i) (ha : analogue scope = true)
    (hq : tget [] s.calib.trimQ scope = i :: rest) :
    exec (.trimEnd scope target est zest) s = .next (settleCal (beginTrim scope (s.trimDone i scope rest
      (if i < 16 then (adcValues est).1 else if 64 ≤ i then (zValues zest).1 else [])))) := by
  refine congrArg Host.Outcome.next ?_
  rw [hi, hq]
  refine if_neg ?_
  simp [ha]

end

theorem trimFrame_dueWrite (s : State) (i : Nat) :
    (dueWrite i s).trimFrame i = (s.calib.trimQ, ({ s.calI i with writeDue := true } : CalInst).marks) := by
  refine Prod.ext rfl ?_
  simp only [State.trimFrame, dueWrite, calI_modCal_self]
  rfl

theorem trimFrame_trimDone (s : State) (i scope : Nat) (rest : List Nat) (l : List (Nat × Int)) :
    (s.trimDone i scope rest l).trimFrame i = (tset [] s.calib.trimQ scope rest, false, (s.calI i).runs.bump, true
      , s.tj16 (instDom i), s.tj16 (instDom i)) := by
  have hserved : (endService i (s.trimMeasured i l)).calib = (s.trimMeasured i l).calib := calib_endService _ i
  have hinst : (endService i (s.trimMeasured i l)).calI i = (s.trimMeasured i l).calI i :=
    congrArg (fun c : Calib => tget ({} : CalInst) c.inst i) hserved
  have hdue := trimFrame_dueWrite (endService i (s.trimMeasured i l)) i
  rw [hserved, hinst, State.trimMeasured, calI_modCal_self] at hdue
  have hqueue := congrArg Prod.fst hdue
  have hmarks := congrArg Prod.snd hdue
  exact Prod.ext (congrArg (fun q => tset [] q scope rest) hqueue) hmarks

/-- A trim that ends leaves its queue's rest and its target's marks, whichever trim begins next (R494, R499, R505). -/
theorem trimFrame_nextTrim (s : State) (i scope : Nat) (rest : List Nat) (l : List (Nat × Int)) :
    (settleCal (beginTrim scope (s.trimDone i scope rest l))).trimFrame i = (tset [] s.calib.trimQ scope rest, false
      , (s.calI i).runs.bump, true, s.tj16 (instDom i), s.tj16 (instDom i)) := by
  rw [trimFrame_of_calib i (calib_settleCal _), trimFrame_beginTrim, trimFrame_trimDone]

/-! ### Writes of the store (R503–R505) -/

section
variable (i : Fin 68) (up1 up2 : List (Nat × Byte)) (s : State)

/-- The last write of the values was less than 10 s ago (R505). -/
def CalInst.wroteLate (c : CalInst) (now : Nat) : Bool :=
  match c.lastWrite with | some t => decide (now < t + 10 * ticksPerSec) | none => false

theorem wroteLate_iff (c : CalInst) (now : Nat) :
    c.wroteLate now = true ↔ ∃ t, c.lastWrite = some t ∧ now < t + 10 * ticksPerSec := by
  unfold CalInst.wroteLate
  cases c.lastWrite <;> simp

/-- A store write happens now (R486, R505). -/
def State.storeDue (s : State) (i : Nat) : Prop :=
  (s.calI i).writeDue = true ∧ s.windowOpen i = true ∧ ((s.calI i).wroteLate s.now = false ∨ (s.calI i).commit = true)

theorem exec_storeWrite_of_not_due (h : ¬s.storeDue i.val) : exec (.storeWrite i up1 up2) s = .next s := by
  have hc : (!(s.calI i.val).writeDue || !s.windowOpen i.val
      || ((s.calI i.val).wroteLate s.now && !(s.calI i.val).commit)) = true := by
    by_contra hn
    refine h ?_
    simpa [State.storeDue, and_assoc, Bool.or_eq_false_iff, imp_iff_not_or] using hn
  exact congrArg Host.Outcome.next (if_pos hc)

/-- What is held after a store write (R504): the older copy first, and the other once that one is verified. -/
def CalInst.storeWritten (c : CalInst) (i g now : Nat) (one two : List Byte) : CalInst :=
  let firstA := decide (c.genA ≤ c.genB)
  let d := writeCopy i firstA g one c
  let d := if recordOk i one then writeCopy i (!firstA) g two d else d
  { d with
    writeDue := false, commit := false, lastWrite := some now, st := if d.st = 4 then 0 else d.st
    storeErrs := if recordOk i one && recordOk i two then d.storeErrs else d.storeErrs.bump }

theorem exec_storeWrite_of_due (h : s.storeDue i.val) :
    let c := s.calI i.val
    let g := max c.genA c.genB + 1
    let whole := s.storeRecord i.val g c.tjMeas (if c.commit = true then c.target else c.vals)
    exec (.storeWrite i up1 up2) s =
      .next (settleCal (s.modCal i.val fun _ => c.storeWritten i.val g s.now (upset up1 whole) (upset up2 whole))) := by
  obtain ⟨hdue, hopen, hlate⟩ := h
  have hc : ¬(!(s.calI i.val).writeDue || !s.windowOpen i.val
      || ((s.calI i.val).wroteLate s.now && !(s.calI i.val).commit)) = true := by
    rcases hlate with hlate | hlate <;> simp [hdue, hopen, hlate]
  exact congrArg Host.Outcome.next (if_neg hc)

end

theorem calI_settleCal_modCal (s : State) (i : Nat) (c : CalInst) : (settleCal (s.modCal i fun _ => c)).calI i = c := by
  rw [State.calI, calib_settleCal]
  exact calI_modCal_self s i fun _ => c

section
variable (c : CalInst) (i g now : Nat) (one two : List Byte)

theorem writeCopy_keeps (a : Bool) (img : List Byte) :
    (writeCopy i a g img c).vals = c.vals ∧ (writeCopy i a g img c).storeErrs = c.storeErrs := by
  cases a <;> exact ⟨rfl, rfl⟩

theorem storeWritten_keeps : (c.storeWritten i g now one two).vals = c.vals
    ∧ (c.storeWritten i g now one two).storeErrs =
      if recordOk i one = true ∧ recordOk i two = true then c.storeErrs else c.storeErrs.bump := by
  obtain ⟨hvals, herrs⟩ := writeCopy_keeps c i g (decide (c.genA ≤ c.genB)) one
  cases hone : recordOk i one with
  | false =>
    simp only [CalInst.storeWritten, hone, Bool.false_eq_true, if_false, Bool.false_and, false_and]
    exact ⟨hvals, congrArg Ctr.bump herrs⟩
  | true =>
    obtain ⟨hvals', herrs'⟩ := writeCopy_keeps (writeCopy i (decide (c.genA ≤ c.genB)) g one c) i g (!decide (c.genA ≤ c.genB)) two
    simp only [CalInst.storeWritten, hone, if_true, Bool.true_and, true_and, herrs', herrs, and_true]
    exact hvals'.trans hvals

variable {c}

theorem storeWritten_of_older_a (h : c.genA ≤ c.genB) :
    let d := c.storeWritten i g now one two
    let gen (img : List Byte) := if recordOk i img = true then g else 0
    d.imgA = one ∧ d.genA = gen one ∧ (recordOk i one = true → d.imgB = two ∧ d.genB = gen two)
      ∧ (recordOk i one = false → d.imgB = c.imgB ∧ d.genB = c.genB) := by
  cases hone : recordOk i one <;> simp [CalInst.storeWritten, writeCopy, h, hone]

theorem storeWritten_of_older_b (h : c.genB < c.genA) :
    let d := c.storeWritten i g now one two
    let gen (img : List Byte) := if recordOk i img = true then g else 0
    d.imgB = one ∧ d.genB = gen one ∧ (recordOk i one = true → d.imgA = two ∧ d.genA = gen two)
      ∧ (recordOk i one = false → d.imgA = c.imgA ∧ d.genA = c.genA) := by
  cases hone : recordOk i one <;> simp [CalInst.storeWritten, writeCopy, Nat.not_le.2 h, hone]

end

end Sys2Proof.Machine
end

section
/-! Restores and ends of proof runs, and the events of rings, power, housekeeping and calibration (R430, R439, R440, R456,
R457, R469, R472, R474, R484, R493, R504, R529). -/

namespace Sys2Proof.Machine

/-! ### Restores (R454, R456) -/

section
variable {d : Nat} {i : RestoreInfo} {s : State}

theorem restoreDomain_of_off (hoff : (s.dom d).fromOff = true) (hd : d ≠ 4) :
    restoreDomain d i s = nowOn d (freshDomain d i (s.setDom d { s.dom d with retLost := false, lostBanks := 0 })) :=
  (if_pos hoff).trans (if_neg hd)

theorem restoreDomain_of_trained (hoff : (s.dom 4).fromOff = true) (hpass : diesPass i.dies = true) :
    restoreDomain 4 i s = nowOn 4 (freshDomain 4 i (trainDies i.dies s)) :=
  (if_pos hoff).trans ((if_pos rfl).trans (if_pos hpass))

theorem restoreDomain_of_untrained (hoff : (s.dom 4).fromOff = true) (hpass : diesPass i.dies ≠ true) :
    restoreDomain 4 i s = failWake 4 (trainDies i.dies s) :=
  (if_pos hoff).trans ((if_pos rfl).trans (if_neg hpass))

theorem restoreDomain_of_kept (hret : (s.dom d).fromOff = false) (h : lostBanks i.banks = 0 ∨ d = 4) :
    restoreDomain d i s = nowOn d (each clearChains (domAcqs d)
      (calWake d true i (s.setDom d { s.dom d with retLost := false, lostBanks := 0 }))) := by
  refine (if_neg (by simp [hret])).trans (if_neg ?_)
  rcases h with h | h <;> simp [h]

theorem restoreDomain_of_lost (hret : (s.dom d).fromOff = false) (hlost : lostBanks i.banks ≠ 0) (hd : d ≠ 4) :
    restoreDomain d i s = nowOn d (freshDomain d i (s.setDom d { s.dom d with
      retLost := true, lostBanks := lostBanks i.banks, lostCtr := (s.dom d).lostCtr.bump })) :=
  (if_neg (by simp [hret])).trans (if_pos (by simp [hlost, hd]))

end

/-! ### The end of a proof run (R149, R529, R530) -/

/-- A request's runs have ended (R149). -/
def proofDone (id st sig : Nat) (s : State) : State :=
  pump (decideFlights (fun f => f.wait == .proof id) st (fun _ => sig) .doubt s)

section
variable {id dev : Nat} {s : State}

theorem addResult_of_unjoined (h : ∀ j ∈ s.joins, j.id ≠ id) (r : Option (BitVec 64 × BitVec 64)) : addResult id dev r s = s := by
  have hfind : s.joins.find? (fun j => j.id == id) = none := List.find?_eq_none.2 fun j hj => by simpa using h j hj
  unfold addResult
  rw [hfind]

/-- A join with a device's result in it. -/
def ProofJoin.withResult (j : ProofJoin) (dev : Nat) (x : BitVec 64 × BitVec 64) : ProofJoin :=
  { j with owed := j.owed.filter (· != dev), results := insertResult (dev, x) j.results }

variable {j : ProofJoin} (hj : s.joins = [j]) (hid : j.id = id)
include hj hid

theorem find_join : s.joins.find? (fun j => j.id == id) = some j ∧ s.joins.filter (fun k => k.id != id) = [] := by
  rw [hj]
  simp [hid]

theorem addResult_of_abandoned : addResult id dev none s = proofDone id 7 0 { s with joins := [] } := by
  obtain ⟨hfind, hothers⟩ := find_join hj hid
  unfold addResult
  rw [hfind, hothers]
  rfl

theorem addResult_of_result (x : BitVec 64 × BitVec 64) : addResult id dev (some x) s =
    if (j.withResult dev x).owed ≠ [] then { s with joins := [j.withResult dev x] }
    else proofDone id (if (j.withResult dev x).outcome.1 = (j.withResult dev x).outcome.2 then 0 else 7)
      (j.withResult dev x).outcome.1.toNat { s with joins := [] } := by
  obtain ⟨hfind, hothers⟩ := find_join hj hid
  have hstatus : (if ((j.withResult dev x).outcome.1 == (j.withResult dev x).outcome.2) = true then stOk else stFault) =
      if (j.withResult dev x).outcome.1 = (j.withResult dev x).outcome.2 then 0 else 7 := if_congr beq_iff_eq rfl rfl
  unfold addResult
  rw [hfind, hothers, ← hstatus]
  rfl

end

/-! ### The statement -/

/-- Settles O60: each event by the branches of its row, over what reports, ends and rounds leave unchanged. -/
theorem ringPowerHousekeepingAndCalibrationEvents : Obligations.RingPowerHousekeepingAndCalibrationEvents := by
  unfold Obligations.RingPowerHousekeepingAndCalibrationEvents
  refine ⟨fun k v ue s => ?transfer, fun r pads bytes => ⟨length_hostWrites r pads bytes, ?_, ?_⟩, fun k s => ?timer,
    fun good bad s => ?scrub, fun d s => ?steps, dom_failWake_self, fun d i s => ?restore, dom_nowOn_self,
    fun d i s => freshDomain_of_good, fun d s => ?ends,
    fun z s => ⟨exec_slowRound_of_early z s, exec_slowRound_of_due z s⟩, slotMean_nearest, fun l s => ?round, fun h a b hA hB => ?check,
    fun z s => ?inject, fun z uv want once s => ?compare,
    fun s => ⟨exec_shutdownAction_of_early, fun t => exec_shutdownAction_of_due⟩, fun d s => ?shut, fun d target s => ?enter,
    fun p low extremes stats s => ?blind, fun n sum sq skew hn => ?estimates, fun o g k => ?values, fun q est s => ?zstat,
    fun scope target est zest s => ?trim, fun i up1 up2 s => ?store, fun run g e tiles s => ?proof, fun id dev s => ?join,
    fun p tiles s hk => if_pos hk⟩
  case transfer =>
    intro r reach
    refine ⟨exec_ringTransfer_of_idle, fun rec_ rest hrecs hreach => ?_⟩
    intro n full may seen q addr pads
    have hfull (x : Ring) : x.lacks rec_ = true ↔ full x := lacks_iff x rec_
    have hq : q = if r.lacks rec_ = true ∧ may then { r.seen v with readAt := some s.now } else r :=
      if_congr (and_congr_left' (hfull r).symm) rfl rfl
    have hexec := exec_ringTransfer_of_reach (ue := ue) hrecs hreach hq
    refine ⟨fun hf => hexec.trans (congrArg _ (if_pos ((hfull q).mpr hf))),
      fun hf => ⟨_, hexec.trans (congrArg _ (if_neg (mt (hfull q).mp hf))), ?_⟩⟩
    obtain ⟨bytes, hbytes, hhanded, hout⟩ := moveRecord_spec k.val rec_ rest ue (s.setRing k.val q)
    rw [State.ring_setRing] at hbytes hhanded hout
    obtain ⟨hwritten, -, hlen, holdest⟩ := written_seen r v
    have hkept : q.written = r.written ∧ q.hlen = r.hlen ∧ q.oldestAt rec_ = addr := by
      rw [hq]
      split
      · exact ⟨hwritten, hlen, congrFun holdest rec_⟩
      · exact ⟨rfl, rfl, rfl⟩
    obtain ⟨hqw, hql, hqo⟩ := hkept
    rw [hqw, hql] at hhanded
    rw [hqw, hql] at hout
    refine ⟨congrArg Prod.snd hhanded, fun hue hgood => ?_⟩
    rw [hbytes hue (hqo ▸ hgood)] at hhanded hout
    exact ⟨congrArg Prod.fst hhanded, hout⟩
  case timer =>
    rw [exec_ringInterruptTimer]
    exact ⟨fun h => congrArg _ (if_pos h), fun h => congrArg _ (if_neg h)⟩
  case scrub =>
    refine ⟨fun hoff => congrArg Host.Outcome.next (if_pos (by simp [hoff])), fun hon => ⟨_, exec_patrolScrub_of_on hon, ?_⟩⟩
    obtain ⟨hbytes, hcor, hpoison, hbit⟩ := each_scrubBad_spec (bad.filter fun g => decide (g < 2 ^ 25))
      (each noteCorrected (good.filter fun g => decide (g < 2 ^ 25)) s)
    obtain ⟨hbytes', hpoison'⟩ := each_noteCorrected_keeps (good.filter fun g => decide (g < 2 ^ 25)) s
    refine ⟨hbytes.trans hbytes', fun g => ?_, fun ⟨g, hg, hlt⟩ => hbit (.inl ?_), fun g hgood hlt => ?_⟩
    · rw [hpoison, hpoison', List.mem_filter, decide_eq_true_eq]
    · exact List.ne_nil_of_mem (List.mem_filter.mpr ⟨hg, decide_eq_true hlt⟩)
    · have hone : [g].filter (fun g => decide (g < 2 ^ 25)) = [g] := List.filter_eq_self.mpr fun x hx => by
        rw [List.mem_singleton.mp hx]
        exact decide_eq_true hlt
      rw [hcor, hgood, hone]
      rfl
  case steps =>
    have hrow {i : Instr} {step next : WakeStep} (hi : exec i s = .next (wakeStep d.val step next s)) :
        ((s.dom d.val).st ≠ .waking ∨ (s.dom d.val).step ≠ step → exec i s = .next s)
        ∧ ((s.dom d.val).st = .waking → (s.dom d.val).step = step →
          s.now ≤ (s.dom d.val).stepStart + stepMax d.val (s.dom d.val).fromOff false step * 20000 →
          exec i s = .next (s.setDom d.val { s.dom d.val with step := next, stepStart := s.now }))
        ∧ ((s.dom d.val).st = .waking → (s.dom d.val).step = step →
          (s.dom d.val).stepStart + stepMax d.val (s.dom d.val).fromOff false step * 20000 < s.now →
          exec i s = .next (failWake d.val s)) := by
      rw [hi, wakeStep_eq]
      refine ⟨fun h => congrArg _ (if_neg fun hn => ?_), fun hst hstep hin => congrArg _ ((if_pos ⟨hst, hstep⟩).trans
        (if_neg (Nat.not_lt.mpr hin))), fun hst hstep hlate => congrArg _ ((if_pos ⟨hst, hstep⟩).trans (if_pos hlate))⟩
      exact h.elim (fun hst => hst hn.1) fun hstep => hstep hn.2
    exact ⟨hrow rfl, hrow rfl, hrow rfl⟩
  case restore =>
    intro k pass clean last
    refine ⟨exec_restore_of_other, fun hst hstep hlate => (exec_restore_of_waking hst hstep).trans (congrArg _ (if_pos hlate)),
      fun hst hstep hin => ?_⟩
    have hexec : exec (.restore d i) s = .next (restoreDomain d.val i s) :=
      (exec_restore_of_waking hst hstep).trans (congrArg _ (if_neg (Nat.not_lt.mpr hin)))
    refine ⟨fun hoff hd => hexec.trans (congrArg _ (restoreDomain_of_off hoff hd)), fun hoff hd hpass => ?_, fun hoff hd hfail => ?_,
      fun hret h => hexec.trans (congrArg _ (restoreDomain_of_kept hret h)),
      fun hret hlost hd => hexec.trans (congrArg _ (restoreDomain_of_lost hret hlost hd))⟩
    · have hoff4 : (s.dom 4).fromOff = true := hd ▸ hoff
      rw [hexec, hd, restoreDomain_of_trained hoff4 ((diesPass_iff _).mpr hpass)]
    · have hoff4 : (s.dom 4).fromOff = true := hd ▸ hoff
      have hstep4 : (s.dom 4).step = .restore := hd ▸ hstep
      have hk : k = s.dom 4 := congrArg s.dom hd
      rw [hexec, hd, restoreDomain_of_untrained hoff4 (mt (diesPass_iff _).mp hfail), hk]
      refine ⟨_, rfl, faultsum_failWake_mem _ hstep4 hoff4, ?_⟩
      have hcode : (s.dom 4).step.code = 4 := congrArg WakeStep.code hstep4
      exact (dom_failWake_self 4 _).trans (congrArg (fun code => ({ s.dom 4 with
        st := .off, failedStep := code, wakeFailed := true, failed := (s.dom 4).failed.bump } : Domain)) hcode)
  case ends =>
    rw [exec_wakeTimeout]
    refine ⟨fun h => congrArg _ (if_neg fun hn => ?_), fun hst hdue => congrArg _ (if_pos ⟨hst, hdue⟩),
      fun hst => congrArg Host.Outcome.next (if_neg hst), fun hst => ⟨_, congrArg Host.Outcome.next (if_pos hst), ?_⟩⟩
    · exact h.elim (fun hst => hst hn.1) fun hlt => Nat.not_le.mpr hlt hn.2
    · rw [State.dom_of_domains (domains_settleDom _ _ _ _ _), dom_endEntry]
  case round =>
    refine ⟨exec_roundEnd_of_idle l s, fun hi => ?_⟩
    obtain ⟨t, ht, htally⟩ := exec_roundEnd_of_in l s hi
    have hlate : t.house.lateEnd = decide (s.house.roundDue < s.now) := congrArg Tally.lateEnd htally
    refine ⟨t, ht, congrArg Tally.inRound htally, congrArg Tally.rounds htally, congrArg Tally.roundUs htally, ?_,
      congrArg Tally.disagree htally, fun hA => (congrArg Tally.failA htally).trans (latch_failA_of_good hA _ _ l.readings.chkB),
      fun hB => (congrArg Tally.failB htally).trans (latch_failB_of_good hB _ l.readings.chkA _),
      fun hA hc => (congrArg Tally.failA htally).trans (latch_failA_of_held hA hc _ _ l.readings.chkB),
      fun hB hc => (congrArg Tally.failB htally).trans (latch_failB_of_held hB hc _ l.readings.chkA _)⟩
    rw [hlate, decide_eq_true_eq]
  case check =>
    exact ⟨check_of_near a b hA hB, check_badA a b hA hB, check_badB a b hA hB, check_badBoth a b hA hB⟩
  case inject =>
    intro waiting safe
    have hsafe : s.injSafeDue = true ↔ safe := injSafeDue_iff s
    have hunsafe (h : ¬safe) : s.injSafeDue = false := Bool.eq_false_of_not_eq_true (mt hsafe.mp h)
    refine ⟨fun hw hn hd => exec_injectedSequence_of_none z s hw (hunsafe hn) hd, fun h => ?_⟩
    have hdue : s.injWaiting ≠ [] ∨ s.injSafeDue = true ∨ s.house.injDue ≠ [] := h.imp_right (Or.imp_left hsafe.mpr)
    obtain ⟨t, ht, htally⟩ := exec_injectedSequence_of_due z s hdue
    have hunread (hw : waiting = []) : t = s.injNoted (if s.injSafeDue then 24 else 32) s.injSafeDue :=
      Host.Outcome.next.inj (ht.symm.trans
        (exec_injectedSequence_of_unread z s hw (hdue.resolve_left (not_not.mpr hw))))
    refine ⟨t, ht, congrArg Tally.injected htally, congrArg Tally.rounds htally, fun hw hn => ?_, fun hw hs => ?_⟩
    · rw [hunread hw, hunsafe hn]
      rfl
    · rw [hunread hw, hsafe.mpr hs]
      rfl
  case compare =>
    intro c far u
    refine ⟨fun hnear => ?_, fun hfar honce hfirst => ?_, fun hfar h => ?_⟩
    · simp only [zCompare_of_near once hnear, u, if_neg hnear]
    · simp only [zCompare_of_far once hfar, u, if_pos hfar]
      exact if_neg (by simp [honce, hfirst, c])
    · simp only [zCompare_of_far once hfar, u, if_pos hfar]
      exact if_pos (by simpa using h)
  case shut =>
    exact ⟨shutDomain_of_off, shutDomain_of_on, shutDomain_of_leaving, dom_shutDomain⟩
  case enter =>
    refine ⟨dom_enter d target s, zch_enter_of_ne, ?_⟩
    rintro rfl hd z hz
    exact st_enter_off hd s hz
  case blind =>
    intro c starved v go
    have hdone (h : c.runAt + 536870912 ≤ s.now) := exec_adcBlindRunEnd_of_due p low extremes stats s h
    have hstarved : (low || decide (536870912 < 100 * extremes)) = true ↔ starved := by
      rw [Bool.or_eq_true, decide_eq_true_eq]
    refine ⟨fun h => ?_, fun hst hdue hs => ?_, fun hst hdue hs => ?_⟩
    · by_cases hearly : s.now < c.runAt + 536870912
      · exact exec_adcBlindRunEnd_of_early p low extremes stats s hearly
      · rw [hdone (Nat.not_lt.mp hearly), endRunOf_of_idle _ _ _ (h.resolve_right hearly)]
    · rw [hdone hdue, hstarved.mpr hs, endRunOf_of_starved _ _ hst]
    · rw [hdone hdue, Bool.eq_false_of_not_eq_true (mt hstarved.mp hs), endRunOf_of_fed _ _ hst, instDom_of_input]
  case estimates =>
    refine ⟨fun e he => ?_, fun hx e he => ?_⟩
    · rw [mem_adcEstimates_of_equal he]
      exact ⟨adcOffset_of_equal hn sum, rfl⟩
    · rw [mem_adcEstimates_of_equal he, adcGain_of_equal (Int.pos_iff_toNat_pos.mp hx)]
      rfl
  case values => rfl
  case zstat =>
    intro i c go seen
    have hend : exec (.zstatRunEnd q est) s = .next (endRunOf i (decide (seen = [])) (zValues seen).1 (zValues seen).2 s) := rfl
    refine ⟨fun hst => ?_, fun hst hs => ?_, fun hst hs => ?_⟩
    · rw [hend, endRunOf_of_idle _ _ _ hst]
    · rw [hend, decide_eq_true hs, endRunOf_of_starved _ _ hst]
    · rw [hend, decide_eq_false hs, endRunOf_of_fed _ _ hst, instDom_of_quadrant]
  case trim =>
    refine ⟨exec_trimEnd_of_other scope target est zest s,
      fun i rest hi ha hq => ⟨_, exec_trimEnd_of_head scope target est zest s hi ha hq, ?_⟩⟩
    have hframe := trimFrame_nextTrim s i scope rest (if i < 16 then (adcValues est).1 else if 64 ≤ i then (zValues zest).1 else [])
    simp only [State.trimFrame, CalInst.marks, Prod.mk.injEq] at hframe
    obtain ⟨hqueue, hmarks⟩ := hframe
    exact ⟨hqueue ▸ tget_tset_self [] s.calib.trimQ scope rest, hmarks⟩
  case store =>
    intro c late due g whole one two gen
    have hlate : c.wroteLate s.now = false ↔ ¬late := by rw [← Bool.not_eq_true, wroteLate_iff]
    have hdue : s.storeDue i.val ↔ due := and_congr_right' (and_congr_right' (or_congr_left hlate))
    refine ⟨fun h => exec_storeWrite_of_not_due i up1 up2 s (mt hdue.mp h),
      fun h => ⟨_, exec_storeWrite_of_due i up1 up2 s (hdue.mpr h), ?_⟩⟩
    rw [calI_settleCal_modCal]
    obtain ⟨hvals, herrs⟩ := storeWritten_keeps c i.val g s.now one two
    exact ⟨rfl, rfl, rfl, hvals, herrs, storeWritten_of_older_a i.val g s.now one two, storeWritten_of_older_b i.val g s.now one two⟩
  case proof =>
    intro p sig want u v
    refine ⟨fun h => congrArg Host.Outcome.next (if_pos (by simp [p, h])), fun h => ?_, fun hk => if_pos hk⟩
    have hactive : ¬(!p.active) = true := by simp [h]
    refine ⟨fun hab => congrArg Host.Outcome.next ((if_neg hactive).trans (if_pos hab)), fun hab heq => ?_, fun hab hne => ?_⟩
    · exact congrArg Host.Outcome.next ((if_neg hactive).trans ((if_neg (Bool.eq_false_iff.mp hab)).trans (if_pos (beq_iff_eq.mpr heq))))
    · exact congrArg Host.Outcome.next ((if_neg hactive).trans ((if_neg (Bool.eq_false_iff.mp hab)).trans (if_neg (mt beq_iff_eq.mp hne))))
  case join =>
    intro done
    refine ⟨addResult_of_unjoined, fun j hj hid => ⟨addResult_of_abandoned hj hid, fun x => ?_⟩⟩
    exact ⟨fun h => (addResult_of_result hj hid x).trans (if_pos h),
      fun h => (addResult_of_result hj hid x).trans (if_neg (not_not.mpr h))⟩
  all_goals exact List.mem_append_right _ (by simp)

end Sys2Proof.Machine
end
